-- ==== Sys2Proof/Word.lean ====
section
/-! DEFINITION. Sys2Proof/Word.lean: the word types of the VXE1536 and their plainest arithmetic.
A direct register and a parameter value are 32-bit words (R10, R16); audio samples are integers
in a named format (spec/00_scope.md, "Number formats") and are narrowed explicitly by
Sys2Proof/Machine/Num.lean. -/
namespace Sys2Proof

/-- A byte of a message, an image or a frame. -/
abbrev Byte := BitVec 8

/-- A 32-bit word: a direct register (R16) or a Tarn instruction word (R161). -/
abbrev Word := BitVec 32

/-- A Tarn data word (48 bits). -/
abbrev W48 := BitVec 48

/-- A Tarn accumulator (80 bits). -/
abbrev W80 := BitVec 80

end Sys2Proof
end

