-- ==== Sys2Proof/Types.lean ====
section
/-! DEFINITION. Sys2Proof/Types.lean: the operands that commands carry beside numbers. -/
namespace Sys2Proof.Machine

/-- An authenticated VCP request as the control cores serve it: the session number 1…8 and the request sequence
(R304, R314). -/
structure Req where
  sid : Nat
  seq : Nat
  deriving DecidableEq, Repr

/-- A parameter entry of a stage set: handle and 32-bit value (R108). -/
structure Entry where
  h : Nat
  v : Nat
  deriving DecidableEq, Repr

/-- The ATTRIBUTES item (R306, R307): 0 stands for a default length. -/
structure Attrs where
  nextPossible : Bool
  noWait       : Bool
  cfLen        : Nat
  dxLen        : Nat
  label        : List Nat
  deriving DecidableEq, Repr

/-- The NODES item (R308): form code, the gain and tap flags, the ranges, and the node data (G32 word, tap byte). -/
structure Nodes where
  form    : Nat
  gain    : Bool
  tap     : Bool
  dest    : Nat
  src     : Nat
  nd      : Nat
  ns      : Nat
  data    : List (Nat × Nat)
  deriving DecidableEq, Repr

/-- A time argument: an MCC value, or next possible (R122). -/
inductive When where
  | next
  | mcc (c : Nat)
  deriving DecidableEq, Repr

/-- What a cue commits (R131). -/
inductive CueWhat where
  | scene (id scope : Nat)
  | set   (id : Nat)
  deriving DecidableEq, Repr

/-- When a cue fires (R131): an MCC value, or a PHC time in seconds and nanoseconds. -/
inductive CueTime where
  | mcc (c : Nat)
  | phc (sec ns : Nat)
  deriving DecidableEq, Repr

/-- One cue of a list. -/
structure Cue where
  what : CueWhat
  time : CueTime
  deriving DecidableEq, Repr

/-- Where a datagram or mailbox request comes from: a UDP address and port, or a mailbox channel (7 is host SPI). -/
inductive Origin where
  | udp (addr port : Nat)
  | mbx (ch : Nat)
  deriving DecidableEq, Repr

/-- The straps sampled in reset (R337): MODE, BOOT, TWIN_EN, PAIR_ID. -/
structure Straps where
  mode   : Nat
  boot   : Nat
  twinEn : Bool
  pairId : Bool
  deriving DecidableEq, Repr

/-- A fabric transaction (R368–R374): master port; the port receiver of M19, or of M22 which of its two it is (0 PCIe, 1 host SPI); the QoS it
carries; whether it is block data; arrival cycle, byte address, whether it writes; its beats in the master's native width, with the byte
enables of each; whether it belongs to a locked sequence and goes on after this one; and what befell the first line it reads (0 nothing, 1
the line fails its parity, 2 line and mirror fail). -/
structure Txn where
  master  : Nat
  unit    : Nat
  qos     : Nat
  block   : Bool
  arrived : Nat
  addr    : Nat
  write   : Bool
  beats   : List Nat
  enables : List Nat
  locked  : Bool
  more    : Bool
  parity  : Nat
  promoted : Bool
  deriving DecidableEq, Repr

/-- What a reset request names (R394, R395). -/
inductive ResetName where
  | tarn (n : Nat)
  | mere
  | net
  | twin
  | lone (crossing : Nat)     -- a reset domain that is a group of its own, with the crossing it takes part in
  | part (group : Nat)        -- a single reset domain of a group that has more than one
  deriving DecidableEq, Repr

/-- A frame that a NET port receives, as its headers give it (R253). -/
structure NetFrame where
  len    : Nat        -- bytes from the destination address to the FCS
  fcs    : Bool       -- the FCS is right
  tagged : Bool       -- with a VLAN tag
  etype  : Nat        -- EtherType behind the tag
  proto  : Nat        -- IPv4 protocol
  src    : Nat        -- IPv4 source address
  dst    : Nat        -- IPv4 destination address, or the address that an ARP message asks for
  udp    : Nat        -- UDP destination port
  msg    : Nat        -- first byte of the PTP, ICMP or IGMP message, or the ARP operation
  deriving DecidableEq, Repr

/-- A memory detection on a poisoned or failing word (R379, R380, R383, R384, R410). -/
inductive MemFault where
  | poolMirrored (bank : Nat)
  | poolBoth (bank : Nat)
  | poolPlain (bank : Nat)
  | dramCorrected (addr : Nat)
  | dramDouble (addr : Nat)
  | dramRetry (n : Nat)
  deriving DecidableEq, Repr

/-- A heartbeat record (R439): role, MCC of its block, generation, FAULT_SUM and, on TWL, the digests. `run` names a chip in QUIET
or RUN with no role yet, `boot` one in BOOT at stage 0x10 (R428, R429). -/
structure Heartbeat where
  role    : Nat
  run     : Bool
  boot    : Bool
  mcc     : Nat
  gen     : Nat
  fault   : Nat
  digests : List Nat
  deriving DecidableEq, Repr

/-- One item of an input record (R431). -/
inductive InItem where
  | sapLoss (port dir cause frame : Nat)
  | sapResume (port dir : Nat) (muted : Bool) (frame : Nat)
  | madiLoss (port cause frame : Nat)
  | madiResume (port : Nat) (muted : Bool) (frame : Nat)
  | sapSlip (port dir : Nat) (late : Bool)
  | madiRepeat (port chan stamp : Nat)
  | ratio (chan word : Nat)
  | packet (stream leg seq ts : Nat) (data : List Nat)
  | decsync (c : Nat)
  | mic (samples : List Nat)
  | hsp (type buttons : Nat)
  deriving DecidableEq, Repr

/-! ### What replies, queues and stage sets hold -/

/-- A FINDING (R112): category, error code, handle or form, detail word. -/
structure Finding where
  cat : Nat
  err : Nat
  h   : Nat
  det : Nat
  deriving DecidableEq, Repr

/-- A VCP datagram on its way to a UDP address and port, from port 4870 (R309). -/
structure Datagram where
  addr : Nat
  port : Nat
  data : List Nat
  deriving DecidableEq, Repr

/-- An item of a reply body beside STATUS (R306). -/
inductive Item where
  | finding (f : Finding)
  | set (id : Nat)
  | mcc (c : Nat)
  | entries (l : List Entry)
  | nonce (b : List Nat)
  | cont (off : Nat)
  | blob (b : List Nat)
  | words (w : List Nat)
  deriving DecidableEq, Repr

/-- A reply: the request it answers, its status and detail word, its items. -/
structure Reply where
  sid    : Nat
  seq    : Nat
  cmd    : Nat
  status : Nat
  detail : Nat
  items  : List Item
  deriving DecidableEq, Repr

/-- A message the device sends unasked (R304): EVENT or METER. -/
structure Push where
  sid   : Nat
  seq   : Nat
  cmd   : Nat
  items : List Item
  deriving DecidableEq, Repr

/-- A record of a session queue (R328, R332): whether it was delivered, and when it was last pushed. -/
structure QRec where
  seq       : Nat
  id        : Nat
  count     : Nat
  part      : Nat
  detail    : Bool
  mcc       : Nat
  arg       : Nat
  delivered : Bool
  pushed    : Option Nat      -- MCC of its last push over UDP
  deriving DecidableEq, Repr

/-- An open session (R312–R320, R331–R333). -/
structure Session where
  sid      : Nat
  cred     : Nat
  role     : Nat             -- 0 device, 1 owner, 2 observer
  mask     : Nat             -- the credential's partition mask
  takeover : Bool
  recovery : Bool            -- the recovery session of credential 0 (R357)
  origin   : Origin
  enc      : Bool
  keepMs   : Nat             -- keepalive in ms; 0 none
  ks       : List Nat
  ke       : List Nat
  salt     : List Nat
  high     : Nat             -- highest accepted sequence
  seen     : List Nat        -- accepted sequences within 64 of the highest
  progress : List Nat        -- requests in progress
  replies  : List Reply      -- the last 16, newest first
  pushSeq  : Nat
  evMask   : Nat
  interval : Nat             -- delivery interval in ms
  since    : Nat             -- MCC from which its intervals count (R333)
  ends     : Nat             -- interval ends that have passed
  nextEv   : Nat
  queue    : List QRec       -- oldest first
  full     : Bool            -- an undelivered EV_QUEUE_OVERFLOW record stands in the last slot
  lost     : Nat             -- occurrences dropped after the overflow record was delivered
  meters   : List Nat        -- meter points subscribed (R324)
  ring     : List Nat        -- sequence numbers of the records in the mailbox event ring that MBX_EVR has not passed, oldest first
  heard    : Nat             -- MCC of the last authenticated request
  deriving DecidableEq, Repr

/-- One addition to a stage set, in the order of addition (R108, R109): a parameter entry; a node entry of class 0x03 or 0x04 with the
target and tap committed when it was staged (R82); a staging form with its cost in the stage area and its nodes (key, G32 target,
tap); a recalled scene: its partition and scope, the partition's destinations, its parameter entries and its nodes (R138); handles that
STAGE_REMOVE took out again. -/
inductive Added where
  | entry (e : Entry)
  | node  (e : Entry) (tgt : Int) (tap : Nat)
  | form  (kind cost : Nat) (nodes : List (Nat × Int × Nat))
  | recall (part scope : Nat) (dests : List Nat) (params : List Entry) (nodes : List (Nat × Int × Nat))
  | drop (handles : List Nat)
  deriving DecidableEq, Repr

/-- A change the ACTIVE forwards (R433, R436), a planned swap (R445), and the committed configuration that the SOLO chip copies (R446). -/
inductive Fwd where
  | stage (set : Nat) (attrs : Attrs) (added : List Added)
  | cosign (set part : Nat)
  | commit (set c : Nat)
  | cancel (set : Nat)
  | own (part sid : Nat)
  | decsync (c : Nat)
  | mccAlign
  | phcSet (sec ns : Nat)
  | legacy (addr val : Nat)
  | mstore (addr : Nat) (data : List Nat)
  | moduleLoad (image : List Nat)
  | cueLoad (list : Nat) (cues : List Cue)
  | cueArm (list : Nat)
  | cueDisarm (list : Nat)
  | session (x : Session)
  | sessionEnd (sid : Nat)
  | swap (h : Nat)
  | config (entries : List Entry) (nodes : List (Nat × Int × Nat)) (gen : Nat)
  deriving DecidableEq, Repr

/-! ### Operands of Tarn instructions (spec/06_tarn_programming_model.md) -/

/-- A parallel move (12-bit field): direction, register code, address register, addressing mode. -/
structure PMove where
  store : Bool
  reg   : Nat
  an    : Nat
  mode  : Nat
  deriving DecidableEq, Repr

/-- The X and Y parallel moves of a 64-bit ALU or MAC instruction; none is a move not enabled. -/
structure Moves where
  x : Option PMove
  y : Option PMove
  deriving DecidableEq, Repr

/-- Operands of an ALU instruction: class 0x1 without moves, class 0xC with them. -/
structure AluF where
  dst   : Nat
  src1  : Nat
  src2  : Nat
  shift : Nat
  mv    : Option Moves
  deriving DecidableEq, Repr

/-- Operands of a MAC instruction: single or quad; the accumulator or the pattern; dx and dy of a single MAC; classes 0x2
and 0x3 without moves, class 0xD with them. -/
structure MacF where
  quad : Bool
  acc  : Nat
  dx   : Nat
  dy   : Nat
  mv   : Option Moves
  deriving DecidableEq, Repr

/-- Operands of a class 0x5 load or store; `y` names the Y space. -/
structure LdSt where
  y     : Bool
  store : Bool
  reg   : Nat
  an    : Nat
  mode  : Nat
  addr  : Nat
  deriving DecidableEq, Repr

/-- Operands of a class 0x6 AGU instruction; `imm` is the 16-bit field. -/
structure AguF where
  op    : Nat
  kind  : Nat
  index : Nat
  d     : Nat
  imm   : Nat
  deriving DecidableEq, Repr

/-- A REP or LOOP count: the immediate count, or a D register. -/
inductive Count where
  | imm (n : Nat)
  | reg (d : Nat)
  deriving DecidableEq, Repr

end Sys2Proof.Machine
end

