-- ==== Sys2Proof/Syntax.lean ====
section
/-! DEFINITION. Sys2Proof/Syntax.lean: the commands of the VXE1536 model, one constructor per row of spec/opcode_table.json.
Each docstring gives the row and the rule of spec/ that owns it. -/
namespace Sys2Proof

open Machine

/-- A command: a request of the host control protocol, an event on a pin, a port or a monitor, an internal step of one of the
engines, or an instruction of a Tarn engine. -/
inductive Instr where
  /-- POWER_ON_STANDBY_SET (R481). -/
  | powerOnStandbySet
  /-- MAIN_RAILS_IN_RANGE (R483). -/
  | mainRailsInRange
  /-- MAIN_RAIL_OUT_OF_RANGE (R481). -/
  | mainRailOutOfRange
  /-- STANDBY_SET_LOST (R481). -/
  | standbySetLost
  /-- RESET_N_LOW (R17). -/
  | resetNLow
  /-- RESET_N_RISE (R337). -/
  | resetNRise (straps : Straps)
  /-- IMAGE_HEADER_READ (R342). -/
  | imageHeaderRead (header : Option (List Nat))
  /-- IMAGE_SECTIONS_READ (R342). -/
  | imageSectionsRead (sections : List (List Nat))
  /-- DRAM_TRAINING_DONE (R348). -/
  | dramTrainingDone (ok : Bool)
  /-- PCIE_IMAGE_CHUNK (R345). -/
  | pcieImageChunk (bytes : List Nat)
  /-- TWIN_IMAGE_RECEIVED (R346). -/
  | twinImageReceived (bytes : Option (List Nat))
  /-- TWIN_IMAGE_SEND (R429). -/
  | twinImageSend
  /-- START_SCENE_COMMIT (R350). -/
  | startSceneCommit
  /-- ENTER_QUIET (R351). -/
  | enterQuiet
  /-- TWIN_FIRST_ROLE_TIMEOUT (R428). -/
  | twinFirstRoleTimeout
  /-- ENTER_RUN (R352). -/
  | enterRun
  /-- RUN_TIMEOUT (R352). -/
  | runTimeout
  /-- STBY_N_LOW_HELD (R355). -/
  | stbyNLowHeld
  /-- ENTER_STANDBY (R355). -/
  | enterStandby (bound : Bool)
  /-- STBY_N_HIGH_WAKE (R355). -/
  | stbyNHighWake (straps : Straps)
  /-- PROFILE_RECONFIG_DONE (R3). -/
  | profileReconfigDone
  /-- FRAME_TICK (R24). -/
  | frameTick
  /-- PATCH_REVERT (R42). -/
  | patchRevert (n : Nat)
  /-- COMMIT_APPLIED (R126). -/
  | commitApplied (id : Nat)
  /-- PD_SWITCH_DONE (R418). -/
  | pdSwitchDone (d : Nat)
  /-- ZC_STEP (R44). -/
  | zcStep (h : Nat) (n : Nat)
  /-- ZC_TIMEOUT (R44). -/
  | zcTimeout (h : Nat) (n : Nat)
  /-- ZC_RAMP_END (R44). -/
  | zcRampEnd (h : Nat) (n : Nat)
  /-- XFADE_END (R47). -/
  | xfadeEnd (h : Nat) (n : Nat)
  /-- NODE_GROUP_ZERO_CROSSING (R89). -/
  | nodeGroupZeroCrossing (g : Nat) (n : Nat)
  /-- NODE_GROUP_TIMEOUT (R89). -/
  | nodeGroupTimeout (g : Nat) (n : Nat)
  /-- NODE_RAMP_END (R90). -/
  | nodeRampEnd (g : Nat) (n : Nat)
  /-- TAP_HANDOVER_SWITCH (R92). -/
  | tapHandoverSwitch (d : Nat) (s : Nat) (n : Nat)
  /-- MERE_SEGMENT_DETECTION (R101). -/
  | mereSegmentDetection (lane : Nat) (fits : Bool)
  /-- NODE_CORRECTED (R104). -/
  | nodeCorrected (d : Nat) (s : Nat)
  /-- NODE_RESTORED (R105). -/
  | nodeRestored (d : Nat) (s : Nat) (field : Nat)
  /-- MERE_SCRUB_PASS (R104). -/
  | mereScrubPass (nodes : List Nat) (tables : Nat)
  /-- CHECK_DONE (R112). -/
  | checkDone
  /-- PLANE_READY (R110). -/
  | planeReady
  /-- COMMIT_SCHEDULED (R122). -/
  | commitScheduled (id : Nat)
  /-- CF_BANK_WRITE (R130). -/
  | cfBankWrite (h : Nat)
  /-- CUE_FIRED (R132). -/
  | cueFired (list : Nat)
  /-- SCENE_SAVE_DONE (R136). -/
  | sceneSaveDone
  /-- SCENE_READ_DONE (R138). -/
  | sceneReadDone (id : Nat)
  /-- SPRING_PERIOD (R139). -/
  | springPeriod (detections : List (Nat × Bool))
  /-- SPRING_SOURCE_HANDOVER (R149). -/
  | springSourceHandover (m : Nat) (i : Nat)
  /-- SPRING_OUTPUT_HANDOVER (R150). -/
  | springOutputHandover (m : Nat) (ref : Nat)
  /-- SPRING_SOURCE_CLOCK_LOSS (R152). -/
  | springSourceClockLoss (ref : Nat)
  /-- SPRING_OUTPUT_CLOCK_RETURN (R153). -/
  | springOutputClockReturn (ref : Nat)
  /-- SPRING_UNIT_RETIRE (R154). -/
  | springUnitRetire (unit : Nat)
  /-- DISPATCH_INTERRUPT (R186). -/
  | dispatchInterrupt (e : Nat)
  /-- DISPATCH_RETURN (R187). -/
  | dispatchReturn (e : Nat)
  /-- SERVICE_INTERRUPT (R186). -/
  | serviceInterrupt (e : Nat) (debug : Bool)
  /-- TASK_OVERRUN (R192). -/
  | taskOverrun (e : Nat)
  /-- ILLEGAL_INSTRUCTION (R174). -/
  | illegalInstruction (e : Nat)
  /-- NOP (R173). -/
  | nop (e : Nat)
  /-- ADD (R175). -/
  | add (e : Nat) (f : AluF)
  /-- SUB (R175). -/
  | sub (e : Nat) (f : AluF)
  /-- NEG (R175). -/
  | neg (e : Nat) (f : AluF)
  /-- ABS (R175). -/
  | abs (e : Nat) (f : AluF)
  /-- AND (R175). -/
  | andOp (e : Nat) (f : AluF)
  /-- OR (R175). -/
  | orOp (e : Nat) (f : AluF)
  /-- XOR (R175). -/
  | xorOp (e : Nat) (f : AluF)
  /-- NOT (R175). -/
  | notOp (e : Nat) (f : AluF)
  /-- ASL (R175). -/
  | asl (e : Nat) (f : AluF)
  /-- ASR (R175). -/
  | asr (e : Nat) (f : AluF)
  /-- LSR (R175). -/
  | lsr (e : Nat) (f : AluF)
  /-- MIN (R175). -/
  | minOp (e : Nat) (f : AluF)
  /-- MAX (R175). -/
  | maxOp (e : Nat) (f : AluF)
  /-- CMP (R175). -/
  | cmp (e : Nat) (f : AluF)
  /-- TST (R175). -/
  | tst (e : Nat) (f : AluF)
  /-- CLR (R175). -/
  | clr (e : Nat) (f : AluF)
  /-- RND (R165). -/
  | rnd (e : Nat) (f : AluF)
  /-- SAT (R165). -/
  | sat (e : Nat) (f : AluF)
  /-- MAC (R162). -/
  | mac (e : Nat) (f : MacF)
  /-- MSU (R162). -/
  | msu (e : Nat) (f : MacF)
  /-- MPY (R162). -/
  | mpy (e : Nat) (f : MacF)
  /-- MOVE (R164). -/
  | move (e : Nat) (dst : Nat) (src : Nat)
  /-- LOAD_STORE (R167). -/
  | loadStore (e : Nat) (f : LdSt)
  /-- AGU_OPERATION (R167). -/
  | aguOperation (e : Nat) (f : AguF)
  /-- SHORT_IMMEDIATE (R173). -/
  | shortImmediate (e : Nat) (d : Nat) (imm : Nat)
  /-- LONG_IMMEDIATE (R173). -/
  | longImmediate (e : Nat) (reg : Nat) (imm : Nat)
  /-- BRANCH (R185). -/
  | branch (e : Nat) (c : Nat) (target : Nat)
  /-- CALL (R183). -/
  | call (e : Nat) (c : Nat) (target : Nat)
  /-- RET (R183). -/
  | ret (e : Nat) (c : Nat)
  /-- END (R192). -/
  | endTask (e : Nat) (c : Nat)
  /-- REP (R177). -/
  | rep (e : Nat) (count : Count)
  /-- LOOP (R178). -/
  | loop (e : Nat) (count : Count) (le : Nat)
  /-- ENDL (R180). -/
  | endl (e : Nat)
  /-- LPUSH (R181). -/
  | lpush (e : Nat)
  /-- LPOP (R181). -/
  | lpop (e : Nat)
  /-- LOG2 (R176). -/
  | log2 (e : Nat) (dst : Nat) (src : Nat)
  /-- EXP2 (R176). -/
  | exp2 (e : Nat) (dst : Nat) (src : Nat)
  /-- RECIP (R176). -/
  | recip (e : Nat) (dst : Nat) (src : Nat)
  /-- RSQRT (R176). -/
  | rsqrt (e : Nat) (dst : Nat) (src : Nat)
  /-- TARN_DETECTION (R405). -/
  | tarnDetection (e : Nat) (cause : Nat) (addr : Nat) (again : Bool) (fits : Bool)
  /-- TARN_RETIRE (R407). -/
  | tarnRetire (e : Nat)
  /-- SPARE_SELF_TEST_PASS (R409). -/
  | spareSelfTestPass (ok : Bool)
  /-- TARN_SCRUB_PASS (R402). -/
  | tarnScrubPass
  /-- POISONED_BLOCK_READ (R410). -/
  | poisonedBlockRead (buffer : Nat) (key : Nat) (index : Nat)
  /-- CC_ROLLBACK (R412). -/
  | ccRollback (addr : Nat)
  /-- CC_CHECKPOINT (R412). -/
  | ccCheckpoint
  /-- CC_RESTART (R413). -/
  | ccRestart (cause : Nat)
  /-- CC_WATCHDOG_EXPIRY (R413). -/
  | ccWatchdogExpiry
  /-- CC_RESTART_DONE (R413). -/
  | ccRestartDone
  /-- DROOP_REPORT (R414). -/
  | droopReport (mere : Bool)
  /-- THROTTLE_STEP (R414). -/
  | throttleStep (mere : Bool)
  /-- TEMP_WARN (R416). -/
  | tempWarn (celsius : Int)
  /-- MAINT_REQUEST (R419). -/
  | maintRequest (r : Req) (code : Nat) (target : Nat) (noWait : Bool)
  /-- MAINT_STATUS (R419). -/
  | maintStatus (r : Req)
  /-- MAINT_GRANT (R419). -/
  | maintGrant
  /-- MAINT_ACTIVITY_END (R420). -/
  | maintActivityEnd (ok : Bool)
  /-- SAP_FRAME (R212). -/
  | sapFrame (port : Nat) (tx : Bool) (words : List Nat) (phase : Int) (period bclks : Nat)
  /-- SAP_CLOCK_STOP (R219). -/
  | sapClockStop (port : Nat) (tx : Bool) (idle : Nat)
  /-- SAP_RATE_MEASURED (R221). -/
  | sapRateMeasured (port : Nat) (tx : Bool) (period : Nat) (bclks : Nat)
  /-- SAP_STOP_DONE (R215). -/
  | sapStopDone (port : Nat) (tx : Bool)
  /-- SAP_MASK_SHADOW_WRITE (R217). -/
  | sapMaskShadowWrite (port : Nat) (tx : Bool)
  /-- SAP_LAYOUT (R217). -/
  | sapLayout (port : Nat) (tx : Bool)
  /-- MADI_FRAME (R227). -/
  | madiFrame (port : Nat) (tx : Bool) (subframes : List Nat) (violations period : Nat)
  /-- MADI_LOCK (R229). -/
  | madiLock (port : Nat) (period : Nat)
  /-- MADI_STOP (R229). -/
  | madiStop (port : Nat) (idle : Nat)
  /-- HSP_INSERTION (R230). -/
  | hspInsertion
  /-- HSP_PLUG (R231). -/
  | hspPlug (tip : Nat) (ring1 : Nat) (ring2 : Nat) (sleeve : Nat)
  /-- HSP_BUTTON_DOWN (R233). -/
  | hspButtonDown
  /-- HSP_BUTTON_PRESS (R233). -/
  | hspButtonPress (mv : Nat)
  /-- HSP_BUTTON_REPEAT (R233). -/
  | hspButtonRepeat
  /-- HSP_BUTTON_RELEASE (R233). -/
  | hspButtonRelease
  /-- HSP_UNPLUG (R234). -/
  | hspUnplug
  /-- HSP_MIC_GAIN_STEP (R232). -/
  | hspMicGainStep
  /-- SRC_LOCK (R237). -/
  | srcLock (i : Nat) (ratio : Nat)
  /-- SRC_UNLOCK (R238). -/
  | srcUnlock (i : Nat) (outOfRange : Bool)
  /-- DEC_INPUT_SWITCH (R245). -/
  | decInputSwitch (i : Nat)
  /-- DEC_SILENCE_END (R245). -/
  | decSilenceEnd (i : Nat)
  /-- DECSYNC (R250). -/
  | decsync (r : Req) (w : When)
  /-- DECSYNC_FADE_START (R249). -/
  | decsyncFadeStart
  /-- DECSYNC_RESET (R249). -/
  | decsyncReset
  /-- DECSYNC_PIN_EDGE (R251). -/
  | decsyncPinEdge
  /-- DECSYNC_HOLD_END (R249). -/
  | decsyncHoldEnd
  /-- NET_LINK_DOWN (R255). -/
  | netLinkDown (n : Nat)
  /-- NET_LINK_UP (R255). -/
  | netLinkUp (n : Nat)
  /-- NET_FRAME_RECEIVE (R253). -/
  | netFrameReceive (n : Nat) (f : NetFrame) (stamp : Nat)
  /-- PTP_OFFSET_MEASUREMENT (R256). -/
  | ptpOffsetMeasurement (offset : Int) (leader : Nat)
  /-- ANNOUNCE_TIMEOUT (R260). -/
  | announceTimeout
  /-- PHC_TIMER_PULSE (R259). -/
  | phcTimerPulse (i : Nat)
  /-- PHC_CAPTURE (R259). -/
  | phcCapture (i : Nat) (rising : Bool)
  /-- MCC_RENUMBER (R263). -/
  | mccRenumber
  /-- MCC_UNALIGNED (R264). -/
  | mccUnaligned (edge : Int)
  /-- MCC_REALIGNED (R264). -/
  | mccRealigned (edge : Int)
  /-- STREAM_PACKET_RECEIVE (R267). -/
  | streamPacketReceive (s : Nat) (leg : Nat) (seq : Nat) (ts : Nat) (ns : Nat) (payload : List Nat)
  /-- STREAM_LEG_MISS (R271). -/
  | streamLegMiss (s : Nat) (leg : Nat) (seq : Nat)
  /-- STREAM_PACKET_TRANSMIT (R272). -/
  | streamPacketTransmit (s : Nat)
  /-- STREAM_TX_STOP_DONE (R274). -/
  | streamTxStopDone (s : Nat)
  /-- STREAM_RX_RELEASE (R270). -/
  | streamRxRelease (s : Nat)
  /-- REF_LOST (R281). -/
  | refLost (k : Nat)
  /-- REF_EVALUATION (R285): by slot, the periods seen and the time they took, in units of 0.5 ns. -/
  | refEvaluation (meas : List (Nat × Int × Int))
  /-- CKU_LOCK (R290). -/
  | ckuLock
  /-- CKU_BW_STEP (R290). -/
  | ckuBwStep
  /-- CKU_UNLOCK (R290). -/
  | ckuUnlock
  /-- CKU_GLIDE (R293). -/
  | ckuGlide
  /-- CKU_FREERUN (R293). -/
  | ckuFreerun
  /-- REF4_SLEW_DONE (R289). -/
  | ref4SlewDone (edge : Int)
  /-- CKU_STEER (R296). -/
  | ckuSteer (r : Req) (target : Int)
  /-- CKU_CALIBRATE (R298). -/
  | ckuCalibrate (r : Req)
  /-- CKU_CAL_DONE (R298). -/
  | ckuCalDone (value : Option Int)
  /-- CLKOUT_FREQ_CHANGE (R301). -/
  | clkoutFreqChange (k : Nat)
  /-- VCP_FRAGMENT (R305). -/
  | vcpFragment (o : Origin) (bytes : List Nat)
  /-- REASSEMBLY_TIMEOUT (R305). -/
  | reassemblyTimeout (o : Origin) (sid : Nat) (seq : Nat)
  /-- AUTH_BLOCK_EXPIRY (R313). -/
  | authBlockExpiry (o : Origin)
  /-- SESSION_OPEN (R312). -/
  | sessionOpen (o : Origin) (seq : Nat) (cred : Nat) (role : Nat) (options : Nat) (nonce : List Nat) (keepalive : Option Nat)
  /-- SESSION_CLOSE (R318). -/
  | sessionClose (r : Req)
  /-- KEEPALIVE_EXPIRY (R318). -/
  | keepaliveExpiry (sid : Nat)
  /-- PCIE_LINK_RESET (R376). -/
  | pcieLinkReset
  /-- PING (R321). -/
  | ping (r : Req)
  /-- SUMMARY (R326). -/
  | summary (r : Req)
  /-- PARTITION_CLAIM (R317). -/
  | partitionClaim (r : Req) (mask : Nat) (force : Bool)
  /-- PARTITION_RELEASE (R307). -/
  | partitionRelease (r : Req) (mask : Nat)
  /-- STAGE_OPEN (R107). -/
  | stageOpen (r : Req) (attrs : Option Attrs)
  /-- STAGE_ADD (R108). -/
  | stageAdd (r : Req) (id : Nat) (entries : List Entry)
  /-- STAGE_ROW (R308). -/
  | stageRow (r : Req) (id : Nat) (nodes : Nodes)
  /-- STAGE_COLUMN (R308). -/
  | stageColumn (r : Req) (id : Nat) (nodes : Nodes)
  /-- STAGE_RECT (R308). -/
  | stageRect (r : Req) (id : Nat) (nodes : Nodes)
  /-- STAGE_FILL (R308). -/
  | stageFill (r : Req) (id : Nat) (nodes : Nodes)
  /-- STAGE_REMOVE (R109). -/
  | stageRemove (r : Req) (id : Nat) (handles : List Nat)
  /-- STAGE_CHECK (R118). -/
  | stageCheck (r : Req) (id : Nat)
  /-- STAGE_COSIGN (R121). -/
  | stageCosign (r : Req) (id : Nat) (digest : List Nat) (mac : List Nat)
  /-- COMMIT (R122). -/
  | commit (r : Req) (id : Nat) (w : When)
  /-- STAGE_CANCEL (R125). -/
  | stageCancel (r : Req) (id : Nat)
  /-- STAGE_DISCARD (R106). -/
  | stageDiscard (r : Req) (id : Nat)
  /-- STAGE_REPORT (R112). -/
  | stageReport (r : Req) (id : Nat)
  /-- PAN (R56). -/
  | pan (r : Req) (id : Nat) (src : Nat) (left : Nat) (right : Nat) (law : Nat) (pos : Int) (level : Int)
  /-- SCENE_SAVE (R136). -/
  | sceneSave (r : Req) (part : Nat) (scene : Nat) (label : List Nat)
  /-- SCENE_RECALL (R138). -/
  | sceneRecall (r : Req) (id : Nat) (scene : Nat) (scope : Nat)
  /-- SCENE_LIST (R134). -/
  | sceneList (r : Req) (start : Nat)
  /-- SCENE_DELETE (R134). -/
  | sceneDelete (r : Req) (scene : Nat)
  /-- CUE_LOAD (R131). -/
  | cueLoad (r : Req) (list : Nat) (cues : List Cue)
  /-- CUE_ARM (R132). -/
  | cueArm (r : Req) (list : Nat)
  /-- CUE_DISARM (R131). -/
  | cueDisarm (r : Req) (list : Nat)
  /-- CUE_READ (R131). -/
  | cueRead (r : Req) (list : Nat)
  /-- PARAM_READ (R322). -/
  | paramRead (r : Req) (handles : List Nat)
  /-- MATRIX_READ (R81). -/
  | matrixRead (r : Req) (d : Nat) (s : Nat) (nd : Nat) (ns : Nat) (start : Nat)
  /-- LATENCY_READ (R35). -/
  | latencyRead (r : Req) (outs : List Nat)
  /-- COUNTER_READ (R382). -/
  | counterRead (r : Req) (ids : List Nat)
  /-- METER_SUBSCRIBE (R324). -/
  | meterSubscribe (r : Req) (points : List Nat)
  /-- METER_PERIOD_END (R324). -/
  | meterPeriodEnd (part : Nat)
  /-- STREAM_SDP (R265). -/
  | streamSdp (r : Req) (s : Nat) (sdp : Option (List Nat))
  /-- EVENT_READ (R333). -/
  | eventRead (r : Req) (start : Nat)
  /-- EVENT_ACK (R333). -/
  | eventAck (r : Req) (upTo : Nat)
  /-- EVENT_MASK (R331). -/
  | eventMask (r : Req) (mask : Nat) (interval : Nat)
  /-- EVENT_DETAIL (R328). -/
  | eventDetail (r : Req) (index : Nat)
  /-- DELIVERY_INTERVAL_END (R333). -/
  | deliveryIntervalEnd (sid : Nat)
  /-- PHC_SET (R261). -/
  | phcSet (r : Req) (sec : Nat) (ns : Nat)
  /-- MCC_ALIGN (R263). -/
  | mccAlign (r : Req)
  /-- MODULE_LOAD (R194). -/
  | moduleLoad (r : Req) (image : List Nat)
  /-- MODULE_LIST (R321). -/
  | moduleList (r : Req)
  /-- FW_WRITE (R365). -/
  | fwWrite (r : Req) (slot : Nat) (offset : Nat) (bytes : List Nat)
  /-- FW_SWITCH (R366). -/
  | fwSwitch (r : Req) (slot : Nat) (noWait : Bool)
  /-- TWIN_SWAP (R445). -/
  | twinSwap (r : Req) (w : When)
  /-- CRED_PROVISION (R363). -/
  | credProvision (r : Req) (blob : List Nat)
  /-- LIFECYCLE_SET (R356). -/
  | lifecycleSet (r : Req) (target : Nat) (blob : List Nat)
  /-- KEY_INFO (R359). -/
  | keyInfo (r : Req)
  /-- UNKNOWN_COMMAND (R321). -/
  | unknownCommand (r : Req) (code : Nat)
  /-- SEC_VERSION_FLOOR_RAISE (R358). -/
  | secVersionFloorRaise
  /-- TAMPER_TRIP (R361). -/
  | tamperTrip (source : Nat)
  /-- SB_WIPED (R361). -/
  | sbWiped
  /-- MBX_REQ_WRITE (R310). -/
  | mbxReqWrite (c : Nat) (len : Nat)
  /-- MBX_REPLY (R310). -/
  | mbxReply (c : Nat)
  /-- MBX_EVR_WRITE (R333). -/
  | mbxEvrWrite (c : Nat) (value : Nat)
  /-- EV_STAT_CLEAR (R334). -/
  | evStatClear (k : Nat) (mask : Nat)
  /-- MCC_LO_READ (R335). -/
  | mccLoRead
  /-- GEN_LO_READ (R335). -/
  | genLoRead
  /-- REGISTER_WRITE (R335). -/
  | registerWrite (offset : Nat) (value : Nat)
  /-- SPI_REGISTER_WRITE (R311). -/
  | spiRegisterWrite (offset : Nat) (words : List Nat)
  /-- SPI_REGISTER_READ (R311). -/
  | spiRegisterRead (offset : Nat) (n : Nat)
  /-- SPI_MAILBOX_WRITE (R311). -/
  | spiMailboxWrite (addr : Nat) (bytes : List Nat)
  /-- SPI_MAILBOX_READ (R311). -/
  | spiMailboxRead (addr : Nat) (n : Nat)
  /-- FABRIC_GRANT (R371). -/
  | fabricGrant (target : Nat) (cycle : Nat) (arrivals : List Txn)
  /-- QOS_PROMOTION (R371). -/
  | qosPromotion (target : Nat) (cycle : Nat)
  /-- MASTER_RESET_DRAIN (R376). -/
  | masterResetDrain (m : Nat)
  /-- POOL_SCRUB_PASS (R377). -/
  | poolScrubPass (found : List MemFault)
  /-- DRAM_PATROL_PASS (R384). -/
  | dramPatrolPass (found : List MemFault)
  /-- MSTORE_CORRECTED (R386). -/
  | mstoreCorrected (addr : Nat)
  /-- MSTORE_SCRUB_PASS (R386). -/
  | mstoreScrubPass (found : List Nat)
  /-- EVENT_COUNT_PUBLISH (R389). -/
  | eventCountPublish (x : Nat) (arrivals : Nat) (reflect : Bool) (take : Bool)
  /-- CROSSING_CLOCK_STOPPED (R393). -/
  | crossingClockStopped (x : Nat) (far : ResetName)
  /-- CROSSING_RESET_INDICATION (R396). -/
  | crossingResetIndication (x : Nat)
  /-- RESET_GROUP_REQUEST (R395). -/
  | resetGroupRequest (g : ResetName)
  /-- PEER_ALIVE_STOPPED (R442). -/
  | peerAliveStopped
  /-- AMCLK_STOP_RELEASE (R424). -/
  | amclkStopRelease
  /-- LEASE_RENEWAL (R440). -/
  | leaseRenewal (n : Nat)
  /-- LEASE_ACK (R440). -/
  | leaseAck (n : Nat)
  /-- LEASE_FENCE (R440). -/
  | leaseFence
  /-- LEASE_GUARD_EXPIRY (R440). -/
  | leaseGuardExpiry
  /-- TWIN_HEARTBEAT (R439). -/
  | twinHeartbeat (twl : Bool) (hb : Heartbeat)
  /-- TWIN_PATH_DOWN (R439). -/
  | twinPathDown (twl : Bool)
  /-- INPUT_RECORD (R431). -/
  | inputRecord (tick : Nat) (items : List InItem)
  /-- INPUT_RECORD_MISSING (R432). -/
  | inputRecordMissing
  /-- EDGE_OFFSET_EXCEEDED (R430). -/
  | edgeOffsetExceeded (offset : Int)
  /-- TWIN_FORWARD (R433). -/
  | twinForward (m : Nat) (f : Fwd)
  /-- TWIN_HANDOVER (R443). -/
  | twinHandover (h : Nat)
  /-- TWIN_SWAP_AT_H (R445). -/
  | twinSwapAtH
  /-- RESYNC_STEP_DONE (R446). -/
  | resyncStepDone (mcc : Nat) (seed : Nat)
  /-- NONCONV_STATE_COPY (R447). -/
  | nonconvStateCopy (slot : Nat) (x : List Nat) (y : List Nat)
  /-- JOIN_LIMIT_EXPIRY (R448). -/
  | joinLimitExpiry
  /-- LEGACY_WRITE (R464). -/
  | legacyWrite (addr : Nat) (word : Nat)
  /-- LEGACY_READ (R458). -/
  | legacyRead (addr : Nat)
  /-- LEGACY_BURST_WRITE (R456). -/
  | legacyBurstWrite (addr : Nat) (words : List Nat) (cut : Bool)
  /-- LEGACY_BURST_READ (R456). -/
  | legacyBurstRead (addr : Nat) (n : Nat)
  /-- LEGACY_PARAM_WRITE (R464). -/
  | legacyParamWrite (addr : Nat) (word : Nat)
  /-- LOAD (R465). -/
  | load
  /-- LOAD_LATCH (R465). -/
  | loadLatch
  /-- SOFT_RESET (R466). -/
  | softReset
  /-- LEGACY_RATE_WRITE (R466). -/
  | legacyRateWrite (rate : Nat)
  /-- LEGACY_STATUS_CLEAR (R460). -/
  | legacyStatusClear (mask : Nat)
  /-- TAMPER_SOURCE_CLEARED (R361). -/
  | tamperSourceCleared (source : Nat)
  /-- PROCESSING_PLL_LOSS_OF_LOCK (R443). -/
  | processingPllLossOfLock
  /-- INPUT_RECORD_CLOSE (R431). -/
  | inputRecordClose
  deriving DecidableEq, Repr

end Sys2Proof
end

