-- ==== Sys2Proof/Decode.lean ====
section
/-! DEFINITION. Sys2Proof/Decode.lean: the commands that a word spells by the bits of spec/opcode_table.json. No row of the
table gives bits: the commands of this block are requests, events and steps, and the words of the Tarn instruction set are
decoded in Sys2Proof/Machine/TarnCode.lean from the field layouts of R173. -/
namespace Sys2Proof

/-- No row of spec/opcode_table.json gives bits, so no word spells a command. -/
def decodeTableWord (nbits w : Nat) : Option Instr :=
  match nbits, w with
  | _, _ => none

end Sys2Proof
end

