-- ==== Sys2Proof/Machine/Num.lean ====
section
/-! DEFINITION. Sys2Proof/Machine/Num.lean: exact integer arithmetic of the number formats.
A value is computed exactly as an integer and narrowed once, at the place where the spec narrows it
(spec/00_scope.md "Number formats"; R6, R9, R60, R84, R165, R495). -/
namespace Sys2Proof.Machine.Fmt

/-! ### Limits of the formats -/

/-- Largest value of an n-bit two's complement integer. -/
def maxS (n : Nat) : Int := 2 ^ (n - 1) - 1
/-- Smallest value of an n-bit two's complement integer. -/
def minS (n : Nat) : Int := -(2 ^ (n - 1))

/-- `x` held between `lo` and `hi`. -/
def clampI (lo hi x : Int) : Int := if x < lo then lo else if hi < x then hi else x

/-- Saturation to the nearer limit of an n-bit two's complement integer. -/
def satS (n : Nat) (x : Int) : Int := clampI (minS n) (maxS n) x

/-- Whether saturation to n bits changes the value. -/
def overS (n : Nat) (x : Int) : Bool := decide (x < minS n) || decide (maxS n < x)

/-- The low n bits of an integer, as a natural number. -/
def wrapU (n : Nat) (x : Int) : Nat := (x % (2 ^ n : Int)).toNat

/-- Two's complement reading of the low n bits of a natural number. -/
def toS (n : Nat) (w : Nat) : Int :=
  let v := w % 2 ^ n
  if v < 2 ^ (n - 1) then (v : Int) else (v : Int) - 2 ^ n

/-- Arithmetic shift right: floor of x / 2^k. -/
def asr (x : Int) (k : Nat) : Int := x / (2 ^ k : Int)

/-- Division truncating towards zero. -/
def trunc0 (x d : Int) : Int := Int.tdiv x d

/-- Round x / d to the nearest integer, ties away from zero (d > 0). -/
def divAway (x d : Int) : Int :=
  if 0 ≤ x then (2 * x + d) / (2 * d) else -((2 * (-x) + d) / (2 * d))

/-! ### Formats -/

/-- R6: S32 enters the engine as E48 by an exact left shift of 9 bits. -/
def s32ToE48 (x : Int) : Int := x * 512

/-- R8: unity gain in G32. -/
def unity : Int := 0x08000000

/-- R84: the exact product of an E48 or A64 sample and a G32 gain, rounded by adding 2^26 and
shifting right arithmetically by 27. -/
def gmul (x g : Int) : Int := asr (x * g + 2 ^ 26) 27

/-- R495: old + ((new − old) × W + 2^26 >> 27). -/
def xmix (old new wq : Int) : Int := old + asr ((new - old) * wq + 2 ^ 26) 27

/-- R60: bus entry keeps the integer and saturates it to E48. -/
def satE48 (x : Int) : Int := satS 48 x

/-! ### dB codes (R9) -/

/-- The largest natural number below 2^k that satisfies a downward closed test, found bit by bit from the top
(0 satisfies it by assumption). -/
def searchBits (p : Nat → Bool) : Nat → Nat → Nat
  | 0, acc => acc
  | k + 1, acc => searchBits p k (if p (acc + 2 ^ k) then acc + 2 ^ k else acc)

/-- R9: the G32 value nearest to 2^27 × 10^(code / 5120). The rounded value is the largest g with
g − 1/2 at most that number, tested exactly on 5120th powers; a tie cannot occur. -/
def dbToG32 (code : Int) : Int :=
  if code ≤ -36864 then 0
  else if 6165 < code then maxS 32
  else
    (searchBits (fun g =>
      if 0 ≤ code then decide ((2 * g - 1) ^ 5120 ≤ 2 ^ (28 * 5120) * 10 ^ code.toNat)
      else decide ((2 * g - 1) ^ 5120 * 10 ^ (-code).toNat ≤ 2 ^ (28 * 5120))) 31 0 : Nat)

/-- R9: the dB code of a G32 gain's magnitude: the code whose level lies nearest on the dB scale, the higher at
a tie; −36,864 for 0 and for anything that low. -/
def g32ToDb (g : Int) : Int :=
  let m := g.natAbs
  if m = 0 then -36864
  else
    -- c + 36864 is the largest k with 10^(2(k − 36864) − 1) ≤ (m / 2^27)^10240
    let k := searchBits (fun k =>
      let e : Int := 2 * ((k : Int) - 36864) - 1
      if 0 ≤ e then decide (10 ^ e.toNat * 2 ^ (27 * 10240) ≤ m ^ 10240)
      else decide (2 ^ (27 * 10240) ≤ m ^ 10240 * 10 ^ (-e).toNat)) 16 0
    (k : Int) - 36864

/-! ### Bytes and words -/

/-- A natural number as n bytes, most significant first (R16, VCP headers and bodies). -/
def toBE : Nat → Nat → List Nat
  | 0, _ => []
  | n + 1, x => (x / 256 ^ n % 256) :: toBE n x

/-- A list of bytes read most significant first. -/
def ofBE (l : List Nat) : Nat := l.foldl (fun a b => a * 256 + b % 256) 0

/-- A natural number as n bytes, least significant first. -/
def toLE : Nat → Nat → List Nat
  | 0, _ => []
  | n + 1, x => (x % 256) :: toLE n (x / 256)

/-- A list of bytes read least significant first. -/
def ofLE : List Nat → Nat
  | [] => 0
  | b :: l => b % 256 + 256 * ofLE l

/-- n bytes of a byte list from an offset, zero where the list ends. -/
def slice (l : List Nat) (off n : Nat) : List Nat :=
  let t := (l.drop off).take n
  t ++ List.replicate (n - t.length) 0

/-- The field [hi:lo] of a word. -/
def bits (w hi lo : Nat) : Nat := w / 2 ^ lo % 2 ^ (hi + 1 - lo)

/-- Bit i of a word. -/
def bit (w i : Nat) : Bool := w / 2 ^ i % 2 = 1

/-- A truth value as one bit. -/
def b2n (b : Bool) : Nat := if b then 1 else 0

/-- Bit i of a word set to b. -/
def setBit (w i : Nat) (b : Bool) : Nat :=
  if bit w i = b then w else if b then w + 2 ^ i else w - 2 ^ i

/-- Ceiling of a / b. -/
def cdiv (a b : Nat) : Nat := (a + b - 1) / b

/-- Saturating 32-bit counter increment (R29). -/
def satInc (c k : Nat) : Nat := if 0xFFFFFFFF < c + k then 0xFFFFFFFF else c + k

end Sys2Proof.Machine.Fmt
end

