-- ==== Sys2Proof/Machine/Cap.lean ====
section
/-! DEFINITION. Sys2Proof/Machine/Cap.lean: the capacity profiles (R21, R74), parameter handles (R10, R11), and the
description of a parameter field. -/
namespace Sys2Proof.Machine

open Fmt

/-- What a configuration is judged against: family (0 48 kHz, 1 44.1 kHz), profile (0 PR1, 1 PR2, 2 PR4), matrix shape,
and MODE (0 native, 1 legacy-only, 2 mixed). -/
structure Cap where
  fam   : Nat
  prof  : Nat
  shape : Nat
  mode  : Nat
  deriving DecidableEq, Repr

/-- Base rate in Hz. -/
def baseRate (fam : Nat) : Nat := if fam = 0 then 48000 else 44100
/-- The factor from base rate to engine rate: 1, 2, 4. -/
def rateMul (prof : Nat) : Nat := if prof = 0 then 1 else if prof = 1 then 2 else 4
/-- Engine rate in Hz (R21). -/
def engineRate (fam prof : Nat) : Nat := baseRate fam * rateMul prof
/-- Block size B (R21). -/
def blockB (prof : Nat) : Nat := if prof = 2 then 16 else 8

/-- Engine rate. -/
def Cap.fs (c : Cap) : Nat := engineRate c.fam c.prof
/-- Block size. -/
def Cap.B (c : Cap) : Nat := blockB c.prof
/-- Channel strips. -/
def Cap.strips (c : Cap) : Nat := if c.prof = 2 then 512 else 1024
/-- Summing busses. -/
def Cap.busses (c : Cap) : Nat := if c.prof = 2 then 256 else 512
/-- Effect slots. -/
def Cap.slots (c : Cap) : Nat := if c.prof = 0 then 64 else if c.prof = 1 then 32 else 16
/-- Rate converter channels. -/
def Cap.srcCh (c : Cap) : Nat := if c.prof = 2 then 256 else 512
/-- Network channels each way. -/
def Cap.netCh (c : Cap) : Nat := if c.prof = 2 then 1024 else 2048
/-- Sources of the matrix shape (R74). -/
def Cap.sources (c : Cap) : Nat :=
  if c.prof = 2 then (if c.shape = 0 then 768 else if c.shape = 1 then 1024 else 1536)
  else (if c.shape = 0 then 1536 else if c.shape = 1 then 2048 else 1024)
/-- Destinations of the matrix shape (R74). -/
def Cap.dests (c : Cap) : Nat :=
  if c.prof = 2 then (if c.shape = 0 then 512 else if c.shape = 1 then 384 else 256)
  else (if c.shape = 0 then 512 else if c.shape = 1 then 384 else 768)
/-- Destinations per logical lane (R74). -/
def Cap.perLane (c : Cap) : Nat := c.dests / 128
/-- f_max in 0.01 Hz: 0.45 × the engine rate (R53). -/
def Cap.fmax100 (c : Cap) : Nat := 45 * c.fs
/-- Nominal Tarn cycles per engine per block (R21, R114): 1.2 GHz × B / fs. -/
def Cap.tarnCycles (c : Cap) : Nat := 1200000000 * c.B / c.fs
/-- Cycles admitted to frame tasks per engine: 62 % of nominal (R23, R114). -/
def Cap.admitted (c : Cap) : Nat := c.tarnCycles * 62 / 100

/-! ### Handles -/

/-- A handle of the general layout (R10). -/
def mkH (cls inst field : Nat) : Nat := cls * 2 ^ 24 + inst * 256 + field
/-- Class of a handle. -/
def hCls (h : Nat) : Nat := h / 2 ^ 24 % 256
/-- Instance of a handle. -/
def hInst (h : Nat) : Nat := h / 256 % 65536
/-- Field of a handle. -/
def hField (h : Nat) : Nat := h % 256
/-- Destination of a node handle (R11). -/
def hDest (h : Nat) : Nat := h / 4096 % 4096
/-- Source of a node handle (R11). -/
def hSrc (h : Nat) : Nat := h % 4096
/-- Key of a node: its handle bits [23:0]. -/
def nodeKey (d s : Nat) : Nat := d * 4096 + s
/-- The handle of a node's gain (class 0x03). -/
def hGain (d s : Nat) : Nat := 0x03000000 + nodeKey d s
/-- The handle of a node's tap word (class 0x04). -/
def hTap (d s : Nat) : Nat := 0x04000000 + nodeKey d s

/-! ### Port channel references (R37) -/

/-- Type of a port channel reference. -/
def refType (r : Nat) : Nat := r / 2 ^ 24 % 256
/-- Port field. -/
def refPort (r : Nat) : Nat := r / 65536 % 256
/-- Channel field. -/
def refChan (r : Nat) : Nat := r % 65536
/-- Stream number of a type 0x04 reference. -/
def refStream (r : Nat) : Nat := refPort r * 256 + r / 256 % 256
/-- Channel within the stream of a type 0x04 reference. -/
def refStreamCh (r : Nat) : Nat := r % 256

/-- R37: whether a reference lies within the fixed limits of its type. -/
def refInLimits (r : Nat) : Bool :=
  match refType r with
  | 0 => decide (r = 0)
  | 1 => decide (refPort r < 16) && decide (refChan r < 32)
  | 2 => decide (refPort r < 16) && decide (refChan r < 4)
  | 3 => decide (refPort r < 8) && decide (refChan r < 64)
  | 4 => decide (refStream r < 256) && decide (refStreamCh r < 64)
  | 5 => decide (refPort r < 16) && decide (refChan r < 4)
  | 6 => decide (refPort r = 0) && decide (refChan r < 2)
  | 7 => decide (refPort r < 8) && decide (refChan r = 0)
  | _ => false

/-! ### Field descriptions -/

/-- Transition classes of the field tables. -/
inductive Tr where
  | zc | cf | dx | at | patch | mapX | block | other
  deriving DecidableEq, Repr

/-- What a field's word is. -/
inductive Kind where
  | int      -- a number in a range
  | ref      -- a port channel reference (R37)
  | srcMap   -- a matrix source map word (R497)
  | dstMap   -- a matrix destination map word (R497)
  | word     -- any 32-bit word
  deriving DecidableEq, Repr

/-- One field of a class: whether it can be staged, its kind, range, further legal values, default and transition. -/
structure Field where
  ro    : Bool := false
  kind  : Kind := .int
  lo    : Int := 0
  hi    : Int := 1
  extra : List Int := []
  dflt  : Int := 0
  tr    : Tr := .at
  deriving DecidableEq, Repr

/-- The number a parameter word stands for in a field: signed where the range holds negative numbers. -/
def Field.num (f : Field) (w : Nat) : Int := if f.lo < 0 then toS 32 w else ((w % 2 ^ 32 : Nat) : Int)

/-- The word of a default. -/
def Field.dfltWord (f : Field) : Nat := wrapU 32 f.dflt

/-- Whether a word lies in the field's range. -/
def Field.inRange (f : Field) (w : Nat) : Bool :=
  let v := f.num w
  (decide (f.lo ≤ v) && decide (v ≤ f.hi)) || f.extra.contains v

/-- A field with a range, a default and a transition class. -/
def fInt (lo hi d : Int) (tr : Tr) : Option Field := some { lo := lo, hi := hi, dflt := d, tr := tr }
/-- A field of two values. -/
def fBool (d : Int) (tr : Tr) : Option Field := fInt 0 1 d tr
/-- A read-only field. -/
def fRo : Option Field := some { ro := true, kind := .word }

end Sys2Proof.Machine
end

