-- ==== Sys2Proof/Machine/Crypto.lean ====
section
/-! DEFINITION. Sys2Proof/Machine/Crypto.lean: the standard algorithms that the spec names and does not define:
SHA-256, HMAC-SHA-256 (R312, R313, R121, R326), CRC-32 (R134), AES-256-GCM (R315, R363), and ECDSA and ECDH on P-256
(R340–R342, R363). Their texts are those of the public standards (FIPS 180-4, 186-4, 197, SP 800-38D, RFC 2104, IEEE
802.3): log entry 26, PRESUMED. Bytes are natural numbers below 256. -/
namespace Sys2Proof.Machine.Crypto

open Fmt

/-! ### SHA-256 -/

/-- Addition of 32-bit words. -/
def add32 (a b : Nat) : Nat := (a + b) % 2 ^ 32
/-- Rotation right of a 32-bit word. -/
def rotr (x n : Nat) : Nat := (x / 2 ^ n + x * 2 ^ (32 - n)) % 2 ^ 32
/-- Complement of a 32-bit word. -/
def not32 (x : Nat) : Nat := 2 ^ 32 - 1 - x % 2 ^ 32

/-- The first primes, from which the constants come. -/
def primes64 : List Nat :=
  [2, 3, 5, 7, 11, 13, 17, 19, 23, 29, 31, 37, 41, 43, 47, 53, 59, 61, 67, 71, 73, 79, 83, 89, 97, 101, 103, 107, 109,
   113, 127, 131] ++
  [137, 139, 149, 151, 157, 163, 167, 173, 179, 181, 191, 193, 197, 199, 211, 223, 227, 229, 233, 239, 241, 251, 257,
   263, 269, 271, 277, 281, 283, 293, 307, 311]

/-- Integer cube root below 2^40, bit by bit. -/
def cbrt (x : Nat) : Nat := searchBits (fun r => decide (r * r * r ≤ x)) 40 0

/-- Round constants: the first 32 bits of the fractional parts of the cube roots of the primes. -/
def shaK : List Nat := primes64.map fun p => cbrt (p * 2 ^ 96) % 2 ^ 32
/-- Initial hash value: the same of the square roots of the first eight primes. -/
def shaH0 : List Nat := (primes64.take 8).map fun p => Nat.sqrt (p * 2 ^ 64) % 2 ^ 32

/-- The next word of the message schedule from the last 16, newest first. -/
def shaNextW (w : List Nat) : Nat :=
  let a := w.getD 14 0
  let b := w.getD 1 0
  let s0 := rotr a 7 ^^^ rotr a 18 ^^^ (a / 2 ^ 3)
  let s1 := rotr b 17 ^^^ rotr b 19 ^^^ (b / 2 ^ 10)
  (w.getD 15 0 + s0 + w.getD 6 0 + s1) % 2 ^ 32

/-- The message schedule, newest first. -/
def shaSchedule : Nat → List Nat → List Nat
  | 0, w => w
  | n + 1, w => shaSchedule n (shaNextW w :: w)

/-- One round on the eight working variables. -/
def shaRound (v : List Nat) (kw : Nat) : List Nat :=
  match v with
  | [a, b, c, d, e, f, g, h] =>
    let s1 := rotr e 6 ^^^ rotr e 11 ^^^ rotr e 25
    let ch := (e &&& f) ^^^ (not32 e &&& g)
    let t1 := (h + s1 + ch + kw) % 2 ^ 32
    let s0 := rotr a 2 ^^^ rotr a 13 ^^^ rotr a 22
    let mj := (a &&& b) ^^^ (a &&& c) ^^^ (b &&& c)
    [add32 t1 (add32 s0 mj), a, b, c, add32 d t1, e, f, g]
  | _ => v

/-- Split into runs of n, with at most the given number of runs. -/
def chunks (n : Nat) : Nat → List Nat → List (List Nat)
  | 0, _ => []
  | k + 1, l => if l.isEmpty then [] else l.take n :: chunks n k (l.drop n)

/-- One 64-byte block. -/
def shaBlock (h : List Nat) (blk : List Nat) : List Nat :=
  let w := ((chunks 4 16 blk).map ofBE).reverse
  let ws := (shaSchedule 48 w).reverse
  let v := (List.zipWith add32 shaK ws).foldl shaRound h
  List.zipWith add32 h v

/-- SHA-256 of a byte list, 32 bytes. -/
def sha256 (m : List Nat) : List Nat :=
  let z := (119 - m.length % 64) % 64
  let padded := m ++ [0x80] ++ List.replicate z 0 ++ toBE 8 (8 * m.length)
  ((chunks 64 (padded.length / 64) padded).foldl shaBlock shaH0).flatMap (toBE 4)

/-- HMAC-SHA-256. -/
def hmac (key m : List Nat) : List Nat :=
  let k0 := if 64 < key.length then sha256 key else key
  let k := k0 ++ List.replicate (64 - k0.length) 0
  sha256 (k.map (· ^^^ 0x5C) ++ sha256 (k.map (· ^^^ 0x36) ++ m))

/-! ### CRC-32 -/

/-- One bit of the reflected CRC with polynomial 0x04C11DB7. -/
def crcBit (c : Nat) : Nat := if c % 2 = 1 then (c / 2) ^^^ 0xEDB88320 else c / 2
/-- One byte. -/
def crcByte (c b : Nat) : Nat := (List.range 8).foldl (fun a _ => crcBit a) (c ^^^ (b % 256))
/-- CRC-32 of a byte list. -/
def crc32 (m : List Nat) : Nat := (m.foldl crcByte 0xFFFFFFFF) ^^^ 0xFFFFFFFF

/-! ### AES-256 -/

/-- Multiplication by x in GF(2^8). -/
def xtime (a : Nat) : Nat := if a < 128 then 2 * a else (2 * a % 256) ^^^ 0x1B
/-- Product in GF(2^8). -/
def gf8 : Nat → Nat → Nat → Nat
  | 0, _, _ => 0
  | n + 1, a, b => (if b % 2 = 1 then a else 0) ^^^ gf8 n (xtime a) (b / 2)
/-- Product of two bytes. -/
def gfm (a b : Nat) : Nat := gf8 8 a b
/-- a^254, the inverse in GF(2^8). -/
def gfInv (a : Nat) : Nat := (List.range 6).foldl (fun r _ => gfm (gfm r r) a) a |> fun r => gfm r r
/-- The S-box. -/
def sbox (a : Nat) : Nat :=
  let b := gfInv a
  let rot := fun k => (b * 2 ^ k + b / 2 ^ (8 - k)) % 256
  b ^^^ rot 1 ^^^ rot 2 ^^^ rot 3 ^^^ rot 4 ^^^ 0x63

/-- Bytewise exclusive or. -/
def xorB (a b : List Nat) : List Nat := List.zipWith (· ^^^ ·) a b

/-- The expanded key of AES-256 as words of 4 bytes, newest first. -/
def aesExpand : Nat → Nat → Nat → List (List Nat) → List (List Nat)
  | 0, _, _, w => w
  | n + 1, i, rc, w =>
    let t := w.headD []
    let t' := if i % 8 = 0 then xorB ((t.drop 1 ++ t.take 1).map sbox) [rc, 0, 0, 0]
              else if i % 8 = 4 then t.map sbox else t
    aesExpand n (i + 1) (if i % 8 = 0 then xtime rc else rc) (xorB (w.getD 7 []) t' :: w)

/-- The 15 round keys of 16 bytes. -/
def aesKeys (key : List Nat) : List (List Nat) :=
  let w := (aesExpand 52 8 1 (chunks 4 8 key).reverse).reverse
  (List.range 15).map fun r => ((w.drop (4 * r)).take 4).flatten

/-- ShiftRows on 16 bytes held column by column. -/
def shiftRows (s : List Nat) : List Nat := (List.range 16).map fun i => s.getD ((i + 4 * (i % 4)) % 16) 0
/-- MixColumns on one column. -/
def mixCol (c : List Nat) : List Nat :=
  (List.range 4).map fun i =>
    let g := fun k => c.getD ((i + k) % 4) 0
    xtime (g 0) ^^^ (xtime (g 1) ^^^ g 1) ^^^ g 2 ^^^ g 3
/-- MixColumns. -/
def mixCols (s : List Nat) : List Nat := (chunks 4 4 s).flatMap mixCol

/-- AES-256 encryption of one block. -/
def aes256 (key blk : List Nat) : List Nat :=
  let ks := aesKeys key
  let s := ((List.range 13).foldl (fun s r => xorB (mixCols (shiftRows (s.map sbox))) (ks.getD (r + 1) []))
    (xorB blk (ks.getD 0 [])))
  xorB (shiftRows (s.map sbox)) (ks.getD 14 [])

/-! ### GCM -/

/-- Product in GF(2^128) of GCM, bit 0 the most significant. -/
def ghashMul : Nat → Nat → Nat → Nat → Nat
  | 0, _, _, z => z
  | n + 1, x, v, z =>
    ghashMul n x (if v % 2 = 1 then (v / 2) ^^^ (0xE1 * 2 ^ 120) else v / 2)
      (if x / 2 ^ n % 2 = 1 then z ^^^ v else z)

/-- Zero padding to a multiple of 16 bytes. -/
def pad16 (m : List Nat) : List Nat := m ++ List.replicate ((16 - m.length % 16) % 16) 0

/-- GHASH. -/
def ghash (h : Nat) (m : List Nat) : Nat :=
  (chunks 16 (m.length / 16) m).foldl (fun y b => ghashMul 128 (y ^^^ ofBE b) h 0) 0

/-- The key stream exclusive-ored onto a text, from counter c on. -/
def gctr (key iv : List Nat) (c : Nat) (m : List Nat) : List Nat :=
  ((chunks 16 (m.length / 16 + 1) m).zipIdx c).flatMap fun b => xorB b.1 (aes256 key (iv ++ toBE 4 b.2))

/-- The GCM tag over additional data and ciphertext. -/
def gcmTag (key iv aad ct : List Nat) : List Nat :=
  let h := ofBE (aes256 key (List.replicate 16 0))
  let s := ghash h (pad16 aad ++ pad16 ct ++ toBE 8 (8 * aad.length) ++ toBE 8 (8 * ct.length))
  xorB (toBE 16 s) (aes256 key (iv ++ toBE 4 1))

/-- AES-256-GCM encryption: ciphertext and tag. -/
def gcmSeal (key iv aad pt : List Nat) : List Nat × List Nat :=
  let ct := gctr key iv 2 pt
  (ct, gcmTag key iv aad ct)

/-- AES-256-GCM decryption; none where the tag fails. -/
def gcmOpen (key iv aad ct tag : List Nat) : Option (List Nat) :=
  if gcmTag key iv aad ct = tag then some (gctr key iv 2 ct) else none

/-! ### P-256 -/

/-- The field prime. -/
def p256 : Nat := 0xFFFFFFFF00000001000000000000000000000000FFFFFFFFFFFFFFFFFFFFFFFF
/-- The order of the base point. -/
def n256 : Nat := 0xFFFFFFFF00000000FFFFFFFFFFFFFFFFBCE6FAADA7179E84F3B9CAC2FC632551
/-- The curve constant b. -/
def b256 : Nat := 0x5AC635D8AA3A93E7B3EBBD55769886BC651D06B0CC53B0F63BCE3C3E27D2604B
/-- The base point. -/
def g256 : Nat × Nat :=
  (0x6B17D1F2E12C4247F8BCE6E563A440F277037D812DEB33A0F4A13945D898C296,
   0x4FE342E2FE1A7F9B8EE7EB4A7C0F9E162BCE33576B315ECECBB6406837BF51F5)

/-- Power modulo m by squaring over the bits of e. -/
def powMod (m a : Nat) : Nat → Nat → Nat → Nat
  | 0, _, r => r
  | k + 1, e, r => powMod m (a * a % m) k (e / 2) (if e % 2 = 1 then r * a % m else r)
/-- Inverse modulo a prime. -/
def invMod (m a : Nat) : Nat := powMod m (a % m) 256 (m - 2) 1

/-- A point of the curve; none is the point at infinity. -/
abbrev Pt := Option (Nat × Nat)

/-- Difference modulo p. -/
def subP (a b : Nat) : Nat := (a + p256 - b % p256) % p256

/-- Sum of two points. -/
def addPt (a b : Pt) : Pt :=
  match a, b with
  | none, q => q
  | q, none => q
  | some (x1, y1), some (x2, y2) =>
    if x1 = x2 ∧ (y1 + y2) % p256 = 0 then none
    else
      let l := if x1 = x2 then (3 * x1 * x1 + (p256 - 3)) * invMod p256 (2 * y1) % p256
               else subP y2 y1 * invMod p256 (subP x2 x1) % p256
      let x3 := subP (subP (l * l % p256) x1) x2
      some (x3, subP (l * subP x1 x3 % p256) y1)

/-- k times a point, over the low bits of k. -/
def mulPt : Nat → Nat → Pt → Pt
  | 0, _, _ => none
  | f + 1, k, q => addPt (if k % 2 = 1 then q else none) (mulPt f (k / 2) (addPt q q))

/-- Whether a pair lies on the curve. -/
def onCurve (x y : Nat) : Bool :=
  decide (x < p256) && decide (y < p256) &&
    decide (y * y % p256 = (x * x * x + (p256 - 3) * x + b256) % p256)

/-- ECDSA P-256 verification of a 64-byte signature over a message under a 64-byte public key. -/
def ecdsa (key msg sig : List Nat) : Bool :=
  let x := ofBE (slice key 0 32)
  let y := ofBE (slice key 32 32)
  let r := ofBE (slice sig 0 32)
  let s := ofBE (slice sig 32 32)
  let e := ofBE (sha256 msg)
  if onCurve x y ∧ 0 < r ∧ r < n256 ∧ 0 < s ∧ s < n256 then
    let w := invMod n256 s
    match addPt (mulPt 256 (e * w % n256) (some g256)) (mulPt 256 (r * w % n256) (some (x, y))) with
    | none => false
    | some (px, _) => decide (px % n256 = r)
  else false

/-- The x coordinate of an ECDH product, 32 bytes. -/
def ecdh (priv : Nat) (key : List Nat) : List Nat :=
  match mulPt 256 priv (some (ofBE (slice key 0 32), ofBE (slice key 32 32))) with
  | none => List.replicate 32 0
  | some (x, _) => toBE 32 x

end Sys2Proof.Machine.Crypto
end

