-- ==== Sys2Proof/Config.lean ====
section
/-! DEFINITION. Sys2Proof/Config.lean: what an implementation fixes and the spec does not, and the free values.
Each is an opaque constant: nothing in Lean can evaluate it or prove a value of it, so a claim holds whatever it is. A
free value that may differ from one occasion to the next is applied to the counter `free` of State. -/
namespace Sys2Proof.Config

/-- A free integer, by occasion: the value of an operation whose result the spec bounds but does not give (rate converter, decimator,
interpolator and half-band filters whose coefficients the spec does not
give; log entry 3). -/
opaque freeInt : Nat → Int

/-- An interpolator's output by profile, by the spring sample within the engine sample, and by the engine samples that its filter holds,
newest first (R145; log entry 3). -/
opaque interpolate : Nat → Nat → List Int → Int

/-- The 2:1 half-band converter's output by direction (1 transmit) and by the 65 engine samples that its filter spans, newest first (R276; log
entry 3). -/
opaque halfBand : Nat → List Int → Int

/-- How far the clock unit's loop moves its integral part in a sample, by bandwidth code, phase and the frequency that is missing, before it
is held within the latter (R288, R291; log entry 189). -/
opaque loopPull : Nat → Int → Int → Nat

/-- How much phase its proportional part removes in a sample, by bandwidth code and phase, before it is held within the phase and the slope
limit (R291; log entry 189). -/
opaque loopPhase : Nat → Int → Nat

/-- A rate converter's output by occasion and by the input samples that its filter holds, newest first (R236, R240; log entry 3). -/
opaque convert : Nat → List Int → Int

/-- A tracking loop's ratio after a measurement, by the ratio before and the measured one, in units of 2^-24 (R237, R241; log entry 171). -/
opaque track : Nat → Nat → Nat

/-- A free word of n bits, by occasion (device nonces, dither seed, stepping code …; log entry 3). -/
opaque freeBits : Nat → Nat → Nat

/-- The gate's or compressor's G32 gain by the computed gain in dB (fixed point) and the makeup gain, before it is held inside the band
the spec gives (R500; log entry 4). -/
opaque dynGain : Int → Int → Int

/-- The expander's target for a level of minus infinity at a ratio of 1, by its range, both in fixed-point dB, before it is held between
minus the range and 0 (R500; log entry 152). -/
opaque expandZero : Int → Int

/-- The nonlinear unit's result by operation (0 LOG2, 1 EXP2, 2 RECIP, 3 RSQRT) and E48 operand, before it is held inside the
error bound the spec gives (R176; log entry 5). -/
opaque nonlinear : Nat → Int → Int

/-- Crossfade cost in cycles per block of a strip's task in a profile: the spec gives none (R114, R202; log entry 8). -/
opaque stripCycles : Nat → Nat

/-- The same for a bus's task (R114, R202; log entry 8). -/
opaque busCycles : Nat → Nat

/-- Installed DRAM in bytes, before it is held to 1…4 GiB (R116, R383; log entry 7). -/
opaque dramSize : Nat

/-- Whether the part is a VXE1536-IB (else a VXE1536-CB), and its stepping (R335, R416; log entry 38). -/
opaque industrial : Bool

/-- The stepping in DEV_ID [7:0] (log entry 38). -/
opaque stepping : Nat

/-- The public key of Sormaja's root in ROM, x then y as one 512-bit number (R204, R342; log entry 52). -/
opaque romRoot : Nat

/-- The device's private P-256 key, fused at manufacture (R359; log entry 52). -/
opaque deviceKey : Nat

/-- The device serial number (R326, R363; log entry 52). -/
opaque serial : Nat

/-- The MAC address of a NET port (NET port table; log entry 52). -/
opaque mac : Nat → Nat

/-- The power domain of the unit that a byte offset in PBR0 belongs to: the spec gives PBR0 no layout beyond the direct registers (R369, R374;
log entry 202). -/
opaque pbr0Domain : Nat → Nat

/-- Whether a module id names a Sormaja diagnostic module (R204; log entry 57). -/
opaque diagnostic : Nat → Bool

end Sys2Proof.Config
end

