-- ==== Sys2Proof/Machine/Cells.lean ====
section
/-! DEFINITION. Sys2Proof/Machine/Cells.lean: sparse storage in one canonical form.
A memory, a register file or a table of the VXE1536 is a list of (address, content) pairs whose addresses
strictly rise and in which no entry equals what an unlisted address reads as. Two stores with the same
contents are then the same list. -/
namespace Sys2Proof

/-- A sparse store: what is listed, by address. -/
abbrev Cells (α : Type) := List (Nat × α)

namespace Cells

variable {α : Type}

/-- What the store holds at an address; `d` is what an unlisted address reads as. -/
def get (d : α) : Cells α → Nat → α
  | [], _ => d
  | (a, v) :: l, k => if a = k then v else get d l k

/-- The store with what an address lists removed. -/
def del : Cells α → Nat → Cells α
  | [], _ => []
  | (a, v) :: l, k => if a = k then del l k else (a, v) :: del l k

/-- The store with one entry written, kept in rising order. -/
def ins : Cells α → Nat → α → Cells α
  | [], k, v => [(k, v)]
  | (a, w) :: l, k, v =>
    if k < a then (k, v) :: (a, w) :: l else if a = k then (a, v) :: l else (a, w) :: ins l k v

/-- The store after a write: writing what an unlisted address reads as removes the entry. -/
def put [DecidableEq α] (d : α) (l : Cells α) (k : Nat) (v : α) : Cells α :=
  if v = d then del l k else ins l k v

/-- Whether the addresses of a list strictly rise from above a bound. -/
def rising : Option Nat → Cells α → Bool
  | _, [] => true
  | none, (a, _) :: l => rising (some a) l
  | some b, (a, _) :: l => decide (b < a) && rising (some a) l

/-- The canonical form. -/
def wf [DecidableEq α] (d : α) (l : Cells α) : Bool :=
  rising none l && l.all (fun c => decide (c.2 ≠ d))

/-- A run of consecutive writes. -/
def putAll [DecidableEq α] (d : α) (l : Cells α) : Nat → List α → Cells α
  | _, [] => l
  | k, v :: vs => putAll d (put d l k v) (k + 1) vs

/-- A run of consecutive reads. -/
def getAll (d : α) (l : Cells α) (k n : Nat) : List α := (List.range n).map (fun i => get d l (k + i))

/-- Apply a function to every entry. -/
def mapVal (f : α → α) (l : Cells α) : Cells α := l.map (fun c => (c.1, f c.2))

/-- Apply a function to one entry. -/
def upd [DecidableEq α] (d : α) (l : Cells α) (k : Nat) (f : α → α) : Cells α := put d l k (f (get d l k))

end Cells

/-- A table of numbers by key: what is listed is not zero. -/
abbrev Mem := Cells Nat

/-- An addressed memory of the machine (MSTORE, pool SRAM, DRAM, flash, the mailbox windows): (address, byte) pairs in the canonical
form of `Cells`; a byte that nothing has written reads as zero (log entry 2). -/
abbrev Memory := Cells Byte

namespace Memory

/-- The byte at an address. -/
def read (m : Memory) (a : Nat) : Nat := (Cells.get 0#8 m a).toNat
/-- A byte stored. -/
def write (m : Memory) (a v : Nat) : Memory := Cells.put 0#8 m a (BitVec.ofNat 8 v)
/-- n bytes from an address. -/
def readAll (m : Memory) (a n : Nat) : List Nat := (List.range n).map (fun i => read m (a + i))
/-- A run of bytes stored from an address. -/
def writeAll (m : Memory) (a : Nat) (vs : List Nat) : Memory := Cells.putAll 0#8 m a (vs.map (BitVec.ofNat 8))
/-- A run of zeros stored. -/
def clear (m : Memory) (a n : Nat) : Memory := m.filter (fun c => decide (c.1 < a) || decide (a + n ≤ c.1))
/-- The canonical form. -/
def wf (m : Memory) : Bool := Cells.wf 0#8 m

end Memory

end Sys2Proof
end

