-- ==== Sys2Proof/Machine/AudioState.lean ====
section
/-! DEFINITION. Sys2Proof/Machine/AudioState.lean: what the block audio path keeps between samples and blocks
(spec/02_strips_busses_patch.md, spec/03_mere_matrix.md). -/
namespace Sys2Proof.Machine

/-- A zero-crossing gain stage (R44): the G32 gain in force (the start of a running ramp), the target, the start of the
pending period, the running ramp (start, length) and the entering signal on the sample before. -/
structure Zc where
  gain : Int
  tgt  : Int
  tp   : Option Nat
  ramp : Option (Nat × Nat)
  prev : Int
  deriving DecidableEq, Repr

/-- A zero-crossing stage at rest at a gain. -/
def Zc.at (g : Int) : Zc := { gain := g, tgt := g, tp := none, ramp := none, prev := 0 }

/-- A running crossfade: the values it moves to, its start sample and its length L. -/
structure XfRun where
  new   : List Nat
  start : Nat
  len   : Nat
  deriving DecidableEq, Repr

/-- A crossfading stage (R40, R45, R46, R47, R79): the values in force, the running crossfade, and the one change
that may be pending behind it. -/
structure Xf where
  cur  : List Nat
  run  : Option XfRun
  pend : Option (List Nat × Nat)
  deriving DecidableEq, Repr

/-- A crossfading stage at rest. -/
def Xf.at (v : List Nat) : Xf := { cur := v, run := none, pend := none }

/-- Histories of one biquad, E48 (R498). -/
structure Biq where
  x1 : Int
  x2 : Int
  y1 : Int
  y2 : Int
  deriving DecidableEq, Repr

/-- Cleared histories. -/
def Biq.zero : Biq := { x1 := 0, x2 := 0, y1 := 0, y2 := 0 }

/-- Coefficients of one section as E48 integers (R498). -/
structure Coef where
  b0 : Int
  b1 : Int
  b2 : Int
  a1 : Int
  a2 : Int
  deriving DecidableEq, Repr

/-- A CF stage (R45, R130): its parameter values with their crossfade, its two coefficient banks (in use, and idle
with the values it was designed for; none is a bank not written yet), and the histories of the two paths. -/
structure Cf where
  xf   : Xf
  bank : Option (List Coef)
  idle : Option (List Nat × List Coef)
  h    : List Biq
  hn   : List Biq
  deriving DecidableEq, Repr

/-- A CF stage at rest. -/
def Cf.at (v : List Nat) : Cf := { xf := Xf.at v, bank := none, idle := none, h := [], hn := [] }

/-- The gain computer of a gate, expander, compressor (R500): side-chain histories, the samples of the RMS window, the
gain in dB (fixed point, Machine/Real.lean), whether the gate is open, and the samples of hold left. -/
structure Dyn where
  sc     : List Biq
  window : List Int
  gdb    : Int
  isOpen : Bool
  hold   : Nat
  deriving DecidableEq, Repr

/-- A gain computer at rest. -/
def Dyn.zero : Dyn := { sc := [], window := [], gdb := 0, isOpen := false, hold := 0 }

/-- Everything one channel strip or one bus keeps (R50, R61). A stage the object does not have stays at rest. -/
structure ChainRt where
  inX    : Xf              -- input patch crossfade (strips): the selected reference
  trim   : Zc
  pol    : Zc
  delay  : Xf              -- total delay in samples (user and compensation)
  line   : List Int        -- the delay memory, newest first
  hpf    : Cf
  lpf    : Cf
  gate   : Cf              -- enable only
  gateD  : Dyn
  eq     : Cf
  comp   : Cf              -- enable only
  compD  : Dyn
  look   : Xf              -- comp.lookahead
  lookL  : List Int        -- the signal awaiting the look-ahead gain, newest first
  lim    : Cf              -- bus limiter: enable only
  limG   : Nat             -- bus limiter gain in units of 2^-31
  makeup : Zc
  ins    : Xf              -- insert assignment: slot, port
  insEn  : Cf              -- insert.enable
  dryL   : List Int        -- the dry signal, newest first
  tap0L  : List Int        -- tap 0 before the look-ahead delay (R51), newest first
  tap0M  : List Int        -- tap 0 before the insert delay (R51), newest first
  fader  : Zc
  mute   : Zc
  deriving DecidableEq, Repr

/-- The default EQ words of R53: the enable field, then enable, type, frequency, gain and Q of the six bands. -/
def eqDefault : List Nat :=
  [0, 1, 1, 8000, 0, 707, 1, 0, 25000, 0, 707, 1, 0, 80000, 0, 707,
   1, 0, 250000, 0, 707, 1, 0, 600000, 0, 707, 1, 2, 1200000, 0, 707]

/-- A strip or bus with every parameter at its default and nothing in flight. -/
def ChainRt.reset : ChainRt where
  inX := Xf.at [0]
  trim := Zc.at 0x08000000
  pol := Zc.at 0x08000000
  delay := Xf.at [0]
  line := []
  hpf := Cf.at [0, 8000, 2]
  lpf := Cf.at [0, 1800000, 2]
  gate := Cf.at [0]
  gateD := Dyn.zero
  eq := Cf.at eqDefault
  comp := Cf.at [0]
  compD := Dyn.zero
  look := Xf.at [0]
  lookL := []
  lim := Cf.at [0]
  limG := 0x80000000
  makeup := Zc.at 0x08000000
  ins := Xf.at [0xFFFF, 0]
  insEn := Cf.at [0]
  dryL := []
  tap0L := []
  tap0M := []
  fader := Zc.at 0x08000000
  mute := Zc.at 0x08000000

/-- A sample behind an output stage's limiter, in the block that leaves: the sample, its dither value, its destinations. Muting works on it. -/
structure Sent where
  y    : Int
  add  : Int
  dest : Xf
  deriving DecidableEq, Repr

/-- What one output patch entry and its output stage keep (R65–R70). -/
structure OutRt where
  busX   : Xf              -- outpatch bus
  destX  : Xf              -- outpatch dest
  lim    : Cf              -- lim.enable
  g      : Nat             -- limiter gain, units of 2^-31
  held   : List Int        -- the block in the limiter's one-block delay (R28)
  dither : Nat             -- xorshift state (R69)
  width  : Nat             -- width in force since the last block
  dithOn : Nat             -- dither in force since the last block
  mute     : Zc              -- the mute that holds every output outside RUN (R3, R351, R353, R355)
  sent   : List Sent       -- the block that leaves
  before : Int             -- the signal behind the limiter on the sample before that block
  deriving DecidableEq, Repr

/-- An output patch entry with every parameter at its default; its generator is not seeded before device start
(R69). -/
def OutRt.reset : OutRt where
  busX := Xf.at [0xFFFF]
  destX := Xf.at [0]
  lim := Cf.at [1]
  g := 0x80000000
  held := []
  dither := 0
  width := 1
  dithOn := 0
  mute := Zc.at 0
  sent := []
  before := 0

/-- Node states of R81. -/
inductive NodeSt where
  | idle | pending | ramp | queued
  deriving DecidableEq, Repr

/-- A node record (R81). `hold` is the model's own: the node waits for a zero crossing without a timeout, as the
restore rules of R105 require. -/
structure Node where
  cur  : Int
  tgt  : Int
  stg  : Int
  tap  : Nat
  ntap : Nat
  stap : Nat
  st   : NodeSt
  hold : Bool
  deriving DecidableEq, Repr

/-- The mark of a node with nothing staged (R81). -/
def stgNone : Int := -0x80000000

/-- A node record at reset (R81). -/
def Node.reset : Node :=
  { cur := 0, tgt := 0, stg := stgNone, tap := 2, ntap := 2, stap := 2, st := .idle, hold := false }

/-- A zero-crossing group (R86): pending-period start, running ramp (start, length). -/
structure Group where
  tp   : Option Nat
  ramp : Option (Nat × Nat)
  deriving DecidableEq, Repr

/-- A group with nothing pending. -/
def Group.idle : Group := { tp := none, ramp := none }

/-- Nodes and their zero-crossing groups, as the Mere and the spring mixer step them (R86, R147). -/
structure StepG where
  nodes  : Cells Node
  groups : Cells Group
  deriving DecidableEq, Repr

/-- A commit's node targets on their way to the sample stamped c (R95, R96). -/
structure NodeCommit where
  c     : Nat
  nodes : List (Nat × Int × Nat)   -- node key, target, tap
  shape : Option Nat               -- a new mere.shape (R80)
  deriving DecidableEq, Repr

/-- A Mere lane (R101–R103): blocks (by block index) of its recent detections, whether it has met the threshold and retires at the next
frame tick, and whether it is retired. -/
structure Lane where
  detections : List Nat
  due        : Bool
  retired    : Bool
  deriving DecidableEq, Repr

/-- A lane without a detection. -/
def Lane.reset : Lane := { detections := [], due := false, retired := false }

/-- The Mere. -/
structure MereG where
  step     : StepG             -- node memory by key destination × 4096 + source (R81), groups by source × 4 + tap
  image    : Cells (Int × Nat) -- the SCE's committed image: target and tap per node (R105)
  sig      : Cells Int         -- the signal of each group on the sample before, by group
  queue    : List NodeCommit   -- committed, not yet reached by the Mere's stamps
  shape    : Nat               -- shape at the stamp the Mere has reached
  srcX     : Cells Xf          -- source map crossfades: [map word, reference]
  dstX     : Cells Xf          -- destination map crossfades: [map word]
  laneMap  : List Nat          -- physical lane of each logical lane (R102)
  lanes    : Cells Lane        -- detection history by physical lane
  lastC    : Option Nat        -- commit sample of the last commit that changed a node gain (R80)
  recompute : Nat
  corrected : Nat
  restored  : Nat
  scrubs    : Nat              -- completed scrubber passes (the model's own count)
  deriving DecidableEq, Repr

/-- The Mere at reset. -/
def MereG.reset : MereG where
  step := { nodes := [], groups := [] }
  image := []
  sig := []
  queue := []
  shape := 0
  srcX := []
  dstX := []
  laneMap := List.range 128
  lanes := []
  lastC := none
  recompute := 0
  corrected := 0
  restored := 0
  scrubs := 0

/-- Failover memory of one input patch entry (R41, R42): both-lost reported, and the samples since side A left
loss. -/
structure Failover where
  both : Bool
  since : Option Nat
  deriving DecidableEq, Repr

/-- A committed change of one parameter, kept until every stage has passed its sample: commit sample, handle, value
before and after, and the crossfade lengths of its set. -/
structure Change where
  c   : Nat
  h   : Nat
  old : Nat
  new : Nat
  cf  : Nat
  dx  : Nat
  deriving DecidableEq, Repr

/-- The block audio path. Blocks between the stages are kept by object, as B samples from the stamp held beside
them. -/
structure AudioG where
  changes  : List Change
  strips   : Cells ChainRt
  busses   : Cells ChainRt
  outs     : Cells OutRt
  failover : Cells Failover
  rx       : Cells Int               -- alignment buffers: key reference × 2^64 + stamp, E48 samples
  inBlk    : Cells (List Int)        -- input patch outputs of the last four blocks the strips took, newest first
  taps     : Cells (List Int)        -- key strip × 4 + tap
  sums     : Cells (List Int)        -- A64 per consumer: map kind × 65536 + index
  busOut   : Cells (List Int)        -- bus outputs, most recent block
  slotIn   : Cells (List Int)        -- key slot × 8 + input
  slotOut  : Cells (List Int)        -- key slot × 8 + output
  port     : Cells Int               -- samples delivered to a port channel: key reference × 2^64 + stamp
  satStrip : Mem
  satBus   : Mem
  satOut   : Mem
  grOut    : Mem                     -- out[n].lim.gr
  meters   : Cells (Nat × Nat)       -- peak and sum of squares in the running meter period, by meter point key
  taken    : Nat                     -- first stamp the strips have not taken
  deriving DecidableEq, Repr

/-- The block audio path at reset: nothing in flight. -/
def AudioG.reset : AudioG where
  changes := []
  strips := []
  busses := []
  outs := []
  failover := []
  rx := []
  inBlk := []
  taps := []
  sums := []
  busOut := []
  slotIn := []
  slotOut := []
  port := []
  satStrip := []
  satBus := []
  satOut := []
  grOut := []
  meters := []
  taken := 0

end Sys2Proof.Machine
end

