-- ==== Sys2Proof/Machine/BootState.lean ====
section
/-! DEFINITION. Sys2Proof/Machine/BootState.lean: rails and reset, straps, the boot loader, the life cycle, the secure bank
and the firmware slots (spec/00_scope.md, spec/01_architecture.md, spec/13_startup_and_wellhead.md, R481–R484). -/
namespace Sys2Proof.Machine

/-- Device states (R335 DEV_STATE; OFF reads nothing). -/
inductive DevSt where
  | off | reset | boot | quiet | run | standby
  deriving DecidableEq, Repr

/-- The code of DEV_STATE [2:0]. -/
def DevSt.code : DevSt → Nat
  | .off => 0 | .reset => 1 | .boot => 2 | .quiet => 3 | .run => 4 | .standby => 5

/-- Life-cycle states (R356). -/
inductive Life where
  | blank | provisioned | deployed | returned
  deriving DecidableEq, Repr

/-- The code of DEV_STATE [7:6]. -/
def Life.code : Life → Nat
  | .blank => 0 | .provisioned => 1 | .deployed => 2 | .returned => 3

/-- What feeds the boot loader: a flash slot, a host over PCIe, the twin. -/
inductive Feed where
  | slot (b : Bool)
  | pcie
  | twin
  deriving DecidableEq, Repr

/-- The fields of an accepted image header that outlive the boot (R340). -/
structure Image where
  generation : Nat
  fwVersion  : Nat
  secVersion : Nat
  bytes      : Nat
  signer     : Nat
  xin        : Nat
  family     : Nat
  profile    : Nat
  tamperEn   : Nat
  runTimeout : Nat
  sections   : List (Nat × Nat × Nat × List Nat)   -- type, offset, length, SHA-256
  deriving DecidableEq, Repr

/-- Rails, reset and stand-by pins, straps, power domains. -/
structure PowerG where
  standbySet : Bool            -- VDD_AON, VDDIO33 and VDDA_PLL in range
  mainRails  : Bool            -- every other rail in range
  resetN     : Bool            -- RESET_N is high
  stbyLow    : Bool            -- STBY_N has been low for 10 ms
  straps     : Straps
  domains    : Nat             -- PD state bits (R418), bit i for the domain of that index
  holdMcc    : Bool            -- the MCC holds its count (R17)
  upS        : Nat             -- seconds since the release of reset, and samples of the running second
  upN        : Nat
  deriving DecidableEq, Repr

/-- The boot loader and what the booted image leaves behind. -/
structure BootG where
  stage     : Nat
  error     : Nat
  slotUsed  : Bool
  fallback  : Bool
  failed    : Nat              -- error of the slot that failed first
  feed      : Feed
  header    : Option Image     -- header accepted, sections not yet
  waitPcie  : Bool             -- waiting for an image over PCIe (R344)
  fed       : List Nat         -- bytes fed over PCIe so far
  image     : Option Image     -- the booted image
  sections  : List (List Nat)  -- its sections
  dram      : Option Bool      -- training result
  startSet  : Option Nat       -- the start scene's stage set while OPEN
  chosen    : Bool             -- the first slot has been chosen (R343)
  probe     : Option (Option (List Nat)) -- with no preference: what slot A's header read gave, while slot B's is read
  pref      : Option Nat       -- boot preference in MSTORE (R343)
  pins      : Mem              -- function code of each ball the image or a commit assigned
  deriving DecidableEq, Repr

/-- One credential of the secure bank. -/
structure Cred where
  id       : Nat
  secret   : List Nat
  role     : Nat
  takeover : Bool
  mask     : Nat
  deriving DecidableEq, Repr

/-- Fuses, secure bank and tamper monitors. -/
structure SecG where
  life      : Life
  rootHash  : List Nat         -- SHA-256 of the integrator root key; [] not fused
  rootKey   : List Nat         -- the integrator root key, as provisioned
  floor     : Nat              -- security-version floor
  creds     : List Cred
  modKeys   : Cells (List Nat) -- integrator module keys by slot 1…4
  counter   : Nat              -- provisioning counter in MSTORE
  bankCtr   : Nat              -- the secure bank's copy of it
  tripped   : List Nat         -- tamper sources not at their normal condition
  wiping    : Bool
  wiped     : Bool             -- FAULT_SUM [4]
  deriving DecidableEq, Repr

/-- One external flash slot and its staging (R365). -/
structure FlashSlot where
  data    : Memory
  size    : Nat                -- bytes written since the erase
  erased  : Bool               -- the erase of the first FW_WRITE has been done
  known   : Bool               -- an FW_WRITE has erased it: what it holds is what was written since
  staged  : Option Nat         -- result of the test of a completed write
  deriving DecidableEq, Repr

/-- An untouched flash slot. -/
def FlashSlot.reset : FlashSlot := { data := [], size := 0, erased := false, known := false, staged := none }

/-- Firmware update. -/
structure FwG where
  slotA : FlashSlot
  slotB : FlashSlot
  version : Nat                -- FW_VERSION: the fw_version of the booted image's header
  inUse   : Option Nat         -- the slot whose firmware runs
  pending : Option Nat         -- a slot switch whose restart is under way
  deriving DecidableEq, Repr

/-- Rails in range, RESET_N low, straps unsampled, every switched domain off. -/
def PowerG.reset : PowerG where
  standbySet := true
  mainRails := true
  resetN := false
  stbyLow := false
  straps := { mode := 0, boot := 0, twinEn := false, pairId := false }
  domains := 0
  holdMcc := true
  upS := 0
  upN := 0

/-- Nothing booted. -/
def BootG.reset : BootG where
  stage := 0
  error := 0
  slotUsed := false
  fallback := false
  failed := 0
  feed := .slot false
  header := none
  waitPcie := false
  fed := []
  image := none
  sections := []
  dram := none
  startSet := none
  chosen := false
  probe := none
  pref := none
  pins := []

/-- A part as manufactured: life cycle BLANK, secure bank empty. -/
def SecG.reset : SecG where
  life := .blank
  rootHash := []
  rootKey := []
  floor := 0
  creds := []
  modKeys := []
  counter := 0
  bankCtr := 0
  tripped := []
  wiping := false
  wiped := false

/-- Empty flash. -/
def FwG.reset : FwG := { slotA := FlashSlot.reset, slotB := FlashSlot.reset, version := 0, inUse := none, pending := none }

end Sys2Proof.Machine
end

