-- ==== Sys2Proof/Machine/CkuState.lean ====
section
/-! DEFINITION. Sys2Proof/Machine/CkuState.lean: what the clock unit keeps (spec/11_clock_references.md). -/
namespace Sys2Proof.Machine

/-- States of a reference (R279). -/
inductive RefSt where
  | disabled | lost | qualifying | qualified | marginal | disqualified
  deriving DecidableEq, Repr

/-- Code of ref[k].state. -/
def RefSt.code : RefSt → Nat
  | .disabled => 0 | .lost => 1 | .qualifying => 2 | .qualified => 3 | .marginal => 4 | .disqualified => 5

/-- One reference slot. -/
structure RefSlot where
  st      : RefSt
  offset  : Int            -- ppt
  drift   : Int            -- ppt/s
  losses  : Nat
  timer   : Nat            -- ms of an unbroken qualification
  quiet   : Nat            -- ms the drift has stayed below the warning
  warned  : Bool
  hist    : List Int       -- offsets of the last 10 s at every 100 ms, newest first (R282)
  deriving DecidableEq, Repr

/-- A slot at reset. -/
def RefSlot.reset : RefSlot :=
  { st := .disabled, offset := 0, drift := 0, losses := 0, timer := 0, quiet := 0, warned := false, hist := [] }

/-- States of cku.state. -/
inductive CkuSt where
  | freeRun | acquiring | locked | holdover | glide | hostSteered
  deriving DecidableEq, Repr

/-- Code of cku.state. -/
def CkuSt.code : CkuSt → Nat
  | .freeRun => 0 | .acquiring => 1 | .locked => 2 | .holdover => 3 | .glide => 4 | .hostSteered => 5

/-- A clock output (R300, R301): frequency and delay in force, and those before the half cycle of amclk, counted from MCC 0, at which they
came into force. -/
structure ClkOut where
  freq     : Nat
  delay    : Nat
  oldFreq  : Nat
  oldDelay : Nat
  since    : Nat
  deriving DecidableEq, Repr

/-- An output that is off. -/
def ClkOut.reset : ClkOut := { freq := 0, delay := 0, oldFreq := 0, oldDelay := 0, since := 0 }

/-- The clock unit. Frequencies are offsets in ppt from 1024 × base rate against the calibrated local oscillator. -/
structure CkuG where
  refs      : Cells RefSlot
  sel       : Nat               -- cku.selected, 0xFF none
  st        : CkuSt
  freq      : Int               -- amclk's offset that the loop's integral part, or a move of it, holds
  prop      : Int               -- the departure from it by which the loop, or a slew, corrects phase (R291)
  target    : Option (Int × Nat) -- a running linear move: target offset, rate in ppt/s
  acc       : Nat               -- share of a ppt left over by the last sample of a move
  dco       : Int               -- cku.dco
  phase     : Int               -- the phase that amclk still has to advance, in ps / engine rate (R288; REF4's stands in the PHC)
  inN       : Nat               -- samples that the phase error has stayed within cku.lock_ns (R290)
  outN      : Nat               -- samples that it has stayed beyond 10 times that
  bwN       : Nat               -- samples since the bandwidth last changed
  loCal     : Int
  holdRem   : Nat               -- cku.hold_remaining, s
  holdN     : Nat               -- samples into the running second of hold_remaining, or since its end
  second    : Nat               -- samples into the running second of the average
  sum       : Int               -- amclk's offset summed over them
  avg       : List Int          -- amclk's mean offset second by second, newest first (R292)
  lockedN   : Nat               -- samples locked since the last selection
  everLock  : Bool
  bw        : Nat               -- bandwidth code in force
  slewing   : Bool              -- a REF4 or renumbering slew (R289, R263)
  slewMod   : Nat               -- the slew ends where Δ is a multiple of this (1: at the nearest sample instant; B: R263)
  pairs     : List (Nat × Nat)  -- disagreeing pairs reported (R286)
  cal       : Option Nat        -- calibration running: the selected slot
  xin       : Nat
  outs      : Cells ClkOut
  twinFollow : Bool             -- the peer's sample edges stand in for a reference (R430)
  committed  : Bool             -- ranks, limits or cku.revertive changed since the last evaluation (R287)
  fromHost   : Bool             -- cku.mode returned to 0 since the last evaluation (R297)
  deriving DecidableEq, Repr

/-- The clock unit at reset: free run at nominal plus trim. -/
def CkuG.reset : CkuG where
  refs := []
  sel := 0xFF
  st := .freeRun
  freq := 0
  prop := 0
  target := none
  acc := 0
  dco := 0
  phase := 0
  inN := 0
  outN := 0
  bwN := 0
  loCal := 0
  holdRem := 0
  holdN := 0
  second := 0
  sum := 0
  avg := []
  lockedN := 0
  everLock := false
  bw := 0
  slewing := false
  slewMod := 1
  pairs := []
  cal := none
  xin := 0
  outs := []
  twinFollow := false
  committed := false
  fromHost := false

end Sys2Proof.Machine
end

