-- ==== Sys2Proof/Machine/ControlState.lean ====
section
/-! DEFINITION. Sys2Proof/Machine/ControlState.lean: the state of sessions, events, direct registers, stage sets, cue
lists and the scene store (spec/04_scenes_and_commit.md, spec/12_control_protocol_and_events.md). -/
namespace Sys2Proof.Machine

/-- A message that waits for its remaining fragments (R305). -/
structure Partial where
  origin : Origin
  sid    : Nat
  seq    : Nat
  frags  : List (Nat × List Nat)
  last   : Option Nat
  deriving DecidableEq, Repr

/-- A whole authenticated request, parsed as far as its header (R304). -/
structure Message where
  origin : Origin
  sid    : Nat
  seq    : Nat
  cmd    : Nat
  body   : List Nat
  deriving DecidableEq, Repr

/-- One mailbox channel (R310, R335). -/
structure Channel where
  busy   : Bool
  ready  : Bool
  overrun  : Bool
  rlen   : Nat
  evw    : Nat
  evr    : Nat
  wait   : Option Nat        -- length of a request held while the control cores are stalled (R320)
  reply  : Option (List Nat) -- a reply not yet written to the buffer
  deriving DecidableEq, Repr

/-- A channel at reset. -/
def Channel.reset : Channel := { busy := false, ready := false, overrun := false, rlen := 0, evw := 0, evr := 0, wait := none, reply := none }

/-- Sessions and transports. -/
structure VcpG where
  sessions : List Session
  owner    : Mem                    -- owner session of each partition, 0 none (R317)
  inbox    : List Message
  partials : List Partial
  fails    : List (Origin × Nat)    -- authentication failures of the last 10 s: source and MCC (R313)
  blocked  : List Origin
  channels : Cells Channel
  mbx      : Memory                    -- BAR2 window bytes (R310)
  last     : Option Reply           -- the latest reply sent
  pushes   : List Push              -- pushes of the latest delivery
  out      : List Datagram          -- replies and pushes on their way to a NET port (R309)
  asked    : List (Req × Origin)    -- source of each request that its reply has not left for (R309)
  summaries : List Req              -- SUMMARY requests that wait for a frame tick (R326)
  held     : List (Origin × List Nat) -- datagrams held while the control cores are stalled, oldest first (R320)
  authFail : Nat
  deriving DecidableEq, Repr

/-- No session. -/
def VcpG.reset : VcpG where
  sessions := []
  owner := []
  inbox := []
  partials := []
  fails := []
  blocked := []
  channels := []
  mbx := []
  last := none
  pushes := []
  out := []
  asked := []
  summaries := []
  held := []
  authFail := 0

/-- Events, interrupt pins and the direct registers that hold state (R327–R335). -/
structure EvG where
  stat    : Nat                       -- EV_STAT, bit e for event id e
  irqMap  : Mem                       -- 4-bit entries by event id
  detail  : Cells (Nat × List Nat)    -- ring slot to full index and 16 words
  detNext : Nat                       -- next detail index
  scratch : Nat
  msiEn   : Bool
  msi     : List Nat                  -- MSI vectors sent by the latest change (model's own record)
  mccHi   : Nat                       -- latched high words
  genHi   : Nat
  deriving DecidableEq, Repr

/-- Event state at reset. -/
def EvG.reset : EvG where
  stat := 0
  irqMap := []
  detail := []
  detNext := 0
  scratch := 0
  msiEn := false
  msi := []
  mccHi := 0
  genHi := 0

/-- Stage set states (R106). -/
inductive SetSt where
  | open | checking | checked | scheduled | committed | discarded
  deriving DecidableEq, Repr

/-- A stage set. -/
structure StageSet where
  id       : Nat
  sid      : Nat
  st       : SetSt
  attrs    : Attrs
  added    : List Added
  cosigned : List Nat            -- partitions whose co-signature is valid
  findings : List Finding
  commit   : Option Nat          -- the accepted commit sample
  want     : Option When         -- a commit queued behind a check or the plane (R111, R122)
  planeIn  : Bool                -- all node entries are in the staged plane
  waiting  : Bool                -- waits for the plane
  order    : Nat                 -- order of acceptance among scheduled sets (R126)
  moved    : Option Nat          -- the earliest sample at which its configuration has changed since its check (R124)
  scenes   : List (Nat × Nat)    -- profile and shape of every scene recalled into it (R138)
  reading  : Option (Nat × Nat × Req)  -- a recall in progress: scene, scope and the request
  reply    : Option Req          -- the request the check answers
  deriving DecidableEq, Repr

/-- States of a cue list (R131, SUMMARY). -/
inductive CueSt where
  | empty | loaded | armed | done
  deriving DecidableEq, Repr

/-- A cue list: its cues, and when armed the MCC value of each. -/
structure CueList where
  st   : CueSt
  cues : List Cue
  mcc  : List Nat
  next : Nat
  deriving DecidableEq, Repr

/-- An empty cue list. -/
def CueList.reset : CueList := { st := .empty, cues := [], mcc := [], next := 0 }

/-- A scene being written (R136). -/
structure Saving where
  part   : Nat
  prof   : Nat
  shape  : Nat
  scene  : Nat
  label  : List Nat
  record : List Nat
  gen    : Nat
  req    : Req
  deriving DecidableEq, Repr

/-- What a module instance takes where it stands: slot, module and version, engine, cycles at its crossfade cost, P, X and Y words, bytes of
its delay buffer (R114, R116, R203). -/
structure Placed where
  slot   : Nat
  mod    : Nat × Nat
  engine : Nat
  cycles : Nat
  p      : Nat
  x      : Nat
  y      : Nat
  dram   : Nat
  deriving DecidableEq, Repr

/-- What transitions have released and still counts (R114, R116): instances, and old delays of delay stages (class × 65536 + instance,
samples), each with its completion bound. -/
structure Leaving where
  mods   : List (Placed × Nat)
  delays : List (Nat × Nat × Nat)
  deriving DecidableEq, Repr

/-- Nothing is leaving. -/
def Leaving.none : Leaving := { mods := [], delays := [] }

/-- The scene engine. -/
structure SceG where
  sets     : List StageSet
  nextId   : Nat
  checkQ   : List Nat               -- sets queued for checking, the first being checked
  holder   : Option Nat             -- holder of the staged plane: a set, or 65536 for an armed cue's scene (R110, R132)
  gen      : Nat                    -- configuration generation
  lastSet  : Cells (Nat × Nat × Nat)-- per partition: last committed set, generation, commit MCC
  cues     : Cells CueList
  mstore   : Memory                    -- the 32 MiB scene store, by byte address (R134)
  saving   : List Saving
  leaving  : Leaving                -- what past commits released and still counts in admission (R114, R116)
  opening  : Nat × List (Nat × Nat) -- the latest commit sample, and words as they stood before its first set (R126)
  units    : Option (Nat × Nat)     -- crossfade lengths of a commit whose units still wait for another of its sample (R126)
  orders   : Nat                    -- commits accepted so far
  changing : Bool                   -- a profile or rate change has not completed (R3, R128)
  deriving DecidableEq, Repr

/-- The scene engine at reset. -/
def SceG.reset : SceG where
  sets := []
  nextId := 1
  checkQ := []
  holder := none
  gen := 0
  lastSet := []
  cues := []
  mstore := []
  saving := []
  leaving := Leaving.none
  opening := (0, [])
  units := none
  orders := 0
  changing := false

end Sys2Proof.Machine
end

