-- ==== Sys2Proof/Machine/PortState.lean ====
section
/-! DEFINITION. Sys2Proof/Machine/PortState.lean: what the SAP, MADI and headset ports keep
(spec/08_serial_ports_madi_headset.md). -/
namespace Sys2Proof.Machine

/-- One slot or channel of a port: its mute as a zero-crossing gain (0 or unity; R214, R215, R217, R221), the last good value, and
the running fade of R499 (the held value, none for a running signal; next sample k). -/
structure SlotSt where
  z    : Zc
  held : Int
  fade : Option (Option Int × Nat)
  deriving DecidableEq, Repr

/-- A muted slot. -/
def SlotSt.reset : SlotSt := { z := Zc.at 0, held := 0, fade := none }

/-- A SAP direction, or a MADI receiver or transmitter (R208, R211, R214–R222, R229). -/
structure PortDir where
  fields    : List Nat            -- the fields it started with, by number; they hold until its stop ends (R214)
  running   : Bool
  loss      : Bool
  measuring : Bool
  mismatch  : Bool
  origin    : Bool                -- origin lost (R210)
  starting  : Bool                -- enabled and not yet run
  stopping  : Option Nat          -- stop of R215: frames of zero done
  again     : Bool                -- enable 1 committed while a stop runs
  stopOn    : Bool                -- every slot has applied 0
  frames    : Nat
  slips     : Nat
  losses    : Nat
  slipWin   : Option Nat          -- frame count at which the running slip window began
  phase     : Option Int          -- phase reference of a synchronous slave, amclk cycles (R211)
  nextStamp : Option Nat          -- number of the next frame, counted from MCC 0: its stamp at the engine rate
  idle      : Nat                 -- own frames from MCC 0 up to which a loss has been stepped, where slots do not count on engine samples
  meas      : Nat                 -- frames of a measurement or of the lock count
  mask      : Nat                 -- mask in force
  wanted    : Option Nat          -- committed mask on its way (R217 step 1)
  shadow    : Option (Nat × Nat)  -- shadow register and frames until it takes effect
  slots     : Cells SlotSt
  tx        : List Nat            -- words of the last frame sent
  hiz       : Nat                 -- slots of that frame in high impedance (R213)
  fsLen     : Nat                 -- bit clocks that FS is asserted in each frame, driven as master (R207), 0 not driven
  fsLow     : Bool                -- FS is asserted low
  deriving DecidableEq, Repr

/-- A disabled direction. -/
def PortDir.reset : PortDir where
  fields := []
  running := false
  loss := false
  measuring := false
  mismatch := false
  origin := false
  starting := false
  stopping := none
  again := false
  stopOn := false
  frames := 0
  slips := 0
  losses := 0
  slipWin := none
  phase := none
  nextStamp := none
  idle := 0
  meas := 0
  mask := 0
  wanted := none
  shadow := none
  slots := []
  tx := []
  hiz := 0
  fsLen := 0
  fsLow := false

/-- The operator headset port (R230–R234). -/
structure HspG where
  type     : Nat
  buttons  : Nat
  inserted : Bool              -- insertion debounced, measuring
  leaving  : Option Nat        -- removed: the exit MCC at which the fade of R234 ends
  pressed  : Option Nat        -- reported button
  touch    : Bool              -- line below 0.90 V
  repeats  : Nat               -- repeats reported of the press
  phones   : Cells SlotSt
  mic      : SlotSt
  next     : Nat               -- first stamp the microphone channel has not delivered yet
  outNext  : Nat               -- first exit MCC the headphone channels have not taken yet
  left     : Int               -- the last samples at the headphone drivers
  right    : Int
  gainNow  : Nat               -- analogue microphone gain step in force
  drivers  : Bool
  bias     : Bool
  range    : Zc                -- hp.range at the headphone's zero crossing: gain 0 or unity stands for range 0 or 1
  deriving DecidableEq, Repr

/-- Nothing plugged in. -/
def HspG.reset : HspG where
  type := 0
  buttons := 0
  inserted := false
  leaving := none
  pressed := none
  touch := false
  repeats := 0
  phones := []
  mic := SlotSt.reset
  next := 0
  outNext := 0
  left := 0
  right := 0
  gainNow := 0
  drivers := false
  bias := false
  range := Zc.at 0

/-- Serial ports, MADI and headset. -/
structure PortG where
  sap    : Cells PortDir        -- port × 2 + direction (0 receive, 1 transmit)
  madi   : Cells PortDir        -- port × 2 + direction
  parity : Mem                  -- MADI parity_count
  chans  : Mem                  -- MADI rx.channels
  block  : Mem                  -- MADI frames since the last AES3 block start (R227)
  hsp    : HspG
  deriving DecidableEq, Repr

/-- Every port disabled. -/
def PortG.reset : PortG where
  sap := []
  madi := []
  parity := []
  chans := []
  block := []
  hsp := HspG.reset

end Sys2Proof.Machine
end

