-- ==== Sys2Proof/Machine/ConvState.lean ====
section
/-! DEFINITION. Sys2Proof/Machine/ConvState.lean: what the rate converter bank and the decimators keep
(spec/09_rate_conversion_and_decimation.md). -/
namespace Sys2Proof.Machine

/-- One rate converter channel (R235–R241). -/
structure SrcCh where
  user    : Nat            -- port channel reference, 0 unused
  dir     : Nat            -- 0 receive, 1 transmit
  locked  : Bool
  acq     : Bool
  out     : Bool           -- out of range
  fixed   : Bool
  ratio   : Nat            -- input rate / output rate in units of 2^-24
  latency : Nat            -- L_src
  unlocks : Nat
  slot    : SlotSt
  past    : List Int       -- the input samples its filter holds, newest first (receive)
  lost    : Bool           -- the port is in loss: what the port fades is still converted (R238)
  next    : Nat            -- first engine stamp not delivered yet (receive)
  deriving DecidableEq, Repr

/-- An unused channel. -/
def SrcCh.reset : SrcCh where
  user := 0
  dir := 0
  locked := false
  acq := false
  out := false
  fixed := false
  ratio := 0
  latency := 0
  unlocks := 0
  slot := SlotSt.reset
  past := []
  lost := false
  next := 0

/-- One decimator channel (R242–R249). -/
structure DecCh where
  input   : Nat            -- input in use: dec[i].in
  want    : Option Nat     -- a committed input on its way (R245)
  e       : Int            -- DC estimate, A64 (R247)
  phase16 : Nat            -- phase counters (R249)
  phase8  : Nat
  dcX     : Cf             -- dc.enable
  out8    : SlotSt
  outE    : SlotSt
  y8      : Int            -- the newest sample after the DC stage
  silence : Option Nat     -- spring sample at which the 64 silent ones of R245 end
  frozen  : Bool           -- dc.freeze in force
  next    : Nat            -- first stamp the engine-rate output has not delivered yet
  deriving DecidableEq, Repr

/-- A channel with no input. -/
def DecCh.reset : DecCh where
  input := 0xFFFF
  want := none
  e := 0
  phase16 := 0
  phase8 := 0
  dcX := Cf.at [1]
  out8 := SlotSt.reset
  outE := SlotSt.reset
  y8 := 0
  silence := none
  frozen := false
  next := 0

/-- Rate converters and decimators. -/
structure ConvG where
  src    : Cells SrcCh
  dec    : Cells DecCh
  sched  : Option Nat      -- scheduled DECSYNC, c
  byPin  : Bool            -- it came from the pin (R251)
  fading : Bool            -- the fade before c has begun
  hold   : Option Nat      -- spring sample at which dec.sync_hold ends
  count  : Nat             -- dec.sync_count
  pulse  : Nat             -- amclk cycles of the pin pulse of the last DECSYNC
  deriving DecidableEq, Repr

/-- Nothing converted. -/
def ConvG.reset : ConvG where
  src := []
  dec := []
  sched := none
  byPin := false
  fading := false
  hold := none
  count := 0
  pulse := 0

end Sys2Proof.Machine
end

