-- ==== Sys2Proof/Machine/FabricState.lean ====
section
/-! DEFINITION. Sys2Proof/Machine/FabricState.lean: what the fabric, the memories and the crossings keep
(spec/14_fabric_memory_crossings.md). -/
namespace Sys2Proof.Machine

/-- An event count crossing (R389, R390). -/
structure Crossing where
  pending   : Nat
  published : Nat      -- 8-bit count
  reflected : Nat      -- the count the destination reflects back
  last      : Nat      -- the destination's last synchronised count
  count     : Nat      -- events counted at the destination
  overSrc   : Bool
  overDst   : Bool
  fence     : Option ResetName  -- R393: fenced until this far side has been reset
  deriving DecidableEq, Repr

/-- A crossing at rest. -/
def Crossing.reset : Crossing where
  pending := 0
  published := 0
  reflected := 0
  last := 0
  count := 0
  overSrc := false
  overDst := false
  fence := none

/-- A lock held at a target (R373): transactions granted and the cycle of the first grant. -/
structure Lock where
  n     : Nat
  start : Nat
  deriving DecidableEq, Repr

/-- What a transaction answers. -/
structure Resp where
  master   : Nat
  err      : Bool
  poisoned : Bool
  data     : List Nat
  deriving DecidableEq, Repr

/-- A granted burst: the transaction, the cycle of its first beat, and the lines that it writes as they were before. -/
structure Burst where
  txn   : Txn
  start : Nat
  old   : List Nat
  deriving DecidableEq, Repr

/-- Fabric and memories. -/
structure FabG where
  waiting   : Cells (List Txn)   -- by target: pool bank 0…31, then 32 + (k − 8) for T8…T12
  held      : Cells (List Txn)   -- by port queue: transactions whose writer waits for room in the port's queue (R391), oldest first
  locks     : Cells Lock         -- by target port T0…T12
  now       : Nat                -- the latest clk_fab cycle that a command named
  bursts    : Cells (Option Burst) -- by target: the latest granted burst (R372)
  resets    : Mem                -- by master: the cycle at which its reset completes (R376)
  flips     : Mem                -- by pool line: the parity bits that differ from those its data give (R377)
  last      : Mem                -- master of the latest grant of a target, plus 1
  resp      : Option Resp        -- the latest answer
  pool      : Memory                -- pool SRAM by byte address, PB28–PB29 excepted (the mailbox windows)
  staging   : Memory                -- words written at the Mere staging port (T8)
  dram      : Memory                -- DRAM by byte address
  conflict  : Mem                -- counters of R382
  decode    : Mem
  lockForced : Nat
  cdcTimeout : Nat
  xrst      : Nat
  poolParity : Nat
  dramCorr  : Nat
  dramUncorr : Nat
  dramRetry : Nat
  mstoreCorr : Nat
  crossings : Cells Crossing     -- by crossing id (R387)
  scrubs    : Nat                -- completed pool scrubber passes
  patrols   : Nat                -- completed DRAM patrol passes
  mramPasses : Nat               -- completed MRAM scrubber passes
  evacuated : List Nat           -- pool banks found bad by an evacuation (R420)
  deriving DecidableEq, Repr

/-- The fabric at reset. -/
def FabG.reset : FabG where
  waiting := []
  held := []
  locks := []
  now := 0
  bursts := []
  resets := []
  flips := []
  last := []
  resp := none
  pool := []
  staging := []
  dram := []
  conflict := []
  decode := []
  lockForced := 0
  cdcTimeout := 0
  xrst := 0
  poolParity := 0
  dramCorr := 0
  dramUncorr := 0
  dramRetry := 0
  mstoreCorr := 0
  crossings := []
  scrubs := 0
  patrols := 0
  mramPasses := 0
  evacuated := []

end Sys2Proof.Machine
end

