-- ==== Sys2Proof/Machine/FaultState.lean ====
section
/-! DEFINITION. Sys2Proof/Machine/FaultState.lean: what fault continuity, throttling and maintenance keep
(spec/15_fault_continuity_and_maintenance.md). -/
namespace Sys2Proof.Machine

/-- A maintenance activity (R419): code, target, requesting session (0 for the device itself). -/
structure Maint where
  code   : Nat
  target : Nat
  sid    : Nat
  defer  : Bool := false        -- a firmware slot switch that only writes the preference (R366)
  deriving DecidableEq, Repr

/-- A throttled clock (R414): percent of nominal, and whether the current block period has seen a report. -/
structure Throttle where
  pct    : Nat
  report : Bool
  deriving DecidableEq, Repr

/-- Fault continuity. -/
structure FaultG where
  detect     : Cells (List Nat)   -- block indices of recent detections, by engine (R407)
  recomputed : Cells Nat          -- block (plus 1) in which an engine last recomputed, by engine (R405)
  spareBlock : Option (Nat × Nat) -- block in which the spare served an engine, and that engine (R406)
  placement  : Mem                -- where an engine's tasks run now, plus 1; 0 for the engine itself
  recomputes : Nat
  retired    : Nat
  failedTasks : Nat
  exhausted  : Bool               -- FAULT_SUM [0]
  uncorrected : Bool              -- FAULT_SUM [1]
  spareTests : Nat                -- completed self-test passes of the spare
  scrubs     : Nat                -- completed background scrubs
  rollbacks  : Nat
  rollTimes  : List Nat           -- MCC of recent rollbacks
  interval   : Bool               -- a rolled-back interval has not run through again
  checkpoint : Nat                -- checkpoints taken
  restarts   : Nat
  restartAt  : List Nat           -- MCC of recent restarts
  stalled    : Bool               -- a restart is running
  halted     : Bool
  tarn       : Throttle
  mere       : Throttle
  episodes   : Nat
  warm       : Bool               -- EV_TEMP_WARN raised and not yet 5 °C below
  holder     : Option Maint
  queue      : List Maint
  pdPending  : List (Nat × Nat × Bool) -- domain switches under way: domain, commit sample, on
  deriving DecidableEq, Repr

/-- Nothing wrong. -/
def FaultG.reset : FaultG where
  detect := []
  recomputed := []
  spareBlock := none
  placement := []
  recomputes := 0
  retired := 0
  failedTasks := 0
  exhausted := false
  uncorrected := false
  spareTests := 0
  scrubs := 0
  rollbacks := 0
  rollTimes := []
  interval := false
  checkpoint := 0
  restarts := 0
  restartAt := []
  stalled := false
  halted := false
  tarn := { pct := 100, report := false }
  mere := { pct := 100, report := false }
  episodes := 0
  warm := false
  holder := none
  queue := []
  pdPending := []

end Sys2Proof.Machine
end

