-- ==== Sys2Proof/Machine/LegacyState.lean ====
section
/-! DEFINITION. Sys2Proof/Machine/LegacyState.lean: what the PQ-480 legacy partition keeps (spec/17_legacy_mode.md). -/
namespace Sys2Proof.Machine

/-- A legacy set (R464–R466): registration MCC, commit sample, order of acceptance, register writes in SPI order, and whether it is a load,
a soft reset or a rate
change. -/
structure LegSet where
  v      : Nat
  c      : Nat
  order  : Nat
  writes : List (Nat × Nat)
  load   : Bool
  soft   : Bool
  rate   : Option Nat
  deriving DecidableEq, Repr

/-- One legacy channel or bus: its gain stages (R467), the samples of the running peak period and the largest magnitude in it. -/
structure LegRt where
  gain  : Zc
  pol   : Zc
  fader : Zc                -- fader and mute together: f and g of R461
  inX   : Xf                -- INSEL
  peakN : Nat
  peak  : Nat
  pad   : List Int          -- the 7-sample padding of a bus, newest first (R468)
  deriving DecidableEq, Repr

/-- A legacy channel or bus with nothing in flight. -/
def LegRt.reset : LegRt where
  gain := Zc.at 0x100000
  pol := Zc.at 0x08000000
  fader := Zc.at 0
  inX := Xf.at [0]
  peakN := 0
  peak := 0
  pad := []

/-- The legacy partition. -/
structure LegG where
  live     : Mem                -- live registers, as the exclusive or with their reset values
  comm     : Mem                -- what the latest commit of each register gave it, likewise
  shadow   : Cells (Option Nat) -- shadow registers written since the last load; any other follows its live register
  shadowEn : Bool
  pending  : Option Nat         -- v of the load that is pending
  latched  : Bool               -- its shadows have been latched
  sets     : List LegSet        -- scheduled, in order of acceptance
  changes  : List (Nat × Nat × Nat × Nat)  -- committed writes still in the path: c, address, old, new
  status   : Nat                -- 0x7F00
  errors   : Nat                -- leg.spi_errors
  errSec   : Option Nat         -- MCC at which the running second of EV_LEGACY_SPI began
  loads    : Nat
  chans    : Cells LegRt
  busses   : Cells LegRt
  outX     : Cells Xf           -- OUTSEL of each output slot
  outM     : Cells Zc           -- the mute that holds each output slot outside RUN (R351, R353)
  outS     : Cells (List Int)   -- the signal of each slot on the sample before the block that leaves, and on the samples of that block
  retX     : Cells Xf           -- bridge.ret[k].bus of each return bridge
  miso     : List Nat           -- the words of the latest read frame
  deriving DecidableEq, Repr

/-- The legacy partition at reset. -/
def LegG.reset : LegG where
  live := []
  comm := []
  shadow := []
  shadowEn := false
  pending := none
  latched := false
  sets := []
  changes := []
  status := 0
  errors := 0
  errSec := none
  loads := 0
  chans := []
  busses := []
  outX := []
  outM := []
  outS := []
  retX := []
  miso := []

end Sys2Proof.Machine
end

