-- ==== Sys2Proof/Machine/NetState.lean ====
section
/-! DEFINITION. Sys2Proof/Machine/NetState.lean: what the Ethernet ports, the PTP hardware clock, PTP, media clock alignment and
the audio streams keep (spec/10_network_streams_and_time.md). -/
namespace Sys2Proof.Machine

/-- A packet copy in use while its merge window runs (R271): sequence number, the leg it came on, its arrival (MCC and
nanoseconds into that sample), its payload words, and whether the other leg's copy has been settled. -/
structure Copy where
  seq  : Nat
  leg  : Nat
  mcc  : Nat
  ns   : Nat
  data : List Nat
  both : Bool
  deriving DecidableEq, Repr

/-- One receive stream (R267–R271). -/
structure RxStream where
  running  : Bool
  loss     : Bool
  legA     : Bool
  legB     : Bool
  resuming : Bool
  stopping : Bool             -- disabled; channels muting
  good     : Nat              -- consecutive in-time packets
  missing  : Nat              -- consecutive missing packets
  lost     : Nat
  late     : Nat
  early    : Nat
  diff     : Nat
  aMiss    : Nat
  bMiss    : Nat
  runA     : Nat              -- consecutive misses of a leg
  runB     : Nat
  diffSec  : Option Nat       -- MCC at which the running second of EV_STREAM_DIFF began
  copies   : List Copy
  got      : List Nat         -- first stamps (stream counts) of the packets written
  mark     : Option (Nat × Nat) -- MCC and PHC time of the last packet in time, from which a converter's ratio is measured (R237)
  settled  : Nat              -- stamp up to which packets have been counted as received or lost
  slots    : Cells SlotSt     -- by channel
  deriving DecidableEq, Repr

/-- A disabled stream. -/
def RxStream.reset : RxStream where
  running := false
  loss := false
  legA := false
  legB := false
  resuming := false
  stopping := false
  good := 0
  missing := 0
  lost := 0
  late := 0
  early := 0
  diff := 0
  aMiss := 0
  bMiss := 0
  runA := 0
  runB := 0
  diffSec := none
  copies := []
  got := []
  mark := none
  settled := 0
  slots := []

/-- An RTP packet as sent (R272): timestamp, sequence number, payload type, SSRC, payload, and the legs it left on; its version is 2 and its
marker bit 0 (`Rtp.header`). -/
structure Rtp where
  ts   : Nat
  seq  : Nat
  pt   : Nat
  ssrc : Nat
  data : List Nat
  legA : Bool
  legB : Bool
  deriving DecidableEq, Repr

/-- One transmit stream (R272–R274, R277). -/
structure TxStream where
  running  : Bool
  next     : Nat              -- stream count of the next packet
  stopping : Bool
  stagger  : Nat              -- offset on leg A's port (leg B's where leg A has none), units of 10 ns
  staggerB : Nat              -- offset on leg B's port
  legA     : Bool             -- legs the twin role has this chip send
  legB     : Bool
  before   : Option (Nat × Bool × Bool) -- legs of packets that began before a stream count (R277)
  mark     : Option (Nat × Nat) -- MCC and PHC time of the last packet, from which a converter's ratio is measured (R237)
  slots    : Cells SlotSt
  last     : Option Rtp
  deriving DecidableEq, Repr

/-- A disabled stream. -/
def TxStream.reset : TxStream where
  running := false
  next := 0
  stopping := false
  stagger := 0
  staggerB := 0
  legA := true
  legB := true
  before := none
  mark := none
  slots := []
  last := none

/-- What a received frame is to its port (R253). -/
inductive FrameK where
  | stream | ptpEvent | ptpGeneral | vcp | arp | icmp | igmp | other | badFcs
  deriving DecidableEq, Repr

/-- A frame that a port sends (R254): PTP event messages (a one-step Sync with the timestamp written into it, and its UDP checksum, R258),
audio packets by stream and sequence number, PTP general messages with the timestamps they carry, what firmware answers, and VCP. -/
inductive TxKind where
  | sync (origin : Option Int) (sum : Nat)
  | delayReq
  | audio (stream seq : Nat)
  | followUp (stamp : Int)
  | delayResp (stamp : Int)
  | announce
  | igmp (version : Nat)
  | arp
  | icmp
  | vcp (d : Datagram)
  deriving DecidableEq, Repr

/-- A frame with the bytes it takes on the wire, preamble and inter-frame gap among them (R275), the MCC before which it does not leave
(R273), and once it leaves the differentiated services code point of its class (R253, R309). -/
structure TxFrame where
  kind  : TxKind
  bytes : Nat
  due   : Nat := 0
  dscp  : Option Nat := none
  deriving DecidableEq, Repr

/-- The PTP hardware clock (R256–R259): time in units of 2^-32 ns, the adjustment word, the share of a clk_ptp cycle left over
by the last engine sample, and the servo's lock counts. -/
structure Phc where
  t      : Nat
  adj    : Int
  rem    : Nat
  within : Nat                -- consecutive offsets within ±lock_ns
  beyond : Nat                -- consecutive offsets beyond 10 × lock_ns
  deriving DecidableEq, Repr

/-- Network ports and time. -/
structure NetG where
  link    : List Nat          -- ports whose link is up
  drop    : Mem
  crc     : Mem
  phc     : Phc
  ptpSt   : Nat               -- ptp.state
  offset  : Int               -- ptp.offset, ns
  leader  : Nat               -- clock identity
  alt     : Bool              -- PTP runs on ptp.port_alt (R260)
  ptpStamp : Int              -- the latest timestamp of a received PTP event message, units of 0.25 ns
  txStamp : Int               -- the latest timestamp of a transmitted one
  linkAt  : Mem               -- MCC at which a port's link last came up (R255)
  queue   : Cells (List TxFrame) -- frames waiting in a port's transmit queues, in order of arrival (R254)
  wire    : Mem               -- what a port's line has still to carry of its present frame, in bits × engine rate
  paid    : Mem               -- 2 × port + direction (1 transmit): ns since reset up to which the 50 Mb/s of R254 are used
  owed    : List (Nat × TxFrame) -- firmware's answers that wait for the control cores, by port (R255)
  sent    : Cells (List TxFrame) -- the last frame that began to leave each port
  timers  : Mem               -- pulses given, by timer
  pulse   : Mem               -- PHC time in ns at which a timer's pin falls (R259)
  capture : Mem               -- last timestamp of a capture unit, ns
  mcc     : Nat               -- mcc.status
  edgeErr : Int
  align   : Bool              -- a renumbering has been asked for
  delta   : Int               -- Δ of the last renumbering
  rx      : Cells RxStream
  tx      : Cells TxStream
  deriving DecidableEq, Repr

/-- The network at reset. -/
def NetG.reset : NetG where
  link := []
  drop := []
  crc := []
  phc := { t := 0, adj := 0, rem := 0, within := 0, beyond := 0 }
  ptpSt := 0
  offset := 0
  leader := 0
  alt := false
  ptpStamp := 0
  txStamp := 0
  linkAt := []
  queue := []
  wire := []
  paid := []
  owed := []
  sent := []
  timers := []
  pulse := []
  capture := []
  mcc := 0
  edgeErr := 0
  align := false
  delta := 0
  rx := []
  tx := []

end Sys2Proof.Machine
end

