-- ==== Sys2Proof/Machine/SpringState.lean ====
section
/-! DEFINITION. Sys2Proof/Machine/SpringState.lean: what the spring mixer keeps (spec/05_spring_paths.md). -/
namespace Sys2Proof.Machine

/-- A source entry at reset: no source, gain off (R146). The tap fields hold source references (R149). -/
def springNode0 : Node :=
  { cur := 0, tgt := 0, stg := stgNone, tap := 0, ntap := 0, stap := 0, st := .idle, hold := false }

/-- One spring source's input queue (R143) and its state under clock loss (R152): unread samples oldest first, the sample
last read, the fade of R152 (held value, samples done), and whether its clock is lost. -/
structure SpringSrc where
  queue : List Int
  held  : Int
  fade  : Option (Int × Nat)
  lost  : Bool
  prev  : Int
  fresh : Bool             -- a sample has arrived since the last spring period
  deriving DecidableEq, Repr

/-- A queue at rest. -/
def SpringSrc.reset : SpringSrc := { queue := [], held := 0, fade := none, lost := false, prev := 0, fresh := false }

/-- One spring mix (R140). -/
structure SpringMix where
  gain   : Zc
  mute   : Zc
  lim    : Cf
  limG   : Nat
  dither : Nat
  slots  : Cells Zc          -- output handover gain of each output slot it drives or releases (R150), by reference
  outM   : Zc                -- the mute that holds the outputs outside RUN (R351, R353)
  pipe   : List Int          -- results of the last three samples, newest first; the second leaves (R140)
  deriving DecidableEq, Repr

/-- A mix with every parameter at its default. -/
def SpringMix.reset : SpringMix where
  gain := Zc.at 0x08000000
  mute := Zc.at 0x08000000
  lim := Cf.at [1]
  limG := 0x80000000
  dither := 1
  slots := []
  outM := Zc.at 0
  pipe := []

/-- One interpolator (R145): its bus crossfade, and the engine samples it takes: those of its block in order, with the MCC at which the
first enters, and those before it, newest first. A sample is none where the interpolator has no bus. -/
structure SpringInterp where
  busX  : Xf
  start : Nat
  blk   : List (Option Int)
  past  : List Int
  deriving DecidableEq, Repr

/-- An interpolator with no bus. -/
def SpringInterp.reset : SpringInterp := { busX := Xf.at [0xFFFF], start := 0, blk := [], past := [] }

/-- The spring mixer. -/
structure SpringG where
  n        : Nat                     -- spring samples computed
  pend     : List (Nat × Nat × Nat)  -- committed and not yet taken: handle, value, cf_len
  step     : StepG                   -- source entries by m × 64 + i, groups by source reference
  sig      : Cells Int               -- group signal on the sample before
  srcs     : Cells SpringSrc         -- input queues by source reference
  mixes    : Cells SpringMix
  interps  : Cells SpringInterp
  outQ     : Cells (List Int)        -- output queues by output reference, newest first, at most 2 (R143)
  slips    : Mem                     -- slip_count by entry
  sat      : Mem                     -- sat_count by mix
  slipEv   : Cells Nat               -- spring sample of the last EV_SPRING_SLIP period by entry
  retired  : List Nat                -- retired units
  detect   : Cells (List Nat)        -- spring samples of recent detections by unit
  recompute : Nat
  stopped  : List Nat                -- output references whose bit clock is stopped (R153)
  phase    : Nat × Nat               -- MCC of the latest period, and which period of that engine sample it was (R139)
  deriving DecidableEq, Repr

/-- The spring mixer at reset. -/
def SpringG.reset : SpringG where
  n := 0
  pend := []
  step := { nodes := [], groups := [] }
  sig := []
  srcs := []
  mixes := []
  interps := []
  outQ := []
  slips := []
  sat := []
  slipEv := []
  retired := []
  detect := []
  recompute := 0
  stopped := []
  phase := (0, 0)

end Sys2Proof.Machine
end

