-- ==== Sys2Proof/Machine/TarnState.lean ====
section
/-! DEFINITION. Sys2Proof/Machine/TarnState.lean: the seventeen Tarn engines, their memories, banks and hazards, the frame
tasks and the module instances (spec/06_tarn_programming_model.md, spec/07_tarn_pipeline_and_tasks.md). -/
namespace Sys2Proof.Machine

/-- One register bank (R160, R161; "Register banks and interrupts"): D0–D7, ACC0–ACC3, A0–A7, M0–M7, B0–B7, L0–L7, the RW
fields of SR, CSTK (top first). -/
structure Bank where
  d    : Vector W48 8
  acc  : Vector W80 4
  a    : Vector (BitVec 15) 8
  m    : Vector (BitVec 16) 8
  b    : Vector (BitVec 15) 8
  l    : Vector (BitVec 16) 8
  sr   : Word
  cstk : List (BitVec 14)
  deriving DecidableEq, Repr

/-- SR at reset: SAT set (R161). -/
def srReset : Word := 0x400#32

/-- A cleared bank (R197). -/
def Bank.reset : Bank where
  d := Vector.replicate 8 0#48
  acc := Vector.replicate 4 0#80
  a := Vector.replicate 8 0#15
  m := Vector.replicate 8 0#16
  b := Vector.replicate 8 0#15
  l := Vector.replicate 8 0#16
  sr := srReset
  cstk := []

/-- One level of the loop stack (R178): LC, LS, LE. -/
structure Level where
  lc : BitVec 16
  ls : BitVec 14
  le : BitVec 14
  deriving DecidableEq, Repr

/-- A write to LC, LS or LE that loop tests do not see yet (R184): instructions left, level counted from the bottom, register
(0 LC, 1 LS, 2 LE), value. -/
structure LoopWrite where
  left  : Nat
  depth : Nat
  reg   : Nat
  val   : Nat
  deriving DecidableEq, Repr

/-- The loop cache (R182): the P address and length of the body it is for, whether its first pass is over, and the words. -/
structure LoopCache where
  base  : Nat
  len   : Nat
  full  : Bool
  words : List Nat
  deriving DecidableEq, Repr

/-- A service request that waits (R186, R189): from debug, the cycles of its handler, and whether it found the budget of a block used up
and so waits for background code. -/
structure Call where
  debug  : Bool
  cycles : Nat
  late   : Bool
  deriving DecidableEq, Repr

/-- What ends after two delay slots (R185). -/
inductive After where
  | goto (target : Nat)
  | call (target : Nat)
  | fall
  | endTask
  deriving DecidableEq, Repr

/-- A data window of a task (R191): space (true Y), first and last word, writable. -/
structure Window where
  y  : Bool
  lo : Nat
  hi : Nat
  wr : Bool
  deriving DecidableEq, Repr

/-- Why an engine stopped a task (R192). -/
inductive Stop where
  | overrun | illegal | residue | parity
  deriving DecidableEq, Repr

/-- A frame task (R190–R192): the slot whose instance it runs (or a native strip or bus as 1000 + object), its code in P, its
frame, windows, cost for this block, and the cycles used. -/
structure Task where
  inst   : Nat
  base   : Nat
  len    : Nat
  entry  : Nat
  frame  : Nat
  wins   : List Window
  cost   : Nat
  cycles : Nat
  deriving DecidableEq, Repr

/-- Roles of an engine (SUMMARY: 0 active, 1 spare, 2 retired, 3 legacy). -/
inductive EngSt where
  | active | spare | retired | legacy
  deriving DecidableEq, Repr

/-- One Tarn engine. -/
structure Engine where
  st     : EngSt
  pMem   : Mem                         -- P words
  xMem   : Mem                         -- X words
  yMem   : Mem                         -- Y words
  bg     : Bank                        -- background bank
  tk     : Bank                        -- task bank
  inTask : Bool                        -- the task bank is current
  pc     : Nat
  saved  : Nat                         -- hidden register: next background instruction (R186)
  loops  : List Level                  -- LSTK, top first
  view   : List Level                  -- LSTK as loop tests see it
  lpend  : List LoopWrite
  savedL : List Level                  -- levels the dispatch stub saved (R187)
  cache  : Option LoopCache            -- the loop cache (R182)
  rep    : Option Nat                  -- repetitions a REP has armed for the next instruction (R177)
  repAt  : Nat                         -- P address of that REP
  slots  : Option (Nat × After)        -- delay slots left, and what follows
  agOld  : List (Nat × Nat × Nat)      -- AGU registers the next address generation sees at their old value: kind, index, value
  accOld : List (Nat × W80)            -- accumulators the next instruction sees before a MAC (R184)
  queue  : List Task                   -- frame tasks of this block not yet started
  cur    : Option Task                 -- the running frame task
  ended  : Option Task                 -- the task that executed its END last, until another starts: a detection may name it (R399)
  stub   : Bool                        -- the dispatch stub is running (R186)
  halt   : Option (Stop × Nat)         -- task stopped: cause and P address
  debug  : Bool                        -- halted by the debug service (R189)
  service : Nat                        -- service-handler cycles taken in this block (R189)
  calls  : List Call                   -- service requests that wait, oldest first
  deriving DecidableEq, Repr

/-- An engine at reset. -/
def Engine.reset : Engine where
  st := .active
  pMem := []
  xMem := []
  yMem := []
  bg := Bank.reset
  tk := Bank.reset
  inTask := false
  pc := 0
  saved := 0
  loops := []
  view := []
  lpend := []
  savedL := []
  cache := none
  rep := none
  repAt := 0
  slots := none
  agOld := []
  accOld := []
  queue := []
  cur := none
  ended := none
  stub := false
  halt := none
  debug := false
  service := 0
  calls := []

end Sys2Proof.Machine
end

