-- ==== Sys2Proof/Machine/TwinState.lean ====
section
/-! DEFINITION. Sys2Proof/Machine/TwinState.lean: what a chip of a twin pair keeps (spec/16_twin_pairs.md). -/
namespace Sys2Proof.Machine

/-- Twin roles (R426). -/
inductive Role where
  | solo | active | standby | joining | fenced
  deriving DecidableEq, Repr

/-- Code of DEV_STATE [5:3]. -/
def Role.code : Role → Nat
  | .solo => 0 | .active => 1 | .standby => 2 | .joining => 3 | .fenced => 4

/-- An input record for one frame tick (R431). -/
structure InRecord where
  tick  : Nat
  items : List InItem
  deriving DecidableEq, Repr

/-- A twin chip. -/
structure TwinG where
  seed      : Nat                  -- dither_seed (R435)
  role      : Role
  hasRole   : Bool                 -- a first role has been taken (R428)
  peer      : Option Heartbeat     -- the latest heartbeat
  paths     : Nat                  -- [0] TWL up, [1] HBL up
  peerAlive : Bool
  peerOwn   : Bool                 -- PEER_OWN_N is low
  ownN      : Bool                 -- OWN_N is high
  aliveHeld : Bool                 -- ALIVE is held low
  faulted   : Bool                 -- a fault outside the boundary since the last reset
  edge      : Int                  -- tw.edge_offset, ns
  mismatch  : Nat
  mismRun   : Nat                  -- consecutive differing blocks
  mismHist  : List Nat             -- blocks with a difference within the last 1024
  own       : Cells (List Nat)     -- this chip's digests by block
  progress  : Nat                  -- consecutive matching blocks (R448)
  instepAt  : Nat                  -- MCC at which in step was declared
  acked     : Nat                  -- n_a
  renewed   : Nat                  -- n_r
  lease     : Bool                 -- a lease is running
  swap      : Option Nat           -- h of a planned swap
  swapReq   : Option Req
  handover  : Option Nat           -- h of a handover
  resync    : Nat                  -- resynchronisation step under way, 0 none
  joinAt    : Nat                  -- MCC of j0
  nonconv   : List Nat             -- slots whose instance still waits to be copied (R447)
  copied    : List (Nat × List Nat × List Nat) -- copies received, installed at the next frame tick: slot, X words, Y words
  window    : Nat                  -- samples of the convergence window
  reseed    : Bool                 -- the reseed of R435 is still to come
  word      : Option Nat           -- MCC value in the lease word last sent
  leave     : Option Nat           -- cause of a withdrawal at the next frame tick (R432, R439)
  held      : List InItem          -- the follower's own decisions, used once it leads (R431)
  ids       : List Nat             -- stage sets committed in the block (R437)
  springW   : Cells (List Int)     -- words sent to spring slots in the block (R437)
  arps      : Nat                  -- gratuitous ARP announcements of tw.ctl_ip sent (R436)
  record    : Option InRecord      -- the lead's record for the coming tick
  closing   : List InItem          -- the lead's own record being filled
  sent      : Option InRecord      -- the record last sent
  forward   : List (Nat × Fwd)     -- forwarded changes not yet applied, by MCC
  mirrored  : List Session         -- sessions opened on tw.ctl_ip as last mirrored: sent by the owner, received by its peer (R436)
  image     : Bool                 -- an image has been sent to the peer (R429)
  deriving DecidableEq, Repr

/-- No peer. -/
def TwinG.reset : TwinG where
  seed := 0
  role := .solo
  hasRole := false
  peer := none
  paths := 0
  peerAlive := false
  peerOwn := false
  ownN := true
  aliveHeld := true
  faulted := false
  edge := 0
  mismatch := 0
  mismRun := 0
  mismHist := []
  own := []
  progress := 0
  instepAt := 0
  acked := 0
  renewed := 0
  lease := false
  swap := none
  swapReq := none
  handover := none
  resync := 0
  joinAt := 0
  nonconv := []
  copied := []
  window := 0
  reseed := false
  word := none
  leave := none
  held := []
  ids := []
  springW := []
  arps := 0
  record := none
  closing := []
  sent := none
  forward := []
  mirrored := []
  image := false

end Sys2Proof.Machine
end

