-- ==== Sys2Proof/Machine/State.lean ====
section
/-! DEFINITION. Sys2Proof/Machine/State.lean: the state of the VXE1536, its reset value, and the reasons a step can stop. -/
namespace Sys2Proof.Machine

/-- Reasons a step stops with a fault. The spec gives every event and request of the table an effect, so no meaning raises one. -/
inductive Fault where
  /-- Raised by no command: the spec names no event that stops the device for good. Safe. -/
  | stuck
  deriving DecidableEq, Repr

/-- Reasons a command has no meaning. -/
inductive Refusal where
  /-- A command not modelled yet, by its mnemonic. Raised by the dispatch only. Safe: the machine stops. -/
  | notModelled (mnemonic : String)
  deriving DecidableEq, Repr

/-- A module image loaded into the library (R194): id, version and the whole image. -/
structure Module where
  id       : Nat
  version  : Nat
  image    : List Nat
  deriving DecidableEq, Repr

/-- An effect slot's instance (R59, R190–R200, R323): the engine that runs it, where its code, its X and its Y words stand there, the
copy of the swapped state it reads, the coefficient bank in use and the running crossfade, AT events waiting (stamp, field, value),
and its failure. -/
structure SlotRt where
  engine : Nat
  pBase  : Nat
  xBase  : Nat
  yBase  : Nat
  second : Bool                     -- the second copy is the read copy
  bank   : Nat
  xf     : Xf                       -- CF parameter words, by descriptor order
  events : List (Nat × Nat × Nat)
  failed : Bool
  lost   : Bool                     -- its engine was lost: the fall-back serves one block (R411)
  cause  : Option (Nat × Nat)       -- cause and P address of the last detection
  hist   : Cells (List Int)         -- what each input has carried, newest first, for the bypass of R193
  deriving DecidableEq, Repr

/-- An empty slot. -/
def SlotRt.reset : SlotRt where
  engine := 0
  pBase := 0
  xBase := 0
  yBase := 0
  second := false
  bank := 0
  xf := Xf.at []
  events := []
  failed := false
  lost := false
  cause := none
  hist := []

/-- The Tarn engines, the module library and the effect slots. -/
structure TarnG where
  engines : Vector Engine 17
  modules : List Module
  slots   : Cells SlotRt
  deriving DecidableEq, Repr

/-- Engine 16 is the spare (R23). -/
def TarnG.reset : TarnG where
  engines := (Vector.replicate 17 Engine.reset).set 16 { Engine.reset with st := .spare }
  modules := []
  slots := []

/-- The state of the block: its groups, the committed parameters, the media clock counter, the counters that number the
occasions of free values (the model's own), and the commands that wait, first in first out (the model's own). -/
structure State where
  mcc     : Nat
  dev     : DevSt
  /-- Committed parameter words, by handle; an unlisted handle holds its field's default (R10, R322). -/
  params  : Cells (Option Nat)
  power   : PowerG
  boot    : BootG
  sec     : SecG
  fw      : FwG
  audio   : AudioG
  mere    : MereG
  spring  : SpringG
  tarn    : TarnG
  ports   : PortG
  conv    : ConvG
  net     : NetG
  cku     : CkuG
  vcp     : VcpG
  ev      : EvG
  scene   : SceG
  fab     : FabG
  fault   : FaultG
  twin    : TwinG
  legacy  : LegG
  /-- How many free values the samples of the run have taken (Config.freeInt, Config.convert). -/
  free    : Nat
  /-- How many free values that no sample depends on the run has taken: nonces, servo words, bridge reads (Config.freeBits). -/
  draws   : Nat
  pending : List Instr
  deriving DecidableEq, Repr

/-- The machine right after reset: in RESET with RESET_N low, nothing booted (R17, R481; log entry 1). -/
def State.reset : State where
  mcc := 0
  dev := .reset
  params := []
  power := PowerG.reset
  boot := BootG.reset
  sec := SecG.reset
  fw := FwG.reset
  audio := AudioG.reset
  mere := MereG.reset
  spring := SpringG.reset
  tarn := TarnG.reset
  ports := PortG.reset
  conv := ConvG.reset
  net := NetG.reset
  cku := CkuG.reset
  vcp := VcpG.reset
  ev := EvG.reset
  scene := SceG.reset
  fab := FabG.reset
  fault := FaultG.reset
  twin := TwinG.reset
  legacy := LegG.reset
  free := 0
  draws := 0
  pending := []

end Sys2Proof.Machine
end

