-- ==== Sys2Proof/Machine/ModuleImage.lean ====
section
/-! DEFINITION. Sys2Proof/Machine/ModuleImage.lean: reading a module image (R194, R195). -/
namespace Sys2Proof.Machine

open Fmt

/-- The 32-bit word at a byte offset of an image. -/
def imgW (img : List Nat) (off : Nat) : Nat := ofBE (slice img off 4)

/-- A parameter descriptor (R195). -/
structure PDesc where
  field : Nat
  cls   : Nat
  ty    : Nat
  off   : Nat
  min   : Nat
  max   : Nat
  dflt  : Nat
  deriving DecidableEq, Repr

/-- Section k (0 P code, 1 X state, 2 Y state, 3 descriptors): offset and length. -/
def imgSection (img : List Nat) (k : Nat) : Nat × Nat := (imgW img (0x54 + 8 * k), imgW img (0x58 + 8 * k))

/-- The descriptors of an image. -/
def imgParams (img : List Nat) : List PDesc :=
  let o := (imgSection img 3).1
  (List.range (imgW img 0x50 % 65536)).map (fun i =>
    let w0 := imgW img (o + 16 * i)
    { field := bits w0 31 24, cls := bits w0 23 20, ty := bits w0 19 16, off := bits w0 15 0,
      min := imgW img (o + 16 * i + 4), max := imgW img (o + 16 * i + 8), dflt := imgW img (o + 16 * i + 12) })

/-- The staged form of a descriptor's word as a number: every type is signed (R195, R196). -/
def pNum (w : Nat) : Int := toS 32 w

/-- The field a descriptor describes. -/
def PDesc.toField (d : PDesc) : Field :=
  { kind := .int, lo := pNum d.min, hi := pNum d.max, dflt := pNum d.dflt,
    tr := if d.cls = 1 then .cf else .at }

/-- Inputs of a module. -/
def imgIn (img : List Nat) : Nat := bits (imgW img 0x14) 23 16
/-- Outputs of a module. -/
def imgOut (img : List Nat) : Nat := bits (imgW img 0x14) 15 8
/-- Code words. -/
def imgPWords (img : List Nat) : Nat := imgW img 0x18 / 65536
/-- Entry word. -/
def imgEntry (img : List Nat) : Nat := imgW img 0x18 % 65536
/-- Swapped words per copy in X and Y. -/
def imgXs (img : List Nat) : Nat := imgW img 0x1C / 65536
def imgYs (img : List Nat) : Nat := imgW img 0x1C % 65536
/-- Ring words in X and Y. -/
def imgXr (img : List Nat) : Nat := imgW img 0x20 / 65536
def imgYr (img : List Nat) : Nat := imgW img 0x20 % 65536
/-- Words per coefficient bank. -/
def imgBank (img : List Nat) : Nat := imgW img 0x24 / 65536
/-- AT event capacity per block. -/
def imgAt (img : List Nat) : Nat := imgW img 0x24 % 65536
/-- Cost per block in a profile: normal, crossfade. -/
def imgCost (img : List Nat) (prof : Nat) : Nat × Nat := (imgW img (0x28 + 8 * prof), imgW img (0x2C + 8 * prof))
/-- Declared latency. -/
def imgLatency (img : List Nat) : Nat := imgW img 0x40
/-- DRAM buffer bytes in a profile. -/
def imgDram (img : List Nat) (prof : Nat) : Nat := imgW img (0x44 + 4 * prof)
/-- nonconv, fall-back silence, io_space, bank_space. -/
def imgFlag (img : List Nat) (i : Nat) : Bool := bit (imgW img 0x10) i

/-- R196: the 48-bit word a module sees for a staged value. -/
def modWord (d : PDesc) (w : Nat) : Int :=
  match d.ty with
  | 0 => pNum w
  | 1 => pNum w * 2 ^ 13
  | 2 => dbToG32 (pNum w) * 2 ^ 13
  | _ => pNum w * 2 ^ 9

/-- R194: what a loaded image must satisfy apart from its digest and signature. -/
def imgRangeOk (img : List Nat) : Bool :=
  let secs := (List.range 4).map (imgSection img)
  let n := img.length - 64
  decide (256 + 64 ≤ img.length) && decide (imgW img 0 = 0x5441524E) && decide (imgW img 4 = 0x00010100)
    && decide (imgW img 0x10 / 16 = 0)
    && decide (imgIn img ≤ 8) && decide (imgOut img ≤ 8) && decide (bits (imgW img 0x14) 31 24 = 0)
    && decide (bits (imgW img 0x14) 7 0 = 0)
    && decide (1 ≤ imgPWords img) && decide (imgPWords img ≤ 16128) && decide (imgEntry img < imgPWords img)
    && decide (imgBank img ≤ 4096) && decide (imgAt img ≤ 256) && decide (imgLatency img ≤ 65535)
    && decide (imgW img 0x50 ≤ 240)
    && (List.range 27).all (fun i => decide (imgW img (0x94 + 4 * i) = 0))
    && (List.range 3).all (fun p => decide ((imgCost img p).1 ≤ (imgCost img p).2))
    && secs.all (fun s => decide (256 ≤ s.1) && decide (s.1 + s.2 ≤ n))
    && (List.range 4).all (fun i => (List.range i).all (fun j =>
        let a := imgSection img i
        let b := imgSection img j
        decide (a.1 + a.2 ≤ b.1) || decide (b.1 + b.2 ≤ a.1)))
    && (imgParams img).all (fun d => decide (d.field < 0xF0) && decide (d.ty ≤ 3) && decide (d.cls ≤ 1))
    && ((imgSection img 0).2 == 4 * imgPWords img) && decide (16 * (imgW img 0x50) ≤ (imgSection img 3).2)

/-- R194: whether the digest of the sections in order matches. -/
def imgDigestOk (img : List Nat) : Bool :=
  let body := (List.range 4).flatMap (fun k => slice img (imgSection img k).1 (imgSection img k).2)
  decide (Crypto.sha256 body = slice img 0x74 32)

end Sys2Proof.Machine
end

