-- ==== Sys2Proof/Machine/ParamAudio.lean ====
section
/-! DEFINITION. Sys2Proof/Machine/ParamAudio.lean: the parameter fields of strips, busses, patches, output stages and
the matrix (R53, R62 and the tables of spec/02_strips_busses_patch.md and spec/03_mere_matrix.md). -/
namespace Sys2Proof.Machine

/-- A field with one extra legal value beside its range. -/
def fExt (lo hi : Int) (x : List Int) (d : Int) (tr : Tr) : Option Field :=
  some { lo := lo, hi := hi, extra := x, dflt := d, tr := tr }

/-- Default type of an EQ band. -/
def eqTypeD (b : Nat) : Int := if b = 0 then 1 else if b = 5 then 2 else 0
/-- Default frequency of an EQ band, 0.01 Hz. -/
def eqFreqD (b : Nat) : Int := ([8000, 25000, 80000, 250000, 600000, 1200000] : List Int).getD b 0

/-- The EQ fields 0x20 and 0x28…0x54 (strips and busses). -/
def fEq (c : Cap) (f : Nat) : Option Field :=
  if f = 0x20 then fBool 0 .cf
  else if 0x28 ≤ f ∧ f < 0x58 then
    let b := (f - 0x28) / 8
    match (f - 0x28) % 8 with
    | 0 => fBool 1 .cf
    | 1 => fInt 0 3 (eqTypeD b) .cf
    | 2 => fInt 1000 c.fmax100 (eqFreqD b) .cf
    | 3 => fInt (-6144) 6144 0 .cf
    | 4 => fInt 100 20000 707 .cf
    | _ => none
  else none

/-- The compressor fields 0x60…0x6B. -/
def fComp (c : Cap) (f : Nat) : Option Field :=
  match f with
  | 0x60 => fBool 0 .cf
  | 0x61 => fInt (-15360) 0 (-5120) .at
  | 0x62 => fExt 100 10000 [0] 400 .at
  | 0x63 => fInt 20 300000 10000 .at
  | 0x64 => fInt 5000 5000000 100000 .at
  | 0x65 => fInt 0 6144 0 .at
  | 0x66 => fInt 0 6144 0 .zc
  | 0x67 => fBool 0 .dx
  | 0x68 => fBool 0 .at
  | 0x69 => fExt 2000 c.fmax100 [0] 0 .at
  | 0x6A => fExt 2000 c.fmax100 [0] 0 .at
  | 0x6B => fExt 0 (c.strips - 1) [0xFFFF] 0xFFFF .at
  | _ => none

/-- The insert fields 0x70…0x72. -/
def fInsert (c : Cap) (f : Nat) : Option Field :=
  match f with
  | 0x70 => fExt 0 (c.slots - 1) [0xFFFF] 0xFFFF .dx
  | 0x71 => fBool 0 .cf
  | 0x72 => fInt 0 7 0 .at
  | _ => none

/-- Strip parameters (R53). -/
def fStrip (c : Cap) (n f : Nat) : Option Field :=
  if c.strips ≤ n then none else
  match f with
  | 0x00 => fInt (-6144) 6144 0 .zc
  | 0x01 => fBool 0 .zc
  | 0x02 => fInt 0 c.fs 0 .dx
  | 0x03 => fInt 0 15 0 .at
  | 0x04 => fRo
  | 0x08 => fBool 0 .cf
  | 0x09 => fInt 1000 c.fmax100 8000 .cf
  | 0x0A => fInt 1 4 2 .cf
  | 0x0C => fBool 0 .cf
  | 0x0D => fInt 1000 c.fmax100 1800000 .cf
  | 0x0E => fInt 1 4 2 .cf
  | 0x10 => fBool 0 .cf
  | 0x11 => fBool 0 .at
  | 0x12 => fInt (-20480) 0 (-10240) .at
  | 0x13 => fInt 0 20480 10240 .at
  | 0x14 => fInt 100 800 200 .at
  | 0x15 => fInt 20 100000 500 .at
  | 0x16 => fInt 0 2000000 50000 .at
  | 0x17 => fInt 5000 4000000 100000 .at
  | 0x18 => fExt 2000 c.fmax100 [0] 0 .at
  | 0x19 => fExt 2000 c.fmax100 [0] 0 .at
  | 0x1A => fExt 0 (c.strips - 1) [0xFFFF] 0xFFFF .at
  | 0x78 => fInt (-0x80000000) 3072 0 .zc
  | 0x79 => fBool 0 .zc
  | 0x7C => if n % 2 = 1 then fRo else fBool 0 .at
  | 0x7E => fRo
  | 0x7F => fInt 1 15 1 .at
  | _ => (fEq c f).orElse fun _ => (fComp c f).orElse fun _ => fInsert c f

/-- Bus parameters (R62). -/
def fBus (c : Cap) (n f : Nat) : Option Field :=
  if c.busses ≤ n then none else
  match f with
  | 0x00 => fInt (-6144) 6144 0 .zc
  | 0x02 => fInt 0 c.fs 0 .dx
  | 0x03 => fInt 0 15 0 .at
  | 0x04 => fRo
  | 0x67 => fInt 0 0 0 .dx
  | 0x6C => fBool 0 .cf
  | 0x6D => fInt (-5120) 0 (-256) .at
  | 0x6E => fInt 1000 2000000 50000 .at
  | 0x78 => fInt (-0x80000000) 3072 0 .zc
  | 0x79 => fBool 0 .zc
  | 0x7C => if n % 2 = 1 then fRo else fBool 0 .at
  | 0x7D => fBool 1 .at
  | 0x7E => fRo
  | 0x7F => fInt 1 15 1 .at
  | _ => (fEq c f).orElse fun _ => (fComp c f).orElse fun _ => fInsert c f

/-- Input patch entry fields. -/
def fInPatch (c : Cap) (n f : Nat) : Option Field :=
  if c.strips ≤ n then none else
  match f with
  | 0x00 => some { kind := .ref, tr := .patch }
  | 0x01 => some { kind := .ref, tr := .patch }
  | 0x02 => fBool 0 .patch
  | 0x03 => fInt 0 2 0 .at
  | 0x04 => fInt 32 4096 256 .at
  | _ => none

/-- Output patch entry fields. -/
def fOutPatch (c : Cap) (n f : Nat) : Option Field :=
  if 4096 ≤ n then none else
  match f with
  | 0x00 => some { kind := .ref, tr := .patch }
  | 0x01 => fExt 0 (c.busses - 1) [0xFFFF] 0xFFFF .patch
  | 0x02 => fInt 32 4096 256 .at
  | 0x03 => fInt 1 15 1 .at
  | _ => none

/-- Output stage fields. -/
def fOut (n f : Nat) : Option Field :=
  if 4096 ≤ n then none else
  match f with
  | 0x00 => fBool 1 .cf
  | 0x01 => fInt (-5120) 0 (-26) .at
  | 0x02 => fInt 1000 2000000 50000 .at
  | 0x03 => fExt 0 4095 [0xFFFF] 0xFFFF .at
  | 0x04 => fBool 0 .block
  | 0x05 => fInt 0 2 1 .block
  | 0x10 => fRo
  | 0x11 => fRo
  | _ => none

/-- R75: the default source map word of source n. -/
def srcMapDefault (c : Cap) (n : Nat) : Nat :=
  if n < c.strips then 0x01000000 + n
  else if n < c.strips + c.busses then 0x02000000 + (n - c.strips)
  else if n < c.strips + c.busses + 8 * c.slots then 0x03000000 + (n - c.strips - c.busses)
  else 0

/-- R75: the default destination map word of destination n. -/
def dstMapDefault (c : Cap) (n : Nat) : Nat := if n < c.busses ∧ n < c.dests then 0x01000000 + n else 0

/-- Matrix source map fields. -/
def fSrcMap (c : Cap) (n f : Nat) : Option Field :=
  if c.sources ≤ n then none else
  match f with
  | 0x00 => some { kind := .srcMap, dflt := srcMapDefault c n, tr := .mapX }
  | 0x01 => some { kind := .ref, tr := .mapX }
  | _ => none

/-- Matrix destination map fields. -/
def fDstMap (c : Cap) (n f : Nat) : Option Field :=
  if c.dests ≤ n then none else
  match f with
  | 0x00 => some { kind := .dstMap, dflt := dstMapDefault c n, tr := .mapX }
  | _ => none

/-- Matrix parameters (R94). -/
def fMere (n f : Nat) : Option Field :=
  if n ≠ 0 then none else
  match f with
  | 0x00 => fInt 0 2 0 .other
  | 0x01 => fInt 1 65535 1024 .at
  | 0x02 => fInt 16 4096 256 .at
  | 0x03 => fInt 32 4096 256 .at
  | 0x10 => fRo
  | 0x11 => fRo
  | 0x12 => fRo
  | 0x13 => fRo
  | _ => none

end Sys2Proof.Machine
end

