-- ==== Sys2Proof/Machine/ParamPort.lean ====
section
/-! DEFINITION. Sys2Proof/Machine/ParamPort.lean: the parameter fields of the SAP, MADI and HSP classes (R206, R224, the HSP
table). -/
namespace Sys2Proof.Machine

/-- A field whose legal values are listed. -/
def fList (vals : List Int) (d : Int) (tr : Tr) : Option Field :=
  some { lo := 0, hi := -1, extra := vals, dflt := d, tr := tr }

/-- One direction of a SAP. -/
def fSapDir (f : Nat) : Option Field :=
  match f with
  | 0x00 => fBool 0 .other
  | 0x01 => fInt 0 2 0 .other
  | 0x02 => fInt 0 3 0 .other
  | 0x03 => fInt 8000 192000 48000 .other
  | 0x04 => fInt 1 32 8 .other
  | 0x05 => fList [16, 24, 32] 32 .other
  | 0x06 => fList [16, 24, 32] 24 .other
  | 0x07 => fInt 0 3 0 .other
  | 0x08 => fInt 0 8 8 .other
  | 0x09 => fInt 0 0x1F 0x10 .other
  | 0x0A => some { kind := .word, dflt := 0xFF, tr := .other }
  | 0x0B => fExt 0 0x1F [0xFF] 0xFF .other
  | 0x0C => fRo
  | 0x0D => fRo
  | 0x0E => fRo
  | 0x0F => fRo
  | _ => none

/-- SAP parameters. -/
def fSap (n f : Nat) : Option Field :=
  if 16 ≤ n then none
  else if f < 0x10 then fSapDir f
  else if f < 0x20 then fSapDir (f - 0x10)
  else if f = 0x20 then fBool 0 .at
  else if f = 0x21 then fInt 1 15 1 .at
  else none

/-- MADI parameters. -/
def fMadi (n f : Nat) : Option Field :=
  if 8 ≤ n then none else
  match f with
  | 0x00 => fBool 0 .other
  | 0x01 => fInt 0 2 0 .other
  | 0x02 => fInt 1 3 1 .other
  | 0x03 => fInt 0 8 8 .other
  | 0x04 => fList [44100, 48000, 88200, 96000] 48000 .other
  | 0x05 => fRo
  | 0x06 => fRo
  | 0x07 => fRo
  | 0x08 => fRo
  | 0x10 => fBool 0 .other
  | 0x11 => fInt 0 2 0 .other
  | 0x12 => fInt 1 64 64 .other
  | 0x20 => fInt 1 15 1 .at
  | _ => none

/-- HSP parameters. -/
def fHsp (n f : Nat) : Option Field :=
  if n ≠ 0 then none else
  match f with
  | 0x00 => fBool 1 .at
  | 0x01 => fBool 0 .other
  | 0x02 => fInt 0 7 0 .other
  | 0x03 => fInt 0 2 1 .at
  | 0x04 => fBool 1 .at
  | 0x05 => fRo
  | 0x06 => fRo
  | 0x1F => fInt 1 15 1 .at
  | _ => none

end Sys2Proof.Machine
end

