-- ==== Sys2Proof/Machine/ParamNet.lean ====
section
/-! DEFINITION. Sys2Proof/Machine/ParamNet.lean: the fields of classes 0x30…0x36 (R253, R259, R260, the media clock and stream
tables) and the IPv4 rules of R496. -/
namespace Sys2Proof.Machine

/-- NET port fields. The value rules of ip, mask and gateway are R496's (Machine/Check.lean). -/
def fNet (n f : Nat) : Option Field :=
  if 4 ≤ n then none else
  match f with
  | 0x00 => fBool 0 .at
  | 0x01 => fInt 0 2 0 .other
  | 0x02 => some { kind := .word, tr := .other }
  | 0x03 => some { kind := .word, dflt := 0xFFFFFF00, tr := .other }
  | 0x04 => some { kind := .word, tr := .at }
  | 0x05 => fInt 0 4094 0 .other
  | 0x06 => fInt 0 7 5 .at
  | 0x07 => fInt 0 7 6 .at
  | 0x08 => fInt (-100000) 100000 0 .at
  | 0x09 => fInt 2 3 3 .at
  | 0x10 => fRo
  | 0x11 => fRo
  | 0x12 => fRo
  | 0x13 => fRo
  | _ => none

/-- NET global fields. -/
def fNetG (n f : Nat) : Option Field :=
  if n ≠ 0 then none else
  match f with
  | 0x00 => fInt 0 63 46 .at
  | 0x01 => fInt 0 63 34 .at
  | 0x02 => fInt 0 63 0 .at
  | _ => none

/-- PHC timer and capture fields. start_s has a 48-bit range and a parameter value has 32 bits (R108): every word is
legal. -/
def fPhc (n f : Nat) : Option Field :=
  if 16 ≤ n then none else
  match f with
  | 0x00 => fExt 0 0xFE [0xFF] 0xFF .at
  | 0x01 => some { kind := .word, tr := .at }
  | 0x02 => fInt 0 999999999 0 .at
  | 0x03 => fInt 1000 4000000000 1000000000 .at
  | 0x04 => fInt 4 3999999996 100000 .at
  | 0x05 => if n < 8 then none else fInt 0 2 0 .at
  | 0x06 => fInt 1 15 1 .at
  | _ => none

/-- PTP fields. Fields 0x02 and 0x0B…0x0D hold, by default, the values of the profile; the model's defaults are those of
profile 0, and selecting a profile writes the profile's values (Machine/Params.lean). -/
def fPtp (n f : Nat) : Option Field :=
  if n ≠ 0 then none else
  match f with
  | 0x00 => fBool 0 .at
  | 0x01 => fInt 0 2 0 .other
  | 0x02 => fInt 0 127 0 .other
  | 0x03 => fInt 0 2 2 .other
  | 0x04 => fInt 0 255 128 .at
  | 0x05 => fInt 0 255 128 .at
  | 0x06 => fBool 0 .other
  | 0x07 => fInt 0 3 0 .at
  | 0x08 => fExt 0 3 [0xFF] 0xFF .at
  | 0x09 => fInt 0 2 1 .at
  | 0x0A => fInt 10 10000 100 .at
  | 0x0B => fInt (-7) 4 (-3) .other
  | 0x0C => fInt (-7) 4 1 .other
  | 0x0D => fInt (-7) 4 (-3) .other
  | 0x10 => fRo
  | 0x11 => fRo
  | 0x12 => fRo
  | 0x13 => fRo
  | _ => none

/-- The values a PTP profile sets at selection: domain, logSyncInterval, logAnnounceInterval, logMinDelayReqInterval. -/
def ptpProfile (p : Nat) : List Int :=
  if p = 0 then [0, -3, 1, -3] else if p = 1 then [127, -3, -2, -3] else [0, 0, 1, 0]

/-- Media clock fields. -/
def fMcc (n f : Nat) : Option Field :=
  if n ≠ 0 then none else
  match f with
  | 0x00 => fBool 1 .at
  | 0x01 => fRo
  | 0x02 => fRo
  | _ => none

/-- Samples per packet P (ptime code, stream rate). -/
def packetP (code rate : Nat) : Nat :=
  let p := ([6, 12, 16, 48, 192] : List Nat).getD code 0
  if rate = 96000 then 2 * p else p

/-- Receive stream fields. The default of link_offset, 4 × P, stands for P of the default packet (192); a stream's own P is
read through `linkOffset` (Machine/Params.lean). -/
def fRx (n f : Nat) : Option Field :=
  if 256 ≤ n then none else
  match f with
  | 0x00 => fBool 0 .other
  | 0x01 => fBool 1 .other
  | 0x02 => fList [48000, 96000] 48000 .other
  | 0x03 => fInt 1 64 2 .other
  | 0x04 => fInt 0 4 3 .other
  | 0x05 => fInt 96 127 97 .at
  | 0x06 => fInt 10 16384 192 .other
  | 0x07 => fInt 0 100000 1000 .at
  | 0x08 => some { kind := .word, tr := .other }
  | 0x09 => some { kind := .int, lo := 0, hi := 65535, dflt := 5004, tr := .other }
  | 0x0A => some { kind := .word, tr := .other }
  | 0x0B => fList [0, 1, 0xFF] 0xFF .other
  | 0x0C => some { kind := .word, tr := .other }
  | 0x0D => some { kind := .int, lo := 0, hi := 65535, dflt := 5004, tr := .other }
  | 0x0E => some { kind := .word, tr := .other }
  | 0x0F => fList [2, 3, 0xFF] 0xFF .other
  | _ => if 0x10 ≤ f ∧ f ≤ 0x16 then fRo else none

/-- Transmit stream fields. -/
def fTx (n f : Nat) : Option Field :=
  if 256 ≤ n then none else
  match f with
  | 0x00 => fBool 0 .other
  | 0x01 => fBool 1 .other
  | 0x02 => fList [48000, 96000] 48000 .other
  | 0x03 => fInt 1 64 2 .other
  | 0x04 => fInt 0 4 3 .other
  | 0x05 => fInt 96 127 97 .at
  | 0x06 => some { kind := .word, tr := .other }
  | 0x07 => fInt 1 255 16 .at
  | 0x08 => some { kind := .word, tr := .other }
  | 0x09 => some { kind := .int, lo := 0, hi := 65535, dflt := 5004, tr := .other }
  | 0x0A => fList [0, 1, 0xFF] 0xFF .other
  | 0x0B => some { kind := .word, tr := .other }
  | 0x0C => some { kind := .int, lo := 0, hi := 65535, dflt := 5004, tr := .other }
  | 0x0D => fList [2, 3, 0xFF] 0xFF .other
  | 0x10 => fRo
  | _ => none

/-- R496: whether an address lies outside 0/8, 127/8, 224/4 and 240/4. -/
def unicastNet (a : Nat) : Bool :=
  let hi := a / 2 ^ 24
  decide (hi ≠ 0) && decide (hi ≠ 127) && decide (hi < 224)

/-- Whether a mask is contiguous. -/
def maskOk (m : Nat) : Bool :=
  (List.range 33).any (fun n => decide (m = 2 ^ 32 - 2 ^ (32 - n)))

/-- Prefix length of a contiguous mask. -/
def maskLen (m : Nat) : Nat := (List.range 32).countP (fun i => Fmt.bit m i)

/-- R496: whether an address is neither its subnet's network address nor its broadcast address, a rule for masks shorter than
/31. -/
def hostOk (a m : Nat) : Bool :=
  if 31 ≤ maskLen m then true
  else
    let host := a % 2 ^ (32 - maskLen m)
    decide (host ≠ 0) && decide (host ≠ 2 ^ (32 - maskLen m) - 1)

/-- Whether two addresses share a subnet. -/
def sameNet (a b m : Nat) : Bool := decide (a / 2 ^ (32 - maskLen m) = b / 2 ^ (32 - maskLen m))

end Sys2Proof.Machine
end

