-- ==== Sys2Proof/Machine/ParamClk.lean ====
section
/-! DEFINITION. Sys2Proof/Machine/ParamClk.lean: the fields of classes 0x40…0x42 (R279, the CKU and clock output tables), 0x50
(device: R323, R417, R449), 0x51 (partition) and 0x60 (R471). -/
namespace Sys2Proof.Machine

/-- Default bandwidth code of a slot (R278). -/
def refBwD (k : Nat) : Int := ([4, 4, 2, 1, 1, 4, 4, 4] : List Int).getD k 0
/-- Largest bandwidth code of a slot (R278). -/
def refBwMax (k : Nat) : Int := ([6, 6, 3, 6, 2, 6, 6, 6] : List Int).getD k 0

/-- Reference slot fields. -/
def fRef (n f : Nat) : Option Field :=
  if 8 ≤ n then none else
  match f with
  | 0x00 => fBool 0 .at
  | 0x01 => fInt 0 7 7 .at
  | 0x02 => if n < 2 then fInt 0 3 0 .other else if n = 2 then fInt 0 7 0 .other else fRo
  | 0x03 => if n = 7 then fInt 0 15 0 .other else none
  | 0x04 => if n < 4 then fBool 0 .other else none
  | 0x05 => fInt 1 1000 25 .at
  | 0x06 => fInt 1 1000 50 .at
  | 0x07 => fInt 10 60000 2000 .at
  | 0x08 => fInt 10 100000 500 .at
  | 0x09 => fInt 0 (refBwMax n) (refBwD n) .at
  | 0x10 => fRo
  | 0x11 => fRo
  | 0x12 => fRo
  | 0x13 => fRo
  | _ => none

/-- CKU fields. -/
def fCku (n f : Nat) : Option Field :=
  if n ≠ 0 then none else
  match f with
  | 0x00 => fInt 0 2 0 .other
  | 0x01 => fBool 1 .other
  | 0x02 => fInt 100 100000 10000 .at
  | 0x03 => fInt 1 3600 60 .at
  | 0x04 => fExt 0 604800 [0xFFFFFFFF] 3600 .at
  | 0x05 => fInt (-500000000) 500000000 0 .other
  | 0x06 => fInt 10 1000000 10000 .at
  | 0x07 => fInt 10 10000 200 .at
  | 0x08 => fInt 10 86400 1000 .at
  | _ => if 0x10 ≤ f ∧ f ≤ 0x16 then fRo else none

/-- Clock output fields; instance 0 is AMCLK_OUT. -/
def fClkOut (n f : Nat) : Option Field :=
  if 5 ≤ n then none else
  match f with
  | 0x00 => if n = 0 then fBool 1 .other else fInt 0 7 1 .other
  | 0x01 => fInt 0 1023 0 .other
  | 0x02 => fBool 0 .at
  | _ => none

/-- Device fields: family and profile (R323), power domains (R417), twin fields (R449). -/
def fDev (n f : Nat) : Option Field :=
  if n ≠ 0 then none else
  match f with
  | 0x00 => fInt 0 1 0 .other
  | 0x01 => fInt 0 2 0 .other
  | 0x18 => fRo
  | 0x20 => fInt 100 60000 2000 .at
  | 0x21 => fInt 10 3600 60 .at
  | 0x22 => some { kind := .word, tr := .at }
  | 0x23 => fBool 1 .at
  | _ =>
    if 0x10 ≤ f ∧ f ≤ 0x17 then fBool 1 .other
    else if 0x28 ≤ f ∧ f ≤ 0x2D then fRo
    else none

/-- Partition fields. -/
def fPart (n f : Nat) : Option Field :=
  if 1 ≤ n ∧ n ≤ 15 ∧ f = 0 then fInt 1 256 32 .at else none

/-- Legacy bridge fields (R471). The number of legacy busses is 32 at base rate and 16 at double rate. -/
def fLeg (c : Cap) (n f : Nat) : Option Field :=
  if f = 0x00 then (if n = 0 then fBool 0 .other else none)
  else if f = 0x01 ∨ f = 0x02 then (if n = 0 then fRo else none)
  else if f = 0x10 then
    (if n < 8 then fExt 0 (if c.prof = 0 then 31 else 15) [0xFF] 0xFF .patch else none)
  else if f = 0x80 then (if n < 0x8000 then fRo else none)
  else none

end Sys2Proof.Machine
end

