-- ==== Sys2Proof/Machine/ParamConv.lean ====
section
/-! DEFINITION. Sys2Proof/Machine/ParamConv.lean: the fields of the SRC channel, decimator channel and decimator global
classes (R241, R243). -/
namespace Sys2Proof.Machine

/-- SRC channel fields, all read-only. -/
def fSrc (c : Cap) (n f : Nat) : Option Field := if n < c.srcCh ∧ f ≤ 5 then fRo else none

/-- Decimator channel fields. `in` names port and slot, or none. -/
def fDec (n f : Nat) : Option Field :=
  if 64 ≤ n then none else
  match f with
  | 0x00 => some { kind := .int, lo := 0, hi := 0xFFFF, dflt := 0xFFFF, tr := .other }
  | 0x01 => fBool 0 .zc
  | 0x02 => fBool 0 .zc
  | 0x03 => fBool 1 .cf
  | 0x04 => fInt 50 2000 200 .at
  | 0x05 => fBool 0 .at
  | 0x06 => fRo
  | 0x07 => fInt 1 15 1 .at
  | _ => none

/-- Decimator global fields. -/
def fDecG (n f : Nat) : Option Field :=
  if n ≠ 0 then none else
  match f with
  | 0x00 => fInt 0 2 0 .at
  | 0x01 => fInt 1 255 8 .at
  | 0x02 => fInt 0 65535 256 .at
  | 0x03 => fRo
  | _ => none

end Sys2Proof.Machine
end

