-- ==== Sys2Proof/Machine/ParamSpring.lean ====
section
/-! DEFINITION. Sys2Proof/Machine/ParamSpring.lean: the parameter fields of the spring classes 0x10…0x13 (R146). -/
namespace Sys2Proof.Machine

/-- Spring mix parameters. -/
def fSpringMix (n f : Nat) : Option Field :=
  if 16 ≤ n then none else
  match f with
  | 0x00 => some { kind := .word, tr := .other }
  | 0x01 => some { kind := .word, tr := .other }
  | 0x02 => some { kind := .word, tr := .other }
  | 0x03 => some { kind := .word, tr := .other }
  | 0x08 => fInt (-0x80000000) 3072 0 .zc
  | 0x09 => fBool 0 .zc
  | 0x0A => fBool 1 .cf
  | 0x0B => fInt (-5120) 0 (-26) .at
  | 0x0C => fInt 1000 2000000 50000 .at
  | 0x0D => fBool 1 .at
  | 0x0E => fBool 0 .at
  | 0x10 => fRo
  | 0x1F => fInt 1 15 1 .at
  | _ => none

/-- Spring source entry parameters; instance m × 64 + i. The gain is a G32 word other than 0x8000_0000 (R82). -/
def fSpringSrc (n f : Nat) : Option Field :=
  if 1024 ≤ n then none else
  match f with
  | 0x00 => some { kind := .word, tr := .other }
  | 0x01 => fInt (-0x7FFFFFFF) 0x7FFFFFFF 0 .zc
  | 0x02 => fRo
  | _ => none

/-- Spring interpolator parameters. -/
def fSpringInterp (c : Cap) (n f : Nat) : Option Field :=
  if 32 ≤ n then none else
  match f with
  | 0x00 => fExt 0 (c.busses - 1) [0xFFFF] 0xFFFF .patch
  | 0x01 => fInt 32 4096 256 .at
  | _ => none

/-- Spring globals. -/
def fSpringGlobal (n f : Nat) : Option Field :=
  if n ≠ 0 then none else
  match f with
  | 0x00 => fInt 1 65535 8192 .at
  | 0x01 => fInt 16 4096 2048 .at
  | 0x10 => fRo
  | 0x11 => fRo
  | _ => none

end Sys2Proof.Machine
end

