-- ==== Sys2Proof/Machine/Params.lean ====
section
/-! DEFINITION. Sys2Proof/Machine/Params.lean: the committed parameters (R10–R12, R120, R322, R323). -/
namespace Sys2Proof.Machine

open Fmt

/-- The word of a handle as listed, or a default where it is not listed. -/
def State.word (s : State) (h d : Nat) : Nat := (Cells.get none s.params h).getD d

/-- dev.family in force. -/
def State.fam (s : State) : Nat := s.word 0x50000000 0
/-- dev.profile in force. -/
def State.prof (s : State) : Nat := s.word 0x50000001 0
/-- mere.shape in force. -/
def State.shape (s : State) : Nat := s.word 0x0A000000 0
/-- What the committed configuration is judged against. -/
def State.cap (s : State) : Cap := { fam := s.fam, prof := s.prof, shape := s.shape, mode := s.power.straps.mode }
/-- Engine rate in force. -/
def State.fs (s : State) : Nat := s.cap.fs
/-- Block size in force. -/
def State.B (s : State) : Nat := s.cap.B

/-- A loaded module by id and version. -/
def State.modImage (s : State) (id ver : Nat) : Option (List Nat) :=
  (s.tarn.modules.find? (fun m => m.id = id && m.version = ver)).map (·.image)

/-- Module id and version committed to a slot. -/
def State.slotMod (s : State) (n : Nat) : Nat × Nat := (s.word (mkH 0x0B n 0xF0) 0, s.word (mkH 0x0B n 0xF1) 0)

/-- The image a slot carries. -/
def State.slotImage (s : State) (n : Nat) : Option (List Nat) :=
  let m := s.slotMod n
  if m.1 = 0 then none else s.modImage m.1 m.2

/-- Effect slot fields: the runtime fields of R323 and the parameters of the module the slot carries (R195). -/
def fSlot (c : Cap) (img : Nat → Option (List Nat)) (n f : Nat) : Option Field :=
  if c.slots ≤ n then none else
  match f with
  | 0xF0 => some { kind := .word, tr := .other }
  | 0xF1 => some { kind := .word, tr := .other }
  | 0xF2 => fRo
  | 0xF3 => fInt 1 15 1 .at
  | _ => (img n).bind (fun i => ((imgParams i).find? (fun d => d.field = f)).map PDesc.toField)

/-- A node gain (R82) and a spring source gain (R146) take every staged word as G32: the spec gives no bit that would tell a dB code from it
(log entry 156, DESIGN CHOICE). R12: the field a handle names, none where the class, the instance or node, or the field does not exist. -/
def fieldOf (c : Cap) (img : Nat → Option (List Nat)) (h : Nat) : Option Field :=
  let n := hInst h
  let f := hField h
  match hCls h with
  | 0x01 => fStrip c n f
  | 0x02 => fBus c n f
  | 0x03 => if hDest h < c.dests ∧ hSrc h < c.sources then fInt (-0x7FFFFFFF) 0x7FFFFFFF 0 .zc else none
  | 0x04 => if hDest h < c.dests ∧ hSrc h < c.sources then fInt 0 3 2 .zc else none
  | 0x05 => fInPatch c n f
  | 0x06 => fOutPatch c n f
  | 0x07 => fOut n f
  | 0x08 => fSrcMap c n f
  | 0x09 => fDstMap c n f
  | 0x0A => fMere n f
  | 0x0B => fSlot c img n f
  | 0x10 => fSpringMix n f
  | 0x11 => fSpringSrc n f
  | 0x12 => fSpringInterp c n f
  | 0x13 => fSpringGlobal n f
  | 0x20 => fSap n f
  | 0x21 => fMadi n f
  | 0x22 => fHsp n f
  | 0x23 => fSrc c n f
  | 0x24 => fDec n f
  | 0x25 => fDecG n f
  | 0x30 => fNet n f
  | 0x31 => fNetG n f
  | 0x32 => fPhc n f
  | 0x33 => fPtp n f
  | 0x34 => fMcc n f
  | 0x35 => fRx n f
  | 0x36 => fTx n f
  | 0x40 => fRef n f
  | 0x41 => fCku n f
  | 0x42 => fClkOut n f
  | 0x50 => fDev n f
  | 0x51 => fPart n f
  | 0x60 => fLeg c n f
  | _ => none

/-- The field a handle names in the configuration in force. -/
def State.field (s : State) (h : Nat) : Option Field := fieldOf s.cap s.slotImage h

/-- The committed word of a handle (R322). Node gains and taps are the targets of the committed image (R83). -/
def State.val (s : State) (h : Nat) : Nat :=
  if hCls h = 3 then wrapU 32 (Cells.get (0, 2) s.mere.image (h % 2 ^ 24)).1
  else if hCls h = 4 then (Cells.get (0, 2) s.mere.image (h % 2 ^ 24)).2
  else s.word h ((s.field h).elim 0 Field.dfltWord)

/-- The committed word of a field of an object. -/
def State.at (s : State) (cls n f : Nat) : Nat := s.val (mkH cls n f)
/-- The same as a signed number. -/
def State.sat (s : State) (cls n f : Nat) : Int := toS 32 (s.at cls n f)
/-- A field that holds 0 or 1. -/
def State.on (s : State) (cls n f : Nat) : Bool := decide (s.at cls n f = 1)

/-- One committed word written; a word that equals the field's default is not listed. The default of rx[s].link_offset depends on other
fields (R265), so that every word of it is. -/
def State.setVal (s : State) (h w : Nat) : State :=
  let d := (s.field h).elim 0 Field.dfltWord
  let follows := decide (hCls h = 0x35) && decide (hField h = 6)
  { s with params := Cells.put none s.params h (if w = d ∧ ¬ follows then none else some w) }

/-- The word of a handle in force on the sample stamped n, while commits of later samples are on their way through the stages
(R95, R123). -/
def State.valAt (s : State) (h n : Nat) : Nat :=
  match s.audio.changes.find? (fun c => c.h = h && n < c.c) with
  | some c => c.old
  | none => s.val h

/-- The port part of a port channel reference: type and port or stream. -/
def refOwner (r : Nat) : Nat := if refType r = 4 then 0x04000000 + refStream r else r / 2 ^ 16

/-- R120: the partition of a slot. -/
def State.slotOwner (s : State) (n : Nat) : Nat := s.at 0x0B n 0xF3
/-- R120: the partition of a strip. -/
def State.stripOwner (s : State) (n : Nat) : Nat := s.at 0x01 n 0x7F
/-- R120: the partition of a bus. -/
def State.busOwner (s : State) (n : Nat) : Nat := s.at 0x02 n 0x7F

/-- R453: whether legacy channels and busses occupy the corner of the Mere. -/
def Cap.legacy (c : Cap) : Bool := decide (c.mode = 1) || decide (c.mode = 2)
/-- R453: whether a source lies in the legacy corner. -/
def Cap.cornerSrc (c : Cap) (n : Nat) : Bool := c.legacy && decide (c.sources ≤ n + 64)
/-- R453: whether a destination lies in the legacy corner. -/
def Cap.cornerDst (c : Cap) (d : Nat) : Bool := c.legacy && decide (c.dests ≤ d + 32)

/-- R453, R75: the default map words leave the corner to the legacy channels (kind 5) and busses (kind 3). -/
def cornerSrcWord (c : Cap) (n w : Nat) : Nat := if c.cornerSrc n then 0x05000000 + (n + 64 - c.sources) else w
/-- The destination map likewise. -/
def cornerDstWord (c : Cap) (d w : Nat) : Nat := if c.cornerDst d then 0x03000000 + (d + 32 - c.dests) else w

/-- The source map word of a source, corner included. -/
def State.srcMap (s : State) (n : Nat) : Nat := cornerSrcWord s.cap n (s.at 0x08 n 0)
/-- The destination map word of a destination, corner included. -/
def State.dstMap (s : State) (d : Nat) : Nat := cornerDstWord s.cap d (s.at 0x09 d 0)

/-- R120: the partition of a destination: of the bus or slot input its map entry feeds, 0 when the kind is none, 15 in the
legacy corner. -/
def State.destOwner (s : State) (w : Nat) : Nat :=
  match w / 2 ^ 24 with
  | 1 => s.busOwner (w % 65536)
  | 2 => s.slotOwner (w % 65536 / 8)
  | 3 => 15
  | _ => 0

/-- R120: the partition of the object a handle writes. -/
def State.ownerOf (s : State) (h : Nat) : Nat :=
  let n := hInst h
  match hCls h with
  | 0x01 => if hField h = 0x7F then 0 else s.stripOwner n
  | 0x02 => if hField h = 0x7F then 0 else s.busOwner n
  | 0x03 => if s.cap.cornerSrc (hSrc h) then 15 else s.destOwner (s.dstMap (hDest h))
  | 0x04 => if s.cap.cornerSrc (hSrc h) then 15 else s.destOwner (s.dstMap (hDest h))
  | 0x05 => s.stripOwner n
  | 0x06 => if hField h = 0x03 then 0 else s.at 0x06 n 3
  | 0x07 => s.at 0x06 n 3
  | 0x08 => if s.cap.cornerSrc n then 15 else 0
  | 0x09 => s.destOwner (s.dstMap n)
  | 0x0B => if hField h = 0xF3 then 0 else s.slotOwner n
  | 0x10 => if hField h = 0x1F then 0 else s.at 0x10 n 0x1F
  | 0x11 => s.at 0x10 (n / 64) 0x1F
  | 0x20 => if s.cap.legacy ∧ n < 4 then 15 else if hField h = 0x21 then 0 else s.at 0x20 n 0x21
  | 0x21 => if hField h = 0x20 then 0 else s.at 0x21 n 0x20
  | 0x22 => if hField h = 0x1F then 0 else s.at 0x22 n 0x1F
  | 0x24 => if hField h = 0x07 then 0 else s.at 0x24 n 0x07
  | 0x51 => n
  | _ => 0

/-- The default link offset of a receive stream: 4 × P (receive stream table). -/
def State.linkOffset (s : State) (n : Nat) : Nat :=
  (Cells.get none s.params (mkH 0x35 n 6)).getD (4 * packetP (s.at 0x35 n 4) (s.at 0x35 n 2))

/-- R74, R81: whether a destination and a source lie in the shape in force. -/
def State.nodeIn (s : State) (d src : Nat) : Bool := decide (d < s.cap.dests) && decide (src < s.cap.sources)

end Sys2Proof.Machine
end

