-- ==== Sys2Proof/Machine/Event.lean ====
section
/-! DEFINITION. Sys2Proof/Machine/Event.lean: raising an event (R327–R334). -/
namespace Sys2Proof.Machine

open Fmt

/-! ### Event ids (R327) -/

/-- Event ids by name. -/
inductive Ev where
  | sessionOpen | sessionClose | authFail | partitionOwner | queueOverflow | mbxReply
  | commitScheduled | commitApplied | commitCancelled | checkDone | cueFired | cueUnaligned | sceneSaved | planeReady
  | patchFailover | patchBothLost | xfadeSuperseded
  | mereRecompute | mereLaneRetired | mereSpareExhausted | mereUncorrected | nodeCorrected | nodeRestored
  | tarnBounds | tarnDmaCollide | tarnIllegal | tarnTaskFailed | moduleUnsigned | tarnRecompute | tarnRetired
  | tarnSpareExhausted | tarnUncorrected
  | springSlip | springRecompute | springUnitRetired | springSpareExhausted | springUncorrected
  | sapLoss | sapResume | sapRate | sapSlip | sapLayout | sapOriginLost | hspPlug | hspUnplug | hspButton
  | madiLoss | madiResume | madiRate | madiMode | srcLock | srcUnlock | decsync | decsyncIgnored
  | netLink | streamLoss | streamResume | streamDiff | streamLeg
  | ptpLock | ptpUnlock | phcTimer | phcCapture | mccAligned | mccUnaligned
  | refLost | refQualified | refMarginal | refDisqualified | refDrift | refSwitch | refDisagree
  | ckuLock | ckuUnlock | ckuHoldover | ckuGlide | ckuFreerun | ckuCal
  | xrst | cdcTimeout | decodeError | lockForced | poolParity | dramCorrected | dramUncorrected | mstoreCorrected
  | ccRollback | ccRestart | throttle | throttleEnd | maintStart | maintEnd | maintAborted | pdSwitch | tempWarn
  | twinRole | twinDigest | twinHb | twinInstep | twinFenced
  | deviceState | bootSlot | tamper | sbWiped | lifecycle | credProvisioned | fwStaged
  | legacyLoad | legacySpi | bridge
  deriving DecidableEq, Repr

/-- The number of an event. -/
def Ev.id : Ev → Nat
  | .sessionOpen => 0x00 | .sessionClose => 0x01 | .authFail => 0x02 | .partitionOwner => 0x03
  | .queueOverflow => 0x04 | .mbxReply => 0x05
  | .commitScheduled => 0x10 | .commitApplied => 0x11 | .commitCancelled => 0x12 | .checkDone => 0x13
  | .cueFired => 0x14 | .cueUnaligned => 0x15 | .sceneSaved => 0x16 | .planeReady => 0x17
  | .patchFailover => 0x20 | .patchBothLost => 0x21 | .xfadeSuperseded => 0x22
  | .mereRecompute => 0x30 | .mereLaneRetired => 0x31 | .mereSpareExhausted => 0x32 | .mereUncorrected => 0x33
  | .nodeCorrected => 0x34 | .nodeRestored => 0x35
  | .tarnBounds => 0x40 | .tarnDmaCollide => 0x41 | .tarnIllegal => 0x42 | .tarnTaskFailed => 0x43
  | .moduleUnsigned => 0x44 | .tarnRecompute => 0x45 | .tarnRetired => 0x46 | .tarnSpareExhausted => 0x47
  | .tarnUncorrected => 0x48
  | .springSlip => 0x50 | .springRecompute => 0x51 | .springUnitRetired => 0x52 | .springSpareExhausted => 0x53
  | .springUncorrected => 0x54
  | .sapLoss => 0x60 | .sapResume => 0x61 | .sapRate => 0x62 | .sapSlip => 0x63 | .sapLayout => 0x64
  | .sapOriginLost => 0x65 | .hspPlug => 0x68 | .hspUnplug => 0x69 | .hspButton => 0x6A
  | .madiLoss => 0x70 | .madiResume => 0x71 | .madiRate => 0x72 | .madiMode => 0x73
  | .srcLock => 0x78 | .srcUnlock => 0x79 | .decsync => 0x7C | .decsyncIgnored => 0x7D
  | .netLink => 0x80 | .streamLoss => 0x81 | .streamResume => 0x82 | .streamDiff => 0x83 | .streamLeg => 0x84
  | .ptpLock => 0x90 | .ptpUnlock => 0x91 | .phcTimer => 0x92 | .phcCapture => 0x93
  | .mccAligned => 0x94 | .mccUnaligned => 0x95
  | .refLost => 0xA0 | .refQualified => 0xA1 | .refMarginal => 0xA2 | .refDisqualified => 0xA3 | .refDrift => 0xA4
  | .refSwitch => 0xA5 | .refDisagree => 0xA6
  | .ckuLock => 0xA8 | .ckuUnlock => 0xA9 | .ckuHoldover => 0xAA | .ckuGlide => 0xAB | .ckuFreerun => 0xAC
  | .ckuCal => 0xAD
  | .xrst => 0xB0 | .cdcTimeout => 0xB1 | .decodeError => 0xB2 | .lockForced => 0xB3 | .poolParity => 0xB4
  | .dramCorrected => 0xB5 | .dramUncorrected => 0xB6 | .mstoreCorrected => 0xB7
  | .ccRollback => 0xC0 | .ccRestart => 0xC1 | .throttle => 0xC2 | .throttleEnd => 0xC3 | .maintStart => 0xC4
  | .maintEnd => 0xC5 | .maintAborted => 0xC6 | .pdSwitch => 0xC7 | .tempWarn => 0xC8
  | .twinRole => 0xD0 | .twinDigest => 0xD1 | .twinHb => 0xD2 | .twinInstep => 0xD3 | .twinFenced => 0xD4
  | .deviceState => 0xE0 | .bootSlot => 0xE1 | .tamper => 0xE2 | .sbWiped => 0xE3 | .lifecycle => 0xE4
  | .credProvisioned => 0xE5 | .fwStaged => 0xE6
  | .legacyLoad => 0xF0 | .legacySpi => 0xF1 | .bridge => 0xF2

/-! ### Interrupt pins (R334) -/

/-- Map entry of an event id: bit 3 enables, bits [2:0] name a pin. -/
def EvG.mapOf (e : EvG) (id : Nat) : Nat := Cells.get 0 e.irqMap id

/-- R334: the condition of pin n. In the legacy modes entries that name pin 0 have no effect. -/
def EvG.pin (e : EvG) (legacy : Bool) (n : Nat) : Bool :=
  !(legacy && decide (n = 0)) &&
    (List.range 256).any (fun id => bit e.stat id && bit (e.mapOf id) 3 && decide (e.mapOf id % 8 = n))

/-- R334: the vectors to send when pin conditions change from clear to set. -/
def EvG.rises (old new : EvG) (legacy : Bool) : List Nat :=
  if new.msiEn then (List.range 8).filter (fun n => !old.pin legacy n && new.pin legacy n) else []

/-- MSI vectors kept: the last 32 sent (the model's own record). -/
def msiKept (l : List Nat) : List Nat := l.drop (l.length - 32)

/-- Replace the event registers, sending the MSI vectors of the pins that rise (R334). -/
def State.setEv (s : State) (f : EvG → EvG) : State :=
  let e := f s.ev
  { s with ev := { e with msi := msiKept (s.ev.msi ++ EvG.rises s.ev e s.cap.legacy) } }

/-! ### Session queues (R331–R333) -/

/-- R316, R331: whether a session receives occurrences of a partition. -/
def Session.receives (x : Session) (part : Nat) : Bool :=
  decide (x.role = 0) || decide (part = 0) || bit x.mask part

/-- A record of a new occurrence with the session's next sequence number. -/
def Session.newRec (x : Session) (id count part : Nat) (detail : Bool) (mcc arg : Nat) : QRec :=
  { seq := x.nextEv, id := id, count := count, part := part, detail := detail, mcc := mcc, arg := arg,
    delivered := false, pushed := none }

/-- R332: whether a record is the overflow record of the last slot, not delivered yet: the newest of its queue. -/
def Session.isOverflow (x : Session) (q : QRec) : Bool :=
  !q.delivered && decide (q.id = Ev.queueOverflow.id) && decide (q.seq + 1 = x.nextEv)

/-- R332: one more dropped occurrence in the overflow record of the last slot. -/
def bumpOverflow (q : QRec) : QRec :=
  { q with count := Min.min 255 (q.count + 1), arg := satInc q.arg 1 }

/-- R332: an occurrence enters a session's queue. -/
def Session.enqueue (x : Session) (id part : Nat) (detail : Bool) (mcc arg : Nat) : Session :=
  if x.queue.any (fun q => !q.delivered && q.id = id && decide (q.arg % 65536 = arg % 65536)) then
    { x with queue := x.queue.map (fun q =>
        if !q.delivered && q.id = id && decide (q.arg % 65536 = arg % 65536) then
          { q with count := Min.min 255 (q.count + 1), arg := arg, detail := detail }
        else q) }
  else if x.full then
    { x with queue := x.queue.map (fun q => if x.isOverflow q then bumpOverflow q else q) }
  else if x.queue.length < 1023 then
    { x with queue := x.queue ++ [x.newRec id 1 part detail mcc arg], nextEv := x.nextEv + 1 }
  else if x.queue.length = 1023 then
    { x with queue := x.queue ++ [x.newRec Ev.queueOverflow.id 1 0 false mcc 1], nextEv := x.nextEv + 1, full := true }
  else { x with lost := x.lost + 1 }

/-- R332: after records have left the queue, the drops counted since the overflow record was delivered take a fresh overflow
record. -/
def Session.refill (x : Session) (mcc : Nat) : Session :=
  let x := if x.queue.any x.isOverflow then x else { x with full := false }
  if x.lost ≠ 0 ∧ x.queue.length < 1024 then
    { x with
      queue := x.queue ++ [x.newRec Ev.queueOverflow.id (Min.min 255 x.lost) 0 false mcc (Min.min 0xFFFFFFFF x.lost)]
      nextEv := x.nextEv + 1
      full := decide (x.queue.length = 1023)
      lost := 0 }
  else x

/-- R331: an occurrence enters the queue of every session whose mask has its bit and that receives its partition. `only` restricts
it to the sessions a rule names. -/
def offer (only : Session → Bool) (id part : Nat) (detail : Bool) (mcc arg : Nat) (l : List Session) : List Session :=
  l.map (fun x => if only x && bit x.evMask id && x.receives part then x.enqueue id part detail mcc arg else x)

/-! ### Raising -/

/-- R330: the 16 words of a detail entry. -/
def detailWords (id mcc : Nat) (content : List Nat) : List Nat :=
  let w := [id * 2 ^ 24 + content.length, mcc / 2 ^ 32 % 2 ^ 32, mcc % 2 ^ 32] ++ content.map (· % 2 ^ 32)
  w ++ List.replicate (16 - w.length) 0

/-- A 64-bit item of content: two words, high word first (R330). -/
def two (x : Nat) : List Nat := [x / 2 ^ 32 % 2 ^ 32, x % 2 ^ 32]
/-- A signed 32-bit item of content. -/
def one (x : Int) : Nat := wrapU 32 x

/-- An occurrence: EV_STAT, the detail ring, the session queues `only` names, the interrupt pins (R328–R334). `val` is the cause or
value code; `content` is what a detail entry holds, none where arg holds everything. -/
def State.raiseTo (s : State) (only : Session → Bool) (ev : Ev) (part obj val : Nat) (content : Option (List Nat)) :
    State :=
  let id := ev.id
  let di := s.ev.detNext
  let hi := match content with
    | some _ => di
    | none => val % 65536
  let arg := hi * 65536 + obj % 65536
  let s1 := s.setEv (fun e =>
    let e := { e with stat := setBit e.stat id true }
    match content with
    | some c => { e with
        detail := Cells.put (65536, []) e.detail (di % 256) (di, detailWords id s.mcc c)
        detNext := (di + 1) % 65536 }
    | none => e)
  let before := s1.vcp.sessions
  let after := offer only id part content.isSome s.mcc arg before
  let s2 := { s1 with vcp := { s1.vcp with sessions := after } }
  -- a new overflow record is an occurrence of EV_QUEUE_OVERFLOW (R334)
  if (after.map (·.full)) ≠ (before.map (·.full)) then
    s2.setEv (fun e => { e with stat := setBit e.stat Ev.queueOverflow.id true })
  else s2

/-- An occurrence that every session whose mask and partitions admit it receives. -/
def State.raise (s : State) (ev : Ev) (part obj val : Nat) : State := s.raiseTo (fun _ => true) ev part obj val none

/-- An occurrence with a detail entry. -/
def State.raiseD (s : State) (ev : Ev) (part obj : Nat) (content : List Nat) : State :=
  s.raiseTo (fun _ => true) ev part obj 0 (some content)

/-- Several occurrences of one kind, in order: partition, object and value of each. -/
def State.raises (s : State) (ev : Ev) (l : List (Nat × Nat × Nat)) : State :=
  l.foldl (fun s x => s.raise ev x.1 x.2.1 x.2.2) s

end Sys2Proof.Machine
end

