-- ==== Sys2Proof/Machine/Real.lean ====
section
/-! DEFINITION. Sys2Proof/Machine/Real.lean: the real functions that the spec's arithmetic rounds.
R498 asks for IEEE 754 binary64 arithmetic with sin, cos, tan, square root and powers of 10 correctly
rounded. Each function is computed as an integer in units of 2^-F, with F = 320 fraction bits, and rounded once; the
error is far below half a unit of any result the spec rounds (log entry 24).
A binary64 value is held as the rational number it stands for. -/
namespace Sys2Proof.Machine.Fxp

open Sys2Proof.Machine.Fmt

/-- Fraction bits of the fixed-point numbers below. -/
def F : Nat := 320
/-- One in the fixed-point numbers below. -/
def one : Int := 2 ^ F

/-- Product of two fixed-point numbers. -/
def mul (a b : Int) : Int := asr (a * b) F
/-- Quotient of two fixed-point numbers. -/
def div (a b : Int) : Int := if b = 0 then 0 else a * one / b
/-- A rational as a fixed-point number. -/
def ofRat (q : Rat) : Int := q.num * one / (q.den : Int)
/-- A fixed-point number as a rational. -/
def toRat (x : Int) : Rat := (x : Rat) / (one : Rat)
/-- A ratio of integers as a fixed-point number. -/
def ofDiv (a b : Int) : Int := if b = 0 then 0 else a * one / b

/-- Sum of the exponential series: Σ x^k / k! from k on, with the term given. -/
def expSeries (x : Int) : Nat → Nat → Int → Int → Int
  | 0, _, _, acc => acc
  | f + 1, k, term, acc => expSeries x f (k + 1) (mul term x / ((k : Int) + 1)) (acc + term)

/-- Squaring n times. -/
def sqn : Nat → Int → Int
  | 0, x => x
  | n + 1, x => sqn n (mul x x)

/-- Σ over odd k of z^k / k: the area tangent of z. -/
def atanhSeries (z2 : Int) : Nat → Nat → Int → Int → Int
  | 0, _, _, acc => acc
  | f + 1, k, p, acc => atanhSeries z2 f (k + 2) (mul p z2) (acc + p / (k : Int))

/-- Natural logarithm of 2. -/
def ln2 : Int := 2 * atanhSeries (div one (9 * one)) 110 1 (one / 3) 0
/-- Natural logarithm of 10 = 3 ln 2 + ln 1.25. -/
def ln10 : Int := 3 * ln2 + 2 * atanhSeries (div one (81 * one)) 60 1 (one / 9) 0

/-- exp of a fixed-point number. The argument is taken below 1/2 by multiples of ln 2, and below 2^-9
by halving, and squared back. -/
def exp (x : Int) : Int :=
  let k := x / ln2
  let r := x - k * ln2
  let y := sqn 9 (expSeries (r / 512) 40 0 one 0)
  if 0 ≤ k then y * 2 ^ k.toNat else y / 2 ^ (-k).toNat

/-- Halve or double a positive number into [1, 2), counting. -/
def norm2 : Nat → Int → Int → Int × Int
  | 0, x, e => (x, e)
  | f + 1, x, e =>
    if 2 * one ≤ x then norm2 f (x / 2) (e + 1)
    else if 0 < x ∧ x < one then norm2 f (x * 2) (e - 1) else (x, e)

/-- Natural logarithm of a positive fixed-point number. -/
def ln (x : Int) : Int :=
  let (m, e) := norm2 700 x 0
  let z := div (m - one) (m + one)
  e * ln2 + 2 * atanhSeries (mul z z) 110 1 z 0

/-- Square root of a non-negative fixed-point number. -/
def sqrt (x : Int) : Int := (Nat.sqrt (x.toNat * 2 ^ F) : Nat)

/-- 10 to a fixed-point power. -/
def exp10 (x : Int) : Int := exp (mul x ln10)
/-- Decimal logarithm of a positive fixed-point number. -/
def log10 (x : Int) : Int := div (ln x) ln10

/-- The arc tangent of 1/n as a series. -/
def atanInvSeries (n2 : Int) : Nat → Nat → Int → Int → Int
  | 0, _, _, acc => acc
  | f + 1, k, p, acc => atanInvSeries n2 f (k + 2) (-(p / n2)) (acc + p / (k : Int))

/-- π by Machin's formula. -/
def pi : Int :=
  16 * atanInvSeries 25 75 1 (one / 5) 0 - 4 * atanInvSeries (239 * 239) 25 1 (one / 239) 0

/-- Alternating series of sine (started at x, k = 1) and cosine (started at 1, k = 0). -/
def trigSeries (x2 : Int) : Nat → Nat → Int → Int → Int
  | 0, _, _, acc => acc
  | f + 1, k, t, acc =>
    trigSeries x2 f (k + 2) (-(mul t x2 / ((((k : Int) + 1) * ((k : Int) + 2))))) (acc + t)

/-- Sine of a fixed-point number (radians, of moderate size). -/
def sin (x : Int) : Int := trigSeries (mul x x) 60 1 x 0
/-- Cosine of a fixed-point number (radians, of moderate size). -/
def cos (x : Int) : Int := trigSeries (mul x x) 60 0 one 0

/-! ### Rounding of a fixed-point number -/

/-- Nearest integer to x × 2^k for a fixed-point x, ties away from zero. -/
def roundScaled (x : Int) (k : Nat) : Int := divAway (x * 2 ^ k) one

/-! ### binary64 -/

/-- Number of bits of a natural number. -/
def bitLen (n : Nat) : Nat := if n = 0 then 0 else Nat.log2 n + 1

/-- Round a natural number a / b to the nearest integer, ties to even. -/
def divEven (a b : Nat) : Nat :=
  let q := a / b
  let r := a % b
  if 2 * r < b then q else if b < 2 * r then q + 1 else if q % 2 = 0 then q else q + 1

/-- The binary64 value nearest to a rational (ties to even). Every value the spec computes lies in the normal
range. -/
def b64 (q : Rat) : Rat :=
  if q.num = 0 then 0 else
    let n := q.num.natAbs
    let d := q.den
    -- the exponent at which the quotient n / (d 2^e) lies in 2^52 … 2^53
    let up := fun (e : Int) => n * 2 ^ (-e).toNat
    let dn := fun (e : Int) => d * 2 ^ e.toNat
    let e : Int := (bitLen n : Int) - (bitLen d : Int) - 52
    let e' := if up e / dn e < 2 ^ 52 then e - 1 else e
    let m := divEven (up e') (dn e')
    let v : Rat := if 0 ≤ e' then ((m * 2 ^ e'.toNat : Nat) : Rat) else mkRat m (2 ^ (-e').toNat)
    if q.num < 0 then -v else v

/-- binary64 addition. -/
def fadd (a b : Rat) : Rat := b64 (a + b)
/-- binary64 subtraction. -/
def fsub (a b : Rat) : Rat := b64 (a - b)
/-- binary64 multiplication. -/
def fmul (a b : Rat) : Rat := b64 (a * b)
/-- binary64 division (by 0: 0; the designs never divide by 0). -/
def fdiv (a b : Rat) : Rat := b64 (a / b)
/-- Correctly rounded square root. -/
def fsqrt (a : Rat) : Rat := b64 (toRat (sqrt (ofRat a)))
/-- Correctly rounded sine. -/
def fsin (a : Rat) : Rat := b64 (toRat (sin (ofRat a)))
/-- Correctly rounded cosine. -/
def fcos (a : Rat) : Rat := b64 (toRat (cos (ofRat a)))
/-- Correctly rounded tangent. -/
def ftan (a : Rat) : Rat := let x := ofRat a; b64 (toRat (div (sin x) (cos x)))
/-- Correctly rounded power of 10. -/
def fexp10 (a : Rat) : Rat := b64 (toRat (exp10 (ofRat a)))
/-- Correctly rounded exponential. -/
def fexp (a : Rat) : Rat := b64 (toRat (exp (ofRat a)))
/-- π as a binary64 value. -/
def fpi : Rat := b64 (toRat pi)

/-- Nearest integer to q × 2^k, ties away from zero. -/
def ratRound (q : Rat) (k : Nat) : Int := divAway (q.num * 2 ^ k) (q.den : Int)

end Sys2Proof.Machine.Fxp
end

