-- ==== Sys2Proof/Machine/Trans.lean ====
section
/-! DEFINITION. Sys2Proof/Machine/Trans.lean: the transitions of processing parameters: zero-crossing stepping (R44,
R87, R88), raised-cosine crossfades in integer arithmetic (R40, R47, R495), and coefficient crossfades of
biquad cascades (R45, R498). -/
namespace Sys2Proof.Machine

open Fmt

/-! ### Zero-crossing stages -/

/-- R87: a signal crosses zero at a sample that is exactly zero, or non-zero with the opposite sign to a non-zero sample
before it. -/
def crosses (prev x : Int) : Bool :=
  decide (x = 0) || (decide (prev < 0) && decide (0 < x)) || (decide (0 < prev) && decide (x < 0))

/-- R88: the gain on sample n of a ramp from `g` to `t` that started at `tr` over `L` samples, k = n − tr + 1. -/
def rampGain (g t : Int) (tr L n : Nat) : Int :=
  g + trunc0 ((t - g) * ((n : Int) - (tr : Int) + 1)) (L : Int)

/-- The gain a stage applies on sample n (R88). -/
def Zc.applied (z : Zc) (n : Nat) : Int :=
  match z.ramp with
  | some (tr, L) => rampGain z.gain z.tgt tr L n
  | none => z.gain

/-- A ramp that has reached its target by sample n ends, and the stage is idle (R44, R89). -/
def Zc.endRamp (z : Zc) (n : Nat) : Zc :=
  match z.ramp with
  | some (tr, L) => if tr + L ≤ n then { z with gain := z.tgt, ramp := none } else z
  | none => z

/-- R44: a commit at sample n gives the stage the target `t`. A value the stage already has or moves to changes
nothing. -/
def Zc.commit (z0 : Zc) (n : Nat) (t : Int) : Zc :=
  let z := z0.endRamp n
  if t = z.tgt then z
  else
    match z.ramp with
    | some (tr, L) =>
      let g := rampGain z.gain z.tgt tr L (n - 1)
      if t = g then { z with gain := t, tgt := t, ramp := none }
      else { z with gain := g, tgt := t, ramp := none, tp := some n }
    | none =>
      if t = z.gain then { z with tgt := t, tp := none }
      else { z with tgt := t, tp := some (z.tp.getD n) }

/-- R44: the pending step is taken: the target applies at once. -/
def Zc.step (z : Zc) : Zc := { z with gain := z.tgt, tp := none }

/-- R44: no crossing came within T_zc, so the ramp starts at sample n over L samples. -/
def Zc.timeout (z : Zc) (n L : Nat) : Zc := { z with tp := none, ramp := some (n, L) }

/-- R44 on one sample: the entering signal x at stamp n moves the stage on. -/
def Zc.sample (z0 : Zc) (x : Int) (n tzc lramp : Nat) : Zc :=
  let z := z0.endRamp n
  let z1 :=
    match z.tp with
    | some p => if crosses z.prev x then z.step else if p + tzc ≤ n then z.timeout n lramp else z
    | none => z
  { z1 with prev := x }

/-- A stage whose signal of the sample before is known. -/
def Zc.after (z : Zc) (prev : Int) : Zc := { z with prev := prev }

/-! ### Crossfades -/

/-- R40, R495: W(k) of a crossfade of length L: 0.5 − 0.5 cos(π k / L) as the nearest G32 value, ties away from
zero. -/
def xfW (k L : Nat) : Int :=
  if L ≤ k then 0x08000000
  else Fxp.roundScaled ((Fxp.one - Fxp.cos (Fxp.pi * (k : Int) / (L : Int))) / 2) 27

/-- R47: a committed change to `new` at sample n with length `len`. The second result says that a pending change was
superseded or withdrawn (EV_XFADE_SUPERSEDED). -/
def Xf.commit (x : Xf) (n : Nat) (new : List Nat) (len : Nat) : Xf × Bool :=
  match x.run with
  | none => if new = x.cur then (x, false) else ({ x with run := some ⟨new, n, len⟩ }, false)
  | some r =>
    if new = r.new then ({ x with pend := none }, x.pend.isSome)
    else ({ x with pend := some (new, len) }, x.pend.isSome)

/-- R47: a crossfade that completed before sample n is over: the new value is in force, and a pending change starts on
this sample. -/
def Xf.advance (x : Xf) (n : Nat) : Xf :=
  match x.run with
  | none => x
  | some r =>
    if r.start + r.len < n then
      { cur := r.new, run := x.pend.map (fun p => ⟨p.1, n, p.2⟩), pend := none }
    else x

/-- R40, R94: the crossfade length in force also holds for a change that is still pending (log entry 141). -/
def Xf.relength (x : Xf) (len : Nat) : Xf := { x with pend := x.pend.map fun p => (p.1, len) }

/-- Whether a running crossfade ended before sample n. -/
def Xf.ends (x : Xf) (n : Nat) : Bool :=
  match x.run with
  | none => false
  | some r => decide (r.start + r.len < n)

/-- R495: the sample delivered at stamp n from the old and the new side. -/
def Xf.mix (x : Xf) (n : Nat) (old new : Int) : Int :=
  match x.run with
  | none => old
  | some r => xmix old new (xfW (n - r.start) r.len)

/-- The values a running crossfade moves to, or those in force. -/
def Xf.target (x : Xf) : List Nat :=
  match x.run with
  | none => x.cur
  | some r => r.new

/-! ### Biquads -/

/-- R162: a 48 × 48 product rounded to 64 fraction bits. -/
def prod64 (a b : Int) : Int := asr (a * b + 2 ^ 15) 16

/-- R498: one sample of a direct-form I section, and whether y saturated (R165, half up). -/
def Biq.sample (h : Biq) (c : Coef) (x : Int) : Biq × Int × Bool :=
  let acc := prod64 c.b0 x + prod64 c.b1 h.x1 + prod64 c.b2 h.x2 - prod64 c.a1 h.y1 - prod64 c.a2 h.y2
  let r := asr (satS 80 acc + 2 ^ 23) 24
  let y := satS 48 r
  ({ x1 := x, x2 := h.x1, y1 := y, y2 := h.y1 }, y, overS 48 r)

/-- A cascade on one sample; missing histories are clear. The count is of saturated sections. Where a change of slope alters the number of
sections, the old path's histories pass section by section from the first on (R45; log entry 153, DESIGN CHOICE). -/
def cascade : List Coef → List Biq → Int → List Biq × Int × Nat
  | [], _, x => ([], x, 0)
  | c :: cs, hs, x =>
    let h := hs.headD Biq.zero
    let (h', y, s) := h.sample c x
    let (hs', z, k) := cascade cs hs.tail y
    (h' :: hs', z, k + b2n s)

/-- R130: the bank in use, designed if nothing has written it yet. -/
def Cf.inUse (design : List Nat → List Coef) (f : Cf) : List Coef := f.bank.getD (design f.xf.cur)

/-- R130: the coefficients of the idle bank for the values `v`: those written into it ahead of the commit, or
designed now. -/
def Cf.other (design : List Nat → List Coef) (f : Cf) (v : List Nat) : List Coef :=
  match f.idle with
  | some (w, cs) => if w = v then cs else design v
  | none => design v

/-- R45, R47, R130: after the end of a crossfade the other bank is in use, and a pending change starts on this sample. -/
def Cf.advance (f : Cf) (n : Nat) : Cf :=
  if f.xf.ends n then
    { xf := f.xf.advance n
      bank := match f.idle with
        | some (w, cs) => if w = f.xf.target then some cs else none
        | none => none
      idle := none, h := f.hn, hn := [] }
  else f

/-- R45 on one sample: the old and the new bank run side by side on the common input and their outputs crossfade. The
path of the new bank starts from a copy of the old path's histories. The enable word is first in the values: a disabled
stage keeps computing and its output goes unused. -/
def Cf.sample (design : List Nat → List Coef) (f0 : Cf) (x : Int) (n : Nat) : Cf × Int × Nat :=
  let f := f0.advance n
  let co := f.inUse design
  let (h', yo, so) := cascade co f.h x
  let old := if f.xf.cur.headD 0 = 0 then x else yo
  match f.xf.run with
  | none => ({ f with bank := some co, h := h', hn := [] }, old, so)
  | some r =>
    let cn := f.other design r.new
    let (hn', yn, sn) := cascade cn (if r.start = n then f.h else f.hn) x
    let new := if r.new.headD 0 = 0 then x else yn
    ({ f with bank := some co, idle := some (r.new, cn), h := h', hn := hn' }, f.xf.mix n old new, so + sn)

/-- A CF stage that switches between its input and an output computed elsewhere (gate, compressor, limiter, insert
enable). -/
def Cf.switch (f0 : Cf) (n : Nat) (bypass on : Int) : Cf × Int :=
  let f := f0.advance n
  let side := fun (v : List Nat) => if v.headD 0 = 0 then bypass else on
  (f, f.xf.mix n (side f.xf.cur) (side f.xf.target))

/-! ### Delay lines -/

/-- A delay line after one more sample, newest first, holding `keep` samples. -/
def linePush (l : List Int) (x : Int) (keep : Nat) : List Int := (x :: l).take keep

/-- The sample d places back (0 where nothing was held). -/
def lineAt (l : List Int) (d : Nat) : Int := l.getD d 0

/-- R46: at the start of a crossfade to a longer delay the line forgets the samples stamped before start − old delay, so that every
later read of them is exact zero. -/
def delayTrim (x : Xf) (l : List Int) (n : Nat) : List Int :=
  match x.run with
  | some r => if r.start = n ∧ x.cur.headD 0 < r.new.headD 0 then l.take (x.cur.headD 0 + 1) else l
  | none => l

/-- R46: the read of the delay line at stamp n: at both delays during a crossfade. -/
def delayRead (x : Xf) (l : List Int) (n : Nat) : Int :=
  x.mix n (lineAt l (x.cur.headD 0)) (lineAt l (x.target.headD 0))

/-! ### dB codes and G32 of the stages -/

/-- A 32-bit parameter word read as signed. -/
def sw (w : Nat) : Int := toS 32 w

/-- The G32 gain of a dB code word (R9). -/
def gainOf (w : Nat) : Int := dbToG32 (sw w)

end Sys2Proof.Machine
end

