-- ==== Sys2Proof/Machine/Slot.lean ====
section
/-! DEFINITION. Sys2Proof/Machine/Slot.lean: one channel of a port (R214, R217, R220, R221, R499) and the alignment buffers between
ports and the engine. -/
namespace Sys2Proof.Machine

open Fmt

/-! ### Slots -/

/-- R499: sample k of a fade of a value over 32 samples. -/
def fadeAt (v : Int) (k : Nat) : Int := if k < 32 then trunc0 (v * (32 - (k : Int))) 32 else 0

/-- The slot starts or returns muted at sample n and unmutes at its first zero crossing (R214, R221). -/
def SlotSt.start (x : SlotSt) (n : Nat) : SlotSt := { x with z := { (Zc.at 0).commit n unity with prev := 0 }, fade := none }
/-- The slot unmutes from where it is. -/
def SlotSt.unmute (x : SlotSt) (n : Nat) : SlotSt := { x with z := x.z.commit n unity }
/-- The slot mutes at its zero crossing (R215, R217). -/
def SlotSt.mute (x : SlotSt) (n : Nat) : SlotSt := { x with z := x.z.commit n 0 }
/-- Live at once, with no mute. -/
def SlotSt.live (x : SlotSt) : SlotSt := { x with z := Zc.at unity, fade := none }

/-- R220: a flag starts the fade of the held value; a further flag changes nothing. -/
def SlotSt.lose (x : SlotSt) : SlotSt := if x.fade.isSome then x else { x with fade := some (some x.held, 0) }
/-- R499: a fade of the running signal. -/
def SlotSt.fadeOut (x : SlotSt) : SlotSt := if x.fade.isSome then x else { x with fade := some (none, 0) }

/-- One sample of a slot that receives x: its gain stage (R44), or its fade and the silence after it. -/
def SlotSt.sample (st : SlotSt) (x : Int) (n tzc lramp : Nat) : SlotSt × Int :=
  match st.fade with
  | some (h, k) =>
    let y := fadeAt (h.getD x) k
    if 31 ≤ k then ({ st with fade := none, z := Zc.at 0, held := 0 }, y)
    else ({ st with fade := some (h, k + 1) }, y)
  | none =>
    let z := st.z.sample x n tzc lramp
    let y := gmul x (z.applied n)
    ({ st with z := z, held := y }, y)

/-- One sample of a slot for which no good sample arrived: the last good one again (R220, R269). -/
def SlotSt.again (st : SlotSt) (n : Nat) : SlotSt × Int :=
  match st.fade with
  | some _ => st.sample st.held n 1 1
  | none => (st, st.held)

/-- Whether the slot applies 0 after sample n. -/
def SlotSt.silent (st : SlotSt) (n : Nat) : Bool := st.fade.isNone && decide (st.z.applied n = 0)

/-! ### Alignment buffers -/

/-- Key of a port channel's sample: port channel reference and stamp or exit MCC. -/
def smpKey (ref n : Nat) : Nat := ref * 2 ^ 64 + n

/-- The E48 sample of a port channel at a stamp (R25). -/
def State.rxAt (s : State) (ref n : Nat) : Int := Cells.get 0 s.audio.rx (smpKey ref n)
/-- A sample written into an alignment buffer. -/
def State.putRx (s : State) (ref n : Nat) (v : Int) : State :=
  { s with audio := { s.audio with rx := Cells.put 0 s.audio.rx (smpKey ref n) v } }
/-- The left-justified 32-bit sample an output stage delivers to a port channel at exit MCC n (R7, R70). -/
def State.portAt (s : State) (ref n : Nat) : Int := Cells.get 0 s.audio.port (smpKey ref n)

/-- Zero-crossing times at engine rate (R94): mere.t_zc and mere.l_ramp. -/
def State.tzc (s : State) : Nat := s.at 0x0A 0 1
def State.lramp (s : State) : Nat := s.at 0x0A 0 2

/-- A free value of a sample taken: its number and the state after it. -/
def State.takeFree (s : State) : Nat × State := (s.free, { s with free := s.free + 1 })
/-- A free value taken that no sample depends on (R1). -/
def State.draw (s : State) : Nat × State := (s.draws, { s with draws := s.draws + 1 })

/-- The frame tick that takes the block of a stamp (R24). -/
def tickOf (B n : Nat) : Nat := n / B * B + B + 2

end Sys2Proof.Machine
end

