-- ==== Sys2Proof/Machine/Wire.lean ====
section
/-! DEFINITION. Sys2Proof/Machine/Wire.lean: the bytes of VCP messages: header, items, tags (R304, R306, R313, R315). -/
namespace Sys2Proof.Machine

open Fmt

/-! ### Items (R306) -/

/-- An item: type, length, value, padding to a multiple of 4 bytes. -/
def itemBytes (ty : Nat) (v : List Nat) : List Nat :=
  toBE 2 ty ++ toBE 2 v.length ++ v ++ List.replicate ((4 - v.length % 4) % 4) 0

/-- Bytes of a FINDING value. -/
def Finding.bytes (f : Finding) : List Nat := [f.cat, 0] ++ toBE 2 f.err ++ toBE 4 f.h ++ toBE 4 f.det

/-- An item of a reply or push; words travel as RECORDS in the event commands and as BLOB elsewhere. -/
def Item.bytes (cmd : Nat) : Item → List Nat
  | .finding f => itemBytes 0x0002 f.bytes
  | .set id => itemBytes 0x0003 (toBE 2 id ++ [0, 0])
  | .mcc c => itemBytes 0x0004 (toBE 8 c)
  | .entries l => itemBytes 0x0005 (l.flatMap (fun e => toBE 4 e.h ++ toBE 4 e.v))
  | .nonce b => itemBytes 0x0008 b
  | .cont off => itemBytes 0x0009 (toBE 4 off)
  | .blob b => itemBytes 0x000B b
  | .words w => itemBytes (if cmd = 0x0401 ∨ cmd = 0x0405 then 0x000A else 0x000B) (w.flatMap (toBE 4))

/-- Bytes of an item, without building it. -/
def Item.size : Item → Nat
  | .finding _ => 16
  | .set _ => 8
  | .mcc _ => 12
  | .entries l => 4 + 8 * l.length
  | .nonce b => 4 + cdiv b.length 4 * 4
  | .cont _ => 8
  | .blob b => 4 + cdiv b.length 4 * 4
  | .words w => 4 + 4 * w.length

/-- Bytes of a list of items. -/
def itemsSize (l : List Item) : Nat := (l.map Item.size).foldl (· + ·) 0

/-- R305: most bytes of a reply's body. -/
def replyMax : Nat := 65504
/-- Bytes of STATUS (R306). -/
def statusSize : Nat := 12

/-- R305: a body in the runs of at most 1440 bytes that travel over UDP; an empty body travels in one message. -/
def bodyRuns (body : List Nat) : List (List Nat) := if body.isEmpty then [[]] else Crypto.chunks 1440 body.length body

/-- What a datagram takes on the wire: preamble, headers, FCS and gap are 70 bytes (R275; log entry 174). -/
def Datagram.wire (d : Datagram) : Nat := d.data.length + 70

/-- How many items at the front of a list fit in some bytes. -/
def fitCount : Nat → List Item → Nat
  | _, [] => 0
  | room, x :: l => if x.size ≤ room then 1 + fitCount (room - x.size) l else 0

/-- R306: the part of a read's items from `start` that fits one reply, with CONTINUE naming the first item left out. -/
def pageItems (start : Nat) (l : List Item) : List Item :=
  let rest := l.drop start
  if itemsSize rest ≤ replyMax - statusSize then rest
  else
    let n := fitCount (replyMax - statusSize - 8) rest
    rest.take n ++ [.cont (start + n)]

/-- The body of a reply: STATUS, then its items. -/
def Reply.body (r : Reply) : List Nat :=
  itemBytes 0x0001 (toBE 2 r.status ++ [0, 0] ++ toBE 4 r.detail) ++ r.items.flatMap (Item.bytes r.cmd)

/-! ### Header (R304) -/

/-- The fields of a header. -/
structure Header where
  sid   : Nat
  seq   : Nat
  cmd   : Nat
  len   : Nat
  reply : Bool
  err   : Bool
  push  : Bool
  enc   : Bool
  frag  : Nat
  more  : Bool
  deriving DecidableEq, Repr

/-- The 16 bytes of a header. -/
def Header.bytes (h : Header) : List Nat :=
  [0x56, 0x58, 0x01, h.sid] ++ toBE 4 h.seq ++ toBE 2 h.cmd ++ toBE 2 h.len ++
    toBE 4 (b2n h.reply + 2 * b2n h.err + 4 * b2n h.push + 8 * b2n h.enc + h.frag * 256 + 65536 * b2n h.more)

/-- The header at the front of some bytes, whatever its version, reserved bits and length say: none where there is no magic or no
room for header and tag. -/
def Header.parse (b : List Nat) : Option Header :=
  let fl := ofBE (slice b 12 4)
  if b.length < 32 ∨ ofBE (slice b 0 2) ≠ 0x5658 then none
  else some {
    sid := b.getD 3 0, seq := ofBE (slice b 4 4), cmd := ofBE (slice b 8 2), len := ofBE (slice b 10 2)
    reply := bit fl 0, err := bit fl 1, push := bit fl 2, enc := bit fl 3, frag := bits fl 15 8, more := bit fl 16 }

/-- R304, R325: what an authenticated message's header is refused with: E_VERSION (2), E_FORMAT (1), or 0. -/
def headerError (b : List Nat) (h : Header) : Nat :=
  let fl := ofBE (slice b 12 4)
  if b.getD 2 0 ≠ 1 then 2
  else if bits fl 7 4 ≠ 0 ∨ bits fl 31 17 ≠ 0 ∨ h.reply ∨ h.err ∨ h.push ∨ h.len + 32 ≠ b.length then 1
  else 0

/-! ### Tags and encryption (R312, R313, R315) -/

/-- The 16-byte tag of an unencrypted message under a key. -/
def tagOf (key msg : List Nat) : List Nat := (Crypto.hmac key msg).take 16

/-- The 12-byte IV: direction, kind, fragment, zero, salt, sequence. -/
def ivOf (dir kind frag : Nat) (salt : List Nat) (seq : Nat) : List Nat := [dir, kind, frag % 256, 0] ++ salt.take 4 ++ toBE 4 seq

/-- A whole message under an HMAC key. -/
def sealPlain (key : List Nat) (h : Header) (body : List Nat) : List Nat :=
  let m := h.bytes ++ body
  m ++ tagOf key m

/-- A whole message from the device in an encrypted session. -/
def sealGcm (ke salt : List Nat) (kind : Nat) (h : Header) (body : List Nat) : List Nat :=
  let (ct, tag) := Crypto.gcmSeal ke (ivOf 1 kind h.frag salt h.seq) h.bytes body
  h.bytes ++ ct ++ tag

/-- The body of a message to the device whose tag holds; none where it fails or the encrypted flag is not the session's. -/
def openMsg (enc : Bool) (ks ke salt : List Nat) (h : Header) (b : List Nat) : Option (List Nat) :=
  let body := slice b 16 (b.length - 32)
  let tag := b.drop (b.length - 16)
  if h.enc ≠ enc then none
  else if enc then Crypto.gcmOpen ke (ivOf 0 0 h.frag salt h.seq) (b.take 16) body tag
  else if tagOf ks (b.take (b.length - 16)) = tag then some body else none

/-- The keys of a session: whether it is encrypted, K_s, K_e and the salt (R312, R315). -/
structure Keys where
  enc  : Bool
  ks   : List Nat
  ke   : List Nat
  salt : List Nat
  deriving DecidableEq, Repr

/-- The keys of an open session. -/
def Session.keys (x : Session) : Keys := { enc := x.enc, ks := x.ks, ke := x.ke, salt := x.salt }

/-- A message of the device (kind 0 reply, 1 push) or a fragment of one, with its tag, encrypted where its header says so (R304, R315). -/
def Keys.seal (k : Keys) (kind : Nat) (h : Header) (body : List Nat) : List Nat :=
  if h.enc then sealGcm k.ke k.salt kind h body else sealPlain k.ks h body

/-- R305: a message over UDP: fragments of one number, counted from 0, with `more` on all but the last, each under its own tag. -/
def Keys.datagrams (k : Keys) (kind : Nat) (h : Header) (body : List Nat) : List (List Nat) :=
  let runs := bodyRuns body
  runs.zipIdx.map (fun q => k.seal kind { h with len := q.1.length, frag := q.2, more := decide (q.2 + 1 < runs.length) } q.1)

/-- The header of a reply. A reply to SESSION_OPEN travels unencrypted under K_s, since the host derives the keys from it. -/
def Reply.header (r : Reply) (k : Keys) : Header where
  sid := r.sid
  seq := r.seq
  cmd := r.cmd
  len := r.body.length
  reply := true
  err := decide (r.status ≠ 0)
  push := false
  enc := k.enc && decide (r.cmd ≠ 0x0001)
  frag := 0
  more := false

/-- The bytes of a reply in a session, whole (R305: never fragmented over the mailbox). -/
def Reply.bytes (r : Reply) (k : Keys) : List Nat := k.seal 0 (r.header k) r.body
/-- The datagrams of a reply. -/
def Reply.datagrams (r : Reply) (k : Keys) : List (List Nat) := k.datagrams 0 (r.header k) r.body

/-- The body of a push. -/
def Push.body (p : Push) : List Nat := p.items.flatMap (Item.bytes p.cmd)
/-- The header of a push (R304): its number is the session's count of pushes. -/
def Push.header (p : Push) (k : Keys) : Header where
  sid := p.sid
  seq := p.seq
  cmd := p.cmd
  len := p.body.length
  reply := false
  err := false
  push := true
  enc := k.enc
  frag := 0
  more := false
/-- The datagrams of a push (R304, R305, R315). -/
def Push.datagrams (p : Push) (k : Keys) : List (List Nat) := k.datagrams 1 (p.header k) p.body

/-! ### Request bodies (R306) -/

/-- The items of a body, by type and value; none where one runs past the body. `n` bounds the items. -/
def parseItems : Nat → List Nat → Option (List (Nat × List Nat))
  | _, [] => some []
  | 0, _ :: _ => none
  | n + 1, b =>
    let len := ofBE (slice b 2 2)
    let full := 4 + cdiv len 4 * 4
    if b.length < full then none
    else (parseItems n (b.drop full)).map (fun l => (ofBE (slice b 0 2), slice b 4 len) :: l)

/-- R306: a body that is refused with E_FORMAT: an item runs past it, or a type below 0x8000 is unknown. -/
def badBody (b : List Nat) : Bool :=
  match parseItems (b.length / 4) b with
  | none => true
  | some l => l.any (fun q => decide (q.1 < 0x8000) && (decide (q.1 = 0) || decide (0x000E < q.1)))

/-- The value of the first item of a type. -/
def itemOf (ty : Nat) (b : List Nat) : Option (List Nat) :=
  (parseItems (b.length / 4) b).bind (fun l => (l.find? (fun q => decide (q.1 = ty))).map (·.2))

end Sys2Proof.Machine
end

