-- ==== Sys2Proof/Machine/Reply.lean ====
section
/-! DEFINITION. Sys2Proof/Machine/Reply.lean: serving a request and replying to it (R314, R319, R321, R325). -/
namespace Sys2Proof.Machine

/-! ### Error codes (R325) -/
namespace Err

def ok : Nat := 0x0000
def format : Nat := 0x0001
def version : Nat := 0x0002
def command : Nat := 0x0003
def session : Nat := 0x0004
def auth : Nat := 0x0005
def owner : Nat := 0x0006
def state : Nat := 0x0007
def busy : Nat := 0x0008
def capacity : Nat := 0x0009
def late : Nat := 0x000A
def range : Nat := 0x000B
def handle : Nat := 0x000C
def integrity : Nat := 0x000D
def signature : Nat := 0x000E
def scene : Nat := 0x000F
def notFound : Nat := 0x0010
def profile : Nat := 0x0020
def cycles : Nat := 0x0021
def dram : Nat := 0x0022
def src : Nat := 0x0023
def stream : Nat := 0x0024
def route : Nat := 0x0025
def loop : Nat := 0x0026
def clock : Nat := 0x0027
def spring : Nat := 0x0028
def legacy : Nat := 0x0029
def pinConflict : Nat := 0x002A
def timer : Nat := 0x002B
def buffer : Nat := 0x002C
def cosign : Nat := 0x002D

end Err

/-- What a command answers: status, detail word and items; `none` where the reply follows later (R319). -/
structure Ans where
  status : Nat
  detail : Nat := 0
  items  : List Item := []
  deriving DecidableEq, Repr

/-- Success with items. -/
def Ans.good (items : List Item) : Option Ans := some { status := Err.ok, items := items }
/-- A failure. -/
def Ans.fail (e : Nat) (detail : Nat := 0) : Option Ans := some { status := e, detail := detail }

/-- Role codes a command needs (command table of R321): 0 device, 1 owner, 2 observer, 3 any. -/
abbrev RoleReq := Nat

/-- The open session of a number. -/
def State.session? (s : State) (sid : Nat) : Option Session := s.vcp.sessions.find? (fun x => x.sid = sid)

/-- One session changed. -/
def State.updSession (s : State) (sid : Nat) (f : Session → Session) : State :=
  { s with vcp := { s.vcp with sessions := s.vcp.sessions.map (fun x => if x.sid = sid then f x else x) } }

/-- R320, R412, R413: the control cores serve commands in QUIET and RUN unless a restart runs or they are halted. -/
def State.serves (s : State) : Bool :=
  (decide (s.dev = .quiet) || decide (s.dev = .run)) && !s.fault.stalled && !s.fault.halted

/-- One mailbox channel. -/
def State.channel (s : State) (c : Nat) : Channel := Cells.get Channel.reset s.vcp.channels c
/-- A change of one mailbox channel. -/
def State.updChannel (s : State) (c : Nat) (f : Channel → Channel) : State :=
  { s with vcp := { s.vcp with channels := Cells.upd Channel.reset s.vcp.channels c f } }

/-- R309: datagrams for a UDP address and port on their way to a NET port. -/
def State.toUdp (s : State) (o : Origin) (l : List (List Nat)) : State :=
  match o with
  | .mbx _ => s
  | .udp a p => { s with vcp := { s.vcp with out := s.vcp.out ++ l.map (fun b => { addr := a, port := p, data := b }) } }

/-- R304, R309: the pushes of a delivery, each to the address and port of its session's last authenticated request. -/
def State.sendPushes (s : State) (l : List Push) : State :=
  let s1 := { s with vcp := { s.vcp with pushes := l } }
  l.foldl (fun s p =>
    match s.session? p.sid with
    | some x => s.toUdp x.origin (p.datagrams x.keys)
    | none => s) s1

/-- A reply under some keys leaves for where its request came from: over the mailbox or SPI it waits for MBX_REPLY to write it (R309,
R310). -/
def State.sendTo (s : State) (o : Origin) (k : Keys) (rep : Reply) : State :=
  let s1 := { s with vcp := { s.vcp with last := some rep } }
  match o with
  | .mbx c => s1.updChannel c (fun ch => { ch with reply := some (rep.bytes k) })
  | .udp _ _ => s1.toUdp o (rep.datagrams k)

/-- R309: where a request came from; one that came by no recorded message, from where its session's last one did. -/
def State.sourceOf (s : State) (r : Req) (x : Session) : Origin := ((s.vcp.asked.find? (fun q => decide (q.1 = r))).map (·.2)).getD x.origin

/-- A request has its reply: its source is kept no longer. -/
def State.forget (s : State) (r : Req) : State :=
  { s with vcp := { s.vcp with asked := s.vcp.asked.filter (fun q => decide (q.1 ≠ r)) } }

/-- A session's reply leaves for the source of its request. -/
def State.send (s : State) (x : Session) (rep : Reply) : State :=
  (s.sendTo (s.sourceOf { sid := rep.sid, seq := rep.seq } x) x.keys rep).forget { sid := rep.sid, seq := rep.seq }

/-- R306: an answer that does not fit a reply fails with E_CAPACITY; reads page their items before. -/
def Ans.fits (a : Ans) : Ans := if itemsSize a.items ≤ replyMax - statusSize then a else { status := Err.capacity }

/-- A reply leaves: its session keeps it among the last 16 (R314). -/
def State.reply (s : State) (r : Req) (cmd : Nat) (a0 : Ans) : State :=
  let a := a0.fits
  let rep : Reply := { sid := r.sid, seq := r.seq, cmd := cmd, status := a.status, detail := a.detail, items := a.items }
  let s1 := s.updSession r.sid (fun x =>
    { x with replies := (rep :: x.replies).take 16, progress := x.progress.filter (· ≠ r.seq) })
  match s1.session? r.sid with
  | some x => s1.send x rep
  | none => ({ s1 with vcp := { s1.vcp with last := some rep } }).forget r

/-- The items of a read from `start`, as far as they fit (R306). -/
def Ans.paged (start : Nat) (items : List Item) : Option Ans := Ans.good (pageItems start items)

/-- R314: how a session takes a request sequence. -/
inductive SeqCase where
  | fresh | replay (r : Reply) | discard
  deriving DecidableEq, Repr

/-- R314: a number above the highest, or within 64 below it and not seen, is executed; a repeat of one of the last 16 gets its
reply again; any other repeat is discarded. -/
def Session.seqCase (x : Session) (seq : Nat) : SeqCase :=
  if x.high < seq ∨ (x.high ≤ seq + 64 ∧ ¬ x.seen.contains seq) then .fresh
  else
    match x.replies.find? (fun r => r.seq = seq) with
    | some r => .replay r
    | none => .discard

/-- The session after accepting a request. -/
def Session.accept (x : Session) (seq : Nat) : Session :=
  let high := max x.high seq
  { x with high := high, seen := (seq :: x.seen).filter (fun q => high ≤ q + 64), progress := seq :: x.progress }

/-- Whether a message of the queue is a request's. -/
def Message.isReq (m : Message) (r : Req) : Bool := decide (m.sid = r.sid ∧ m.seq = r.seq)

/-- The queue of whole requests with one taken out; its source is kept for its reply (R309). A repeat of a request in progress keeps the source
of the first (log entry 195). -/
def State.unbox (s : State) (r : Req) : State :=
  let src := (s.vcp.inbox.filter (fun m => m.isReq r)).map (fun m => (r, m.origin))
  { s with vcp := { s.vcp with
    inbox := s.vcp.inbox.filter (fun m => !m.isReq r)
    asked := if s.vcp.asked.any (fun q => decide (q.1 = r)) then s.vcp.asked else s.vcp.asked ++ src.take 1 } }

/-- R319: whether a request may be served now: of the sessions that wait the one whose message was accepted first comes first, with the lowest
number it has waiting. A request without a recorded message is served when it comes (log entry 195). -/
def State.turn (s : State) (r : Req) : Bool :=
  !s.vcp.inbox.any (fun m => m.isReq r) ||
    s.vcp.inbox.head?.all (fun m => decide (m.sid = r.sid)) && s.vcp.inbox.all (fun m => decide (m.sid ≠ r.sid) || decide (r.seq ≤ m.seq))

/-- R118: a request that waits at its transport lets the others pass. -/
def State.park (s : State) (r : Req) : State :=
  { s with vcp := { s.vcp with
    inbox := s.vcp.inbox.filter (fun m => !m.isReq r) ++ s.vcp.inbox.filter (fun m => m.isReq r) } }

/-- A mailbox channel whose request gets no reply is free again (R310, R313, R314). -/
def State.freeChannel (s : State) : Origin → State
  | .mbx c => s.updChannel c (fun ch => { ch with busy := false, wait := none })
  | .udp _ _ => s

/-- Serve an authenticated request whose turn it is (R304, R314, R319, R321): sequence window, session limits, role, then the command's own
action. Before its turn it waits. -/
def State.serve (s : State) (r : Req) (cmd : Nat) (need : RoleReq) (act : Session → State → State × Option Ans) : State :=
  if !s.serves || !s.turn r then s
  else
    let s := s.unbox r
    match s.session? r.sid with
    | none => s.reply r cmd { status := Err.session }
    | some x =>
      if 0xFFFFFFFF < r.seq ∨ r.seq = 0 then s.reply r cmd { status := Err.session }
      else
        match x.seqCase r.seq with
        | .discard => if x.progress.contains r.seq then s else (s.forget r).freeChannel x.origin
        | .replay rep => s.send x rep
        | .fresh =>
          let s1 := s.updSession r.sid (fun x => { x.accept r.seq with heard := s.mcc })
          if 16 ≤ x.progress.length then s1.reply r cmd { status := Err.busy }
          else if need < x.role then s1.reply r cmd { status := Err.owner }
          else
            match act (x.accept r.seq) s1 with
            | (s2, some a) => s2.reply r cmd a
            | (s2, none) => s2

/-- A read: nothing but the reply changes. -/
def State.serveRead (s : State) (r : Req) (cmd : Nat) (need : RoleReq) (f : Session → State → Option Ans) : State :=
  s.serve r cmd need (fun x s => (s, f x s))

/-- The owner session of a partition, 0 none (R317). -/
def State.owner (s : State) (p : Nat) : Nat := Cells.get 0 s.vcp.owner p

end Sys2Proof.Machine
end

