-- ==== Sys2Proof/Machine/Maint.lean ====
section
/-! DEFINITION. Sys2Proof/Machine/Maint.lean: the maintenance token (R419). -/
namespace Sys2Proof.Machine

/-- A change of the fault continuity group. -/
def State.setFault (s : State) (f : FaultG → FaultG) : State := { s with fault := f s.fault }

/-- R419: an activity takes the token, with EV_MAINT_START. -/
def State.maintStart (s : State) (m : Maint) : State :=
  (s.setFault (fun f => { f with holder := some m })).raise .maintStart 0 m.code m.target

/-- R419: the activity that holds the token ends, with EV_MAINT_END. -/
def State.maintEnd (s : State) : State :=
  match s.fault.holder with
  | none => s
  | some m => (s.setFault (fun f => { f with holder := none })).raise .maintEnd 0 m.code m.target

/-- R421: the activity that holds the token is pre-empted, with EV_MAINT_ABORTED. -/
def State.maintAbort (s : State) : State :=
  match s.fault.holder with
  | none => s
  | some m => (s.setFault (fun f => { f with holder := none })).raise .maintAborted 0 m.code m.target

/-- R419: a request for the token: it starts at once when the token is free and none waits; else it queues, up to 8; with no-wait it
fails with E_BUSY, beyond 8 with E_CAPACITY. The second result is the error, 0 for success. -/
def State.maintAsk (s : State) (m : Maint) (noWait : Bool) : State × Nat :=
  if s.fault.holder.isNone ∧ s.fault.queue.isEmpty then (s.maintStart m, Err.ok)
  else if noWait then (s, Err.busy)
  else if 8 ≤ s.fault.queue.length then (s, Err.capacity)
  else (s.setFault (fun f => { f with queue := f.queue ++ [m] }), Err.ok)

/-- Whether an activity of a code holds the token. -/
def State.maintOn (s : State) (code : Nat) : Bool := s.fault.holder.any (fun m => m.code = code)

/-- R366: a granted firmware slot switch: the boot preference is written to MSTORE; without defer the control firmware is to restart from
the slot. The next FW_WRITE to either slot erases it (R365). -/
def State.fwSwitchBegin (s : State) (slot : Nat) (defer : Bool) : State :=
  let s1 := { s with
    boot := { s.boot with pref := some slot }
    fw := { s.fw with
      slotA := { s.fw.slotA with erased := false }, slotB := { s.fw.slotB with erased := false }
      pending := if defer then s.fw.pending else some slot } }
  if defer then s1.maintEnd else s1

end Sys2Proof.Machine
end

