-- ==== Sys2Proof/Machine/LegRegs.lean ====
section
/-! DEFINITION. Sys2Proof/Machine/LegRegs.lean: the PQ-480 register map (R455, R459–R462). -/
namespace Sys2Proof.Machine

open Fmt

/-- R455: double rate, which PR2 gives. -/
def State.legDouble (s : State) : Bool := decide (s.prof = 1)
/-- Legacy channels, busses, slots in all and slots of a port. -/
def State.legChans (s : State) : Nat := if s.legDouble then 32 else 64
def State.legBusses (s : State) : Nat := if s.legDouble then 16 else 32
def State.legSlots (s : State) : Nat := if s.legDouble then 32 else 64
def State.legPerPort (s : State) : Nat := if s.legDouble then 8 else 16

/-- What an address names (R459). -/
inductive LegReg where
  | id | rate | clocks | control | soft | enables
  | outsel (k : Nat)
  | chan (c f : Nat)
  | send (c b : Nat)
  | bus (b f : Nat)
  | status | mask | run | count
  | none
  deriving DecidableEq, Repr

/-- R459: the register at an address. -/
def legReg (a : Nat) : LegReg :=
  if a = 0 then .id else if a = 1 then .rate else if a = 2 then .clocks else if a = 3 then .control
  else if a = 4 then .soft else if a = 5 then .enables
  else if 0x40 ≤ a ∧ a < 0x80 then .outsel (a - 0x40)
  else if 0x1000 ≤ a ∧ a < 0x2000 then
    (if (a - 0x1000) % 0x40 < 8 then .chan ((a - 0x1000) / 0x40) ((a - 0x1000) % 0x40) else .none)
  else if 0x4000 ≤ a ∧ a < 0x4400 then
    (if (a - 0x4000) % 0x20 < 4 then .bus ((a - 0x4000) / 0x20) ((a - 0x4000) % 0x20) else .none)
  else if 0x6000 ≤ a ∧ a < 0x6800 then .send ((a - 0x6000) / 32) ((a - 0x6000) % 32)
  else if a = 0x7F00 then .status else if a = 0x7F01 then .mask else if a = 0x7F02 then .run
  else if a = 0x7F03 then .count else .none

/-- R455, R459: whether a register exists at the rate in force. -/
def State.legExists (s : State) (a : Nat) : Bool :=
  match legReg a with
  | .none => false
  | .outsel k => decide (k < s.legSlots)
  | .chan c _ => decide (c < s.legChans)
  | .send c b => decide (c < s.legChans) && decide (b < s.legBusses)
  | .bus b _ => decide (b < s.legBusses)
  | _ => true

/-- The bits of a parameter register that a write changes; 0 for a register that is not a parameter. -/
def legParamMask (a : Nat) : Nat :=
  match legReg a with
  | .clocks => 0xFF
  | .enables => 0xFF
  | .outsel _ => 0xBF
  | .chan _ 0 => 0x7F
  | .chan _ 1 => 0xFFFFFF
  | .chan _ 2 => 0x3FF
  | .chan _ 3 => 3
  | .chan _ 4 => 0xFFFF
  | .chan _ 5 => 0xFFFF
  | .send _ _ => 0xFFFFFF
  | .bus _ 0 => 0x3FF
  | .bus _ 1 => 1
  | _ => 0

/-- R459: the reset value of a parameter register. -/
def legResetVal (a : Nat) : Nat :=
  match legReg a with
  | .outsel _ => 0x80
  | .chan c 0 => c
  | .chan _ 1 => 0x100000
  | _ => 0

/-- A register of one of the register files: contents are held as the exclusive or with the reset value. -/
def legGet (m : Mem) (a : Nat) : Nat := Cells.get 0 m a ^^^ legResetVal a
/-- A register written. -/
def legPut (m : Mem) (a v : Nat) : Mem := Cells.put 0 m a (v ^^^ legResetVal a)

/-- The value of a parameter register in force on the sample stamped n (R95, R467). -/
def State.legAt (s : State) (a n : Nat) : Nat :=
  match s.legacy.changes.find? (fun q => q.2.1 = a && n < q.1) with
  | some q => q.2.2.1
  | none => legGet s.legacy.comm a

/-- Whether a register's commit falls on stamp n. -/
def State.legTouched (s : State) (a n : Nat) : Bool := s.legacy.changes.any (fun q => decide (q.1 = n) && decide (q.2.1 = a))

/-- A 24-bit word as a signed integer. -/
def s24 (w : Nat) : Int := toS 24 w
/-- R461: limits to −2^23 … 2^23 − 1. -/
def sat24 (x : Int) : Int := satS 24 x

/-- R462: the fader law: floor(2^20 × 10^((n − 895) / 160) + 1/2), as the largest v with 2v − 1 at most twice that number. -/
def legLaw (n : Nat) : Int :=
  if n = 0 then 0
  else
    (searchBits (fun v =>
      if 895 ≤ n then decide ((2 * v - 1) ^ 160 ≤ 2 ^ (21 * 160) * 10 ^ (n - 895))
      else decide ((2 * v - 1) ^ 160 * 10 ^ (895 - n) ≤ 2 ^ (21 * 160))) 23 0 : Nat)

end Sys2Proof.Machine
end

