-- ==== Sys2Proof/Machine/PortBase.lean ====
section
/-! DEFINITION. Sys2Proof/Machine/PortBase.lean: the fields in force of SAP and MADI directions (R205–R210, R224–R226), and where their state
lies. -/
namespace Sys2Proof.Machine

open Fmt

/-- Whether the direction is enabled, running or not. -/
def PortDir.active (d : PortDir) : Bool := d.running || d.loss || d.measuring || d.starting || d.stopping.isSome

/-- Nominal amclk rate: 1024 times the base rate (R139). -/
def State.amclk (s : State) : Nat := 1024 * baseRate s.fam

/-! ### SAP directions -/

/-- What feeds or reads a SAP direction (R212, R209). -/
inductive SapKind where
  | engine | spring8 | spring16 | src
  deriving DecidableEq, Repr

/-- The fields a SAP direction runs with. -/
structure SapCfg where
  kind     : SapKind
  rate     : Nat
  slots    : Nat
  slotBits : Nat
  wordBits : Nat
  clock    : Nat
  origin   : Nat
  master   : Bool          -- it drives BCLK and FS: clock 0 on its own pins (R207)
  deriving DecidableEq, Repr

/-- A port of the legacy partition (R468). -/
def State.legSap (s : State) (p : Nat) : Bool := s.cap.legacy && decide (p < 4)
/-- A committed field of one direction; the legacy partition's ports have their clock in a register (R468). -/
def State.sapF (s : State) (p : Nat) (tx : Bool) (f : Nat) : Nat :=
  if s.legSap p ∧ f = 7 then b2n (bit (legGet s.legacy.comm 0x0002) (p + if tx then 4 else 0))
  else s.at 0x20 p (f + if tx then 0x10 else 0)
/-- The frame rate of a rate code (R206). -/
def State.sapRate (s : State) (code nominal : Nat) : Nat :=
  if code = 0 then s.fs else if code = 1 then 8 * baseRate s.fam else if code = 2 then 16 * baseRate s.fam else nominal

/-- What feeds or reads a direction of a rate code and a clock. -/
def sapKind (code clock : Nat) : SapKind :=
  if clock = 2 ∨ clock = 3 ∨ code = 3 then .src
  else if code = 1 then .spring8 else if code = 2 then .spring16 else .engine

/-- R206, R207, R468: a direction by its fields `g`; a direction on other pins takes their clock and origin, and the direction whose pins
they are is the one that may be master. -/
def State.sapCfgBy (s : State) (g : Nat → Bool → Nat → Nat) (p : Nat) (tx : Bool) : SapCfg :=
  if s.legSap p then
    let clock := g p tx 0x07
    { kind := .engine, rate := s.fs, slots := s.legPerPort, slotBits := 32, wordBits := 24
      clock := clock, origin := 8, master := decide (clock = 0) }
  else
    let pins := g p tx 0x0B
    let cp := if pins = 0xFF then p else pins % 16
    let ct := if pins = 0xFF then tx else bit pins 4
    let clock := g cp ct 0x07
    let code := g p tx 0x02
    { kind := sapKind code clock, rate := s.sapRate code (g p tx 0x03), slots := g p tx 0x04
      slotBits := g p tx 0x05, wordBits := g p tx 0x06, clock := clock, origin := g cp ct 0x08
      master := decide (clock = 0) && decide (cp = p) && (ct == tx) }

/-- A direction by its committed fields, as a check judges it. -/
def State.sapSet (s : State) (p : Nat) (tx : Bool) : SapCfg := s.sapCfgBy s.sapF p tx

/-- Key of a direction. -/
def sapKey (p : Nat) (tx : Bool) : Nat := 2 * p + b2n tx
/-- One SAP direction. -/
def State.sapDir (s : State) (p : Nat) (tx : Bool) : PortDir := Cells.get PortDir.reset s.ports.sap (sapKey p tx)
/-- A field in force of a direction: the one it started with while it runs or stops, else the committed one. -/
def State.sapW (s : State) (p : Nat) (tx : Bool) (f : Nat) : Nat :=
  let l := (s.sapDir p tx).fields
  if l.isEmpty then s.sapF p tx f else l.getD f 0
/-- A direction as it runs. -/
def State.sapCfg (s : State) (p : Nat) (tx : Bool) : SapCfg := s.sapCfgBy s.sapW p tx
/-- The fields that a starting direction takes; those of the legacy partition follow their registers (R468). -/
def State.sapFields (s : State) (p : Nat) (tx : Bool) : List Nat := if s.legSap p then [] else (List.range 12).map (s.sapF p tx)
/-- One SAP direction replaced. -/
def State.setSap (s : State) (p : Nat) (tx : Bool) (d : PortDir) : State :=
  { s with ports := { s.ports with sap := Cells.put PortDir.reset s.ports.sap (sapKey p tx) d } }
/-- The object of a SAP event (R329). -/
def sapObj (p : Nat) (tx : Bool) : Nat := p + 256 * b2n tx
/-- The partition of a SAP. -/
def State.sapOwner (s : State) (p : Nat) : Nat := if s.legSap p then 15 else s.at 0x20 p 0x21
/-- The reference of slot 0 of a direction (R37). -/
def sapRef0 (k : SapKind) (p : Nat) : Nat :=
  (match k with | .engine => 0x01000000 | .src => 0x01000000 | _ => 0x02000000) + p * 65536

/-! ### MADI directions -/

/-- One MADI direction. -/
def State.madiDir (s : State) (p : Nat) (tx : Bool) : PortDir := Cells.get PortDir.reset s.ports.madi (sapKey p tx)
/-- One MADI direction replaced. -/
def State.setMadi (s : State) (p : Nat) (tx : Bool) (d : PortDir) : State :=
  { s with ports := { s.ports with madi := Cells.put PortDir.reset s.ports.madi (sapKey p tx) d } }
/-- Channels of a mode (R224). -/
def madiChans (mode : Nat) : Nat := if mode = 0 then 64 else if mode = 1 then 56 else 32
/-- The reference of channel 0 (R37). -/
def madiRef0 (p : Nat) : Nat := 0x03000000 + p * 65536
/-- A field in force of a MADI direction, as `sapW`. -/
def State.madiW (s : State) (p : Nat) (tx : Bool) (f : Nat) : Nat :=
  let l := (s.madiDir p tx).fields
  if l.isEmpty then s.at 0x21 p f else l.getD f 0
/-- The fields that a starting MADI direction takes. -/
def State.madiFields (s : State) (p : Nat) : List Nat := (List.range 0x13).map (s.at 0x21 p)
/-- R225: whether a clock and a nominal rate connect directly. -/
def State.madiPlain (s : State) (clock nominal : Nat) : Bool := decide (clock = 1) && decide (nominal = s.fs)
/-- R225: receive connects directly; by the committed fields, and as it runs. -/
def State.madiSetDirect (s : State) (p : Nat) : Bool := s.madiPlain (s.at 0x21 p 2) (s.at 0x21 p 4)
def State.madiDirect (s : State) (p : Nat) : Bool := s.madiPlain (s.madiW p false 2) (s.madiW p false 4)
/-- R226: the divisor of the engine rate on transmit; by the committed fields, and as it runs. -/
def State.madiSetDiv (s : State) (p : Nat) : Nat := 2 ^ s.at 0x21 p 0x11
def State.madiDiv (s : State) (p : Nat) : Nat := 2 ^ s.madiW p true 0x11
/-- The partition of a MADI port. -/
def State.madiOwner (s : State) (p : Nat) : Nat := s.at 0x21 p 0x20
/-- The sample number on which a direction's slots count. -/
def PortDir.madiNow (d : PortDir) (direct : Bool) (mcc : Nat) : Nat := if direct then mcc else d.frames
/-- Whether a direction connects directly; by the committed fields, and as it runs. -/
def State.madiSetFast (s : State) (p : Nat) (tx : Bool) : Bool := if tx then decide (s.madiSetDiv p = 1) else s.madiSetDirect p
def State.madiFast (s : State) (p : Nat) (tx : Bool) : Bool := if tx then decide (s.madiDiv p = 1) else s.madiDirect p

/-! ### Origins -/

/-- R210: whether a direction with this origin has left its slot, and its status bit so. -/
def PortDir.atOrigin (d : PortDir) (s : State) (origin : Nat) : PortDir := { d with origin := decide (origin ≠ s.cku.sel) }

/-- R210, R207: a clock-1 SAP direction whose origin names a slot learns of the selection. -/
def State.sapOrigin (s : State) (p : Nat) (tx : Bool) : State :=
  let d := s.sapDir p tx
  let c := s.sapCfg p tx
  if d.active ∧ c.clock = 1 ∧ c.origin < 8 then
    let d1 := d.atOrigin s c.origin
    let s1 := s.setSap p tx d1
    if d1.origin ∧ ¬ d.origin then s1.raise .sapOriginLost (s.sapOwner p) (sapObj p tx) 0 else s1
  else s

/-- R224, R225: a MADI receiver's status bit 5 as R208; the spec names no event for it. -/
def State.madiOrigin (s : State) (p : Nat) : State :=
  let d := s.madiDir p false
  let origin := s.madiW p false 3
  if d.active ∧ s.madiW p false 2 = 1 ∧ origin < 8 then s.setMadi p false (d.atOrigin s origin) else s

/-- R210: every direction learns of the CKU's selection. -/
def State.sapOrigins (s : State) : State :=
  let s1 := (List.range 32).foldl (fun (s : State) i => s.sapOrigin (i / 2) (decide (i % 2 = 1))) s
  (List.range 8).foldl State.madiOrigin s1

end Sys2Proof.Machine
end

