-- ==== Sys2Proof/Machine/Cku.lean ====
section
/-! DEFINITION. Sys2Proof/Machine/Cku.lean: references, selection, holdover and the clock unit
(spec/11_clock_references.md). -/
namespace Sys2Proof.Machine

open Fmt

/-- A change of the clock unit. -/
def State.setCku (s : State) (f : CkuG → CkuG) : State := { s with cku := f s.cku }
/-- A change of the network group. -/
def State.setNet (s : State) (f : NetG → NetG) : State := { s with net := f s.net }
/-- One reference slot. -/
def CkuG.ref (c : CkuG) (k : Nat) : RefSlot := Cells.get RefSlot.reset c.refs k
/-- One reference slot changed. -/
def State.updRef (s : State) (k : Nat) (f : RefSlot → RefSlot) : State :=
  s.setCku (fun c => { c with refs := Cells.upd RefSlot.reset c.refs k f })

/-! ### Media count (R263) -/

/-- 10^9 ns in units of 2^-32 ns: one second of PHC time. -/
def phcSecond : Nat := 1000000000 * 2 ^ 32

/-- PHC time times the engine rate, exact (t + rem / fs units). -/
def State.phcScaled (s : State) : Nat := s.net.phc.t * s.fs + s.net.phc.rem

/-- M: the media count at the present PHC time (R263). -/
def State.mediaCount (s : State) : Nat := s.phcScaled / phcSecond

/-- The media count of the instant of M nearest to the present sample edge, which may lie up to 50 ns before it (R263, R264; log entry
190). -/
def State.nearCount (s : State) : Nat := (2 * s.phcScaled + phcSecond) / (2 * phcSecond)

/-- Δ = M − MCC. -/
def State.delta (s : State) : Int := (s.nearCount : Int) - (s.mcc : Int)

/-- R263: the phase amclk still has to move, in units of 1 / phcSecond of a sample: positive when it must advance. `m` is the modulus
of Δ at which the slew ends. -/
def State.slewLeft (s : State) (m : Nat) : Int :=
  let u : Int := (m * phcSecond : Nat)
  let x := ((s.phcScaled : Int) - ((s.mcc * phcSecond : Nat) : Int)) % u
  if x * 2 ≤ u then x else x - u

/-- The edge error of the MCC in ns (R264): how far amclk has to advance to the nearest instant of M. -/
def State.edgeNs (s : State) : Int := (s.slewLeft 1).tdiv (2 ^ 32 * (s.fs : Int))

/-! ### Selection (R285, R286) -/

/-- Whether a slot is a candidate (R283). -/
def State.isCand (s : State) (k : Nat) : Bool :=
  match (s.cku.ref k).st with
  | .qualified => true
  | .marginal => true
  | _ => false

/-- The candidates in slot order. -/
def State.cands (s : State) : List Nat := (List.range 8).filter s.isCand

/-- ref[k].rank. -/
def State.rank (s : State) (k : Nat) : Nat := s.at 0x40 k 1
/-- ref[k].accept in ppt. -/
def State.accept (s : State) (k : Nat) : Nat := s.at 0x40 k 5 * 1000000

/-- R285: two references agree when their offsets differ by at most the smaller accept limit. -/
def State.agree (s : State) (i j : Nat) : Bool :=
  decide (((s.cku.ref i).offset - (s.cku.ref j).offset).natAbs ≤ min (s.accept i) (s.accept j))

/-- The member of a list with the least value; the earliest of equals. -/
def argmin (f : Nat → Nat) : List Nat → Option Nat
  | [] => none
  | k :: l =>
    match argmin f l with
    | none => some k
    | some j => if f k ≤ f j then some k else some j

/-- R285: the selection of one evaluation. 0xFF is none. -/
def State.select (s : State) : Nat :=
  let cand := s.cands
  let sel := s.cku.sel
  if cand.contains sel ∧ (s.at 0x41 0 1 = 0 ∨ ¬ cand.any (fun k => s.rank k < s.rank sel)) then sel
  else
    match argmin s.rank cand with
    | none => 0xFF
    | some best =>
      let eq := cand.filter (fun k => s.rank k = s.rank best)
      let maj := eq.filter (fun i => decide (eq.length < 2 * (eq.filter (s.agree i)).length))
      let pool := if maj.isEmpty then eq else maj
      (argmin (fun k => (s.cku.ref k).offset.natAbs) pool).getD 0xFF

/-- R287, R329: the cause of a switch of the selection: a candidate is left for a better rank, or by what a commit changed; disabling the
selected reference acts as a loss. -/
def State.switchCause (s : State) : Nat :=
  if s.cku.sel = 0xFF then 8
  else if s.isCand s.cku.sel then (if s.cku.committed then 4 else 3)
  else
    match (s.cku.ref s.cku.sel).st with
    | .disqualified => 2
    | _ => 1

/-- R290: the bandwidth code of acquisition of a slot: the lower of 10 Hz and its largest, or its set bandwidth when that is
higher. -/
def State.acquireBw (s : State) (k : Nat) : Nat := max (min 4 ((refBwMax k).toNat)) (s.at 0x40 k 9)

/-- R298: a calibration under way ends with the old value. -/
def State.calAbort (s : State) : State :=
  match s.cku.cal with
  | none => s
  | some _ =>
    let s1 := (s.setCku (fun c => { c with cal := none })).raise .ckuCal 0 0 2
    if s1.maintOn 7 then s1.maintEnd else s1

/-- R264: mcc.status becomes unaligned, with EV_MCC_UNALIGNED where it was not. -/
def State.unalign (s : State) : State :=
  if s.net.mcc = 0 then s else (s.setNet (fun n => { n with mcc := 0 })).raise .mccUnaligned 0 0 0

/-- The mean of a list of offsets, truncated toward 0 (log entry 98). -/
def meanI (l : List Int) : Int := if l.isEmpty then 0 else (l.foldl (· + ·) 0).tdiv (l.length : Int)

/-- amclk's present offset: what the loop's integral part holds, and the departure by which it corrects phase (R291). -/
def CkuG.present (c : CkuG) : Int := c.freq + c.prop

/-- R288, R295, R299: the loop lets go at amclk's present frequency and phase. -/
def CkuG.letGo (c : CkuG) : CkuG :=
  { c with freq := c.present, prop := 0, phase := 0, inN := 0, outN := 0, bwN := 0, slewing := false, target := none }

/-- R292: the running average of amclk's offset over hold_avg seconds ending 2 s before the present. -/
def State.holdAverage (s : State) : Int :=
  let l := (s.cku.avg.drop 2).take (s.at 0x41 0 3)
  if l.isEmpty then s.cku.freq else meanI l

/-- R292, R293, R297: no candidate remains: holdover, or free run at once where the CKU has never locked. -/
def State.enterHoldover (s : State) : State :=
  if !s.cku.everLock then
    s.setCku (fun c => { c.letGo with st := .freeRun, target := some (s.sat 0x41 0 5, 100000) })
  else
    let f := if s.cku.fromHost ∨ 3 * s.fs ≤ s.cku.lockedN then s.holdAverage else s.cku.present
    let s1 := (s.setCku (fun c => { c.letGo with
      st := .holdover, target := some (f, s.at 0x41 0 6 * 1000), holdRem := s.at 0x41 0 4, holdN := 0 })).raise
        .ckuHoldover 0 0 0
    if s.at 0x41 0 4 = 0 then
      (s1.setCku (fun c => { c with st := .glide, target := some (s.sat 0x41 0 5, 100000) })).raise .ckuGlide 0 0 0
    else s1

/-- R263: the modulus of Δ at which a slew of REF4 ends: B where a renumbering is asked for, or is due at start-up. -/
def State.slewUnit (s : State) : Nat :=
  if s.net.align || (s.on 0x34 0 0 && (decide (s.dev = .boot) || decide (s.dev = .quiet)) && decide (s.net.mcc ≠ 2)) then s.B else 1

/-- R288, R289: a reference is taken up: REF4 by a slew to the nearest instant of M, or to the start of a block where a renumbering follows
(R263); any other by phase build-out. -/
def State.takeUp (s : State) (k : Nat) : State :=
  let s1 := s.setCku (fun c => { c.letGo with
    st := .acquiring, lockedN := 0, bw := s.acquireBw k, slewing := decide (k = 4), slewMod := s.slewUnit })
  if k = 4 then s1.setNet (fun n => { n with mcc := if n.edgeErr.natAbs ≤ 50 ∧ n.mcc = 2 then 2 else 1 }) else s1

/-- R285: the selection changes, with EV_REF_SWITCH; what leaving and taking up a slot entails (R210, R264, R288, R292,
R298). -/
def State.switchTo (s : State) (new cause : Nat) : State :=
  let old := s.cku.sel
  if new = old then s
  else
    let s1 := s.calAbort.setCku (fun c => { c.letGo with sel := new, target := c.target })
    let s2 := s1.raiseD .refSwitch 0 new [old, new, cause]
    let s3 := if old = 4 then s2.unalign else s2
    let s4 := if new = 0xFF then s3 else s3.takeUp new
    s4.sapOrigins

/-- R286: disagreements among the candidates of the rank in use. -/
def State.disagreements (s : State) : State :=
  if s.cku.sel = 0xFF then s
  else
    let eq := s.cands.filter (fun k => s.rank k = s.rank s.cku.sel)
    let pairs := eq.flatMap (fun i => (eq.filter (fun j => i < j)).map (fun j => (i, j)))
    pairs.foldl (fun s p =>
      if s.agree p.1 p.2 then s.setCku (fun c => { c with pairs := c.pairs.filter (· ≠ p) })
      else if s.cku.pairs.contains p then s
      else (s.setCku (fun c => { c with pairs := p :: c.pairs })).raise .refDisagree 0 p.1 p.2) s

/-- R285, R292, R297: the selection of one evaluation, in mode 0 and while no peer is followed (R430). -/
def State.evaluate (s : State) : State :=
  if s.at 0x41 0 0 ≠ 0 ∨ s.cku.twinFollow then s
  else
    let new := s.select
    let s1 := s.switchTo new s.switchCause
    let s2 := if new = 0xFF ∧ (s.cku.sel ≠ 0xFF ∨ s.cku.fromHost = true) then s1.enterHoldover else s1
    s2.disagreements.setCku (fun c => { c with committed := false, fromHost := false })

/-! ### Reference states (R281–R284) -/

/-- R281, R283: a reference is lost. -/
def State.loseRef (s : State) (k : Nat) : State :=
  match (s.cku.ref k).st with
  | .disabled => s
  | .lost => s
  | _ => (s.updRef k (fun r => { r with st := .lost, losses := satInc r.losses 1, timer := 0, hist := [] })).raise .refLost 0 k 0

/-- R281: whether a slot may have edges at all: REF4 needs a PHC locked as follower (R20, R262), REF5 and REF6 a MADI receiver out
of loss, REF7 a SAP direction out of loss. -/
def State.refAlive (s : State) (k : Nat) : Bool :=
  match k with
  | 4 => decide (s.net.ptpSt = 3) && bit s.power.domains 1
  | 5 => let d := Cells.get PortDir.reset s.ports.madi 0; d.running && !d.loss
  | 6 => let d := Cells.get PortDir.reset s.ports.madi 2; d.running && !d.loss
  | 7 => let d := Cells.get PortDir.reset s.ports.sap (2 * s.at 0x40 7 3); d.running && !d.loss
  | _ => true

/-- R283: one reference's state after an evaluation that has seen its edges with this offset; the event is raised too. Limits above
500 ppm act as 500 ppm (R282). -/
def State.stepRef (s : State) (k : Nat) (off : Int) : State :=
  let within := fun (ppm : Nat) => decide (off.natAbs ≤ min ppm 500 * 1000000)
  let acc := within (s.at 0x40 k 5)
  let rej := within (s.at 0x40 k 6)
  let r := s.cku.ref k
  match r.st with
  | .disabled => s
  | .lost => s.updRef k (fun r => { r with st := .qualifying, timer := 0 })
  | .qualifying =>
    if acc then
      if s.at 0x40 k 7 ≤ r.timer + 100 then
        (s.updRef k (fun r => { r with st := .qualified, timer := 0 })).raise .refQualified 0 k 0
      else s.updRef k (fun r => { r with timer := r.timer + 100 })
    else s.updRef k (fun r => { r with timer := 0 })
  | .qualified =>
    if acc then s
    else if rej then (s.updRef k (fun r => { r with st := .marginal })).raise .refMarginal 0 k 0
    else (s.updRef k (fun r => { r with st := .disqualified })).raise .refDisqualified 0 k 0
  | .marginal =>
    if acc then (s.updRef k (fun r => { r with st := .qualified })).raise .refMarginal 0 k 0
    else if rej then s
    else (s.updRef k (fun r => { r with st := .disqualified })).raise .refDisqualified 0 k 0
  | .disqualified => if acc then s.updRef k (fun r => { r with st := .qualifying, timer := 0 }) else s

/-- R284: the drift warning; ref[k].drift_warn is in units of 0.001 ppm/s, 1000 ppt/s. -/
def State.driftWarn (s : State) (k : Nat) (drift : Int) : State :=
  let far := decide (s.at 0x40 k 8 * 1000 < drift.natAbs)
  let r := s.cku.ref k
  if far then
    let s1 := s.updRef k (fun r => { r with warned := true, quiet := 0 })
    if r.warned then s1 else s1.raise .refDrift 0 k 0
  else
    let q := min 10000 (r.quiet + 100)
    s.updRef k (fun r => { r with quiet := q, warned := r.warned && decide (q < 10000) })

/-- R278: the nominal frequency of a reference in Hz, as a ratio. -/
def State.refNominal (s : State) (k : Nat) : Nat × Nat :=
  let base := baseRate s.fam
  let code := s.at 0x40 k 2
  match k with
  | 2 => ([(24000, 1001), (24, 1), (25, 1), (30000, 1001), (30, 1), (50, 1), (60000, 1001), (60, 1)] : List (Nat × Nat)).getD code (24, 1)
  | 3 => (10000000, 1)
  | 4 => (s.fs, 1)
  | 5 => (s.madiW 0 false 4, 1)
  | 6 => (s.madiW 1 false 4, 1)
  | 7 => ((s.sapCfg (s.at 0x40 7 3) false).rate, 1)
  | _ => (base * ([1, 2, 4, 256] : List Nat).getD code 1, 1)

/-- R282: the offset from nominal in ppt, rounded to the nearest, of a reference that showed n periods in t units of 0.5 ns of XIN, measured
against the calibrated local oscillator (log entry 191). -/
def State.refOffset (s : State) (k n t : Nat) : Int :=
  let f := s.refNominal k
  let x : Int := ((n * f.2 * 2000000000 : Nat) : Int) * (10 ^ 12 + s.cku.loCal)
  let y : Int := ((t * f.1 : Nat) : Int)
  (2 * x + y) / (2 * y) - 10 ^ 12

/-- R282: the slope in ppt/s over the offsets kept, one every 100 ms, newest first: from the oldest to the newest (log entry 191). -/
def slopeI (l : List Int) : Int :=
  match l with
  | [] => 0
  | [_] => 0
  | x :: y :: r => ((x - (y :: r).getLast (List.cons_ne_nil y r)) * 10).tdiv ((r.length + 1 : Nat) : Int)

/-- R282, R283, R285: one measured reference of an evaluation, by slot, periods seen and the time they took in units of 0.5 ns: offset and
drift, then state. -/
def State.measureRef (s : State) (m : Nat × Int × Int) : State :=
  let k := m.1
  if 8 ≤ k ∨ (s.cku.ref k).st = .disabled ∨ !s.refAlive k ∨ m.2.1 ≤ 0 ∨ m.2.2 ≤ 0 then s
  else
    let off := s.refOffset k m.2.1.toNat m.2.2.toNat
    let hist := (off :: (s.cku.ref k).hist).take 101
    let s1 := s.updRef k (fun r => { r with offset := off, drift := slopeI hist, hist := hist })
    (s1.stepRef k off).driftWarn k (slopeI hist)

/-- R279, R287: slots that a commit disabled or enabled since. -/
def State.enableRefs (s : State) : State :=
  (List.range 8).foldl (fun s k =>
    let en := s.on 0x40 k 0
    match (s.cku.ref k).st with
    | .disabled => if en then s.updRef k (fun r => { r with st := .lost, timer := 0 }) else s
    | _ => if en then s else s.updRef k (fun r => { r with st := .disabled, timer := 0, hist := [] })) s

/-- R20, R281: with PD_NET off the PHC does not run; REF4 is lost, and the CKU evaluates. -/
def State.netDown (s : State) : State :=
  match bit s.power.domains 1, (s.cku.ref 4).st with
  | true, _ => s
  | _, .disabled => s
  | _, .lost => s
  | _, _ => (s.loseRef 4).evaluate

/-- R281: a MADI receiver or SAP direction that is lost loses the reference it serves as, and the CKU evaluates. -/
def State.portRefs (s : State) : State :=
  let dead := ([5, 6, 7] : List Nat).filter (fun k => !s.refAlive k && decide ((s.cku.ref k).st ≠ .disabled) && decide ((s.cku.ref k).st ≠ .lost))
  if dead.isEmpty then s else (dead.foldl (fun s k => s.loseRef k) s).evaluate

/-! ### Meanings -/

/-- Whether the CKU runs (every state but OFF). -/
def State.ckuOn (s : State) : Bool := decide (s.dev ≠ .off)

/-- REF_LOST: the activity monitor flags a slot, and the CKU evaluates (R281, R285). -/
def execRefLost (k : Nat) (s : State) : Host.Outcome State Fault Refusal :=
  if 8 ≤ k ∨ (s.cku.ref k).st = .disabled ∨ (s.cku.ref k).st = .lost ∨ !s.ckuOn then .next s
  else .next (s.loseRef k).evaluate

/-- REF_EVALUATION: the evaluation of every 100 ms. `meas` names the slots whose edges arrive, with the periods seen in the window of 1 s and
the time they took (R282, R285). -/
def execRefEvaluation (meas : List (Nat × Int × Int)) (s : State) : Host.Outcome State Fault Refusal :=
  if !s.ckuOn then .next s
  else
    let dead := (List.range 8).filter (fun k => !s.refAlive k)
    let s1 := dead.foldl (fun s k => s.loseRef k) s.enableRefs
    .next (meas.foldl (fun s m => s.measureRef m) s1).evaluate

/-- CKU_LOCK: the phase error has stayed within lock_ns for 1 s (R290). -/
def execCkuLock (s : State) : Host.Outcome State Fault Refusal :=
  if s.cku.st = .acquiring ∧ (s.cku.sel ≠ 0xFF ∨ s.cku.twinFollow) ∧ s.fs ≤ s.cku.inN then
    .next ((s.setCku (fun c => { c with st := .locked, everLock := true, bwN := 0 })).raise .ckuLock 0 0 0)
  else .next s

/-- CKU_BW_STEP: the bandwidth narrows by one code, 10/b seconds after it took the bandwidth b it is leaving (R290); a code c stands for
10^(c - 3) Hz. -/
def execCkuBwStep (s : State) : Host.Outcome State Fault Refusal :=
  if s.cku.st = .locked ∧ s.at 0x40 s.cku.sel 9 < s.cku.bw ∧ 10000 * s.fs ≤ s.cku.bwN * 10 ^ s.cku.bw then
    .next (s.setCku (fun c => { c with bw := c.bw - 1, bwN := 0 }))
  else .next s

/-- CKU_UNLOCK: the phase error has exceeded 10 × lock_ns for 100 ms (R290). -/
def execCkuUnlock (s : State) : Host.Outcome State Fault Refusal :=
  if s.cku.st = .locked ∧ s.fs ≤ 10 * s.cku.outN then
    .next ((s.setCku (fun c => { c with
      st := .acquiring, inN := 0, bwN := 0, bw := if c.twinFollow then c.bw else s.acquireBw c.sel })).raise .ckuUnlock 0 0 0)
  else .next s

/-- CKU_GLIDE: hold_remaining has reached 0 (R293). A candidate of that sample's evaluation comes first (R299), so it acts from the next sample
on (log entry 192). -/
def execCkuGlide (s : State) : Host.Outcome State Fault Refusal :=
  if s.cku.st = .holdover ∧ s.cku.holdRem = 0 ∧ 0 < s.cku.holdN then
    .next ((s.setCku (fun c => { c with st := .glide, target := some (s.sat 0x41 0 5, 100000) })).raise .ckuGlide 0 0 0)
  else .next s

/-- CKU_FREERUN: the glide has arrived at nominal plus trim (R293). -/
def execCkuFreerun (s : State) : Host.Outcome State Fault Refusal :=
  if s.cku.st = .glide ∧ s.cku.target = none then
    .next ((s.setCku (fun c => { c with st := .freeRun })).raise .ckuFreerun 0 0 0)
  else .next s

/-- REF4_SLEW_DONE: the edge error, which the command reports, lies within ±50 ns (R289, R264); the slew goes on to the instant itself. -/
def execRef4SlewDone (edge : Int) (s : State) : Host.Outcome State Fault Refusal :=
  if s.cku.sel = 4 ∧ s.net.mcc = 1 ∧ edge.natAbs ≤ 50 ∧ edge = s.edgeNs then
    -- R263: a slew that a renumbering waits for goes on to its own end
    if s.slewUnit ≠ 1 ∧ s.delta ≠ 0 then .next (s.setNet (fun n => { n with edgeErr := edge }))
    else if s.delta = 0 then
      .next ((s.setNet (fun n => { n with mcc := 2, edgeErr := edge })).raiseD .mccAligned 0 0 (two 0))
    else .next (s.setNet (fun n => { n with mcc := 0, edgeErr := edge }))
  else .next s

/-- CKU_STEER: the target offset of the host-steered mode (R296). -/
def execCkuSteer (r : Req) (target : Int) (s : State) : Host.Outcome State Fault Refusal :=
  .next (s.serve r 0x0503 0 (fun _ s =>
    if s.at 0x41 0 0 ≠ 1 ∨ s.twin.role = .standby ∨ s.twin.role = .joining ∨ s.twin.role = .fenced then (s, Ans.fail Err.state)
    else if 500000000 < target.natAbs then (s, Ans.fail Err.range)
    else (s.setCku (fun c => { c with target := some (target, s.at 0x41 0 6 * 1000) }), Ans.good [])))

/-- CKU_CALIBRATE: a DCO recalibration under the maintenance token (R298, R419). -/
def execCkuCalibrate (r : Req) (s : State) : Host.Outcome State Fault Refusal :=
  .next (s.serve r 0x0504 0 (fun x s =>
    if s.cku.st ≠ .locked ∨ (s.cku.ref s.cku.sel).st ≠ .qualified then (s, Ans.fail Err.state)
    else
      let (s1, e) := s.maintAsk { code := 7, target := 0, sid := x.sid } false
      if e ≠ Err.ok then (s1, Ans.fail e)
      else (if s1.maintOn 7 then s1.setCku (fun c => { c with cal := some c.sel }) else s1, Ans.good [])))

/-- The calibration area of MSTORE, where cku.lo_cal stands (R298; its place in the area is log entry 32). -/
def loCalAddr : Nat := 0x40000

/-- R298: an offset against the local oscillator as calibrated by `was`, as one against it as calibrated by `is`: the frequency stays. -/
def recal (was is_ x : Int) : Int := (10 ^ 12 + x) * (10 ^ 12 + is_) / (10 ^ 12 + was) - 10 ^ 12

/-- R298: the calibration changes and amclk's frequency does not: every offset that is kept moves with it. -/
def CkuG.calibrate (c : CkuG) (v : Int) : CkuG :=
  let f := recal c.loCal v
  { c with
    cal := none, loCal := v, freq := f c.freq, sum := c.sum + (c.second : Int) * f 0, avg := c.avg.map f
    refs := Cells.mapVal (fun (r : RefSlot) => { r with hist := r.hist.map f, offset := f r.offset }) c.refs }

/-- CKU_CAL_DONE: the measurement ends with a value, or aborts (R298). -/
def execCkuCalDone (value : Option Int) (s : State) : Host.Outcome State Fault Refusal :=
  match s.cku.cal, value with
  | none, _ => .next s
  | some _, none => .next s.calAbort
  | some _, some v =>
    let s1 := { s with scene := { s.scene with mstore := s.scene.mstore.writeAll loCalAddr (toBE 4 (wrapU 32 v)) } }
    let s2 := (s1.setCku (fun c => c.calibrate v)).raiseD .ckuCal 0 0 [one s.cku.loCal, one v, 1]
    .next (if s2.maintOn 7 then s2.maintEnd else s2)

/-! ### Outputs (R300, R301) -/

/-- One output. -/
def CkuG.out (c : CkuG) (k : Nat) : ClkOut := Cells.get ClkOut.reset c.outs k

/-- One output replaced. -/
def State.setOut (s : State) (k : Nat) (o : ClkOut) : State := s.setCku (fun c => { c with outs := Cells.put ClkOut.reset c.outs k o })

/-- Half cycles of amclk in an engine sample. -/
def State.halves (s : State) : Nat := 2 * s.amclk / s.fs

/-- R300: the period of an output in half cycles of amclk, by frequency code; 0 is off. -/
def State.clkPeriod (s : State) (k code : Nat) : Nat :=
  if code = 0 then 0
  else if k = 0 then 2
  else ([0, 2048, 1024, 512, s.halves, 256, 8, 4] : List Nat).getD code 0

/-- R300: where half cycle h, counted from MCC 0, lies in an output's period; every period divides 2048. -/
def clkPhase (period delay h : Nat) : Nat := (h + 2048 - 2 * delay) % period

/-- R300: an output's level at half cycle h: 50 % duty from its rising edge. -/
def clkHigh (period delay h : Nat) : Bool := decide (2 * clkPhase period delay h < period)

/-- The first rising edge at or after a half cycle. -/
def clkRise (period delay h : Nat) : Nat := h + (period - clkPhase period delay h) % period

/-- R300, R301: an output's level at half cycle h: what is in force gives no pulse before its own first rising edge. -/
def State.clkLevel (s : State) (k h : Nat) : Bool :=
  let o := s.cku.out k
  if h < o.since then clkHigh (s.clkPeriod k o.oldFreq) o.oldDelay h
  else
    let p := s.clkPeriod k o.freq
    clkHigh p o.delay h && decide (clkRise p o.delay o.since ≤ h)

/-- R300, R301: an output's pin at half cycle h: an output that is off drives low, or nothing where clkout[k].idle asks for that; in RESET and
BOOT it is low. -/
def State.clkPin (s : State) (k h : Nat) : Option Bool :=
  if s.dev = .reset ∨ s.dev = .boot then some false
  else if (s.cku.out k).freq = 0 ∧ (s.cku.out k).since ≤ h ∧ s.on 0x42 k 2 then none
  else some (s.clkLevel k h)

/-- CLKOUT_FREQ_CHANGE: an output's committed frequency takes effect where the present sample has an edge on which old and new both rise; one
that was off starts at its own first edge, one that goes off ends its period (R301). Periods divide one another, so that common edge is an
edge of the longer one. -/
def execClkoutFreqChange (k : Nat) (s : State) : Host.Outcome State Fault Refusal :=
  let o := s.cku.out k
  let new := s.at 0x42 k 0
  let delay := if o.freq = 0 then s.at 0x42 k 1 else o.delay
  let edge := clkRise (max (s.clkPeriod k o.freq) (s.clkPeriod k new)) delay (s.mcc * s.halves)
  if k < 5 ∧ (s.dev = .quiet ∨ s.dev = .run ∨ s.dev = .standby) ∧ new ≠ o.freq ∧ edge < (s.mcc + 1) * s.halves then
    .next (s.setOut k { freq := new, delay := delay, oldFreq := o.freq, oldDelay := o.delay, since := edge })
  else .next s

/-- R300: a committed delay takes effect at an output's next rising edge. -/
def State.clkDelay (s : State) (k : Nat) : State :=
  let o := s.cku.out k
  let new := s.at 0x42 k 1
  let edge := clkRise (s.clkPeriod k o.freq) o.delay (s.mcc * s.halves)
  if o.freq = 0 ∨ new = o.delay ∨ edge < o.since ∨ (s.mcc + 1) * s.halves ≤ edge then s
  else s.setOut k { o with delay := new, oldFreq := o.freq, oldDelay := o.delay, since := edge }

/-! ### Commits (R287, R294, R295, R297) -/

/-- What a committed change of cku.mode does at the commit sample. -/
def State.ckuMode (s : State) (old new : Nat) : State :=
  if old = new then s
  else if new = 1 then
    let s1 := s.calAbort.setCku (fun c => { c.letGo with sel := 0xFF, st := .hostSteered, dco := c.present })
    let s2 := s1.raiseD .refSwitch 0 0xFF [s.cku.sel, 0xFF, 5]
    (if s.cku.sel = 4 then s2.unalign else s2).sapOrigins
  else if new = 2 then
    let s1 := s.calAbort.setCku (fun c => { c.letGo with sel := 0xFF, st := .freeRun, target := some (s.sat 0x41 0 5, 100000) })
    let s2 := if s.cku.sel = 0xFF then s1 else s1.raiseD .refSwitch 0 0xFF [s.cku.sel, 0xFF, 6]
    (if s.cku.sel = 4 then s2.unalign else s2).sapOrigins
  else
    -- R297: back to automatic: the next evaluation selects
    s.setCku (fun c => { c with target := none, fromHost := true })

/-- R294: a committed change of cku.trim in free run or glide. -/
def State.ckuTrim (s : State) : State :=
  match s.cku.st with
  | .freeRun => s.setCku (fun c => { c with target := some (s.sat 0x41 0 5, 100000) })
  | .glide => s.setCku (fun c => { c with target := some (s.sat 0x41 0 5, 100000) })
  | _ => s

/-- R292, R296: a committed change of cku.steer_rate in a running move at that rate. -/
def State.ckuRate (s : State) : State :=
  match s.cku.st with
  | .hostSteered => s.setCku (fun c => { c with target := c.target.map (fun m => (m.1, s.at 0x41 0 6 * 1000)) })
  | .holdover => s.setCku (fun c => { c with target := c.target.map (fun m => (m.1, s.at 0x41 0 6 * 1000)) })
  | _ => s

/-! ### Time passing -/

/-- The phase error in ns (R290): of REF4 that of the MCC's edges against the instants of M. -/
def State.phaseNs (s : State) : Int :=
  match s.cku.st with
  | .acquiring => if s.cku.sel = 4 then s.edgeNs else s.cku.phase.tdiv (1000 * (s.fs : Int))
  | .locked => if s.cku.sel = 4 then s.edgeNs else s.cku.phase.tdiv (1000 * (s.fs : Int))
  | _ => 0

/-- The offset that the loop follows: the selected reference's. A peer's edges show none: a free value within the span of the DCO (R282, R430;
log entry 189). -/
def State.followed (s : State) : Int × State :=
  if s.cku.twinFollow then
    let (i, s1) := s.draw
    (clampI (-500000000) 500000000 (Config.freeInt i), s1)
  else ((s.cku.ref s.cku.sel).offset, s)

/-- A free part of a length. -/
def partI (n : Nat) (d : Int) : Int := d.sign * ((n % (d.natAbs + 1) : Nat) : Int)

/-- R288, R290, R291: one sample of the loop while it follows something: the integral part moves towards the frequency it follows, the
proportional part removes phase within the slope limit, and the times within and beyond the lock limits go on. REF4's phase is the PHC's,
which `phcTick` slews. -/
def State.loopTick (s : State) : State :=
  if s.cku.st ≠ .acquiring ∧ s.cku.st ≠ .locked then s
  else
    let (off, s1) := s.followed
    let c := s1.cku
    let d := off - c.freq
    let e := c.phase + d
    let lim : Int := ((s.at 0x41 0 2 * 1000 : Nat) : Int)
    let p := if c.sel = 4 then c.prop else partI (Config.loopPhase c.bw c.phase) (clampI (-lim) lim e)
    let s2 := s1.setCku (fun c => { c with
      freq := c.freq + partI (Config.loopPull c.bw c.phase d) d, prop := p, phase := if c.sel = 4 then 0 else e - p })
    let ns := s2.phaseNs.natAbs
    let lock := s.at 0x41 0 7
    s2.setCku (fun c => { c with
      inN := if ns ≤ lock then c.inN + 1 else 0, outN := if 10 * lock < ns then c.outN + 1 else 0
      bwN := c.bwN + 1, lockedN := if c.st = .locked then c.lockedN + 1 else c.lockedN })

/-- One sample of a linear move of amclk's frequency at a rate in ppt/s. -/
def CkuG.move (c : CkuG) (fs : Nat) : CkuG :=
  match c.target with
  | none => c
  | some (t, rate) =>
    let n := c.acc + rate
    let d : Int := (n / fs : Nat)
    let f := if c.freq + d < t then c.freq + d else if t < c.freq - d then c.freq - d else t
    { c with freq := f, acc := n % fs, target := if f = t then none else c.target,
             dco := if c.st = .hostSteered then f else c.dco }

/-- R293: one sample of the holdover's count-down; 0xFFFF_FFFF holds indefinitely. -/
def CkuG.holdTick (c : CkuG) (fs : Nat) : CkuG :=
  if c.st ≠ .holdover ∨ c.holdRem = 0xFFFFFFFF then c
  else if c.holdRem = 0 ∨ c.holdN + 1 < fs then { c with holdN := c.holdN + 1 }
  else { c with holdN := 0, holdRem := c.holdRem - 1 }

/-- One sample of the clock unit's own times: a move of frequency, the running average of each second, and the holdover (R292, R293). -/
def CkuG.tick (c0 : CkuG) (fs : Nat) : CkuG :=
  let c := (c0.move fs).holdTick fs
  let sum := c.sum + c.present
  if c.second + 1 < fs then { c with second := c.second + 1, sum := sum }
  else { c with second := 0, sum := 0, avg := (sum.tdiv (fs : Int) :: c.avg).take 3602 }

/-- One sample of the clock unit. -/
def State.ckuTick (s : State) : State := ((List.range 5).foldl State.clkDelay s).loopTick.setCku (fun c => c.tick s.fs)

end Sys2Proof.Machine
end

