-- ==== Sys2Proof/Machine/Items.lean ====
section
/-! DEFINITION. Sys2Proof/Machine/Items.lean: the values of the items that requests carry, and the commands they ask for (R306–R308, R312).
A value of another length, or with something other than 0 where its table says 0, makes its body malformed, as does a command without the
items it carries; bits of a flags byte that the table does not name are ignored (log entry 196). -/
namespace Sys2Proof.Machine

open Fmt

/-- Whether n bytes at an offset are 0. -/
def zeros (v : List Nat) (off n : Nat) : Bool := decide (ofBE (slice v off n) = 0)

/-- SET: a stage set id. -/
def setItem (v : List Nat) : Option Nat := if v.length = 4 ∧ zeros v 2 2 then some (ofBE (slice v 0 2)) else none

/-- MCC: a 64-bit value. -/
def mccItem (v : List Nat) : Option Nat := if v.length = 8 then some (ofBE v) else none

/-- ENTRIES: pairs of handle and value. -/
def entriesItem (v : List Nat) : Option (List Entry) :=
  if v.length % 8 = 0 then
    some ((Crypto.chunks 8 v.length v).map (fun b => { h := ofBE (slice b 0 4), v := ofBE (slice b 4 4) }))
  else none

/-- CREDENTIAL: credential id, role, options. -/
def credItem (v : List Nat) : Option (Nat × Nat × Nat) :=
  if v.length = 4 then some (ofBE (slice v 0 2), v.getD 2 0, v.getD 3 0) else none

/-- NONCE: 16 bytes. -/
def nonceItem (v : List Nat) : Option (List Nat) := if v.length = 16 then some v else none

/-- KEEPALIVE: seconds. -/
def keepItem (v : List Nat) : Option Nat := if v.length = 4 ∧ zeros v 2 2 then some (ofBE (slice v 0 2)) else none

/-- ATTRIBUTES: flags, cf_len, dx_len, label. -/
def attrsItem (v : List Nat) : Option Attrs :=
  if v.length = 40 ∧ zeros v 1 3 then
    some { nextPossible := bit (v.getD 0 0) 0, noWait := bit (v.getD 0 0) 1, cfLen := ofBE (slice v 4 2), dxLen := ofBE (slice v 6 2)
           label := slice v 8 32 }
  else none

/-- PARTITIONS: mask and force flag. -/
def partsItem (v : List Nat) : Option (Nat × Bool) :=
  if v.length = 4 ∧ zeros v 3 1 then some (ofBE (slice v 0 2), bit (v.getD 2 0) 0) else none

/-- NODES (R308): form, flags, first destination and source, counts, then a G32 gain and a tap byte for every node. -/
def nodesItem (v : List Nat) : Option Nodes :=
  let data := (Crypto.chunks 5 v.length (v.drop 12)).map (fun b => (ofBE (slice b 0 4), b.getD 4 0))
  if v.length < 12 ∨ (v.length - 12) % 5 ≠ 0 ∨ !zeros v 2 2 ∨ data.any (fun q => decide (4 ≤ q.2)) then none
  else some { form := v.getD 0 0, gain := bit (v.getD 1 0) 0, tap := bit (v.getD 1 0) 1, dest := ofBE (slice v 4 2), src := ofBE (slice v 6 2)
              nd := ofBE (slice v 8 2), ns := ofBE (slice v 10 2), data := data }

/-- An item that may be left out: none where it stands and is malformed. -/
def mayItem {α : Type} (ty : Nat) (dec : List Nat → Option α) (b : List Nat) : Option (Option α) :=
  match itemOf ty b with
  | none => some none
  | some v => (dec v).map some

/-- The time of a COMMIT or DECSYNC: its MCC item, without which it is next possible (log entry 196). -/
def whenItem (b : List Nat) : Option When := (mayItem 0x0004 mccItem b).map (fun c => c.elim .next .mcc)

/-- What a request's body asks for: the command with its operands, for the codes whose bodies the spec lays out; none where it is malformed. -/
def askOf (r : Req) (cmd : Nat) (b : List Nat) : Option (Option Instr) :=
  let set := (itemOf 0x0003 b).bind setItem
  let parts := (itemOf 0x000E b).bind partsItem
  let nodes := (itemOf 0x0006 b).bind nodesItem
  let staged := fun (f : Req → Nat → Nodes → Instr) => set.bind (fun id => nodes.map (fun n => some (f r id n)))
  match cmd with
  | 0x0005 => parts.map (fun p => some (.partitionClaim r p.1 p.2))
  | 0x0006 => parts.map (fun p => some (.partitionRelease r p.1))
  | 0x0101 => (mayItem 0x000D attrsItem b).map (fun a => some (.stageOpen r a))
  | 0x0102 => set.bind (fun id => ((itemOf 0x0005 b).bind entriesItem).map (fun l => some (.stageAdd r id l)))
  | 0x0103 => staged .stageRow
  | 0x0104 => staged .stageColumn
  | 0x0105 => staged .stageRect
  | 0x0106 => staged .stageFill
  | 0x0108 => set.map (fun id => some (.stageCheck r id))
  | 0x010A => set.bind (fun id => (whenItem b).map (fun w => some (.commit r id w)))
  | 0x010B => set.map (fun id => some (.stageCancel r id))
  | 0x010C => set.map (fun id => some (.stageDiscard r id))
  | 0x010D => set.map (fun id => some (.stageReport r id))
  | 0x0505 => (whenItem b).map (fun w => some (.decsync r w))
  | _ => some none

/-- What the body of a SESSION_OPEN asks for (R307, R312): credential, role and options, nonce, keepalive. -/
def openOf (b : List Nat) : Option ((Nat × Nat × Nat) × List Nat × Option Nat) :=
  ((itemOf 0x0007 b).bind credItem).bind (fun c => ((itemOf 0x0008 b).bind nonceItem).bind (fun n =>
    (mayItem 0x000C keepItem b).map (fun k => (c, n, k))))

/-- Whether a command is what the recorded message of its request asks for. -/
def State.asks (s : State) (r : Req) (i : Instr) : Bool :=
  s.vcp.inbox.all (fun m => !m.isReq r || (askOf r m.cmd m.body).all (fun a => a.all (fun j => decide (j = i))))

/-- A command has its effect where it is what its request asks for. -/
def State.ifAsked (s : State) (r : Req) (i : Instr) (t : State) : Host.Outcome State Fault Refusal := .next (if s.asks r i then t else s)

end Sys2Proof.Machine
end

