-- ==== Sys2Proof/Machine/Design.lean ====
section
/-! DEFINITION. Sys2Proof/Machine/Design.lean: the filter and EQ coefficients of R498, designed in binary64 from the
committed parameter words and rounded to E48. Sums and products are taken in the order in which the rule's table
writes them, each rounded to binary64 (log entry 25, DEDUCED). -/
namespace Sys2Proof.Machine

open Fmt Fxp

/-- Coefficients before normalisation. -/
structure RawCoef where
  b0 : Rat
  b1 : Rat
  b2 : Rat
  a0 : Rat
  a1 : Rat
  a2 : Rat

/-- Every coefficient divided by a0 and rounded to the nearest E48 value, ties away from zero. -/
def RawCoef.norm (r : RawCoef) : Coef :=
  let q := fun v => satS 48 (ratRound (fdiv v r.a0) 40)
  { b0 := q r.b0, b1 := q r.b1, b2 := q r.b2, a1 := q r.a1, a2 := q r.a2 }

/-- w0 = 2π f / fs for a frequency field in 0.01 Hz. -/
def designW0 (freq fs : Nat) : Rat := fdiv (fmul (fmul 2 fpi) (fdiv freq 100)) fs

/-- A Q field as a number. -/
def designQ (q : Nat) : Rat := fdiv q 1000

/-- α = s / (2Q). -/
def alphaQ (s q : Rat) : Rat := fdiv s (fmul 2 q)

/-- Bell. -/
def designBell (c al a : Rat) : RawCoef :=
  { b0 := fadd 1 (fmul al a), b1 := fmul (-2) c, b2 := fsub 1 (fmul al a)
    a0 := fadd 1 (fdiv al a), a1 := fmul (-2) c, a2 := fsub 1 (fdiv al a) }

/-- Low shelf. -/
def designLowShelf (c al a : Rat) : RawCoef :=
  let p := fadd a 1
  let m := fsub a 1
  let t := fmul (fmul 2 (fsqrt a)) al
  { b0 := fmul a (fadd (fsub p (fmul m c)) t)
    b1 := fmul (fmul 2 a) (fsub m (fmul p c))
    b2 := fmul a (fsub (fsub p (fmul m c)) t)
    a0 := fadd (fadd p (fmul m c)) t
    a1 := fmul (-2) (fadd m (fmul p c))
    a2 := fsub (fadd p (fmul m c)) t }

/-- High shelf. -/
def designHighShelf (c al a : Rat) : RawCoef :=
  let p := fadd a 1
  let m := fsub a 1
  let t := fmul (fmul 2 (fsqrt a)) al
  { b0 := fmul a (fadd (fadd p (fmul m c)) t)
    b1 := fmul (fmul (-2) a) (fadd m (fmul p c))
    b2 := fmul a (fsub (fadd p (fmul m c)) t)
    a0 := fadd (fsub p (fmul m c)) t
    a1 := fmul 2 (fsub m (fmul p c))
    a2 := fsub (fsub p (fmul m c)) t }

/-- Notch. -/
def designNotch (c al : Rat) : RawCoef :=
  { b0 := 1, b1 := fmul (-2) c, b2 := 1, a0 := fadd 1 al, a1 := fmul (-2) c, a2 := fsub 1 al }

/-- Low-pass biquad. -/
def designLp2 (c al : Rat) : RawCoef :=
  { b0 := fdiv (fsub 1 c) 2, b1 := fsub 1 c, b2 := fdiv (fsub 1 c) 2
    a0 := fadd 1 al, a1 := fmul (-2) c, a2 := fsub 1 al }

/-- High-pass biquad. -/
def designHp2 (c al : Rat) : RawCoef :=
  { b0 := fdiv (fadd 1 c) 2, b1 := -(fadd 1 c), b2 := fdiv (fadd 1 c) 2
    a0 := fadd 1 al, a1 := fmul (-2) c, a2 := fsub 1 al }

/-- Low-pass, first order. -/
def designLp1 (k : Rat) : RawCoef := { b0 := k, b1 := k, b2 := 0, a0 := fadd 1 k, a1 := fsub k 1, a2 := 0 }

/-- High-pass, first order. -/
def designHp1 (k : Rat) : RawCoef := { b0 := 1, b1 := -1, b2 := 0, a0 := fadd 1 k, a1 := fsub k 1, a2 := 0 }

/-- Q of pole pair k of a Butterworth filter of order N: 1 / (2 sin((2k − 1)π / (2N))). -/
def butterQ (k n : Nat) : Rat := fdiv 1 (fmul 2 (fsin (fdiv (fmul (2 * k - 1 : Nat) fpi) (2 * n : Nat))))

/-- A Butterworth cascade of order N: for odd N a first-order section, then one biquad for each pole pair in ascending
Q. Q falls as k rises, so the pairs run from k = floor(N/2) down to 1. -/
def butter (low : Bool) (freq order fs : Nat) : List Coef :=
  let w := designW0 freq fs
  let c := fcos w
  let s := fsin w
  let k := ftan (fdiv w 2)
  let first := if order % 2 = 1 then [(if low then designLp1 k else designHp1 k).norm] else []
  first ++ ((List.range (order / 2)).reverse.map fun i =>
    let al := alphaQ s (butterQ (i + 1) order)
    (if low then designLp2 c al else designHp2 c al).norm)

/-- α of a shelf of slope S = q, limited to the steepest slope without overshoot when A ≠ 1. -/
def shelfAlpha (s a q : Rat) : Rat :=
  let u := fadd a (fdiv 1 a)
  let smax := fdiv 1 (fsub 1 (fdiv 2 u))
  let sl := if a = 1 then q else if smax < q then smax else q
  fmul (fdiv s 2) (fsqrt (fadd (fmul u (fsub (fdiv 1 sl) 1)) 2))

/-- One EQ band from its type, frequency, gain and Q words. -/
def eqBand (ty freq gain q fs : Nat) : Coef :=
  let w := designW0 freq fs
  let c := fcos w
  let s := fsin w
  let a := fexp10 (fdiv (mkRat (sw gain) 256) 40)
  let qq := designQ q
  (match ty with
   | 0 => designBell c (alphaQ s qq) a
   | 1 => designLowShelf c (shelfAlpha s a qq) a
   | 2 => designHighShelf c (shelfAlpha s a qq) a
   | _ => designNotch c (alphaQ s qq)).norm

/-- The identity section of a band that is off. -/
def Coef.unit : Coef := { b0 := 2 ^ 40, b1 := 0, b2 := 0, a1 := 0, a2 := 0 }

/-- High-pass stage: words enable, frequency, slope. -/
def hpfBank (fs : Nat) (v : List Nat) : List Coef := butter false (v.getD 1 8000) (v.getD 2 2) fs

/-- Low-pass stage: words enable, frequency, slope. -/
def lpfBank (fs : Nat) (v : List Nat) : List Coef := butter true (v.getD 1 1800000) (v.getD 2 2) fs

/-- EQ stage: the enable word, then enable, type, frequency, gain, Q of each band. -/
def eqBank (fs : Nat) (v : List Nat) : List Coef :=
  (List.range 6).map fun b =>
    let g := fun i => v.getD (1 + 5 * b + i) 0
    if g 0 = 0 then Coef.unit else eqBand (g 1) (g 2) (g 3) (g 4) fs

/-- Side-chain filters: second-order Butterworth sections, Q = 1/√2; a frequency of 0 is off, the identity section, so that
each filter keeps the histories of its own place (log entry 153). -/
def scBank (hp lp fs : Nat) : List Coef :=
  (if hp = 0 then [Coef.unit] else butter false hp 2 fs) ++ (if lp = 0 then [Coef.unit] else butter true lp 2 fs)

/-- rel of R67 in units of 2^-31: exp(−1 / (release_s × fs)) for a release in microseconds. -/
def limRel (us fs : Nat) : Nat :=
  (ratRound (fexp (fdiv (-1) (fmul (fdiv us 1000000) fs))) 31).toNat

/-- The weight 1 − exp(−1 / (τ fs)) of R500 in fixed point, τ in microseconds. -/
def dynWeight (us fs : Nat) : Int :=
  Fxp.one - Fxp.exp (-(ofDiv 1000000 ((us : Int) * (fs : Int))))

end Sys2Proof.Machine
end

