-- ==== Sys2Proof/Machine/Chain.lean ====
section
/-! DEFINITION. Sys2Proof/Machine/Chain.lean: the processing chains of strips and busses, sample by sample
(R50–R63, R500). A pair of linked objects is computed sample by sample together, so that both detectors meet
(R52). -/
namespace Sys2Proof.Machine

open Fmt

/-- What a chain reads at a stamp: the engine rate, B, the value in force of one of the object's fields, the changes
that commit on the stamp (field, cf_len, dx_len), the same of the object that governs its dynamics (R52), the Mere's
T_zc and L_ramp, and the effect slots: declared latency and output samples by slot × 8 + port. -/
structure Env where
  fs    : Nat
  B     : Nat
  v     : Nat → Nat → Nat
  chg   : Nat → List (Nat × Nat × Nat)
  vD    : Nat → Nat → Nat
  chgD  : Nat → List (Nat × Nat × Nat)
  tzc   : Nat → Nat
  lramp : Nat → Nat
  lat   : Nat → Nat
  slot  : Nat → Nat → Int

/-- What one sample of a chain carries along: the chain's state, saturations, superseded changes. -/
structure Acc where
  rt    : ChainRt
  sat   : Nat
  sup   : Nat

/-- The change on a stamp that touches one of the fields of a stage, with its crossfade length. -/
def touched (cs : List (Nat × Nat × Nat)) (fields : List Nat) (dx : Bool) : Option Nat :=
  (cs.find? fun c => fields.contains c.1).map fun c => if dx then c.2.2 else c.2.1

/-- A CF stage takes the commit of stamp n, after a crossfade that ended (R47). -/
def Cf.take (f : Cf) (vals : List Nat) (len : Option Nat) (n : Nat) : Cf × Nat :=
  let g := f.advance n
  match len with
  | none => (g, 0)
  | some l => let (x, s) := g.xf.commit n vals l; ({ g with xf := x }, b2n s)

/-- A crossfading stage takes the commit of stamp n, after a crossfade that ended (R47). -/
def Xf.take (x : Xf) (vals : List Nat) (len : Option Nat) (n : Nat) : Xf × Nat :=
  match len with
  | none => (x.advance n, 0)
  | some l => let (y, s) := (x.advance n).commit n vals l; (y, b2n s)

/-- A ZC gain stage on one sample (R44): commit, step or ramp, then the rounded product, saturated to E48. -/
def zcStage (z : Zc) (touch : Bool) (target : Int) (x : Int) (n tzc lramp : Nat) : Zc × Int × Nat :=
  let z1 := if touch then z.commit n target else z
  let z2 := z1.sample x n tzc lramp
  let p := gmul x (z2.applied n)
  (z2, satE48 p, b2n (overS 48 p))

/-! ### Dynamics (R500) -/

/-- 20 log10 of a positive fixed-point level. -/
def dbOf (lin : Int) : Int := 20 * Fxp.log10 lin

/-- The window of the RMS detector: round(0.005 × fs) samples. -/
def rmsN (fs : Nat) : Nat := (5 * fs + 500) / 1000

/-- The detector level, as a fixed-point linear value: the magnitude, or the root of the mean of the squares. -/
def detector (d : Dyn) (rms : Bool) (v : Int) (fs : Nat) : Dyn × Int :=
  let w := (v :: d.window).take (rmsN fs)
  let d' := { d with window := w }
  if rms then
    let sum := w.foldl (fun a y => a + y * y) 0
    (d', Fxp.sqrt (Fxp.ofDiv sum ((rmsN fs : Int) * 2 ^ 80)))
  else (d', Fxp.ofDiv (v.natAbs : Int) (2 ^ 40))

/-- A dB code word in fixed-point dB. -/
def fxDb (w : Nat) : Int := Fxp.ofDiv (sw w) 256

/-- The compressor's static curve: target gain in dB for a level. -/
def compTarget (thr knee ratio : Nat) (lin : Int) : Int :=
  if lin ≤ 0 then 0 else
    let o := dbOf lin - fxDb thr
    let w := fxDb knee
    let k := if ratio = 0 then -Fxp.one else Fxp.ofDiv 100 (ratio : Int) - Fxp.one
    if 2 * o < -w then 0
    else if 2 * o ≤ w then
      (if w = 0 then 0 else Fxp.div (Fxp.mul k (Fxp.mul (o + w / 2) (o + w / 2))) (2 * w))
    else Fxp.mul k o

/-- One-pole ballistics: the gain moves to its target by the weight 1 − exp(−1 / (τ fs)). -/
def follow (g target : Int) (us fs : Nat) : Int := g + Fxp.mul (target - g) (dynWeight us fs)

/-- The compressor's gain computer on one sample. -/
def compGain (vD : Nat → Nat → Nat) (d : Dyn) (lin : Int) (n fs : Nat) : Dyn :=
  let t := compTarget (vD 0x61 n) (vD 0x65 n) (vD 0x62 n) lin
  { d with gdb := follow d.gdb t (if t < d.gdb then vD 0x63 n else vD 0x64 n) fs }

/-- The gate's or expander's gain computer on one sample: opening above the threshold, the hold, the closed gain or the
expansion curve, the ballistics. A level at the threshold counts as below it (log entry 177). At a ratio of 1 and a level of −∞ the curve is
0 × −∞: a free value within the range (log entry 152). -/
def gateGain (vD : Nat → Nat → Nat) (d : Dyn) (lin : Int) (n fs : Nat) : Dyn :=
  let thr := fxDb (vD 0x12 n)
  let range := Fxp.ofDiv (vD 0x13 n : Int) 256
  let above := decide (0 < lin) && decide (thr < dbOf lin)
  let d1 : Dyn :=
    if above then { d with isOpen := true, hold := vD 0x16 n * fs / 1000000 }
    else if d.isOpen ∧ d.hold ≠ 0 then { d with hold := d.hold - 1 }
    else { d with isOpen := false }
  let t :=
    if vD 0x11 n = 0 then (if d1.isOpen then 0 else -range)
    else if lin ≤ 0 then (if vD 0x14 n = 100 then clampI (-range) 0 (Config.expandZero range) else -range)
    else
      let o := dbOf lin - thr
      if o < 0 then
        let e := Fxp.mul (Fxp.ofDiv (vD 0x14 n : Int) 100 - Fxp.one) o
        if e < -range then -range else e
      else 0
  { d1 with gdb := follow d1.gdb t (if d1.gdb < t then vD 0x15 n else vD 0x17 n) fs }

/-- R500: a value within 0.001 dB of 2^27 × 10^(g / 20) × makeup, rounded to G32. Which value of that band, the spec leaves
to the module, whose bits depend only on its inputs (log entry 4): it is a free value of the two gains, held inside the band. -/
def dynG32 (gdb makeup : Int) : Int :=
  let lin := fun (e : Int) => Fxp.exp10 ((gdb + e) / 20) * makeup
  let m := Fxp.one / 1000
  clampI (Fxp.roundScaled (lin (-m)) 0) (clampI (minS 32) (maxS 32) (Fxp.roundScaled (lin m) 0))
    (Config.dynGain gdb makeup)

/-- The side-chain signal: the key or the stage's input through those side-chain filters that are on; the third result counts saturated
sections (R498). -/
def sideChain (d : Dyn) (hp lp fs : Nat) (x : Int) : Dyn × Int × Nat :=
  let (h, y, k) := cascade (scBank hp lp fs) d.sc x
  ({ d with sc := h }, y, k)

/-! ### The strip up to the gate, the gate, the compressor, and the rest -/

/-- Polarity as a gain. -/
def polGain (w : Nat) : Int := if w = 0 then unity else -unity

/-- The EQ fields in the order of `eqDefault`. -/
def eqFields : List Nat :=
  0x20 :: ((List.range 6).flatMap fun b => (List.range 5).map fun i => 0x28 + 8 * b + i)

/-- R50, orders 2 to 6: trim, polarity, delay, high-pass, low-pass. The input is the input patch output of stamp n. -/
def stripA (e : Env) (a : Acc) (n : Nat) (x0 : Int) : Acc × Int × Int :=
  let cs := e.chg n
  let tz := e.tzc n
  let lr := e.lramp n
  let (trim, x1, s1) := zcStage a.rt.trim (touched cs [0] false).isSome (gainOf (e.v 0 n)) x0 n tz lr
  let (pol, x2, s2) := zcStage a.rt.pol (touched cs [1] false).isSome (polGain (e.v 1 n)) x1 n tz lr
  let (dl, p1) := a.rt.delay.take [e.v 2 n + e.v 4 n] (touched cs [2, 4] true) n
  let line := delayTrim dl (linePush a.rt.line x2 (2 * e.fs)) n
  let x3 := delayRead dl line n
  let (hp, p2) := a.rt.hpf.take [e.v 8 n, e.v 9 n, e.v 0xA n] (touched cs [8, 9, 0xA] false) n
  let (hpf, x4, s3) := hp.sample (hpfBank e.fs) x3 n
  let (lp, p3) := a.rt.lpf.take [e.v 0xC n, e.v 0xD n, e.v 0xE n] (touched cs [0xC, 0xD, 0xE] false) n
  let (lpf, x5, s4) := lp.sample (lpfBank e.fs) x4 n
  ({ a with
      rt := { a.rt with trim := trim, pol := pol, delay := dl, line := line, hpf := hpf, lpf := lpf }
      sat := a.sat + s1 + s2 + s3 + s4, sup := a.sup + p1 + p2 + p3 }, x1, x5)

/-- The gate's detector level on one sample; `key` is the key signal or none. -/
def gateLevel (e : Env) (a : Acc) (n : Nat) (x : Int) (key : Option Int) : Acc × Int :=
  let (d1, v, k) := sideChain a.rt.gateD (e.vD 0x18 n) (e.vD 0x19 n) e.fs (key.getD x)
  let (d2, l) := detector d1 false v e.fs
  ({ a with rt := { a.rt with gateD := d2 }, sat := a.sat + k }, l)

/-- R50, orders 7 and 8: the gate with its (possibly linked) level, then the EQ. The first result sample is tap 0 before
its alignment, the second the EQ's output. Disabled stages keep computing and their saturations count (R29, R45; log entry 161). -/
def stripB (e : Env) (a : Acc) (n : Nat) (x lin : Int) : Acc × Int × Int :=
  let d := gateGain e.vD a.rt.gateD lin n e.fs
  let p := gmul x (dynG32 d.gdb unity)
  let (g1, p1) := a.rt.gate.take [e.vD 0x10 n] (touched (e.chgD n) [0x10] false) n
  let (gate, y) := g1.switch n x (satE48 p)
  let (q1, p2) := a.rt.eq.take (eqFields.map fun f => e.v f n) (touched (e.chg n) eqFields false) n
  let (eq, z, s2) := q1.sample (eqBank e.fs) y n
  ({ a with
      rt := { a.rt with gate := gate, gateD := d, eq := eq }
      sat := a.sat + b2n (overS 48 p) + s2, sup := a.sup + p1 + p2 }, y, z)

/-- The compressor's detector level on one sample. -/
def compLevel (e : Env) (a : Acc) (n : Nat) (x : Int) (key : Option Int) : Acc × Int :=
  let (d1, v, k) := sideChain a.rt.compD (e.vD 0x69 n) (e.vD 0x6A n) e.fs (key.getD x)
  let (d2, l) := detector d1 (e.vD 0x68 n ≠ 0) v e.fs
  ({ a with rt := { a.rt with compD := d2 }, sat := a.sat + k }, l)

/-- The compressor (order 9): the gain computed from the level of the signal x applies to the signal delayed by the
look-ahead (R55). -/
def compStage (e : Env) (a : Acc) (n : Nat) (x lin : Int) : Acc × Int :=
  let (lk, p0) := a.rt.look.take [e.vD 0x67 n * e.B] (touched (e.chgD n) [0x67] true) n
  let lookL := delayTrim lk (linePush a.rt.lookL x (2 * e.B)) n
  let xd := delayRead lk lookL n
  let d := compGain e.vD a.rt.compD lin n e.fs
  let mk0 := if (touched (e.chgD n) [0x66] false).isSome then a.rt.makeup.commit n (gainOf (e.vD 0x66 n)) else a.rt.makeup
  let mk := mk0.sample xd n (e.tzc n) (e.lramp n)
  let p := gmul xd (dynG32 d.gdb (mk.applied n))
  let (c1, p1) := a.rt.comp.take [e.vD 0x60 n] (touched (e.chgD n) [0x60] false) n
  let (comp, y) := c1.switch n xd (satE48 p)
  ({ a with
      rt := { a.rt with look := lk, lookL := lookL, compD := d, makeup := mk, comp := comp }
      sat := a.sat + b2n (overS 48 p), sup := a.sup + p0 + p1 }, y)

/-- Latency an insert adds: B and the declared latency of its slot's module; none adds nothing (R57). -/
def insLat (e : Env) (v : List Nat) : Nat := if v.headD 0xFFFF = 0xFFFF then 0 else e.B + e.lat (v.headD 0)

/-- R46, R57: the delay that an insert's latency makes, crossfading when the assignment changes. -/
def insXf (e : Env) (x : Xf) : Xf :=
  { cur := [insLat e x.cur], run := x.run.map fun r => { r with new := [insLat e r.new] }, pend := none }

/-- An insert's port takes a new value at once (R48). -/
def Xf.setPort (x : Xf) (p : Nat) : Xf :=
  let f := fun (v : List Nat) => [v.headD 0xFFFF, p]
  { cur := f x.cur, run := x.run.map (fun r => { r with new := f r.new }), pend := x.pend.map (fun q => (f q.1, q.2)) }

/-- The insert assignment on stamp n: a change of the slot is a DX transition; the port of a slot that does not change takes its new
value at once (R48, R57). -/
def insertTake (e : Env) (x0 : Xf) (n : Nat) : Xf × Nat :=
  let x := x0.advance n
  let slot := touched (e.chg n) [0x70] true
  let moves := slot.isSome && decide (x.target.headD 0xFFFF ≠ e.v 0x70 n)
  let y := if (touched (e.chg n) [0x72] true).isSome && !moves then x.setPort (e.v 0x72 n) else x
  y.take [e.v 0x70 n, e.v 0x72 n] slot n

/-- The insert (order 10): the slot's return, or the dry signal delayed by the same length (R57). -/
def insertStage (e : Env) (a : Acc) (n : Nat) (x : Int) : Acc × Int :=
  let (ins, p0) := insertTake e a.rt.ins n
  let lat := insXf e ins
  let dryL := delayTrim lat (linePush a.rt.dryL x (2 * e.fs)) n
  let dry := delayRead lat dryL n
  let wetOf := fun (v : List Nat) =>
    if v.headD 0xFFFF = 0xFFFF then x else e.slot (v.headD 0 * 8 + v.getD 1 0) n
  let wet := ins.mix n (wetOf ins.cur) (wetOf ins.target)
  let (i1, p1) := a.rt.insEn.take [e.v 0x71 n] (touched (e.chg n) [0x71] false) n
  let (insEn, y) := i1.switch n dry wet
  let out := if ins.run.isNone ∧ ins.cur.headD 0xFFFF = 0xFFFF then x else y
  ({ a with rt := { a.rt with ins := ins, dryL := dryL, insEn := insEn }, sup := a.sup + p0 + p1 }, out)

/-- Fader and mute (orders 11 and 12). -/
def faderMute (e : Env) (a : Acc) (n : Nat) (x : Int) : Acc × Int × Int :=
  let cs := e.chg n
  let (fd, y, s1) := zcStage a.rt.fader (touched cs [0x78] false).isSome (gainOf (e.v 0x78 n)) x n (e.tzc n) (e.lramp n)
  let (mu, z, s2) :=
    zcStage a.rt.mute (touched cs [0x79] false).isSome (if e.v 0x79 n = 0 then unity else 0) y n (e.tzc n) (e.lramp n)
  ({ a with rt := { a.rt with fader := fd, mute := mu }, sat := a.sat + s1 + s2 }, y, z)

/-- The signals of one strip on one sample. -/
structure StripOut where
  trim : Int
  tap0 : Int
  send : Int
  tap1 : Int
  tap2 : Int
  tap3 : Int

/-- Orders 9 to 12 and the alignment of tap 0 (R51). `y` is the gate's output, `z` the EQ's. -/
def stripC (e : Env) (a : Acc) (n : Nat) (x1 y z lin : Int) : Acc × StripOut :=
  let (a1, c) := compStage e a n z lin
  let t0L := delayTrim a1.rt.look (linePush a1.rt.tap0L y (2 * e.B)) n
  let t0 := delayRead a1.rt.look t0L n
  let (a2, i) := insertStage e a1 n c
  let lat := insXf e a2.rt.ins
  let t0M := delayTrim lat (linePush a2.rt.tap0M t0 (2 * e.fs)) n
  let tap0 := delayRead lat t0M n
  let (a3, f, m) := faderMute e a2 n i
  ({ a3 with rt := { a3.rt with tap0L := t0L, tap0M := t0M } },
   { trim := x1, tap0 := tap0, send := c, tap1 := i, tap2 := f, tap3 := m })

/-- R52, R62: in a linked pair the even object's gain governs both, so the odd one starts a sample from its gains. -/
def Acc.following (a lead : Acc) (link : Bool) : Acc :=
  let f := fun (d l : Dyn) => ({ d with gdb := l.gdb, isOpen := l.isOpen, hold := l.hold } : Dyn)
  if link then
    { a with rt := { a.rt with
        gateD := f a.rt.gateD lead.rt.gateD, compD := f a.rt.compD lead.rt.compD, limG := lead.rt.limG } }
  else a

/-- One sample of a pair of strips (R52): the levels of a linked pair are the larger of the two. -/
def stripPair (e0 e1 : Env) (link : Bool) (a0 a1 : Acc) (n : Nat) (x0 x1 : Int)
    (gk0 gk1 ck0 ck1 : Option Int) : (Acc × StripOut) × (Acc × StripOut) :=
  let (b0, t0, y0) := stripA e0 a0 n x0
  let (b1, t1, y1) := stripA e1 (a1.following a0 link) n x1
  let (c0, l0) := gateLevel e0 b0 n y0 gk0
  let (c1, l1) := gateLevel e1 b1 n y1 gk1
  let lg := max l0 l1
  let (d0, g0, z0) := stripB e0 c0 n y0 (if link then lg else l0)
  let (d1, g1, z1) := stripB e1 c1 n y1 (if link then lg else l1)
  let (f0, m0) := compLevel e0 d0 n z0 ck0
  let (f1, m1) := compLevel e1 d1 n z1 ck1
  let lc := max m0 m1
  let (h0, o0) := stripC e0 f0 n t0 g0 z0 (if link then lc else m0)
  let (h1, o1) := stripC e1 f1 n t1 g1 z1 (if link then lc else m1)
  ((h0, o0), (h1, o1))

/-! ### The bus -/

/-- One in the limiters' formats: 2^31. -/
def limOne : Nat := 0x80000000

/-- R67: need of a sample for a threshold t. -/
def limNeed (t : Nat) (x : Int) : Nat := if x.natAbs ≤ t then limOne else limOne * t / x.natAbs

/-- R67: the gain recovering from earlier reduction. -/
def limRecover (g rel : Nat) : Nat := limOne - (limOne - g) * rel / limOne

/-- The linear threshold of a limiter: the G32 value shifted left by 13. -/
def limT (w : Nat) : Nat := ((gainOf w) * 2 ^ 13).toNat

/-- y = x × g / one, towards zero. -/
def limApply (x : Int) (g : Nat) : Int := trunc0 (x * (g : Int)) (limOne : Int)

/-- The signals of one bus on one sample. -/
structure BusOut where
  entry : Int
  send  : Int
  post  : Int

/-- R60, R61: entry, trim, EQ. -/
def busA (e : Env) (a : Acc) (n : Nat) (sum : Int) : Acc × Int × Int :=
  let en := satE48 sum
  let cs := e.chg n
  let (trim, x1, s1) :=
    zcStage a.rt.trim (touched cs [0] false).isSome (gainOf (e.v 0 n)) en n (e.tzc n) (e.lramp n)
  let (q1, p2) := a.rt.eq.take (eqFields.map fun f => e.v f n) (touched cs eqFields false) n
  let (eq, z, s2) := q1.sample (eqBank e.fs) x1 n
  ({ a with rt := { a.rt with trim := trim, eq := eq }
            sat := a.sat + b2n (overS 48 sum) + s1 + s2, sup := a.sup + p2 }, en, z)

/-- R63: the bus limiter: the smaller of what the sample needs and the recovering gain. -/
def busLim (e : Env) (a : Acc) (n : Nat) (x : Int) (need : Nat) : Acc × Int :=
  let g := min need (limRecover a.rt.limG (limRel (e.vD 0x6E n) e.fs))
  let (l1, p1) := a.rt.lim.take [e.vD 0x6C n] (touched (e.chgD n) [0x6C] false) n
  let (lim, y) := l1.switch n x (limApply x g)
  ({ a with rt := { a.rt with lim := lim, limG := g }, sup := a.sup + p1 }, y)

/-- R61: delay, fader, mute, insert. -/
def busC (e : Env) (a : Acc) (n : Nat) (en x : Int) : Acc × BusOut :=
  let (dl, p1) := a.rt.delay.take [e.v 2 n + e.v 4 n] (touched (e.chg n) [2, 4] true) n
  let line := delayTrim dl (linePush a.rt.line x (2 * e.fs)) n
  let x3 := delayRead dl line n
  let a1 := { a with rt := { a.rt with delay := dl, line := line }, sup := a.sup + p1 }
  let (a2, _, m) := faderMute e a1 n x3
  let (a3, y) := insertStage e a2 n m
  (a3, { entry := en, send := m, post := y })

/-- One sample of a pair of busses; a linked pair shares the compressor's level and the limiter's need (R52, R62). -/
def busPair (e0 e1 : Env) (link : Bool) (a0 a1 : Acc) (n : Nat) (s0 s1 : Int) (ck0 ck1 : Option Int) :
    (Acc × BusOut) × (Acc × BusOut) :=
  let (b0, en0, z0) := busA e0 a0 n s0
  let (b1, en1, z1) := busA e1 (a1.following a0 link) n s1
  let (c0, m0) := compLevel e0 b0 n z0 ck0
  let (c1, m1) := compLevel e1 b1 n z1 ck1
  let lc := max m0 m1
  let (d0, y0) := compStage e0 c0 n z0 (if link then lc else m0)
  let (d1, y1) := compStage e1 c1 n z1 (if link then lc else m1)
  let n0 := limNeed (limT (e0.vD 0x6D n)) y0
  let n1 := limNeed (limT (e1.vD 0x6D n)) y1
  let (f0, l0) := busLim e0 d0 n y0 (if link then min n0 n1 else n0)
  let (f1, l1) := busLim e1 d1 n y1 (if link then min n0 n1 else n1)
  let (h0, o0) := busC e0 f0 n en0 l0
  let (h1, o1) := busC e1 f1 n en1 l1
  ((h0, o0), (h1, o1))

/-! ### The output stage -/

/-- R69: one step of the generator. -/
def xorshift (x0 : Nat) : Nat :=
  let x1 := x0 ^^^ (x0 * 2 ^ 13 % 2 ^ 32)
  let x2 := x1 ^^^ (x1 / 2 ^ 17)
  x2 ^^^ (x2 * 2 ^ 5 % 2 ^ 32)

/-- R69: the seed of output entry n. -/
def ditherSeed (dev n : Nat) : Nat :=
  let x := dev ^^^ (n * 0x9E3779B9 % 2 ^ 32)
  if x = 0 then 1 else x

/-- R69: the dither value of one sample and the state after it. -/
def ditherStep (st width : Nat) : Nat × Int :=
  let u1 := xorshift st
  let u2 := xorshift u1
  let s := if width = 0 then 9 else if width = 1 then 17 else 25
  (u2, asr ((u1 : Int) - (u2 : Int)) (32 - s))

/-- Bits an output width drops from E48 (32, 24 and 16 bit words have LSBs of 2^-31, 2^-23, 2^-15). -/
def widthDrop (width : Nat) : Nat := if width = 0 then 9 else if width = 1 then 17 else 25

/-- R70: truncation towards −∞ to the output width, saturated to −1.0 … 1 − 1 LSB; the result is a left-justified 32-bit
sample. The second result says that the sample saturated. -/
def outTrunc (y : Int) (width : Nat) : Int × Bool :=
  let k := widthDrop width
  let q := asr y k
  let m := 41 - k
  (satS m q * 2 ^ (k - 9), overS m q)

/-- R67: h at one sample from the needs of it and the samples after it. -/
def limH (b : Nat) (needs : List Nat) : Nat :=
  ((List.range b).map fun k =>
    let nd := needs.getD k limOne
    nd + (limOne - nd) * k / b).foldl min limOne

end Sys2Proof.Machine
end

