-- ==== Sys2Proof/Machine/Mere.lean ====
section
/-! DEFINITION. Sys2Proof/Machine/Mere.lean: the stepping of matrix nodes (R86–R93, R501) and the Mere's sums (R84),
one sample at a time. -/
namespace Sys2Proof.Machine

open Fmt

/-- Source of a node key. -/
def keySrc (k : Nat) : Nat := k % 4096
/-- Destination of a node key. -/
def keyDst (k : Nat) : Nat := k / 4096

/-- R86: the group of a source and a tap: a strip has one group per tap, any other source one group in all. -/
def groupKey (isStrip : Bool) (src tap : Nat) : Nat := if isStrip then src * 4 + tap else src * 4

/-- The target a node moves to: 0 during a tap handover, its committed target otherwise (R88). -/
def Node.goal (x : Node) : Int := if x.tap ≠ x.ntap then 0 else x.tgt

/-- R88: the gain a node applies on sample n. -/
def Node.applied (x : Node) (g : Group) (n : Nat) : Int :=
  match x.st, g.ramp with
  | .ramp, some (tr, L) => rampGain x.cur x.goal tr L n
  | _, _ => x.cur

/-- The node's step: it applies its goal and becomes idle (R89). -/
def Node.step (x : Node) : Node := { x with cur := x.goal, st := .idle, hold := false }

/-- Whether a node waits for a zero crossing. -/
def Node.waits (x : Node) : Bool := decide (x.st = .pending) || decide (x.st = .queued)

/-- A group with a pending period that starts at n if it has none (R89). -/
def Group.open (g : Group) (n : Nat) : Group := { g with tp := some (g.tp.getD n) }

/-- R89–R93: the committed target and tap of one node at sample n. `prev` is the gain the node applied at n − 1. The second
result says that the node is pending in the group of its tap in use. -/
def Node.commit (x : Node) (handover : Bool) (prev t : Int) (tap : Nat) : Node × Bool :=
  if ¬ handover then
    -- R93: no handover; then R89 and R91 for the target
    let y := { x with tap := tap, ntap := tap }
    if t = x.tgt then (y, y.waits)
    else if t = prev then ({ y with cur := t, tgt := t, st := .idle, hold := false }, false)
    else
      match x.st with
      | .idle => ({ y with tgt := t, st := .pending }, true)
      | .ramp => ({ y with cur := prev, tgt := t, st := .pending }, true)
      | _ => ({ y with tgt := t }, true)
  else if tap = x.tap then
    if x.ntap = x.tap then
      -- no tap change
      if t = x.tgt then (x, x.waits)
      else if t = prev then ({ x with cur := t, tgt := t, st := .idle, hold := false }, false)
      else
        match x.st with
        | .idle => ({ x with tgt := t, st := .pending }, true)
        | .ramp => ({ x with cur := prev, tgt := t, st := .pending }, true)
        | _ => ({ x with tgt := t }, true)
    else
      -- R92: the handover ends, and the node moves to its target on its old tap
      if t = prev then ({ x with ntap := tap, cur := t, tgt := t, st := .idle, hold := false }, false)
      else ({ x with ntap := tap, cur := prev, tgt := t, st := .pending }, true)
  else if tap = x.ntap ∧ t = x.tgt then (x, x.waits)
  else if prev = 0 then
    -- R92: a silent node switches at once
    if t = 0 then ({ x with tap := tap, ntap := tap, cur := 0, tgt := 0, st := .idle, hold := false }, false)
    else ({ x with tap := tap, ntap := tap, cur := 0, tgt := t, st := .pending }, true)
  else if x.ntap ≠ x.tap then
    -- a new commit during a handover
    ({ x with ntap := tap, tgt := t }, x.waits)
  else
    -- R92: a handover begins: the node steps to 0 in its old group; a ramp that already leads to 0 goes on (R89)
    match x.st with
    | .idle => ({ x with ntap := tap, tgt := t, st := .pending }, true)
    | .ramp =>
      if x.tgt = 0 then ({ x with ntap := tap, tgt := t }, false)
      else ({ x with ntap := tap, cur := prev, tgt := t, st := .pending }, true)
    | _ => ({ x with ntap := tap, tgt := t }, true)

/-- What the stepping reads at a stamp: the record of an unlisted node, T_zc and L_ramp, whether a node's source changes tap
by a handover (R92, R93), the group of a node, the signal of a group on the stamp and on the sample before, and what a node hears: while a
map crossfade between a strip and another object runs, each tap has a signal of its own (R79). -/
structure StepEnv where
  zero     : Node
  tzc      : Nat
  lramp    : Nat
  handover : Nat → Bool
  gk       : Nat → Node → Nat
  sig      : Nat → Int
  prev     : Nat → Int
  hear     : Nat → Node → Int

/-- One group of the table. -/
def StepG.group (m : StepG) (gk : Nat) : Group := Cells.get Group.idle m.groups gk

/-- The node memory with one record written. -/
def StepG.setNode (e : StepEnv) (m : StepG) (k : Nat) (x : Node) : StepG := { m with nodes := Cells.put e.zero m.nodes k x }

/-- The group table with one entry written. -/
def StepG.setGroup (m : StepG) (gk : Nat) (g : Group) : StepG :=
  { m with groups := Cells.put Group.idle m.groups gk g }

/-- Nodes of a group that satisfy a test. -/
def StepG.inGroup (e : StepEnv) (m : StepG) (gk : Nat) (p : Node → Bool) : List Nat :=
  (m.nodes.filter fun c => decide (e.gk c.1 c.2 = gk) && p c.2).map (·.1)

/-- Apply a change to every listed node of a list of keys. -/
def StepG.mapNodes (e : StepEnv) (m : StepG) (ks : List Nat) (f : Node → Node) : StepG :=
  ks.foldl (fun a k => a.setNode e k (f (Cells.get e.zero a.nodes k))) m

/-- R90, R501: nodes whose ramp has reached its target by sample n become idle. -/
def StepG.endRamp (e : StepEnv) (n : Nat) (m : StepG) (gk : Nat) : StepG :=
  let g := m.group gk
  match g.ramp with
  | some (tr, L) =>
    if tr + L ≤ n then
      (m.mapNodes e (m.inGroup e gk fun x => decide (x.st = .ramp)) Node.step).setGroup gk { g with ramp := none }
    else m
  | none => m

/-- R92: on the sample after a node first applies 0, its tap in use takes the committed tap. The second result says that the node
becomes pending on this sample. -/
def StepG.tapSwitch (e : StepEnv) (n : Nat) (m : StepG) (k : Nat) : StepG × Bool :=
  let x := Cells.get e.zero m.nodes k
  if x.tap ≠ x.ntap ∧ x.st = .idle ∧ x.cur = 0 then
    let y := { x with tap := x.ntap }
    if x.tgt = 0 then (m.setNode e k y, false)
    else
      let gk := e.gk k y
      ((m.setNode e k { y with st := .pending }).setGroup gk ((m.group gk).open n), true)
  else (m, false)

/-- R501: a pending period or a ramp that no node is in any more is over. -/
def StepG.tidy (e : StepEnv) (m : StepG) (gk : Nat) : StepG :=
  let g := m.group gk
  let p := (m.inGroup e gk fun x => decide (x.st = .pending)).isEmpty
  let r := (m.inGroup e gk fun x => decide (x.st = .ramp)).isEmpty
  m.setGroup gk { tp := if p then none else g.tp, ramp := if r then none else g.ramp }

/-- R91, order 2: one node's commit at sample n. Nodes that become pending now are returned, for the timeout row of
R91. -/
def StepG.commitNode (e : StepEnv) (n : Nat) (m : StepG) (k : Nat) (t : Int) (tap : Nat) : StepG × Bool :=
  let x := Cells.get e.zero m.nodes k
  let g0 := e.gk k x
  let prev := x.applied (m.group g0) (n - 1)
  let (y, pend) := x.commit (e.handover k) prev t tap
  let gk := e.gk k y
  let m1 := m.setNode e k y
  let fresh := pend && decide (y.st = .pending) && !(decide (x.st = .pending) && decide (g0 = gk))
  let m2 := if fresh then m1.setGroup gk ((m1.group gk).open n) else m1
  (m2.tidy e g0, fresh)

/-- R91, order 3: a zero crossing steps every pending or queued node of the group. -/
def StepG.crossing (e : StepEnv) (m : StepG) (gk : Nat) : StepG :=
  ((m.mapNodes e (m.inGroup e gk Node.waits) Node.step).tidy e gk)

/-- R91, orders 4 and 5, R90: the timeout of a group at sample n; `fresh` are the nodes that became pending on this
sample, by a commit or a tap switch: they open the next pending period (log entry 83). -/
def StepG.timeout (e : StepEnv) (n : Nat) (fresh : List Nat) (m : StepG) (gk : Nat) : StepG :=
  let g := m.group gk
  match g.tp with
  | none => m
  | some p =>
    if n < p + e.tzc then m
    else
      let late := fresh.filter fun k => decide (e.gk k (Cells.get e.zero m.nodes k) = gk)
      let due := (m.inGroup e gk fun x => decide (x.st = .pending) && !x.hold).filter fun k => !(late.contains k)
      if due.isEmpty then (if late.isEmpty then m else m.setGroup gk { g with tp := some n })
      else
        let tp' := if late.isEmpty then none else some n
        match g.ramp with
        | some (tr, _) =>
          let st := if tr = n then NodeSt.ramp else NodeSt.queued
          ((m.mapNodes e due fun x => { x with st := st }).setGroup gk { g with tp := tp' }).tidy e gk
        | none =>
          ((m.mapNodes e due fun x => { x with st := .ramp }).setGroup gk { tp := tp', ramp := some (n, e.lramp) }).tidy e gk

/-- R90: queued nodes start their own ramp on the first sample at which no ramp runs in the group. -/
def StepG.startQueued (e : StepEnv) (n : Nat) (m : StepG) (gk : Nat) : StepG :=
  let g := m.group gk
  let q := m.inGroup e gk fun x => decide (x.st = .queued)
  if g.ramp.isNone ∧ ¬ q.isEmpty then
    (m.mapNodes e q fun x => { x with st := .ramp }).setGroup gk { g with ramp := some (n, e.lramp) }
  else m

/-- The groups that have something to do: those with a pending period or a ramp, and those of nodes that wait. -/
def StepG.busy (e : StepEnv) (m : StepG) : List Nat :=
  (m.groups.map (·.1) ++ (m.nodes.filter (fun c => c.2.waits)).map (fun c => e.gk c.1 c.2)).eraseDups

/-- R126: where two commits of one sample write one node, the later one alone acts. -/
def lastWrites : List (Nat × Int × Nat) → List (Nat × Int × Nat)
  | [] => []
  | q :: r => if r.any (fun p => decide (p.1 = q.1)) then lastWrites r else q :: lastWrites r

/-- The tap switches of a sample; the nodes that become pending are collected. -/
def StepG.tapSwitches (e : StepEnv) (n : Nat) (m : StepG) : StepG × List Nat :=
  (m.nodes.map (·.1)).foldl (fun (a : StepG × List Nat) k =>
    let (m', f) := a.1.tapSwitch e n k
    (m', if f then k :: a.2 else a.2)) (m, [])

/-- The commits of a sample: every node of the lists, in order; the fresh ones are collected. -/
def StepG.commits (e : StepEnv) (n : Nat) (m : StepG) (fresh : List Nat) (ns : List (Nat × Int × Nat)) : StepG × List Nat :=
  (lastWrites ns).foldl (fun (a : StepG × List Nat) q =>
    let (m', f) := a.1.commitNode e n q.1 q.2.1 q.2.2
    (m', if f then q.1 :: a.2 else a.2)) (m, fresh)

/-- Whether the group's signal crosses zero at this sample. -/
def StepEnv.crossed (e : StepEnv) (gk : Nat) : Bool := crosses (e.prev gk) (e.sig gk)

/-- R91: one sample of the stepping, in its order: ended ramps, tap switches, commits, zero crossings, ramps of queued nodes
and timeouts. -/
def StepG.sample (e : StepEnv) (n : Nat) (ns : List (Nat × Int × Nat)) (m : StepG) : StepG :=
  let m1 := (m.busy e).foldl (fun a gk => a.endRamp e n gk) m
  let (m2, sw) := m1.tapSwitches e n
  let (m3, fresh) := m2.commits e n sw ns
  let m4 := (m3.busy e).foldl (fun a gk => if e.crossed gk then a.crossing e gk else a) m3
  let m5 := (m4.busy e).foldl (fun a gk => (a.startQueued e n gk).timeout e n fresh gk) m4
  m5

/-- R84: the sum of one destination on one sample: every product rounded, added exactly. -/
def StepG.sum (e : StepEnv) (n : Nat) (m : StepG) (dst : Nat → Nat) (d : Nat) : Int :=
  m.nodes.foldl (fun a c =>
    if dst c.1 = d then
      let gk := e.gk c.1 c.2
      let g := c.2.applied (m.group gk) n
      if g = 0 then a else a + gmul (e.hear c.1 c.2) g
    else a) 0

end Sys2Proof.Machine
end

