-- ==== Sys2Proof/Machine/TarnArith.lean ====
section
/-! DEFINITION. Sys2Proof/Machine/TarnArith.lean: the arithmetic of the Tarn engine: conversions between 48-bit words and
accumulators (R164, R165), the MAC units (R162, R163), the ALU and its flags (R175), the nonlinear unit (R176), address
arithmetic (R167, R168). -/
namespace Sys2Proof.Machine.Tarn

open Fmt

/-! ### Status register fields (R161) -/

def bC : Nat := 0
def bV : Nat := 1
def bZ : Nat := 2
def bN : Nat := 3
def bSV : Nat := 4
def bAV : Nat := 5
def bEU : Nat := 6

/-- One flag of SR. -/
def flag (sr : Word) (i : Nat) : Bool := sr.getLsbD i

/-- SR with one flag written. -/
def setFlag (sr : Word) (i : Nat) (b : Bool) : Word :=
  if b then sr ||| (1#32 <<< i) else sr &&& ~~~(1#32 <<< i)

/-- SR.RND. -/
def srRnd (sr : Word) : Nat := sr.toNat / 256 % 4
/-- SR.SAT. -/
def srSat (sr : Word) : Bool := sr.getLsbD 10

/-- The RW fields of SR. -/
def srMask : Word := 0x77F#32

/-- V as an instruction leaves it, and SV with it (R161). -/
def setV (sr : Word) (v : Bool) : Word :=
  let s := setFlag sr bV v
  if v then setFlag s bSV true else s

/-- V and SV set where a conversion overflowed, else unchanged (R165, R176). -/
def raiseV (sr : Word) (v : Bool) : Word := if v then setV sr true else sr

/-! ### Conversions -/

/-- R164: a 48-bit word enters an accumulator. -/
def toAcc (w : W48) : W80 := (w.signExtend 56) ++ (0#24)

/-- ACC.H. -/
def accH (v : W80) : W48 := v.extractLsb' 24 48

/-- R165, step 1: the rounded value in units of 2^-40. -/
def roundAcc (v : W80) (rnd : Nat) : Int :=
  let x := v.toInt
  match rnd with
  | 1 => if v.toNat % 2 ^ 24 = 2 ^ 23 then (let q := asr x 24; if q % 2 = 0 then q else q + 1) else asr (x + 2 ^ 23) 24
  | 2 => asr x 24
  | _ => asr (x + 2 ^ 23) 24

/-- R165: an accumulator value as a 48-bit word, and whether it lay outside E48. -/
def conv (v : W80) (sr : Word) : W48 × Bool :=
  let y := roundAcc v (srRnd sr)
  if overS 48 y then ((if srSat sr then BitVec.ofInt 48 (satS 48 y) else BitVec.ofInt 48 y), true)
  else (BitVec.ofInt 48 y, false)

/-- R163: an exact sum narrowed to ACC80, and whether it reached the limits. -/
def narrow80 (x : Int) : W80 × Bool := (BitVec.ofInt 80 (satS 80 x), overS 80 x)

/-- R162: the rounded product of two words, in units of 2^-64. -/
def product (a b : W48) : Int := prod64 a.toInt b.toInt

/-- Whether an ACC80 value needs the guard bits (EU). -/
def needsGuard (v : W80) : Bool := overS 48 (asr v.toInt 24)

/-! ### The ALU (R175) -/

/-- An ALU result: what dst takes (none leaves it), and SR after it. -/
structure AluR where
  acc : Option W80
  d   : Option W48
  sr  : Word

/-- Z and N of a value. -/
def zn (sr : Word) (x : Int) : Word := setFlag (setFlag sr bZ (decide (x = 0))) bN (decide (x < 0))

/-- An arithmetic result `x` (exact, in units of 2^-64): saturated to ACC80, converted by R165 for a D register; V, Z, N and
EU follow it. -/
def arith (toD : Bool) (x : Int) (sr : Word) : AluR :=
  let (v, o) := narrow80 x
  if toD then
    let (w, o2) := conv v sr
    { acc := none, d := some w, sr := setFlag (zn (setV sr (o || o2)) w.toInt) bEU (needsGuard v) }
  else { acc := some v, d := none, sr := setFlag (zn (setV sr o) v.toInt) bEU (needsGuard v) }

/-- A result with Z and N only (MIN, MAX): a conversion that overflows still sets V and SV (R165). -/
def select (toD : Bool) (v : W80) (sr : Word) : AluR :=
  if toD then
    let (w, o) := conv v sr
    { acc := none, d := some w, sr := zn (raiseV sr o) w.toInt }
  else { acc := some v, d := none, sr := zn sr v.toInt }

/-- A logical result on 80 or 48 bits. -/
def logic (toD : Bool) (v : W80) (w : W48) (sr : Word) : AluR :=
  if toD then { acc := none, d := some w, sr := zn sr w.toInt } else { acc := some v, d := none, sr := zn sr v.toInt }

/-- Carry out of an 80-bit addition. -/
def carry (a b : W80) : Bool := decide (2 ^ 80 ≤ a.toNat + b.toNat)
/-- Borrow of an 80-bit subtraction. -/
def borrow (a b : W80) : Bool := decide (a.toNat < b.toNat)

/-- The ALU operations by op code 0x00…0x11. `a80`, `b80` are the operands as accumulators (R164), `a48`, `b48` as 48-bit words of
a logical operation bound for a D register (an accumulator's H field); `toD` says that dst is a D register. -/
def alu (op : Nat) (toD : Bool) (a80 b80 : W80) (a48 b48 : W48) (shift : Nat) (sr : Word) : Option AluR :=
  match op with
  | 0x00 => let r := arith toD (a80.toInt + b80.toInt) sr; some { r with sr := setFlag r.sr bC (carry a80 b80) }
  | 0x01 => let r := arith toD (a80.toInt - b80.toInt) sr; some { r with sr := setFlag r.sr bC (borrow a80 b80) }
  | 0x02 => some (arith toD (-a80.toInt) sr)
  | 0x03 => some (arith toD (if a80.toInt < 0 then -a80.toInt else a80.toInt) sr)
  | 0x04 => some (logic toD (a80 &&& b80) (a48 &&& b48) sr)
  | 0x05 => some (logic toD (a80 ||| b80) (a48 ||| b48) sr)
  | 0x06 => some (logic toD (a80 ^^^ b80) (a48 ^^^ b48) sr)
  | 0x07 => some (logic toD (~~~a80) (~~~a48) sr)
  | 0x08 =>
    if toD then
      let x := a48.toInt * 2 ^ shift
      let w := BitVec.ofInt 48 x
      some { acc := none, d := some w, sr := setFlag (zn (setV sr (decide (w.toInt ≠ x))) w.toInt) bEU false }
    else some (arith false (a80.toInt * 2 ^ shift) sr)
  | 0x09 => some (logic toD (a80.sshiftRight shift) (a48.sshiftRight shift) sr)
  | 0x0A => some (logic toD (a80 >>> shift) (a48 >>> shift) sr)
  | 0x0B => some (select toD (if b80.toInt < a80.toInt then b80 else a80) sr)
  | 0x0C => some (select toD (if a80.toInt < b80.toInt then b80 else a80) sr)
  | 0x0D =>
    let (v, _) := narrow80 (a80.toInt - b80.toInt)
    some { acc := none, d := none, sr := setFlag (zn sr v.toInt) bC (borrow a80 b80) }
  | 0x0E => some { acc := none, d := none, sr := zn sr a80.toInt }
  | 0x0F => some (logic toD 0#80 0#48 sr)
  | 0x10 => some (arith toD (roundAcc a80 (srRnd sr) * 2 ^ 24) sr)
  | 0x11 =>
    let (w, o) := conv a80 sr
    let sr' := zn (setV sr o) w.toInt
    some (if toD then { acc := none, d := some w, sr := sr' } else { acc := some (toAcc w), d := none, sr := sr' })
  | _ => none

/-! ### The nonlinear unit (R176) -/

/-- The largest E48 value. -/
def e48Max : Int := maxS 48

/-- An E48 integer as a fixed-point number. -/
def fxOf (x : Int) : Int := x * 2 ^ (Fxp.F - 40)

/-- A bounded result: the unit's own bits, held inside ideal ± bound (both fixed point), saturated to E48, and whether it saturated. Where
no E48 word lies inside the bound, one of the two nearest is the result (log entry 5). -/
def bounded (op : Nat) (x ideal bound : Int) : Int × Bool :=
  let u := (2 : Int) ^ (Fxp.F - 40)
  let lo := -(-(ideal - bound) / u)
  let hi := (ideal + bound) / u
  let y := if lo ≤ hi then clampI lo hi (Config.nonlinear op x) else clampI hi lo (Config.nonlinear op x)
  (satS 48 y, overS 48 y)

/-- The operations: result and whether V and SV are set. -/
def nonlinear (op : Nat) (src : W48) : Option (W48 × Bool) :=
  let x := src.toInt
  let r : Option (Int × Bool) :=
    match op with
    | 0 =>
      if x ≤ 0 then some (minS 48, true)
      else some (bounded 0 x (Fxp.div (Fxp.ln (fxOf x)) Fxp.ln2) (Fxp.one / 2 ^ 30))
    | 1 =>
      if 7 * 2 ^ 40 ≤ x then some (e48Max, true)
      else if x < -(40 * 2 ^ 40) then some (0, true)
      else let y := Fxp.exp (Fxp.mul (fxOf x) Fxp.ln2); some (bounded 1 x y (y / 2 ^ 30))
    | 2 =>
      if x = 0 then some (e48Max, true)
      else
        let y := Fxp.div Fxp.one (fxOf x)
        if 128 * Fxp.one ≤ y then some (e48Max, true)
        else if y ≤ -(128 * Fxp.one) then some (minS 48, true)
        else some (bounded 2 x y ((y.natAbs : Int) / 2 ^ 36))
    | 3 =>
      if x ≤ 0 then some (e48Max, true)
      else
        let y := Fxp.div Fxp.one (Fxp.sqrt (fxOf x))
        if 128 * Fxp.one ≤ y then some (e48Max, true)
        else some (bounded 3 x y (y / 2 ^ 36))
    | _ => none
  r.map fun q => (BitVec.ofInt 48 q.1, q.2)

/-- Cycles of the nonlinear unit. -/
def nonlinearCycles (op : Nat) : Nat := if op < 2 then 4 else 6

/-! ### Address arithmetic -/

/-- R167: next(An, m). -/
def next (an : BitVec 15) (bn : BitVec 15) (ln : BitVec 16) (m : Int) : BitVec 15 :=
  if ln = 0#16 then BitVec.ofInt 15 (an.toNat + m)
  else BitVec.ofInt 15 ((bn.toNat : Int) + ((an.toNat : Int) - (bn.toNat : Int) + m) % (ln.toNat : Int))

/-- A 15-bit word with its bits in the opposite order. -/
def rev15 (x : BitVec 15) : BitVec 15 := x.reverse

/-- R168: the reverse-carry sum: carries run from bit 14 towards bit 0. -/
def revSum (an : BitVec 15) (m : BitVec 16) : BitVec 15 := rev15 (rev15 an + rev15 (m.truncate 15))

/-- A condition of class 0x8; none for the two illegal codes. -/
def cond (c : Nat) (sr : Word) : Option Bool :=
  let f := flag sr
  match c with
  | 0x0 => some true
  | 0x1 => some (f bZ)
  | 0x2 => some (!f bZ)
  | 0x3 => some (f bN)
  | 0x4 => some (!f bN)
  | 0x5 => some (!f bN && !f bZ)
  | 0x6 => some (f bN || f bZ)
  | 0x7 => some (f bV)
  | 0x8 => some (!f bV)
  | 0x9 => some (f bC)
  | 0xA => some (!f bC)
  | 0xB => some (f bSV)
  | 0xC => some (f bEU)
  | 0xD => some (!f bEU)
  | _ => none

end Sys2Proof.Machine.Tarn
end

