-- ==== Sys2Proof/Machine/TarnExec.lean ====
section
/-! DEFINITION. Sys2Proof/Machine/TarnExec.lean: one instruction on one engine: register access with the hazards of R184,
windows (R158), parallel moves (R170–R172), the loop sequencer (R177–R182), delay slots (R185) and cycles (R192). -/
namespace Sys2Proof.Machine.Tarn

open Fmt

/-- What an instruction did besides changing the engine: bounds violations (space, address). -/
structure Out where
  e   : Engine
  oob : List (Bool × Nat)

/-- An instruction's effect; none is an illegal instruction (R174). -/
abbrev Res := Option Out

/-- The current bank. -/
def bank (e : Engine) : Bank := if e.inTask then e.tk else e.bg
/-- The engine with the current bank replaced. -/
def setBank (e : Engine) (b : Bank) : Engine := if e.inTask then { e with tk := b } else { e with bg := b }
/-- The engine with SR replaced. -/
def setSr (e : Engine) (w : Word) : Engine := setBank e { bank e with sr := w }

/-- SR as software reads it: the RW fields, loop depth, LF, RA, CSTK depth (R161). -/
def srRead (e : Engine) : Word :=
  let b := bank e
  let n := b.sr.toNat % 0x800 + e.loops.length * 2 ^ 12 + b2n (e.loops.length ≠ 0) * 2 ^ 15 +
    b2n e.rep.isSome * 2 ^ 16 + b.cstk.length * 2 ^ 17
  BitVec.ofNat 32 n

/-! ### Registers -/

def rdD (b : Bank) (i : Nat) : W48 := b.d[i]?.getD 0#48
def rdAcc (b : Bank) (i : Nat) : W80 := b.acc[i]?.getD 0#80
def rdA (b : Bank) (i : Nat) : BitVec 15 := b.a[i]?.getD 0#15
def rdM (b : Bank) (i : Nat) : BitVec 16 := b.m[i]?.getD 0#16
def rdB (b : Bank) (i : Nat) : BitVec 15 := b.b[i]?.getD 0#15
def rdL (b : Bank) (i : Nat) : BitVec 16 := b.l[i]?.getD 0#16

def wrD (b : Bank) (i : Nat) (v : W48) : Bank := { b with d := b.d.setIfInBounds i v }
def wrAcc (b : Bank) (i : Nat) (v : W80) : Bank := { b with acc := b.acc.setIfInBounds i v }
def wrA (b : Bank) (i : Nat) (v : BitVec 15) : Bank := { b with a := b.a.setIfInBounds i v }

/-- R184: an accumulator as a store, MOVE, ALU or nonlinear operation reads it: the value before a MAC in the instruction just
before. -/
def accSeen (e : Engine) (i : Nat) : W80 :=
  match e.accOld.find? (fun p => p.1 = i) with
  | some p => p.2
  | none => rdAcc (bank e) i

/-- R184: an AGU register as address generation sees it: kinds 0 A, 1 M, 2 B, 3 L. -/
def aguSeen (e : Engine) (kind i : Nat) : Nat :=
  match e.agOld.find? (fun p => p.1 = kind ∧ p.2.1 = i) with
  | some p => p.2.2
  | none =>
    let b := bank e
    match kind with
    | 0 => (rdA b i).toNat
    | 1 => (rdM b i).toNat
    | 2 => (rdB b i).toNat
    | _ => (rdL b i).toNat

/-- An AGU register as a data read sees it. -/
def aguRead (b : Bank) (kind i : Nat) : Nat :=
  match kind with
  | 0 => (rdA b i).toNat
  | 1 => (rdM b i).toNat
  | 2 => (rdB b i).toNat
  | _ => (rdL b i).toNat

/-- A write of an AGU register by class 0x4, 0x5 or 0x6: address generation of the next instruction sees the old value
(R184); a length above 32,768 is illegal (R169). -/
def aguWrite (e : Engine) (kind i v : Nat) : Option Engine :=
  let b := bank e
  let old := (kind, i, aguRead b kind i)
  let e1 := { e with agOld := old :: e.agOld }
  match kind with
  | 0 => some (setBank e1 (wrA b i (BitVec.ofNat 15 v)))
  | 1 => some (setBank e1 { b with m := b.m.setIfInBounds i (BitVec.ofNat 16 v) })
  | 2 => some (setBank e1 { b with b := b.b.setIfInBounds i (BitVec.ofNat 15 v) })
  | _ => if 32768 < v % 2 ^ 16 then none else some (setBank e1 { b with l := b.l.setIfInBounds i (BitVec.ofNat 16 v) })

/-- A write of LC, LS or LE of the top level (R181): loop tests of the next three instructions see the old state
(R184), and the count of five ends with the fourth, the MOVE itself counting. -/
def loopWrite (e : Engine) (reg v : Nat) : Option Engine :=
  match e.loops with
  | [] => none
  | t :: r =>
    let t' := match reg with
      | 0 => { t with lc := BitVec.ofNat 16 v }
      | 1 => { t with ls := BitVec.ofNat 14 v }
      | _ => { t with le := BitVec.ofNat 14 v }
    some { e with loops := t' :: r, lpend := e.lpend ++ [⟨5, e.loops.length, reg, v⟩] }

/-- A register by 5-bit code as a 48-bit word, and whether a conversion overflowed. None is a read at loop depth 0
(R181). -/
def read5 (e : Engine) (code : Nat) : Option (W48 × Bool) :=
  let b := bank e
  if code < 8 then some (rdD b code, false)
  else if code < 12 then some (conv (accSeen e (code - 8)) b.sr)
  else if code = 12 then some ((srRead e).zeroExtend 48, false)
  else if code < 16 then
    match e.loops with
    | [] => none
    | t :: _ =>
      some ((if code = 13 then t.lc.zeroExtend 48 else if code = 14 then t.ls.zeroExtend 48 else t.le.zeroExtend 48), false)
  else if code < 24 then some ((rdA b (code - 16)).zeroExtend 48, false)
  else some ((rdM b (code - 24)).signExtend 48, false)

/-- A write of a register by 5-bit code with a 48-bit word. -/
def write5 (e : Engine) (code : Nat) (v : W48) : Option Engine :=
  let b := bank e
  if code < 8 then some (setBank e (wrD b code v))
  else if code < 12 then some (setBank e (wrAcc b (code - 8) (toAcc v)))
  else if code = 12 then some (setSr e ((v.truncate 32) &&& srMask))
  else if code < 16 then loopWrite e (code - 13) v.toNat
  else if code < 24 then aguWrite e 0 (code - 16) v.toNat
  else aguWrite e 1 (code - 24) v.toNat

/-! ### Memory (R157, R158) -/

/-- Whether the running task may touch a word; background and runtime code reach every word. -/
def allowed (e : Engine) (y : Bool) (a : Nat) (wr : Bool) : Bool :=
  match e.cur with
  | none => true
  | some t => t.wins.any fun w => decide (w.y = y) && decide (w.lo ≤ a) && decide (a ≤ w.hi) && (w.wr || !wr)

/-- A load: 0 outside the windows. -/
def load (e : Engine) (y : Bool) (a : Nat) : W48 × List (Bool × Nat) :=
  if allowed e y a false then (BitVec.ofNat 48 (Cells.get 0 (if y then e.yMem else e.xMem) a), [])
  else (0#48, [(y, a)])

/-- A store: suppressed outside the windows. -/
def store (e : Engine) (y : Bool) (a : Nat) (v : W48) : Engine × List (Bool × Nat) :=
  if allowed e y a true then
    ((if y then { e with yMem := Cells.put 0 e.yMem a v.toNat } else { e with xMem := Cells.put 0 e.xMem a v.toNat }), [])
  else (e, [(y, a)])

/-- A bounds violation sets SV (R158). -/
def noteOob (o : Out) (l : List (Bool × Nat)) : Out :=
  if l.isEmpty then o else { e := setSr o.e (setFlag (bank o.e).sr bSV true), oob := o.oob ++ l }

/-- Address of an access and An afterwards (none: unchanged), by addressing mode; none is illegal. `long` admits the
modes of class 0x5. -/
def address (e : Engine) (an mode addr : Nat) (long : Bool) : Option (Nat × Option (BitVec 15)) :=
  let a := BitVec.ofNat 15 (aguSeen e 0 an)
  let m := BitVec.ofNat 16 (aguSeen e 1 an)
  let nx := fun (k : Int) => next a (BitVec.ofNat 15 (aguSeen e 2 an)) (BitVec.ofNat 16 (aguSeen e 3 an)) k
  match mode with
  | 0 => some (a.toNat, none)
  | 1 => some (a.toNat, some (nx 1))
  | 2 => some (a.toNat, some (nx (-1)))
  | 3 => some (a.toNat, some (nx m.toInt))
  | 4 => some (a.toNat, some (revSum a m))
  | 5 => if long then some (addr % 32768, none) else none
  | 6 => if long then some ((BitVec.ofInt 15 ((a.toNat : Int) + toS 15 addr)).toNat, none) else none
  | _ => none

/-- The post-modified address register takes its value, visible to the next instruction (R172). -/
def postMod (e : Engine) (an : Nat) (v : Option (BitVec 15)) : Engine :=
  match v with
  | none => e
  | some w => setBank e (wrA (bank e) an w)

/-- The hazards the previous instruction left are seen by one instruction only. -/
def clearHaz (e : Engine) : Engine := { e with agOld := [], accOld := [] }

/-! ### Parallel moves -/

/-- The legality of the two parallel moves (R170, register codes, modes). -/
def movesOk (mv : Moves) : Bool :=
  let ok := fun (p : Option PMove) =>
    match p with
    | none => true
    | some m => decide (m.reg < 12) && decide (m.an < 8) && decide (m.mode < 5)
  ok mv.x && ok mv.y &&
    (match mv.x, mv.y with
     | some a, some b => decide (a.an ≠ b.an)
     | _, _ => true)

/-- What one parallel move reads before anything is written: for a load the word, for a store the word to store; the address,
An afterwards. -/
structure MoveRd where
  m    : PMove
  y    : Bool
  addr : Nat
  post : Option (BitVec 15)
  val  : W48
  oob  : List (Bool × Nat)

/-- Sources of a parallel move (R171). -/
def moveRead (e : Engine) (y : Bool) (m : PMove) : Option MoveRd :=
  match address e m.an m.mode 0 false with
  | none => none
  | some (ad, post) =>
    if m.store then
      some ⟨m, y, ad, post, if m.reg < 8 then rdD (bank e) m.reg else (conv (accSeen e (m.reg - 8)) (bank e).sr).1, []⟩
    else let (v, l) := load e y ad; some ⟨m, y, ad, post, v, l⟩

/-- Destination of a parallel move (R171, R172). A conversion for a parallel store leaves the flags, which come from the ALU or MAC part
only (log entry 168). -/
def moveWrite (o : Out) (r : MoveRd) : Out :=
  let e1 := postMod o.e r.m.an r.post
  if r.m.store then
    let (e2, l) := store e1 r.y r.addr r.val
    noteOob { e := e2, oob := o.oob } l
  else
    let b := bank e1
    let e2 := setBank e1 (if r.m.reg < 8 then wrD b r.m.reg r.val else wrAcc b (r.m.reg - 8) (toAcc r.val))
    noteOob { e := e2, oob := o.oob } r.oob

/-- An instruction part together with its parallel moves: every source is read first, then the part writes, then the X
move, then the Y move. -/
def withMoves (e : Engine) (mv : Option Moves) (part : Engine → Option Engine) : Res :=
  match mv with
  | none => (part e).map fun e1 => { e := e1, oob := [] }
  | some m =>
    if movesOk m then
      let rx := m.x.bind (moveRead e false)
      let ry := m.y.bind (moveRead e true)
      match part e with
      | none => none
      | some e1 =>
        let o0 : Out := { e := e1, oob := [] }
        let o1 := match rx with | some r => moveWrite o0 r | none => o0
        some (match ry with | some r => moveWrite o1 r | none => o1)
    else none

/-! ### Effects by class -/

/-- The ALU (classes 0x1 and 0xC); register codes 12 to 15 are illegal in every field (log entry 183). -/
def doAlu (op : Nat) (f : AluF) (e : Engine) : Res :=
  if f.dst < 12 ∧ f.src1 < 12 ∧ f.src2 < 12 ∧ f.shift < 64 then
    let hz := clearHaz e
    withMoves e f.mv fun _ =>
      let b := bank e
      let a80 := fun c => if c < 8 then toAcc (rdD b c) else accSeen e (c - 8)
      let a48 := fun c => if c < 8 then rdD b c else accH (accSeen e (c - 8))
      (alu op (decide (f.dst < 8)) (a80 f.src1) (a80 f.src2) (a48 f.src1) (a48 f.src2) f.shift b.sr).map fun r =>
        let b1 := { b with sr := r.sr }
        let b2 := match r.d with | some w => wrD b1 f.dst w | none => b1
        let b3 := match r.acc with | some v => wrAcc b2 (f.dst - 8) v | none => b2
        setBank hz b3
  else none

/-- One MAC unit: operation 0 MAC, 1 MSU, 2 MPY on a product; the opposite operation negates it (the quad-MAC tables). -/
def macUnit (op : Nat) (opp : Bool) (old : W80) (p : Int) : W80 × Bool :=
  let q := if opp then -p else p
  match op with
  | 0 => narrow80 (old.toInt + q)
  | 1 => narrow80 (old.toInt - q)
  | _ => narrow80 q

/-- The operand pairs of a quad-MAC pattern: for each unit, its two D registers and whether the operation is opposite. -/
def quadOperands (pat : Nat) : List (Nat × Nat × Bool) :=
  match pat with
  | 0 => [(0, 4, false), (1, 5, false), (2, 6, false), (3, 7, false)]
  | 1 => [(0, 4, false), (1, 4, false), (2, 4, false), (3, 4, false)]
  | 2 => [(0, 4, false), (1, 4, false), (2, 4, false), (3, 4, false)]
  | _ => [(0, 4, false), (1, 5, true), (0, 5, false), (1, 4, false)]

/-- Whether a parallel move loads accumulator i. -/
def loadsAcc (mv : Option Moves) (i : Nat) : Bool :=
  mv.any fun m => [m.x, m.y].any fun p => p.any fun q => !q.store && decide (q.reg = i + 8)

/-- The MAC units (classes 0x2, 0x3 and 0xD). The next instruction sees the accumulators from before the MAC, but for one that a parallel
move loads (R184, log entry 184). With q = 1, dx and dy must be 0 (log entry 183). -/
def doMac (op : Nat) (f : MacF) (e : Engine) : Res :=
  if f.acc < 4 ∧ f.dx < 8 ∧ f.dy < 8 ∧ (f.quad → f.dx = 0 ∧ f.dy = 0) then
    let b := bank e
    let units : List (Nat × Nat × Nat × Bool) :=
      if f.quad then ((quadOperands f.acc).zipIdx).map fun q => (q.2, q.1.1, q.1.2.1, q.1.2.2)
      else [(f.acc, f.dx, f.dy, false)]
    let res := units.map fun u =>
      (u.1, macUnit op u.2.2.2 (rdAcc b u.1) (product (rdD b u.2.1) (rdD b u.2.2.1)))
    (withMoves e f.mv fun _ =>
      let b1 := res.foldl (fun a r => wrAcc a r.1 r.2.1) b
      let b2 := if res.any (fun r => r.2.2) then { b1 with sr := setFlag b1.sr bAV true } else b1
      let b3 := if f.quad ∧ f.acc = 2 then wrD (wrD (wrD b2 3 (rdD b 2)) 2 (rdD b 1)) 1 (rdD b 0) else b2
      some (setBank (clearHaz e) b3)).map fun o =>
        { o with e := { o.e with accOld := (res.filter fun r => !loadsAcc f.mv r.1).map fun r => (r.1, rdAcc b r.1) } }
  else none

/-- MOVE (class 0x4). Between accumulators all 80 bits move. -/
def doMove (dst src : Nat) (e : Engine) : Res :=
  if dst < 32 ∧ src < 32 then
    if 8 ≤ dst ∧ dst < 12 ∧ 8 ≤ src ∧ src < 12 then
      let v := accSeen e (src - 8)
      let e1 := clearHaz e
      some { e := setBank e1 (wrAcc (bank e1) (dst - 8) v), oob := [] }
    else
      match read5 e src with
      | none => none
      | some (v, o) =>
        let e1 := clearHaz e
        (write5 (if dst = 12 then e1 else setSr e1 (raiseV (bank e1).sr o)) dst v).map fun e2 => { e := e2, oob := [] }
  else none

/-- Load or store of one register (class 0x5). -/
def doLdSt (f : LdSt) (e : Engine) : Res :=
  if f.reg < 32 ∧ f.an < 8 ∧ f.addr < 32768 ∧ (f.mode < 5 → f.addr = 0) then
    match address e f.an f.mode f.addr true with
    | none => none
    | some (ad, post) =>
      if f.store then
        match read5 e f.reg with
        | none => none
        | some (v, o) =>
          let e1 := postMod (clearHaz e) f.an post
          let (e2, l) := store e1 f.y ad v
          some (noteOob { e := setSr e2 (raiseV (bank e2).sr o), oob := [] } l)
      else
        let (v, l) := load e f.y ad
        let e1 := postMod (clearHaz e) f.an post
        (write5 e1 f.reg v).map fun e2 => noteOob { e := e2, oob := [] } l
  else none

/-- AGU operations (class 0x6); the field d is free in operations 0 and 1 (log entry 91). -/
def doAgu (f : AguF) (e : Engine) : Res :=
  if f.op < 4 ∧ f.kind < 4 ∧ f.index < 8 ∧ f.d < 8 ∧ f.imm < 65536 ∧ (2 ≤ f.op → f.imm = 0) then
    let e1 := clearHaz e
    match f.op with
    | 0 => (aguWrite e1 f.kind f.index f.imm).map fun e2 => { e := e2, oob := [] }
    | 1 =>
      if f.kind = 0 then
        let v := next (BitVec.ofNat 15 (aguSeen e 0 f.index)) (BitVec.ofNat 15 (aguSeen e 2 f.index))
          (BitVec.ofNat 16 (aguSeen e 3 f.index)) (toS 16 f.imm)
        (aguWrite e1 0 f.index v.toNat).map fun e2 => { e := e2, oob := [] }
      else none
    | 2 => (aguWrite e1 f.kind f.index (rdD (bank e) f.d).toNat).map fun e2 => { e := e2, oob := [] }
    | _ =>
      let v := aguRead (bank e) f.kind f.index
      let w : W48 := if f.kind = 1 then BitVec.ofInt 48 (toS 16 v) else BitVec.ofNat 48 v
      some { e := setBank e1 (wrD (bank e1) f.d w), oob := [] }
  else none

/-- Short immediate (class 0x7): imm24 in [47:24]. -/
def doShort (d imm : Nat) (e : Engine) : Res :=
  if d < 8 ∧ imm < 2 ^ 24 then
    let e1 := clearHaz e
    some { e := setBank e1 (wrD (bank e1) d (BitVec.ofNat 48 (imm * 2 ^ 24))), oob := [] }
  else none

/-- Long immediate (class 0xE). -/
def doLong (reg imm : Nat) (e : Engine) : Res :=
  if reg < 12 ∧ imm < 2 ^ 48 then
    let e1 := clearHaz e
    let w := BitVec.ofNat 48 imm
    let b := bank e1
    some { e := setBank e1 (if reg < 8 then wrD b reg w else wrAcc b (reg - 8) (toAcc w)), oob := [] }
  else none

/-- The nonlinear unit (class 0xA). -/
def doNonlinear (op dst src : Nat) (e : Engine) : Res :=
  if dst < 12 ∧ src < 12 then
    let b := bank e
    let (x, o) := if src < 8 then (rdD b src, false) else conv (accSeen e (src - 8)) b.sr
    (nonlinear op x).map fun r =>
      let e1 := clearHaz e
      let b1 := { b with sr := raiseV b.sr (o || r.2) }
      { e := setBank e1 (if dst < 8 then wrD b1 dst r.1 else wrAcc b1 (dst - 8) (toAcc r.1)), oob := [] }
  else none

/-- NOP (class 0x0). -/
def doNop (e : Engine) : Res := some { e := clearHaz e, oob := [] }

/-! ### Loops -/

/-- The value a count operand gives: the low 16 bits of a D register, or the immediate. -/
def countOf (c : Count) (e : Engine) : Nat :=
  match c with
  | .imm n => n
  | .reg d => (rdD (bank e) d).toNat % 65536

/-- LSTK changed by LOOP, ENDL, LPUSH or LPOP: loop tests see it from the next instruction, and the loop cache empties
(R182, R184). -/
def setLoops (e : Engine) (ls view : List Level) : Engine :=
  { e with loops := ls, view := view, cache := none
           lpend := e.lpend.filter fun w => decide (w.depth ≤ ls.length) }

/-- Writes to loop registers that loop tests see from now on (R184). -/
def ageLoops (e : Engine) : Engine :=
  let due := e.lpend.filter fun w => decide (w.left ≤ 1)
  let rest := (e.lpend.filter fun w => decide (1 < w.left)).map fun w => { w with left := w.left - 1 }
  let put := fun (v : List Level) (w : LoopWrite) =>
    let i := v.length - w.depth
    if w.depth ≤ v.length ∧ 0 < w.depth then
      v.modify i fun t => match w.reg with
        | 0 => { t with lc := BitVec.ofNat 16 w.val }
        | 1 => { t with ls := BitVec.ofNat 14 w.val }
        | _ => { t with le := BitVec.ofNat 14 w.val }
    else v
  { e with view := due.foldl put e.view, lpend := rest }

/-- R182: the cache as the end of a pass leaves it: the body's first pass has filled it. -/
def fillCache (p : Mem) (c : LoopCache) (t : Level) : LoopCache :=
  if !c.full ∧ c.base = t.ls.toNat ∧ c.base + c.len = t.le.toNat + 1 then
    { c with full := true, words := Cells.getAll 0 p c.base c.len }
  else c

/-- Whether the w words at pc come from the loop cache (R182). -/
def cached (e : Engine) (pc w : Nat) : Bool :=
  e.cache.any fun c => c.full && decide (c.base ≤ pc) && decide (pc + w ≤ c.base + c.len)

/-- The P word that a fetch at an address brings: from the loop cache where it holds it (R182). -/
def fetchWord (e : Engine) (pc : Nat) : Nat :=
  match e.cache with
  | some c => if cached e pc 1 then c.words.getD (pc - c.base) 0 else Cells.get 0 e.pMem pc
  | none => Cells.get 0 e.pMem pc

/-- The loop test on the instruction that occupies P words pc … pc + w − 1 (R178, R179): the address fetched next. A count that a MOVE
has written and the test does not see yet stays as the MOVE wrote it (R184). -/
def loopTest (e : Engine) (pc w : Nat) : Engine × Nat :=
  match e.view, e.loops with
  | t :: vr, l :: lr =>
    if pc ≤ t.le.toNat ∧ t.le.toNat < pc + w then
      if 1 < t.lc.toNat then
        let lc := t.lc - 1#16
        let moved := e.lpend.any fun q => decide (q.depth = e.loops.length) && decide (q.reg = 0)
        ({ e with
            view := { t with lc := lc } :: vr
            loops := (if moved then l else { l with lc := lc }) :: lr
            cache := e.cache.map fun c => fillCache e.pMem c t }, t.ls.toNat)
      else if t.lc.toNat = 1 then (setLoops e lr vr, pc + w)
      else (e, pc + w)
    else (e, pc + w)
  | _, _ => (e, pc + w)

/-! ### Issue -/

/-- What kind of instruction is issued, for the rules on delay slots and REP (R177, R185). -/
inductive Cls where
  | plain | branch | loop | endl
  deriving DecidableEq, Repr

/-- Whether the running task has executed END: its delay slots remain (R192). -/
def ending (e : Engine) : Bool :=
  match e.slots with
  | some (_, .endTask) => true
  | some (_, .goto _) => false
  | some (_, .call _) => false
  | some (_, .fall) => false
  | none => false

/-- The background, stub or task code may issue: no task has been stopped, the engine is not halted by debug, is not retired, and
a running task has cycles left or has executed END (R174, R189, R192). -/
def canIssue (e : Engine) : Bool :=
  e.halt.isNone && !e.debug && decide (e.st ≠ .retired) && (ending e || e.cur.all fun t => decide (t.cycles < t.cost))

/-- The cycles that a fetch adds (R173): a 64-bit instruction at an odd address costs one more, except from the loop cache. -/
def penalty (e : Engine) (w : Nat) : Nat := b2n (decide (w = 2) && decide (e.pc % 2 = 1) && !cached e e.pc w)

/-- The running task's cycle count after an instruction (R173, R192); a repeated instruction pays the penalty once (log entry 185). -/
def charge (e : Engine) (w cyc : Nat) : Engine :=
  match e.cur with
  | none => e
  | some t => { e with cur := some { t with cycles := t.cycles + cyc + penalty e w } }

/-- R192: how many of n repetitions of an instruction of w words and `cyc` cycles the running task completes before it reaches its declared
cost. -/
def room (e : Engine) (w cyc n : Nat) : Nat :=
  match e.cur with
  | none => n
  | some t => if ending e then n else min n ((t.cost - t.cycles - penalty e w) / cyc)

/-- R192: the task has reached its declared cost within an instruction, with `left` repetitions undone: it stands at that instruction. -/
def spend (e : Engine) (left : Nat) : Engine :=
  { e with cur := e.cur.map (fun t => { t with cycles := t.cost }), rep := if e.rep.isSome then some left else none }

/-- R197: the engine at a frame task's first instruction. -/
def startTask (e : Engine) : Engine :=
  match e.queue with
  | [] => e
  | t :: q =>
    { e with
      queue := q, cur := some t, ended := none, stub := false, inTask := true
      tk := { Bank.reset with a := Bank.reset.a.setIfInBounds 7 (BitVec.ofNat 15 t.frame) }
      loops := [], view := [], lpend := [], cache := none, rep := none, slots := none, agOld := [], accOld := []
      pc := t.base + t.entry }

/-- A task that executed END is over; the stub takes the next one. -/
def endTask (e : Engine) : Engine :=
  { e with cur := none, ended := none, stub := true, pc := 0x3F00, loops := [], view := [], lpend := [], cache := none, rep := none
           slots := none, agOld := [], accOld := [] }

/-- The engine as the next instruction finds it: with the stub running and tasks waiting, that instruction is the first of the next
task. -/
def ready (e : Engine) : Engine := if e.stub ∧ e.queue ≠ [] then startTask e else e

/-- Repeat an effect. -/
def times (f : Engine → Res) : Nat → Engine → Res
  | 0, e => some { e := e, oob := [] }
  | n + 1, e =>
    match f e with
    | none => none
    | some o =>
      match times f n o.e with
      | none => none
      | some o2 => some { o2 with oob := o.oob ++ o2.oob }

/-- The first of two delay slots begins, or the loop test picks the next address (a branch not taken stays subject to it,
R180). -/
def afterBranch (e0 : Engine) (pc : Nat) (a : After) : Engine :=
  let e := ageLoops e0
  match a with
  | .fall => let (e1, n) := loopTest e pc 1; { e1 with slots := some (2, a), pc := n }
  | _ => { e with slots := some (2, a), pc := pc + 1 }

/-- After an instruction of w words at pc that is no branch: the loop test picks the next address, except in the delay slots of a
taken branch (R180); the second delay slot lets the branch take effect. ENDL, LPUSH and LPOP are tested after their own change (log entry
186). -/
def advance (e0 : Engine) (pc w : Nat) : Engine :=
  let e := ageLoops e0
  match e.slots with
  | none => let (e1, n) := loopTest e pc w; { e1 with pc := n }
  | some (k, .fall) =>
    let (e1, n) := loopTest e pc w
    { e1 with pc := n, slots := if 2 ≤ k then some (k - 1, .fall) else none }
  | some (k, a) =>
    if 2 ≤ k then { e with slots := some (k - 1, a), pc := pc + w }
    else
      match a with
      | .goto t => { e with slots := none, pc := t }
      | .call t =>
        let b := bank e
        setBank { e with slots := none, pc := t } { b with cstk := BitVec.ofNat 14 (pc + w) :: b.cstk.tail }
      | _ => { endTask e with ended := e.cur }

/-- Issue one instruction of w words and `cyc` cycles at the engine's program address; a REP before it repeats it, as far as the task's
declared cost reaches (R192). None is an illegal instruction. -/
def issue (e0 : Engine) (w cyc : Nat) (cls : Cls) (f : Engine → Res) : Option Out :=
  let e := ready e0
  if (e.slots.isSome ∧ (cls = .branch ∨ cls = .loop)) ∨ (e.rep.isSome ∧ cls ≠ .plain) then none
  else
    let n := e.rep.getD 1
    let m := room e w cyc n
    match times f m (charge e w (cyc * m)) with
    | none => none
    | some o =>
      if m = n then some { o with e := advance { o.e with rep := if cls = .loop then o.e.rep else none } e.pc w }
      else some { o with e := spend o.e (n - m) }

/-- Issue a branch-class instruction: `f` gives the engine after DE and what follows the delay slots. -/
def issueBranch (e0 : Engine) (f : Engine → Option (Engine × After)) : Option Out :=
  let e := ready e0
  if e.slots.isSome ∨ e.rep.isSome then none
  else
    match f (charge (clearHaz e) 1 1) with
    | none => none
    | some (e1, a) => some { e := afterBranch e1 e.pc a, oob := [] }

/-- Issue a LOOP: `f` gives the engine after DE, and the address after a body that is skipped. No loop test is made on it (log entry 186). -/
def issueLoop (e0 : Engine) (f : Engine → Option (Engine × Option Nat)) : Option Out :=
  let e := ready e0
  if e.slots.isSome ∨ e.rep.isSome then none
  else
    match f (charge (clearHaz e) 1 1) with
    | none => none
    | some (e1, none) => some { e := { (ageLoops e1) with pc := e.pc + 1 }, oob := [] }
    | some (e1, some n) => some { e := { (ageLoops e1) with pc := n }, oob := [] }

/-- Whether a P address lies in the running task's code; code outside tasks reaches all of P. -/
def inCode (e : Engine) (t : Nat) : Bool :=
  match e.cur with
  | none => decide (t < 16384)
  | some k => decide (k.base ≤ t) && decide (t < k.base + k.len)

/-- Branch (R185). -/
def doBranch (c target : Nat) (e : Engine) : Option (Engine × After) :=
  match cond c (bank e).sr with
  | none => none
  | some taken => if inCode e target then some (e, if taken then .goto target else .fall) else none

/-- CALL (R183): a level is pushed at DE; it takes the address of the instruction after the second delay slot when that slot is
done. At a depth of 8 it is illegal, taken or not. -/
def doCall (c target : Nat) (e : Engine) : Option (Engine × After) :=
  match cond c (bank e).sr with
  | none => none
  | some taken =>
    if ¬ inCode e target ∨ 8 ≤ (bank e).cstk.length then none
    else if taken then some (setBank e { bank e with cstk := BitVec.ofNat 14 (e.pc + 3) :: (bank e).cstk }, .call target)
    else some (e, .fall)

/-- RET: pops CSTK; at depth 0 it is illegal, taken or not (R183). -/
def doRet (c : Nat) (e : Engine) : Option (Engine × After) :=
  match cond c (bank e).sr with
  | none => none
  | some taken =>
    match (bank e).cstk with
    | [] => none
    | t :: r => some (if taken then (setBank e { bank e with cstk := r }, .goto t.toNat) else (e, .fall))

/-- END: the frame task ends after the delay slots. -/
def doEnd (c : Nat) (e : Engine) : Option (Engine × After) :=
  match cond c (bank e).sr with
  | none => none
  | some taken => some (e, if taken then .endTask else .fall)

/-- REP (R177): the following instruction repeats; a register count of 0 skips it. -/
def doRep (c : Count) (e : Engine) : Res :=
  let ok := match c with | .imm n => decide (1 ≤ n) && decide (n ≤ 4096) | .reg d => decide (d < 8)
  if ok then
    let n := countOf c e
    some { e := { clearHaz e with rep := some (if 4096 < n then 4096 else n), repAt := e.pc }, oob := [] }
  else none

/-- LOOP (R178): a new level; a register count of 0 skips the body. `le` must leave at least two words. The loop cache empties, and a body of
at most 32 words fills it in its first pass (R182). -/
def doLoop (c : Count) (le : Nat) (e : Engine) : Option (Engine × Option Nat) :=
  let ok := match c with | .imm n => decide (1 ≤ n) && decide (n ≤ 1024) | .reg d => decide (d < 8)
  if ok = true ∧ e.loops.length < 4 ∧ e.pc + 2 ≤ le ∧ le < 16384 then
    let n := countOf c e
    let e1 := clearHaz e
    if n = 0 then some ({ e1 with cache := none }, some (le + 1))
    else
      let l : Level := { lc := BitVec.ofNat 16 n, ls := BitVec.ofNat 14 (e.pc + 1), le := BitVec.ofNat 14 le }
      let body := le - e.pc
      some ({ setLoops e1 (l :: e1.loops) (l :: e1.view) with
        cache := if body ≤ 32 then some { base := e.pc + 1, len := body, full := false, words := [] } else none }, none)
  else none

/-- LPUSH (R181). -/
def doLpush (e : Engine) : Res :=
  if e.loops.length < 4 then
    let l : Level := { lc := 0#16, ls := 0#14, le := 0#14 }
    some { e := setLoops (clearHaz e) (l :: e.loops) (l :: e.view), oob := [] }
  else none

/-- LPOP and ENDL: the top level goes, without a jump (R180, R181). -/
def doPop (e : Engine) : Res :=
  match e.loops with
  | [] => none
  | _ :: r => some { e := setLoops (clearHaz e) r e.view.tail, oob := [] }

end Sys2Proof.Machine.Tarn
end

