-- ==== Sys2Proof/Machine/NetQueue.lean ====
section
/-! DEFINITION. Sys2Proof/Machine/NetQueue.lean: links and the transmit queues of the NET ports (R254, R255, R258). -/
namespace Sys2Proof.Machine

open Fmt

/-- Whether PD_NET is on (R418). -/
def State.netOn (s : State) : Bool := bit s.power.domains 1
/-- Whether a NET port's link is up. -/
def State.linkUp (s : State) (n : Nat) : Bool := s.net.link.contains n

/-! ### Links (R255) -/

/-- R255: a port's link is lost: what waits in its queues goes with it (log entry 174). -/
def State.linkLost (s : State) (n : Nat) : State :=
  (s.setNet (fun g => { g with
    link := g.link.filter (· ≠ n), queue := Cells.put [] g.queue n [], wire := Cells.put 0 g.wire n 0 })).raise .netLink 0 n 1

/-- R255: a port's link has come up. -/
def State.linkBack (s : State) (n : Nat) : State :=
  (s.setNet (fun g => { g with link := n :: g.link, linkAt := Cells.put 0 g.linkAt n s.mcc })).raise .netLink 0 n 2

/-! ### Queues (R254) -/

/-- R254: the queue of a frame, 0 first. -/
def TxKind.queue : TxKind → Nat
  | .sync _ _ => 0
  | .delayReq => 0
  | .audio _ _ => 1
  | .followUp _ => 2
  | .delayResp _ => 2
  | .announce => 2
  | .igmp _ => 2
  | .arp => 2
  | .icmp => 2
  | .vcp _ => 3

/-- R254: VCP and firmware traffic, which the port limits. -/
def TxKind.limited : TxKind → Bool
  | .igmp _ => true
  | .arp => true
  | .icmp => true
  | .vcp _ => true
  | .sync _ _ => false
  | .delayReq => false
  | .audio _ _ => false
  | .followUp _ => false
  | .delayResp _ => false
  | .announce => false

/-- A frame joins a port's queues while the link is up; it does not leave before an MCC. -/
def State.enqueueAt (s : State) (n : Nat) (k : TxKind) (bytes due : Nat) : State :=
  if s.linkUp n then s.setNet (fun g => { g with queue := Cells.upd [] g.queue n (· ++ [{ kind := k, bytes := bytes, due := due }]) }) else s
/-- A frame joins a port's queues while the link is up. -/
def State.enqueue (s : State) (n : Nat) (k : TxKind) (bytes : Nat) : State := s.enqueueAt n k bytes 0

/-- R255: what firmware sends in answer waits while the control cores are stalled. -/
def State.firmwareSends (s : State) (n : Nat) (k : TxKind) (bytes : Nat) : State :=
  if s.fault.stalled || s.fault.halted then s.setNet (fun g => { g with owed := g.owed ++ [(n, { kind := k, bytes := bytes })] })
  else s.enqueue n k bytes
/-- R255: what waited for the control cores joins its queues. -/
def State.payOwed (s : State) : State :=
  s.net.owed.foldl (fun s q => s.enqueue q.1 q.2.kind q.2.bytes) (s.setNet (fun g => { g with owed := [] }))

/-- Nanoseconds since the release of reset, by which the limit of R254 is kept. -/
def State.upNs (s : State) : Nat := s.power.upS * 1000000000 + s.power.upN * 1000000000 / s.fs

/-- R254: whether a direction (1 transmit) of a port has 50 Mb/s left for a frame of VCP or firmware now (log entry 174). -/
def State.ctlFree (s : State) (n dir : Nat) : Bool := decide (Cells.get 0 s.net.paid (2 * n + dir) ≤ s.upNs)

/-- R254: such a frame takes 20 ns a bit from the limit. -/
def State.ctlPay (s : State) (n dir bytes : Nat) : State :=
  s.setNet (fun g => { g with paid := Cells.upd 0 g.paid (2 * n + dir) (fun t => max t s.upNs + 160 * bytes) })

/-- R253, R309: the code point a frame is marked with: that of PTP, of audio, of control; the spec names none for what firmware answers. -/
def State.dscpOf (s : State) : TxKind → Option Nat
  | .sync _ _ => some (s.at 0x31 0 0)
  | .delayReq => some (s.at 0x31 0 0)
  | .followUp _ => some (s.at 0x31 0 0)
  | .delayResp _ => some (s.at 0x31 0 0)
  | .announce => some (s.at 0x31 0 0)
  | .audio _ _ => some (s.at 0x31 0 1)
  | .vcp _ => some (s.at 0x31 0 2)
  | .igmp _ => none
  | .arp => none
  | .icmp => none

/-- R254: the frame that leaves next: the oldest of the first queue that has one; a limited frame waits while the limit is used up, and
an audio frame for its instant (R273). -/
def nextFrame (free : Bool) (now : Nat) (l : List TxFrame) : Option TxFrame :=
  (List.range 4).findSome? (fun q =>
    l.find? (fun f => decide (f.kind.queue = q) && decide (f.due ≤ now) && (free || !f.kind.limited)))

/-- R253: a port's line rate, bit/s. -/
def State.lineRate (s : State) (n : Nat) : Nat := if s.at 0x30 n 1 = 0 then 10000000000 else 25000000000

/-- R258: the transmit correction of a port in ps. -/
def txCorrection (speed : Nat) : Int := if speed = 0 then 38400 else if speed = 1 then 24600 else 132800

/-- R258: the transmit timestamp of an event message, in units of 0.25 ns, whose frame starts with `left` of the present sample's bits (times the
engine rate) still to go: the PCS instant of the first bit behind the start-frame delimiter, less the correction. -/
def State.txTimestamp (s : State) (n left : Nat) : Int :=
  let rate := s.lineRate n
  let raw : Nat := s.net.phc.t / 2 ^ 30 + (rate - left) * 4000000000 / (rate * s.fs) + 64 * 4000000000 / rate
  ((raw : Int) * 250 - txCorrection (s.at 0x30 n 1)) / 250

/-- Wire bytes of PTP messages over UDP (IEEE 1588; log entry 174). -/
def ptpBytes : TxKind → Nat
  | .announce => 134
  | .delayResp _ => 124
  | _ => 114

/-- R258: a UDP checksum after a field of zeros took other 16-bit words: the ones' complement sum goes on over them. -/
def sumWith (sum : Nat) (words : List Nat) : Nat :=
  let fold := fun (x : Nat) => x % 65536 + x / 65536
  let y := fold (fold ((65535 - sum % 65536) + (words.map (· % 65536)).foldl (· + ·) 0))
  if y = 65535 then 65535 else 65535 - y

/-- The 16-bit words of an origin timestamp, of 48 bits of seconds and 32 of nanoseconds, from units of 0.25 ns (R258). -/
def stampWords (t : Int) : List Nat :=
  let ns := (t / 4).toNat
  let sec := ns / 1000000000
  let sub := ns % 1000000000
  [sec / 2 ^ 32, sec / 65536, sec, sub / 65536, sub].map (· % 65536)

/-- A frame begins to leave. An event message is timestamped: a one-step Sync carries the timestamp, a two-step one has a Follow_Up that does
(R258). -/
def State.startFrame (s : State) (n : Nat) (f : TxFrame) (left : Nat) : State :=
  let t := s.txTimestamp n left
  let oneStep := s.on 0x33 0 6
  let kind := match f.kind with
    | .sync _ sum => if oneStep then TxKind.sync (some t) (sumWith sum (stampWords t)) else TxKind.sync none sum
    | k => k
  let s1 := s.setNet (fun g => { g with
    queue := Cells.upd [] g.queue n (fun l => l.erase f), wire := Cells.put 0 g.wire n (8 * f.bytes * s.fs)
    sent := Cells.put [] g.sent n [{ f with kind := kind, dscp := s.dscpOf kind }], txStamp := if f.kind.queue = 0 then t else g.txStamp })
  let s2 := if f.kind.limited then s1.ctlPay n 1 f.bytes else s1
  match f.kind with
  | .sync _ _ => if oneStep then s2 else s2.enqueue n (.followUp t) (ptpBytes (.followUp t))
  | _ => s2

/-- What a port's line carries with `room` bits (times the engine rate) of the present sample; the first argument bounds the frames begun. -/
def State.drainPort (s : State) (n : Nat) : Nat → Nat → State
  | 0, _ => s
  | k + 1, room =>
    let busy := Cells.get 0 s.net.wire n
    if room < busy then s.setNet (fun g => { g with wire := Cells.put 0 g.wire n (busy - room) })
    else
      let s1 := s.setNet (fun g => { g with wire := Cells.put 0 g.wire n 0 })
      match nextFrame (s.ctlFree n 1) s.mcc (Cells.get [] s.net.queue n) with
      | none => s1
      | some f => (s1.startFrame n f (room - busy)).drainPort n k (room - busy)

/-- R309: the port that reaches an address: one whose subnet holds it, else one with a gateway. -/
def State.portFor (s : State) (a : Nat) : Option Nat :=
  let up := (List.range 4).filter s.linkUp
  (up.find? (fun n => sameNet a (s.at 0x30 n 2) (s.at 0x30 n 3))).orElse (fun _ => up.find? (fun n => decide (s.at 0x30 n 4 ≠ 0)))

/-- R309: the port that a datagram from an address arrives on: the one that reaches it, else any whose link is up (log entry 194). -/
def State.portFrom (s : State) (a : Nat) : Option Nat := (s.portFor a).orElse (fun _ => (List.range 4).find? s.linkUp)

/-- R309: VCP messages on their way join the queues of their ports; one that no port reaches is lost. -/
def State.vcpRoute (s : State) : State :=
  let s1 := s.vcp.out.foldl (fun (s : State) (d : Datagram) =>
    match s.portFor d.addr with
    | some n => s.enqueue n (.vcp d) d.wire
    | none => s) s
  { s1 with vcp := { s1.vcp with out := [] } }

/-- How often an interval of 2^log seconds has passed by a PHC time. -/
def intervals (t : Nat) (log : Int) : Nat :=
  if log < 0 then t * 2 ^ (-log).toNat / phcSecond else t / (phcSecond * 2 ^ log.toNat)

/-- The port that PTP runs on (R260). -/
def State.ptpPort (s : State) : Nat := if s.net.alt then s.at 0x33 0 8 else s.at 0x33 0 7

/-- The PTP messages (a Sync with the UDP checksum of its contents, which the spec does not give: a free value, log entry 188) that the time since
`before` has made due: a leader's Sync and Announce, a follower's Delay_Req, at their intervals (log
entry 174). -/
def State.ptpSend (s : State) (before : Nat) : State :=
  if !s.on 0x33 0 0 then s
  else
    let due := fun f => decide (intervals before (s.sat 0x33 0 f) < intervals s.net.phc.t (s.sat 0x33 0 f))
    let put := fun (k : TxKind) (on : Bool) (s : State) => if on then s.enqueue s.ptpPort k (ptpBytes k) else s
    let lead := decide (s.net.ptpSt = 4)
    let follow := decide (s.net.ptpSt = 2) || decide (s.net.ptpSt = 3)
    put .delayReq (follow && due 0x0D) (put .announce (lead && due 0x0C)
      (if lead && due 0x0B then (let (i, s') := s.draw; put (.sync none (Config.freeBits 16 i % 65536)) true s') else s))

/-- R254: one engine sample of every port that is up. -/
def State.netSend (s : State) (before : Nat) : State :=
  if !s.netOn || s.net.link.isEmpty then s
  else
    let s1 := (s.ptpSend before).vcpRoute
    s1.net.link.foldl (fun s n => s.drainPort n (2 * (Cells.get [] s.net.queue n).length + 1) (s.lineRate n)) s1

end Sys2Proof.Machine
end

