-- ==== Sys2Proof/Machine/Net.lean ====
section
/-! DEFINITION. Sys2Proof/Machine/Net.lean: Ethernet ports, the PTP hardware clock, PTP and the alignment of the MCC
(spec/10_network_streams_and_time.md, R253–R264). -/
namespace Sys2Proof.Machine

open Fmt

/-- R426: the roles that own the physical outputs. -/
def Role.owns : Role → Bool
  | .solo => true
  | .active => true
  | .standby => false
  | .joining => false
  | .fenced => false

/-! ### Ports -/

/-- NET_LINK_DOWN (R255). -/
def execNetLinkDown (n : Nat) (s : State) : Host.Outcome State Fault Refusal :=
  if s.linkUp n then .next (s.linkLost n) else .next s

/-- NET_LINK_UP (R255): the link of an enabled port. -/
def execNetLinkUp (n : Nat) (s : State) : Host.Outcome State Fault Refusal :=
  if n < 4 ∧ s.netOn ∧ s.on 0x30 n 0 ∧ ¬ s.linkUp n then .next (s.linkBack n) else .next s

/-- R258: the receive correction of a port in ps. -/
def rxCorrection (speed : Nat) : Int := if speed = 0 then 54700 else if speed = 1 then 33200 else 241500

/-- R258: the timestamp reported for an event message received at a PCS instant, both in units of 0.25 ns. -/
def State.rxTimestamp (s : State) (n : Nat) (raw : Nat) : Int :=
  ((raw : Int) * 250 + rxCorrection (s.at 0x30 n 1) + s.sat 0x30 n 8) / 250

/-- R260: PTP moves to a port and listens afresh with the PHC unlocked. -/
def State.ptpUnlock (s : State) : State :=
  let locked := decide (s.net.ptpSt = 3)
  let s1 := s.setNet (fun g => { g with
    ptpSt := if g.ptpSt = 3 then 2 else g.ptpSt, phc := { g.phc with within := 0, beyond := 0 } })
  if locked then (s1.raise .ptpUnlock 0 0 0).loseRef 4 |>.evaluate else s1

/-- R253, R266: whether a UDP frame is addressed to a leg of an enabled receive stream on its port. -/
def State.streamFrame (s : State) (n : Nat) (f : NetFrame) : Bool :=
  let leg := fun (i o : Nat) =>
    let from_ := s.at 0x35 i (o + 2)
    decide (s.at 0x35 i (o + 3) = n) && decide (s.at 0x35 i o = f.dst) && decide (s.at 0x35 i (o + 1) = f.udp)
      && (decide (from_ = 0) || decide (from_ = f.src))
  (List.range 256).any (fun i => s.on 0x35 i 0 && (leg i 8 || leg i 0xC))

/-- The PTP addresses of IEEE 1588 over IPv4, or the port's own (PRESUMED, log entry 174). -/
def State.ptpAddress (s : State) (n a : Nat) : Bool := decide (a = 0xE0000181) || decide (a = 0xE000006B) || decide (a = s.at 0x30 n 2)

/-- The addresses of a port: its own, and while the chip owns the outputs tw.ctl_ip (R436). -/
def State.ownAddress (s : State) (n a : Nat) : Bool :=
  decide (a = s.at 0x30 n 2) || (decide (s.at 0x50 0 0x22 ≠ 0) && s.twin.role.owns && decide (a = s.at 0x50 0 0x22))

/-- R253: what a frame is to its port: IPv4 within the maximum length that streams, PTP or VCP take, or that firmware handles; every other frame
is discarded. -/
def State.classify (s : State) (n : Nat) (f : NetFrame) : FrameK :=
  if !f.fcs then .badFcs
  else if (if f.tagged then 1522 else 1518) < f.len then .other
  else if f.etype = 0x0806 then .arp
  else if f.etype ≠ 0x0800 then .other
  else match f.proto with
    | 1 => if f.msg = 8 ∨ f.msg = 0 then .icmp else .other
    | 2 => if f.msg = 0x11 ∨ f.msg = 0x16 ∨ f.msg = 0x17 ∨ f.msg = 0x22 then .igmp else .other
    | 17 =>
      if f.udp = 319 ∧ s.ptpAddress n f.dst then .ptpEvent
      else if f.udp = 320 ∧ s.ptpAddress n f.dst then .ptpGeneral
      else if f.udp = 4870 ∧ s.ownAddress n f.dst then .vcp
      else if s.streamFrame n f then .stream
      else .other
    | _ => .other

/-- R253: a frame discarded and counted. -/
def State.dropFrame (s : State) (n : Nat) : State := s.setNet (fun g => { g with drop := Cells.upd 0 g.drop n (satInc · 1) })

/-- What firmware and hardware send in answer (R253, R254): ARP and echo replies for the port's addresses, an IGMP report in the version of
net[n].igmp to a query, which wait while the control cores are stalled (R255; log entry 188), and a leader's Delay_Resp. -/
def State.answerFrame (s : State) (n : Nat) (f : NetFrame) (k : FrameK) : State :=
  let mine := s.ownAddress n f.dst
  match k with
  | .arp => if mine ∧ f.msg = 1 then s.firmwareSends n .arp 88 else s
  | .icmp => if mine ∧ f.msg = 8 then s.firmwareSends n .icmp (f.len + 20) else s
  | .igmp => if f.msg = 0x11 then s.firmwareSends n (.igmp (s.at 0x30 n 9)) 88 else s
  | .ptpEvent =>
    if s.net.ptpSt = 4 ∧ n = s.ptpPort ∧ f.msg % 16 = 1 then s.enqueue n (.delayResp s.net.ptpStamp) (ptpBytes (.delayResp 0)) else s
  | .ptpGeneral => s
  | .stream => s
  | .vcp => s
  | .other => s
  | .badFcs => s

/-- NET_FRAME_RECEIVE: a frame goes to hardware, to firmware, or to the discard counter (R253, R258); firmware frames beyond the limit of R254
are discarded. `stamp` is the PCS instant of its start, in units of 0.25 ns. The packets of streams and the datagrams of VCP have commands of
their own. -/
def execNetFrameReceive (n : Nat) (f : NetFrame) (stamp : Nat) (s : State) : Host.Outcome State Fault Refusal :=
  let k := s.classify n f
  let limited := decide (k = .arp) || decide (k = .icmp) || decide (k = .igmp)
  if !s.linkUp n then .next s
  else if limited && !s.ctlFree n 0 then .next (s.dropFrame n)
  else
    let s1 := if limited then s.ctlPay n 0 (f.len + 20) else s
    match k with
    | .badFcs => .next (s1.setNet (fun g => { g with crc := Cells.upd 0 g.crc n (satInc · 1) }))
    | .other => .next (s1.dropFrame n)
    | .ptpEvent => .next ((s1.setNet (fun g => { g with ptpStamp := s.rxTimestamp n stamp })).answerFrame n f k)
    | .ptpGeneral =>
      -- R260: announces have returned on ptp.port
      if f.msg % 16 = 0xB ∧ s1.net.alt ∧ n = s1.at 0x33 0 7 then
        .next (s1.ptpUnlock.setNet (fun g => { g with alt := false, ptpSt := 1 }))
      else .next s1
    | .stream => .next s1
    | .vcp => .next s1
    | .arp => .next (s1.answerFrame n f k)
    | .icmp => .next (s1.answerFrame n f k)
    | .igmp => .next (s1.answerFrame n f k)

/-! ### The PTP hardware clock -/

/-- Range of the adjustment word (R256). -/
def adjMax : Int := 8589935

/-- PHC time in whole nanoseconds. -/
def State.phcNs (s : State) : Nat := s.net.phc.t / 2 ^ 32

/-- R259: pulses of an event timer that lie before the present PHC time are not given. -/
def State.timerStart (s : State) (i : Nat) : State :=
  let t0 := s.at 0x32 i 1 * 1000000000 + s.at 0x32 i 2
  s.setNet (fun g => { g with timers := Cells.put 0 g.timers i (cdiv (s.phcNs - t0) (s.at 0x32 i 3)) })

/-- R259: after a step of PHC time the event timers pulse at the times still to come; a pulse under way keeps its width (log entry 188). -/
def State.timersStep (s : State) (before : Nat) : State :=
  let s1 := (List.range 8).foldl (fun s i => if s.at 0x32 i 0 ≠ 0xFF then s.timerStart i else s) s
  s1.setNet (fun g => { g with pulse := Cells.mapVal (fun t => if before < t then t - before + s.phcNs else 0) g.pulse })

/-- R257, R264: a step of PHC time; the CKU takes it as a new phase target of REF4. An aligned MCC that it leaves off the instants of M by more
than 50 ns, or with another count, is unaligned until the slew has ended. -/
def State.phcStep (s : State) (t : Nat) : State :=
  let s1 := (s.setNet (fun g => { g with phc := { g.phc with t := t, rem := 0 } })).timersStep s.phcNs
  if s1.cku.sel = 4 then
    let s2 := s1.setNet (fun g => { g with edgeErr := s1.edgeNs })
    if s2.net.mcc = 2 ∧ s2.net.edgeErr.natAbs ≤ 50 ∧ s2.delta = 0 then s2
    else
      let s3 := if s2.net.mcc = 2 then s2.unalign else s2
      (s3.setCku (fun c => { c with slewing := true, slewMod := s3.slewUnit })).setNet (fun g => { g with mcc := 1 })
  else s1

/-- PTP_OFFSET_MEASUREMENT: one offset in ns of the PHC from its leader, and the leader's clock identity (R256). The servo's gains
are not given: the adjustment word it writes is a free value within its range (log entry 3). -/
def execPtpOffsetMeasurement (offset : Int) (leader : Nat) (s : State) : Host.Outcome State Fault Refusal :=
  if s.netOn ∧ s.on 0x33 0 0 ∧ (s.net.ptpSt = 1 ∨ s.net.ptpSt = 2 ∨ s.net.ptpSt = 3) ∧ s.at 0x33 0 3 ≠ 1 then
    let lockNs := s.at 0x33 0 0x0A
    let locked := decide (s.net.ptpSt = 3)
    let s1 := s.setNet (fun g => { g with
      offset := offset, leader := leader % 2 ^ 64, ptpSt := if locked then 3 else 2 })
    let s2 :=
      if !locked ∧ 100000 < offset.natAbs then
        s1.phcStep ((s1.net.phc.t : Int) - offset * 2 ^ 32).toNat
      else
        let (i, s') := s1.draw
        s'.setNet (fun g => { g with phc := { g.phc with adj := clampI (-adjMax) adjMax (Config.freeInt i) } })
    let inside := decide (offset.natAbs ≤ lockNs)
    let outside := decide (10 * lockNs < offset.natAbs)
    let s3 := s2.setNet (fun g => { g with phc := { g.phc with
      within := if inside then g.phc.within + 1 else 0, beyond := if outside then g.phc.beyond + 1 else 0 } })
    if !locked ∧ 16 ≤ s3.net.phc.within then
      .next ((s3.setNet (fun g => { g with ptpSt := 3, phc := { g.phc with beyond := 0 } })).raise .ptpLock 0 0 0)
    else if locked ∧ 4 ≤ s3.net.phc.beyond then .next s3.ptpUnlock
    else .next s3
  else .next s

/-- ANNOUNCE_TIMEOUT: the PHC leaves lock; PTP moves to the alternate port where one is named (R256, R260). A clock whose role is
decided by the best master clock algorithm becomes leader where it stays (log entry 33). -/
def execAnnounceTimeout (s : State) : Host.Outcome State Fault Refusal :=
  if s.netOn ∧ s.on 0x33 0 0 ∧ (s.net.ptpSt = 1 ∨ s.net.ptpSt = 2 ∨ s.net.ptpSt = 3) then
    let s1 := s.ptpUnlock
    if s.at 0x33 0 8 ≠ 0xFF ∧ !s.net.alt then .next (s1.setNet (fun g => { g with alt := true, ptpSt := 1 }))
    else if s.at 0x33 0 3 ≠ 0 then .next (s1.setNet (fun g => { g with ptpSt := 4 }))
    else .next (s1.setNet (fun g => { g with ptpSt := 1 }))
  else .next s

/-- R259: whether event timer i holds its pin high. -/
def State.timerPin (s : State) (i : Nat) : Bool := decide (s.phcNs < Cells.get 0 s.net.pulse i)

/-- PHC_TIMER_PULSE: the next pulse of event timer i is due (R259): its pin rises for phc.io.width. -/
def execPhcTimerPulse (i : Nat) (s : State) : Host.Outcome State Fault Refusal :=
  if i < 8 ∧ s.netOn ∧ s.at 0x32 i 0 ≠ 0xFF ∧
      s.at 0x32 i 1 * 1000000000 + s.at 0x32 i 2 + Cells.get 0 s.net.timers i * s.at 0x32 i 3 ≤ s.phcNs then
    let t := s.at 0x32 i 1 * 1000000000 + s.at 0x32 i 2 + Cells.get 0 s.net.timers i * s.at 0x32 i 3
    .next ((s.setNet (fun g => { g with
      timers := Cells.upd 0 g.timers i (· + 1), pulse := Cells.put 0 g.pulse i (t + s.at 0x32 i 4) })).raise .phcTimer 0 i 0)
  else .next s

/-- PHC_CAPTURE: a selected edge on the pin of capture unit i, 8…15 (R259). -/
def execPhcCapture (i : Nat) (rising : Bool) (s : State) : Host.Outcome State Fault Refusal :=
  let edge := s.at 0x32 i 5
  if 8 ≤ i ∧ i < 16 ∧ s.netOn ∧ s.at 0x32 i 0 ≠ 0xFF ∧
      (edge = 2 ∨ (edge = 0 ∧ rising = true) ∨ (edge = 1 ∧ rising = false)) then
    let t := s.phcNs
    .next ((s.setNet (fun g => { g with capture := Cells.put 0 g.capture i t })).raiseD .phcCapture 0 i
      (two (t / 1000000000) ++ [t % 1000000000, s.net.phc.t % 2 ^ 32]))
  else .next s

/-- PHC_SET: host software sets the time of day, which steps the PHC once (R261). While PD_NET is off the PHC does not run (R20) and the
request answers E_STATE (log entry 150). -/
def execPhcSet (r : Req) (sec ns : Nat) (s : State) : Host.Outcome State Fault Refusal :=
  .next (s.serve r 0x0501 0 (fun _ s =>
    if s.twin.role = .standby ∨ s.twin.role = .joining ∨ s.twin.role = .fenced ∨ !bit s.power.domains 1 then (s, Ans.fail Err.state)
    else if 2 ^ 48 ≤ sec ∨ 1000000000 ≤ ns then (s, Ans.fail Err.range)
    else (s.phcStep ((sec * 1000000000 + ns) * 2 ^ 32), Ans.good [])))

/-- One engine sample of the PHC (log entry 34): 10^9 / fs ns, plus the adjustment word over the clk_ptp cycles of the sample except where
amclk and the PHC keep step (as leader, R261, and while REF4 is selected and locked, R263), less the phase by which a slew advances amclk
(R289, R291), which is amclk's departure in ppt while it lasts. -/
def State.phcTick (s : State) : State :=
  if !s.netOn then s
  else
    let lead := decide (s.net.ptpSt = 4) || (decide (s.cku.sel = 4) && decide (s.cku.st = .locked))
    let adj : Int := if lead then 0 else s.net.phc.adj * 250000000
    let lim : Int := ((s.at 0x41 0 2 * 2 ^ 32 : Nat) : Int)
    let slew : Int := if s.cku.slewing then clampI (-lim) lim (s.slewLeft s.cku.slewMod) else 0
    let n := ((s.net.phc.rem : Int) + (phcSecond : Int) + adj - slew).toNat
    let s1 := s.setNet (fun g => { g with phc := { g.phc with t := g.phc.t + n / s.fs, rem := n % s.fs } })
    -- the slew is a departure of amclk's frequency; a locked one ends where it has arrived
    if s.cku.sel = 4 then s1.setCku (fun c => { c with
      prop := (slew * 1000).tdiv (2 ^ 32), slewing := c.slewing && !(decide (c.st = .locked) && decide (slew = s.slewLeft c.slewMod)) })
    else s1

/-! ### Alignment of the MCC (R263, R264) -/

/-- R263: a renumbering is asked for, and amclk slews to it. -/
def State.askAlign (s : State) : State :=
  (s.setNet (fun g => { g with align := true, mcc := 1 })).setCku (fun c => { c with slewing := true, slewMod := s.B })

/-- MCC_ALIGN: renumbering on request (R263). -/
def execMccAlign (r : Req) (s : State) : Host.Outcome State Fault Refusal :=
  .next (s.serve r 0x0502 0 (fun _ s =>
    if s.twin.role = .standby ∨ s.twin.role = .joining ∨ s.twin.role = .fenced then (s, Ans.fail Err.state)
    else if s.scene.sets.any (fun x => x.st = .scheduled) ∨ s.scene.cues.any (fun c => c.2.st = .armed) then
      (s, Ans.fail Err.busy)
    else (s.askAlign, Ans.good [])))

/-- MCC_UNALIGNED: the CKU has left REF4 or the edge error exceeds ±50 ns (R264). -/
def execMccUnaligned (edge : Int) (s : State) : Host.Outcome State Fault Refusal :=
  if s.net.mcc = 2 ∧ (s.cku.sel ≠ 4 ∨ 50 < edge.natAbs) then
    .next ((s.setNet (fun n => { n with edgeErr := edge })).unalign)
  else .next s

/-- MCC_REALIGNED: REF4 is selected again and the edge error is within ±50 ns with Δ = 0 (R264; Δ to the nearest instant, log entry 190). -/
def execMccRealigned (edge : Int) (s : State) : Host.Outcome State Fault Refusal :=
  if s.net.mcc = 0 ∧ s.cku.sel = 4 ∧ edge.natAbs ≤ 50 ∧ s.delta = 0 then
    .next ((s.setNet (fun n => { n with mcc := 2, edgeErr := edge })).raiseD .mccAligned 0 0 (two 0))
  else .next s

end Sys2Proof.Machine
end

