-- ==== Sys2Proof/Machine/Src.lean ====
section
/-! DEFINITION. Sys2Proof/Machine/Src.lean: the channels of the rate converter bank (R235–R241). -/
namespace Sys2Proof.Machine

open Fmt

/-- R240. -/
def lSrc (inRate outRate : Nat) : Nat := 8 + (if outRate ≤ inRate then 32 else cdiv (32 * outRate) inRate)

/-- A port channel that needs conversion: reference, direction, nominal input and output rate, fixed ratio. -/
structure SrcUse where
  user    : Nat
  dir     : Nat
  inRate  : Nat
  outRate : Nat
  fixed   : Bool
  deriving DecidableEq, Repr

/-- A channel just reserved. -/
def SrcUse.fresh (u : SrcUse) (now : Nat) : SrcCh :=
  { SrcCh.reset with
    user := u.user, dir := u.dir, acq := !u.fixed, fixed := u.fixed
    ratio := if u.outRate = 0 then 0 else u.inRate * 2 ^ 24 / u.outRate
    latency := lSrc u.inRate u.outRate, next := now }

/-- The reservation of every use (R235): channels whose use has gone are free, and each new use takes the lowest free channel. -/
def srcReserve (c : Cells SrcCh) (bound now : Nat) (uses : List SrcUse) : Cells SrcCh :=
  let serves := fun (x : SrcCh) (u : SrcUse) => decide (x.user = u.user) && decide (x.dir = u.dir)
  let kept := c.map (fun q => if uses.any (serves q.2) then q else (q.1, { SrcCh.reset with unlocks := q.2.unlocks }))
  uses.foldl (fun c u =>
    if c.any (fun q => serves q.2 u) then c
    else match (List.range bound).find? (fun i => decide ((Cells.get SrcCh.reset c i).user = 0)) with
      | some i => Cells.put SrcCh.reset c i { u.fresh now with unlocks := (Cells.get SrcCh.reset c i).unlocks }
      | none => c) (kept.filter (fun q => decide (q.2 ≠ SrcCh.reset)))

/-- The SRC channel of a port channel. -/
def State.srcOf (s : State) (user dir : Nat) : Option (Nat × SrcCh) :=
  s.conv.src.find? (fun q => decide (q.2.user = user) && decide (q.2.dir = dir))

/-- The rate converters and decimators changed. -/
def State.setConv (s : State) (f : ConvG → ConvG) : State := { s with conv := f s.conv }
/-- One SRC channel changed. -/
def State.updSrc (s : State) (i : Nat) (f : SrcCh → SrcCh) : State :=
  s.setConv (fun g => { g with src := Cells.upd SrcCh.reset g.src i f })

/-- Input samples that a channel's filter holds: 64, or more where the input is faster than the output. -/
def SrcCh.window (x : SrcCh) : Nat := max 64 (cdiv (64 * x.ratio) (2 ^ 24))

/-- The input samples behind a channel's next output sample: those fed to a receive channel, the last output stage exits of a transmit
channel. -/
def State.srcPast (s : State) (x : SrcCh) : List Int :=
  if x.dir = 0 then x.past else (List.range (min 512 x.window)).map (fun j => toS 32 (wrapU 32 (s.portAt x.user (s.mcc - 3 - j))))

/-- A sample enters a receive channel. -/
def State.srcFeed (s : State) (user : Nat) (v : Int) : State :=
  match s.srcOf user 0 with
  | none => s
  | some (i, x) => s.updSrc i (fun x => { x with past := (v :: x.past).take (min 512 x.window) })

/-- One sample of a converter's output: exact zero where its filter holds nothing else, or while it is not locked and has nothing to fade
(R237); otherwise a free function of what the filter holds (R236; log entry 3). -/
def State.srcValue (s : State) (x : SrcCh) (width : Nat) : Int × State :=
  if x.locked || x.lost || x.slot.fade.isSome then
    let l := s.srcPast x
    let (k, s1) := s.takeFree
    (if l.all (fun v => decide (v = 0)) then 0 else satS width (Config.convert k l), s1)
  else (0, s)

/-- One output sample of a channel with sample number n; a fixed ratio locks on the first (R237, R239). -/
def State.srcOut (s : State) (i n width : Nat) : Int × State :=
  let x0 := Cells.get SrcCh.reset s.conv.src i
  let s0 := if x0.fixed && !x0.locked then
      (s.updSrc i (fun x => { x with locked := true, slot := { x.slot.start n with held := 0 } })).raise .srcLock 0 i 0
    else s
  let x := Cells.get SrcCh.reset s0.conv.src i
  let (v, s1) := s0.srcValue x width
  let (st, y) := x.slot.sample v n s.tzc s.lramp
  (y, s1.updSrc i (fun x => { x with slot := st }))

/-- A receive channel's engine-rate samples below a stamp. -/
def State.srcAdvance (s : State) (i upTo : Nat) : State :=
  let x0 := Cells.get SrcCh.reset s.conv.src i
  if x0.user = 0 ∨ x0.dir ≠ 0 ∨ refType x0.user = 4 then s
  else
    (List.range (upTo - x0.next)).foldl (fun s j =>
      let n := x0.next + j
      let (y, s1) := s.srcOut i n 48
      (s1.putRx x0.user n y).updSrc i (fun x => { x with next := n + 1 })) s

/-- The channels of a port (by the port part of their references) brought up to now, then changed. -/
def State.srcsOfPort (s : State) (port dir : Nat) (f : SrcCh → SrcCh) : State :=
  (s.conv.src.filter (fun q => decide (q.2.user / 65536 = port) && decide (q.2.dir = dir) && decide (q.2.user ≠ 0))).foldl
    (fun s q => (s.srcAdvance q.1 s.mcc).updSrc q.1 f) s

/-- R238: the port's own fade governs: a channel that was locked goes on converting what the port delivers. -/
def SrcCh.portLost (x : SrcCh) : SrcCh := { x with lost := x.locked, locked := false, acq := false }
/-- R237, R238: the channel acquires, and delivers exact zero until it locks. -/
def SrcCh.acquire (x : SrcCh) : SrcCh :=
  { x with acq := !x.fixed, locked := false, lost := false, slot := SlotSt.reset, past := [] }

/-- R237, R241: a measured ratio, in units of 2^-24, enters the tracking loop of an asynchronous channel. -/
def State.srcTrack (s : State) (user dir ratio : Nat) : State :=
  match s.srcOf user dir with
  | none => s
  | some (i, x) =>
    if x.fixed ∨ !(x.locked || x.acq) then s
    else s.updSrc i (fun x => { x with ratio := Config.track x.ratio ratio % 2 ^ 32 })

/-- The channels of a stream's direction, by the stream part of their references, changed. -/
def State.srcsOfStream (s : State) (i dir : Nat) (f : SrcCh → SrcCh) : State :=
  s.setConv (fun g => { g with src := g.src.map (fun q =>
    if q.2.user / 256 = 0x040000 + i ∧ q.2.dir = dir then (q.1, f q.2) else q) })

/-- R235: the channels of a stream's direction are free; their unlock counts stay. -/
def State.srcDrop (s : State) (i dir : Nat) : State := s.srcsOfStream i dir (fun x => { SrcCh.reset with unlocks := x.unlocks })

end Sys2Proof.Machine
end

