-- ==== Sys2Proof/Machine/Stream.lean ====
section
/-! DEFINITION. Sys2Proof/Machine/Stream.lean: audio streams (R265–R277). -/
namespace Sys2Proof.Machine

open Fmt

/-! ### Streams and the engine -/

/-- How a stream meets the engine (R22): directly, through the PR4 half-band converter, or through the SRC. -/
inductive Path where
  | direct | half | src
  deriving DecidableEq, Repr

/-- R22: the path of a stream rate. -/
def Cap.path (c : Cap) (rate : Nat) : Option Path :=
  if c.fam = 0 then
    (if c.prof = 0 ∧ rate = 48000 then some .direct
     else if c.prof = 1 ∧ rate = 96000 then some .direct
     else if c.prof = 2 ∧ rate = 96000 then some .half
     else none)
  else some .src

/-- The path of a stream in force. -/
def State.path (s : State) (rate : Nat) : Path := (s.cap.path rate).getD .direct

/-- The present stream count (R267): the MCC at the stream rate; through the SRC the PHC's own media count. -/
def State.streamNow (s : State) (rate : Nat) : Nat :=
  match s.path rate with
  | .direct => s.mcc
  | .half => s.mcc / 2
  | .src => s.net.phc.t * rate / phcSecond

/-- The MCC stamp of a stream count. -/
def State.engineStamp (s : State) (rate x : Nat) : Nat :=
  match s.path rate with
  | .direct => x
  | .half => 2 * x
  | .src => ((s.mcc : Int) + ((x : Int) - (s.streamNow rate : Int)) * (s.fs : Int) / (rate : Int)).toNat

/-- The port channel of a stream (R266). -/
def streamRef (i ch : Nat) : Nat := 0x04000000 + i * 256 + ch

/-- The buffer before the 2:1 converter of a stream's port channel. -/
def halfRef (ref : Nat) : Nat := ref + 2 ^ 32
/-- Engine samples that the half-band filter spans: a linear-phase filter that delays by 32 (R276). -/
def halfSpan : Nat := 65

/-- Samples per packet of a stream of a class. -/
def State.streamP (s : State) (cls i : Nat) : Nat := packetP (s.at cls i 4) (s.at cls i 2)

/-- One receive stream. -/
def State.rxStream (s : State) (i : Nat) : RxStream := Cells.get RxStream.reset s.net.rx i
/-- One receive stream changed. -/
def State.updRx (s : State) (i : Nat) (f : RxStream → RxStream) : State :=
  s.setNet (fun g => { g with rx := Cells.upd RxStream.reset g.rx i f })
/-- One transmit stream. -/
def State.txStream (s : State) (i : Nat) : TxStream := Cells.get TxStream.reset s.net.tx i
/-- One transmit stream changed. -/
def State.updTx (s : State) (i : Nat) (f : TxStream → TxStream) : State :=
  s.setNet (fun g => { g with tx := Cells.upd TxStream.reset g.tx i f })

/-- R267: the 64-bit count nearest to `now` with the given low 32 bits. -/
def lift32 (now t : Nat) : Nat :=
  let x := now / 2 ^ 32 * 2 ^ 32 + t % 2 ^ 32
  if now + 2 ^ 31 < x ∧ 2 ^ 32 ≤ x then x - 2 ^ 32 else if x + 2 ^ 31 ≤ now then x + 2 ^ 32 else x

/-- Status word of a receive stream. -/
def RxStream.status (x : RxStream) : Nat :=
  b2n x.running + 2 * b2n x.loss + 4 * b2n x.legA + 8 * b2n x.legB + 16 * b2n x.resuming

/-! ### Input decisions of a twin pair (R431) -/

/-- Whether a pair runs on one set of input records: in step, or from j0 of a resynchronisation on (R446). -/
def State.paired (s : State) : Bool :=
  s.power.straps.twinEn && (match s.twin.role with
    | .active => true
    | .standby => true
    | .solo => decide (3 ≤ s.twin.resync)
    | .joining => decide (3 ≤ s.twin.resync)
    | .fenced => false)

/-- Whether the chip takes the lead's decisions in place of its own. -/
def State.obeys (s : State) : Bool := s.paired && !s.twin.role.owns

/-- A decision of the lead enters the record being filled; those of the headset come from the chip with PAIR_ID 0. -/
def State.note (s : State) (i : InItem) : State :=
  let here := match i with
    | .hsp _ _ => s.paired && !s.power.straps.pairId
    | .mic _ => s.paired && !s.power.straps.pairId
    | _ => s.paired && s.twin.role.owns
  if here then { s with twin := { s.twin with closing := s.twin.closing ++ [i] } } else s

/-- What a held decision decides: a later one on the same thing takes its place. -/
def InItem.key : InItem → Option (Nat × Nat)
  | .sapLoss p d _ _ => some (0, 2 * p + d)
  | .sapResume p d _ _ => some (0, 2 * p + d)
  | .madiLoss p _ _ => some (1, p)
  | .madiResume p _ _ => some (1, p)
  | .sapSlip _ _ _ => none
  | .madiRepeat _ _ _ => none
  | .ratio i _ => some (2, i)
  | .packet _ _ _ _ _ => none
  | .decsync _ => some (3, 0)
  | .mic _ => some (4, 0)
  | .hsp _ _ => some (5, 0)

/-- A decision of the follower's own monitors and buffers, kept for the first frame tick at which it leads. -/
def State.hold (s : State) (i : InItem) : State :=
  { s with twin := { s.twin with held := (s.twin.held.filter (fun j => i.key.isNone || decide (j.key ≠ i.key))) ++ [i] } }

/-! ### Receiving -/

/-- One sample of a payload: channel interleaved, most significant byte first, as E48 (R6). -/
def payloadSample (payload : List Nat) (bytes chans j ch : Nat) : Int :=
  let w := ofBE (slice payload ((j * chans + ch) * bytes) bytes)
  toS (8 * bytes) w * 2 ^ (41 - 8 * bytes)

/-- The samples of a packet written into the alignment buffer from stamp x of the stream (R267). The samples of a
stream behind the SRC enter its channels as they arrive; those of a stream behind the 2:1 converter stand at their stamps in the
converter's own buffer. -/
def State.writePacket (s : State) (i x : Nat) (payload : List Nat) : State :=
  let chans := s.at 0x35 i 3
  let bytes := s.at 0x35 i 1 + 2
  let P := s.streamP 0x35 i
  let into := fun (f : State → Nat → Nat → Int → State) => (List.range P).foldl (fun s j => (List.range chans).foldl (fun s ch =>
    f s j ch (payloadSample payload bytes chans j ch)) s) s
  match s.path (s.at 0x35 i 2) with
  | .direct => into (fun s j ch v => s.putRx (streamRef i ch) (x + j) v)
  | .src => into (fun s _ ch v => s.srcFeed (streamRef i ch) v)
  | .half => into (fun s j ch v => s.putRx (halfRef (streamRef i ch)) (2 * (x + j)) v)

/-- R432: the lead time a packet needs, in ns: 1 µs, or 6 µs while a pair is in step. -/
def State.leadNs (s : State) : Nat :=
  if s.twin.role = .active ∨ s.twin.role = .standby then 6000 else 1000

/-- R271: a leg's copy within the merge window: the leg's bit sets, with EV_STREAM_LEG where 16 misses had cleared it. -/
def State.legBack (s : State) (i leg : Nat) : State :=
  let x := s.rxStream i
  if leg = 0 then
    let s1 := s.updRx i (fun x => { x with legA := true, runA := 0 })
    if !x.legA ∧ 16 ≤ x.runA then s1.raise .streamLeg 0 i 2 else s1
  else
    let s1 := s.updRx i (fun x => { x with legB := true, runB := 0 })
    if !x.legB ∧ 16 ≤ x.runB then s1.raise .streamLeg 0 i 4 else s1

/-- Nanoseconds from a copy's arrival to an instant of the present sample. -/
def State.since (s : State) (c : Copy) (ns : Nat) : Int :=
  (((s.mcc : Int) - (c.mcc : Int)) * 1000000000) / (s.fs : Int) + (ns : Int) - (c.ns : Int)

/-- R271: the samples of a packet in use replaced by those of its other copy. -/
def State.rewritePacket (s : State) (i x : Nat) (payload : List Nat) : State :=
  let P := s.streamP 0x35 i
  let s1 := match s.path (s.at 0x35 i 2) with
    | .src => s.srcsOfStream i 0 (fun q => { q with past := q.past.drop P })
    | .direct => s
    | .half => s
  s1.writePacket i x payload

/-- R271: the second copy of a sequence number; x is its first sample's stream stamp. -/
def State.secondCopy (s : State) (i leg x ns : Nat) (payload : List Nat) (c : Copy) : State :=
  if c.leg = leg ∨ c.both ∨ (s.at 0x35 i 7 * 1000 : Nat) < s.since c ns then s
  else
    -- of two copies in one clk_fab cycle leg A's is in use
    let swap := decide (leg = 0) && decide (c.mcc = s.mcc) && decide (c.ns = ns)
    let s0 := if swap && !s.obeys then s.rewritePacket i x payload else s
    let s1 := s0.updRx i (fun x => { x with
      copies := x.copies.map (fun k => if k.seq = c.seq then { k with both := true, data := if swap then payload else k.data } else k) })
    let s2 := s1.legBack i leg
    if payload = c.data then s2
    else
      let s3 := s2.updRx i (fun x => { x with diff := satInc x.diff 1 })
      let due := match (s.rxStream i).diffSec with
        | none => true
        | some b => decide (b + s.fs ≤ s.mcc)
      if due then (s3.updRx i (fun x => { x with diffSec := some s.mcc })).raise .streamDiff 0 i 0 else s3

/-- R269: sixteen consecutive in-time packets: the stream resumes, and its SRC channels acquire again (R238). -/
def State.rxResume (s : State) (i stamp : Nat) : State :=
  let x := s.rxStream i
  if x.loss ∧ !x.stopping ∧ 16 ≤ x.good then
    let chans := s.at 0x35 i 3
    let slots := (List.range chans).foldl (fun c ch =>
      Cells.put SlotSt.reset c ch ((Cells.get SlotSt.reset x.slots ch).start stamp)) x.slots
    ((s.updRx i (fun x => { x with loss := false, resuming := true, missing := 0, slots := slots })).srcsOfStream i 0 SrcCh.acquire).raise
      .streamResume 0 i 0
  else s

/-- R237: a stream's converters take the ratio that the time since its last packet shows, in PHC time and in engine samples. -/
def State.netTrack (s : State) (i dir rate chans : Nat) (mark : Option (Nat × Nat)) : State :=
  match mark with
  | none => s
  | some (m, t) =>
    let a := rate * (s.net.phc.t - t)
    let b := phcSecond * (s.mcc - m)
    if s.path rate ≠ .src ∨ a = 0 ∨ b = 0 then s
    else (List.range chans).foldl (fun s ch =>
      s.srcTrack (streamRef i ch) dir (if dir = 0 then a * 2 ^ 24 / b else b * 2 ^ 24 / a)) s

/-- R269: the packets in an unbroken run around the one at stream count x, up to 16 on either side. -/
def runAt (got : List Nat) (P x : Nat) : Nat :=
  ((List.range 16).takeWhile (fun j => decide (j * P ≤ x) && got.contains (x - j * P))).length
    + ((List.range 16).takeWhile (fun j => got.contains (x + (j + 1) * P))).length

/-- R267: a packet in time: its samples enter the alignment buffer. es is the engine stamp of its first. -/
def State.takePacket (s : State) (i x es : Nat) (payload : List Nat) : State :=
  let P := s.streamP 0x35 i
  let s1 := (s.writePacket i x payload).netTrack i 0 (s.at 0x35 i 2) (s.at 0x35 i 3) (s.rxStream i).mark
  (s1.updRx i (fun r =>
    let got := (x :: r.got).take 4096
    { r with got := got, good := runAt got P x, mark := some (s.mcc, s.net.phc.t) })).rxResume i es

/-- R267, R268, R271: the first copy of a packet, in time, late or early. x is its first sample's stream stamp. -/
def State.firstCopy (s : State) (i leg seq x ns : Nat) (payload : List Nat) : State :=
  let rate := s.at 0x35 i 2
  let B := s.B
  let P := s.streamP 0x35 i
  let es := s.engineStamp rate x
  let tick := tickOf B es
  if tick ≤ s.mcc ∨ (tick - s.mcc) * 1000000000 < (s.leadNs + ns) * s.fs then
    s.updRx i (fun r => { r with late := satInc r.late 1 })
  else if s.streamNow rate + s.linkOffset i + P + 2 * B < x then
    s.updRx i (fun r => { r with early := satInc r.early 1 })
  else
    let c : Copy := { seq := seq, leg := leg, mcc := s.mcc, ns := ns, data := payload, both := false }
    let s1 := (s.updRx i (fun r => { r with copies := c :: r.copies.filter (fun k => decide (s.since k ns ≤ (s.at 0x35 i 7 * 1000 + 100000000 : Nat))) })).legBack i leg
    let item := InItem.packet i leg seq (x % 2 ^ 32) payload
    if s1.obeys then s1.hold item else (s1.takePacket i x es payload).note item

/-- The port of a leg, 0xFF none (R266). -/
def State.legPort (s : State) (cls i leg : Nat) : Nat :=
  if cls = 0x35 then s.at cls i (if leg = 0 then 0x0B else 0x0F) else s.at cls i (if leg = 0 then 0x0A else 0x0D)

/-- STREAM_PACKET_RECEIVE: a packet's last byte reaches the pins ns nanoseconds into the present sample (R267, R268, R271). -/
def execStreamPacketReceive (i leg seq ts ns : Nat) (payload : List Nat) (s : State) :
    Host.Outcome State Fault Refusal :=
  let r := s.rxStream i
  let P := s.streamP 0x35 i
  if i < 256 ∧ leg < 2 ∧ r.running ∧ s.linkUp (s.legPort 0x35 i leg) ∧
      payload.length = s.at 0x35 i 3 * P * (s.at 0x35 i 1 + 2) then
    let x := lift32 (s.streamNow (s.at 0x35 i 2)) ts + s.linkOffset i
    match r.copies.find? (fun c => c.seq = seq) with
    | some c => .next (s.secondCopy i leg x ns payload c)
    | none => .next (s.firstCopy i leg seq x ns payload)
  else .next s

/-- STREAM_LEG_MISS: the merge window of a packet ends without the leg's copy (R271). -/
def execStreamLegMiss (i leg seq : Nat) (s : State) : Host.Outcome State Fault Refusal :=
  let r := s.rxStream i
  match r.copies.find? (fun c => c.seq = seq && !c.both && c.leg != leg) with
  | none => .next s
  | some c =>
    if 2 ≤ leg ∨ !r.running ∨ s.legPort 0x35 i leg = 0xFF ∨ s.since c 0 < (s.at 0x35 i 7 * 1000 : Nat) then .next s
    else
      let s1 := s.updRx i (fun x => { x with
        copies := x.copies.map (fun k => if k.seq = seq then { k with both := true } else k) })
      if leg = 0 then
        let s2 := s1.updRx i (fun x => { x with
          aMiss := satInc x.aMiss 1, runA := x.runA + 1, legA := x.legA && decide (x.runA + 1 < 16) })
        .next (if r.legA ∧ 16 ≤ r.runA + 1 then s2.raise .streamLeg 0 i 1 else s2)
      else
        let s2 := s1.updRx i (fun x => { x with
          bMiss := satInc x.bMiss 1, runB := x.runB + 1, legB := x.legB && decide (x.runB + 1 < 16) })
        .next (if r.legB ∧ 16 ≤ r.runB + 1 then s2.raise .streamLeg 0 i 3 else s2)

/-- R269: packets whose first samples the tick needs, from the count settled so far up to a stream count: received or lost. Two that miss in
a row stay counted, whatever follows them. -/
def settle (P : Nat) (got : List Nat) (lo : Nat) : Nat → RxStream → RxStream
  | 0, x => x
  | n + 1, x =>
    let y := if got.contains lo then { x with missing := if 2 ≤ x.missing then x.missing else 0 }
      else { x with lost := satInc x.lost 1, missing := x.missing + 1 }
    settle P got (lo + P) n { y with settled := lo + P }

/-- R269: two consecutive packets are missing: loss, and the stream's own fade governs (R238). -/
def State.rxLose (s : State) (i : Nat) : State :=
  let x := s.rxStream i
  if !x.loss ∧ 2 ≤ x.missing then
    ((s.updRx i (fun x => { x with
      loss := true, resuming := false, good := 0, slots := x.slots.map (fun c => (c.1, c.2.lose)) })).srcsOfStream i 0 SrcCh.portLost).raise
      .streamLoss 0 i 0
  else s

/-- R276: the engine samples that the half-band filter spans at stamp n, newest first: on receive the stream's, with zeros between
them, on transmit the output stage's. -/
def State.halfPast (s : State) (ref dir n : Nat) : List Int :=
  (List.range halfSpan).map (fun j =>
    if n < j then 0 else if dir = 0 then s.rxAt (halfRef ref) (n - j) else toS 32 (wrapU 32 (s.portAt ref (n - j))))

/-- One output sample behind a converter: of the SRC channel of a stream's port channel, or of the 2:1 converter, whose stamp n counts at
the stream rate on transmit: exact zero where its filter holds nothing else, otherwise a free function of what it holds (R276; log entry 3). -/
def State.streamOut (s : State) (ref dir n width : Nat) : Int × State :=
  match s.srcOf ref dir with
  | some (i, _) => s.srcOut i n width
  | none =>
    let l := s.halfPast ref dir (if dir = 0 then n else 2 * n)
    (if l.all (fun v => decide (v = 0)) then 0 else satS width (Config.halfBand dir l), s)

/-- One sample of one channel of a stream as the tick takes it: the received sample (the converter's behind one), or the last good
one (R269, R276, R235). -/
def State.rxSample (s : State) (i ch n : Nat) (have_ direct : Bool) : State :=
  let st := Cells.get SlotSt.reset (s.rxStream i).slots ch
  let (v, s1) := if direct then (s.rxAt (streamRef i ch) n, s) else s.streamOut (streamRef i ch) 0 n 48
  let (st', y) := if have_ then st.sample v n s.tzc s.lramp else st.again n
  (s1.updRx i (fun x => { x with slots := Cells.put SlotSt.reset x.slots ch st' })).putRx (streamRef i ch) n y

/-- STREAM_BLOCK_FILL (R269): a stream's samples of the block from stamp b. -/
def State.rxBlock (s : State) (i b : Nat) : State :=
  let x := s.rxStream i
  if !x.running then s
  else
    let rate := s.at 0x35 i 2
    let P := s.streamP 0x35 i
    let B := s.B
    let direct := decide (s.path rate = .direct)
    let cnt := fun n => match s.path rate with
      | .direct => n
      | .half => n / 2
      | .src => ((s.streamNow rate : Int) + ((n : Int) - (s.mcc : Int)) * (rate : Int) / (s.fs : Int)).toNat
    -- the packet grid follows the packets received
    let grid := (x.got.headD (s.linkOffset i)) % P
    let first := (cnt b + P - grid) / P * P + grid - P
    let lo := max x.settled first
    let hi := cnt (b + B - 1)
    let k := if hi < lo then 0 else (hi - lo) / P + 1
    let s0 := (s.updRx i (settle P x.got lo k)).rxLose i
    -- the count goes on from the last packet
    let s1 := if 0 < k ∧ x.got.contains (lo + (k - 1) * P) then s0.updRx i (fun r => { r with missing := 0 }) else s0
    let got := x.got
    let s2 := (List.range B).foldl (fun s j =>
      let c := cnt (b + j)
      let start := (c + P - grid) / P * P + grid - P
      let h := got.contains start
      (List.range (s.at 0x35 i 3)).foldl (fun s ch => s.rxSample i ch (b + j) h direct) s) s1
    s2.updRx i (fun x => { x with
      resuming := x.resuming && x.slots.any (fun c => !decide (c.2.z.gain = unity)) })

/-- STREAM_RX_RELEASE: every channel of a disabled stream applies 0 (R270); its SRC channels are free (R235). -/
def execStreamRxRelease (i : Nat) (s : State) : Host.Outcome State Fault Refusal :=
  let x := s.rxStream i
  if x.stopping ∧ x.slots.all (fun c => c.2.silent s.mcc) then
    .next ((s.updRx i (fun x => { RxStream.reset with
      lost := x.lost, late := x.late, early := x.early, diff := x.diff, aMiss := x.aMiss, bMiss := x.bMiss })).srcDrop i 0)
  else .next s

/-- R270: a committed change of rx[s].enable at sample c. -/
def State.rxEnable (s : State) (i c : Nat) (on : Bool) : State :=
  if on then (s.srcDrop i 0).updRx i (fun x => { RxStream.reset with
    running := true, loss := true
    slots := (List.range (s.at 0x35 i 3)).map (fun ch => (ch, { SlotSt.reset with z := Zc.at 0 }))
    settled := 0
    lost := x.lost, late := x.late, early := x.early, diff := x.diff, aMiss := x.aMiss, bMiss := x.bMiss })
  else s.updRx i (fun x => if x.running then
    { x with stopping := true, slots := x.slots.map (fun q => (q.1, q.2.mute c)) } else x)

/-! ### Transmitting -/

/-- R277: the legs a role sends: A, B. -/
def twinLegs (en pairId : Bool) (r : Role) : Bool × Bool :=
  if !en then (true, true)
  else match r with
    | .solo => (true, true)
    | .active => (!pairId, pairId)
    | .standby => (!pairId, pairId)
    | .joining => (false, false)
    | .fenced => (false, false)

/-- R273: the stagger offset of a transmit stream on the port of one of its legs, in units of 10 ns: floor(k × T / N) among the streams of
that port with its packet time. -/
def State.staggerOn (s : State) (i leg : Nat) : Nat :=
  let port := s.legPort 0x36 i leg
  let uses := fun (j : Nat) => decide (s.legPort 0x36 j 0 = port) || decide (s.legPort 0x36 j 1 = port)
  let same := (List.range 256).filter (fun j => s.on 0x36 j 0 && uses j && decide (s.at 0x36 j 4 = s.at 0x36 i 4))
  let k := (same.filter (fun j => j < i)).length
  if same.length = 0 then 0
  else k * s.streamP 0x36 i * 100000000 / (s.at 0x36 i 2 * same.length)

/-- R273: every stream's stagger recomputed, on both its ports. tx[s].stagger gives that of leg A, or of leg B where leg A has no port (log
entry 187). -/
def State.restagger (s : State) : State :=
  s.setNet (fun g => { g with tx := g.tx.map (fun c => (c.1, { c.2 with
    stagger := s.staggerOn c.1 (if s.legPort 0x36 c.1 0 = 0xFF then 1 else 0), staggerB := s.staggerOn c.1 1 })) })

/-- R273: the offset of a leg. -/
def TxStream.offset (x : TxStream) (leg : Nat) : Nat := if leg = 0 then x.stagger else x.staggerB

/-- R273: the sample in which the first bit of a packet that starts at stream count c leaves on a leg: P + 1 samples and the stagger after
its first sample's exit. -/
def State.emitAt (s : State) (i leg c : Nat) : Nat :=
  s.engineStamp (s.at 0x36 i 2) (c + s.streamP 0x36 i + 1) + (s.txStream i).offset leg * s.fs / 100000000

/-- R277: the legs of a packet that starts at stream count c. -/
def TxStream.legsAt (x : TxStream) (c : Nat) : Bool × Bool :=
  match x.before with
  | some (n, a, b) => if c < n then (a, b) else (x.legA, x.legB)
  | none => (x.legA, x.legB)

/-- Smallest multiple of P not below x. -/
def ceilMul (x P : Nat) : Nat := cdiv x P * P

/-- The first stream count at or after an MCC value (R274). -/
def State.streamFrom (s : State) (rate c : Nat) : Nat :=
  match s.path rate with
  | .direct => c
  | .half => cdiv c 2
  | .src => ((s.streamNow rate : Int) - ((s.mcc : Int) - (c : Int)) * (rate : Int) / (s.fs : Int)).toNat

/-- R274: a committed change of tx[s].enable at sample c. -/
def State.txEnable (s : State) (i c : Nat) (on : Bool) : State :=
  let P := s.streamP 0x36 i
  let x0 := s.streamFrom (s.at 0x36 i 2) c
  let legs := twinLegs s.power.straps.twinEn s.power.straps.pairId s.twin.role
  let s1 := if on then (s.srcDrop i 1).updTx i (fun _ => { TxStream.reset with
      running := true, next := ceilMul x0 P, legA := legs.1, legB := legs.2
      slots := (List.range (s.at 0x36 i 3)).map (fun ch => (ch, SlotSt.reset.start (ceilMul x0 P))) })
    else s.updTx i (fun x => if x.running then
      { x with stopping := true, slots := x.slots.map (fun q => (q.1, q.2.mute (max x0 x.next))) } else x)
  s1.restagger

/-- One channel's sample of a packet: the port channel's sample (the converter's behind one) through its mute, as a word of
the format. -/
def State.txSample (s : State) (i ch n bytes : Nat) (direct : Bool) : State × Nat :=
  let st := Cells.get SlotSt.reset (s.txStream i).slots ch
  let (v, s1) := if direct then (s.portAt (streamRef i ch) n, s) else s.streamOut (streamRef i ch) 1 n 32
  let (st', y) := st.sample v n s.tzc s.lramp
  (s1.updTx i (fun x => { x with slots := Cells.put SlotSt.reset x.slots ch st' }), wrapU (8 * bytes) (asr y (32 - 8 * bytes)))

/-- The payload of a packet that starts at stream count c (R272). -/
def State.txPayload (s : State) (i c : Nat) : State × List Nat :=
  let P := s.streamP 0x36 i
  let bytes := s.at 0x36 i 1 + 2
  let direct := decide (s.path (s.at 0x36 i 2) = .direct)
  (List.range P).foldl (fun a j => (List.range (s.at 0x36 i 3)).foldl (fun (a : State × List Nat) ch =>
    let (s', w) := a.1.txSample i ch (c + j) bytes direct
    (s', a.2 ++ toBE bytes w)) a) (s, [])

/-- R272: the 12 bytes of a packet's RTP header: version 2, marker 0, payload type, sequence number, timestamp, SSRC. -/
def Rtp.header (q : Rtp) : List Nat := [0x80, q.pt % 128] ++ toBE 2 q.seq ++ toBE 4 q.ts ++ toBE 4 q.ssrc

/-- STREAM_PACKET_TRANSMIT: the stream's next packet leaves, P + 1 samples after its first sample's output stage exit: it joins the audio queue of
the port of each leg, to leave there after the leg's stagger (R254, R272, R273, R277, R443). -/
def execStreamPacketTransmit (i : Nat) (s : State) : Host.Outcome State Fault Refusal :=
  let x := s.txStream i
  let P := s.streamP 0x36 i
  let rate := s.at 0x36 i 2
  if i < 256 ∧ x.running ∧ 0 < P ∧ x.next + P + 1 ≤ s.streamNow rate then
    let (s1, data) := s.txPayload i x.next
    let held := match s.twin.handover with
      | some h => decide (h ≤ s.engineStamp rate (x.next + P - 1))
      | none => false
    -- R255: after a link's return, the first packet that leaves begins at or after it
    let leg := fun (k : Nat) (on : Bool) =>
      let n := s.legPort 0x36 i k
      on && !held && s.linkUp n && decide (Cells.get 0 s.net.linkAt n ≤ s.engineStamp rate x.next)
    let rtp : Rtp := { ts := x.next % 2 ^ 32, seq := x.next / P % 65536, pt := s.at 0x36 i 5, ssrc := s.at 0x36 i 6,
                       data := data, legA := leg 0 (x.legsAt x.next).1, legB := leg 1 (x.legsAt x.next).2 }
    let put := fun (k : Nat) (on : Bool) (t : State) =>
      if on then t.enqueueAt (s.legPort 0x36 i k) (.audio i rtp.seq) (data.length + 82) (s.emitAt i k x.next) else t
    let s2 := s1.netTrack i 1 rate (s.at 0x36 i 3) x.mark
    .next (put 1 rtp.legB (put 0 rtp.legA (s2.updTx i (fun x => { x with
      next := x.next + P, last := some rtp, mark := some (s.mcc, s.net.phc.t) }))))
  else .next s

/-- STREAM_TX_STOP_DONE: every channel applies 0 and the last packet has left (R274); its SRC channels are free (R235). -/
def execStreamTxStopDone (i : Nat) (s : State) : Host.Outcome State Fault Refusal :=
  let x := s.txStream i
  if x.stopping ∧ x.slots.all (fun c => c.2.silent x.next) then
    .next ((s.updTx i (fun x => { TxStream.reset with last := x.last })).srcDrop i 1).restagger
  else .next s

/-- R277: the legs of every stream follow the role from the first packet that begins from now on. -/
def State.setLegs (s : State) : State :=
  let legs := twinLegs s.power.straps.twinEn s.power.straps.pairId s.twin.role
  s.setNet (fun g => { g with tx := g.tx.map (fun c =>
    let n := s.streamFrom (s.at 0x36 c.1 2) s.mcc
    (c.1, { c.2 with
      legA := legs.1, legB := legs.2
      before := if c.2.next < n then (let l := c.2.legsAt c.2.next; some (n, l.1, l.2)) else none })) })

end Sys2Proof.Machine
end

