-- ==== Sys2Proof/Machine/TwinRole.lean ====
section
/-! DEFINITION. Sys2Proof/Machine/TwinRole.lean: roles of a twin chip and what every change of role entails (R424–R430, R436). -/
namespace Sys2Proof.Machine

/-- A change of the twin group. -/
def State.setTwin (s : State) (f : TwinG → TwinG) : State := { s with twin := f s.twin }

/-- R430: the roles whose CKU follows the peer. -/
def Role.follows : Role → Bool
  | .solo => false
  | .active => false
  | .standby => true
  | .joining => true
  | .fenced => false

/-- Whether the chip is in QUIET or RUN. -/
def State.live (s : State) : Bool := decide (s.dev = .quiet) || decide (s.dev = .run)

/-- R424: OWN_N and ALIVE as device state and role have them. -/
def State.drivePins (s : State) : State :=
  s.setTwin (fun t => { t with
    ownN := !(t.hasRole && t.role.owns && s.live), aliveHeld := !s.live || decide (t.role = .fenced) })

/-- R430: the CKU leaves its reference for the peer's sample edges, with 100 Hz of bandwidth. -/
def State.follow (s : State) : State :=
  if s.cku.twinFollow then s
  else
    let old := s.cku.sel
    let s1 := s.calAbort.setCku (fun c => { c.letGo with twinFollow := true, sel := 0xFF, st := .acquiring, bw := 5, lockedN := 0 })
    let s2 := if old = 0xFF then s1 else s1.raiseD .refSwitch 0 0xFF [old, 0xFF, 7]
    (if old = 4 then s2.unalign else s2).sapOrigins

/-- R430: the CKU goes back to its own candidates, or to what cku.mode asks for. -/
def State.unfollow (s : State) : State :=
  if s.cku.twinFollow then
    let s1 := s.setCku (fun c => { c with twinFollow := false })
    let mode := s.at 0x41 0 0
    if mode ≠ 0 then s1.ckuMode 0 mode
    else if s1.select = 0xFF then s1.enterHoldover
    else s1.evaluate
  else s

/-- R436: the mirrored sessions move with the outputs, and the new owner announces tw.ctl_ip. -/
def State.moveSessions (s : State) (old new : Role) : State :=
  let ids := s.twin.mirrored.map (·.sid)
  let rest := s.vcp.sessions.filter (fun x => !ids.contains x.sid)
  if !old.owns ∧ new.owns then
    ({ s with vcp := { s.vcp with sessions := rest ++ s.twin.mirrored } }).setTwin (fun t =>
      { t with arps := if s.at 0x50 0 0x22 = 0 then t.arps else t.arps + 1 })
  else if old.owns ∧ !new.owns then { s with vcp := { s.vcp with sessions := rest } }
  else s

/-- R445, R450: the answer to a TWIN_SWAP that waited for its h. -/
def State.swapAnswer (s : State) (q : Option Req) (a : Ans) : State :=
  match q with
  | some r => s.reply r 0x0607 a
  | none => s

/-- R427: a change of role, with EV_TWIN_ROLE. -/
def State.setRole (s : State) (new : Role) (cause : Nat) : State :=
  let old := s.twin.role
  let s1 := (s.setTwin (fun t => { t with
    role := new
    hasRole := true
    swap := none
    swapReq := none
    handover := none
    acked := s.mcc
    renewed := s.mcc
    resync := 0
    nonconv := []
    copied := []
    record := none
    closing := []
    leave := none
    reseed := false
    lease := decide (new = .active ∨ new = .standby)
    mismRun := 0
    mismHist := [] })).drivePins.setLegs
  let s2 := if new.follows then s1.follow else s1.unfollow
  ((s2.moveSessions old new).swapAnswer s.twin.swapReq { status := Err.state }).raiseD .twinRole 0 new.code [old.code, new.code, cause]

/-- R427: a standby withdraws to JOINING. -/
def State.withdraw (s : State) (cause : Nat) : State :=
  if s.twin.role = .standby then (s.setTwin (fun t => { t with progress := 0 })).setRole .joining cause else s

/-- R443: a fault outside the single-fault boundary: an ACTIVE hands over, h being at least a block away; a standby takes FENCED. A
scheduled swap is abandoned (R450). -/
def State.outside (s : State) : State :=
  let s1 := s.setTwin (fun t => { t with faulted := true })
  match s.twin.role with
  | .active => (s1.swapAnswer s.twin.swapReq { status := Err.state }).setTwin (fun t => { t with
      handover := if t.handover.isSome then t.handover else some (s.mcc + s.B), swap := none, swapReq := none })
  | .standby => s1.setRole .fenced 0x000C
  | .solo => s1
  | .joining => s1
  | .fenced => s1

/-- R443: a fault that the device names uncorrected: FAULT_SUM [1] sets. -/
def State.uncorrected (s : State) : State := (s.setFault (fun f => { f with uncorrected := true })).outside

end Sys2Proof.Machine
end

