-- ==== Sys2Proof/Machine/TarnRun.lean ====
section
/-! DEFINITION. Sys2Proof/Machine/TarnRun.lean: instructions as commands to an engine, illegal instructions, bounds violations and
the two interrupt classes (R158, R174, R186–R189, R192). -/
namespace Sys2Proof.Machine

open Fmt

/-- A change of the Tarn group. -/
def State.setTarn (s : State) (f : TarnG → TarnG) : State := { s with tarn := f s.tarn }
/-- One engine. -/
def State.eng (s : State) (e : Nat) : Engine := s.tarn.engines[e]?.getD Engine.reset
/-- One engine replaced. -/
def State.setEng (s : State) (e : Nat) (x : Engine) : State :=
  s.setTarn (fun t => { t with engines := t.engines.setIfInBounds e x })

/-- Whether PD_TARN is on. -/
def State.tarnOn (s : State) : Bool := bit s.power.domains 9

/-- The number of the task an engine runs: its slot; 0xFFFF outside tasks. -/
def Engine.task (x : Engine) : Nat := x.cur.elim 0xFFFF (·.inst)

/-- R158: the bounds violations of an instruction. -/
def State.bounds (s : State) (e task : Nat) (l : List (Bool × Nat)) : State :=
  l.foldl (fun s a => s.raiseD .tarnBounds 0 e [e, task, a.2]) s

/-- R174: an illegal instruction at P address `pc` stops the task; outside tasks it stops nothing but is reported. -/
def State.illegal (s : State) (e pc : Nat) : State :=
  let x := Tarn.ready (s.eng e)
  let s1 := s.setEng e { x with halt := if x.cur.isSome then some (.illegal, pc) else none }
  s1.raiseD .tarnIllegal 0 e [e, x.task, pc]

/-! ### Service interrupts (R186, R189) -/

/-- The life-cycle states in which debug may halt any engine (R189). -/
def Life.open : Life → Bool
  | .blank => true
  | .returned => true
  | .provisioned => false
  | .deployed => false

/-- Whether an engine is at a task boundary (R189): in the stub, outside delay slots, REP and LOOP bodies (R186). -/
def Engine.boundary (x : Engine) : Bool := x.stub && x.cur.isNone && x.loops.isEmpty && x.slots.isNone && x.rep.isNone

/-- Whether an engine runs background code with SR.LD at 0, outside delay slots and REP (R186). -/
def Engine.resting (x : Engine) : Bool := !x.inTask && x.loops.isEmpty && x.slots.isNone && x.rep.isNone

/-- A service handler's effect on an engine: debug halts or releases one that carries no frame tasks (R189). -/
def State.handled (s : State) (debug : Bool) (x : Engine) : Engine :=
  if debug && (decide (x.st = .spare) || s.sec.life.open) then { x with debug := !x.debug } else x

/-- A service request on an engine (R189): its handler runs at a task boundary within the block's budget of 960 cycles, or in background
code; else it waits, for background code where it found the budget used up. -/
def State.serveCall (s : State) (x : Engine) (q : Call) : Engine :=
  if x.resting then s.handled q.debug x
  else if x.boundary ∧ !q.late then
    if x.service + q.cycles ≤ 960 then s.handled q.debug { x with service := x.service + q.cycles }
    else { x with calls := x.calls ++ [{ q with late := true }] }
  else { x with calls := x.calls ++ [q] }

/-- The service requests that wait on an engine, taken as far as they may be, oldest first. -/
def State.serveCalls (s : State) (x : Engine) : Engine := x.calls.foldl s.serveCall { x with calls := [] }

/-! ### Instructions -/

/-- One instruction on an engine, after which waiting service requests may be taken. Where the engine does not issue (PD_TARN off, retired,
halted, its task stopped or out of cycles), nothing happens. `pcOf` gives the P address that an illegal instruction reports. -/
def State.runOn (s : State) (e : Nat) (pcOf : Engine → Nat) (f : Engine → Option Tarn.Out) : State :=
  if 17 ≤ e ∨ !s.tarnOn ∨ !Tarn.canIssue (s.eng e) then s
  else
    match f (s.eng e) with
    | none => s.illegal e (pcOf (Tarn.ready (s.eng e)))
    | some o => (s.setEng e (s.serveCalls o.e)).bounds e (Tarn.ready (s.eng e)).task o.oob

/-- The outcome of an instruction command. -/
abbrev instr (e : Nat) (f : Engine → Option Tarn.Out) (s : State) : Host.Outcome State Fault Refusal := .next (s.runOn e (·.pc) f)

/-- The outcome of a command of class 0x8 or 0x9: after a REP it is the REP that is illegal (R177). -/
abbrev flow (e : Nat) (f : Engine → Option Tarn.Out) (s : State) : Host.Outcome State Fault Refusal :=
  .next (s.runOn e (fun x => if x.rep.isSome then x.repAt else x.pc) f)

/-- Words of an ALU or MAC instruction: two with parallel moves (R173). -/
def movesW (mv : Option Moves) : Nat := if mv.isSome then 2 else 1

/-! ### ALU (R175) -/

/-- An ALU instruction by operation code. -/
def aluOp (op : Nat) (f : AluF) (e : Engine) : Option Tarn.Out := Tarn.issue e (movesW f.mv) 1 .plain (Tarn.doAlu op f)

/-- NOP. -/
def execNop (e : Nat) (s : State) : Host.Outcome State Fault Refusal := instr e (fun x => Tarn.issue x 1 1 .plain Tarn.doNop) s
/-- ADD: src1 + src2. -/
def execAdd (e : Nat) (f : AluF) (s : State) : Host.Outcome State Fault Refusal := instr e (aluOp 0x00 f) s
/-- SUB: src1 − src2. -/
def execSub (e : Nat) (f : AluF) (s : State) : Host.Outcome State Fault Refusal := instr e (aluOp 0x01 f) s
/-- NEG: −src1. -/
def execNeg (e : Nat) (f : AluF) (s : State) : Host.Outcome State Fault Refusal := instr e (aluOp 0x02 f) s
/-- ABS: |src1|. -/
def execAbs (e : Nat) (f : AluF) (s : State) : Host.Outcome State Fault Refusal := instr e (aluOp 0x03 f) s
/-- AND. -/
def execAndOp (e : Nat) (f : AluF) (s : State) : Host.Outcome State Fault Refusal := instr e (aluOp 0x04 f) s
/-- OR. -/
def execOrOp (e : Nat) (f : AluF) (s : State) : Host.Outcome State Fault Refusal := instr e (aluOp 0x05 f) s
/-- XOR. -/
def execXorOp (e : Nat) (f : AluF) (s : State) : Host.Outcome State Fault Refusal := instr e (aluOp 0x06 f) s
/-- NOT. -/
def execNotOp (e : Nat) (f : AluF) (s : State) : Host.Outcome State Fault Refusal := instr e (aluOp 0x07 f) s
/-- ASL. -/
def execAsl (e : Nat) (f : AluF) (s : State) : Host.Outcome State Fault Refusal := instr e (aluOp 0x08 f) s
/-- ASR. -/
def execAsr (e : Nat) (f : AluF) (s : State) : Host.Outcome State Fault Refusal := instr e (aluOp 0x09 f) s
/-- LSR. -/
def execLsr (e : Nat) (f : AluF) (s : State) : Host.Outcome State Fault Refusal := instr e (aluOp 0x0A f) s
/-- MIN. -/
def execMinOp (e : Nat) (f : AluF) (s : State) : Host.Outcome State Fault Refusal := instr e (aluOp 0x0B f) s
/-- MAX. -/
def execMaxOp (e : Nat) (f : AluF) (s : State) : Host.Outcome State Fault Refusal := instr e (aluOp 0x0C f) s
/-- CMP. -/
def execCmp (e : Nat) (f : AluF) (s : State) : Host.Outcome State Fault Refusal := instr e (aluOp 0x0D f) s
/-- TST. -/
def execTst (e : Nat) (f : AluF) (s : State) : Host.Outcome State Fault Refusal := instr e (aluOp 0x0E f) s
/-- CLR. -/
def execClr (e : Nat) (f : AluF) (s : State) : Host.Outcome State Fault Refusal := instr e (aluOp 0x0F f) s
/-- RND. -/
def execRnd (e : Nat) (f : AluF) (s : State) : Host.Outcome State Fault Refusal := instr e (aluOp 0x10 f) s
/-- SAT. -/
def execSat (e : Nat) (f : AluF) (s : State) : Host.Outcome State Fault Refusal := instr e (aluOp 0x11 f) s

/-! ### MAC, moves, immediates, nonlinear unit -/

/-- A MAC instruction by operation code. -/
def macOp (op : Nat) (f : MacF) (e : Engine) : Option Tarn.Out := Tarn.issue e (movesW f.mv) 1 .plain (Tarn.doMac op f)

/-- MAC (R162). -/
def execMac (e : Nat) (f : MacF) (s : State) : Host.Outcome State Fault Refusal := instr e (macOp 0 f) s
/-- MSU. -/
def execMsu (e : Nat) (f : MacF) (s : State) : Host.Outcome State Fault Refusal := instr e (macOp 1 f) s
/-- MPY. -/
def execMpy (e : Nat) (f : MacF) (s : State) : Host.Outcome State Fault Refusal := instr e (macOp 2 f) s
/-- MOVE. -/
def execMove (e dst src : Nat) (s : State) : Host.Outcome State Fault Refusal :=
  instr e (fun x => Tarn.issue x 1 1 .plain (Tarn.doMove dst src)) s
/-- LOAD_STORE. -/
def execLoadStore (e : Nat) (f : LdSt) (s : State) : Host.Outcome State Fault Refusal :=
  instr e (fun x => Tarn.issue x 1 1 .plain (Tarn.doLdSt f)) s
/-- AGU_OPERATION. -/
def execAguOperation (e : Nat) (f : AguF) (s : State) : Host.Outcome State Fault Refusal :=
  instr e (fun x => Tarn.issue x 1 1 .plain (Tarn.doAgu f)) s
/-- SHORT_IMMEDIATE. -/
def execShortImmediate (e d imm : Nat) (s : State) : Host.Outcome State Fault Refusal :=
  instr e (fun x => Tarn.issue x 1 1 .plain (Tarn.doShort d imm)) s
/-- LONG_IMMEDIATE. -/
def execLongImmediate (e reg imm : Nat) (s : State) : Host.Outcome State Fault Refusal :=
  instr e (fun x => Tarn.issue x 2 1 .plain (Tarn.doLong reg imm)) s

/-- A nonlinear instruction by operation code. -/
def nlOp (op dst src : Nat) (e : Engine) : Option Tarn.Out :=
  Tarn.issue e 1 (Tarn.nonlinearCycles op) .plain (Tarn.doNonlinear op dst src)

/-- LOG2 (R176). -/
def execLog2 (e dst src : Nat) (s : State) : Host.Outcome State Fault Refusal := instr e (nlOp 0 dst src) s
/-- EXP2. -/
def execExp2 (e dst src : Nat) (s : State) : Host.Outcome State Fault Refusal := instr e (nlOp 1 dst src) s
/-- RECIP. -/
def execRecip (e dst src : Nat) (s : State) : Host.Outcome State Fault Refusal := instr e (nlOp 2 dst src) s
/-- RSQRT. -/
def execRsqrt (e dst src : Nat) (s : State) : Host.Outcome State Fault Refusal := instr e (nlOp 3 dst src) s

/-! ### Control flow -/

/-- BRANCH (R185). -/
def execBranch (e c target : Nat) (s : State) : Host.Outcome State Fault Refusal :=
  flow e (fun x => Tarn.issueBranch x (Tarn.doBranch c target)) s
/-- CALL (R183). -/
def execCall (e c target : Nat) (s : State) : Host.Outcome State Fault Refusal :=
  flow e (fun x => Tarn.issueBranch x (Tarn.doCall c target)) s
/-- RET (R183). -/
def execRet (e c : Nat) (s : State) : Host.Outcome State Fault Refusal := flow e (fun x => Tarn.issueBranch x (Tarn.doRet c)) s
/-- END. -/
def execEndTask (e c : Nat) (s : State) : Host.Outcome State Fault Refusal := flow e (fun x => Tarn.issueBranch x (Tarn.doEnd c)) s
/-- REP (R177). -/
def execRep (e : Nat) (count : Count) (s : State) : Host.Outcome State Fault Refusal :=
  flow e (fun x => Tarn.issue x 1 1 .loop (Tarn.doRep count)) s
/-- LOOP (R178). -/
def execLoop (e : Nat) (count : Count) (le : Nat) (s : State) : Host.Outcome State Fault Refusal :=
  flow e (fun x => Tarn.issueLoop x (Tarn.doLoop count le)) s
/-- ENDL (R180). -/
def execEndl (e : Nat) (s : State) : Host.Outcome State Fault Refusal := flow e (fun x => Tarn.issue x 1 1 .endl Tarn.doPop) s
/-- LPUSH (R181). -/
def execLpush (e : Nat) (s : State) : Host.Outcome State Fault Refusal := flow e (fun x => Tarn.issue x 1 1 .loop Tarn.doLpush) s
/-- LPOP (R181). -/
def execLpop (e : Nat) (s : State) : Host.Outcome State Fault Refusal := flow e (fun x => Tarn.issue x 1 1 .loop Tarn.doPop) s

/-! ### Interrupts and stops -/

/-- DISPATCH_INTERRUPT: the engine leaves background code for the dispatch stub, which saves the active loop levels (R186, R187). It
is not taken inside delay slots or between the repetitions of a REP. -/
def execDispatchInterrupt (e : Nat) (s : State) : Host.Outcome State Fault Refusal :=
  let x := s.eng e
  if e < 17 ∧ s.tarnOn ∧ x.st ≠ .retired ∧ ¬ x.debug ∧ ¬ x.inTask ∧ x.slots = none ∧ x.rep = none then
    .next (s.setEng e { x with
      saved := x.pc, inTask := true, stub := true, pc := 0x3F00
      savedL := x.loops, loops := [], view := [], lpend := [], cache := none, agOld := [], accOld := [], halt := none })
  else .next s

/-- DISPATCH_RETURN: the stub has run its last task, restores the loop levels and returns to background code (R187). -/
def execDispatchReturn (e : Nat) (s : State) : Host.Outcome State Fault Refusal :=
  let x := s.eng e
  if e < 17 ∧ s.tarnOn ∧ x.st ≠ .retired ∧ x.stub ∧ x.cur = none ∧ x.queue = [] then
    .next (s.setEng e (s.serveCalls { x with
      inTask := false, stub := false, pc := x.saved
      loops := x.savedL, view := x.savedL, savedL := [], lpend := [], cache := none, slots := none, rep := none
      agOld := [], accOld := [] }))
  else .next s

/-- SERVICE_INTERRUPT: a request from the mailbox or from debug, whose handler takes at most 240 cycles (log entry 169). It is taken where
it may run, or waits (R186, R189). -/
def execServiceInterrupt (e : Nat) (debug : Bool) (s0 : State) : Host.Outcome State Fault Refusal :=
  if e < 17 ∧ s0.tarnOn ∧ (s0.eng e).st ≠ .retired then
    let (k, s) := s0.draw
    let x := s.eng e
    .next (s.setEng e (s.serveCalls { x with
      calls := x.calls ++ [{ debug := debug, cycles := min 240 (Config.freeInt k).natAbs, late := false }] }))
  else .next s0

/-- TASK_OVERRUN: the running task has reached its declared cost and has not executed END; the engine stops it (R192). -/
def execTaskOverrun (e : Nat) (s : State) : Host.Outcome State Fault Refusal :=
  let x := s.eng e
  if e < 17 ∧ s.tarnOn ∧ x.st ≠ .retired ∧ x.halt = none ∧ x.cur.any (fun t => decide (t.cost ≤ t.cycles)) ∧ !Tarn.ending x then
    .next (s.setEng e { x with halt := some (.overrun, x.pc) })
  else .next s

/-- ILLEGAL_INSTRUCTION: the engine meets a word that no instruction has (R174). -/
def execIllegalInstruction (e : Nat) (s : State) : Host.Outcome State Fault Refusal :=
  if e < 17 ∧ s.tarnOn ∧ Tarn.canIssue (s.eng e) then .next (s.illegal e (Tarn.ready (s.eng e)).pc) else .next s

end Sys2Proof.Machine
end

