-- ==== Sys2Proof/Machine/Task.lean ====
section
/-! DEFINITION. Sys2Proof/Machine/Task.lean: module instances and their frame tasks, block by block (R190–R200, R59). Where an
instance's words stand in P, X and Y is log entry 9. -/
namespace Sys2Proof.Machine

open Fmt

/-! ### Instances -/

/-- One slot's instance. -/
def State.slotRt (s : State) (n : Nat) : SlotRt := Cells.get SlotRt.reset s.tarn.slots n
/-- One slot's instance changed. -/
def State.updSlot (s : State) (n : Nat) (f : SlotRt → SlotRt) : State :=
  s.setTarn (fun t => { t with slots := Cells.upd SlotRt.reset t.slots n f })

/-- R407: the engine that runs the tasks placed on an engine. -/
def State.phys (s : State) (e : Nat) : Nat :=
  let p := Cells.get 0 s.fault.placement e
  if p = 0 then e else p - 1

/-- Where an instance's regions stand: X: both swapped copies, ring, banks or buffers in X; Y: task frame, AT events, both swapped
copies, ring, banks or buffers in Y. -/
structure Lay where
  frame : Nat
  ev    : Nat
  xs0   : Nat
  xs1   : Nat
  ys0   : Nat
  ys1   : Nat
  xr    : Nat
  yr    : Nat
  bank0 : Nat
  bank1 : Nat
  inB   : Nat
  outB  : Nat
  xEnd  : Nat
  yEnd  : Nat

/-- The regions of an image from an X and a Y base, with blocks of B. -/
def layOf (img : List Nat) (B x y : Nat) : Lay :=
  let xr := x + 2 * imgXs img
  let xe := xr + imgXr img
  let ev := y + 32
  let ys0 := ev + 2 * imgAt img
  let yr := ys0 + 2 * imgYs img
  let ye := yr + imgYr img
  let bk := imgBank img
  let io := (imgIn img + imgOut img) * B
  let bankY := imgFlag img 3
  let ioY := imgFlag img 2
  let bank0 := if bankY then ye else xe
  let xe1 := if bankY then xe else xe + 2 * bk
  let ye1 := if bankY then ye + 2 * bk else ye
  let inB := if ioY then ye1 else xe1
  { frame := y, ev := ev, xs0 := x, xs1 := x + imgXs img, ys0 := ys0, ys1 := ys0 + imgYs img, xr := xr, yr := yr
    bank0 := bank0, bank1 := bank0 + bk, inB := inB, outB := inB + imgIn img * B
    xEnd := if ioY then xe1 else xe1 + io, yEnd := if ioY then ye1 + io else ye1 }

/-- The regions of a slot's instance. -/
def State.lay (s : State) (n : Nat) (img : List Nat) : Lay := layOf img s.B (s.slotRt n).xBase (s.slotRt n).yBase

/-- Words an instance needs on an engine beside its code: X and Y (R203). -/
def imgWords (img : List Nat) (B : Nat) : Nat × Nat := let l := layOf img B 0 0; (l.xEnd, l.yEnd)

/-- The windows of a task (R191): frame and events read-only, both swapped copies, rings, buffers, the bank in use and, during a CF
crossfade, the other bank, read-only. -/
def windows (img : List Nat) (l : Lay) (bank : Nat) (xf : Bool) : List Window :=
  let w := fun (y : Bool) (lo n : Nat) (wr : Bool) => if n = 0 then [] else [Window.mk y lo (lo + n - 1) wr]
  let bankY := imgFlag img 3
  let bk := imgBank img
  w true l.frame (32 + 2 * imgAt img) false
    ++ w false l.xs0 (2 * imgXs img + imgXr img) true
    ++ w true l.ys0 (2 * imgYs img + imgYr img) true
    ++ w (imgFlag img 2) l.inB ((if imgFlag img 2 then l.yEnd else l.xEnd) - l.inB) true
    ++ (if xf then w bankY l.bank0 (2 * bk) false else w bankY (if bank = 0 then l.bank0 else l.bank1) bk false)

/-- A run of words written into a word memory. -/
def putWords (m : Mem) (a : Nat) (l : List Int) : Mem := Cells.putAll 0 m a (l.map (wrapU 48))

/-- A memory of an engine written: Y where `y`. -/
def Engine.putRun (x : Engine) (y : Bool) (a : Nat) (l : List Int) : Engine :=
  if y then { x with yMem := putWords x.yMem a l } else { x with xMem := putWords x.xMem a l }

/-- Words read back from an engine's memory as signed 48-bit numbers. -/
def Engine.getRun (x : Engine) (y : Bool) (a n : Nat) : List Int :=
  (Cells.getAll 0 (if y then x.yMem else x.xMem) a n).map (toS 48)

/-- A section of words of 6 bytes, most significant byte first (log entry 9). -/
def imgWords48 (img : List Nat) (k : Nat) : List Int :=
  let (o, n) := imgSection img k
  (List.range (n / 6)).map (fun i => toS 48 (ofBE (slice img (o + 6 * i) 6)))

/-- The CF descriptors of an image, in order. -/
def imgCf (img : List Nat) : List PDesc := (imgParams img).filter (fun d => d.cls = 1)

/-- R156, R194–R196: an instance's words as the runtime loads them: code, initial state in both copies, each parameter's default or
committed word. -/
def loadWords (img : List Nat) (l : Lay) (pBase : Nat) (val : PDesc → Nat) (x : Engine) : Engine :=
  let (po, _) := imgSection img 0
  let code := (List.range (imgPWords img)).map (fun i => imgW img (po + 4 * i))
  let xi := (imgWords48 img 1).take (imgXs img)
  let yi := (imgWords48 img 2).take (imgYs img)
  let x1 := { x with pMem := Cells.putAll 0 x.pMem pBase code }
  let x2 := ((x1.putRun false l.xs0 xi).putRun false l.xs1 xi).putRun true l.ys0 yi |>.putRun true l.ys1 yi
  (imgParams img).foldl (fun x d =>
    let w := [modWord d (val d)]
    if d.cls = 1 then (x.putRun (imgFlag img 3) (l.bank0 + d.off) w).putRun (imgFlag img 3) (l.bank1 + d.off) w
    else (x.putRun false (l.xs0 + d.off) w).putRun false (l.xs1 + d.off) w) x2

/-! ### One block of a slot -/

/-- The E48 samples slot input k takes this block. -/
def State.slotInAt (s : State) (n k : Nat) : List Int := Cells.get [] s.audio.slotIn (n * 8 + k)

/-- R193: the fall-back of a failed instance: bypass (input k delayed by the declared latency) or silence. `hist` holds the input newest
first, this block included. -/
def fallback (img : List Nat) (hist : List Int) (k B : Nat) : List Int :=
  if imgFlag img 1 ∨ imgIn img ≤ k then List.replicate B 0
  else (List.range B).map (fun j => hist.getD (imgLatency img + (B - 1 - j)) 0)

/-- R200: whether every task of an engine has completed its block with no detection left unresolved. -/
def Engine.complete (x : Engine) : Bool := x.queue.isEmpty && x.cur.isNone && x.halt.isNone

/-- R59, R190, R193, R200: at a frame tick the outputs of a slot's task are emptied, and its swapped copies exchanged where its engine has
completed every task; a slot without a module carries exact zero. The fall-back of an engine that was lost ends (R411). -/
def State.collect (s : State) (n : Nat) : State :=
  match s.slotImage n with
  | none => { s with audio := { s.audio with slotOut := s.audio.slotOut.filter (fun c => c.1 / 8 ≠ n) } }
  | some img =>
    let rt := s.slotRt n
    let l := s.lay n img
    let x := s.eng (s.phys rt.engine)
    let outs := (List.range (imgOut img)).map (fun k =>
      if rt.failed ∨ rt.lost then fallback img (Cells.get [] rt.hist k) k s.B else x.getRun (imgFlag img 2) (l.outB + k * s.B) s.B)
    let s1 := s.updSlot n (fun r => { r with
      second := if x.complete && !r.failed && !r.lost then !r.second else r.second
      lost := false, cause := if r.failed then r.cause else none })
    { s1 with audio := { s1.audio with
        slotOut := outs.zipIdx.foldl (fun m o => Cells.put [] m (n * 8 + o.2) o.1) s1.audio.slotOut } }

/-- R197: the 32 words of a task frame. -/
def taskFrame (l : Lay) (rt : SlotRt) (b blk B : Nat) (evs : Nat) : List Int :=
  let a := fun (first : Nat) (second : Nat) => if rt.second then (second, first) else (first, second)
  let xs := a l.xs0 l.xs1
  let ys := a l.ys0 l.ys1
  let cur := if rt.bank = 0 then l.bank0 else l.bank1
  let new := if rt.bank = 0 then l.bank1 else l.bank0
  let run := match rt.xf.run with
    | some r => decide (r.start < b + B) && decide (b ≤ r.start + r.len)
    | none => false
  let w := fun (j : Nat) => match rt.xf.run with
    | some r => if B ≤ j ∨ b + j < r.start then 0 else xfW (b + j - r.start) r.len * 2 ^ 13
    | none => 0
  let head : List Nat :=
    [l.inB, l.outB, xs.1, xs.2, ys.1, ys.2, cur, if run then new else cur, b2n run, blk % 2 ^ 48, evs, l.ev, l.xr, l.yr, 0, 0]
  head.map Int.ofNat ++ (List.range 16).map (fun j => if run then w j else 0)

/-- AT events of a block from stamp b: position, field, value (R199). -/
def blockEvents (evs : List (Nat × Nat × Nat)) (b B : Nat) : List (Nat × Nat × Nat) :=
  (evs.filter (fun e => decide (e.1 < b + B))).map (fun e => (e.1 - b, e.2.1, e.2.2))

/-- Insertion by position, then field. -/
def insertEv (e : Nat × Nat × Nat) : List (Nat × Nat × Nat) → List (Nat × Nat × Nat)
  | [] => [e]
  | f :: l => if e.1 < f.1 ∨ (e.1 = f.1 ∧ e.2.1 < f.2.1) then e :: f :: l else f :: insertEv e l

/-- A change of the block audio path. -/
def State.setAudio (s : State) (f : AudioG → AudioG) : State := { s with audio := f s.audio }

/-! ### Committed changes by stamp -/

/-- The changes of an object's fields that commit on stamp n: field, cf_len, dx_len. -/
def State.chgAt (s : State) (cls inst n : Nat) : List (Nat × Nat × Nat) :=
  (s.audio.changes.filter (fun c => decide (c.c = n) && decide (c.h / 256 = cls * 65536 + inst))).map
    (fun c => (hField c.h, c.cf, c.dx))

/-- EV_XFADE_SUPERSEDED, once for every superseded change (R47). -/
def State.superseded (s : State) (part obj k : Nat) : State :=
  s.raises .xfadeSuperseded (List.replicate k (part, obj, 0))

/-- R45, R47, R199: the CF changes committed for a slot on the stamps of a block; the second result counts superseded ones. A change that
is pending when a crossfade ends within a block starts with the next block (R198). -/
def State.slotCommits (s : State) (n b : Nat) (img : List Nat) (xf : Xf) : Xf × Nat :=
  let cf := imgCf img
  (List.range s.B).foldl (fun (a : Xf × Nat) j =>
    let k := b + j
    match (s.chgAt 0x0B n k).find? (fun c => cf.any (fun d => decide (d.field = c.1))) with
    | none => a
    | some c =>
      let (x, p) := a.1.commit k (cf.map (fun d => s.valAt (mkH 0x0B n d.field) k)) c.2.1
      (x, a.2 + if p then 1 else 0)) (xf, 0)

/-- R45, R198: a CF crossfade of an instance that ended before stamp b: the other bank is in use, and a pending change starts. -/
def SlotRt.turn (rt : SlotRt) (b : Nat) : SlotRt :=
  if rt.xf.ends b then { rt with bank := 1 - rt.bank, xf := rt.xf.advance b } else rt

/-- R190, R191, R197, R199: a slot's task is prepared for the block from stamp b and queued on its engine. -/
def State.launch (s0 : State) (n b : Nat) : State :=
  match s0.slotImage n with
  | none => s0
  | some img =>
    let (xf', sup) := s0.slotCommits n b img ((s0.slotRt n).turn b).xf
    let s := (s0.updSlot n (fun r => { r.turn b with xf := xf' })).superseded (s0.slotOwner n) n sup
    let rt := s.slotRt n
    let l := s.lay n img
    let e := s.phys rt.engine
    let x := s.eng e
    let ins := (List.range (imgIn img)).map (fun k => let v := s.slotInAt n k; v ++ List.replicate (s.B - v.length) 0)
    let hist := ins.zipIdx.foldl (fun m i =>
      Cells.put [] m i.2 ((i.1.reverse ++ Cells.get [] m i.2).take (imgLatency img + s.B))) rt.hist
    let due := (blockEvents rt.events b s.B).foldl (fun l e => insertEv e l) []
    let descs := imgParams img
    let evs := due.flatMap (fun ev =>
      match descs.find? (fun d => d.field = ev.2.1) with
      | some d => [((ev.1 * 256 + ev.2.1 : Nat) : Int), modWord d ev.2.2]
      | none => [])
    let frame := taskFrame l rt b (s.mcc / s.B) s.B (evs.length / 2)
    let xf := decide (frame.getD 8 0 = 1)
    -- the bank of a running crossfade is written while it is idle
    let x0 := match rt.xf.run with
      | some r => ((imgCf img).zip r.new).foldl (fun (x : Engine) (dw : PDesc × Nat) =>
          x.putRun (imgFlag img 3) ((if rt.bank = 0 then l.bank1 else l.bank0) + dw.1.off) [modWord dw.1 dw.2]) x
      | none => x
    let x1 := (x0.putRun true l.frame frame).putRun true l.ev evs
    let x2 := ins.zipIdx.foldl (fun (x : Engine) (i : List Int × Nat) => x.putRun (imgFlag img 2) (l.inB + i.2 * s.B) i.1) x1
    let cost := imgCost img s.prof
    let task : Task :=
      { inst := n, base := rt.pBase, len := imgPWords img, entry := imgEntry img, frame := l.frame
        wins := windows img l rt.bank xf, cost := if xf then cost.2 else cost.1, cycles := 0 }
    let s1 := s.updSlot n (fun r => { r with hist := hist, events := r.events.filter (fun e => !decide (e.1 < b + s.B)) })
    if rt.failed ∨ x.st = .retired then s1 else s1.setEng e { x2 with queue := x2.queue ++ [task] }

/-- What every engine keeps of the block before: nothing waits, nothing is stopped, and the service budget starts afresh (R189). -/
def Engine.newBlock (x : Engine) : Engine :=
  if x.queue.isEmpty ∧ x.cur.isNone ∧ x.ended.isNone ∧ x.halt.isNone ∧ x.service = 0 then x
  else
    let x1 := { x with queue := [], ended := none, halt := none, service := 0 }
    if x.cur.isSome then Tarn.endTask { x1 with cur := none } else x1

/-- Slots that carry a module. -/
def State.usedSlots (s : State) : List Nat := (List.range s.cap.slots).filter (fun n => decide ((s.slotMod n).1 ≠ 0))

/-- The start of a frame tick for the slots: outputs emptied, engines ready for the next block. -/
def State.collectAll (s : State) : State :=
  let s1 := (List.range s.cap.slots).foldl (fun s n =>
    if (s.slotMod n).1 ≠ 0 ∨ s.audio.slotOut.any (fun c => c.1 / 8 = n) then s.collect n else s) s
  s1.setTarn (fun t => { t with engines := t.engines.map Engine.newBlock })

/-- The slots' tasks for the block from stamp b. -/
def State.launchAll (s : State) (b : Nat) : State := s.usedSlots.foldl (fun s n => s.launch n b) s

end Sys2Proof.Machine
end

