-- ==== Sys2Proof/Machine/Audio.lean ====
section
/-! DEFINITION. Sys2Proof/Machine/Audio.lean: one block through the input patch, the strips, the Mere and the busses (R24–R29,
R37–R63, R74–R100). -/
namespace Sys2Proof.Machine

open Fmt

/-- R52, R62: the object whose dynamics govern object n of a class at a stamp: the even one of a linked pair. -/
def State.dynOf (s : State) (cls n k : Nat) : Nat :=
  if n % 2 = 1 ∧ s.valAt (mkH cls (n - 1) 0x7C) k = 1 then n - 1 else n

/-- The changes that touch an object's dynamics on a stamp; a change of the link touches those of the odd object. -/
def State.chgDyn (s : State) (cls n k : Nat) : List (Nat × Nat × Nat) :=
  let link := if n % 2 = 1 then (s.chgAt cls (n - 1) k).filter (fun c => c.1 = 0x7C) else []
  s.chgAt cls (s.dynOf cls n k) k
    ++ link.flatMap (fun c => [0x10, 0x60, 0x66, 0x67, 0x6C].map (fun f => (f, c.2)))

/-- What the chain of object n reads. -/
def State.envOf (s : State) (cls n : Nat) : Env where
  fs := s.fs
  B := s.B
  v := fun f k => s.valAt (mkH cls n f) k
  chg := fun k => s.chgAt cls n k
  vD := fun f k => s.valAt (mkH cls (s.dynOf cls n k) f) k
  chgD := fun k => s.chgDyn cls n k
  tzc := fun k => s.valAt (mkH 0x0A 0 1) k
  lramp := fun k => s.valAt (mkH 0x0A 0 2) k
  lat := fun k => (s.slotImage k).elim 0 imgLatency
  slot := fun k n => (Cells.get [] s.audio.slotOut k).getD (n % s.B) 0

/-! ### Objects at rest -/

/-- The instances of a class that have a committed word of their own or a change on its way. -/
def State.touchedObjs (s : State) (cls : Nat) : List Nat :=
  ((s.params.filter (fun c => decide (hCls c.1 = cls))).map (fun c => hInst c.1)
    ++ (s.audio.changes.filter (fun c => decide (hCls c.h = cls))).map (fun c => hInst c.h)).eraseDups

/-- The numbers below a bound that occur in a list. An object outside it has every parameter at its default, no history and no signal, so a
block leaves it as it is and its outputs are zero. -/
def busyOf (n : Nat) (l : List Nat) : List Nat := (List.range n).filter l.contains

/-- Pairs of neighbours of which one is busy. -/
def busyPairs (n : Nat) (l : List Nat) : List Nat := busyOf (n / 2) (l.map (· / 2)).eraseDups

/-! ### Meters (R73) -/

/-- The key of a meter point: class, instance, position in the table of R73. -/
def meterKey (cls inst p : Nat) : Nat := (cls * 65536 + inst) * 8 + p

/-- A level-metering point after one sample: the peak and the sum of squares. -/
def meterLevel (m : Nat × Nat) (x : Int) : Nat × Nat := (max m.1 x.natAbs, m.2 + x.natAbs * x.natAbs)
/-- A gain-reduction point after one sample: the largest reduction in 1/256 dB. -/
def meterGr (m : Nat × Nat) (code : Nat) : Nat × Nat := (max m.1 code, 0)

/-- A gain in fixed-point dB as a reduction in 1/256 dB. -/
def grCode (gdb : Int) : Nat := (Fxp.roundScaled (-gdb) 8).toNat
/-- A limiter gain (units of 2^-31) as a reduction in 1/256 dB. -/
def limCode (g : Nat) : Nat :=
  if g = 0 then 36864 else (Fxp.roundScaled (-(20 * Fxp.log10 (Fxp.ofDiv (g : Int) (2 ^ 31)))) 8).toNat

/-- Level points of a block. -/
def State.meterBlock (s : State) (cls inst p : Nat) (l : List Int) : State :=
  s.setAudio (fun a => { a with meters := Cells.upd (0, 0) a.meters (meterKey cls inst p) (fun m => l.foldl meterLevel m) })
/-- Gain-reduction points of a block. -/
def State.meterGrs (s : State) (cls inst p : Nat) (l : List Nat) : State :=
  s.setAudio (fun a => { a with meters := Cells.upd (0, 0) a.meters (meterKey cls inst p) (fun m => l.foldl meterGr m) })

/-! ### The input patch (R37–R43) -/

/-- One receiver direction in loss or not running. -/
def PortDir.out (d : PortDir) : Bool := !d.running || d.loss

/-- R41: whether a port channel is in loss. -/
def State.refLoss (s : State) (r : Nat) : Bool :=
  match refType r with
  | 1 => (Cells.get PortDir.reset s.ports.sap (2 * refPort r)).out
  | 3 => (Cells.get PortDir.reset s.ports.madi (2 * refPort r)).out
  | 4 => let x := s.rxStream (refStream r); !x.running || x.loss
  | 5 =>
    let i := (Cells.get DecCh.reset s.conv.dec (4 * refPort r + refChan r)).input
    decide (i ≠ 0xFFFF) && (Cells.get PortDir.reset s.ports.sap (2 * (i / 256))).out
  | _ => false

/-- The reference an entry selects at a stamp. -/
def State.patchRef (s : State) (n k : Nat) : Nat :=
  s.valAt (mkH 0x05 n (if s.valAt (mkH 0x05 n 2) k = 0 then 0 else 1)) k

/-- A change of inpatch[n].select that the input patch makes itself, from the stamp b on; commits of later stamps stand
(R41, R43). -/
def State.autoSelect (s : State) (n b new : Nat) : State :=
  let h := mkH 0x05 n 2
  let ch : Change := { c := b, h := h, old := s.valAt h b, new := new, cf := 0, dx := 0 }
  match s.audio.changes.find? (fun c => c.h = h && b < c.c) with
  | some nx => s.setAudio (fun a => { a with
      changes := ch :: a.changes.map (fun c => if c = nx then { c with old := new } else c) })
  | none => (s.setVal h new).setAudio (fun a => { a with changes := a.changes ++ [ch] })

/-- R43: whether a commit changes the side that an entry selects on stamp b. -/
def State.selectMoves (s : State) (n b : Nat) : Bool :=
  s.audio.changes.any (fun c => decide (c.c = b) && decide (c.h = mkH 0x05 n 2) && decide (c.old ≠ c.new))

/-- R41: the failover rule of one entry at the frame tick that takes the block from stamp b. The samples since side A left loss count in
every mode (R42); both sides in loss are reported once, and a commit that moves the selection on this stamp is evaluated at the next tick
(R43). An entry whose other side recovers only later fails over then (log entry 176). -/
def State.failover (s : State) (b n : Nat) : State :=
  let mode := s.valAt (mkH 0x05 n 3) b
  let a := s.valAt (mkH 0x05 n 0) b
  let bb := s.valAt (mkH 0x05 n 1) b
  let sel := s.valAt (mkH 0x05 n 2) b
  let (cur, oth) := if sel = 0 then (a, bb) else (bb, a)
  let lostC := decide (cur ≠ 0) && s.refLoss cur
  let lostO := decide (oth ≠ 0) && s.refLoss oth
  let f := Cells.get { both := false, since := none } s.audio.failover n
  let live := decide (a ≠ 0) && !s.refLoss a
  let both := decide (mode ≠ 0) && lostC && lostO
  let f1 : Failover := { both := both, since := if live then some (f.since.getD s.mcc) else none }
  let s1 := s.setAudio (fun x => { x with failover := Cells.put { both := false, since := none } x.failover n f1 })
  let s2 := if both ∧ !f.both then s1.raise .patchBothLost (s.stripOwner n) n 0 else s1
  if mode = 0 ∨ s.selectMoves n b then s2
  else if lostC ∧ oth ≠ 0 ∧ !lostO then
    (s2.autoSelect n b (1 - sel)).raiseD .patchFailover (s.stripOwner n) n ((if sel = 0 then 1 else 2) :: two b)
  else s2

/-- The B samples of a port channel from a stamp. -/
def State.rxBlk (s : State) (r b : Nat) : List Int :=
  if r = 0 then List.replicate s.B 0 else (List.range s.B).map (fun j => s.rxAt r (b + j))

/-- The fields whose change on stamp k can change what an entry delivers: the selection and the reference of the selected side. -/
def State.patchFields (s : State) (n k : Nat) : List Nat := [2, if s.valAt (mkH 0x05 n 2) k = 0 then 0 else 1]

/-- R40, R47: one entry of the input patch over the block from stamp b; the number of superseded changes is the second result. A write of
the side that is not selected touches no crossfade. -/
def State.patchEntry (s : State) (b n : Nat) (x0 : Xf) : Xf × List Int × Nat :=
  (List.range s.B).foldl (fun (a : Xf × List Int × Nat) j =>
    let k := b + j
    let len := s.valAt (mkH 0x05 n 4) k
    let (x, p) := (a.1.relength len).take [s.patchRef n k] (touched (s.chgAt 0x05 n k) (s.patchFields n k) false |>.map fun _ => len) k
    let smp := fun (v : List Nat) => if v.headD 0 = 0 then 0 else s.rxAt (v.headD 0) k
    (x, a.2.1 ++ [x.mix k (smp x.cur) (smp x.target)], a.2.2 + p)) (x0, [], 0)

/-- The input patch of every strip for the block from stamp b. -/
def State.inputPatch (s0 : State) (b : Nat) : State :=
  let busy := s0.touchedObjs 0x05 ++ s0.audio.failover.map (·.1) ++ s0.audio.strips.map (·.1) ++ s0.audio.inBlk.map (·.1)
  (busyOf s0.cap.strips busy).foldl (fun s n =>
    let s1 := s.failover b n
    let rt := Cells.get ChainRt.reset s1.audio.strips n
    let (x, l, p) := s1.patchEntry b n rt.inX
    ((s1.setAudio (fun a => { a with
      strips := Cells.put ChainRt.reset a.strips n { rt with inX := x }
      inBlk := Cells.put [] a.inBlk n ((l.reverse ++ Cells.get [] a.inBlk n).take (4 * s.B)) })).meterBlock 0x01 n 0 l).superseded (s1.stripOwner n) n p)
    (s0.setAudio (fun a => { a with taken := b + s0.B }))

/-! ### Strips (R50–R57) -/

/-- A strip's input patch output at a stamp; the last four blocks are kept, newest first. -/
def State.inAt (s : State) (n k : Nat) : Int := (Cells.get [] s.audio.inBlk n).getD (s.audio.taken - 1 - k) 0

/-- R54: the key signal of a detector at a stamp: the key strip's input patch output of the same block. -/
def State.keyAt (s : State) (key k : Nat) : Option Int := if key = 0xFFFF then none else some (s.inAt key k)

/-- What a block of two strips leaves behind: both accumulators and the outputs of each sample. -/
structure PairAcc (α : Type) where
  a0 : Acc
  a1 : Acc
  o  : List (α × α)
  g  : List ((Nat × Nat) × (Nat × Nat))

/-- Two neighbouring strips over the block from stamp b. A gain-reduction point of a disabled gate or compressor shows the reduction that
the stage keeps computing (log entry 154, DESIGN CHOICE). -/
def State.stripBlock (s : State) (b k : Nat) : PairAcc StripOut :=
  let n0 := 2 * k
  let n1 := 2 * k + 1
  let e0 := s.envOf 0x01 n0
  let e1 := s.envOf 0x01 n1
  let start := fun n => Acc.mk (Cells.get ChainRt.reset s.audio.strips n) 0 0
  (List.range s.B).foldl (fun (a : PairAcc StripOut) j =>
    let t := b + j
    let link := decide (s.valAt (mkH 0x01 n0 0x7C) t = 1)
    let x := fun n => s.inAt n t
    let r := stripPair e0 e1 link a.a0 a.a1 t (x n0) (x n1)
      (s.keyAt (e0.vD 0x1A t) t) (s.keyAt (e1.vD 0x1A t) t) (s.keyAt (e0.vD 0x6B t) t) (s.keyAt (e1.vD 0x6B t) t)
    { a0 := r.1.1, a1 := r.2.1, o := a.o ++ [(r.1.2, r.2.2)]
      g := a.g ++ [((grCode r.1.1.rt.gateD.gdb, grCode r.1.1.rt.compD.gdb),
                    (grCode r.2.1.rt.gateD.gdb, grCode r.2.1.rt.compD.gdb))] })
    { a0 := start n0, a1 := start n1, o := [], g := [] }

/-- R57: an insert send, to the slot assigned and to the one it crossfades to. -/
def State.sendInsert (s : State) (x : Xf) (l : List Int) : State :=
  [x.cur, x.target].foldl (fun s v =>
    if v.headD 0xFFFF = 0xFFFF then s
    else s.setAudio (fun a => { a with slotIn := Cells.put [] a.slotIn (v.headD 0 * 8 + v.getD 1 0) l })) s

/-- The outputs of one strip entered: state, taps, counters, meters, insert send. -/
def State.putStrip (s : State) (n : Nat) (a : Acc) (o : List StripOut) (g : List (Nat × Nat)) : State :=
  let tap := fun (m : Cells (List Int)) (t : Nat) (f : StripOut → Int) => Cells.put [] m (n * 4 + t) (o.map f)
  let s1 := s.setAudio (fun x => { x with
    strips := Cells.put ChainRt.reset x.strips n a.rt
    taps := tap (tap (tap (tap x.taps 0 (·.tap0)) 1 (·.tap1)) 2 (·.tap2)) 3 (·.tap3)
    satStrip := Cells.upd 0 x.satStrip n (satInc · a.sat) })
  let s2 := s1.sendInsert a.rt.ins (o.map (·.send))
  let s3 := (((((s2.meterBlock 0x01 n 1 (o.map (·.trim))).meterGrs 0x01 n 2 (g.map (·.1))).meterGrs 0x01 n 3
    (g.map (·.2))).meterBlock 0x01 n 4 (o.map (·.tap1))).meterBlock 0x01 n 5 (o.map (·.tap3)))
  s3.superseded (s.stripOwner n) n a.sup

/-- Every strip over the block from stamp b. -/
def State.stripsTick (s0 : State) (b : Nat) : State :=
  let busy := s0.touchedObjs 0x01 ++ s0.audio.strips.map (·.1) ++ s0.audio.inBlk.map (·.1)
  (busyPairs s0.cap.strips busy).foldl (fun s k =>
    let r := s.stripBlock b k
    (s.putStrip (2 * k) r.a0 (r.o.map Prod.fst) (r.g.map Prod.fst)).putStrip (2 * k + 1) r.a1 (r.o.map Prod.snd) (r.g.map Prod.snd)) s0

/-! ### The Mere (R74–R100) -/

/-- One object of a source map entry at a stamp: the signal of a tap (R59, R75–R78, R98, R463). -/
def State.srcObj (s : State) (v : List Nat) (tap k : Nat) : Int :=
  let w := v.headD 0
  let i := w % 65536
  let at_ := fun (l : List Int) => l.getD (k % s.B) 0
  match w / 2 ^ 24 with
  | 1 => at_ (Cells.get [] s.audio.taps (i * 4 + tap))
  | 2 => if s.valAt (mkH 0x02 i 0x7D) k = 0 then 0 else at_ (Cells.get [] s.audio.busOut i)
  | 3 => at_ (Cells.get [] s.audio.slotOut i)
  | 4 => if v.getD 1 0 = 0 then 0 else s.rxAt (v.getD 1 0) k
  | 5 => at_ (Cells.get [] s.audio.taps (0x40000 + i * 4 + tap))
  | _ => 0

/-- The source map word in force at a stamp, legacy corner included. -/
def State.srcMapAt (s : State) (n k : Nat) : Nat := cornerSrcWord s.cap n (s.valAt (mkH 0x08 n 0) k)
/-- The destination map word in force at a stamp, legacy corner included. -/
def State.dstMapAt (s : State) (d k : Nat) : Nat := cornerDstWord s.cap d (s.valAt (mkH 0x09 d 0) k)

/-- Whether a map word names an object with four taps (R86, R463). -/
def tapped (w : Nat) : Bool := decide (w / 2 ^ 24 = 1) || decide (w / 2 ^ 24 = 5)

/-- R47, R79: a map crossfade on stamp k: `x` is empty while none runs. `old` and `new` are the words in force on the sample before
and now; the length is mere.xfade when the crossfade starts. -/
def mapStep (x : Xf) (old new : List Nat) (touch : Bool) (len k : Nat) : Xf × Nat :=
  if x.cur.isEmpty ∧ !touch then (x, 0)
  else
    let y := if x.cur.isEmpty then Xf.at old else x
    let (z, p) := (y.relength len).take new (if touch then some len else none) k
    (if z.run.isNone then Xf.at [] else z, p)

/-- The signals of a source whose map words do not change in the block from stamp b. -/
def State.srcStill (s : State) (b n : Nat) : List (List Int) :=
  let v := [s.srcMapAt n b, s.valAt (mkH 0x08 n 1) b]
  (if tapped (v.headD 0) then [0, 1, 2, 3] else [0]).map (fun t => (List.range s.B).map (fun j => s.srcObj v t (b + j)))

/-- The signals of one source over the block from stamp b: the crossfade after it, one list for each tap, superseded changes. A change
between a strip and another object crossfades each tap separately (R79). -/
def State.srcBlock (s : State) (b n : Nat) : Xf × List (List Int) × Nat :=
  let words := fun k => [s.srcMapAt n k, s.valAt (mkH 0x08 n 1) k]
  let x0 := Cells.get (Xf.at []) s.mere.srcX n
  let four := (List.range (s.B + 1)).any (fun j => tapped (s.srcMapAt n (b + j - 1)))
    || [x0.cur, x0.target, (x0.pend.map (·.1)).getD []].any (fun v => tapped (v.headD 0))
  let taps := if four then [0, 1, 2, 3] else [0]
  let r := (List.range s.B).foldl (fun (a : Xf × List (List Int) × Nat) j =>
    let k := b + j
    let touch := !(s.chgAt 0x08 n k).isEmpty
    let (x, p) := mapStep a.1 (words (k - 1)) (words k) touch (s.valAt (mkH 0x0A 0 3) k) k
    let cur := if x.cur.isEmpty then words k else x.cur
    let tgt := if x.cur.isEmpty then words k else x.target
    (x, a.2.1 ++ [taps.map (fun t => x.mix k (s.srcObj cur t k) (s.srcObj tgt t k))], a.2.2 + p))
    (x0, [], 0)
  (r.1, taps.map (fun t => r.2.1.map (fun l => l.getD t 0)), r.2.2)

/-- R86: when a source becomes or stops being one with four taps, its groups merge or split with what is pending and running in them,
each group keeping a pending period or a ramp only while one of its nodes is in it (R501)
(log entry 36). -/
def StepG.regroup (m : StepG) (n : Nat) (four : Bool) : StepG :=
  let gs := (List.range 4).map (fun t => m.group (n * 4 + t))
  let tp := (gs.filterMap (·.tp)).foldl (fun (a : Option Nat) x => some (match a with | none => x | some y => min x y)) none
  let ramp := (gs.filterMap (·.ramp)).head?
  let has := fun (t : Nat) (st : NodeSt) =>
    m.nodes.any (fun c => decide (keySrc c.1 = n) && (!four || decide (c.2.tap = t)) && decide (c.2.st = st))
  (List.range 4).foldl (fun m t => m.setGroup (n * 4 + t)
    (if four ∨ t = 0 then { tp := if has t .pending then tp else none, ramp := if has t .ramp then ramp else none }
     else Group.idle)) m

/-- What the stepping reads over the block from stamp b, for stamp k: `sig` holds the signals of the block by group, `last` the sample
before the block, `split` names the sources whose crossfade gives each tap a signal of its own (R79). -/
def State.stepEnv (s : State) (sig : Cells (List Int)) (last : Cells Int) (split : List Nat) (b k : Nat) : StepEnv where
  zero := Node.reset
  tzc := s.valAt (mkH 0x0A 0 1) k
  lramp := s.valAt (mkH 0x0A 0 2) k
  handover := fun q => tapped (s.srcMapAt (keySrc q) k)
  gk := fun q x => groupKey (tapped (s.srcMapAt (keySrc q) k)) (keySrc q) x.tap
  sig := fun g => (Cells.get [] sig g).getD (k - b) 0
  prev := fun g => if k = b then Cells.get 0 last g else (Cells.get [] sig g).getD (k - 1 - b) 0
  hear := fun q x =>
    let n := keySrc q
    (Cells.get [] sig (n * 4 + if split.contains n || tapped (s.srcMapAt n k) then x.tap else 0)).getD (k - b) 0

/-- R84: the sums of every destination that a node drives on one sample. -/
def StepG.sums (e : StepEnv) (n : Nat) (m : StepG) : Cells Int :=
  m.nodes.foldl (fun acc c =>
    let gk := e.gk c.1 c.2
    let g := c.2.applied (m.group gk) n
    if g = 0 then acc else Cells.upd 0 acc (keyDst c.1) (· + gmul (e.hear c.1 c.2) g)) []

/-- R467: a corner node in strict behaviour takes its target and tap at the commit sample. -/
def StepG.strict (e : StepEnv) (m : StepG) (q : Nat × Int × Nat) : StepG :=
  let x := Cells.get e.zero m.nodes q.1
  let g0 := e.gk q.1 x
  let y : Node := { x with cur := q.2.1, tgt := q.2.1, tap := q.2.2, ntap := q.2.2, st := .idle, hold := false }
  ((m.setNode e q.1 y).tidy e g0)

/-- One sample of the Mere: the commits of its stamp, the stepping, the sums. -/
def State.mereSample (s : State) (e : StepEnv) (k : Nat) (m : StepG) : StepG × Cells Int :=
  let due := s.mere.queue.filter (fun c => decide (c.c = k))
  let m0 := if due.any (fun c => c.shape.isSome) then { nodes := [], groups := [] } else m
  let all := due.flatMap (·.nodes)
  let strict := fun (q : Nat × Int × Nat) => s.cap.cornerSrc (keySrc q.1) && decide (s.valAt (mkH 0x60 0 0) k = 0)
  let flips := (busyOf s.cap.sources ((s.audio.changes.filter (fun c => decide (c.c = k) && decide (hCls c.h = 8))).map (fun c => hInst c.h))).filter (fun n =>
    (s.chgAt 0x08 n k).any (fun c => c.1 = 0) && (tapped (s.srcMapAt n (k - 1)) != tapped (s.srcMapAt n k)))
  let m1 := flips.foldl (fun m n => m.regroup n (tapped (s.srcMapAt n k))) m0
  let m2 := (all.filter strict).foldl (fun m q => m.strict e q) m1
  let m3 := m2.sample e k (all.filter (fun q => !strict q))
  (m3, m3.sums e k)

/-- The key of a consumer of a destination: its map kind and index. -/
def consKey (w : Nat) : Nat := w / 2 ^ 24 * 65536 + w % 65536

/-- A sample added to one place of a block. -/
def addSmp (m : Cells (List Int)) (B key j : Nat) (v : Int) : Cells (List Int) :=
  if v = 0 then m
  else
    let l := Cells.get [] m key
    let l1 := if l.isEmpty then List.replicate B 0 else l
    Cells.put [] m key (l1.set j (l1.getD j 0 + v))

/-- R65, R79: a destination's sample goes to the consumer in force, and during a map crossfade fades over to the new one. -/
def feed (m : Cells (List Int)) (B k j : Nat) (x : Xf) (w : Nat) (v : Int) : Cells (List Int) :=
  if x.cur.isEmpty then addSmp m B (consKey w) j v
  else addSmp (addSmp m B (consKey (x.cur.headD 0)) j (x.mix k v 0)) B (consKey (x.target.headD 0)) j (x.mix k 0 v)

/-- R79: one sample of the destination maps: the crossfades, and the consumers' sums. -/
def State.feedAll (s : State) (b j : Nat) (sums : Cells Int) (a : Cells Xf × Cells (List Int) × List Nat) :
    Cells Xf × Cells (List Int) × List Nat :=
  let k := b + j
  -- a destination with no sample, no crossfade and no change adds nothing
  let busy := (s.audio.changes.filter (fun c => decide (hCls c.h = 9))).map (fun c => hInst c.h) ++ a.1.map (·.1) ++ sums.map (·.1)
  (busyOf s.cap.dests busy).foldl (fun (a : Cells Xf × Cells (List Int) × List Nat) d =>
    let w := s.dstMapAt d k
    let touch := !(s.chgAt 0x09 d k).isEmpty
    let (x, p) := mapStep (Cells.get (Xf.at []) a.1 d) [s.dstMapAt d (k - 1)] [w] touch (s.valAt (mkH 0x0A 0 3) k) k
    (Cells.put (Xf.at []) a.1 d x, feed a.2.1 s.B k j x w (Cells.get 0 sums d), a.2.2 ++ List.replicate p d)) a

/-- The Mere over the block from stamp b. The sums are kept by consumer. -/
def State.mereTick (s : State) (b : Nat) : State :=
  let moving := (s.audio.changes.filter (fun c => decide (hCls c.h = 8))).map (fun c => hInst c.h) ++ s.mere.srcX.map (·.1)
  let srcs := (List.range s.cap.sources).map (fun n =>
    (n, if moving.contains n then s.srcBlock b n else (Xf.at [], s.srcStill b n, 0)))
  let split := (srcs.filter (fun q => moving.contains q.1 && decide (1 < q.2.2.1.length))).map (·.1)
  let sig : Cells (List Int) := srcs.foldl (fun m q =>
    q.2.2.1.zipIdx.foldl (fun m t => if t.1.all (· = 0) then m else Cells.put [] m (q.1 * 4 + t.2) t.1) m) []
  let srcX : Cells Xf := srcs.foldl (fun m q => Cells.put (Xf.at []) m q.1 q.2.1) s.mere.srcX
  let r := (List.range s.B).foldl (fun (a : StepG × Cells Xf × Cells (List Int) × List Nat) j =>
    let e := s.stepEnv sig s.mere.sig split b (b + j)
    let (m, sums) := s.mereSample e (b + j) a.1
    (m, s.feedAll b j sums a.2)) (s.mere.step, s.mere.dstX, ([] : Cells (List Int)), ([] : List Nat))
  let last : Cells Int := sig.foldl (fun m q => Cells.put 0 m q.1 (q.2.getD (s.B - 1) 0)) []
  let s1 := { s with
    mere := { s.mere with
      step := r.1, srcX := srcX, dstX := r.2.1, sig := last
      shape := ((s.mere.queue.filter (fun c => c.c < b + s.B)).filterMap (·.shape)).getLastD s.mere.shape
      queue := s.mere.queue.filter (fun c => !decide (c.c < b + s.B)) }
    audio := { s.audio with sums := r.2.2.1 } }
  let s2 := srcs.foldl (fun s q => s.superseded 0 q.1 q.2.2.2) s1
  r.2.2.2.foldl (fun s d => s.superseded (s.destOwner (s.dstMap d)) d 1) s2

/-! ### Busses (R60–R63) -/

/-- Two neighbouring busses over the block from stamp b. -/
def State.busBlock (s : State) (b k : Nat) : PairAcc BusOut :=
  let n0 := 2 * k
  let n1 := 2 * k + 1
  let e0 := s.envOf 0x02 n0
  let e1 := s.envOf 0x02 n1
  let start := fun n => Acc.mk (Cells.get ChainRt.reset s.audio.busses n) 0 0
  (List.range s.B).foldl (fun (a : PairAcc BusOut) j =>
    let t := b + j
    let link := decide (s.valAt (mkH 0x02 n0 0x7C) t = 1)
    let x := fun n => (Cells.get [] s.audio.sums (65536 + n)).getD j 0
    let key := fun (e : Env) => s.keyAt (e.vD 0x6B t) t
    let r := busPair e0 e1 link a.a0 a.a1 t (x n0) (x n1) (key e0) (key e1)
    { a0 := r.1.1, a1 := r.2.1, o := a.o ++ [(r.1.2, r.2.2)]
      g := a.g ++ [((grCode r.1.1.rt.compD.gdb, limCode r.1.1.rt.limG), (grCode r.2.1.rt.compD.gdb, limCode r.2.1.rt.limG))] })
    { a0 := start n0, a1 := start n1, o := [], g := [] }

/-- The outputs of one bus entered: state, output, counters, meters, insert send. -/
def State.putBus (s : State) (n : Nat) (a : Acc) (o : List BusOut) (g : List (Nat × Nat)) : State :=
  let s1 := s.setAudio (fun x => { x with
    busses := Cells.put ChainRt.reset x.busses n a.rt
    busOut := Cells.put [] x.busOut n (o.map (·.post))
    satBus := Cells.upd 0 x.satBus n (satInc · a.sat) })
  let s2 := s1.sendInsert a.rt.ins (o.map (·.send))
  let s3 := (((s2.meterBlock 0x02 n 0 (o.map (·.entry))).meterGrs 0x02 n 1 (g.map (·.1))).meterGrs 0x02 n 2
    (g.map (·.2))).meterBlock 0x02 n 3 (o.map (·.post))
  s3.superseded (s.busOwner n) n a.sup

/-- Every bus over the block from stamp b. -/
def State.bussesTick (s0 : State) (b : Nat) : State :=
  let heard := (s0.audio.sums.filter (fun c => decide (c.1 / 65536 = 1))).map (fun c => c.1 % 65536)
  let busy := s0.touchedObjs 0x02 ++ s0.audio.busses.map (·.1) ++ heard ++ s0.audio.busOut.map (·.1)
  (busyPairs s0.cap.busses busy).foldl (fun s k =>
    let r := s.busBlock b k
    (s.putBus (2 * k) r.a0 (r.o.map Prod.fst) (r.g.map Prod.fst)).putBus (2 * k + 1) r.a1 (r.o.map Prod.snd) (r.g.map Prod.snd)) s0

end Sys2Proof.Machine
end

