-- ==== Sys2Proof/Machine/Output.lean ====
section
/-! DEFINITION. Sys2Proof/Machine/Output.lean: the output patch and the output stage (R64–R70, R28). -/
namespace Sys2Proof.Machine

open Fmt

/-- Output entries (R64). -/
def outEntries : Nat := 4096

/-- One output entry's state. -/
def State.outRt (s : State) (n : Nat) : OutRt := Cells.get OutRt.reset s.audio.outs n
/-- One output entry's state changed. -/
def State.updOut (s : State) (n : Nat) (f : OutRt → OutRt) : State :=
  s.setAudio (fun a => { a with outs := Cells.upd OutRt.reset a.outs n f })

/-- Every output entry changed. -/
def State.updOuts (s : State) (f : OutRt → OutRt) : State :=
  (List.range outEntries).foldl (fun s n => s.updOut n f) s

/-- The stamp whose sample the next frame tick delivers first at the output stages' exit. -/
def State.exitStamp (s : State) : Nat := s.audio.taken - 4 * s.B

/-- R3, R351, R355: every output is held muted. -/
def State.muteOutputs (s : State) : State := s.updOuts (fun o => { o with mute := Zc.at 0 })

/-- R69: every output stage's generator is seeded. -/
def State.seedDither (s : State) (dev : Nat) : State :=
  (List.range outEntries).foldl (fun s n => s.updOut n (fun o => { o with dither := ditherSeed dev n })) s

/-- R64, R40: one entry's bus signal over the block from stamp b, with its patch crossfade. -/
def State.outBus (s : State) (b n : Nat) (x0 : Xf) : Xf × List Int × Nat :=
  (List.range s.B).foldl (fun (a : Xf × List Int × Nat) j =>
    let k := b + j
    let len := s.valAt (mkH 0x06 n 2) k
    let (x, p) := (a.1.relength len).take [s.valAt (mkH 0x06 n 1) k] (touched (s.chgAt 0x06 n k) [1] false |>.map fun _ => len) k
    let smp := fun (v : List Nat) => if v.headD 0xFFFF = 0xFFFF then 0 else (Cells.get [] s.audio.busOut (v.headD 0)).getD j 0
    (x, a.2.1 ++ [x.mix k (smp x.cur) (smp x.target)], a.2.2 + p)) (x0, [], 0)

/-- What an entry's limiter needs to know of the block that leaves: the samples, and h of each. -/
structure LimIn where
  x : List Int
  h : List Nat

/-- R67: the samples that leave (stamps from b) and h of each, from them and the block behind them. -/
def State.limIn (s : State) (b n : Nat) (held inc : List Int) : LimIn :=
  let all := held ++ inc
  let needs := all.zipIdx.map (fun x => limNeed (limT (s.valAt (mkH 0x07 n 1) (b + x.2))) x.1)
  { x := held, h := (List.range s.B).map (fun j => limH s.B (needs.drop j)) }

/-- R68: the entry a limiter is linked with at a stamp, none unless the link is mutual. -/
def State.limMate (s : State) (n k : Nat) : Option Nat :=
  let m := s.valAt (mkH 0x07 n 3) k
  if m ≠ 0xFFFF ∧ m ≠ n ∧ s.valAt (mkH 0x07 m 3) k = n then some m else none

/-- R68: whose release a linked pair takes: the longer, or that of the lower-numbered entry. -/
def State.limRelOf (s : State) (n m k : Nat) : Nat :=
  let r := fun i => s.valAt (mkH 0x07 i 2) k
  limRel (max (r n) (r m)) s.fs

/-- R67, R68: the gains of an entry on the samples that leave. `mate` is the linked entry with its limiter input. -/
def State.limGains (s : State) (b n : Nat) (me : LimIn) (mate : Nat → LimIn) (g0 : Nat) (mg : Nat → Nat) : List Nat :=
  ((List.range s.B).foldl (fun (a : Nat × Option (Nat × Nat) × List Nat) j =>
    let k := b + j
    match s.limMate n k with
    | some m =>
      let gm := match a.2.1 with
        | some (m', g) => if m' = m then g else mg m
        | none => mg m
      let h := min (me.h.getD j limOne) ((mate m).h.getD j limOne)
      let g := min h (limRecover (min a.1 gm) (s.limRelOf n m k))
      (g, some (m, g), a.2.2 ++ [g])
    | none =>
      let g := min (me.h.getD j limOne) (limRecover a.1 (limRel (s.valAt (mkH 0x07 n 2) k) s.fs))
      (g, none, a.2.2 ++ [g])) (g0, none, [])).2.2

/-- What one entry delivers on a sample: words by port channel reference, whether one saturated. -/
structure OutSmp where
  words : List (Nat × Int)
  meter : Int
  sat   : Bool

/-- R7, R65, R70: what leaves of such a sample at stamp k under a mute: the word of each destination at a width. -/
def Sent.out (q : Sent) (mu : Zc) (k width : Nat) : OutSmp :=
  let z := gmul q.y (mu.applied k)
  let word := fun (v : Int) => if mu.applied k = 0 then (0, false) else outTrunc (v + q.add) width
  let sides := match q.dest.run with
    | none => [(q.dest.cur.headD 0, z)]
    | some r => [(q.dest.cur.headD 0, q.dest.mix k z 0), (r.new.headD 0, q.dest.mix k 0 z)]
  let ws := sides.map (fun x => (x.1, word x.2))
  { words := (ws.filter (fun x => x.1 ≠ 0)).map (fun x => (x.1, x.2.1))
    meter := ((ws.getLast?.map (fun x => x.2.1)).getD 0) * 512
    sat := ws.any (fun x => x.2.2) }

/-- Samples delivered to their port channels, leaving from MCC t on. -/
def deliver (t : Nat) (l : List OutSmp) (port : Cells Int) : Cells Int :=
  l.zipIdx.foldl (fun m w => w.1.words.foldl (fun m q => Cells.put 0 m (smpKey q.1 (t + w.2)) q.2) m) port

/-- R7, R65, R67–R70: one sample of an output stage: enable crossfade, mute, dest fades, dither, truncation. While a dest change fades two
port channels, a sample on which both saturate counts once in the entry's counter (log entry 149, DESIGN CHOICE). -/
def State.outSample (s : State) (n k : Nat) (o : OutRt) (x : Int) (g : Nat) : OutRt × OutSmp × Nat :=
  let (l1, p1) := o.lim.take [s.valAt (mkH 0x07 n 0) k] (touched (s.chgAt 0x07 n k) [0] false) k
  let (lim, y) := l1.switch k x (limApply x g)
  let mu := o.mute.sample y k (s.valAt (mkH 0x0A 0 1) k) (s.valAt (mkH 0x0A 0 2) k)
  let len := s.valAt (mkH 0x06 n 2) k
  let (d, p2) := (o.destX.relength len).take [s.valAt (mkH 0x06 n 0) k] (touched (s.chgAt 0x06 n k) [0] false |>.map fun _ => len) k
  let (st, dv) := ditherStep o.dither o.width
  let q : Sent := { y := y, add := if o.dithOn = 1 then dv else 0, dest := d }
  ({ o with lim := lim, mute := mu, destX := d, dither := st, g := g, sent := o.sent ++ [q] }, q.out mu k o.width, p1 + p2)

/-- One entry over the block that leaves (stamps from b, exit MCC from t), with its gains. -/
def State.outEntry (s : State) (b t n : Nat) (o0 : OutRt) (xs : List Int) (gs : List Nat) : State :=
  let o1 : OutRt := { o0 with
    width := s.valAt (mkH 0x07 n 5) b, dithOn := s.valAt (mkH 0x07 n 4) b, sent := [], before := o0.mute.prev }
  let r := (List.range s.B).foldl (fun (a : OutRt × List OutSmp × Nat) j =>
    let (o, w, p) := s.outSample n (b + j) a.1 (xs.getD j 0) (gs.getD j limOne)
    (o, a.2.1 ++ [w], a.2.2 + p)) (o1, [], 0)
  let s1 := s.setAudio (fun a => { a with
    outs := Cells.put OutRt.reset a.outs n r.1
    port := deliver t r.2.1 a.port
    satOut := Cells.upd 0 a.satOut n (satInc · (r.2.1.filter (·.sat)).length)
    grOut := Cells.put 0 a.grOut n (limCode r.1.g) })
  ((s1.meterGrs 0x07 n 0 (gs.map limCode)).meterBlock 0x07 n 1 (r.2.1.map (·.meter))).superseded (s.at 0x06 n 3) n r.2.2

/-- An entry at its defaults that holds no sample: only its mute and its generator move. -/
def OutRt.atRest (o : OutRt) : Bool :=
  o.held.all (fun x => decide (x = 0)) && decide ({ o with held := [], dither := 0, mute := Zc.at 0, sent := [], before := 0 } = OutRt.reset)

/-- A block of such an entry, from stamp b. -/
def OutRt.restBlock (o : OutRt) (s : State) (b : Nat) : OutRt :=
  (List.range s.B).foldl (fun (o : OutRt) j =>
    { o with mute := o.mute.sample 0 (b + j) (s.valAt (mkH 0x0A 0 1) (b + j)) (s.valAt (mkH 0x0A 0 2) (b + j))
             dither := (ditherStep o.dither o.width).1 }) { o with sent := [] }

/-- The output patch and the output stages at a frame tick: the block from stamp b + B enters, the block from stamp b leaves from
exit MCC t on (R28). -/
def State.outputTick (s0 : State) (b t : Nat) : State :=
  let named := s0.touchedObjs 0x06 ++ s0.touchedObjs 0x07
  let rests := fun (n : Nat) (o : OutRt) => !named.contains n && o.atRest
  let s := s0.setAudio (fun a => { a with outs := a.outs.map (fun c => if rests c.1 c.2 then (c.1, c.2.restBlock s0 b) else c) })
  let busy := named ++ (s0.audio.outs.filter (fun c => !rests c.1 c.2)).map (·.1)
  let pre := (busyOf outEntries busy).map (fun n =>
    let o := s.outRt n
    let held := if o.held.isEmpty then List.replicate s.B 0 else o.held
    let (bx, inc, p) := s.outBus (b + s.B) n o.busX
    (n, { o with busX := bx, held := inc }, s.limIn b n held inc, p))
  let inOf := fun (m : Nat) => ((pre.find? (fun q => decide (q.1 = m))).map (fun q => q.2.2.1)).getD { x := [], h := [] }
  let gOf := fun m => (s.outRt m).g
  pre.foldl (fun st q =>
    let gs := s.limGains b q.1 q.2.2.1 inOf (s.outRt q.1).g gOf
    (st.outEntry b t q.1 q.2.1 q.2.2.1.x gs).superseded (s.at 0x06 q.1 3) q.1 q.2.2.2) s

/-! ### Unmuting (R353) -/

/-- How many samples of the block that leaves have left. -/
def State.gone (s : State) : Nat := min s.B (s.mcc - (s.audio.taken + 2))

/-- A mute released on a block from stamp n on: the mute after it and the samples with their mutes. -/
def Zc.release (z : Zc) (prev : Int) (n tzc lramp : Nat) (l : List Int) : Zc × List Zc :=
  l.zipIdx.foldl (fun a q => let m := a.1.sample q.1 (n + q.2) tzc lramp; (m, a.2 ++ [m])) (({ z with prev := prev }).commit n unity, [])

/-- R44, R353: an entry unmutes at its first zero crossing from this sample on, which may stand in the block that leaves; an entry without
such a block carries zero. The meters of that block stay as they were read (log entry 198). -/
def State.unmuteOutput (s : State) (n : Nat) : State :=
  let o := s.outRt n
  let j := s.gone
  let k := s.exitStamp - s.B + j
  let late := o.sent.drop j
  let prev := if o.sent.isEmpty then o.mute.prev else if j = 0 then o.before else ((o.sent.getD (j - 1) ⟨0, 0, o.destX⟩).y)
  let zeros := if o.sent.isEmpty then List.replicate (s.B - j) 0 else late.map (·.y)
  let r := o.mute.release prev k (s.at 0x0A 0 1) (s.at 0x0A 0 2) zeros
  let ws := (late.zip r.2).zipIdx.map (fun q => q.1.1.out q.1.2 (k + q.2) o.width)
  s.setAudio (fun a => { a with
    outs := Cells.put OutRt.reset a.outs n { o with mute := r.1 }
    port := deliver (s.audio.taken + 2 + j) ws a.port
    satOut := Cells.upd 0 a.satOut n (satInc · (ws.filter (·.sat)).length) })

/-- R353: every held output unmutes at its first zero crossing. -/
def State.unmuteOutputs (s : State) : State := (List.range outEntries).foldl State.unmuteOutput s

end Sys2Proof.Machine
end

