-- ==== Sys2Proof/Machine/LegPath.lean ====
section
/-! DEFINITION. Sys2Proof/Machine/LegPath.lean: the legacy channels, busses and outputs over one block (R461–R470). -/
namespace Sys2Proof.Machine

open Fmt

/-- A change of the legacy partition. -/
def State.setLeg (s : State) (f : LegG → LegG) : State := { s with legacy := f s.legacy }

/-- R467: refined behaviour at a stamp. -/
def State.refined (s : State) (n : Nat) : Bool := decide (s.valAt (mkH 0x60 0 0) n = 1)

/-- R467: a legacy gain stage takes a commit: a raw step in strict behaviour, R44 in refined behaviour. -/
def legZc (z : Zc) (touch refined : Bool) (target x : Int) (n tzc lramp : Nat) : Zc :=
  let z1 := if touch then (if refined then z.commit n target else { (Zc.at target) with prev := z.prev }) else z
  z1.sample x n tzc lramp

/-- R467: a legacy route takes a commit: a switch in strict behaviour, a crossfade of 256 samples in refined behaviour. -/
def legXf (x : Xf) (touch refined : Bool) (new : List Nat) (n : Nat) : Xf :=
  if touch ∧ !refined then Xf.at new else (x.take new (if touch then some 256 else none) n).1

/-- Port channel of a TDM slot numbered as OUTSEL. -/
def State.legRef (s : State) (k : Nat) : Nat := 0x01000000 + k / s.legPerPort * 65536 + k % s.legPerPort
/-- Port channel of a bridge point (R470). -/
def bridgeRef (k : Nat) : Nat := 0x07000000 + k * 65536

/-- The input that INSEL names at stamp n, as E48; `t` is the exit MCC whose send bridge sample the frame tick takes (R469). -/
def State.legIn (s : State) (v n t : Nat) : Int :=
  if v < 64 then (if v < s.legSlots then s.rxAt (s.legRef v) n else 0)
  else if v < 72 then s32ToE48 (s.portAt (bridgeRef (v - 64)) t)
  else 0

/-- A peak meter after one sample: completed periods give their value (PEAK). -/
def LegRt.peakStep (r : LegRt) (v : Nat) : LegRt × Option Nat :=
  let p := max r.peak v
  if r.peakN + 1 = 1024 then ({ r with peakN := 0, peak := 0 }, some p) else ({ r with peakN := r.peakN + 1, peak := p }, none)

/-- CLIP_COUNT saturates at 24 bits. -/
def clipInc (c k : Nat) : Nat := min 0xFFFFFF (c + k)

/-- R461: one sample of a legacy channel: p, q, saturations. -/
def State.legChanSample (s : State) (c n t : Nat) (r : LegRt) : LegRt × Int × Int × Nat :=
  let a := 0x1000 + 0x40 * c
  let rf := s.refined n
  let tz := s.valAt (mkH 0x0A 0 1) n
  let lr := s.valAt (mkH 0x0A 0 2) n
  let g := fun f => s.legAt (a + f) n
  let tc := fun f => s.legTouched (a + f) n
  let inX := legXf r.inX (tc 0) rf [g 0] n
  let x := asr (inX.mix n (s.legIn (inX.cur.headD 0) n t) (s.legIn (inX.target.headD 0) n t)) 17
  let pol := legZc r.pol (tc 3) rf (if bit (g 3) 1 then -unity else unity) x n tz lr
  let y := sat24 (gmul x (pol.applied n))
  let gain := legZc r.gain (tc 1) rf (s24 (g 1)) y n tz lr
  let p0 := asr (y * gain.applied n) 20
  let p := sat24 p0
  let f := if bit (g 3) 0 then 0 else legLaw (g 2)
  let fader := legZc r.fader (tc 2 || tc 3) rf f p n tz lr
  let q0 := asr (p * fader.applied n) 20
  let q := sat24 q0
  ({ r with inX := inX, pol := pol, gain := gain, fader := fader }, p, q, b2n (overS 24 p0) + b2n (overS 24 q0))

/-- A channel's or bus's counters after a block: PEAK at addresses pk, CLIP_COUNT at pk + 1, the clip bit of 0x7F00. -/
def State.legMeters (s : State) (pk clipBit sat : Nat) (peaks : List Nat) : State :=
  s.setLeg (fun g => { g with
    live := Cells.upd 0 (match peaks.getLast? with | some p => Cells.put 0 g.live pk p | none => g.live) (pk + 1) (clipInc · sat)
    status := if sat = 0 then g.status else setBit g.status clipBit true })

/-- R463: one legacy channel over the block from stamp b: the corner source's taps. -/
def State.legChan (s : State) (b c : Nat) : State :=
  let r := (List.range s.B).foldl (fun (a : LegRt × List Int × List Int × Nat × List Nat) j =>
    let (rt, p, q, k) := s.legChanSample c (b + j) (s.mcc - s.B + j) a.1
    let (rt1, pk) := rt.peakStep q.natAbs
    (rt1, a.2.1 ++ [p * 2 ^ 20], a.2.2.1 ++ [q * 2 ^ 20], a.2.2.2.1 + k, a.2.2.2.2 ++ pk.toList))
    (Cells.get { LegRt.reset with inX := Xf.at [c] } s.legacy.chans c, [], [], 0, [])
  let key := 0x40000 + c * 4
  let s1 := (s.setLeg (fun g => { g with chans := Cells.put { LegRt.reset with inX := Xf.at [c] } g.chans c r.1 })).setAudio (fun a => { a with
    taps := Cells.put [] (Cells.put [] (Cells.put [] (Cells.put [] a.taps key r.2.1) (key + 1) r.2.1) (key + 2) r.2.2.1)
      (key + 3) r.2.2.1 })
  s1.legMeters (0x1006 + 0x40 * c) 6 r.2.2.2.1 r.2.2.2.2

/-- R461, R463: one sample of a legacy bus. -/
def State.legBusSample (s : State) (i n : Nat) (sum : Int) (r : LegRt) : LegRt × Int × Nat :=
  let a := 0x4000 + 0x20 * i
  let y0 := asr sum 20
  let y := sat24 y0
  let g := if bit (s.legAt (a + 1) n) 0 then 0 else legLaw (s.legAt a n)
  let fader := legZc r.fader (s.legTouched a n || s.legTouched (a + 1) n) (s.refined n) g y n
    (s.valAt (mkH 0x0A 0 1) n) (s.valAt (mkH 0x0A 0 2) n)
  let o0 := asr (y * fader.applied n) 20
  let o := sat24 o0
  ({ r with fader := fader, pad := (o :: r.pad).take (3 * s.B + 8) }, o, b2n (overS 24 y0) + b2n (overS 24 o0))

/-- One legacy bus over the block from stamp b. -/
def State.legBus (s : State) (i b : Nat) : State :=
  let sum := Cells.get [] s.audio.sums (3 * 65536 + i)
  let r := (List.range s.B).foldl (fun (a : LegRt × Nat × List Nat) j =>
    let (rt, o, k) := s.legBusSample i (b + j) (sum.getD j 0) a.1
    let (rt1, pk) := rt.peakStep o.natAbs
    (rt1, a.2.1 + k, a.2.2 ++ pk.toList)) (Cells.get LegRt.reset s.legacy.busses i, 0, [])
  (s.setLeg (fun g => { g with busses := Cells.put LegRt.reset g.busses i r.1 })).legMeters (0x4002 + 0x20 * i) 5 r.2.1 r.2.2

/-- A legacy bus's output, as E48, `d` samples before the newest. -/
def State.legBusAt (s : State) (i d : Nat) : Int :=
  if i < s.legBusses then ((Cells.get LegRt.reset s.legacy.busses i).pad.getD d 0) * 2 ^ 17 else 0

/-- R470: return bridge k: o of its bus before the padding, three blocks after its stamp (R469). -/
def State.bridgeOut (s : State) (b k : Nat) : State :=
  let h := mkH 0x60 k 0x10
  let r := (List.range s.B).foldl (fun (a : State × Xf) j =>
    let n := b + j
    let x := (a.2.take [s.valAt h n] (if s.audio.changes.any (fun c => c.h = h && c.c = n) then some 256 else none) n).1
    let smp := fun (v : List Nat) => s.legBusAt (v.headD 0xFF) (s.B - 1 - j)
    (a.1.putRx (bridgeRef k) (n + 3 * s.B) (x.mix n (smp x.cur) (smp x.target)), x))
    (s, Cells.get (Xf.at [0xFF]) s.legacy.retX k)
  r.1.setLeg (fun g => { g with retX := Cells.put (Xf.at [0xFF]) g.retX k r.2 })

/-- R461, R463, R468: one output slot over the block that leaves: the padded output of the bus that OUTSEL names (stamps from b − 7,
exit MCC from t). -/
def State.legOut (s : State) (b t k : Nat) : State :=
  let a := 0x40 + k
  let z0 := Cells.get (Zc.at 0) s.legacy.outM k
  let r := (List.range s.B).foldl (fun (q : State × Xf × Zc × List Int) j =>
    let n := b + j - 7
    let rf := s.refined n
    let x := legXf q.2.1 (s.legTouched a n) rf [s.legAt a n] n
    let smp := fun (v : List Nat) =>
      let w := v.headD 0x80
      if bit w 7 then 0 else s.legBusAt (w % 64) (3 * s.B + 6 - j)
    let y := x.mix n (smp x.cur) (smp x.target)
    let z := q.2.2.1.sample y n (s.valAt (mkH 0x0A 0 1) n) (s.valAt (mkH 0x0A 0 2) n)
    let w := (outTrunc (gmul y (z.applied n)) 1).1
    ({ q.1 with audio := { q.1.audio with port := Cells.put 0 q.1.audio.port (smpKey (s.legRef k) (t + j)) w } }, x, z, q.2.2.2 ++ [y]))
    (s, Cells.get (Xf.at [0x80]) s.legacy.outX k, z0, [z0.prev])
  r.1.setLeg (fun g => { g with
    outX := Cells.put (Xf.at [0x80]) g.outX k r.2.1, outM := Cells.put (Zc.at 0) g.outM k r.2.2.1, outS := Cells.put [] g.outS k r.2.2.2 })

/-- R44, R353: a legacy output slot unmutes at its first zero crossing from this sample on, which may stand in the block that leaves. -/
def State.unmuteLegSlot (s : State) (k : Nat) : State :=
  let z := Cells.get (Zc.at 0) s.legacy.outM k
  let l := Cells.get [] s.legacy.outS k
  let j := s.gone
  let n := s.exitStamp - s.B + j - 7
  let late := if l.isEmpty then List.replicate (s.B - j) 0 else l.drop (j + 1)
  let r := z.release (l.getD j z.prev) n (s.at 0x0A 0 1) (s.at 0x0A 0 2) late
  let ws := (late.zip r.2).zipIdx.map (fun q =>
    ({ words := [(s.legRef k, (outTrunc (gmul q.1.1 (q.1.2.applied (n + q.2))) 1).1)], meter := 0, sat := false } : OutSmp))
  (s.setAudio (fun a => { a with port := deliver (s.audio.taken + 2 + j) ws a.port })).setLeg (fun g =>
    { g with outM := Cells.put (Zc.at 0) g.outM k r.1 })

/-- R353: every legacy output slot unmutes. -/
def State.unmuteLegacy (s : State) : State :=
  if s.cap.legacy then (List.range s.legSlots).foldl State.unmuteLegSlot s else s

/-- The legacy channels at a frame tick. -/
def State.legChansTick (s : State) (b : Nat) : State :=
  if s.cap.legacy then (List.range s.legChans).foldl (fun s c => s.legChan b c) s else s

/-- The legacy busses and the return bridges at a frame tick. -/
def State.legBussesTick (s : State) (b : Nat) : State :=
  if s.cap.legacy then
    (List.range 8).foldl (fun s k => s.bridgeOut b k) ((List.range s.legBusses).foldl (fun s i => s.legBus i b) s)
  else s

/-- The legacy outputs at a frame tick. -/
def State.legOutsTick (s : State) (b t : Nat) : State :=
  if s.cap.legacy then (List.range s.legSlots).foldl (fun s k => s.legOut b t k) s else s

end Sys2Proof.Machine
end

