-- ==== Sys2Proof/Machine/Ports.lean ====
section
/-! DEFINITION. Sys2Proof/Machine/Ports.lean: what SAP and MADI directions share (R208, R213–R223, R499), the SRC channels behind them
(R235–R241), and the SAP commands. -/
namespace Sys2Proof.Machine

open Fmt

/-! ### Directions -/

/-- The slots below a bound that a mask names, lowest first. -/
def maskSlots (m bound : Nat) : List Nat := (List.range bound).filter (bit m)

/-- A function applied to the named slots. -/
def PortDir.mapSlots (d : PortDir) (ks : List Nat) (f : SlotSt → SlotSt) : PortDir :=
  { d with slots := ks.foldl (fun c k => Cells.upd SlotSt.reset c k f) d.slots }
/-- A function applied to every slot of the mask in force. -/
def PortDir.each (d : PortDir) (f : SlotSt → SlotSt) : PortDir := d.mapSlots (maskSlots d.mask 64) f
/-- One slot of a direction. -/
def PortDir.slot (d : PortDir) (k : Nat) : SlotSt := Cells.get SlotSt.reset d.slots k
/-- Whether every slot of the mask applies 0. -/
def PortDir.allSilent (d : PortDir) (n : Nat) : Bool := (maskSlots d.mask 64).all (fun k => (d.slot k).silent n)
/-- The direction stopped: its counters stay. -/
def PortDir.off (d : PortDir) : PortDir :=
  { PortDir.reset with frames := d.frames, slips := d.slips, losses := d.losses, tx := d.tx.map (fun _ => 0) }
/-- R219, R220, R222: a flag. Receive slots fade from what they hold; a transmit direction sends zero words at once. -/
def PortDir.flag (d : PortDir) (tx : Bool) : PortDir :=
  let d1 := if tx then d.each (fun _ => SlotSt.reset) else d.each SlotSt.lose
  { d1 with loss := true, running := false, measuring := false, mismatch := false, meas := 0, losses := satInc d.losses 1
            phase := none, tx := d.tx.map (fun _ => 0) }
/-- R214: every slot of the mask starts muted at n; R467 has them live at once. -/
def PortDir.startSlots (d : PortDir) (n : Nat) (strict : Bool) : PortDir :=
  d.each (fun x => if strict then { x.live with held := 0 } else { x.start n with held := 0 })
/-- The status word of R208. -/
def PortDir.status (d : PortDir) (src : Bool) : Nat :=
  b2n d.running + 2 * b2n d.loss + 4 * b2n d.measuring + 8 * b2n d.mismatch + 16 * b2n src + 32 * b2n d.origin

/-- The receive samples of one stamp: every slot of the mask through its stage, into the alignment buffer of its port channel. -/
def State.rxRow (s : State) (ref0 : Nat) (d : PortDir) (n : Nat) (f : Nat → SlotSt → SlotSt × Int) : State × PortDir :=
  (maskSlots d.mask 64).foldl (fun (a : State × PortDir) k =>
    let (st, y) := f k (a.2.slot k)
    (a.1.putRx (ref0 + k) n y, { a.2 with slots := Cells.put SlotSt.reset a.2.slots k st })) (s, d)

/-- R220: the stamps below `upTo` for which no frame came take the last good samples, or the fade. -/
def State.rxGap (s : State) (ref0 : Nat) (d : PortDir) (upTo : Nat) : State × PortDir :=
  let n0 := d.nextStamp.getD upTo
  let (s1, d1) := (List.range (upTo - n0)).foldl (fun (a : State × PortDir) j =>
    a.1.rxRow ref0 a.2 (n0 + j) (fun _ st => st.again (n0 + j))) (s, d)
  (s1, { d1 with nextStamp := some (max n0 upTo) })

/-- A sample of a port channel enters the converter behind it, which delivers what lies before it first. -/
def State.srcIn (s : State) (ref : Nat) (v : Int) : State :=
  match s.srcOf ref 0 with
  | none => s
  | some (i, _) => (s.srcAdvance i s.mcc).srcFeed ref v

/-- Frames of a rate since MCC 0. -/
def State.framesAt (s : State) (rate : Nat) : Nat := s.mcc * rate / s.fs

/-- R220: a receive direction in loss whose slots do not count on engine samples: the fades and the silence after them up to the present
frame, which the converters behind the slots take. At most 1024 frames are stepped: no fade or filter reaches further back. -/
def State.idleTo (s : State) (ref0 now : Nat) (d : PortDir) : State × PortDir :=
  let (s1, d1) := (List.range (min 1024 (now - d.idle))).foldl (fun (a : State × PortDir) _ =>
    (maskSlots a.2.mask 64).foldl (fun (a : State × PortDir) k =>
      let (st, y) := (a.2.slot k).again 0
      (a.1.srcIn (ref0 + k) y, { a.2 with slots := Cells.put SlotSt.reset a.2.slots k st })) a) (s, d)
  (s1, { d1 with idle := max d.idle now })

/-! ### Decimator channels that read a SAP direction (R245–R251) -/

/-- One decimator channel. -/
def State.decCh (s : State) (i : Nat) : DecCh := Cells.get DecCh.reset s.conv.dec i
/-- One decimator channel changed. -/
def State.updDec (s : State) (i : Nat) (f : DecCh → DecCh) : State :=
  s.setConv (fun g => { g with dec := Cells.upd DecCh.reset g.dec i f })
/-- The reference of a decimator channel's engine-rate output. -/
def decRef (i : Nat) : Nat := 0x05000000 + i / 4 * 65536 + i % 4
/-- The decimator channels whose input is a SAP slot. -/
def State.decsOf (s : State) (p : Nat) (k : Option Nat) : List Nat :=
  (List.range 64).filter (fun i =>
    let w := (s.decCh i).input
    decide (w ≠ 0xFFFF) && decide (w / 256 = p) && (match k with | some k => decide (w % 256 = k) | none => true))

/-- A decimator channel's engine-rate output below a stamp: the decimating filter's samples are free values (R241's table bounds its
response and gives no coefficients; log entry 3). -/
def State.decAdvance (s : State) (i upTo : Nat) : State :=
  let x0 := s.decCh i
  if x0.input = 0xFFFF then s
  else
    (List.range (upTo - x0.next)).foldl (fun s j =>
      let x := s.decCh i
      let n := x0.next + j
      let (k, s1) := s.takeFree
      let (st, y) := x.outE.sample (satS 48 (Config.freeInt k)) n s.tzc s.lramp
      (s1.putRx (decRef i) n y).updDec i (fun x => { x with outE := st, next := n + 1 })) s

/-- R246: a decimator channel's input port flags loss: both outputs follow it. -/
def State.decLose (s : State) (p : Nat) : State :=
  (s.decsOf p none).foldl (fun s i =>
    (s.decAdvance i s.mcc).updDec i (fun x => { x with outE := x.outE.lose, out8 := x.out8.lose })) s

/-- Whether a decimator channel's outputs stay at zero: an input change and its silence (R245), the hold of R249, or the loss of its port (R246,
R251). -/
def State.decHeld (s : State) (i : Nat) : Bool :=
  let x := s.decCh i
  x.want.isSome || x.silence.isSome || s.conv.hold.isSome || (decide (x.input ≠ 0xFFFF) && (Cells.get PortDir.reset s.ports.sap (x.input / 256 * 2)).out)

/-- R249: whether the engine-rate samples of the fade before a DECSYNC have begun. -/
def State.decSoon (s : State) : Bool := s.conv.sched.any (fun c => decide (c ≤ s.mcc + 32))

/-- R221, R244: the outputs of a decimator channel unmute at their first zero crossings where they are enabled. -/
def State.decUnmute (s : State) (i : Nat) : State :=
  if s.decHeld i then s
  else
    let on8 := s.on 0x24 i 1
    let onE := s.on 0x24 i 2 && !s.decSoon
    (s.decAdvance i s.mcc).updDec i (fun x => { x with
      out8 := if on8 then { x.out8.start s.spring.n with held := 0 } else x.out8
      outE := if onE then { x.outE.start s.mcc with held := 0 } else x.outE })

/-- R246, R220: on each spring sample, the fade of the 8× outputs whose port is in loss goes on. -/
def State.decIdle (s : State) : State :=
  (List.range 64).foldl (fun s i =>
    let x := s.decCh i
    if x.input ≠ 0xFFFF ∧ x.out8.fade.isSome ∧ (Cells.get PortDir.reset s.ports.sap (x.input / 256 * 2)).out then
      s.updDec i (fun q => { q with out8 := (q.out8.again s.spring.n).1 })
    else s) s

/-- Every decimator channel that reads a port unmutes. -/
def State.decResume (s : State) (p : Nat) : State := (s.decsOf p none).foldl State.decUnmute s

/-! ### SAP directions -/

/-- R207: the FS that a master drives: bit clocks asserted in each frame, and whether asserted is low. In formats 1 and 2 it is low or high for
slot 0. The reserved fs_len 3 drives none, and half of an odd frame is rounded down (log entry 172). -/
def State.sapFs (s : State) (p : Nat) (tx : Bool) (c : SapCfg) : Nat × Bool :=
  if !c.master then (0, false)
  else if s.legSap p then (1, false)
  else
    let w := s.sapF p tx 0x09
    match s.sapF p tx 0x01 with
    | 0 => (match w / 4 % 4 with
        | 0 => 1
        | 1 => c.slotBits
        | 2 => c.slots * c.slotBits / 2
        | _ => 0, bit w 0)
    | 1 => (c.slotBits, true)
    | _ => (c.slotBits, false)

/-- R467: strict behaviour of a port. -/
def State.sapStrict (s : State) (p : Nat) : Bool := s.legSap p && !s.refined s.mcc
/-- The sample number that a direction's slots count on, as given before R216: engine samples, spring samples or own frames. -/
def PortDir.now (d : PortDir) (k : SapKind) (mcc : Nat) : Nat :=
  match k with
  | .engine => mcc
  | .spring16 => d.frames / 2
  | _ => d.frames
/-- T_zc and L_ramp of a direction. -/
def State.sapZc (s : State) (k : SapKind) : Nat × Nat :=
  match k with
  | .spring8 => (s.at 0x13 0 0, s.at 0x13 0 1)
  | .spring16 => (s.at 0x13 0 0, s.at 0x13 0 1)
  | _ => (s.tzc, s.lramp)

/-- R214: a direction starts; with the fields as committed. -/
def State.sapStart (s : State) (p : Nat) (tx : Bool) : State :=
  let c := s.sapSet p tx
  let d := s.sapDir p tx
  let strict := s.sapStrict p
  let run := c.master || strict
  let mask := if s.legSap p then 2 ^ c.slots - 1 else s.sapF p tx 0x0A
  let fs := s.sapFs p tx c
  let d1 : PortDir := { d.off with
    fields := s.sapFields p tx, mask := mask, running := run, starting := !run, nextStamp := some s.mcc, idle := s.framesAt c.rate, fsLen := fs.1, fsLow := fs.2 }
  let s1 := (s.setSap p tx (if run then d1.startSlots (d1.now c.kind s.mcc) strict else d1)).sapOrigin p tx
  if run && !tx then s1.decResume p else s1

/-- A direction stops. -/
def State.sapOff (s : State) (p : Nat) (tx : Bool) : State :=
  let s1 := s.setSap p tx (s.sapDir p tx).off
  if tx then s1 else (s1.decLose p)

/-- R214, R215, R223, R467: a committed change of enable. -/
def State.sapEnable (s : State) (p : Nat) (tx on : Bool) : State :=
  let d := s.sapDir p tx
  let k := (s.sapCfg p tx).kind
  if on then
    if d.stopping.isSome then s.setSap p tx { d with again := true }
    else if d.active then s else s.sapStart p tx
  else if !d.active then s
  else if s.sapStrict p || !d.running then s.sapOff p tx
  else if d.stopping.isSome then s.setSap p tx { d with again := false }
  else s.setSap p tx { d.each (fun x => x.mute (d.now k s.mcc)) with stopping := some 0, stopOn := false, again := false }

/-- R217, R218: a committed change of the mask. -/
def State.sapMask (s : State) (p : Nat) (tx : Bool) (m : Nat) : State :=
  let d := s.sapDir p tx
  let n := d.now (s.sapCfg p tx).kind s.mcc
  if !d.active then s
  else s.setSap p tx { d.mapSlots ((maskSlots d.mask 64).filter (fun k => !bit m k)) (fun x => x.mute n) with
    wanted := some m, shadow := none }

/-- R211, R212: frame assignment of a synchronous slave for a frame sync edge `edge` amclk cycles after MCC 0: the slip (−1 drops this frame,
1 repeats or skips one first), the number that the frame is assigned, and the reference. The first frame takes the number whose instant is
nearest. -/
def PortDir.assign (d : PortDir) (frame edge : Int) : Int × Nat × Int :=
  match d.phase with
  | none =>
    let n := ((2 * edge + frame) / (2 * frame)).toNat
    (0, n, edge - (n : Int) * frame)
  | some r =>
    let n := d.nextStamp.getD 0
    let moved := edge - (n : Int) * frame - r
    if frame < 2 * moved then (1, n + 1, r) else if frame < -(2 * moved) then (-1, n, r) else (0, n, r)

/-- R211: slip_count, and EV_SAP_SLIP once for each 1024 frames in which slips occur. -/
def State.sapSlip (s : State) (p : Nat) (tx : Bool) (d : PortDir) : State × PortDir :=
  let d1 := { d with slips := satInc d.slips 1 }
  match d.slipWin with
  | some w => if d.frames < w + 1024 then (s, d1)
      else (s.raise .sapSlip (s.sapOwner p) (sapObj p tx) 0, { d1 with slipWin := some d.frames })
  | none => (s.raise .sapSlip (s.sapOwner p) (sapObj p tx) 0, { d1 with slipWin := some d.frames })

/-- A received word as S32 (R213). -/
def sapWord (bits w : Nat) : Int := toS 32 (w % 2 ^ bits * 2 ^ (32 - bits))
/-- The word a transmit slot carries of an S32 value (R213). -/
def sapBits (bits : Nat) (v : Int) : Nat := wrapU 32 v / 2 ^ (32 - bits)

/-- A sample pushed into a spring source's input queue (R143): the oldest is dropped where 4 wait. The second result says so. -/
def SpringSrc.push (q : SpringSrc) (v : Int) : SpringSrc × Bool :=
  if 4 ≤ q.queue.length then ({ q with queue := q.queue.tail ++ [v], fresh := true }, true)
  else ({ q with queue := q.queue ++ [v], fresh := true }, false)

/-- R143: a slip of a spring source counts on every entry that reads it; EV_SPRING_SLIP comes once for each 1024 spring samples
of an entry, from its first slip on (log entry 182). -/
def State.springSlip (s : State) (ref : Nat) : State :=
  (s.spring.step.nodes.filter (fun c => decide (c.2.tap = ref))).foldl (fun s c =>
    let due := match (s.spring.slipEv.find? (fun q => q.1 = c.1)).map (·.2) with
      | some w => decide (w + 1024 ≤ s.spring.n)
      | none => true
    let s1 := { s with spring := { s.spring with
      slips := Cells.upd 0 s.spring.slips c.1 (fun k => satInc k 1)
      slipEv := if due then Cells.ins s.spring.slipEv c.1 s.spring.n else s.spring.slipEv } }
    if due then s1.raise .springSlip (s.at 0x10 (c.1 / 64) 0x1F) c.1 0 else s1) s

/-- A sample of a spring source arrives. -/
def State.springPush (s : State) (ref : Nat) (v : Int) : State :=
  let (q, drop) := (Cells.get SpringSrc.reset s.spring.srcs ref).push v
  let s1 := { s with spring := { s.spring with srcs := Cells.put SpringSrc.reset s.spring.srcs ref q } }
  if drop then s1.springSlip ref else s1

/-! ### The DC-blocking stage (R247) -/

/-- k of R247 as G32, from dc.corner in 0.01 Hz. -/
def dcK (corner fs8 : Nat) : Int :=
  Fxp.roundScaled (Fxp.one - Fxp.exp (-(2 * Fxp.pi * (corner : Int) / (100 * (fs8 : Int))))) 27

/-- The estimate after a sample: the product with the G32 value k rounded as R84 states. -/
def dcStep (e x k : Int) : Int := e + asr (k * (x - e) + 2 ^ 26) 27

/-- One spring sample of a decimator channel: DC stage, then the 8× output into its spring source's queue. An input at 8× base rate is
the SAP sample; behind the half-band stage it is a free value (log entry 3). The output lies one spring sample behind a direct one at 8×
(R242). -/
def State.decSample (s : State) (i : Nat) (x : Int) : State :=
  let d := s.decCh i
  let n := s.spring.n
  let lost := (s.sapDir (d.input / 256) false).out
  let frozen := d.frozen || lost || s.conv.hold.isSome
  let e := if frozen then d.e else dcStep d.e x (dcK (s.at 0x24 i 4) (8 * baseRate s.fam))
  let (cf, y) := d.dcX.switch n x (satE48 (x - e))
  let late := match s.conv.sched with
    | some c => s.conv.fading && decide (c ≤ s.mcc + 4 * rateMul s.prof) && decide (s.mcc < c)
    | none => false
  -- an output that is silent then stays so: it unmutes after the hold
  let slot := if late && d.out8.fade.isNone then (if d.out8.z.applied n = 0 then SlotSt.reset else d.out8.fadeOut) else d.out8
  let (st, o) := slot.sample d.y8 n (s.at 0x13 0 0) (s.at 0x13 0 1)
  (s.updDec i (fun q => { q with e := e, dcX := cf, y8 := y, out8 := st, phase8 := (q.phase8 + 1) % (8 / rateMul s.prof) })).springPush
    (0x10000000 + i / 4 * 65536 + i % 4) o

/-- A frame of a spring-rate or 16× SAP direction reaches the decimator channels that read it. -/
def State.decFrame (s : State) (p : Nat) (k : SapKind) (slot : Nat) (x : Int) : State :=
  (s.decsOf p (some slot)).foldl (fun s i =>
    match k with
    | .spring8 => s.decSample i x
    | .spring16 =>
      let ph := (s.decCh i).phase16
      let s1 := s.updDec i (fun q => { q with phase16 := (ph + 1) % 2 })
      if ph = 0 then let (j, s2) := s1.takeFree; s2.decSample i (satS 48 (Config.freeInt j)) else s1
    | _ => s) s

/-! ### SAP_FRAME -/

/-- R213: the slots that a transmit frame leaves undriven: those outside the mask, where sap[n].tx.idle is 1. -/
def State.sapHiz (s : State) (p : Nat) (c : SapCfg) (mask : Nat) : Nat :=
  if !s.legSap p && decide (s.at 0x20 p 0x20 = 1) then 2 ^ c.slots - 1 - mask % 2 ^ c.slots else 0

/-- R219: a slave direction in loss from this sample on. -/
def State.sapLose (s : State) (p : Nat) (tx : Bool) (cause : Nat) : State :=
  let c := s.sapCfg p tx
  let d0 := s.sapDir p tx
  let was := d0.running
  let (s1, d1) := if tx ∨ c.kind ≠ .engine then (s, { d0 with idle := s.framesAt c.rate }) else s.rxGap (sapRef0 .engine p) d0 s.mcc
  let d2 := if tx then { d1.flag tx with hiz := s.sapHiz p c d0.mask } else d1.flag tx
  let s2 := (s1.setSap p tx d2).raise .sapLoss (s.sapOwner p) (sapObj p tx) cause
  let s3 := if s.legSap p && !tx then
    s2.setLeg (fun g => { g with status := setBit g.status (1 + p) true }) else s2
  let s4 := if !was then s3 else
    match c.kind with
    | .src => s3.srcsOfPort (0x0100 + p) (b2n tx) SrcCh.portLost
    | .engine => s3
    | _ => if tx then { s3 with spring := { s3.spring with
          stopped := s3.spring.stopped ++ (maskSlots d0.mask 4).map (sapRef0 c.kind p + ·) } } else s3.decLose p
  s4.portRefs

/-- R219, R431: a flag of a slave direction; a follower keeps its own for later. -/
def State.sapFlag (s : State) (p : Nat) (tx : Bool) (cause : Nat) : State :=
  let i := InItem.sapLoss p (b2n tx) cause (s.sapDir p tx).frames
  if s.obeys then s.hold i else (s.sapLose p tx cause).note i

/-- A sample of a slot that does not count on engine samples: into the spring source's queue, the decimators that read it, or the converter. -/
def State.sapPass (s : State) (p : Nat) (k : SapKind) (slot : Nat) (y : Int) : State :=
  match k with
  | .spring8 => (s.springPush (sapRef0 k p + slot) y).decFrame p k slot y
  | .spring16 => s.decFrame p k slot y
  | .src => s.srcIn (sapRef0 k p + slot) y
  | .engine => s

/-- The engine side of a good receive frame with number n (R212, R213). -/
def State.sapRx (s : State) (p : Nat) (c : SapCfg) (d : PortDir) (n : Nat) (words : List Nat) : State × PortDir :=
  let (tz, lr) := s.sapZc c.kind
  let x := fun k => s32ToE48 (sapWord c.wordBits (words.getD k 0))
  match c.kind with
  | .engine =>
    let (s1, d1) := s.rxGap (sapRef0 .engine p) d n
    let (s2, d2) := s1.rxRow (sapRef0 .engine p) d1 n (fun k st => st.sample (x k) n tz lr)
    (s2, { d2 with nextStamp := some (n + 1) })
  | _ =>
    (maskSlots d.mask 64).foldl (fun (a : State × PortDir) k =>
      let (st, y) := (a.2.slot k).sample (x k) n tz lr
      (a.1.sapPass p c.kind k y, { a.2 with slots := Cells.put SlotSt.reset a.2.slots k st })) (s, d)

/-- R220: the frames of a rate that would have begun within a time, the one at its end not counted; at most 1024 are stepped. -/
def missedFrames (gap rate amclk : Nat) : Nat := min 1024 (gap * rate / amclk - 1)

/-- R211: one sample in every slot is repeated, for a direction that does not count on engine samples. -/
def State.sapRepeat (s : State) (p : Nat) (c : SapCfg) (d : PortDir) : State :=
  (maskSlots d.mask 64).foldl (fun s k => s.sapPass p c.kind k (d.slot k).held) s

/-- R220: frames missing since the last one, `gap` amclk cycles ago, repeat its samples, in a receive direction that does not count on
engine samples. -/
def State.sapFill (s : State) (p : Nat) (tx : Bool) (gap : Nat) : State :=
  let c := s.sapCfg p tx
  let d := s.sapDir p tx
  if tx || !d.running || decide (c.kind = .engine) then s
  else (List.range (missedFrames gap c.rate s.amclk)).foldl (fun s _ => s.sapRepeat p c d) s

/-- The S32 value a transmit slot is given in frame n: the output stage result of exit n − 3 (R212), the oldest sample of its spring output
queue (R143), or the converter's output. -/
def State.sapTxValue (s : State) (p k : Nat) (c : SapCfg) (n : Nat) : Int × State :=
  let ref := sapRef0 c.kind p + k
  match c.kind with
  | .engine => (toS 32 (wrapU 32 (s.portAt ref (n - 3))), s)
  | .src => match s.srcOf ref 1 with
    | none => (0, s)
    | some (i, _) => s.srcOut i (s.sapDir p true).frames 32
  | _ =>
    let q := Cells.get [] s.spring.outQ ref
    ((q.getLast?).getD 0,
      { s with spring := { s.spring with outQ := if q.length ≤ 1 then s.spring.outQ else Cells.put [] s.spring.outQ ref q.dropLast } })

/-- The words of transmit frame n: slots outside the mask carry 0 or high impedance (R213). -/
def State.sapTx (s : State) (p : Nat) (c : SapCfg) (d : PortDir) (n : Nat) : State × PortDir :=
  let (tz, lr) := s.sapZc c.kind
  let (s1, d1, ws) := (List.range c.slots).foldl (fun (a : State × PortDir × List Nat) k =>
    if bit d.mask k then
      let (v, s1) := a.1.sapTxValue p k c n
      let (st, y) := (a.2.1.slot k).sample v n tz lr
      (s1, { a.2.1 with slots := Cells.put SlotSt.reset a.2.1.slots k st }, a.2.2 ++ [sapBits c.wordBits y])
    else (a.1, a.2.1, a.2.2 ++ [0])) (s, d, [])
  (s1, { d1 with tx := ws, hiz := s.sapHiz p c d.mask })

/-- R211: one frame's samples are skipped, where they wait in queues of their own. -/
def State.sapSkip (s : State) (p : Nat) (c : SapCfg) (d : PortDir) : State :=
  if c.kind = .engine then s else (maskSlots d.mask 64).foldl (fun s k => (s.sapTxValue p k c 0).2) s

/-- R215: the count of a stop after a frame with sample number n. -/
def PortDir.stopStep (d : PortDir) (n : Nat) : PortDir :=
  match d.stopping with
  | none => d
  | some k => if d.stopOn then { d with stopping := some (k + 1) } else if d.allSilent n then { d with stopOn := true } else d

/-- The frame count, and the frames that a shadow mask still waits (R217). -/
def PortDir.count (d : PortDir) : PortDir :=
  { d with frames := (d.frames + 1) % 2 ^ 32, shadow := d.shadow.map (fun q => (q.1, q.2 - 1)) }

/-- Whether a direction counts as R211 states: the clock-1 slaves. -/
def SapCfg.tracks (c : SapCfg) : Bool := decide (c.clock = 1)

/-- The number that a frame's slots count on: the frame number at the engine rate, else the direction's own count. -/
def PortDir.slotNo (d : PortDir) (k : SapKind) (n : Nat) : Nat := if k = .engine then n else d.now k n

/-- A frame with number n passes. -/
def State.sapPassFrame (s : State) (p : Nat) (tx : Bool) (c : SapCfg) (d : PortDir) (n : Nat) (words : List Nat) : State :=
  let m := d.slotNo c.kind n
  let (s1, d1) := if tx then s.sapTx p c d m else s.sapRx p c d m words
  s1.setSap p tx ({ d1 with nextStamp := some (n + 1) }.stopStep m)

/-- R211: what a slip does to the samples, once the frame has its number: a receive direction repeats one sample (slip 1, at the engine rate in
the gap before the frame) or drops this frame (slip −1), a transmit direction skips one sample or sends the old words again. -/
def State.sapSlipped (s : State) (p : Nat) (tx : Bool) (c : SapCfg) (d : PortDir) (slip : Int) (n : Nat) (words : List Nat) : State :=
  if slip = -1 then s.setSap p tx (if tx then d.stopStep (d.slotNo c.kind n) else d)
  else
    let s1 := if slip ≠ 1 then s else if tx then s.sapSkip p c d else s.sapRepeat p c d
    s1.sapPassFrame p tx c d n words

/-- A frame of a running direction, with the slips of R211. A master's frame, and that of a direction on a master's pins, carries the sample that
the MCC now counts (R212). -/
def State.sapGood (s : State) (p : Nat) (tx : Bool) (words : List Nat) (phase : Int) : State :=
  let c := s.sapCfg p tx
  let d0 := (s.sapDir p tx).count
  if !c.tracks then s.sapPassFrame p tx c d0 s.mcc words
  else
    let (slip0, n0, ref) := d0.assign (s.amclk / c.rate : Nat) ((s.mcc * (s.amclk / s.fs) : Nat) + phase)
    -- R431: a follower takes the lead's slips
    let slip := if s.obeys then 0 else slip0
    let n := if s.obeys && decide (slip0 ≠ 0) then d0.nextStamp.getD n0 else n0
    let (s1, d1) := if slip = 0 then (s, d0) else
      let q := s.sapSlip p tx d0
      (q.1.note (.sapSlip p (b2n tx) (decide (slip = 1))), q.2)
    s1.sapSlipped p tx c { d1 with phase := some ref } slip n words

/-- R219: whether a slave's frame keeps its period (amclk cycles between FS edges) within ±12.5 % of nominal, and its bit clock count. -/
def State.sapClean (s : State) (c : SapCfg) (period bclks : Nat) : Bool :=
  decide (8 * ((period * c.rate : Nat) - (s.amclk : Nat) : Int).natAbs ≤ s.amclk) && decide (bclks = c.slots * c.slotBits)

/-- R237, R241: the period of a slave's frame enters the tracking loops of the converters behind its slots: input rate over output rate. -/
def State.sapTrack (s : State) (p : Nat) (tx : Bool) (c : SapCfg) (period : Nat) : State :=
  if c.kind ≠ .src ∨ period = 0 then s
  else
    let r := if tx then s.fs * period * 2 ^ 24 / s.amclk else s.amclk * 2 ^ 24 / (period * s.fs)
    (maskSlots (s.sapDir p tx).mask 64).foldl (fun s k => s.srcTrack (sapRef0 .src p + k) (b2n tx) r) s

/-- SAP_FRAME: a frame of a direction: its words (receive), the amclk cycles from the instant at which the MCC took its present value to the
frame sync edge, the amclk cycles since the edge before, and the bit clocks between them. -/
def execSapFrame (port : Nat) (tx : Bool) (words : List Nat) (phase : Int) (period bclks : Nat) (s : State) :
    Host.Outcome State Fault Refusal :=
  let d := s.sapDir port tx
  let c := s.sapCfg port tx
  if 16 ≤ port ∨ !d.active ∨ !bit s.power.domains 3 then .next s
  else if !c.master && !s.sapClean c period bclks then
    if d.running ∨ d.measuring then
      .next (((s.setSap port tx d.count).sapFill port tx period).sapFlag port tx 2)
    else .next (s.setSap port tx { d.count with measuring := true, meas := 0 })
  else if d.running then .next ((s.sapTrack port tx c period).sapGood port tx words phase)
  else
    -- R221, R222: in loss or before its first run the direction measures and sends zero words
    let d1 := d.count
    .next (s.setSap port tx { d1 with
      measuring := true, meas := d.meas + 1, tx := d.tx.map (fun _ => 0), hiz := if tx then s.sapHiz port c d.mask else 0 })

/-- SAP_CLOCK_STOP: `idle` amclk cycles have passed with no BCLK or no FS edge; two nominal frame periods are a stop (R219). -/
def execSapClockStop (port : Nat) (tx : Bool) (idle : Nat) (s : State) : Host.Outcome State Fault Refusal :=
  let d := s.sapDir port tx
  let c := s.sapCfg port tx
  if 16 ≤ port ∨ c.master ∨ idle * c.rate < 2 * s.amclk ∨ !(d.running || d.measuring) then .next s
  else .next ((s.sapFill port tx idle).sapFlag port tx 1)

/-! ### SRC channels in use (R235) -/

/-- The uses of the SAP directions: the slots of the mask in force, and those of a mask on its way. -/
def State.sapUses (s : State) : List SrcUse :=
  (List.range 32).flatMap (fun q =>
    let p := q / 2
    let tx := decide (q % 2 = 1)
    let d := s.sapDir p tx
    let c := s.sapCfg p tx
    let m := d.wanted.getD ((d.shadow.map (·.1)).getD 0)
    if c.kind = .src ∧ d.active then
      ((List.range 32).filter (fun k => bit d.mask k || bit m k)).map (fun k =>
        { user := sapRef0 .src p + k, dir := b2n tx
          inRate := if tx then s.fs else c.rate, outRate := if tx then c.rate else s.fs
          fixed := decide (c.clock = 0) })
    else [])

/-- The uses of the MADI ports. -/
def State.madiUses (s : State) : List SrcUse :=
  (List.range 8).flatMap (fun p =>
    (if (s.madiDir p false).active && !s.madiDirect p then
      (List.range (madiChans (s.madiW p false 1))).map (fun k =>
        { user := madiRef0 p + k, dir := 0, inRate := s.madiW p false 4, outRate := s.fs, fixed := false })
    else []) ++
    (if (s.madiDir p true).active && decide (1 < s.madiDiv p) then
      (List.range (s.madiW p true 0x12)).map (fun k =>
        { user := madiRef0 p + k, dir := 1, inRate := s.fs, outRate := s.fs / s.madiDiv p, fixed := true })
    else []))

/-- The uses of the network streams: every channel in the 44.1 kHz family (R22). -/
def State.netUses (s : State) : List SrcUse :=
  if s.fam = 0 then []
  else (List.range 256).flatMap (fun i =>
    (if (s.rxStream i).running then
      (List.range (s.at 0x35 i 3)).map (fun k =>
        { user := streamRef i k, dir := 0, inRate := s.at 0x35 i 2, outRate := s.fs, fixed := false })
    else []) ++
    (if (s.txStream i).running then
      (List.range (s.at 0x36 i 3)).map (fun k =>
        { user := streamRef i k, dir := 1, inRate := s.fs, outRate := s.at 0x36 i 2, fixed := false })
    else []))

/-- R235: the reservations follow what is enabled. -/
def State.srcRefresh (s : State) : State :=
  s.setConv (fun g => { g with src := srcReserve g.src s.cap.srcCh s.mcc (s.sapUses ++ s.madiUses ++ s.netUses) })

/-! ### Masks (R217, R218) -/

/-- R217: the stamp of a direction's next frame: by its number once it has a phase reference, else that of the present sample. -/
def State.sapStamp (s : State) (c : SapCfg) (d : PortDir) : Nat :=
  if c.tracks && d.phase.isSome then d.nextStamp.getD 0 * s.fs / c.rate else s.mcc

/-- R217 steps 3 and 4, R223: the shadow mask takes effect at the frame with sample number n. -/
def State.sapLayoutAt (s : State) (p : Nat) (tx : Bool) (m : Nat) : State :=
  let c := s.sapCfg p tx
  let d := s.sapDir p tx
  let n := d.now c.kind s.mcc
  let d1 := { d with mask := m, shadow := none, slots := d.slots.filter (fun q => bit m q.1) }
  -- a direction that stops keeps its joining slots muted (R215)
  let d2 := d1.mapSlots ((maskSlots m 64).filter (fun k => d.stopping.isNone && (!bit d.mask k || decide ((d.slot k).z.tgt = 0))))
    (fun x => { x.start n with held := 0 })
  let stamp := s.sapStamp c d
  ((s.setSap p tx d2).srcRefresh).raiseD .sapLayout (s.sapOwner p) (sapObj p tx)
    ([p, b2n tx, (d.frames + 1) % 2 ^ 32] ++ if c.clock ≤ 1 then two stamp else [])

/-- R220: a receive direction brought up to date: at the engine rate every stamp below `upTo` has its sample; otherwise a loss has been stepped to
the present frame. -/
def State.sapIdle (s : State) (p : Nat) (tx : Bool) (upTo : Nat) : State :=
  let d := s.sapDir p tx
  let c := s.sapCfg p tx
  if tx || !d.active then s
  else if c.kind = .engine then
    let (s1, d1) := s.rxGap (sapRef0 .engine p) d upTo
    s1.setSap p false d1
  else if d.running then s
  else
    let (s1, d1) := s.idleTo (sapRef0 c.kind p) (s.framesAt c.rate) d
    s1.setSap p false d1

/-- SAP_MASK_SHADOW_WRITE: every leaving slot applies 0 (R217 step 2). -/
def execSapMaskShadowWrite (port : Nat) (tx : Bool) (s : State) : Host.Outcome State Fault Refusal :=
  let s1 := s.sapIdle port tx s.mcc
  let d := s1.sapDir port tx
  let n := d.now (s.sapCfg port tx).kind s.mcc
  match d.wanted with
  | none => .next s
  | some m =>
    if 16 ≤ port ∨ !((maskSlots d.mask 64).all (fun k => bit m k || (d.slot k).silent n)) then .next s
    else .next (s1.setSap port tx { d with wanted := none, shadow := some (m, 2) })

/-- SAP_LAYOUT: the second frame after the shadow write starts (R217 step 3). -/
def execSapLayout (port : Nat) (tx : Bool) (s : State) : Host.Outcome State Fault Refusal :=
  let d := s.sapDir port tx
  match d.shadow with
  | none => .next s
  | some (m, k) => if 16 ≤ port ∨ !d.running ∨ 1 < k then .next s else .next (s.sapLayoutAt port tx m)

/-! ### Rate measurement and stop (R215, R221) -/

/-- R221: whether 64 frames in `period` amclk cycles lie within ±500 ppm of a rate. -/
def rateMatches (amclk period rate : Nat) : Bool :=
  decide (((64 * amclk : Nat) - (rate * period : Nat) : Int).natAbs * 1000000 ≤ 500 * (rate * period))
/-- The measured rate, Hz, to the nearest. -/
def rateOf (amclk period : Nat) : Nat := if period = 0 then 0 else (128 * amclk + period) / (2 * period)

/-- R214, R221: the direction runs: slots return at zero, EV_SAP_RESUME, and a shadow mask takes effect (R223). -/
def State.sapRun (s : State) (p : Nat) (tx muted : Bool) : State :=
  let c := s.sapCfg p tx
  let s0 := s.sapIdle p tx s.mcc
  let d0 := s0.sapDir p tx
  let d1 := { d0 with running := true, loss := false, measuring := false, mismatch := false, starting := false, meas := 0, phase := none }
  let n := d1.now c.kind s.mcc
  let d2 := if muted then d1.each (fun _ => SlotSt.reset) else d1.startSlots n (s.sapStrict p)
  -- slots that a pending mask change has muted return muted
  let d3 := match d1.wanted.orElse (fun _ => d1.shadow.map (·.1)) with
    | some m => d2.mapSlots ((maskSlots d2.mask 64).filter (fun k => !bit m k || decide ((d0.slot k).z.tgt = 0))) (fun _ => SlotSt.reset)
    | none => d2
  let s1 := (s0.setSap p tx d3).raise .sapResume (s.sapOwner p) (sapObj p tx) 0
  let s2 := match c.kind with
    | .src => s1.srcsOfPort (0x0100 + p) (b2n tx) SrcCh.acquire
    | .engine => s1
    | _ => if tx then s1 else s1.decResume p
  match d1.shadow with
  | some (m, _) => s2.sapLayoutAt p tx m
  | none => s2

/-- R221, R431: a direction resumes; a follower keeps its own resume for later. -/
def State.sapResume (s : State) (p : Nat) (tx muted : Bool) : State :=
  let i := InItem.sapResume p (b2n tx) muted (s.sapDir p tx).frames
  if s.obeys then s.hold i else (s.sapRun p tx muted).note i

/-- SAP_RATE_MEASURED: 64 frames took `period` amclk cycles; `bclks` bit clocks came in each (R221). -/
def execSapRateMeasured (port : Nat) (tx : Bool) (period bclks : Nat) (s : State) : Host.Outcome State Fault Refusal :=
  let d := s.sapDir port tx
  let c := s.sapCfg port tx
  if 16 ≤ port ∨ !d.measuring ∨ d.running ∨ c.master ∨ d.meas < 64 then .next s
  else if bclks ≠ c.slots * c.slotBits then .next (s.sapFlag port tx 2)
  else if rateMatches s.amclk period c.rate then .next (s.sapResume port tx (decide (c.clock = 3)))
  else if c.clock = 3 then .next (s.sapResume port tx true)
  else
    let s1 := s.setSap port tx { d with mismatch := true, meas := 0 }
    .next (if d.mismatch then s1 else
      s1.raiseD .sapRate (s.sapOwner port) (sapObj port tx) [rateOf s.amclk period])

end Sys2Proof.Machine
end

