-- ==== Sys2Proof/Machine/Madi.lean ====
section
/-! DEFINITION. Sys2Proof/Machine/Madi.lean: the end of a SAP stop, and the MADI ports (R224–R229). -/
namespace Sys2Proof.Machine

open Fmt

/-- SAP_STOP_DONE: two frames of zero have passed since every slot applied 0, or the direction is silent in loss (R215, R223); an enable
that waited starts it afresh (R214). -/
def execSapStopDone (port : Nat) (tx : Bool) (s : State) : Host.Outcome State Fault Refusal :=
  let s0 := s.sapIdle port tx s.mcc
  let d := s0.sapDir port tx
  match d.stopping with
  | none => .next s
  | some k =>
    let n := d.now (s.sapCfg port tx).kind s.mcc
    if 16 ≤ port ∨ (k < 2 ∧ (d.running || !d.allSilent n)) then .next s
    else
      let s1 := (s0.sapOff port tx).srcRefresh
      .next (if d.again then (s1.sapStart port tx).srcRefresh else s1)

/-! ### Start and stop -/

/-- R214, R229: a MADI direction starts. A transmitter runs at once; a receiver waits for its lock, and counts its channels afresh. -/
def State.madiStart (s : State) (p : Nat) (tx : Bool) : State :=
  let d := s.madiDir p tx
  let chans := if tx then s.at 0x21 p 0x12 else madiChans (s.at 0x21 p 1)
  let d1 : PortDir := { d.off with fields := s.madiFields p, mask := 2 ^ chans - 1, running := tx, starting := !tx, nextStamp := some s.mcc, idle := s.framesAt (s.at 0x21 p 4) }
  let s1 := if tx then s else { s with ports := { s.ports with chans := Cells.put 0 s.ports.chans p 0 } }
  let s2 := s1.setMadi p tx (if tx then d1.startSlots (d1.madiNow (s.madiSetFast p tx) s.mcc) false else d1)
  if tx then s2 else s2.madiOrigin p

/-- R214, R215: a committed change of an enable field. -/
def State.madiEnable (s : State) (p : Nat) (tx on : Bool) : State :=
  let d := s.madiDir p tx
  if on then
    if d.stopping.isSome then s.setMadi p tx { d with again := true }
    else if d.active then s else s.madiStart p tx
  else if !d.active then s
  else if !d.running then s.setMadi p tx d.off
  else if d.stopping.isSome then s.setMadi p tx { d with again := false }
  else s.setMadi p tx { d.each (fun x => x.mute (d.madiNow (s.madiFast p tx) s.mcc)) with
    stopping := some 0, stopOn := false, again := false }

/-- R215, R223: a stop whose two frames of zero have passed, or whose receiver is silent in loss. -/
def State.madiStopped (s : State) (p : Nat) (tx : Bool) : State :=
  let d := s.madiDir p tx
  match d.stopping with
  | none => s
  | some k =>
    if k < 2 ∧ (d.running || !d.allSilent (d.madiNow (s.madiFast p tx) s.mcc)) then s
    else
      let s1 := (s.setMadi p tx d.off).srcRefresh
      if d.again then (s1.madiStart p tx).srcRefresh else s1

/-- R220: a receiver brought up to date, as a SAP direction: every stamp below `upTo` has its sample where it connects directly; otherwise a loss
has been stepped to the present frame. A stop that waited for silence ends. -/
def State.madiIdle (s : State) (p upTo : Nat) : State :=
  let d := s.madiDir p false
  if !d.active then s
  else if s.madiDirect p then
    let (s1, d1) := s.rxGap (madiRef0 p) d upTo
    s1.setMadi p false d1
  else if d.running then s
  else
    let (s1, d1) := s.idleTo (madiRef0 p) (s.framesAt (s.madiW p false 4)) d
    s1.setMadi p false d1

/-! ### Receive -/

/-- R229: the receiver in loss from this sample on. -/
def State.madiLose (s : State) (p cause : Nat) : State :=
  let d0 := s.madiDir p false
  let (s1, d1) := if s.madiDirect p then s.rxGap (madiRef0 p) d0 s.mcc else (s, { d0 with idle := s.framesAt (s.madiW p false 4) })
  let s2 := (s1.setMadi p false (d1.flag false)).raise .madiLoss (s.madiOwner p) p cause
  (if s.madiDirect p then s2 else s2.srcsOfPort (0x0300 + p) 0 SrcCh.portLost).portRefs

/-- R220: frames missing since the last one, `gap` amclk cycles ago, repeat its samples into the converters behind a receiver that does not
connect directly. -/
def State.madiFill (s : State) (p gap : Nat) : State :=
  let d := s.madiDir p false
  if s.madiDirect p then s
  else (List.range (missedFrames gap (s.madiW p false 4) s.amclk)).foldl (fun s _ =>
    (maskSlots d.mask 64).foldl (fun s k => s.srcIn (madiRef0 p + k) (d.slot k).held) s) s

/-- R229, R431: a flag of the receiver; a follower keeps its own for later. -/
def State.madiFlag (s : State) (p cause : Nat) : State :=
  let i := InItem.madiLoss p cause (s.madiDir p false).frames
  if s.obeys then s.hold i else (s.madiLose p cause).note i

/-- R227: even parity over bits 4…31 of a subframe. -/
def madiParity (w : Nat) : Bool := decide (((List.range 28).filter (fun i => bit w (i + 4))).length % 2 = 0)
/-- R227: the audio of a subframe as S32. -/
def madiAudio (w : Nat) : Int := toS 32 (w / 16 % 2 ^ 24 * 256)
/-- R227, R229: the channel markers are in place: on the first subframe and on no other. -/
def madiMarks (ws : List Nat) : Bool := bit (ws.headD 0) 0 && ws.tail.all (fun w => !bit w 0)

/-- One channel of a receive frame: the repeat of R227 on a parity error, which a follower (`plain`) takes from the lead (R431); exact zero
where inactive or missing. -/
def madiSlot (ws : List Nat) (n tz lr : Nat) (plain : Bool) (k : Nat) (st : SlotSt) : SlotSt × Int :=
  match ws[k]? with
  | none => st.sample 0 n tz lr
  | some w =>
    if !madiParity w && !plain then st.again n
    else st.sample (if bit w 1 then s32ToE48 (madiAudio w) else 0) n tz lr

/-- R229: the number of channels received; EV_MADI_MODE when it changes to one that differs from the mode. -/
def State.madiCount (s : State) (p k : Nat) : State :=
  if Cells.get 0 s.ports.chans p = k then s
  else
    let s1 := { s with ports := { s.ports with chans := Cells.put 0 s.ports.chans p k } }
    if k = madiChans (s.madiW p false 1) then s1 else s1.raise .madiMode (s.madiOwner p) p k

/-- A good frame of a running receiver. -/
def State.madiRx (s : State) (p : Nat) (ws : List Nat) : State :=
  let d := (s.madiDir p false).count
  let chans := maskSlots d.mask 64
  let bads := chans.filter (fun k => match ws[k]? with | some w => !madiParity w | none => false)
  let bad := bads.length
  let s0 := s.madiCount p ws.length
  let s1 := if s.madiDirect p then
      bads.foldl (fun (s : State) k => s.note (.madiRepeat p k (d.nextStamp.getD s.mcc))) s0 else s0
  let s2 := { s1 with ports := { s1.ports with parity := Cells.upd 0 s1.ports.parity p (fun c => satInc c bad) } }
  if s.madiDirect p then
    let n := d.nextStamp.getD s.mcc
    let (s3, d3) := s2.rxRow (madiRef0 p) d n (fun k st => madiSlot ws n s.tzc s.lramp s.obeys k st)
    s3.setMadi p false ({ d3 with nextStamp := some (n + 1) }.stopStep n)
  else
    let n := d.frames
    let (s3, d3) := chans.foldl (fun (a : State × PortDir) k =>
      let (st, y) := madiSlot ws n s.tzc s.lramp s.obeys k (a.2.slot k)
      (a.1.srcIn (madiRef0 p + k) y, { a.2 with slots := Cells.put SlotSt.reset a.2.slots k st })) (s2, d)
    s3.setMadi p false (d3.stopStep n)

/-! ### Transmit -/

/-- R228: byte 0 of the channel status: professional, audio, no emphasis, and the frame rate (AES3: 48 kHz, 44.1 kHz, else not
indicated; PRESUMED, log entry 39). -/
def csByte0 (rate : Nat) : Nat := if rate = 48000 then 0x85 else if rate = 44100 then 0x45 else 0x05
/-- Byte 2: 24-bit words in 24 bits (log entry 39). -/
def csByte2 : Nat := 0x2C
/-- The AES3 CRC of byte 23, over bytes 0…22: x^8 + x^4 + x^3 + x^2 + 1, preset to ones, least significant bit first (log entry 39). -/
def csCrc (bytes : List Nat) : Nat :=
  bytes.foldl (fun c b => (List.range 8).foldl (fun c i =>
    let f := xor (bit c 0) (bit b i)
    let c1 := c / 2
    if f then c1 ^^^ 0xB8 else c1) c) 0xFF
/-- The 24 bytes. -/
def csBytes (rate : Nat) : List Nat :=
  let b := [csByte0 rate, 0, csByte2] ++ List.replicate 20 0
  b ++ [csCrc b]
/-- The channel status bit of a frame of the 192-frame block. -/
def csBit (rate f : Nat) : Bool := bit ((csBytes rate).getD (f / 8) 0) (f % 8)

/-- R227: a transmitted subframe: channel, whether it is below tx.channels, frame of the block, frame rate, 24-bit audio word. -/
def madiSub (k : Nat) (on : Bool) (f rate audio : Nat) : Nat :=
  let w := b2n (decide (k = 0)) + 2 * b2n on + 4 * (k % 2) + 8 * b2n (decide (f = 0)) + 16 * (audio % 2 ^ 24)
    + 2 ^ 30 * b2n (csBit rate f)
  if madiParity w then w else w + 2 ^ 31

/-- The S32 value of a transmit channel: the output stage result of the exit three samples ago, or the converter's output (R226). -/
def State.madiTxValue (s : State) (p k : Nat) (direct : Bool) : Int × State :=
  let ref := madiRef0 p + k
  if direct then (toS 32 (wrapU 32 (s.portAt ref (s.mcc - 3))), s)
  else match s.srcOf ref 1 with
    | none => (0, s)
    | some (i, _) => s.srcOut i (s.madiDir p true).frames 32

/-- A transmitted frame (R226–R228). -/
def State.madiTx (s : State) (p : Nat) : State :=
  let d := (s.madiDir p true).count
  let direct := s.madiFast p true
  let n := d.madiNow direct s.mcc
  let f := Cells.get 0 s.ports.block p
  let rate := s.fs / s.madiDiv p
  let (s1, d1, ws) := (List.range (madiChans (s.madiW p true 1))).foldl (fun (a : State × PortDir × List Nat) k =>
    if bit d.mask k then
      let (v, s1) := a.1.madiTxValue p k direct
      let (st, y) := (a.2.1.slot k).sample v n s.tzc s.lramp
      (s1, { a.2.1 with slots := Cells.put SlotSt.reset a.2.1.slots k st },
        a.2.2 ++ [madiSub k true f rate (wrapU 32 y / 256)])
    else (a.1, a.2.1, a.2.2 ++ [madiSub k false f rate 0])) (s, d, [])
  let s2 := { s1 with ports := { s1.ports with block := Cells.put 0 s1.ports.block p ((f + 1) % 192) } }
  s2.setMadi p true ({ d1 with tx := ws }.stopStep n)

/-- R224: the frame rates that a mode accepts on receive, Hz. -/
def madiRates (mode : Nat) : Nat × Nat := if mode = 0 then (28000, 48000) else if mode = 1 then (28000, 54000) else (84000, 96000)

/-- R229: whether a frame with its markers, code violations and period (amclk cycles) is no glitch. The accepted rates bound each frame's
period as they stand (log entry 173). -/
def State.madiClean (s : State) (p : Nat) (ws : List Nat) (violations period : Nat) : Bool :=
  let r := madiRates (s.madiW p false 1)
  madiMarks ws && decide (violations ≤ 2) && decide (r.1 * period ≤ s.amclk) && decide (s.amclk ≤ r.2 * period)

/-- R237, R241: the period of a frame enters the tracking loops of the converters behind the channels. -/
def State.madiTrack (s : State) (p period : Nat) : State :=
  if s.madiDirect p ∨ period = 0 then s
  else (maskSlots (s.madiDir p false).mask 64).foldl (fun s k =>
    s.srcTrack (madiRef0 p + k) 0 (s.amclk * 2 ^ 24 / (period * s.fs))) s

/-- MADI_FRAME: one frame received, with its subframes, its 4B5B code violations and its period in amclk cycles, or transmitted. -/
def execMadiFrame (port : Nat) (tx : Bool) (subframes : List Nat) (violations period : Nat) (s : State) :
    Host.Outcome State Fault Refusal :=
  let d := s.madiDir port tx
  if 8 ≤ port ∨ !d.active ∨ !bit s.power.domains 3 then .next s
  else if tx then .next ((s.madiTx port).madiStopped port true)
  else if !s.madiClean port subframes violations period then
    if d.running then .next (((s.setMadi port false d.count).madiFill port period).madiFlag port 2)
    else .next (s.setMadi port false { d.count with meas := 0, measuring := true })
  else if d.running then .next (((s.madiTrack port period).madiRx port subframes).madiStopped port false)
  else .next ((s.setMadi port false { d.count with meas := d.meas + 1, measuring := true }).madiCount port subframes.length)

/-- R221, R229: the receiver runs. -/
def State.madiRun (s : State) (p : Nat) (muted : Bool) : State :=
  let direct := s.madiDirect p
  let s0 := s.madiIdle p s.mcc
  let d0 := s0.madiDir p false
  let d1 := { d0 with running := true, loss := false, measuring := false, mismatch := false, starting := false, meas := 0 }
  let d2 := if muted then d1.each (fun _ => SlotSt.reset) else d1.startSlots (d1.madiNow direct s.mcc) false
  let s1 := (s0.setMadi p false d2).raise .madiResume (s.madiOwner p) p 0
  if direct then s1 else s1.srcsOfPort (0x0300 + p) 0 SrcCh.acquire

/-- R221, R431: the receiver resumes; a follower keeps its own resume for later. -/
def State.madiResume (s : State) (p : Nat) (muted : Bool) : State :=
  let i := InItem.madiResume p muted (s.madiDir p false).frames
  if s.obeys then s.hold i else (s.madiRun p muted).note i

/-- MADI_LOCK: 64 consecutive good frames, in `period` amclk cycles (R221, R229). -/
def execMadiLock (port period : Nat) (s : State) : Host.Outcome State Fault Refusal :=
  let d := s.madiDir port false
  let clock := s.madiW port false 2
  if 8 ≤ port ∨ !d.active ∨ d.running ∨ d.meas < 64 then .next s
  else if rateMatches s.amclk period (s.madiW port false 4) then .next (s.madiResume port (decide (clock = 3)))
  else if clock = 3 then .next (s.madiResume port true)
  else
    let s1 := s.setMadi port false { d with mismatch := true, meas := 0 }
    .next (if d.mismatch then s1 else s1.raiseD .madiRate (s.madiOwner port) port [rateOf s.amclk period])

/-- MADI_STOP: `idle` amclk cycles have passed without a sync symbol; two nominal frame periods are a stop, which also ends a count of
consecutive frames (R229). -/
def execMadiStop (port idle : Nat) (s : State) : Host.Outcome State Fault Refusal :=
  let d := s.madiDir port false
  if 8 ≤ port ∨ idle * s.madiW port false 4 < 2 * s.amclk ∨ !d.active then .next s
  else if d.running then .next ((s.madiFill port idle).madiFlag port 1)
  else .next (s.setMadi port false { d with meas := 0 })

end Sys2Proof.Machine
end

