-- ==== Sys2Proof/Machine/Conv.lean ====
section
/-! DEFINITION. Sys2Proof/Machine/Conv.lean: SRC lock and unlock (R237, R238), and the decimators' input changes and DECSYNC
(R244–R251). -/
namespace Sys2Proof.Machine

open Fmt

/-! ### SRC channels -/

/-- R221, R237: the port slots behind a receive channel that has locked unmute, where a follow direction kept them muted. -/
def State.srcSlots (s : State) (user dir : Nat) : State :=
  let p := refPort user
  let k := refChan user
  match refType user with
  | 1 =>
    let tx := decide (dir = 1)
    let d := s.sapDir p tx
    if d.running && decide ((s.sapCfg p tx).clock = 3) && bit d.mask k && decide ((d.slot k).z.tgt = 0) && d.stopping.isNone
        && (match d.wanted with | some m => bit m k | none => true)
    then s.setSap p tx (d.mapSlots [k] (fun x => { x.start d.frames with held := 0 })) else s
  | 3 =>
    let d := s.madiDir p false
    if dir = 0 ∧ d.running ∧ s.madiW p false 2 = 3 ∧ (d.slot k).z.tgt = 0 ∧ d.stopping.isNone then
      s.setMadi p false (d.mapSlots [k] (fun x => { x.start d.frames with held := 0 }))
    else s
  | 4 =>
    if dir = 0 then s.updRx (refStream user) (fun x => { x with
      slots := Cells.upd SlotSt.reset x.slots (refStreamCh user) (fun q => { q.start s.mcc with held := 0 }) })
    else s.updTx (refStream user) (fun x => { x with
      slots := Cells.upd SlotSt.reset x.slots (refStreamCh user) (fun q => { q.start x.next with held := 0 }) })
  | _ => s

/-- The sample number on which a channel's own output counts. -/
def State.srcNow (s : State) (x : SrcCh) : Nat :=
  if x.dir = 0 then s.mcc
  else if refType x.user = 4 then (s.txStream (refStream x.user)).next
  else if refType x.user = 1 then (s.sapDir (refPort x.user) true).frames
  else (s.madiDir (refPort x.user) true).frames

/-- SRC_LOCK: a channel's ratio (2^-24) has held within 1 ppm for 50 ms (R237). -/
def execSrcLock (i ratio : Nat) (s : State) : Host.Outcome State Fault Refusal :=
  let x := Cells.get SrcCh.reset s.conv.src i
  if x.user = 0 ∨ !x.acq ∨ x.fixed then .next s
  else
    let s1 := s.srcAdvance i s.mcc
    let s2 := s1.updSrc i (fun x => { x with
      locked := true, acq := false, out := false, ratio := ratio, slot := { x.slot.start (s.srcNow x) with held := 0 } })
    .next ((s2.srcSlots x.user x.dir).raise .srcLock 0 i 0)

/-- SRC_UNLOCK: a locked channel's ratio moves too fast, or leaves ±12.5 % of nominal (R238). -/
def execSrcUnlock (i : Nat) (outOfRange : Bool) (s : State) : Host.Outcome State Fault Refusal :=
  let x := Cells.get SrcCh.reset s.conv.src i
  if x.user = 0 ∨ !x.locked ∨ x.fixed then .next s
  else
    let s1 := s.srcAdvance i s.mcc
    let s2 := s1.updSrc i (fun x => { x with
      locked := false, acq := true, out := outOfRange, unlocks := satInc x.unlocks 1, slot := x.slot.fadeOut })
    .next (s2.raise .srcUnlock 0 i 0)

/-! ### Decimators -/

/-- R244: a committed output enable; during an input change, a hold or a loss of the port the output starts after it, and an engine-rate
output after a DECSYNC whose fade has begun. -/
def State.decEnable (s : State) (i : Nat) (e8 on : Bool) : State :=
  let s1 := s.decAdvance i s.mcc
  if on then
    if s1.decHeld i || (!e8 && s1.decSoon) then s1
    else s1.updDec i (fun x =>
      if e8 then { x with out8 := { x.out8.start s.spring.n with held := 0 } } else { x with outE := { x.outE.start s.mcc with held := 0 } })
  else s1.updDec i (fun x => if e8 then { x with out8 := x.out8.mute s.spring.n } else { x with outE := x.outE.mute s.mcc })

/-- R245: a committed change of dec[i].in. -/
def State.decInput (s : State) (i w : Nat) : State :=
  let x := s.decCh i
  if x.silence.isSome then s.updDec i (fun x => { x with input := w })
  else
    (s.decAdvance i s.mcc).updDec i (fun x => { x with
      want := some w, out8 := x.out8.mute s.spring.n, outE := x.outE.mute s.mcc })

/-- R247, R251: a committed dec[i].dc.freeze; during a hold it applies from the hold's end, since the hold freezes anyway. -/
def State.decFreeze (s : State) (i : Nat) (on : Bool) : State := s.updDec i (fun x => { x with frozen := on })

/-- DEC_INPUT_SWITCH: both outputs apply 0 (R245). -/
def execDecInputSwitch (i : Nat) (s : State) : Host.Outcome State Fault Refusal :=
  let x := s.decCh i
  match x.want with
  | none => .next s
  | some w =>
    let s1 := s.decAdvance i s.mcc
    let y := s1.decCh i
    if 64 ≤ i ∨ !(y.out8.silent s.spring.n) ∨ !(y.outE.silent s.mcc) then .next s
    else .next (s1.updDec i (fun x => { x with
      input := w, want := none, silence := some (s.spring.n + 64), y8 := 0, next := s.mcc
      out8 := SlotSt.reset, outE := SlotSt.reset }))

/-- DEC_SILENCE_END: the 64 silent spring samples have passed (R245). -/
def execDecSilenceEnd (i : Nat) (s : State) : Host.Outcome State Fault Refusal :=
  match (s.decCh i).silence with
  | none => .next s
  | some n => if 64 ≤ i ∨ s.spring.n < n then .next s else .next ((s.updDec i (fun x => { x with silence := none })).decUnmute i)

/-! ### DECSYNC (R249–R251) -/

/-- The decimator channels whose input is set. -/
def State.decUsed (s : State) : List Nat := (List.range 64).filter (fun i => decide ((s.decCh i).input ≠ 0xFFFF))

/-- DECSYNC (R250). -/
def execDecsync (r : Req) (w : When) (s : State) : Host.Outcome State Fault Refusal :=
  s.ifAsked r (.decsync r w) (s.serve r 0x0505 0 (fun _ s =>
    let lo := s.mcc + 32 + 2 * s.B
    if s.conv.sched.isSome then (s, Ans.fail Err.busy)
    else match w with
      | .next =>
        let c := cdiv lo s.B * s.B
        (s.setConv (fun g => { g with sched := some c, byPin := false, fading := false }), Ans.good [.mcc c])
      | .mcc c =>
        if c < lo then (s, Ans.fail Err.late)
        else (s.setConv (fun g => { g with sched := some c, byPin := false, fading := false }), Ans.good [.mcc c])))

/-- DECSYNC_FADE_START: 32 samples before c (R249, R251). An output that is silent then stays so and unmutes after the hold. -/
def execDecsyncFadeStart (s : State) : Host.Outcome State Fault Refusal :=
  match s.conv.sched with
  | none => .next s
  | some c =>
    if s.conv.fading ∨ s.mcc + 32 < c then .next s
    else
      let s1 := s.decUsed.foldl (fun s i =>
        (s.decAdvance i (c - 32)).updDec i (fun x => { x with outE := if x.outE.silent (c - 32) then SlotSt.reset else x.outE.fadeOut })) s
      .next (s1.setConv (fun g => { g with fading := true }))

/-- DECSYNC_RESET: at c every channel clears its histories and counts from phase 0, and the pin pulses (R249). -/
def execDecsyncReset (s : State) : Host.Outcome State Fault Refusal :=
  match s.conv.sched with
  | none => .next s
  | some c =>
    if s.mcc < c then .next s
    else
      let s1 := s.decUsed.foldl (fun s i =>
        (s.decAdvance i c).updDec i (fun x => { x with
          phase16 := 0, phase8 := 0, y8 := 0, out8 := SlotSt.reset, outE := SlotSt.reset })) s
      let s2 := s1.setConv (fun g => { g with
        sched := none, fading := false, byPin := false, hold := some (s.spring.n + s.at 0x25 0 2), count := (g.count + 1) % 2 ^ 32
        pulse := if s.at 0x25 0 0 = 1 then s.at 0x25 0 1 else 0 })
      .next (s2.raiseD .decsync 0 0 (two c))

/-- R251, R431: the pin schedules c; a follower keeps its own edge for later. -/
def State.pinSync (s : State) (c : Nat) : State :=
  if s.obeys then s.hold (.decsync c)
  else (s.setConv (fun g => { g with sched := some c, byPin := true, fading := false })).note (.decsync c)

/-- DECSYNC_PIN_EDGE: a rising edge registered while the MCC holds v (R251). -/
def execDecsyncPinEdge (s : State) : Host.Outcome State Fault Refusal :=
  if s.at 0x25 0 0 ≠ 2 then .next s
  else if s.conv.sched.isSome ∨ s.conv.hold.isSome then .next (s.raise .decsyncIgnored 0 0 0)
  else .next (s.pinSync (s.mcc + 32))

/-- DECSYNC_HOLD_END: dec.sync_hold has passed (R249). -/
def execDecsyncHoldEnd (s : State) : Host.Outcome State Fault Refusal :=
  match s.conv.hold with
  | none => .next s
  | some n =>
    if s.spring.n < n then .next s
    else
      let s1 := s.setConv (fun g => { g with hold := none })
      .next (s1.decUsed.foldl State.decUnmute s1)

end Sys2Proof.Machine
end

