-- ==== Sys2Proof/Machine/MStore.lean ====
section
/-! DEFINITION. Sys2Proof/Machine/MStore.lean: the scene store: directory, pages and scene records (R134–R137). Multi-byte numbers stand
most significant byte first, as everywhere else in the manual (log entry 40). -/
namespace Sys2Proof.Machine

open Fmt Crypto

/-- First byte of a directory copy. -/
def dirBase (k : Nat) : Nat := k * 0x20000
/-- First byte of a scene-area page. -/
def pageBase (p : Nat) : Nat := 0x400000 + p * 4096
/-- Pages of the scene area. -/
def scenePages : Nat := 7168
/-- Content bytes of a page. -/
def pageBytes : Nat := 4088

/-- The scene store replaced. -/
def State.setStore (s : State) (m : Memory) : State := { s with scene := { s.scene with mstore := m } }

/-! ### Directory -/

/-- A directory entry (R134). -/
structure DirEnt where
  label : List Nat
  part  : Nat
  prof  : Nat
  shape : Nat
  used  : Bool
  size  : Nat
  crc   : Nat
  map   : Nat
  gen   : Nat
  deriving DecidableEq, Repr

/-- The 64 bytes of an entry. -/
def DirEnt.bytes (e : DirEnt) : List Nat :=
  (e.label ++ List.replicate 32 0).take 32 ++ [e.part, e.prof, e.shape, b2n e.used] ++ toBE 4 e.size ++ toBE 4 e.crc
    ++ toBE 2 e.map ++ [0, 0] ++ toBE 8 e.gen ++ List.replicate 8 0

/-- The entry that 64 bytes hold. -/
def DirEnt.ofBytes (b : List Nat) : DirEnt where
  label := slice b 0 32
  part := b.getD 0x20 0
  prof := b.getD 0x21 0
  shape := b.getD 0x22 0
  used := bit (b.getD 0x23 0) 0
  size := ofBE (slice b 0x24 4)
  crc := ofBE (slice b 0x28 4)
  map := ofBE (slice b 0x2C 2)
  gen := ofBE (slice b 0x30 8)

/-- An entry not in use. -/
def DirEnt.free : DirEnt :=
  { label := List.replicate 32 0, part := 0, prof := 0, shape := 0, used := false, size := 0, crc := 0, map := 0, gen := 0 }

/-- Sequence number of a directory copy. -/
def dirSeq (m : Memory) (k : Nat) : Nat := ofBE (m.readAll (dirBase k) 8)
/-- The CRC of a copy: over every byte of it but the CRC itself (log entry 40). -/
def dirCrc (m : Memory) (k : Nat) : Nat := crc32 (m.readAll (dirBase k) 8 ++ m.readAll (dirBase k + 12) (0x20000 - 12))
/-- Whether a copy is valid. -/
def dirValid (m : Memory) (k : Nat) : Bool := decide (ofBE (m.readAll (dirBase k + 8) 4) = dirCrc m k)

/-- The copy in force: the valid one with the higher number. -/
def dirCopy (m : Memory) : Option Nat :=
  match dirValid m 0, dirValid m 1 with
  | true, true => some (if dirSeq m 0 < dirSeq m 1 then 1 else 0)
  | true, false => some 0
  | false, true => some 1
  | false, false => none

/-- The copy that the next write goes to: one that is not valid, else the one with the lower number. -/
def dirTarget (m : Memory) : Nat :=
  match dirValid m 0, dirValid m 1 with
  | false, _ => 0
  | true, false => 1
  | true, true => if dirSeq m 1 < dirSeq m 0 then 1 else 0

/-- One entry of the directory in force. -/
def dirEnt (m : Memory) (id : Nat) : DirEnt :=
  match dirCopy m with
  | some k => DirEnt.ofBytes (m.readAll (dirBase k + 64 + 64 * id) 64)
  | none => DirEnt.free

/-- The scenes in use, with their ids. -/
def dirList (m : Memory) : List (Nat × DirEnt) :=
  ((List.range 1024).map (fun i => (i, dirEnt m i))).filter (fun e => e.2.used)

/-- R134: one entry written: the whole directory goes to the other copy with the next number. -/
def dirWrite (m : Memory) (id : Nat) (e : DirEnt) : Memory :=
  let ents := (List.range 1024).flatMap (fun i => (if i = id then e else dirEnt m i).bytes)
  let seq := 1 + (match dirCopy m with
    | some k => dirSeq m k
    | none => 0)
  let t := dirTarget m
  let m1 := (m.clear (dirBase t) 0x20000).writeAll (dirBase t) (toBE 8 seq) |>.writeAll (dirBase t + 64) ents
  m1.writeAll (dirBase t + 8) (toBE 4 (dirCrc m1 t))

/-! ### Pages -/

/-- Wear count of a page. -/
def pageWear (m : Memory) (p : Nat) : Nat := ofBE (m.readAll (pageBase p + 4092) 4)

/-- A page written: content, its CRC, its wear count. -/
def pageWrite (m : Memory) (p : Nat) (c : List Nat) : Memory :=
  let full := (c ++ List.replicate pageBytes 0).take pageBytes
  m.writeAll (pageBase p) (full ++ toBE 4 (crc32 full) ++ toBE 4 ((pageWear m p + 1) % 2 ^ 32))

/-- A page's content where its CRC holds. -/
def pageRead (m : Memory) (p : Nat) : Option (List Nat) :=
  let c := m.readAll (pageBase p) pageBytes
  if crc32 c = ofBE (m.readAll (pageBase p + pageBytes) 4) then some c else none

/-- Data pages that a map page's content names. -/
def mapPages (c : List Nat) : List Nat :=
  let n := min 2040 (ofBE (slice c 0 4) % 65536)
  (List.range n).map (fun i => ofBE (slice c (4 + 2 * i) 2))

/-- Pages that the directory's scenes hold. -/
def usedPages (m : Memory) : List Nat :=
  (dirList m).flatMap (fun e => e.2.map :: mapPages (m.readAll (pageBase e.2.map) pageBytes))

/-- Insertion by wear, then page number. -/
def insertPage (p : Nat × Nat) : List (Nat × Nat) → List (Nat × Nat)
  | [] => [p]
  | q :: l => if q.1 < p.1 ∨ (q.1 = p.1 ∧ q.2 < p.2) then q :: insertPage p l else p :: q :: l

/-- R136: free pages, lowest wear first; ties go to the lower page. -/
def freePages (m : Memory) : List Nat :=
  let used := usedPages m
  (((List.range scenePages).filter (fun p => !used.contains p)).foldr (fun p l => insertPage (pageWear m p, p) l) []).map Prod.snd

/-- Pages that a record of n bytes takes, its map page included. -/
def recordPages (n : Nat) : Nat := cdiv n pageBytes + 1

/-- The first n pieces of at most k bytes. -/
def pieces (k : Nat) : Nat → List Nat → List (List Nat)
  | 0, _ => []
  | n + 1, l => l.take k :: pieces k n (l.drop k)

/-- R134, R136: a record written into free pages, and the map page that names them; none where it does not fit. -/
def recordWrite (m : Memory) (r : List Nat) : Option (Memory × Nat) :=
  let n := cdiv r.length pageBytes
  let ps := (freePages m).take (n + 1)
  if ps.length < n + 1 ∨ 2040 < n then none
  else
    let map := ps.headD 0
    let m1 := (ps.tail.zip (pieces pageBytes n r)).foldl (fun m q => pageWrite m q.1 q.2) m
    some (pageWrite m1 map (toBE 4 n ++ ps.tail.flatMap (toBE 2)), map)

/-- R137: what reading a scene finds. -/
inductive SceneRead where
  | unknown
  | broken
  | good (e : DirEnt) (record : List Nat)
  deriving DecidableEq, Repr

/-- R134, R137: a scene read back; its pages' and its record's CRCs are checked. -/
def sceneRead (m : Memory) (id : Nat) : SceneRead :=
  let e := dirEnt m id
  if 1024 ≤ id ∨ !e.used then .unknown
  else
    match pageRead m e.map with
    | none => .broken
    | some mc =>
      let data := (mapPages mc).map (pageRead m)
      let r := (data.flatMap (·.getD [])).take e.size
      if data.all (·.isSome) && decide (r.length = e.size) && decide (crc32 r = e.crc) then .good e r else .broken

/-! ### Records (R135) -/

/-- The word of a node. -/
def nodeWord (k : Nat) (t : Int) (tap : Nat) : List Nat :=
  toBE 8 (keyDst k * 2 ^ 52 + keySrc k * 2 ^ 40 + tap * 2 ^ 38 + wrapU 32 t)

/-- A record: the header holds the number of parameter entries, of nodes, the partition, and is zero elsewhere (log entry 40). -/
def recordBytes (part : Nat) (params : List Entry) (nodes : List (Nat × Int × Nat)) : List Nat :=
  (toBE 4 params.length ++ toBE 4 nodes.length ++ [part] ++ List.replicate 247 0)
    ++ params.flatMap (fun e => toBE 4 e.h ++ toBE 4 e.v) ++ nodes.flatMap (fun n => nodeWord n.1 n.2.1 n.2.2)

/-- Parameter entries of a record. -/
def recordParams (r : List Nat) : List Entry :=
  (List.range (ofBE (slice r 0 4))).map (fun i => { h := ofBE (slice r (256 + 8 * i) 4), v := ofBE (slice r (260 + 8 * i) 4) })

/-- Nodes of a record. -/
def recordNodes (r : List Nat) : List (Nat × Int × Nat) :=
  let o := 256 + 8 * ofBE (slice r 0 4)
  (List.range (ofBE (slice r 4 4))).map (fun i =>
    let w := ofBE (slice r (o + 8 * i) 8)
    (bits w 63 52 * 4096 + bits w 51 40, toS 32 (bits w 31 0), bits w 39 38))

/-- Partition of a record. -/
def recordPart (r : List Nat) : Nat := (slice r 8 1).headD 0
/-- Bytes of a record. -/
def recordLen (r : List Nat) : Nat := 256 + 8 * ofBE (slice r 0 4) + 8 * ofBE (slice r 4 4)

/-- R138: the scope bit of a class. -/
def scopeBit (cls : Nat) : Option Nat :=
  match cls with
  | 0x03 => some 0 | 0x04 => some 0 | 0x01 => some 1 | 0x02 => some 2 | 0x05 => some 3 | 0x06 => some 4 | 0x07 => some 4
  | 0x08 => some 5 | 0x09 => some 5
  | _ => none

/-- The scope of the start scene: every class. -/
def scopeAll : Nat := 0x40

/-- Whether a scope takes in a class. Recorded parameters of classes for which R138 names no bit (effect slots, springs, ports, streams …) are
recalled by the start scene only (log entry 165, DESIGN CHOICE). -/
def inScope (scope cls : Nat) : Bool := decide (scope = scopeAll) || (scopeBit cls).any (bit scope)

/-- R135: what a scene of a partition holds: every settable parameter of the partition that differs from its reset value, every node of
its destinations whose committed target is not off. -/
def State.sceneOf (s : State) (part : Nat) : List Nat :=
  let ps := s.params.filterMap (fun c =>
    match s.field c.1, c.2 with
    | some f, some v => if !f.ro && decide (s.ownerOf c.1 = part) then some (Entry.mk c.1 v) else none
    | _, _ => none)
  let ns := (s.mere.image.filter (fun c => decide (c.2.1 ≠ 0) && decide (s.ownerOf (0x03000000 + c.1) = part))).map
    (fun c => (c.1, c.2.1, c.2.2))
  recordBytes part ps ns

end Sys2Proof.Machine
end

