-- ==== Sys2Proof/Machine/Body.lean ====
section
/-! DEFINITION. Sys2Proof/Machine/Body.lean: what a stage set comes to (R108, R109, R138), and the configuration with it applied: the
view that a check judges against (R112) and that a commit puts in force (R71, R72, R80, R126). -/
namespace Sys2Proof.Machine

open Fmt

/-- The parameter words and the node targets (target, tap word) of a stage set, the last addition of each winning (R109). -/
structure Body where
  params : Cells (Option Nat)
  nodes  : Cells (Option (Int × Nat))
  deriving DecidableEq, Repr

/-- Nothing staged. -/
def Body.empty : Body := { params := [], nodes := [] }
/-- One parameter word. -/
def Body.put (b : Body) (h w : Nat) : Body := { b with params := Cells.put none b.params h (some w) }
/-- One node. -/
def Body.putNode (b : Body) (k : Nat) (t : Int) (tap : Nat) : Body := { b with nodes := Cells.put none b.nodes k (some (t, tap)) }

/-- Whether a set changes the committed gain of a node (R80). -/
def Body.movesGain (b : Body) (v : State) : Bool :=
  b.nodes.any (fun n => decide ((Cells.get (0, 2) v.mere.image n.1).1 ≠ (n.2.getD (0, 2)).1))

/-- Destinations of a partition (R120). -/
def State.destsOf (s : State) (part : Nat) : List Nat :=
  (List.range s.cap.dests).filter (fun d => decide (s.destOwner (s.dstMap d) = part))

/-- One addition. Of a recalled scene, parameters of the partition in scope that the record does not name take their reset values, and
every node of the partition's destinations its scene target, or off with tap 2 (R138); what earlier additions staged for them is replaced
(R109). -/
def Body.add (v : State) (b : Body) : Added → Body
  | .entry e => b.put e.h e.v
  | .node e t tap =>
    let k := e.h % 2 ^ 24
    let cur := (Cells.get none b.nodes k).getD (t, tap)
    if hCls e.h = 3 then b.putNode k (toS 32 e.v) cur.2 else b.putNode k cur.1 e.v
  | .form _ _ ns => ns.foldl (fun b n => b.putNode n.1 n.2.1 n.2.2) b
  | .recall part scope dests ps ns =>
    let absent := (v.params ++ b.params).filter (fun c =>
      match v.field c.1 with
      | some f => !f.ro && decide (v.ownerOf c.1 = part) && inScope scope (hCls c.1) && (scopeBit (hCls c.1)).isSome
      | none => false)
    let b1 := absent.foldl (fun b c => b.put c.1 ((v.field c.1).elim 0 Field.dfltWord)) b
    let b2 := (ps.filter (fun e => inScope scope (hCls e.h))).foldl (fun b e => b.put e.h e.v) b1
    if inScope scope 3 then
      let off := (v.mere.image.map (·.1) ++ b.nodes.map (·.1)).filter (fun k => dests.contains (keyDst k))
      ns.foldl (fun b n => b.putNode n.1 n.2.1 n.2.2) (off.foldl (fun b k => b.putNode k 0 2) b2)
    else b2
  | .drop hs => hs.foldl (fun b h =>
      if hCls h = 3 ∨ hCls h = 4 then { b with nodes := Cells.put none b.nodes (h % 2 ^ 24) none }
      else { b with params := Cells.put none b.params h none }) b

/-- What a list of additions comes to over a configuration. -/
def State.bodyOf (v : State) (l : List Added) : Body := l.foldl (fun b a => b.add v a) Body.empty

/-- Whether an addition carries node entries (R96, R110). -/
def Added.hasNodes : Added → Bool
  | .entry _ => false
  | .drop _ => false
  | .recall _ scope _ _ _ => inScope scope 3
  | _ => true

/-- Cost of an addition in the stage area (R108). -/
def Added.cost : Added → Nat
  | .form _ cost _ => cost
  | .drop _ => 0
  | .recall _ scope _ ps _ => 8 * (ps.filter (fun e => inScope scope (hCls e.h))).length + (if inScope scope 3 then 16 else 0)
  | _ => 8

/-- Whether a set carries node entries. -/
def StageSet.hasNodes (x : StageSet) : Bool := x.added.any Added.hasNodes
/-- A set's cost in the stage area. -/
def StageSet.cost (x : StageSet) : Nat := (x.added.map Added.cost).foldl (· + ·) 0

/-! ### Applying -/

/-- R71: processing latency of a strip or bus beyond B; the odd object of a linked pair takes the even one's look-ahead (R52). -/
def State.procLat (s : State) (cls n : Nat) : Nat :=
  let slot := s.at cls n 0x70
  let d := if n % 2 = 1 ∧ s.at cls (n - 1) 0x7C = 1 then n - 1 else n
  (if s.at cls d 0x67 = 1 then s.B else 0) + (if slot = 0xFFFF then 0 else s.B + (s.slotImage slot).elim 0 imgLatency)

/-- R71, R72: the compensation delays of every alignment group of strips and of busses, in the read-only field 0x04. -/
def State.compensate (s0 : State) : State :=
  [1, 2].foldl (fun s cls =>
    let insts := fun (f : Nat) => s.params.filterMap (fun c => if hCls c.1 = cls ∧ hField c.1 = f then some (hInst c.1) else none)
    let mem := ((insts 3).filter (fun n => decide (s.at cls n 3 ≠ 0))).map (fun n => (n, s.at cls n 3, s.procLat cls n))
    let s1 := (insts 4).foldl (fun s n => s.setVal (mkH cls n 4) 0) s
    mem.foldl (fun s m =>
      let top := (mem.filter (fun q => decide (q.2.1 = m.2.1))).foldl (fun a q => max a q.2.2) 0
      s.setVal (mkH cls m.1 4) (top - m.2.2)) s1) s0

/-- The Mere's committed image and the maps as a new shape or profile leaves them: every node off, default maps (R75, R80). -/
def State.clearMatrix (s : State) : State :=
  { s with params := s.params.filter (fun c => hCls c.1 ≠ 8 ∧ hCls c.1 ≠ 9), mere := { s.mere with image := [] } }

/-- Handles that fix which other handles exist: family, profile, shape, and a slot's module and version. -/
def shapingH (h : Nat) : Bool := decide (h = 0x50000000) || decide (h = 0x50000001) || decide (h = 0x0A000000)
/-- Module and version of a slot. -/
def moduleH (h : Nat) : Bool := decide (hCls h = 0x0B) && (decide (hField h = 0xF0) || decide (hField h = 0xF1))

/-- Parameters that the configuration no longer has are dropped: those of objects outside the profile. -/
def State.dropAbsent (s : State) : State := { s with params := s.params.filter (fun c => (s.field c.1).isSome) }

/-- R196: a slot that takes another module, or loads its own again, starts with that module's defaults (log entry 170). -/
def State.freshSlots (old s : State) (b : Body) : State :=
  let loads := (b.params.filter (fun c => moduleH c.1)).map (fun c => hInst c.1)
  { s with params := s.params.filter (fun c =>
      !(decide (hCls c.1 = 0x0B) && decide (hField c.1 < 0xF0)
        && (loads.contains (hInst c.1) || decide (old.slotMod (hInst c.1) ≠ s.slotMod (hInst c.1))))) }

/-- The committed words and node targets with a set applied. What transitions and units do with it is `commitSet`'s (Commit.lean). -/
def State.overlay (s : State) (b : Body) : State :=
  let put := fun (s : State) (p : Nat → Bool) => b.params.foldl (fun s c => if p c.1 then s.setVal c.1 (c.2.getD 0) else s) s
  let s1 := put s shapingH
  let s2 := if s1.prof ≠ s.prof ∨ s1.shape ≠ s.shape then s1.clearMatrix else s1
  let s3 := if s1.prof ≠ s.prof then s2.dropAbsent else s2
  let s4 := State.freshSlots s3 (put s3 moduleH) b
  let s5 := put s4 (fun h => !shapingH h && !moduleH h)
  let s6 := { s5 with mere := { s5.mere with
    image := b.nodes.foldl (fun (m : Cells (Int × Nat)) (c : Nat × Option (Int × Nat)) => Cells.put (0, 2) m c.1 (c.2.getD (0, 2))) s5.mere.image } }
  s6.compensate

/-! ### What is coming -/

/-- A commit that is due: its sample, its order of acceptance, the set (0 for a cue), what it adds, its crossfade lengths. -/
structure Due where
  c     : Nat
  order : Nat
  set   : Nat
  added : List Added
  cf    : Nat
  dx    : Nat
  deriving DecidableEq, Repr

/-- Insertion by commit sample, then order of acceptance (R126). -/
def insertDue (d : Due) : List Due → List Due
  | [] => [d]
  | e :: l => if e.c < d.c ∨ (e.c = d.c ∧ e.order ≤ d.order) then e :: insertDue d l else d :: e :: l

/-- A set by its id. -/
def State.stageSet? (s : State) (id : Nat) : Option StageSet := s.scene.sets.find? (fun x => decide (x.id = id))

/-- What a scene adds to a set of its partition (R138). -/
def State.recallOf (s : State) (id scope : Nat) : List Added :=
  match sceneRead s.scene.mstore id with
  | .good e r => [.recall e.part scope (s.destsOf e.part) (recordParams r) (recordNodes r)]
  | _ => []

/-- What a cue adds. -/
def State.cueAdds (s : State) (w : CueWhat) : List Added :=
  match w with
  | .scene id scope => s.recallOf id scope
  | .set id => ((s.stageSet? id).map (·.added)).getD []

/-- The crossfade lengths of a cue: its set's, or the defaults. -/
def State.cueAttrs (s : State) (w : CueWhat) : Nat × Nat :=
  match w with
  | .scene _ _ => (64, 256)
  | .set id => (((s.stageSet? id).map (fun x => (x.attrs.cfLen, x.attrs.dxLen)))).getD (64, 256)

/-- The cues of a list that have not fired, with their MCC values. -/
def CueList.left (l : CueList) : List (Cue × Nat) := (l.cues.zip l.mcc).drop l.next

/-- R112: every SCHEDULED set and every armed cue, in the order they will apply. A cue's order among commits of one sample is after the
sets (log entry 41). -/
def State.coming (s : State) : List Due :=
  let sets := s.scene.sets.filterMap (fun x =>
    match x.st, x.commit with
    | .scheduled, some c => some (Due.mk c x.order x.id x.added x.attrs.cfLen x.attrs.dxLen)
    | _, _ => none)
  let cues := (s.scene.cues.filter (fun l => decide (l.2.st = .armed))).flatMap (fun l =>
    l.2.left.map (fun q =>
      let a := s.cueAttrs q.1.what
      Due.mk q.2 (2 ^ 64) 0 (s.cueAdds q.1.what) a.1 a.2))
  (sets ++ cues).foldl (fun l d => insertDue d l) []

/-- The configuration in force at a commit sample, or with everything that is coming; one set is left out (R112). -/
def State.predict (s : State) (upTo : Option Nat) (skip : Nat) : State :=
  (s.coming.filter (fun d => (d.set ≠ skip ∨ d.set = 0) ∧ upTo.all (fun c => d.c ≤ c))).foldl (fun v d => v.overlay (v.bodyOf d.added)) s

end Sys2Proof.Machine
end

