-- ==== Sys2Proof/Machine/Fabric.lean ====
section
/-! DEFINITION. Sys2Proof/Machine/Fabric.lean: the fabric, the pool, DRAM, MSTORE correction and the crossings
(spec/14_fabric_memory_crossings.md). Targets are numbered by what grants: pool bank 0…31, then 32 + (k − 8) for T8…T12. -/
namespace Sys2Proof.Machine

open Fmt

/-- A change of the fabric group. -/
def State.setFab (s : State) (f : FabG → FabG) : State := { s with fab := f s.fab }

/-! ### Address decode (R369, R372) -/

/-- The default target. -/
def tDefault : Nat := 36
/-- Installed DRAM in bytes: 1…4 GiB (log entry 7). -/
def dramBytes : Nat := max (2 ^ 30) (min (2 ^ 32) (Config.dramSize / 2 ^ 30 * 2 ^ 30))

/-- Pool windows by master. -/
def poolReach (m bank : Nat) : Bool :=
  if m = 18 then true
  else if m = 21 then decide (bank ≤ 11) || (decide (20 ≤ bank) && decide (bank ≤ 27))
  else if m = 22 then decide (bank = 28) || decide (bank = 29)
  else if m = 23 then decide (bank ≤ 11) || decide (30 ≤ bank)
  else decide (bank ≤ 11)

/-- R368: the native width of a master port in bytes. -/
def portWidth (m : Nat) : Nat := if m = 22 then 16 else 32

/-- Two native words to a fabric word of twice the width, the first in the low half; an odd last one fills the low half. -/
def pairUp (w : Nat) : List Nat → List Nat
  | [] => []
  | [a] => [a]
  | a :: b :: l => (a + w * b) :: pairUp w l

/-- R375: whether the first native beat of a narrow master fills the upper half of its fabric beat. -/
def Txn.upper (t : Txn) : Bool := decide (portWidth t.master = 16) && decide (t.addr / 16 % 2 = 1)
/-- R375: a transaction as the fabric carries it: the width converter packs two 128-bit beats of M22 into one of 256, enables with them. -/
def Txn.packed (t : Txn) : Txn :=
  if portWidth t.master = 32 then t
  else
    let lead := if t.upper then [0] else []
    { t with beats := pairUp (2 ^ 128) (lead ++ t.beats), enables := pairUp (2 ^ 16) (lead ++ t.enables) }
/-- R375: the beats of a read as the master takes them. -/
def Txn.native (t : Txn) (data : List Nat) : List Nat :=
  if portWidth t.master = 32 then data
  else ((data.flatMap (fun w => [w % 2 ^ 128, w / 2 ^ 128])).drop (if t.upper then 1 else 0)).take t.beats.length

/-- The address of the line of a transaction's first beat: a beat is one line of 32 bytes (R377; log entry 203). -/
def Txn.line (t : Txn) : Nat := t.addr / 32 * 32

/-- R372: a burst of 1…16 beats of 32 bytes inside one 512-byte block. -/
def Txn.burstOk (t : Txn) : Bool :=
  let n := t.packed.beats.length
  decide (1 ≤ n) && decide (n ≤ 16) && decide (t.line % 512 + 32 * n ≤ 512)

/-- R369, R372, R374: the target a transaction goes to. -/
def State.decodeTxn (s : State) (t : Txn) : Nat :=
  let a := t.addr
  if !t.burstOk then tDefault
  else if a < 0x1000000 then (if poolReach t.master (a / 0x80000) then a / 0x80000 else tDefault)
  else if 0x10000000 ≤ a ∧ a < 0x10010000 then (if t.master = 18 then 32 else tDefault)
  else if 0x20000000 ≤ a ∧ a < 0x21000000 then
    (if a < 0x20010000 then (if t.master = 18 ∨ t.master = 22 then 33 else tDefault)
     else if t.master = 18 ∧ bit s.power.domains (Config.pbr0Domain (a - 0x20000000)) then 33 else tDefault)
  else if 0x21000000 ≤ a ∧ a < 0x22000000 then (if t.master = 18 then 34 else tDefault)
  else if 0x100000000 ≤ a ∧ a < 0x100000000 + dramBytes then
    (if (t.master ≤ 16 ∨ t.master = 18) ∧ bit s.power.domains 0 then 35 else tDefault)
  else tDefault

/-- The target port number of a target. -/
def portOf (target : Nat) : Nat := if target < 32 then target / 4 else target - 24

/-! ### Arbitration (R370, R371) -/

/-- R370: the masters that carry block data. -/
def mayBlock (m : Nat) : Bool := decide (m ≤ 17) || decide (m = 19) || decide (m = 20) || decide (m = 21)
/-- R368: the QoS that a master gives its transactions, block data or other. M17 and M20 carry block data only. -/
def portQos (m : Nat) (block : Bool) : Nat :=
  match m with
  | 17 => 15
  | 18 => 8
  | 20 => 15
  | 22 => 4
  | 23 => 12
  | _ => if block then 15 else 6
/-- R368, R370: the QoS the fabric issues a transaction at: 14 where it carries 15 and is no block data; of the control masters' traffic the
pool scrubber's 1 and flash writes' 0; else what the master's column gives. -/
def Txn.issued (t : Txn) : Nat :=
  if t.qos = 15 ∧ !(t.block && mayBlock t.master) ∧ portQos t.master t.block ≠ 15 then 14
  else if t.master = 18 ∧ t.qos ≤ 1 then t.qos
  else portQos t.master t.block
/-- R371: the effective QoS at a cycle. -/
def Txn.effective (t : Txn) (cycle : Nat) : Nat :=
  if t.promoted ∨ t.arrived + 256 ≤ cycle then max t.issued 14 else t.issued
/-- R371: whether a transaction goes before another. -/
def Txn.before (cycle : Nat) (t u : Txn) : Bool :=
  if t.effective cycle ≠ u.effective cycle then decide (u.effective cycle < t.effective cycle)
  else if t.arrived ≠ u.arrived then decide (t.arrived < u.arrived)
  else decide (t.master ≤ u.master)
/-- The transaction a list of candidates yields. -/
def pick (cycle : Nat) : List Txn → Option Txn
  | [] => none
  | t :: l =>
    match pick cycle l with
    | none => some t
    | some u => if t.before cycle u then some t else some u
/-- A list without the first occurrence of one transaction. -/
def dropTxn (t : Txn) : List Txn → List Txn
  | [] => []
  | u :: l => if u = t then l else u :: dropTxn t l

/-! ### Transfers -/

/-- The 32 bytes of a beat, least significant first. -/
def beatBytes (w : Nat) : List Nat := toLE 32 w

/-- One write beat with its byte enables (R375). -/
def writeBeat (m : Memory) (a w en : Nat) : Memory :=
  (List.range 32).foldl (fun m i => if bit en i then m.write (a + i) (w / 256 ^ i % 256) else m) m

/-- A write burst. -/
def writeBurst (m : Memory) (a : Nat) : List Nat → List Nat → Memory
  | [], _ => m
  | w :: ws, ens => writeBurst (writeBeat m a w (ens.headD 0)) (a + 32) ws ens.tail

/-- A read burst: beats of 32 bytes. -/
def readBurst (m : Memory) (a n : Nat) : List Nat :=
  (List.range n).map (fun i => ofLE (m.readAll (a + 32 * i) 32))

/-- R378: whether a pool transaction meets a mirrored allocation: block data in the general region, the network region, PB30 and
PB31. -/
def mirrored (bank qos : Nat) : Bool :=
  (decide (20 ≤ bank) && decide (bank ≤ 27)) || decide (30 ≤ bank) || (decide (bank < 12) && decide (qos = 15))

/-- R379, R380: what a failing pool read entails: cause 1 corrected from the partner, 2 both lines failed, 3 not mirrored; the last two
are uncorrected (FAULT_SUM [1]). -/
def State.poolParity (s : State) (bank cause : Nat) : State :=
  let s1 := (s.setFab (fun g => { g with poolParity := satInc g.poolParity 1 })).raise .poolParity 0 bank cause
  if cause = 1 then s1 else s1.setFault (fun f => { f with uncorrected := true })

/-! ### Pool lines and their parity (R377–R379) -/

/-- R377: the 22 parity bits of a line's 256 data bits: bit i is the parity of data bits 12i to 12i + 11, bit 21 that of bits 252 to 255 (even
parity: log entry 205). -/
def lineParity (w : Nat) : Nat :=
  (List.range 22).foldl (fun p i => p + 2 ^ i * ((List.range 12).foldl (fun n j => n + w / 2 ^ (12 * i + j)) 0 % 2)) 0

/-- The bank of a pool line; a bank has 16,384 lines of 32 bytes. -/
def lineBank (line : Nat) : Nat := line / 16384

/-- R378: the partner of a bank in a mirrored region. -/
def partnerBank (bank : Nat) : Option Nat :=
  if bank < 12 then some ((bank + 6) % 12)
  else if 20 ≤ bank ∧ bank ≤ 27 then some (20 + (bank - 16) % 8)
  else if bank = 30 then some 31
  else if bank = 31 then some 30
  else none

/-- The partner line of a pool line. -/
def partnerLine (line : Nat) : Option Nat := (partnerBank (lineBank line)).map (fun b => b * 16384 + line % 16384)

/-- The data bits of a pool line. -/
def State.lineData (s : State) (line : Nat) : Nat :=
  if lineBank line = 28 ∨ lineBank line = 29 then ofLE (s.vcp.mbx.readAll (32 * line - 0xE00000) 32) else ofLE (s.fab.pool.readAll (32 * line) 32)

/-- The 22 parity bits that the pool holds for a line. -/
def State.heldParity (s : State) (line : Nat) : Nat := lineParity (s.lineData line) ^^^ Cells.get 0 s.fab.flips line

/-- R377: whether a line passes its parity. -/
def State.lineGood (s : State) (line : Nat) : Bool := decide (s.heldParity line = lineParity (s.lineData line))

/-- The parity bits of a line written, as its data give them (R377, R379). -/
def State.goodLine (s : State) (line : Nat) : State := s.setFab (fun g => { g with flips := Cells.put 0 g.flips line 0 })

/-- A line whose parity has failed: its bit 0 differs. -/
def State.failLine (s : State) (line : Nat) : State :=
  s.setFab (fun g => { g with flips := if Cells.get 0 g.flips line = 0 then Cells.put 0 g.flips line 1 else g.flips })

/-- R377, R379, R380: one line read, mirrored or not: the state, and whether its beat comes back poisoned. A failing mirrored line is
rewritten from its partner. -/
def State.readLine (s : State) (mir : Bool) (line : Nat) : State × Bool :=
  if s.lineGood line then (s, false)
  else if !mir then (s.poolParity (lineBank line) 3, true)
  else if (partnerLine line).any s.lineGood then ((s.goodLine line).poolParity (lineBank line) 1, false)
  else (s.poolParity (lineBank line) 2, true)

/-- R383: a corrected word. -/
def State.dramFixed (s : State) : State :=
  (s.setFab (fun g => { g with dramCorr := satInc g.dramCorr 1 })).raise .dramCorrected 0 0 0

/-- R383: words that cannot be corrected. -/
def State.dramBad (s : State) (n : Nat) : State :=
  ((s.setFab (fun g => { g with dramUncorr := satInc g.dramUncorr n })).raise .dramUncorrected 0 0 0).setFault
    (fun f => { f with uncorrected := true })

/-- The lock after a transaction of a locked sequence (R373): it takes or extends it; the sequence's last releases it. -/
def nextLock (old : Option Lock) (cycle : Nat) (t : Txn) : Option Lock :=
  if t.locked ∧ t.master = 18 ∧ t.more then some { n := (old.elim 0 (·.n)) + 1, start := old.elim cycle (·.start) } else none

/-- The lock held at the target port that a target belongs to (R373). -/
def FabG.lock (g : FabG) (target : Nat) : Option Lock :=
  let l := Cells.get { n := 0, start := 0 } g.locks (portOf target)
  if l.n = 0 then none else some l

/-- The lock at a target's port replaced. -/
def FabG.setLock (g : FabG) (target : Nat) (l : Option Lock) : FabG :=
  { g with locks := Cells.put { n := 0, start := 0 } g.locks (portOf target) (l.getD { n := 0, start := 0 }) }

/-- The locks after a granted transaction (R373, R397): one of a locked sequence takes, extends or releases its port's; a decode error ends
its master's. Any other transaction leaves them. -/
def FabG.lockAfter (g : FabG) (target cycle : Nat) (t : Txn) : FabG :=
  if !t.locked then g
  else if target = tDefault then (if t.master = 18 then { g with locks := [] } else g)
  else g.setLock target (nextLock (g.lock target) cycle t)

/-- R373: whether a locked sequence may take one more transaction of b beats granted at a cycle. -/
def Lock.admits (l : Lock) (cycle b : Nat) : Bool := decide (l.n < 4) && decide (cycle + b ≤ l.start + 64)

/-! ### Dual-clock queues (R368, R375, R391)

A master port's queue holds what its master has written and no target has granted yet; each port receiver of M19 has its own. The queue of the
other direction has as many entries; a master takes its answers as they come, so that it is never full (log entry 204). -/

/-- R368: the entries each way of a master port's queue, of M19 of each receiver's; M20 has none. -/
def portDepth (m : Nat) : Option Nat :=
  if m ≤ 16 then some 128
  else match m with
    | 17 => some 256
    | 18 => some 32
    | 19 => some 32
    | 21 => some 512
    | 22 => some 32
    | 23 => some 256
    | _ => none

/-- The entries a transaction takes: one for each fabric beat of a write, one for a read. -/
def Txn.entries (t : Txn) : Nat := if t.write then t.packed.beats.length else 1

/-- The queue that a transaction is written into: its master port's, of M19 its receiver's. -/
def Txn.queue (t : Txn) : Nat := if t.master = 19 then 19 + 32 * (t.unit + 1) else t.master

/-- The entries in use of a queue. -/
def FabG.used (g : FabG) (q : Nat) : Nat :=
  ((g.waiting.flatMap (fun c => c.2)).filter (fun t => decide (t.queue = q))).foldl (fun n t => n + t.entries) 0

/-- R391: whether a queue takes a transaction whole: it is empty, or has room. -/
def FabG.room (g : FabG) (t : Txn) : Bool :=
  (portDepth t.master).all (fun d => decide (g.used t.queue = 0) || decide (g.used t.queue + t.entries ≤ d))

/-- A transaction written into its port's queue, from where it waits for its target. -/
def State.join (s : State) (t : Txn) : State :=
  s.setFab (fun g => { g with waiting := Cells.upd [] g.waiting (s.decodeTxn t) (· ++ [t]) })

/-- R391: a master offers a transaction: its queue takes it, or the writer waits, behind what waits already. -/
def State.offer (s : State) (t : Txn) : State :=
  if (Cells.get [] s.fab.held t.queue).isEmpty && s.fab.room t then s.join t
  else s.setFab (fun g => { g with held := Cells.upd [] g.held t.queue (· ++ [t]) })

/-- R391: waiting writers go on, in order, while the queue has room; what they write arrives now. -/
def State.refill (s : State) (cycle : Nat) : List Txn → State
  | [] => s
  | t :: l =>
    if s.fab.room t then
      ((s.setFab (fun g => { g with held := Cells.put [] g.held t.queue l })).join { t with arrived := cycle }).refill cycle l
    else s

/-- Arrivals are written into the queues of their ports. A master whose reset lasts issues nothing (R376). -/
def State.arrive (s : State) (l : List Txn) : State :=
  (l.filter (fun t => decide (Cells.get 0 s.fab.resets t.master ≤ t.arrived))).foldl State.offer s

/-! ### Bursts in progress (R371, R372, R376) -/

/-- The cycle after a burst's last beat. -/
def Burst.done (b : Burst) : Nat := b.start + b.txn.packed.beats.length

/-- R371, R372: whether a target's burst holds it at a cycle. -/
def FabG.busy (g : FabG) (target cycle : Nat) : Bool := (Cells.get none g.bursts target).any (fun b => decide (cycle < b.done))

/-- The memory that a target serves, as the address of its first byte, and the bytes. -/
def State.memAt (s : State) (target : Nat) : Option (Nat × Memory) :=
  if target = 28 ∨ target = 29 then some (0xE00000, s.vcp.mbx)
  else if target < 32 then some (0, s.fab.pool)
  else if target = 32 then some (0x10000000, s.fab.staging)
  else if target = 35 then some (0x100000000, s.fab.dram)
  else none

/-- The memory of a target replaced. -/
def State.setMemAt (s : State) (target : Nat) (m : Memory) : State :=
  if target = 28 ∨ target = 29 then { s with vcp := { s.vcp with mbx := m } }
  else if target < 32 then s.setFab (fun g => { g with pool := m })
  else if target = 32 then s.setFab (fun g => { g with staging := m })
  else if target = 35 then s.setFab (fun g => { g with dram := m })
  else s

/-- R376: a burst whose master is reset: its beats after cycle `now` reach the target with no byte enabled, so their lines stand as before;
what is left of a read is discarded. -/
def State.cutBurst (s : State) (target : Nat) (b : Burst) : State :=
  let n := b.txn.packed.beats.length
  let k := min n (s.fab.now + 1 - b.start)
  if k = n then s
  else if b.txn.write then
    match s.memAt target with
    | some (base, m) => s.setMemAt target (writeBurst m (b.txn.line - base + 32 * k) (b.old.drop k) (List.replicate (n - k) (2 ^ 32 - 1)))
    | none => s
  else s.setFab (fun g => { g with resp := if g.resp.any (fun r => decide (r.master = b.txn.master)) then none else g.resp })

/-- QOS_PROMOTION: transactions that have waited 256 cycles at a target (R371). -/
def execQosPromotion (target cycle : Nat) (s : State) : Host.Outcome State Fault Refusal :=
  .next (s.setFab (fun g => { g with waiting := Cells.upd [] g.waiting target (fun l =>
    l.map (fun t => if t.arrived + 256 ≤ cycle ∧ t.issued < 14 then { t with promoted := true } else t)) }))

/-- R376, R393, R396: a master port's queues empty: its waiting transactions and writers are withdrawn. -/
def State.flushPort (s : State) (m : Nat) : State :=
  s.setFab (fun g => { g with
    waiting := (g.waiting.map (fun c => (c.1, c.2.filter (fun t => t.master ≠ m)))).filter (fun c => !c.2.isEmpty)
    held := g.held.filter (fun c => decide (c.1 % 32 ≠ m)) })

/-- R376: a master is reset: its waiting transactions are withdrawn, its bursts in the fabric end without effect, its locks are released, and
its reset lasts until the last of those bursts has ended. -/
def State.drain (s : State) (m : Nat) : State :=
  let own := s.fab.bursts.filter (fun c => c.2.any (fun b => decide (b.txn.master = m)))
  let s1 := (s.flushPort m).setFab (fun g => { g with
    locks := if m = 18 then [] else g.locks
    resets := Cells.put 0 g.resets m ((own.filterMap (·.2)).foldl (fun n b => max n b.done) 0) })
  own.foldl (fun s c => match c.2 with
    | some b => s.cutBurst c.1 b
    | none => s) s1

/-- MASTER_RESET_DRAIN (R376). -/
def execMasterResetDrain (m : Nat) (s : State) : Host.Outcome State Fault Refusal := .next (s.drain m)

/-! ### Scrubbers (R377, R379, R380, R384, R386) -/

/-- What a scrubber or patrol finds. -/
def State.found (s : State) : MemFault → State
  | .poolMirrored bank => s.poolParity bank 1
  | .poolBoth bank => s.poolParity bank 2
  | .poolPlain bank => s.poolParity bank 3
  | .dramCorrected _ => s.dramFixed
  | .dramDouble _ => s.dramBad 1
  | .dramRetry n => s.setFab (fun g => { g with dramRetry := satInc g.dramRetry (min 3 n) })

/-- Whether a finding is of the pool. -/
def MemFault.ofPool : MemFault → Bool
  | .poolMirrored _ => true
  | .poolBoth _ => true
  | .poolPlain _ => true
  | .dramCorrected _ => false
  | .dramDouble _ => false
  | .dramRetry _ => false

/-- POOL_SCRUB_PASS: every line of every bank has been read: the lines whose parity has failed before and what else the pass finds (R377). -/
def execPoolScrubPass (found : List MemFault) (s : State) : Host.Outcome State Fault Refusal :=
  if !bit s.power.domains 11 then .next s
  else
    let s1 := s.fab.flips.foldl (fun s c => (s.readLine (mirrored (lineBank c.1) 0) c.1).1) s
    .next (((found.filter (·.ofPool)).foldl State.found s1).setFab (fun g => { g with scrubs := g.scrubs + 1 }))

/-- DRAM_PATROL_PASS: every word of DRAM has been read (R384). -/
def execDramPatrolPass (found : List MemFault) (s : State) : Host.Outcome State Fault Refusal :=
  if !bit s.power.domains 0 then .next s
  else .next (((found.filter (fun f => !f.ofPool)).foldl State.found s).setFab (fun g => { g with patrols := g.patrols + 1 }))

/-- One corrected MSTORE word (R386). -/
def State.mramFixed (s : State) : State :=
  (s.setFab (fun g => { g with mstoreCorr := satInc g.mstoreCorr 1 })).raise .mstoreCorrected 0 0 0

/-- MSTORE_CORRECTED: a single-bit error in a word of MSTORE (R386). -/
def execMstoreCorrected (addr : Nat) (s : State) : Host.Outcome State Fault Refusal :=
  if addr < 0x2000000 then .next s.mramFixed else .next s

/-- MSTORE_SCRUB_PASS: all of MSTORE has been read (R386). -/
def execMstoreScrubPass (found : List Nat) (s : State) : Host.Outcome State Fault Refusal :=
  .next (((found.filter (fun a => decide (a < 0x2000000))).foldl (fun s _ => s.mramFixed) s).setFab
    (fun g => { g with mramPasses := g.mramPasses + 1 }))

/-- R387: the master whose port queue is a crossing, by its id: an engine, the Mere or the control cores and the fabric. -/
def crossingPort (x : Nat) : Option Nat :=
  match x / 256 with
  | 0x13 => if x % 256 < 17 then some (x % 256) else none
  | 0x31 => if x % 256 < 17 then some (x % 256) else none
  | 0x23 => some 17
  | 0x32 => some 17
  | 0x43 => some 18
  | 0x34 => some 18
  | _ => none

/-- R393, R396: the queue of a crossing empties. -/
def State.flushCrossing (s : State) (x : Nat) : State :=
  match crossingPort x with
  | some m => s.flushPort m
  | none => s

/-! ### Event count crossings (R389, R390) -/

/-- One crossing. -/
def FabG.crossing (g : FabG) (x : Nat) : Crossing := Cells.get Crossing.reset g.crossings x

/-- A source cycle: the reflected count is taken first, arrivals join pending up to 255, one event is published within the credit
of 64; then the destination takes the synchronised count. -/
def Crossing.cycle (c0 : Crossing) (arrivals : Nat) (reflect take : Bool) : Crossing :=
  let c := if reflect then { c0 with reflected := c0.last } else c0
  let lead := (c.published + 256 - c.reflected) % 256
  let n := c.pending + arrivals
  let pub := decide (n ≠ 0) && decide (lead < 64)
  let rest := if pub then n - 1 else n
  let many := decide (255 < rest)
  let c1 : Crossing := { c with
    pending := min 255 rest
    published := if pub then (c.published + 1) % 256 else c.published
    overSrc := c.overSrc || many }
  if take then
    { c1 with last := c1.published, count := c1.count + (c1.published + 256 - c1.last) % 256, overDst := c1.overDst || c1.overSrc }
  else c1

/-- EVENT_COUNT_PUBLISH: one source cycle of crossing x (R389, R390). A fenced crossing takes nothing (R393). -/
def execEventCountPublish (x arrivals : Nat) (reflect take : Bool) (s : State) : Host.Outcome State Fault Refusal :=
  if x < 65536 ∧ (s.fab.crossing x).fence = none then
    .next (s.setFab (fun g => { g with crossings := Cells.upd Crossing.reset g.crossings x (·.cycle arrivals reflect take) }))
  else .next s

end Sys2Proof.Machine
end

