-- ==== Sys2Proof/Machine/FaultC.lean ====
section
/-! DEFINITION. Sys2Proof/Machine/FaultC.lean: detections, recompute, retirement and sparing on the Tarn engines and the Mere,
stopped crossings and reset groups (R101–R105, R392–R411, R419–R422). -/
namespace Sys2Proof.Machine

open Fmt

/-! ### Engines and the spare -/

/-- The number of the running block: the frame tick at kB + 2 starts block k (R24). -/
def State.blockNo (s : State) : Nat := (s.mcc - 2) / s.B

/-- R407: the third detection within 16 consecutive blocks. -/
def reached (blk : Nat) (l : List Nat) : Bool := decide (3 ≤ (l.filter (fun b => decide (blk < b + 16))).length)

/-- Detections of an engine, newest first. -/
def State.detections (s : State) (e : Nat) : List Nat := Cells.get [] s.fault.detect e

/-- One more detection of an engine. -/
def State.detected (s : State) (e : Nat) : State :=
  s.setFault (fun f => { f with detect := Cells.put [] f.detect e ((s.blockNo :: Cells.get [] f.detect e).filter
    (fun b => decide (s.blockNo < b + 16))) })

/-- The engine that stands as the spare. -/
def State.spare? (s : State) : Option Nat := (List.range 17).find? (fun e => decide ((s.eng e).st = .spare))

/-- Whether an engine swap holds the token, and on which engine (R420). -/
def State.swapping (s : State) : Option Nat := s.fault.holder.bind (fun m => if m.code = 1 then some m.target else none)

/-- R421: a fault that needs the spare pre-empts an engine swap. A target whose tasks have moved becomes the spare without its
test. -/
def State.preempt (s : State) : State :=
  match s.swapping with
  | none => s
  | some t =>
    let x := s.eng t
    (if x.st = .retired then s.setEng t { x with st := .spare } else s).maintAbort

/-- R406: whether the spare can serve engine e in this block. -/
def State.spareFree (s : State) (e : Nat) : Bool :=
  s.spare?.isSome &&
    (match s.fault.spareBlock with
     | some (b, x) => decide (b ≠ s.blockNo) || decide (x = e)
     | none => true)

/-- R407: every task of engine e, with the engine's memories, moves to engine p. -/
def State.moveTasks (s : State) (e p : Nat) : State :=
  let x := s.eng e
  let y := s.eng p
  let s1 := (s.setEng p { y with
    st := x.st, pMem := x.pMem, xMem := x.xMem, yMem := x.yMem, queue := x.queue, cur := x.cur, ended := x.ended, bg := x.bg, tk := x.tk
    inTask := x.inTask, pc := x.pc, saved := x.saved, stub := x.stub, loops := x.loops, view := x.view
    lpend := x.lpend, savedL := x.savedL, service := x.service }).setEng e { Engine.reset with st := .retired }
  s1.setFault (fun f => { f with
    placement := (List.range 17).foldl (fun m l => if s.phys l = e then Cells.put 0 m l (p + 1) else m) f.placement
    detect := Cells.put [] f.detect e [] })

/-- R408: no spare is free for an engine that reaches the threshold. -/
def State.noSpare (s : State) (e : Nat) : State :=
  (s.setFault (fun f => { f with exhausted := true, detect := Cells.put [] f.detect e [] })).raise .tarnSpareExhausted 0 e 0

/-- The running task leaves its engine, or the one that has just executed its END (R399), to run again at once (R405) or not at all. -/
def State.dropTask (s : State) (e : Nat) (again : Bool) : State :=
  let x := s.eng e
  match x.cur with
  | none => s.setEng e { x with
      halt := none, ended := none, queue := (if again then x.ended.toList.map (fun t => { t with cycles := 0 }) else []) ++ x.queue }
  | some t =>
    let y := Tarn.endTask { x with halt := none }
    s.setEng e (if again then { y with queue := { t with cycles := 0 } :: y.queue } else y)

/-- EV_TARN_TASK_FAILED: engine, task, module id, P address and cause, counted (R193). -/
def State.taskFailed (s : State) (e n addr code : Nat) : State :=
  (s.setFault (fun f => { f with failedTasks := f.failedTasks + 1 })).raiseD .tarnTaskFailed (s.slotOwner n) e
    [e, n, (s.slotMod n).1, addr, code]

/-- R193: a module instance fails, until a commit removes or reloads its module. -/
def State.failInstance (s : State) (e n addr code : Nat) (cause : Nat × Nat) : State :=
  (s.updSlot n (fun r => { r with failed := true, cause := some cause })).taskFailed e n addr code

/-- R405, R406: the result of a task's block is settled: by the engine's own recompute, by the spare, or as computed. `again` says that
the engine's recompute reports a detection as well; `fits`, that the cycles left hold the task's cost. -/
def State.settle (s : State) (e : Nat) (again fits : Bool) : State :=
  let used := decide (Cells.get 0 s.fault.recomputed e = s.blockNo + 1)
  let s1 := s.setFault (fun f => { f with
    recomputed := Cells.put 0 f.recomputed e (s.blockNo + 1), recomputes := satInc f.recomputes 1 })
  if !used ∧ !again then (s1.dropTask e true).raise .tarnRecompute 0 e 1
  else
    let s2 := s1.preempt
    if s2.spareFree e then
      ((s2.setFault (fun f => { f with spareBlock := some (s.blockNo, e) })).dropTask e true).raise .tarnRecompute 0 e 2
    else if fits then (s2.dropTask e true).raise .tarnRecompute 0 e 1
    else ((s2.dropTask e false).raise .tarnUncorrected 0 e 0).uncorrected

/-- TARN_DETECTION: engine e reports a detection: cause 0 residue, 1 X or Y parity, 2 P parity, 3 overrun, 4 illegal instruction, at P
address `addr` (R192, R399–R406). An overrun or illegal instruction that the recompute meets again at the same address fails the
instance (R192). -/
def execTarnDetection (e cause addr : Nat) (again fits : Bool) (s : State) : Host.Outcome State Fault Refusal :=
  let x := s.eng e
  if 17 ≤ e ∨ !s.tarnOn ∨ 5 ≤ cause ∨ ¬ (x.st = .active ∨ x.st = .legacy) then .next s
  else
    let s1 := if again then (s.detected e).detected e else s.detected e
    match x.cur with
    | some t =>
      if cause = 3 ∨ cause = 4 then
        if (s.slotRt t.inst).cause = some (cause, addr) ∨ again then
          .next ((s1.dropTask e false).failInstance e t.inst addr (cause - 2) (cause, addr))
        else .next ((s1.updSlot t.inst (fun r => { r with cause := some (cause, addr) })).settle e false fits)
      else .next (s1.settle e again fits)
    | none => .next (s1.settle e again fits)

/-- TARN_RETIRE: an engine at the detection threshold, or the target of an engine swap, hands its tasks to the spare after its last END
of the block (R407, R408, R420, R422). -/
def execTarnRetire (e : Nat) (s : State) : Host.Outcome State Fault Refusal :=
  let x := s.eng e
  let due := reached s.blockNo (s.detections e)
  let swap := decide (s.swapping = some e)
  if 17 ≤ e ∨ !s.tarnOn ∨ ¬ (x.st = .active ∨ x.st = .legacy) ∨ x.queue ≠ [] ∨ x.cur ≠ none ∨ !(due || swap) then .next s
  else
    let s1 := if swap then s else s.preempt
    match s1.spare? with
    | none => .next (s1.noSpare e)
    | some p =>
      let s2 := (s1.moveTasks e p).raise .tarnRetired 0 e (if swap then 3 else 1)
      if due then
        let s3 := s2.setFault (fun f => { f with retired := f.retired + 1 })
        .next (if swap then s3.maintEnd else s3)
      else .next s2

/-- SPARE_SELF_TEST_PASS: the spare's self-test ends (R409, R415). -/
def execSpareSelfTestPass (ok : Bool) (s : State) : Host.Outcome State Fault Refusal :=
  match s.spare? with
  | none => .next s
  | some p =>
    if !s.tarnOn ∨ s.fault.tarn.pct < 100 ∨ s.fault.holder.isSome then .next s
    else if ok then .next (s.setFault (fun f => { f with spareTests := f.spareTests + 1 }))
    else
      let s1 := s.setEng p { Engine.reset with st := .retired }
      .next ((s1.setFault (fun f => { f with retired := f.retired + 1 })).raise .tarnRetired 0 p 2)

/-- TARN_SCRUB_PASS: the background scrub has been through P, X, Y and the checksums; it pauses under throttling (R402, R415). -/
def execTarnScrubPass (s : State) : Host.Outcome State Fault Refusal :=
  if !s.tarnOn ∨ s.fault.tarn.pct < 100 then .next s
  else .next (s.setFault (fun f => { f with scrubs := f.scrubs + 1 }))

/-- POISONED_BLOCK_READ: a reader of block data uses zero for a poisoned word: sample `index` of entry `key` of a buffer: 0 strip
inputs, 1 taps, 2 bus outputs, 3 slot inputs, 4 slot outputs (R410). It lies outside the boundary (R443). -/
def execPoisonedBlockRead (buffer key index : Nat) (s : State) : Host.Outcome State Fault Refusal :=
  let zap := fun (m : Cells (List Int)) => Cells.put [] m key ((Cells.get [] m key).set index 0)
  let put := fun (f : AudioG → AudioG) => (s.setAudio f).outside
  match buffer with
  | 0 => .next (put (fun a => { a with inBlk := zap a.inBlk }))
  | 1 => .next (put (fun a => { a with taps := zap a.taps }))
  | 2 => .next (put (fun a => { a with busOut := zap a.busOut }))
  | 3 => .next (put (fun a => { a with slotIn := zap a.slotIn }))
  | 4 => .next (put (fun a => { a with slotOut := zap a.slotOut }))
  | _ => .next s

/-! ### The Mere (R101–R105) -/

/-- Whether PD_MERE is on. -/
def State.mereOn (s : State) : Bool := bit s.power.domains 10

/-- A change of the Mere. -/
def State.setMere (s : State) (f : MereG → MereG) : State := { s with mere := f s.mere }

/-- One physical lane. -/
def MereG.lane (m : MereG) (l : Nat) : Lane := Cells.get Lane.reset m.lanes l

/-- R74, R102: a lane of the 130 that no logical lane uses and that is not retired. -/
def MereG.spareLane (m : MereG) : Option Nat :=
  (List.range 130).find? (fun l => !m.laneMap.contains l && !(m.lane l).retired)

/-- mere.spares_free. -/
def MereG.sparesFree (m : MereG) : Nat :=
  ((List.range 130).filter (fun l => !m.laneMap.contains l && !(m.lane l).retired)).length

/-- MERE_SEGMENT_DETECTION: a segment of a physical lane fails its residue check and is recomputed: on the lane, on a spare, or not at
all (R101–R103). -/
def execMereSegmentDetection (lane : Nat) (fits : Bool) (s : State) : Host.Outcome State Fault Refusal :=
  if !s.mereOn ∨ !s.mere.laneMap.contains lane then .next s
  else
    let blk := s.blockNo
    let x := s.mere.lane lane
    let second := x.detections.contains blk
    let ds := (blk :: x.detections).filter (fun b => decide (blk < b + 16))
    let s1 := s.setMere (fun m => { m with
      lanes := Cells.put Lane.reset m.lanes lane { x with
        detections := ds, due := x.due || (s.mere.spareLane.isSome && reached blk ds) } })
    let none_ := s.mere.spareLane.isNone
    let s2 := if second ∧ none_ ∧ !fits then (s1.raise .mereUncorrected 0 lane 0).uncorrected
      else (s1.setMere (fun m => { m with recompute := satInc m.recompute 1 })).raise .mereRecompute 0 lane 0
    if none_ ∧ reached blk ds ∧ !reached blk x.detections then
      .next ((s2.setFault (fun f => { f with exhausted := true })).raise .mereSpareExhausted 0 lane 0)
    else .next s2

/-- R102, R103: at a frame tick the lanes that have met the threshold give their logical lanes to spares; a lane that finds none left stays
in service, with EV_MERE_SPARE_EXHAUSTED. -/
def State.mereRetire (s0 : State) : State :=
  s0.mere.laneMap.foldl (fun s lane =>
    let x := s.mere.lane lane
    if !x.due then s
    else
      match s.mere.spareLane with
      | none =>
        ((s.setMere (fun m => { m with lanes := Cells.put Lane.reset m.lanes lane { x with due := false } })).setFault
          (fun f => { f with exhausted := true })).raise .mereSpareExhausted 0 lane 0
      | some p =>
        (s.setMere (fun m => { m with
          laneMap := m.laneMap.map (fun l => if l = lane then p else l)
          lanes := Cells.put Lane.reset m.lanes lane { x with due := false, retired := true } })).raise
            .mereLaneRetired 0 lane 0) s0

/-- Partition of a node's destination (R120). -/
def State.nodeOwner (s : State) (d src : Nat) : Nat := s.ownerOf (hGain d src)

/-- R104: a single-bit error is corrected and written back: counted, and reported for a partition and a destination. -/
def State.corrected (s : State) (part d : Nat) : State :=
  (s.setMere (fun m => { m with corrected := satInc m.corrected 1 })).raise .nodeCorrected part d 0

/-- NODE_CORRECTED: a single-bit error of a node record is corrected in flight (R104; log entry 163). -/
def execNodeCorrected (d src : Nat) (s : State) : Host.Outcome State Fault Refusal :=
  if s.mereOn ∧ s.nodeIn d src then .next (s.corrected (s.nodeOwner d src) d) else .next s

/-- The staged target and tap of a node in the set that holds the plane: what the SCE rewrites (R105). -/
def State.stagedNode (s : State) (k : Nat) : Option (Int × Nat) :=
  let set := s.scene.sets.find? (fun x => some x.id = s.scene.holder && x.planeIn)
  Cells.get none (s.bodyOf ((set.map (·.added)).getD [])).nodes k

/-- The first stamp of the block that the Mere takes next. -/
def State.mereStamp (s : State) : Nat := s.audio.taken - s.B

/-- The restore rules of R105: `field` 0 tgt, 1 cur, 2 stg, 3 tap, ntap, stap or state; `prev` is the gain the node applied on the sample
before. A ramp whose target was lost goes on as a pending step from that gain. A node that applies 0 for a lost gain is silent, so a
handover is over: it waits on its committed tap (log entry 164). The second result says that the node waits in its group from now on. -/
def Node.restore (x : Node) (prev : Int) (field : Nat) (image : Int × Nat) (staged : Option (Int × Nat)) : Node × Bool :=
  let idle := decide (x.st = .idle)
  match field with
  | 0 =>
    if idle then ({ x with tgt := image.1, cur := image.1 }, false)
    else if x.st = .ramp then ({ x with cur := prev, tgt := image.1, st := .pending }, true)
    else ({ x with tgt := image.1 }, false)
  | 1 => if idle then ({ x with cur := x.tgt }, false) else ({ x with cur := 0, tap := x.ntap, st := .pending, hold := true }, true)
  | 2 => ({ x with stg := (staged.map (·.1)).getD stgNone, stap := (staged.map (·.2)).getD 2 }, false)
  | _ =>
    if idle then ({ x with tap := image.2, ntap := image.2, st := .idle }, false)
    else ({ x with tap := image.2, ntap := image.2, st := .pending, hold := true }, true)

/-- NODE_RESTORED: an uncorrectable field of a node record is restored from the committed image (R105). -/
def execNodeRestored (d src field : Nat) (s : State) : Host.Outcome State Fault Refusal :=
  if s.mereOn ∧ s.nodeIn d src ∧ field < 4 then
    let k := nodeKey d src
    let n := s.mereStamp
    let e := s.stepEnv [] s.mere.sig [] n n
    let x := Cells.get Node.reset s.mere.step.nodes k
    let prev := x.applied (s.mere.step.group (e.gk k x)) (n - 1)
    let (y, wait) := x.restore prev field (Cells.get (0, 2) s.mere.image k) (s.stagedNode k)
    let m1 := s.mere.step.setNode e k y
    let gk := e.gk k y
    let m2 := if wait then m1.setGroup gk ((m1.group gk).open n) else m1
    let m3 := m2.tidy e (e.gk k x)
    .next ((s.setMere (fun m => { m with restored := satInc m.restored 1, step := m3 })).raise .nodeRestored
      (s.nodeOwner d src) d 0)
  else .next s

/-- MERE_SCRUB_PASS: the scrubber has read every field of every record, the staged plane and the tables, and has corrected the single-bit
errors it met: in the records of `nodes`, and `tables` times in the maps and the group table (R104; log entry 163). -/
def execMereScrubPass (nodes : List Nat) (tables : Nat) (s : State) : Host.Outcome State Fault Refusal :=
  if s.mereOn then
    let s1 := (nodes.filter (fun k => s.nodeIn (keyDst k) (keySrc k))).foldl (fun s k =>
      s.corrected (s.nodeOwner (keyDst k) (keySrc k)) (keyDst k)) s
    let s2 := (List.range tables).foldl (fun s _ => s.corrected 0 0) s1
    .next (s2.setMere (fun m => { m with scrubs := m.scrubs + 1 }))
  else .next s

/-! ### Stopped crossings and reset groups (R392–R396, R411) -/

/-- R411: an engine lost abruptly: its tasks deliver their fall-back in this block and run on the spare from the next frame tick. -/
def State.loseEngine (s : State) (e : Nat) : State :=
  let x := s.eng e
  if ¬ (x.st = .active ∨ x.st = .legacy) then s.setEng e { Engine.reset with st := x.st }
  else
    let hit := s.usedSlots.filter (fun n => decide (s.phys (s.slotRt n).engine = e))
    let s1 := s.preempt
    let s2 := hit.foldl (fun s n => if s1.spare?.isSome then (s.updSlot n (fun r => { r with lost := true })).taskFailed e n 0 3
      else s.failInstance e n 0 3 (5, 0)) s1
    let s3 := s2.setEng e { (s2.eng e) with queue := [], cur := none, halt := none, inTask := false, stub := false, slots := none, rep := none }
    let s4 := match s3.spare? with
      | some p => s3.moveTasks e p
      | none => (s3.setEng e { Engine.reset with st := .retired }).noSpare e
    (s4.setFault (fun f => { f with retired := f.retired + 1 })).outside

/-- R411: the Mere restarts from the committed image: every node idle at its committed target and tap, its sums zero. -/
def State.restartMere (s : State) : State :=
  let s1 := s.setMere (fun m => { m with
    step := { nodes := m.image.foldl (fun c q => Cells.put Node.reset c q.1
                { Node.reset with cur := q.2.1, tgt := q.2.1, tap := q.2.2, ntap := q.2.2 }) [], groups := [] }
    srcX := [], dstX := [], sig := [] })
  (s1.setAudio (fun a => { a with sums := [] })).outside

/-- R255: every link of G_NET is lost; the ports restart as after a link loss. -/
def State.loseLinks (s : State) : State :=
  s.net.link.foldl State.linkLost s

/-- R444: the twin link's group is reset: both paths are down; before it a standby withdraws and an active hands over, h being the next
block boundary, over a path that still works. -/
def State.loseTwin (s : State) : State :=
  let s1 := if s.twin.paths = 0 then s else match s.twin.role with
    | .standby => s.withdraw 0x0008
    | .active => if s.twin.handover.isSome then s else
        (s.swapAnswer s.twin.swapReq { status := Err.state }).setTwin (fun t => { t with
          handover := some (s.mcc / s.B * s.B + s.B), swap := none, swapReq := none })
    | .solo => s
    | .joining => s
    | .fenced => s
  s1.setTwin (fun t => { t with paths := 0 })

/-- EV_XRST for a crossing, counted in xrst (R393, R396). -/
def State.xrst (s : State) (x : Nat) : State := (s.setFab (fun g => { g with xrst := satInc g.xrst 1 })).raise .xrst 0 x 0

/-- A reset group is reset, and every crossing fenced on it resumes (R393–R395, R411). -/
def State.resetGroup (s : State) (g : ResetName) : State :=
  -- the converters, outside the groups, complete the master's bursts (R376, R394)
  let s1 := match g with
    | .tarn n => if n < 17 then (s.drain n).loseEngine n else s
    | .mere => (s.drain 17).restartMere
    | .net => (s.drain 21).loseLinks
    | .twin => (s.drain 23).loseTwin
    | .lone _ => s
    | .part _ => s
  let up := s1.fab.crossings.filter (fun c => c.2.fence = some g)
  up.foldl (fun s c =>
    (s.setFab (fun f => { f with crossings := Cells.upd Crossing.reset f.crossings c.1 (fun x => { x with fence := none }) })).xrst c.1) s1

/-- RESET_GROUP_REQUEST: a reset group is reset. A request for one domain of a group that has more than one resets nothing (R395). -/
def execResetGroupRequest (g : ResetName) (s : State) : Host.Outcome State Fault Refusal :=
  match g with
  | .part _ => .next s
  | g => .next (s.resetGroup g)

/-- CROSSING_CLOCK_STOPPED: a side of crossing x sees no toggle of the far clock, which belongs to `far` (R392, R393): the crossing is
fenced; the firmware, while it runs, resets the far side's group (R411). -/
def execCrossingClockStopped (x : Nat) (far : ResetName) (s : State) : Host.Outcome State Fault Refusal :=
  if 65536 ≤ x ∨ (s.fab.crossing x).fence.isSome then .next s
  else
    let s1 := ((s.flushCrossing x).setFab (fun g => { g with
      cdcTimeout := satInc g.cdcTimeout 1
      crossings := Cells.upd Crossing.reset g.crossings x (fun c => { c with fence := some far, pending := 0 }) })).raise .cdcTimeout 0 x 0
    match far with
    | .part _ => .next s1
    | far => .next (if s1.serves then s1.resetGroup far else s1)

/-- CROSSING_RESET_INDICATION: one side of crossing x has been reset; the far side flushes its half and takes the incoming count as its
baseline (R396). -/
def execCrossingResetIndication (x : Nat) (s : State) : Host.Outcome State Fault Refusal :=
  if 65536 ≤ x then .next s
  else .next (((s.flushCrossing x).setFab (fun g => { g with
    crossings := Cells.upd Crossing.reset g.crossings x (fun c => { c with
      pending := 0, published := 0, reflected := 0, last := 0 }) })).xrst x)

end Sys2Proof.Machine
end

