-- ==== Sys2Proof/Machine/Hsp.lean ====
section
/-! DEFINITION. Sys2Proof/Machine/Hsp.lean: the operator headset port (R230–R234). -/
namespace Sys2Proof.Machine

open Fmt

/-- The headset port changed. -/
def State.setHsp (s : State) (f : HspG → HspG) : State := { s with ports := { s.ports with hsp := f s.ports.hsp } }
/-- The microphone's port channel (R37). -/
def micRef : Nat := 0x06000000
/-- The partition of the port. -/
def State.hspOwner (s : State) : Nat := s.at 0x22 0 0x1F
/-- The accessory type in force: with hsp.detect at 0 the port is treated as type 1 (R230). -/
def State.hspType (s : State) : Nat := if s.on 0x22 0 0 then s.ports.hsp.type else 1
/-- R231: a headset is present. -/
def HspG.headset (g : HspG) : Bool := decide (g.type = 2) || decide (g.type = 3)
/-- R231: the microphone bias: off, on for a headset, or on. -/
def State.hspBias (s : State) : Bool :=
  let m := s.at 0x22 0 3
  decide (m = 2) || (decide (m = 1) && s.ports.hsp.headset)
/-- One headphone channel. -/
def HspG.phone (g : HspG) (k : Nat) : SlotSt := Cells.get SlotSt.reset g.phones k
/-- Both headphone channels changed. -/
def HspG.eachPhone (g : HspG) (f : SlotSt → SlotSt) : HspG :=
  { g with phones := [0, 1].foldl (fun c k => Cells.upd SlotSt.reset c k f) g.phones }

/-- The microphone channel's samples below a stamp: the codec's samples are free values for types 2 and 3 (log entry 3), exact zero for the
others (R231). -/
def State.micAdvance (s : State) (upTo : Nat) : State :=
  (List.range (upTo - s.ports.hsp.next)).foldl (fun s _ =>
    let g := s.ports.hsp
    let n := g.next
    let (v, s1) := if g.headset then
        let (k, s') := s.takeFree; (s32ToE48 (satS 32 (Config.freeInt k)), s') else (0, s)
    let (st, y) := g.mic.sample v n s.tzc s.lramp
    (s1.putRx micRef n y).setHsp (fun g => { g with mic := st, next := n + 1 })) s

/-- R44: the range change of the headphones: a word 0 or 1 as gain 0 or unity, on the zero crossings of the left channel. -/
def rangeGain (r : Nat) : Int := if r = 1 then unity else 0

/-- The headphone channels' exits below an exit MCC: the output stage's samples through the channels' mutes, and the range (R230). -/
def State.phonesAdvance (s : State) (upTo : Nat) : State :=
  (List.range (upTo - s.ports.hsp.outNext)).foldl (fun s _ =>
    let n := s.ports.hsp.outNext
    let v := fun k => toS 32 (wrapU 32 (s.portAt (micRef + k) n))
    s.setHsp (fun g =>
      let (l, yl) := (g.phone 0).sample (v 0) n s.tzc s.lramp
      let (r, yr) := (g.phone 1).sample (v 1) n s.tzc s.lramp
      -- the range is analogue: it changes whole at the crossing, or when the time without one is over
      let z := g.range.sample yl n s.tzc 1
      { g with phones := Cells.put SlotSt.reset (Cells.put SlotSt.reset g.phones 0 l) 1 r, left := yl, right := yr
               range := z, outNext := n + 1 })) s

/-- A committed hsp.hp.range. -/
def State.hspRange (s : State) (r : Nat) : State :=
  (s.phonesAdvance s.mcc).setHsp (fun g => { g with range := g.range.commit s.mcc (rangeGain r) })

/-- A committed hsp.detect (R230): off, the port is treated as type 1, with the drivers on and the headphones unmuted; on, it waits for
an insertion. -/
def State.hspDetect (s : State) (on : Bool) : State :=
  let s1 := (s.phonesAdvance s.mcc).micAdvance s.mcc
  if on then s1.setHsp (fun g => { g.eachPhone (fun x => x.mute s.mcc) with
    type := 0, inserted := false, leaving := none, mic := SlotSt.reset, pressed := none, touch := false, buttons := 0
    drivers := false, bias := false })
  else s1.setHsp (fun g => { g.eachPhone (fun x => { x.start s.mcc with held := 0 }) with
    type := 1, inserted := true, leaving := none, mic := SlotSt.reset, pressed := none, touch := false, buttons := 0, drivers := true
    bias := decide (s.at 0x22 0 3 = 2) })

/-- A committed hsp.mic.bias. -/
def State.hspBiasSet (s : State) : State := s.setHsp (fun g => { g with bias := s.hspBias && g.inserted })

/-- R431: the port's type and buttons enter the input record. -/
def State.hspNote (s : State) : State := s.note (.hsp s.ports.hsp.type s.ports.hsp.buttons)

/-- HSP_INSERTION: the detect contact has been closed for 50 ms (R230). -/
def execHspInsertion (s : State) : Host.Outcome State Fault Refusal :=
  if s.on 0x22 0 0 ∧ !s.ports.hsp.inserted ∧ bit s.power.domains 7 then
    let s1 := (s.phonesAdvance s.mcc).micAdvance s.mcc
    .next (s1.setHsp (fun g => { g.eachPhone (fun _ => SlotSt.reset) with inserted := true, mic := SlotSt.reset }))
  else .next s

/-- R231: the type from the loads on tip and ring 1 (ohms) and the line voltage (mV) with bias on ring 2 and on the sleeve. A line load lies over
5 kΩ on both. -/
def hspClass (tip ring1 ring2 sleeve : Nat) : Nat :=
  let micLine := fun v => decide (900 ≤ v) && decide (v ≤ 2200)
  if 5000 < tip ∧ 5000 < ring1 then 4 else if micLine ring2 then 2 else if micLine sleeve then 3 else 1

/-- HSP_PLUG: the measurement completes (R230, R231). -/
def execHspPlug (tip ring1 ring2 sleeve : Nat) (s : State) : Host.Outcome State Fault Refusal :=
  let g := s.ports.hsp
  if s.on 0x22 0 0 ∧ g.inserted ∧ g.leaving.isNone ∧ g.type = 0 ∧ bit s.power.domains 7 then
    let t := hspClass tip ring1 ring2 sleeve
    let s1 := (s.phonesAdvance s.mcc).micAdvance s.mcc
    let s2 := s1.setHsp (fun g => { g.eachPhone (fun x => { x.start s.mcc with held := 0 }) with
      type := t, drivers := true
      mic := if t = 2 ∨ t = 3 then { SlotSt.reset with z := Zc.at unity } else SlotSt.reset })
    .next (s2.hspBiasSet.raise .hspPlug s.hspOwner 0 t).hspNote
  else .next s

/-- HSP_BUTTON_DOWN: the line falls below 0.90 V with bias on (R233). -/
def execHspButtonDown (s : State) : Host.Outcome State Fault Refusal :=
  let g := s.ports.hsp
  if g.inserted ∧ g.leaving.isNone ∧ g.bias ∧ !g.touch then
    .next ((s.micAdvance s.mcc).setHsp (fun g => { g with touch := true, mic := g.mic.fadeOut }))
  else .next s

/-- R233: the band of a line voltage in mV: 0 A, 1 B, 2 C, none at 0.90 V and above. -/
def buttonOf (mv : Nat) : Option Nat :=
  if mv < 120 then some 0 else if mv < 360 then some 1 else if mv < 900 then some 2 else none

/-- HSP_BUTTON_PRESS: one band has held for 20 ms (R233). -/
def execHspButtonPress (mv : Nat) (s : State) : Host.Outcome State Fault Refusal :=
  let g := s.ports.hsp
  match buttonOf mv with
  | none => .next s
  | some b =>
    if g.touch ∧ g.pressed.isNone then
      .next ((s.setHsp (fun g => { g with pressed := some b, buttons := 2 ^ b, repeats := 0 })).raise .hspButton s.hspOwner b 1).hspNote
    else .next s

/-- HSP_BUTTON_REPEAT: the button has been held for 500 ms, or 100 ms more (R233). -/
def execHspButtonRepeat (s : State) : Host.Outcome State Fault Refusal :=
  match s.ports.hsp.pressed with
  | none => .next s
  | some b =>
    if s.on 0x22 0 4 then
      .next ((s.setHsp (fun g => { g with repeats := g.repeats + 1 })).raise .hspButton s.hspOwner b 2)
    else .next s

/-- HSP_BUTTON_RELEASE: the line has stayed above 0.90 V for 20 ms (R233). -/
def execHspButtonRelease (s : State) : Host.Outcome State Fault Refusal :=
  let g := s.ports.hsp
  if g.touch then
    let s1 := (s.micAdvance s.mcc).setHsp (fun g => { g with
      touch := false, pressed := none, buttons := 0, mic := { g.mic.start s.mcc with held := 0 } })
    .next (match g.pressed with
      | some b => (s1.raise .hspButton s.hspOwner b 3).hspNote
      | none => s1)
  else .next s

/-- HSP_UNPLUG: the detect contact has been open for 2 ms: the fade of R234 runs on the exits that follow, and a press ends with no event. -/
def execHspUnplug (s : State) : Host.Outcome State Fault Refusal :=
  let g := s.ports.hsp
  if s.on 0x22 0 0 ∧ g.inserted ∧ g.leaving.isNone then
    let s1 := (s.phonesAdvance s.mcc).micAdvance s.mcc
    .next (s1.setHsp (fun g => { g.eachPhone (fun x => if x.silent s.mcc then SlotSt.reset else x.fadeOut) with
      leaving := some (s.mcc + 32), pressed := none, touch := false, buttons := 0 }))
  else .next s

/-- R234: the fade of a removal is over: drivers and bias off, type 0, EV_HSP_UNPLUG. -/
def State.hspGone (s : State) : State :=
  match s.ports.hsp.leaving with
  | none => s
  | some n =>
    if s.mcc < n then s
    else
      let s1 := (s.phonesAdvance n).micAdvance n
      ((s1.setHsp (fun g => { g.eachPhone (fun _ => SlotSt.reset) with
        type := 0, inserted := false, leaving := none, mic := SlotSt.reset, drivers := false, bias := false })).raise
        .hspUnplug s.hspOwner 0 0).hspNote

/-- HSP_MIC_GAIN_STEP: one 6 dB step towards hsp.mic.gain (R232). -/
def execHspMicGainStep (s : State) : Host.Outcome State Fault Refusal :=
  let t := s.at 0x22 0 2
  let g := s.ports.hsp.gainNow
  if g = t then .next s
  else .next (s.setHsp (fun h => { h with gainNow := if g < t then g + 1 else g - 1 }))

end Sys2Proof.Machine
end

