-- ==== Sys2Proof/Machine/Upkeep.lean ====
section
/-! DEFINITION. Sys2Proof/Machine/Upkeep.lean: the control cores, throttling, the temperature warning, maintenance activities and power
domains (R412–R422). -/
namespace Sys2Proof.Machine

open Fmt

/-! ### Control cores (R412, R413) -/

/-- Whether the control cores run: from BOOT on, and not halted or restarting. -/
def State.coresRun (s : State) : Bool :=
  (decide (s.dev = .boot) || s.live) && !s.fault.stalled && !s.fault.halted

/-- Whether an MCC value lies within the last `sec` seconds. -/
def State.within (s : State) (sec t : Nat) : Bool := decide (s.mcc < t + sec * s.fs)

/-- CC_ROLLBACK: the cores disagree, undo to the checkpoint and go on; the event carries the program address (R412). A second mismatch
before the rolled-back interval has run through again is a restart instead (R413). -/
def execCcRollback (addr : Nat) (s : State) : Host.Outcome State Fault Refusal :=
  if !s.coresRun ∨ s.fault.interval then .next s
  else
    .next ((s.setFault (fun f => { f with
      rollbacks := f.rollbacks + 1, interval := true
      rollTimes := (s.mcc :: f.rollTimes).filter (s.within 1) })).raiseD .ccRollback 0 0 [addr % 2 ^ 32])

/-- CC_CHECKPOINT: an interval has run through and a checkpoint is taken (R412). -/
def execCcCheckpoint (s : State) : Host.Outcome State Fault Refusal :=
  if s.coresRun then .next (s.setFault (fun f => { f with checkpoint := f.checkpoint + 1, interval := false })) else .next s

/-- R413: the firmware restarts; the third restart within 60 s halts the cores, a fault outside the boundary (R443). -/
def State.restart (s : State) (cause : Nat) : State :=
  let recent := (s.mcc :: s.fault.restartAt).filter (s.within 60)
  let halt := decide (3 ≤ recent.length)
  let s1 := (s.setFault (fun f => { f with
    restarts := f.restarts + 1, restartAt := recent, stalled := !halt, halted := halt, interval := false, rollTimes := [] })).raise
      .ccRestart 0 0 (if halt then 5 else cause)
  if halt then s1.outside else s1

/-- CC_RESTART: the firmware restarts: 1 a second mismatch in the rolled-back interval, 2 three rollbacks within 1 s, 4 a firmware slot
switch (R413, R366). -/
def execCcRestart (cause : Nat) (s : State) : Host.Outcome State Fault Refusal :=
  if s.coresRun ∧ ((cause = 1 ∧ s.fault.interval) ∨ (cause = 2 ∧ 3 ≤ (s.fault.rollTimes.filter (s.within 1)).length) ∨
      (cause = 4 ∧ s.fw.pending.isSome)) then .next (s.restart cause)
  else .next s

/-- CC_WATCHDOG_EXPIRY: the watchdog has not been served for 100 ms (R413). -/
def execCcWatchdogExpiry (s : State) : Host.Outcome State Fault Refusal :=
  if s.coresRun then .next (s.restart 3) else .next s

/-! ### Throttling and temperature (R414–R416) -/

/-- The floor of a throttled clock, percent of nominal. -/
def floorPct (mere : Bool) : Nat := if mere then 85 else 75

/-- One throttle. -/
def FaultG.throttle (f : FaultG) (mere : Bool) : Throttle := if mere then f.mere else f.tarn
/-- One throttle changed. -/
def State.setThrottle (s : State) (mere : Bool) (t : Throttle) : State :=
  s.setFault (fun f => if mere then { f with mere := t } else { f with tarn := t })

/-- DROOP_REPORT: a monitor reports a droop: the clock goes to its floor at once (R414). Object 0 is VDD_TARN, 1 VDD_MERE. -/
def execDroopReport (mere : Bool) (s : State) : Host.Outcome State Fault Refusal :=
  if !(if mere then s.mereOn else s.tarnOn) then .next s
  else
    let t := s.fault.throttle mere
    let s1 := s.setThrottle mere { pct := floorPct mere, report := true }
    if t.pct = 100 then
      .next ((s1.setFault (fun f => { f with episodes := f.episodes + 1 })).raise .throttle 0 (b2n mere) 0)
    else .next s1

/-- THROTTLE_STEP: a block period of a throttled domain ends: without a report in it the clock rises by 5 % of nominal (R414). -/
def execThrottleStep (mere : Bool) (s : State) : Host.Outcome State Fault Refusal :=
  let t := s.fault.throttle mere
  if 100 ≤ t.pct then .next s
  else if t.report then .next (s.setThrottle mere { t with report := false })
  else
    let p := min 100 (t.pct + 5)
    let s1 := s.setThrottle mere { pct := p, report := false }
    .next (if p = 100 then s1.raise .throttleEnd 0 (b2n mere) 0 else s1)

/-- The level of EV_TEMP_WARN in °C (R416). -/
def tempLimit : Int := if Config.industrial then 110 else 100

/-- TEMP_WARN: a reading of the junction temperature (R416). -/
def execTempWarn (celsius : Int) (s : State) : Host.Outcome State Fault Refusal :=
  if tempLimit < celsius ∧ !s.fault.warm then .next ((s.setFault (fun f => { f with warm := true })).raise .tempWarn 0 0 0)
  else if celsius + 5 ≤ tempLimit then .next (s.setFault (fun f => { f with warm := false }))
  else .next s

/-! ### Maintenance (R419–R421) -/

/-- R420: every stream on a NET port has its other leg receiving or sending. -/
def State.legsElsewhere (s : State) (port : Nat) : Bool :=
  (List.range 256).all (fun i =>
    let rx := s.rxStream i
    let tx := s.txStream i
    let other := fun (cls leg : Nat) => let p := s.legPort cls i (1 - leg); decide (p ≠ 0xFF) && decide (p ≠ port) && s.linkUp p
    (List.range 2).all (fun leg =>
      (!rx.running || decide (s.legPort 0x35 i leg ≠ port) || (other 0x35 leg && (if leg = 0 then rx.legB else rx.legA)))
      && (!tx.running || decide (s.legPort 0x36 i leg ≠ port) || other 0x36 leg)))

/-- What a request for an activity must satisfy before it may queue (R419, R420); 0 for none. -/
def State.maintErr (s : State) (code target : Nat) : Nat :=
  match code with
  | 1 => if 17 ≤ target then Err.range
         else if (s.eng target).st = .active ∨ (s.eng target).st = .legacy then
           (if s.spare?.isSome then Err.ok else Err.state) else Err.state
  | 2 => if s.tarn.modules.any (fun m => m.id = target) ∨ target < s.cap.slots then Err.ok else Err.state
  | 3 => if target < 30 then Err.ok else Err.range
  | 4 => if 4 ≤ target then Err.range else if s.legsElsewhere target then Err.ok else Err.state
  | 6 => if s.power.straps.twinEn then Err.ok else Err.state
  | _ => Err.range

/-- What the grant of the token starts (R298, R420): a calibration takes the selected reference, a recalibration takes its port
down. -/
def State.maintBegin (s : State) : State :=
  match s.fault.holder with
  | none => s
  | some m =>
    match m.code with
    | 4 => if s.linkUp m.target then s.linkLost m.target else s
    | 5 => s.fwSwitchBegin m.target m.defer
    | 6 => s.setTwin (fun t => { t with resync := 1 })
    | 7 => if s.cku.st = .locked then s.setCku (fun c => { c with cal := some c.sel }) else s.maintEnd
    | _ => s

/-- MAINT_REQUEST (R419). -/
def execMaintRequest (r : Req) (code target : Nat) (noWait : Bool) (s : State) : Host.Outcome State Fault Refusal :=
  .next (s.serve r 0x0603 0 (fun x s =>
    let e := s.maintErr code target
    if e ≠ Err.ok then (s, Ans.fail e)
    else
      let (s1, e1) := s.maintAsk { code := code, target := target, sid := x.sid } noWait
      if e1 ≠ Err.ok then (s1, Ans.fail e1)
      else (if s1.maintOn code ∧ s.fault.holder.isNone then s1.maintBegin else s1, Ans.good [])))

/-- MAINT_STATUS: the holder, then the queue: code, target and session of each (R419). -/
def execMaintStatus (r : Req) (s : State) : Host.Outcome State Fault Refusal :=
  .next (s.serveRead r 0x0604 2 (fun _ s =>
    let w := fun (m : Maint) => [m.code, m.target, m.sid]
    Ans.good [.words ((s.fault.holder.elim [0, 0, 0] w) ++ s.fault.queue.flatMap w)]))

/-- MAINT_GRANT: the token passes to the request that has waited longest (R419). -/
def execMaintGrant (s : State) : Host.Outcome State Fault Refusal :=
  match s.fault.holder, s.fault.queue with
  | none, m :: rest => .next (((s.setFault (fun f => { f with queue := rest })).maintStart m).maintBegin)
  | _, _ => .next s

/-- MAINT_ACTIVITY_END: the activity that holds the token ends; `ok` is the result of its test (R420). The firmware slot switch ends with
its restart and the recalibration of the DCO with CKU_CAL_DONE. -/
def execMaintActivityEnd (ok : Bool) (s : State) : Host.Outcome State Fault Refusal :=
  match s.fault.holder with
  | none => .next s
  | some m =>
    match m.code with
    | 1 =>
      let x := s.eng m.target
      if x.st ≠ .retired then .next s.maintEnd
      else if ok then .next ((s.setEng m.target { x with st := .spare }).maintEnd)
      else .next ((s.setFault (fun f => { f with retired := f.retired + 1 })).maintEnd)
    | 3 => .next ((if ok then s else s.setFab (fun g => { g with evacuated := m.target :: g.evacuated })).maintEnd)
    | 4 =>
      let s1 := if s.netOn ∧ s.on 0x30 m.target 0 ∧ !s.linkUp m.target then s.linkBack m.target else s
      .next s1.maintEnd
    | 5 => .next s
    | 7 => .next s
    | _ => .next s.maintEnd

/-! ### Power domains (R417, R418) -/

/-- A decimator channel as its power domain finds it: cleared, with the committed dc.enable and dc.freeze (R247). -/
def State.freshDec (s : State) (i : Nat) : DecCh := { DecCh.reset with dcX := Cf.at [s.at 0x24 i 3], frozen := s.on 0x24 i 5 }

/-- R394, R418: a power domain is powered down: every reset group in it is reset, and its memories lose their contents. -/
def State.clearDomain (s : State) (d : Nat) : State :=
  match d with
  | 0 => s.setFab (fun g => { g with dram := [] })
  | 1 => { s.setNet (fun _ => NetG.reset) with audio := { s.audio with rx := s.audio.rx.filter (fun c => refType (c.1 / 2 ^ 64 % 2 ^ 32) ≠ 4) } }
  | 3 => { s with ports := { PortG.reset with hsp := s.ports.hsp } }
  | 4 => { s with conv := { ConvG.reset with
      count := s.conv.count, dec := (List.range 64).foldl (fun c i => Cells.put DecCh.reset c i (s.freshDec i)) [] } }
  | 5 => { s with spring := { SpringG.reset with
      n := s.spring.n, phase := s.spring.phase, pend := s.spring.pend.filter (fun q => decide (hCls q.1 = 0x24)), slips := s.spring.slips, sat := s.spring.sat } }
  | 6 => s.setTwin (fun t => { t with peer := none, paths := 0, record := none, closing := [], forward := [] })
  | 7 => { s with ports := { s.ports with hsp := { HspG.reset with next := s.mcc, outNext := s.mcc } } }
  | _ => s

/-- R418: a committed change of a domain's field at its commit sample: a switch-off isolates the domain at once, and without PD_NET the CKU treats
REF4 as lost (R20). -/
def State.pdCommit (s : State) (d c : Nat) (on : Bool) : State :=
  let s1 := s.setFault (fun f => { f with pdPending := f.pdPending.filter (fun q => q.1 ≠ d) ++ [(d, c, on)] })
  if on then s1 else ({ s1 with power := { s1.power with domains := setBit s1.power.domains d false } }).netDown

/-- R230: the headset port powered with hsp.detect at 0 is treated as type 1. -/
def State.hspPowered (s : State) (d : Nat) : State := if d = 7 ∧ s.at 0x22 0 0 = 0 then s.hspDetect false else s

/-- R376, R394: the master that a domain's reset groups hold drains: the network DMA of PD_NET, the twin link of PD_TWIN. -/
def State.drainDomain (s : State) (d : Nat) : State := if d = 1 then s.drain 21 else if d = 6 then s.drain 23 else s

/-- PD_SWITCH_DONE: a committed switch of a domain completes (R418), and resets the reset groups inside it (R394). -/
def execPdSwitchDone (d : Nat) (s : State) : Host.Outcome State Fault Refusal :=
  match s.fault.pdPending.find? (fun q => q.1 = d) with
  | none => .next s
  | some (_, _, on) =>
    let s1 := s.setFault (fun f => { f with pdPending := f.pdPending.filter (fun q => q.1 ≠ d) })
    let s2 := { s1 with power := { s1.power with domains := setBit s1.power.domains d on } }
    .next ((if on then s2.hspPowered d else ((s2.drainDomain d).clearDomain d).netDown).raise .pdSwitch 0 d (b2n on))

end Sys2Proof.Machine
end

