-- ==== Sys2Proof/Machine/Vcp.lean ====
section
/-! DEFINITION. Sys2Proof/Machine/Vcp.lean: messages as they arrive: authentication, reassembly, body form (R304–R306, R309–R315,
R320). -/
namespace Sys2Proof.Machine

open Fmt

/-- A change of the sessions' group. -/
def State.setVcp (s : State) (f : VcpG → VcpG) : State := { s with vcp := f s.vcp }

/-! ### Failed authentication (R313) -/

/-- R313: what counts as one source: a UDP address whatever the port, or a mailbox channel. -/
def Origin.source : Origin → Origin
  | .udp a _ => .udp a 0
  | .mbx c => .mbx c

/-- Transport codes of SUMMARY and EV_AUTH_FAIL: 0 UDP, 1 mailbox, 2 SPI. -/
def Origin.transport : Origin → Nat
  | .udp _ _ => 0
  | .mbx c => if c = 7 then 2 else 1

/-- R313, R329: EV_AUTH_FAIL with the transport and source; a UDP address takes a detail entry. -/
def State.authEvent (s : State) (o : Origin) : State :=
  match o with
  | .udp a _ => s.raiseD .authFail 0 0 [0, a]
  | .mbx c => s.raise .authFail 0 o.transport c

/-- R313: a request whose tag fails is discarded; the eighth failure of a source within 10 s makes the device ignore it. -/
def State.authFails (s0 : State) (o : Origin) : State :=
  let s := s0.freeChannel o
  let src := o.source
  let fails := (src, s.mcc) :: s.vcp.fails.filter (fun q => s.within 10 q.2)
  let full := decide (8 ≤ (fails.filter (fun q => decide (q.1 = src))).length)
  (s.setVcp (fun v => { v with
    authFail := satInc v.authFail 1
    fails := if full then fails.filter (fun q => decide (q.1 ≠ src)) else fails
    blocked := if full then src :: v.blocked else v.blocked })).authEvent o

/-- AUTH_BLOCK_EXPIRY: 10 s have passed: the device listens to a source again (R313). -/
def execAuthBlockExpiry (o : Origin) (s : State) : Host.Outcome State Fault Refusal :=
  .next (s.setVcp (fun v => { v with blocked := v.blocked.filter (fun q => decide (q ≠ o.source)) }))

/-! ### Replies outside a session (R312) -/

/-- The secret of a credential; credential 0 has 32 zero bytes (R357). -/
def State.secretOf (s : State) (id : Nat) : Option (List Nat) :=
  if id = 0 then some (List.replicate 32 0) else (s.sec.creds.find? (fun c => decide (c.id = id))).map (·.secret)

/-- A reply to SESSION_OPEN, unencrypted under a key, to where it came from. -/
def State.openReply (s : State) (o : Origin) (key : List Nat) (rep : Reply) : State :=
  s.sendTo o { enc := false, ks := key, ke := [], salt := [] } rep

/-- A SESSION_OPEN that fails, in session 0 and under the credential's secret. -/
def State.openFail (s : State) (o : Origin) (key : List Nat) (seq e : Nat) : State :=
  s.openReply o key { sid := 0, seq := seq, cmd := 0x0001, status := e, detail := 0, items := [] }

/-! ### Whole messages -/

/-- R305, R306: most bytes of a request's body. -/
def requestMax : Nat := 32736

/-- A whole authenticated request: refused for its header or body, or kept for its command's own row to serve it. -/
def State.deliver (s : State) (o : Origin) (h : Header) (err : Nat) (body : List Nat) : State :=
  let s1 := s.updSession h.sid (fun x => { x with origin := o, heard := s.mcc })
  let r : Req := { sid := h.sid, seq := h.seq }
  let bad := if err ≠ 0 then err
    else if requestMax < body.length ∨ badBody body ∨ (askOf r h.cmd body).isNone then Err.format else 0
  if bad ≠ 0 then s1.serve r h.cmd 3 (fun _ s => (s, Ans.fail bad))
  else s1.setVcp (fun v => { v with inbox := v.inbox ++ [{ origin := o, sid := h.sid, seq := h.seq, cmd := h.cmd, body := body }] })

/-- A fragment of a message that has arrived. -/
def Partial.frag (p : Partial) (i : Nat) : Option (List Nat) := (p.frags.find? (fun f => decide (f.1 = i))).map (·.2)

/-- R305: all fragments of a message from 0 to the last, in order; none while one is missing. -/
def Partial.whole (p : Partial) : Option (List Nat) :=
  p.last.bind (fun n => ((List.range (n + 1)).mapM p.frag).map List.flatten)

/-- R305: an authenticated fragment joins its message; the fifth incomplete message of a session is not taken up. -/
def State.fragment (s : State) (o : Origin) (h : Header) (err : Nat) (body : List Nat) : State :=
  let mine := fun (p : Partial) => decide (p.sid = h.sid) && decide (p.seq = h.seq)
  let old := s.vcp.partials.find? mine
  if old.isNone ∧ 4 ≤ (s.vcp.partials.filter (fun p => decide (p.sid = h.sid))).length then s
  else
    let p0 : Partial := old.getD { origin := o, sid := h.sid, seq := h.seq, frags := [], last := none }
    let p := { p0 with
      frags := p0.frags.filter (fun (f : Nat × List Nat) => decide (f.1 ≠ h.frag)) ++ [(h.frag, body)]
      last := if h.more then p0.last else some h.frag }
    let rest := s.vcp.partials.filter (fun q => !mine q)
    match p.whole with
    | some b => (s.setVcp (fun v => { v with partials := rest })).deliver o h err b
    | none => s.setVcp (fun v => { v with partials := rest ++ [p] })

/-- SESSION_OPEN as it arrives, in session 0 (R312, R313): its tag must hold under the secret of the credential it names. -/
def State.arriveOpen (s : State) (o : Origin) (h : Header) (b : List Nat) : State :=
  let body := slice b 16 (b.length - 32)
  let id := (itemOf 0x0007 body).map (fun v => ofBE (slice v 0 2))
  match id.bind s.secretOf with
  | none => s.authFails o
  | some key =>
    if h.cmd ≠ 0x0001 ∨ h.enc ∨ tagOf key (b.take (b.length - 16)) ≠ b.drop (b.length - 16) then s.authFails o
    else
      let err := headerError b h
      if err ≠ 0 then s.openFail o key h.seq err
      else if badBody body ∨ h.more ∨ h.frag ≠ 0 ∨ (openOf body).isNone then
        s.openFail o key h.seq Err.format
      else s.setVcp (fun v => { v with inbox := v.inbox ++ [{ origin := o, sid := 0, seq := h.seq, cmd := h.cmd, body := body }] })

/-- R310, R318: a session's requests come over the transport it was opened on. -/
def Session.sameWay (x : Session) (o : Origin) : Bool :=
  match x.origin, o with
  | .udp _ _, .udp _ _ => true
  | .mbx a, .mbx b => decide (a = b)
  | _, _ => false

/-- A message in a session (R313–R315): a tag that fails, a session that does not exist or an encrypted flag that is not the session's
fails authentication. -/
def State.arriveIn (s : State) (o : Origin) (h : Header) (b : List Nat) : State :=
  match s.session? h.sid with
  | none => s.authFails o
  | some x =>
    match (if x.sameWay o then openMsg x.enc x.ks x.ke x.salt h b else none) with
    | none => s.authFails o
    | some body =>
      let err := headerError b h
      match o with
      | .mbx _ => s.deliver o h (if err = 0 ∧ (h.more ∨ h.frag ≠ 0) then Err.format else err) body
      | .udp _ _ =>
        if err ≠ 0 ∨ 1440 < body.length then s.deliver o h (if err = 0 then Err.format else err) body
        else if h.more ∨ h.frag ≠ 0 then s.fragment o h err body
        else s.deliver o h err body

/-- The control cores take a datagram or a mailbox request. Bytes without the magic are no VCP message. -/
def State.hear (s : State) (o : Origin) (b : List Nat) : State :=
  if s.vcp.blocked.contains o.source then s.freeChannel o
  else
    match Header.parse b with
    | none => s.freeChannel o
    | some h => if h.sid = 0 then s.arriveOpen o h b else s.arriveIn o h b

/-- A datagram within the limit of R254 is heard, or, while the control cores restart, held with up to 255 others device-wide (R320). -/
def State.datagram (s : State) (o : Origin) (bytes : List Nat) : State :=
  if s.serves then s.hear o bytes
  else if s.vcp.held.length < 256 then s.setVcp (fun v => { v with held := v.held ++ [(o, bytes)] })
  else s

/-- VCP_FRAGMENT: a datagram on port 4870 at the address of an enabled NET port (R305, R309), which takes its bytes from that port's limit or,
beyond it, is discarded (R254). -/
def execVcpFragment (o : Origin) (bytes : List Nat) (s : State) : Host.Outcome State Fault Refusal :=
  match o with
  | .mbx _ => .next s
  | .udp a _ =>
    match s.portFrom a with
    | none => .next s
    | some n =>
      if !s.live ∨ !s.netOn then .next s
      else if !s.ctlFree n 0 then .next (s.dropFrame n)
      else .next ((s.ctlPay n 0 (bytes.length + 70)).datagram o bytes)

/-- REASSEMBLY_TIMEOUT: a message still incomplete 100 ms after its first fragment is discarded (R305). -/
def execReassemblyTimeout (o : Origin) (sid seq : Nat) (s : State) : Host.Outcome State Fault Refusal :=
  .next (s.setVcp (fun v => { v with
    partials := v.partials.filter (fun p => !(decide (p.origin.source = o.source) && decide (p.sid = sid) && decide (p.seq = seq))) }))

/-! ### The mailbox as the control cores see it (R310) -/

/-- Base of a channel's window in BAR2. -/
def mbxBase (c : Nat) : Nat := c * 0x20000

/-- R310: the request of some length in a channel's buffer is processed. -/
def State.mbxTake (s : State) (c len : Nat) : State := s.hear (.mbx c) (s.vcp.mbx.readAll (mbxBase c) (min len 0x8000))

/-- R320, R255: after a stall, what the network ports and the mailbox held is processed, and firmware's answers leave. -/
def State.release (s : State) : State :=
  let s0 := s.payOwed
  let s1 := s0.vcp.held.foldl (fun s (q : Origin × List Nat) => s.hear q.1 q.2) (s0.setVcp (fun v => { v with held := [] }))
  (List.range 8).foldl (fun s c =>
    match (s.channel c).wait with
    | some len => (s.updChannel c (fun ch => { ch with wait := none })).mbxTake c len
    | none => s) s1

end Sys2Proof.Machine
end

