-- ==== Sys2Proof/Machine/Reg.lean ====
section
/-! DEFINITION. Sys2Proof/Machine/Reg.lean: the direct registers on BAR0 and host SPI, the mailbox registers, native SPI frames (R310,
R311, R334, R335). -/
namespace Sys2Proof.Machine

open Fmt

/-- R335: the direct registers respond from the start of BOOT. -/
def State.regsOn (s : State) : Bool := decide (s.dev = .boot) || s.live

/-! ### Mailbox channels -/

/-- The session on a mailbox channel. -/
def State.sessionOn (s : State) (c : Nat) : Option Session := s.vcp.sessions.find? (fun x => decide (x.origin = .mbx c))

/-- A write of MBX_REQ: ignored with overrun while busy; else the request is taken, or held while the control cores restart (R310,
R320). Counts of an image fed over channel 0 are PCIE_IMAGE_CHUNK's (R345). -/
def State.mbxReq (s : State) (c len : Nat) : State :=
  let ch := s.channel c
  if s.boot.waitPcie ∧ c = 0 then s
  else if ch.busy then s.updChannel c (fun x => { x with overrun := true })
  else
    let s1 := s.updChannel c (fun x => { x with busy := true, ready := false, overrun := false })
    if s.serves then s1.mbxTake c (len % 2 ^ 17) else s1.updChannel c (fun x => { x with wait := some (len % 2 ^ 17) })

/-- MBX_REQ_WRITE: host software starts a request over the mailbox (R310). -/
def execMbxReqWrite (c len : Nat) (s : State) : Host.Outcome State Fault Refusal :=
  .next (if s.regsOn ∧ c < 8 then s.mbxReq c len else s)

/-- MBX_REPLY: the reply is written, MBX_RLEN set, busy cleared, reply_ready set, EV_MBX_REPLY raised (R310). -/
def execMbxReply (c : Nat) (s : State) : Host.Outcome State Fault Refusal :=
  match (s.channel c).busy, (s.channel c).reply with
  | true, some b =>
    .next (((s.updChannel c (fun x => { x with busy := false, ready := true, rlen := b.length, reply := none })).setVcp
      (fun v => { v with mbx := v.mbx.writeAll (mbxBase c + 0x8000) b })).raise .mbxReply 0 c 0)
  | _, _ => .next s

/-- R332, R333: records leave a session's queue. -/
def Session.leave (x : Session) (seqs : List Nat) (mcc : Nat) : Session :=
  ({ x with queue := x.queue.filter (fun q => !seqs.contains q.seq) }).refill mcc

/-- A change of a session's queue; a fresh overflow record that it takes is an occurrence of EV_QUEUE_OVERFLOW (R332, R334). -/
def State.updQueue (s : State) (sid : Nat) (f : Session → Session) : State :=
  let s1 := s.updSession sid f
  if (s.session? sid).any (fun x => decide ((f x).nextEv ≠ x.nextEv)) then
    s1.setEv (fun e => { e with stat := setBit e.stat Ev.queueOverflow.id true })
  else s1

/-- A write of MBX_EVR: the records it passes leave the queue (R333). -/
def State.mbxEvr (s : State) (c v : Nat) : State :=
  let k := (v % 2048 + 2048 - (s.channel c).evr) % 2048
  let s1 := s.updChannel c (fun x => { x with evr := v % 2048 })
  match s1.sessionOn c with
  | some x => s1.updQueue x.sid (fun y => { y.leave (y.ring.take k) s.mcc with ring := y.ring.drop k })
  | none => s1

/-- MBX_EVR_WRITE: host software has read its event ring up to an index (R333). -/
def execMbxEvrWrite (c value : Nat) (s : State) : Host.Outcome State Fault Refusal :=
  .next (if s.regsOn ∧ c < 8 then s.mbxEvr c value else s)

/-! ### Reads -/

/-- DEV_STATE (R335). -/
def State.devState (s : State) : Nat :=
  s.dev.code + s.twin.role.code * 8 + s.sec.life.code * 64 + s.power.straps.mode * 256 + s.fam % 2 * 1024 + s.prof % 4 * 2048
    + s.shape % 4 * 8192 + b2n (decide (s.cku.st = .locked)) * 32768 + b2n (decide (s.net.mcc = 2)) * 65536
    + min 8 s.vcp.sessions.length * 2 ^ 17

/-- DEV_ID (R335). -/
def devId : Nat := 0x15360000 + (if Config.industrial then 2 else 1) * 256 + Config.stepping % 256

/-- STRAPS (R335). -/
def Straps.word (x : Straps) : Nat := x.mode + x.boot * 4 + b2n x.twinEn * 16 + b2n x.pairId * 32

/-- BOOT_STATUS (R335). -/
def BootG.status (b : BootG) : Nat := b.stage % 256 + b.error % 256 * 256 + b2n b.slotUsed * 65536 + b2n b.fallback * 131072

/-- FAULT_SUM (R335). -/
def State.faultSum (s : State) : Nat :=
  b2n s.fault.exhausted + 2 * b2n s.fault.uncorrected
    + 4 * b2n (decide (s.fault.tarn.pct < 100) || decide (s.fault.mere.pct < 100))
    + 8 * b2n s.fault.holder.isSome + 16 * b2n s.sec.wiped

/-- The legacy INT_N condition, which IRQ0_N carries in the legacy modes (R334). -/
def State.legInt (s : State) : Bool := decide (s.legacy.status &&& legGet s.legacy.live 0x7F01 ≠ 0)

/-- IRQ_PEND (R334, R335). -/
def State.irqPend (s : State) : Nat :=
  (List.range 8).foldl (fun a n =>
    setBit a n (if n = 0 ∧ s.cap.legacy then s.legInt else s.ev.pin s.cap.legacy n)) 0

/-- The register of a mailbox channel at offset 4 × k of its block. -/
def State.mbxReg (s : State) (c k : Nat) : Nat :=
  let ch := s.channel c
  match k with
  | 1 => b2n ch.busy + 2 * b2n ch.ready + 4 * b2n ch.overrun + 8 * b2n (s.sessionOn c).isSome
  | 2 => ch.rlen
  | 3 => ch.evw
  | 4 => ch.evr
  | _ => 0

/-- R311: whether a transport reaches the registers of a channel: SPI channel 7, PCIe the others. -/
def reaches (spi : Bool) (c : Nat) : Bool := if spi then decide (c = 7) else decide (c < 7)

/-- The value of a direct register; offsets that name none read 0 (R335). -/
def State.regVal (s : State) (spi : Bool) (off : Nat) : Nat :=
  match off with
  | 0x00 => devId
  | 0x04 => s.devState
  | 0x08 => s.power.straps.word
  | 0x0C => s.boot.status
  | 0x10 => s.mcc % 2 ^ 32
  | 0x14 => s.ev.mccHi
  | 0x18 => s.scene.gen % 2 ^ 32
  | 0x1C => s.ev.genHi
  | 0x20 => s.ev.scratch
  | 0x24 => b2n s.ev.msiEn
  | 0x28 => s.fw.version
  | 0x2C => s.faultSum
  | 0x300 => s.irqPend
  | _ =>
    if 0x100 ≤ off ∧ off < 0x120 then s.ev.stat / 2 ^ ((off - 0x100) * 8) % 2 ^ 32
    else if 0x200 ≤ off ∧ off < 0x280 then
      (List.range 8).foldl (fun a i => a + s.ev.mapOf ((off - 0x200) * 2 + i) * 16 ^ i) 0
    else if 0x400 ≤ off ∧ off < 0x500 ∧ reaches spi ((off - 0x400) / 32) then s.mbxReg ((off - 0x400) / 32) (off % 32 / 4)
    else 0

/-- A read: MCC_LO and GEN_LO latch their high words (R335). -/
def State.regRead (s : State) (spi : Bool) (off : Nat) : Nat × State :=
  let s1 := match off with
    | 0x10 => { s with ev := { s.ev with mccHi := s.mcc / 2 ^ 32 % 2 ^ 32 } }
    | 0x18 => { s with ev := { s.ev with genHi := s.scene.gen / 2 ^ 32 % 2 ^ 32 } }
    | _ => s
  (s.regVal spi off, s1)

/-- MCC_LO_READ: the read latches MCC_HI (R335). -/
def execMccLoRead (s : State) : Host.Outcome State Fault Refusal := .next (if s.regsOn then (s.regRead false 0x10).2 else s)

/-- GEN_LO_READ: the read latches GEN_HI (R335). -/
def execGenLoRead (s : State) : Host.Outcome State Fault Refusal := .next (if s.regsOn then (s.regRead false 0x18).2 else s)

/-! ### Writes -/

/-- Bits of a word cleared by writing ones, at a word offset of a long register. -/
def clearOnes (stat k mask : Nat) : Nat :=
  (List.range 32).foldl (fun a j => if bit mask j then setBit a (32 * k + j) false else a) stat

/-- A write of EV_STATk clears the bits written 1 (R14, R334). -/
def State.evClear (s : State) (k mask : Nat) : State := s.setEv (fun e => { e with stat := clearOnes e.stat k mask })

/-- EV_STAT_CLEAR: W1C (R334). -/
def execEvStatClear (k mask : Nat) (s : State) : Host.Outcome State Fault Refusal :=
  .next (if s.regsOn ∧ k < 8 then s.evClear k mask else s)

/-- A write of IRQ_MAPk: eight map entries (R334). -/
def State.irqMapWrite (s : State) (k v : Nat) : State :=
  s.setEv (fun e => { e with
    irqMap := (List.range 8).foldl (fun m i => Cells.put 0 m (8 * k + i) (v / 16 ^ i % 16)) e.irqMap })

/-- A write to a mailbox channel's registers. -/
def State.mbxWrite (s : State) (c k v : Nat) : State :=
  match k with
  | 0 => s.mbxReq c v
  | 4 => s.mbxEvr c v
  | _ => s

/-- A write of a direct register; read-only registers and offsets that name none ignore it (R14, R335). -/
def State.regWrite (s : State) (spi : Bool) (off v : Nat) : State :=
  match off with
  | 0x20 => { s with ev := { s.ev with scratch := v % 2 ^ 32 } }
  | 0x24 => s.setEv (fun e => { e with msiEn := bit v 0 })
  | _ =>
    if 0x100 ≤ off ∧ off < 0x120 then s.evClear ((off - 0x100) / 4) v
    else if 0x200 ≤ off ∧ off < 0x280 then s.irqMapWrite ((off - 0x200) / 4) v
    else if 0x400 ≤ off ∧ off < 0x500 ∧ reaches spi ((off - 0x400) / 32) then s.mbxWrite ((off - 0x400) / 32) (off % 32 / 4) v
    else s

/-- REGISTER_WRITE: an aligned 32-bit write on BAR0 (R16, R335). -/
def execRegisterWrite (offset value : Nat) (s : State) : Host.Outcome State Fault Refusal :=
  .next (if s.regsOn then s.regWrite false (offset / 4 * 4) value else s)

/-! ### Native SPI frames (R311) -/

/-- Whether the host SPI pins carry native frames: native mode, with the registers responding. -/
def State.spiOn (s : State) : Bool := s.regsOn && decide (s.power.straps.mode = 0)

/-- Word i of a register frame that starts at an offset. -/
def frameOff (offset i : Nat) : Nat := (offset / 4 * 4 + 4 * i) % 65536

/-- SPI_REGISTER_WRITE: words to successive registers (R311). -/
def execSpiRegisterWrite (offset : Nat) (words : List Nat) (s : State) : Host.Outcome State Fault Refusal :=
  .next (if s.spiOn then words.zipIdx.foldl (fun s (q : Nat × Nat) => s.regWrite true (frameOff offset q.2) q.1) s else s)

/-- SPI_REGISTER_READ: the words of successive registers on MISO (R311). -/
def execSpiRegisterRead (offset n : Nat) (s : State) : Host.Outcome State Fault Refusal :=
  .next (if s.spiOn then
    (List.range n).foldl (fun s i =>
      let r := s.regRead true (frameOff offset i)
      { r.2 with legacy := { r.2.legacy with miso := r.2.legacy.miso ++ [r.1] } }) (s.setLeg (fun g => { g with miso := [] }))
    else s)

/-- R311: an address in BAR2 over SPI: bits [23:20] must be 0. -/
def spiAddrOk (a : Nat) : Bool := decide (a < 2 ^ 20)

/-- R311: a frame that the device ignores until HSPI_CS_N rises, driving MISO low for its n bytes. -/
def State.spiIgnore (s : State) (n : Nat) : State := s.setLeg (fun g => { g with miso := List.replicate n 0 })

/-- SPI_MAILBOX_WRITE: bytes into the mailbox windows; channel 7 is SPI's own (R310, R311). A refused frame is ignored. -/
def execSpiMailboxWrite (addr : Nat) (bytes : List Nat) (s : State) : Host.Outcome State Fault Refusal :=
  .next (if !s.spiOn then s
    else if !spiAddrOk addr then s.spiIgnore bytes.length
    else
      bytes.zipIdx.foldl (fun s (q : Nat × Nat) =>
        let a := (addr + q.2) % 2 ^ 20
        if a / 0x20000 = 7 then s.setVcp (fun v => { v with mbx := v.mbx.write a q.1 }) else s) s)

/-- SPI_MAILBOX_READ: bytes of the mailbox windows on MISO (R311). A refused frame is ignored. -/
def execSpiMailboxRead (addr n : Nat) (s : State) : Host.Outcome State Fault Refusal :=
  .next (if !s.spiOn then s
    else if !spiAddrOk addr then s.spiIgnore n
    else s.setLeg (fun g => { g with miso := (List.range n).map (fun i => s.vcp.mbx.read ((addr + i) % 2 ^ 20)) }))

/-- The native frames by command byte. -/
inductive SpiFrame where
  | regWrite | regRead | mbxWrite | mbxRead
  deriving DecidableEq, Repr

/-- R311: the frame of a command byte; none is unknown. -/
def spiFrame : Nat → Option SpiFrame
  | 0x02 => some .regWrite
  | 0x03 => some .regRead
  | 0x0A => some .mbxWrite
  | 0x0B => some .mbxRead
  | _ => none

/-- The 32-bit words of some bytes, most significant byte first. -/
def wordsOf (b : List Nat) : List Nat := (Crypto.chunks 4 b.length b).map ofBE

/-- R311: a whole native frame as its bytes come: command byte, offset or address, then data, or a turnaround byte and the clocks of what is
read. The table has a row for each known frame and none for a frame with an unknown command byte, which is ignored. -/
def State.spiBytes (s : State) (b : List Nat) : Host.Outcome State Fault Refusal :=
  match spiFrame (b.headD 0) with
  | some .regWrite => execSpiRegisterWrite (ofBE (slice b 1 2)) (wordsOf (b.drop 3)) s
  | some .regRead => execSpiRegisterRead (ofBE (slice b 1 2)) ((b.length - 4) / 4) s
  | some .mbxWrite => execSpiMailboxWrite (ofBE (slice b 1 3)) (b.drop 4) s
  | some .mbxRead => execSpiMailboxRead (ofBE (slice b 1 3)) (b.length - 5) s
  | none => .next (if s.spiOn then s.spiIgnore b.length else s)

end Sys2Proof.Machine
end

