-- ==== Sys2Proof/Machine/CheckBase.lean ====
section
/-! DEFINITION. Sys2Proof/Machine/CheckBase.lean: the check of a stage set (R112): what it judges, partitions touched (R119), and its
categories 1 to 3. -/
namespace Sys2Proof.Machine

open Fmt

/-- What a check looks at: the device, the configuration before the set and after it, the set's surviving words, the set, and its
commit sample where it has one. -/
structure Chk where
  s : State
  v : State
  w : State
  b : Body
  x : StageSet
  c : Option Nat

/-- A finding where a condition holds. -/
def findIf (p : Bool) (cat err h det : Nat) : List Finding := if p then [{ cat := cat, err := err, h := h, det := det % 2 ^ 32 }] else []

/-- Instances for which a field is listed with a value that is not its default, and the value. -/
def State.listed (w : State) (cls f : Nat) : List (Nat × Nat) :=
  w.params.filterMap (fun c => if hCls c.1 = cls ∧ hField c.1 = f then c.2.map (fun v => (hInst c.1, v)) else none)

/-- The words of a set: handle and value. -/
def Body.words (b : Body) : List (Nat × Nat) := b.params.map (fun c => (c.1, c.2.getD 0))
/-- Whether a set writes a handle. -/
def Body.writes (b : Body) (h : Nat) : Bool := (Cells.get none b.params h).isSome
/-- The words of a class that a set writes. -/
def Body.ofCls (b : Body) (cls : Nat) : List (Nat × Nat) := b.words.filter (fun e => decide (hCls e.1 = cls))

/-! ### Partitions (R119, R120) -/

/-- Owner of a port channel's port: none for streams and bridge points (R266, R472). -/
def State.refTouch (v : State) (r : Nat) : List Nat :=
  match refType r with
  | 1 => [v.sapOwner (refPort r)]
  | 2 => [v.sapOwner (refPort r)]
  | 3 => [v.madiOwner (refPort r)]
  | 5 => [v.at 0x24 (4 * refPort r + refChan r) 7]
  | 6 => [v.at 0x22 0 0x1F]
  | 0x10 => [v.at 0x24 (4 * refPort r + refChan r) 7]
  | _ => []

/-- Partition of the object that a source map word names; a direct source belongs to partition 0 (R119). -/
def State.srcTouch (v : State) (w : Nat) : Nat :=
  match w / 2 ^ 24 with
  | 1 => v.stripOwner (w % 65536)
  | 2 => v.busOwner (w % 65536)
  | 3 => v.slotOwner (w % 65536 / 8)
  | 5 => 15
  | _ => 0

/-- What a word reads: partitions of the objects it names (R119). -/
def State.wordTouch (v : State) (h w : Nat) : List Nat :=
  let n := hInst h
  let strip := fun (k : Nat) => if k < v.cap.strips then [v.stripOwner k] else []
  let bus := fun (k : Nat) => if k < v.cap.busses then [v.busOwner k] else []
  match hCls h, hField h with
  | 0x01, 0x1A => strip w
  | 0x01, 0x6B => strip w
  | 0x01, 0x70 => if w < v.cap.slots then [v.slotOwner w] else []
  | 0x02, 0x6B => strip w
  | 0x02, 0x70 => if w < v.cap.slots then [v.slotOwner w] else []
  | 0x05, 0x00 => v.refTouch w
  | 0x05, 0x01 => v.refTouch w
  | 0x06, 0x00 => v.refTouch w
  | 0x06, 0x01 => bus w
  | 0x07, 0x03 => if w < 4096 then [v.at 0x06 w 3] else []
  | 0x08, 0x00 => [v.srcTouch w]
  | 0x08, 0x01 => v.refTouch w
  | 0x09, 0x00 => [v.destOwner (if w / 2 ^ 24 = 1 ∨ w / 2 ^ 24 = 2 then w else 0)]
  | 0x10, 0x00 => v.refTouch w
  | 0x10, 0x01 => v.refTouch w
  | 0x10, 0x02 => v.refTouch w
  | 0x10, 0x03 => v.refTouch w
  | 0x11, 0x00 => if refType w = 0x11 then bus (v.at 0x12 (refChan w) 0) else v.refTouch w
  | 0x12, 0x00 => bus w
  | 0x24, 0x00 => if w = 0xFFFF then [] else [v.sapOwner (w / 256)]
  | 0x40, 0x03 => if n = 7 then [v.sapOwner w] else []
  | _, _ => []

/-- Partitions that a set writes or reads. -/
def State.partsOf (v : State) (b : Body) : List Nat :=
  (b.words.flatMap (fun e => v.ownerOf e.1 :: v.wordTouch e.1 e.2)
    ++ b.nodes.flatMap (fun n => [v.ownerOf (0x03000000 + n.1), v.srcTouch (v.srcMap (keySrc n.1))])).eraseDups

/-- The start scene's set. -/
def State.isStart (s : State) (x : StageSet) : Bool := decide (s.boot.startSet = some x.id) && decide (x.sid = 0)

/-- What is checked without categories 1 and 12: the start scene's set (R350), and the scene of a cue that the image's cue section arms,
which no session and no host stand behind (R354; log entry 201). -/
def State.ofDevice (s : State) (x : StageSet) : Bool := s.isStart x || (decide (x.id = 0) && decide (x.sid = 0))

/-- Whether the opener has the device role. -/
def State.devSet (s : State) (x : StageSet) : Bool := (s.session? x.sid).any (fun q => decide (q.role = 0))

/-! ### Categories 1 and 2, entry by entry -/

/-- R112, category 1. Partitions of other sessions pass here and must co-sign before the commit (R121; log entry 42). -/
def Chk.mayWrite (k : Chk) (p : Nat) : Bool :=
  k.s.ofDevice k.x || (k.v.cap.legacy && decide (p = 15)) ||
    (if p = 0 then k.s.devSet k.x else decide (k.s.owner p ≠ 0) || k.x.cosigned.contains p)

/-- Whether a handle names a field or a node that exists in the configuration to come (R12): any other has no owner, and category 2 refuses
it. -/
def Chk.exists? (k : Chk) (h : Nat) : Bool :=
  if hCls h = 3 then k.w.nodeIn (keyDst (h % 2 ^ 24)) (keySrc (h % 2 ^ 24)) else (fieldOf k.w.cap k.w.slotImage h).isSome

/-- The finding of category 1 for a handle. -/
def Chk.owned (k : Chk) (h : Nat) : List Finding :=
  let p := k.v.ownerOf h
  findIf (k.exists? h && !k.mayWrite p) 1 Err.owner h p

/-- R497: a map word. In the legacy modes the corner kinds are judged in category 10. -/
def mapWordOk (c : Cap) (src : Bool) (w : Nat) : Bool :=
  let kind := w / 2 ^ 24 % 256
  decide (w / 65536 % 256 = 0) &&
    (if src then decide (kind ≤ 4) || (c.legacy && decide (kind = 5)) else decide (kind ≤ 2) || (c.legacy && decide (kind = 3)))

/-- Rules on one word beyond its field's range. -/
def wordRule (h w : Nat) : Bool :=
  match hCls h, hField h with
  | 0x24, 0x00 => decide (w = 0xFFFF) || (decide (w / 256 < 16) && decide (w % 256 < 4))
  | 0x20, 0x09 => decide (bits w 3 2 ≠ 3)
  | 0x20, 0x19 => decide (bits w 3 2 ≠ 3)
  | 0x30, 0x02 => decide (w = 0) || unicastNet w
  | 0x30, 0x03 => maskOk w
  | 0x30, 0x04 => decide (w = 0) || unicastNet w
  | 0x50, 0x22 => decide (w = 0) || unicastNet w
  | _, _ => true

/-- Whether a field names an input port channel: the sides of the input patch and a direct source. An HSP input is the microphone,
channel 0 (R37). -/
def isInRef (h : Nat) : Bool := (decide (hCls h = 5) && decide (hField h < 2)) || (decide (hCls h = 8) && decide (hField h = 1))

/-- R12, R112, category 2: a parameter word. The detail is the limit violated. -/
def Chk.ranged (k : Chk) (h w : Nat) : List Finding :=
  match fieldOf k.w.cap k.w.slotImage h with
  | none => findIf true 2 Err.handle h 0
  | some f =>
    if f.ro then findIf true 2 Err.handle h 0
    else
      match f.kind with
      | .ref => findIf (!refInLimits w || (isInRef h && decide (refType w = 6) && decide (refChan w ≠ 0))) 2 Err.handle h 0
      | .srcMap => findIf (!mapWordOk k.w.cap true w) 2 Err.range h 0
      | .dstMap => findIf (!mapWordOk k.w.cap false w) 2 Err.range h 0
      | .word => findIf (!wordRule h w) 2 Err.range h 0
      | .int =>
        if f.inRange w then findIf (!wordRule h w) 2 Err.range h 0
        else findIf true 2 Err.range h (wrapU 32 (if f.num w < f.lo then f.lo else f.hi))

/-- R82, R83, category 2: a node. -/
def Chk.nodeRanged (k : Chk) (key : Nat) (t : Int) (tap : Nat) : List Finding :=
  let h := 0x03000000 + key
  if !k.w.nodeIn (keyDst key) (keySrc key) then findIf true 2 Err.handle h 0
  else if t = stgNone then findIf true 2 Err.range h 0x80000001
  else findIf (decide (3 < tap)) 2 Err.range (0x04000000 + key) 3

/-- Findings of category 2 of an entry that category 1 lets pass. -/
def orElse1 (own range : List Finding) : List Finding := if own.isEmpty then range else own

/-- Categories 1 and 2 of every entry, and the set without the entries that fail. -/
def Chk.entries (k : Chk) : List Finding × Body :=
  let ps := k.b.params.map (fun c => (c, orElse1 (k.owned c.1) (k.ranged c.1 (c.2.getD 0))))
  let ns := k.b.nodes.map (fun c =>
    (c, orElse1 (k.owned (0x03000000 + c.1)) (k.nodeRanged c.1 (c.2.getD (0, 2)).1 (c.2.getD (0, 2)).2)))
  let all := ps.flatMap (·.2) ++ ns.flatMap (·.2)
  (all.filter (fun f => decide (f.cat = 1)) ++ all.filter (fun f => decide (f.cat = 2)),
    { params := (ps.filter (fun q => q.2.isEmpty)).map (·.1), nodes := (ns.filter (fun q => q.2.isEmpty)).map (·.1) })

/-- Category 2 rules that join several words, judged for what the set writes: R71, R209, R226, R265, R279, R496 and the tables of the
PHC and the receive streams. SAP and MADI directions that the set leaves enabled are judged too: its profile, rate family or another direction's
clock may reach them. -/
def Chk.joint (k : Chk) : List Finding :=
  let w := k.w
  let insts := fun (cls : Nat) => ((k.b.ofCls cls).map (fun e => hInst e.1)).eraseDups
  let rng := fun (p : Bool) (cls n f det : Nat) => findIf p 2 Err.range (mkH cls n f) det
  let delays := [1, 2].flatMap (fun cls =>
    (w.listed cls 2 ++ w.listed cls 4).flatMap (fun q => rng (decide (w.fs < w.at cls q.1 2 + w.at cls q.1 4)) cls q.1 2 w.fs))
  let enabled := fun (cls f : Nat) => ((w.listed cls f).filter (fun q => decide (q.2 = 1))).map (·.1)
  let both := fun (cls : Nat) => (insts cls ++ enabled cls 0 ++ enabled cls 0x10).eraseDups
  let sap := (both 0x20).flatMap (fun p => [false, true].flatMap (fun tx =>
    let o := if tx then 0x10 else 0
    if !(insts 0x20).contains p && !w.on 0x20 p o then [] else
    let g := fun (f : Nat) => w.at 0x20 p (f + o)
    let c := w.sapSet p tx
    let bclk := c.rate * g 4 * g 5
    let master3 := decide (c.clock = 0) && decide (w.amclk % bclk = 0)
    rng (decide (49152000 < bclk)) 0x20 p (4 + o) 49152000
      ++ rng (decide (g 5 < g 6)) 0x20 p (6 + o) (g 5)
      ++ rng (decide (g 1 ≠ 0) && decide (g 4 ≠ 2)) 0x20 p (4 + o) 2
      ++ rng (decide (2 ^ g 4 ≤ g 0xA)) 0x20 p (0xA + o) (g 4)
      ++ rng (tx && decide (g 2 = 2)) 0x20 p (2 + o) 1
      ++ rng ((decide (g 2 = 1) || decide (g 2 = 2)) && decide (2 ≤ c.clock)) 0x20 p (7 + o) 1
      ++ rng (decide (g 2 = 3) && decide (c.clock < 2) && !master3) 0x20 p (7 + o) 2))
  let madi := (both 0x21).flatMap (fun p =>
    let mode := w.at 0x21 p 1
    let rate := w.fs / w.madiSetDiv p
    let ok := if mode = 2 then rate = 88200 ∨ rate = 96000 else rate = 44100 ∨ rate = 48000
    rng (decide (madiChans mode < w.at 0x21 p 0x12)) 0x21 p 0x12 (madiChans mode)
      ++ rng (w.on 0x21 p 0x10 && !decide ok) 0x21 p 0x11 mode)
  let net := (insts 0x30).flatMap (fun n =>
    let ip := w.at 0x30 n 2
    let m := w.at 0x30 n 3
    let gw := w.at 0x30 n 4
    rng (if ip = 0 then w.on 0x30 n 0 else !hostOk ip m) 0x30 n 2 0
      ++ rng (decide (gw ≠ 0) && (!sameNet gw ip m || !hostOk gw m)) 0x30 n 4 0)
  let phc := (insts 0x32).flatMap (fun n => rng (decide (w.at 0x32 n 3 < w.at 0x32 n 4 + 4)) 0x32 n 4 (w.at 0x32 n 3 - 4))
  let streams := [0x35, 0x36].flatMap (fun cls => (insts cls).flatMap (fun n =>
    let P := packetP (w.at cls n 4) (w.at cls n 2)
    let bytes := w.at cls n 3 * P * (if w.at cls n 1 = 0 then 2 else 3)
    rng (decide (1440 < bytes)) cls n 3 1440
      ++ rng (decide (cls = 0x35) && decide (w.linkOffset n < P + 4)) cls n 6 (P + 4)))
  let refs := (insts 0x40).flatMap (fun n => rng (decide (w.at 0x40 n 6 < w.at 0x40 n 5)) 0x40 n 6 (w.at 0x40 n 5))
  delays ++ sap ++ madi ++ net ++ phc ++ streams ++ refs

/-- The set without the entries that a joint rule refuses: the word it names, or, where the set does not write that word, every word of the
set on the same object. -/
def Chk.without (k : Chk) (f : List Finding) : Body :=
  let hit := fun (h : Nat) => f.any (fun q => if k.b.writes q.h then decide (q.h = h) else decide (q.h / 256 = h / 256))
  { k.b with params := k.b.params.filter (fun c => !hit c.1) }

/-! ### Category 3 -/

/-- The enable that a field waits for, where its table says "while disabled": SAP, MADI, NET, PTP, streams, reference slots (log
entry 43). -/
def whileOff (h : Nat) : List Nat :=
  let n := hInst h
  let f := hField h
  match hCls h with
  | 0x20 =>
    if f < 0x20 ∧ ((1 ≤ f % 16 ∧ f % 16 ≤ 9) ∨ f % 16 = 0xB) then [mkH 0x20 n (f / 16 * 16)] else []
  | 0x21 =>
    if f = 1 then [mkH 0x21 n 0, mkH 0x21 n 0x10]
    else if 2 ≤ f ∧ f ≤ 4 then [mkH 0x21 n 0]
    else if f = 0x11 ∨ f = 0x12 then [mkH 0x21 n 0x10] else []
  | 0x30 => if f = 1 ∨ f = 2 ∨ f = 3 ∨ f = 5 then [mkH 0x30 n 0] else []
  | 0x33 => if f = 1 ∨ f = 2 ∨ f = 3 ∨ f = 6 ∨ (0xB ≤ f ∧ f ≤ 0xD) then [mkH 0x33 0 0] else []
  | 0x35 => if (1 ≤ f ∧ f ≤ 4) ∨ f = 6 then [mkH 0x35 n 0] else []
  | 0x36 => if (1 ≤ f ∧ f ≤ 4) ∨ f = 6 then [mkH 0x36 n 0] else []
  | 0x40 => if 2 ≤ f ∧ f ≤ 4 then [mkH 0x40 n 0] else []
  | _ => []

/-- Users of a switched power domain in a configuration (R417), domain by domain. -/
def State.domainUsers (w s : State) (d : Nat) : Bool :=
  let anyOn := fun (cls f : Nat) => !(w.listed cls f).isEmpty
  match d with
  | 0 => [1, 2].any (fun cls => (w.listed cls 2 ++ w.listed cls 4).any (fun q => decide (q.2 ≠ 0)))
      || (List.range w.cap.slots).any (fun n => (w.slotImage n).any (fun i => decide (imgDram i w.prof ≠ 0)))
  | 1 => anyOn 0x30 0 || w.on 0x33 0 0 || w.on 0x40 4 0 || anyOn 0x35 0 || anyOn 0x36 0
  | 2 => s.vcp.sessions.any (fun x => match x.origin with
      | .mbx c => decide (c ≤ 6)
      | _ => false)
  | 3 => (List.range 32).any (fun q => w.on 0x20 (q / 2) (q % 2 * 0x10)) || anyOn 0x21 0 || anyOn 0x21 0x10
      || w.on 0x40 5 0 || w.on 0x40 6 0 || w.on 0x40 7 0
  | 4 => (w.listed 0x24 0).any (fun q => decide (q.2 ≠ 0xFFFF))
      || (List.range 32).any (fun q =>
        decide ((w.sapSet (q / 2) (decide (q % 2 = 1))).kind = .src) && w.on 0x20 (q / 2) (q % 2 * 0x10))
      || (List.range 8).any (fun p => (w.on 0x21 p 0 && !w.madiSetDirect p) || (w.on 0x21 p 0x10 && decide (1 < w.madiSetDiv p)))
      || (decide (w.fam = 1) && (anyOn 0x35 0 || anyOn 0x36 0))
  | 5 => anyOn 0x11 0 || (List.range 4).any (fun j => anyOn 0x10 j)
  | 6 => s.power.straps.twinEn
  | 7 => [(0x05, 0), (0x05, 1), (0x06, 0)].any (fun q => (w.listed q.1 q.2).any (fun e => decide (refType e.2 = 6)))
  | _ => false

/-- R80: the sample of the latest commit that changes a node gain, of those applied and those coming up to a commit sample. -/
def State.lastGainC (s : State) (upTo : Option Nat) (skip : Nat) : Option Nat :=
  ((s.coming.filter (fun d => (d.set ≠ skip ∨ d.set = 0) ∧ upTo.all (fun c => d.c ≤ c))).foldl
    (fun (a : State × Option Nat) d =>
      let b := a.1.bodyOf d.added
      (a.1.overlay b, if b.movesGain a.1 then some d.c else a.2)) (s, s.mere.lastC)).2

/-- R80: whether a set changes the shape. -/
def Chk.reshapes (k : Chk) : Bool := decide (k.w.shape ≠ k.v.shape)
/-- R128: whether a set changes the rate or the profile. -/
def Chk.reprofiles (k : Chk) : Bool := decide (k.w.prof ≠ k.v.prof) || decide (k.w.fam ≠ k.v.fam)

/-- R80: a shape change at c lies too close behind the last change of a node gain. -/
def Chk.shapeLate (k : Chk) (c : Nat) : Bool :=
  k.reshapes && (k.s.lastGainC (some c) k.x.id).any (fun g => decide (c < g + k.v.at 0x0A 0 1 + k.v.at 0x0A 0 2))

/-- The finding of a shape change that comes too soon. -/
def shapeFinding : Finding := { cat := 3, err := Err.state, h := 0x0A000000, det := 0 }

/-- SRC channels that a configuration's SAP directions need (R209, R235). -/
def State.sapUsesOn (w : State) : List SrcUse :=
  (List.range 32).flatMap (fun q =>
    let p := q / 2
    let tx := decide (q % 2 = 1)
    let c := w.sapSet p tx
    if c.kind = .src ∧ w.sapF p tx 0 = 1 then
      (maskSlots (w.sapF p tx 0xA) 32).map (fun k =>
        { user := sapRef0 .src p + k, dir := b2n tx, inRate := if tx then w.fs else c.rate
          outRate := if tx then c.rate else w.fs, fixed := decide (c.clock = 0) })
    else [])

/-- SRC channels that a configuration's MADI ports need (R225, R226). -/
def State.madiUsesOn (w : State) : List SrcUse :=
  (List.range 8).flatMap (fun p =>
    (if w.on 0x21 p 0 && !w.madiSetDirect p then
      (List.range (madiChans (w.at 0x21 p 1))).map (fun k =>
        { user := madiRef0 p + k, dir := 0, inRate := w.at 0x21 p 4, outRate := w.fs, fixed := false })
    else []) ++
    (if w.on 0x21 p 0x10 && decide (1 < w.madiSetDiv p) then
      (List.range (w.at 0x21 p 0x12)).map (fun k =>
        { user := madiRef0 p + k, dir := 1, inRate := w.fs, outRate := w.fs / w.madiSetDiv p, fixed := true })
    else []))

/-- Channels of the enabled streams of a direction (class 0x35 or 0x36). -/
def State.streamChansOn (w : State) (cls : Nat) : Nat := ((w.listed cls 0).map (fun q => w.at cls q.1 3)).foldl (· + ·) 0

/-- SRC channels that a configuration needs (R117): network channels count in the 44.1 kHz family (R22). -/
def State.srcNeed (w : State) : Nat :=
  w.sapUsesOn.length + w.madiUsesOn.length + (if w.fam = 0 then 0 else w.streamChansOn 0x35 + w.streamChansOn 0x36)

/-- Category 3. -/
def Chk.cat3 (k : Chk) : List Finding :=
  let w := k.w
  let other := k.b.params.any (fun c => decide (c.1 ≠ 0x50000000) && decide (c.1 ≠ 0x50000001)) || !k.b.nodes.isEmpty
  let first := (k.b.words.headD (0, 0)).1
  let live := k.v.mere.image.find? (fun c => decide (c.2.1 ≠ 0))
  let offs := k.b.words.flatMap (fun e =>
    findIf (decide (k.v.val e.1 ≠ w.val e.1) && (whileOff e.1).any (fun q => decide (k.v.val q = 1))) 3 Err.state e.1 0)
  let doms := (List.range 8).flatMap (fun d =>
    let off := !bit k.s.power.domains d
    let out := decide (w.at 0x50 0 (0x10 + d) = 0)
    let new := (out && decide (k.v.at 0x50 0 (0x10 + d) = 1)) || (off && !k.v.domainUsers k.s d)
    findIf (new && w.domainUsers k.s d) 3 Err.state (mkH 0x50 0 (0x10 + d)) d)
  let owners := k.b.words.flatMap (fun e =>
    let isOwner := decide (k.v.ownerOf e.1 = 0) && decide (k.v.val e.1 ≠ w.val e.1) &&
      [(0x01, 0x7F), (0x02, 0x7F), (0x06, 0x03), (0x0B, 0xF3), (0x10, 0x1F), (0x20, 0x21), (0x21, 0x20), (0x22, 0x1F), (0x24, 0x07)].contains
        (hCls e.1, hField e.1)
    let moves := fun (h : Nat) => decide (k.v.ownerOf h ≠ (k.v.setVal e.1 e.2).ownerOf h)
    let hit := isOwner && k.s.scene.sets.any (fun y => decide (y.st = .scheduled) && decide (y.id ≠ k.x.id) &&
      (let yb := k.s.bodyOf y.added
       yb.words.any (fun q => moves q.1) || yb.nodes.any (fun q => moves (0x03000000 + q.1))))
    findIf hit 3 Err.state e.1 (k.v.val e.1))
  let ratios := (w.sapUsesOn ++ w.madiUsesOn).flatMap (fun u =>
    findIf (decide (8 * u.inRate < u.outRate) || decide (8 * u.outRate < u.inRate)) 3 Err.range u.user 8)
  findIf (k.reprofiles && other) 3 Err.profile first 0
    ++ k.x.scenes.flatMap (fun q => findIf (decide (q.1 ≠ w.prof) || decide (q.2 ≠ w.shape)) 3 Err.profile 0 q.1)
    ++ findIf (k.reshapes && live.isSome) 3 Err.state 0x0A000000 ((live.map (·.1)).getD 0)
    ++ findIf (k.reshapes && !k.b.nodes.isEmpty) 3 Err.state 0x0A000000 0
    ++ (match k.c with
        | some c => if k.shapeLate c then [shapeFinding] else []
        | none => [])
    ++ offs ++ doms ++ owners ++ ratios

end Sys2Proof.Machine
end

