-- ==== Sys2Proof/Machine/Admit.lean ====
section
/-! DEFINITION. Sys2Proof/Machine/Admit.lean: admission: engine cycles and words (R114, R115, R202, R203, R403), delay memory, SRC
channels, streams (R116, R117, R268, R275): categories 4 and 5. -/
namespace Sys2Proof.Machine

open Fmt

/-! ### Engines -/

/-- What still counts for a commit at c: its sample does not lie after the bound (R114; log entry 157). -/
def Leaving.at (l : Leaving) (c : Nat) : Leaving where
  mods := l.mods.filter (fun q => decide (c ≤ q.2))
  delays := l.delays.filter (fun q => decide (c ≤ q.2.2))

/-- Admission's ledger: the instances in place, and what is leaving. -/
structure Ledger where
  mods    : List Placed
  leaving : Leaving

/-- Every instance that counts. -/
def Ledger.all (l : Ledger) : List Placed := l.mods ++ l.leaving.mods.map (·.1)

/-- What a slot's module takes on an engine, as a configuration has it. -/
def State.placedAt (w : State) (n e : Nat) : Option Placed :=
  (w.slotImage n).map (fun img =>
    let ws := imgWords img w.B
    { slot := n, mod := w.slotMod n, engine := e, cycles := (imgCost img w.prof).2, p := imgPWords img, x := ws.1, y := ws.2
      dram := imgDram img w.prof })

/-- The ledger of the configuration in force. -/
def State.ledger (s : State) : Ledger where
  mods := s.usedSlots.filterMap (fun n => s.placedAt n (s.slotRt n).engine)
  leaving := s.scene.leaving

/-- The recompute reserve less 64 cycles (R403): 8 % of an engine's nominal cycles (R23). -/
def Cap.instMax (c : Cap) : Nat := c.tarnCycles * 8 / 100 - 64

/-- Engines that take native work, as admission names them: not the spare, none of the legacy partition (R114, R473). A retired engine's
work keeps its logical placement (R407). -/
def State.nativeEngines (s : State) : List Nat := (List.range 16).filter (fun e => decide ((s.eng (s.phys e)).st = .active))

/-- How many of n things dealt in turn to k receivers, the first to receiver f, come to receiver i. -/
def dealt (n k f i : Nat) : Nat := if k = 0 then 0 else let o := (i + k - f % k) % k; (n + k - 1 - o) / k

/-- R52, R115: the engine of a strip's task, and of a bus's. Pairs of strips, then pairs of busses, are dealt in turn to the engines, which
R115 makes of tasks of one cost; both objects of a pair stand together whether they are linked or not (log entry 8). -/
def stripEngine (es : List Nat) (n : Nat) : Nat := es.getD (n / 2 % es.length) 0
def Cap.busEngine (c : Cap) (es : List Nat) (n : Nat) : Nat := es.getD ((c.strips / 2 + n / 2) % es.length) 0

/-- Linked pairs of a class (R52, R62), by their even object. -/
def State.linkedPairs (w : State) (cls : Nat) : List Nat :=
  ((w.listed cls 0x7C).filter (fun q => decide (q.2 = 1) && decide (q.1 % 2 = 0))).map (·.1)

/-- Strips and busses that an engine computes. -/
def Cap.nativeObjects (c : Cap) (es : List Nat) (e : Nat) : Nat × Nat :=
  let i := es.idxOf e
  (2 * dealt (c.strips / 2) es.length 0 i, 2 * dealt (c.busses / 2) es.length (c.strips / 2) i)

/-- R52, R62: strip and bus tasks on an engine: a linked pair is one frame task. -/
def State.nativeTasks (w : State) (es : List Nat) (e : Nat) : Nat × Nat :=
  let n := w.cap.nativeObjects es e
  (n.1 - ((w.linkedPairs 1).filter (fun k => decide (stripEngine es k = e))).length,
    n.2 - ((w.linkedPairs 2).filter (fun k => decide (w.cap.busEngine es k = e))).length)

/-- Cycles that strip and bus tasks take on an engine: the sum of the objects' costs, and 24 a task (R202; log entry 8). -/
def State.nativeCycles (w : State) (es : List Nat) (e : Nat) : Nat :=
  let n := w.cap.nativeObjects es e
  let t := w.nativeTasks es e
  n.1 * Config.stripCycles w.cap.prof + n.2 * Config.busCycles w.cap.prof + 24 * (t.1 + t.2)

/-- Cycles that an engine admits (R114, R202): 62 % of nominal less the runtime charge. -/
def Cap.engineCycles (c : Cap) : Nat := c.admitted - 1100

/-- Cycles that a list of instances takes on an engine: crossfade cost and task switching (R202). -/
def cyclesOn (l : List Placed) (e : Nat) : Nat :=
  ((l.filter (fun p => decide (p.engine = e))).map (fun p => p.cycles + 24)).foldl (· + ·) 0

/-- Cycles by which an engine is above its admitted cycles. -/
def cyclesOver (w : State) (es : List Nat) (l : List Placed) (e : Nat) : Nat := w.nativeCycles es e + cyclesOn l e - w.cap.engineCycles

/-- P, X and Y words that a list of instances takes on an engine; code counts once per module (R203). -/
def wordsOn (l : List Placed) (e : Nat) : Nat × Nat × Nat :=
  let on := l.filter (fun p => decide (p.engine = e))
  let mods := (on.map (·.mod)).eraseDups
  ((mods.map (fun m => (on.find? (fun p => decide (p.mod = m))).elim 0 (·.p))).foldl (· + ·) 0,
    (on.map (·.x)).foldl (· + ·) 0, (on.map (·.y)).foldl (· + ·) 0)

/-- Words by which an engine falls short. -/
def wordsShort (l : List Placed) (e : Nat) : Nat :=
  let w := wordsOn l e
  max (w.1 - 16128) (max (w.2.1 - 32256) (w.2.2 - 32256))

/-- Whether an engine carries its tasks (R202). -/
def tasksFit (w : State) (es : List Nat) (l : List Placed) (e : Nat) : Bool :=
  let t := w.nativeTasks es e
  decide (t.1 + t.2 + (l.filter (fun q => decide (q.engine = e))).length ≤ 224)

/-- The first of a list with the least figure. -/
def leastBy (f : Nat → Nat) : List Nat → Option Nat
  | [] => none
  | e :: l => match leastBy f l with
    | none => some e
    | some b => if f b < f e then some b else some e

/-- The engine with the most unadmitted cycles among those that can take an instance; ties go to the lower engine (R115). -/
def bestEngine (w : State) (es : List Nat) (l : List Placed) (p : Placed) : Option Nat :=
  let fits := es.filter (fun e =>
    let l' := { p with engine := e } :: l
    decide (cyclesOver w es l' e = 0) && decide (wordsShort l' e = 0) && tasksFit w es l' e)
  leastBy (fun e => w.nativeCycles es e + cyclesOn l e) fits

/-- Why no engine takes an instance, as category 4 reports it: words short, where some engine has the cycles (R203); else the engine that
lacks the fewest cycles, and how many. -/
def placeDetail (w : State) (es : List Nat) (l : List Placed) (p : Placed) : Nat :=
  let past := fun e => cyclesOver w es ({ p with engine := e } :: l) e
  let short := fun e => wordsShort ({ p with engine := e } :: l) e
  match leastBy short (es.filter (fun e => decide (past e = 0) && decide (short e ≠ 0))) with
  | some e => 2 ^ 31 + min 65535 (short e)
  | none => let e := (leastBy past es).getD 0; e * 2 ^ 16 + min 65535 (past e)

/-- R115, R403: one new instance placed: the ledger with it, or the finding that no engine takes it. -/
def Ledger.placeOne (w : State) (es : List Nat) (a : Ledger × List Finding) (p : Placed) : Ledger × List Finding :=
  let h := mkH 0x0B p.slot 0xF0
  if w.cap.instMax < p.cycles then (a.1, a.2 ++ findIf true 4 Err.cycles h (2 ^ 30 + min 65535 (p.cycles - w.cap.instMax)))
  else
    match bestEngine w es a.1.all p with
    | some e => ({ a.1 with mods := a.1.mods ++ [{ p with engine := e }] }, a.2)
    | none => (a.1, a.2 ++ findIf true 4 Err.cycles h (placeDetail w es a.1.all p))

/-- The completion bound of a transition of a length that starts at c, where an earlier one of the same object is bounded by `runs`
(R129). -/
def boundOf (c len : Nat) (runs : List Nat) : Nat := if runs.any (fun u => decide (c < u)) then c + 2 * len + 1 else c + len

/-- R420, R57: the completion bound of a slot's module that a commit removes or replaces: the CF transition between two modules, and the DX
transition of an insert that leaves the slot in the same commit (log entry 157). -/
def slotBound (v w : State) (n c cf dx : Nat) (l : Leaving) : Nat :=
  let runs := (l.mods.filter (fun q => decide (q.1.slot = n))).map (·.2)
  let leaves := [1, 2].any (fun cls => (v.listed cls 0x70).any (fun q => decide (q.2 = n) && decide (w.at cls q.1 0x70 ≠ n)))
  max (if (w.slotMod n).1 ≠ 0 then boundOf c cf runs else c) (if leaves then boundOf c dx runs else c)

/-- Total delay of a strip or bus (R71). -/
def State.delayOf (w : State) (cls n : Nat) : Nat := w.at cls n 2 + w.at cls n 4

/-- Delay stages that a configuration lists: class and instance. -/
def State.delayStages (w : State) : List (Nat × Nat) :=
  [1, 2].flatMap (fun cls => (((w.listed cls 2 ++ w.listed cls 4).map (·.1)).eraseDups).map (fun n => (cls, n)))

/-- R114–R116: the ledger after a commit at c that turns configuration v into w, and what does not fit. A running module keeps its engine;
where the profile, the rate family or a link changes, every engine is judged again with what it then carries (R21, R23, R52). A set without
a commit sample is judged by the present one, after which its commit will lie. -/
def Ledger.step (l0 : Ledger) (es : List Nat) (v w : State) (c : Option Nat) (cf dx : Nat) : Ledger × List Finding :=
  let t := c.getD v.mcc
  let l := { l0 with leaving := if w.prof = v.prof then l0.leaving.at t else Leaving.none }
  let gone := l.mods.filter (fun p => decide (w.slotMod p.slot ≠ p.mod))
  let kept := (l.mods.filter (fun p => decide (w.slotMod p.slot = p.mod))).filterMap (fun p => w.placedAt p.slot p.engine)
  let moved := v.delayStages.filter (fun q => decide (v.delayOf q.1 q.2 ≠ w.delayOf q.1 q.2))
  let leaving : Leaving := if w.prof ≠ v.prof then Leaving.none else
    { mods := l.leaving.mods ++ gone.map (fun p => (p, slotBound v w p.slot t cf dx l.leaving))
      delays := l.leaving.delays ++ moved.map (fun (q : Nat × Nat) =>
        let k := q.1 * 65536 + q.2
        (k, v.delayOf q.1 q.2, boundOf t dx ((l.leaving.delays.filter (fun d => decide (d.1 = k))).map (·.2.2)))) }
  let new := w.usedSlots.filter (fun n => !kept.any (fun p => decide (p.slot = n)))
  let (l', f) := (new.filterMap (fun n => w.placedAt n 0)).foldl (Ledger.placeOne w es) ({ mods := kept, leaving := leaving }, [])
  let again := if w.prof = v.prof ∧ w.fam = v.fam ∧ [1, 2].all (fun c => decide (w.linkedPairs c = v.linkedPairs c)) then [] else es.flatMap (fun e =>
    let past := cyclesOver w es l'.all e
    let short := wordsShort l'.all e
    findIf (decide (past ≠ 0)) 4 Err.cycles 0x50000001 (e * 2 ^ 16 + min 65535 past)
      ++ findIf (decide (past = 0) && decide (short ≠ 0)) 4 Err.cycles 0x50000001 (2 ^ 31 + min 65535 short))
  (l', f ++ again)

/-- The configuration and the ledger with a list of commits applied. -/
def State.foresee (es : List Nat) (a : State × Ledger) (l : List Due) : State × Ledger :=
  l.foldl (fun a d =>
    let w := a.1.overlay (a.1.bodyOf d.added)
    (w, (a.2.step es a.1 w (some d.c) d.cf d.dx).1)) a

/-! ### Memory and channels -/

/-- R116: granules of a delay stage that holds d samples. -/
def granules (d B : Nat) : Nat := if d = 0 then 0 else cdiv (d + B) 4096

/-- R116: granules that a configuration and what is leaving take: each stage by the largest delay that it holds, each module its buffer. -/
def State.granulesOf (w : State) (l : Ledger) : Nat :=
  let old := l.leaving.delays.map (fun q => q.1)
  let ks := (w.delayStages.map (fun (q : Nat × Nat) => q.1 * 65536 + q.2) ++ old).eraseDups
  let stage := fun (k : Nat) =>
    granules ((l.leaving.delays.filter (fun d => decide (d.1 = k))).foldl (fun m d => max m d.2.1) (w.delayOf (k / 65536) (k % 65536))) w.B
  (ks.map stage ++ l.all.map (fun p => cdiv p.dram 32768)).foldl (· + ·) 0

/-- Granules of the region (R116). -/
def dramGranules : Nat := (dramBytes - 256 * 2 ^ 20) / 32768

/-- R275: bits per second of a stream on its port, and packets per second. -/
def State.streamLoad (w : State) (cls n : Nat) : Nat × Nat :=
  let rate := w.at cls n 2
  let P := packetP (w.at cls n 4) rate
  let pps := if P = 0 then 0 else rate / P
  let bytes := w.at cls n 3 * P * (if w.at cls n 1 = 0 then 2 else 3)
  ((bytes + 82) * 8 * pps, pps)

/-- The port that a stream's leg names. -/
def State.streamLeg (w : State) (cls n leg : Nat) : Nat :=
  if cls = 0x35 then w.at cls n (if leg = 0 then 0x0B else 0x0F) else w.at cls n (if leg = 0 then 0x0A else 0x0D)

/-- R275: whether a port carries its streams of a direction. -/
def State.portFits (w : State) (cls port : Nat) : Bool :=
  let on := (w.listed cls 0).filter (fun q => decide (w.streamLeg cls q.1 0 = port) || decide (w.streamLeg cls q.1 1 = port))
  let load := on.map (fun q => w.streamLoad cls q.1)
  let fast := decide (w.at 0x30 port 1 ≠ 0)
  decide ((load.map (·.1)).foldl (· + ·) 0 ≤ (if fast then (25000000000 : Nat) else 10000000000) * 8 / 10)
    && decide ((load.map (·.2)).foldl (· + ·) 0 ≤ (if fast then (4000000 : Nat) else 2500000))

/-- R268, R379: bytes of the network region that the receive streams' mirrored jitter buffers take, 8 bytes a sample (log entry 44): those of
enabled streams, and of disabled ones until they are released (R270). -/
def State.jitterBytes (w : State) : Nat :=
  let streams := (List.range 256).filter (fun i => w.on 0x35 i 0 || (Cells.get RxStream.reset w.net.rx i).running)
  (streams.map (fun i =>
    2 * ((w.linkOffset i + packetP (w.at 0x35 i 4) (w.at 0x35 i 2) + 2 * w.B) * w.at 0x35 i 3 * 8))).foldl (· + ·) 0

/-- Category 5 of a configuration. -/
def State.memoryFindings (w : State) (l : Ledger) : List Finding :=
  let g := w.granulesOf l
  findIf (decide (dramGranules < g)) 5 Err.dram 0 (g - dramGranules)
    ++ findIf (decide (w.cap.srcCh < w.srcNeed)) 5 Err.src 0 (w.srcNeed - w.cap.srcCh)
    ++ [0x35, 0x36].flatMap (fun cls =>
      findIf (decide (w.cap.netCh < w.streamChansOn cls)) 5 Err.stream (mkH cls 0 0) (w.streamChansOn cls - w.cap.netCh)
        ++ (List.range 4).flatMap (fun p => findIf (!w.portFits cls p) 5 Err.stream (mkH 0x30 p 1) p))

/-- Commits that come before a set's own, or all where it has no commit sample yet. -/
def Chk.before (k : Chk) : List Due :=
  k.s.coming.filter (fun d => (d.set ≠ k.x.id ∨ d.set = 0) ∧ k.c.all (fun c => decide (d.c ≤ c)))

/-- Commits that come after the set's own. -/
def Chk.after (k : Chk) : List Due :=
  k.s.coming.filter (fun d => (d.set ≠ k.x.id ∨ d.set = 0) ∧ k.c.any (fun c => decide (c < d.c)))

/-- The ledger at a set's commit and what does not fit there. -/
def Chk.ledger (k : Chk) : Ledger × List Finding :=
  let es := k.s.nativeEngines
  (State.foresee es (k.s, k.s.ledger) k.before).2.step es k.v k.w k.c k.x.attrs.cfLen k.x.attrs.dxLen

/-- R132: the configuration, the ledger and what does not fit there, at each armed cue after the set. -/
def Chk.foreseen (k : Chk) (l : Ledger) : List (State × Ledger × List Finding) :=
  let es := k.s.nativeEngines
  (k.after.foldl (fun (a : (State × Ledger) × List (State × Ledger × List Finding)) d =>
    let w := a.1.1.overlay (a.1.1.bodyOf d.added)
    let (l', f) := a.1.2.step es a.1.1 w (some d.c) d.cf d.dx
    ((w, l'), a.2 ++ if d.set = 0 then [(w, l', f)] else [])) ((k.w, l), [])).2

/-- R132: what armed cues after the set have reserved and the set would take: the findings of categories 4 and 5 at each of them. -/
def Chk.reserved (k : Chk) (l : Ledger) : List Finding := (k.foreseen l).flatMap (fun q => q.2.2 ++ q.1.memoryFindings q.2.1)

/-- Categories 4 and 5, of the set's commit and of the cues that it would hinder. -/
def Chk.cat45 (k : Chk) : List Finding :=
  let (l, f) := k.ledger
  let r := k.reserved l
  f ++ r.filter (fun q => decide (q.cat = 4)) ++ k.w.memoryFindings l ++ r.filter (fun q => decide (q.cat = 5))

end Sys2Proof.Machine
end

