-- ==== Sys2Proof/Machine/Route.lean ====
section
/-! DEFINITION. Sys2Proof/Machine/Route.lean: routing legality and the loop rule: categories 6 and 7 (R37, R38, R54, R58, R64, R66, R68,
R77, R113, R246, R266). The detail word of category 6 is the number of the rule violated. -/
namespace Sys2Proof.Machine

open Fmt

/-- R37, R38, R216: whether the input patch or a direct source can take a port channel, as a configuration stands. -/
def State.refIn (w : State) (r : Nat) : Option Nat :=
  let p := refPort r
  let ch := refChan r
  match refType r with
  | 1 =>
    let c := w.sapSet p false
    if c.kind ≠ .engine ∧ c.kind ≠ .src then some 37
    else if w.legSap p then (if ch < c.slots then none else some 216)
    else if ch < c.slots ∧ bit (w.sapF p false 0xA) ch then none else some 216
  | 2 => some 38
  | 3 => if ch < madiChans (w.at 0x21 p 1) then none else some 37
  | 4 => if refStreamCh r < w.at 0x35 (refStream r) 3 then none else some 37
  | _ => none

/-- The same for the output patch. -/
def State.refOut (w : State) (r : Nat) : Option Nat :=
  let p := refPort r
  let ch := refChan r
  match refType r with
  | 1 =>
    let c := w.sapSet p true
    if c.kind ≠ .engine ∧ c.kind ≠ .src then some 37
    else if w.legSap p then (if ch < c.slots then none else some 216)
    else if ch < c.slots ∧ bit (w.sapF p true 0xA) ch then none else some 216
  | 2 => some 38
  | 3 => if ch < w.at 0x21 p 0x12 then none else some 37
  | 4 => if refStreamCh r < w.at 0x36 (refStream r) 3 then none else some 37
  | 5 => some 38
  | _ => none

/-- R66, R470: whether an output stage's width fits the port channel it drives; a headphone channel takes any (log entry 178). -/
def State.widthOk (w : State) (r width : Nat) : Bool :=
  match refType r with
  | 1 =>
    let b := (w.sapSet (refPort r) true).wordBits
    if b = 16 then decide (width = 2) else if b = 24 then decide (1 ≤ width) else true
  | 3 => decide (1 ≤ width)
  | 4 => if w.at 0x36 (refStream r) 1 = 0 then decide (width = 2) else decide (1 ≤ width)
  | 7 => decide (1 ≤ width)
  | _ => true

/-- A finding of category 6. -/
def routeIf (r : Option Nat) (h : Nat) : List Finding :=
  match r with
  | some n => findIf true 6 Err.route h n
  | none => []

/-- Inserts of a configuration: class, object, slot, port. -/
def State.inserts (w : State) : List (Nat × Nat × Nat × Nat) :=
  [1, 2].flatMap (fun cls => (w.listed cls 0x70).filterMap (fun q =>
    if q.2 = 0xFFFF then none else some (cls, q.1, q.2, w.at cls q.1 0x72)))

/-- R58: an insert's slot and port. -/
def State.insertRoute (w : State) (i : Nat × Nat × Nat × Nat) : Option Nat :=
  let twice := (w.inserts.filter (fun j => decide (j.2.2 = i.2.2))).length
  let ports := (w.slotImage i.2.2.1).elim 0 (fun g => min (imgIn g) (imgOut g))
  if 1 < twice ∨ ports ≤ i.2.2.2 then some 58 else none

/-- R77: whether an object's index lies within the profile. -/
def State.srcIndexOk (w : State) (x : Nat) : Bool :=
  match x / 2 ^ 24 with
  | 1 => decide (x % 65536 < w.cap.strips)
  | 2 => decide (x % 65536 < w.cap.busses)
  | 3 => decide (x % 65536 < 8 * w.cap.slots)
  | _ => true

/-- The same for a destination's consumer. -/
def State.dstIndexOk (w : State) (x : Nat) : Bool :=
  match x / 2 ^ 24 with
  | 1 => decide (x % 65536 < w.cap.busses)
  | 2 => decide (x % 65536 < 8 * w.cap.slots)
  | _ => true

/-- R77: the source maps. A direct source whose field 0x01 is 0 names no port channel: any number of them pass, and they are silent (log
entry 155, DESIGN CHOICE). -/
def State.srcRoutes (w : State) : List Finding :=
  let all := (List.range w.cap.sources).map (fun n => (n, w.srcMap n))
  let direct := all.filter (fun q => decide (q.2 / 2 ^ 24 = 4))
  (w.listed 8 0).flatMap (fun q =>
    let x := w.srcMap q.1
    let obj := decide (1 ≤ x / 2 ^ 24) && decide (x / 2 ^ 24 ≤ 3)
    findIf (!w.srcIndexOk x || (obj && all.any (fun r => decide (r.1 ≠ q.1) && decide (r.2 = x)))) 6 Err.route (mkH 8 q.1 0) 77)
  ++ direct.flatMap (fun q =>
    let r := w.at 8 q.1 1
    routeIf (if r = 0 then none else w.refIn r) (mkH 8 q.1 1)
      ++ findIf (decide (r ≠ 0) && direct.any (fun p => decide (p.1 < q.1) && decide (w.at 8 p.1 1 = r))) 6 Err.route (mkH 8 q.1 1) 77)

/-- R77: the destination maps: one feed for each bus and each slot input. -/
def State.dstRoutes (w : State) : List Finding :=
  let all := (List.range w.cap.dests).map (fun d => (d, w.dstMap d))
  let ins := w.inserts
  (w.listed 9 0).flatMap (fun q =>
    let x := w.dstMap q.1
    let again := decide (x / 2 ^ 24 = 1 ∨ x / 2 ^ 24 = 2) && all.any (fun r => decide (r.1 ≠ q.1) && decide (r.2 = x))
    let insert := decide (x / 2 ^ 24 = 2) && ins.any (fun i => decide (8 * i.2.2.1 + i.2.2.2 = x % 65536))
    findIf (!w.dstIndexOk x || again || insert) 6 Err.route (mkH 9 q.1 0) 77)

/-- Category 6. A limiter link that names its own entry is refused like one that is not mutual (R68; log entry 151, DESIGN CHOICE). -/
def Chk.cat6 (k : Chk) : List Finding :=
  let w := k.w
  let ins := [0, 1].flatMap (fun f => (w.listed 5 f).flatMap (fun q => routeIf (if q.2 = 0 then none else w.refIn q.2) (mkH 5 q.1 f)))
  let dests := (w.listed 6 0).filter (fun q => decide (q.2 ≠ 0))
  let outs := dests.flatMap (fun q =>
    routeIf (w.refOut q.2) (mkH 6 q.1 0)
      ++ findIf (dests.any (fun p => decide (p.1 < q.1) && decide (p.2 = q.2))) 6 Err.route (mkH 6 q.1 0) 64
      ++ findIf (!w.widthOk q.2 (w.at 7 q.1 5)) 6 Err.route (mkH 7 q.1 5) 66)
  let keys := [(1, 0x1A), (1, 0x6B), (2, 0x6B)].flatMap (fun (c : Nat × Nat) => (w.listed c.1 c.2).flatMap (fun q =>
    let own := if c.1 = 1 then w.stripOwner q.1 else w.busOwner q.1
    findIf (decide (q.2 ≠ 0xFFFF) && decide (w.stripOwner q.2 ≠ own)) 6 Err.route (mkH c.1 q.1 c.2) 54))
  let inserts := w.inserts.flatMap (fun i => routeIf (w.insertRoute i) (mkH i.1 i.2.1 0x70))
  let links := (w.listed 7 3).flatMap (fun q =>
    findIf (decide (q.2 ≠ 0xFFFF) && (decide (q.2 = q.1) || decide (w.at 7 q.2 3 ≠ q.1))) 6 Err.route (mkH 7 q.1 3) 68)
  let decs := (w.listed 0x24 0).flatMap (fun q =>
    let p := q.2 / 256
    let rate := w.sapF p false 2
    findIf (decide (q.2 ≠ 0xFFFF) && (decide (rate = 0 ∨ rate = 3) || !bit (w.sapF p false 0xA) (q.2 % 256))) 6 Err.route (mkH 0x24 q.1 0) 246)
  let streams := [0x35, 0x36].flatMap (fun cls => (w.listed cls 0).flatMap (fun q =>
    findIf (decide (w.streamLeg cls q.1 0 = 0xFF) && decide (w.streamLeg cls q.1 1 = 0xFF)) 6 Err.route (mkH cls q.1 0) 266))
  ins ++ outs ++ keys ++ inserts ++ links ++ w.srcRoutes ++ w.dstRoutes ++ decs ++ streams

/-! ### Loops (R113) -/

/-- Slots that can hear a strip source within one block: through a node on a tap behind the insert (every tap but 0), the destination's
slot input, or the insert of the destination's bus. -/
def State.heardBy (w : State) (n : Nat) : List Nat :=
  (List.range w.cap.dests).flatMap (fun d =>
    if (Cells.get (0, 2) w.mere.image (nodeKey d n)).2 = 0 then []
    else
      let x := w.dstMap d
      match x / 2 ^ 24 with
      | 1 => if w.at 2 (x % 65536) 0x70 = 0xFFFF then [] else [w.at 2 (x % 65536) 0x70]
      | 2 => [x % 65536 / 8]
      | _ => [])

/-- The slots that depend on a slot within one block: by the strips whose insert it is and that are matrix sources. -/
def State.slotEdges (w : State) (x : Nat) : List Nat :=
  let strips := (w.listed 1 0x70).filter (fun q => decide (q.2 = x))
  if strips.isEmpty then []
  else
    let srcs := (List.range w.cap.sources).filter (fun n =>
      let m := w.srcMap n
      decide (m / 2 ^ 24 = 1) && strips.any (fun q => decide (q.1 = m % 65536)))
    (srcs.flatMap w.heardBy).eraseDups

/-- Slots reached from a list in at most n further edges. -/
def reachSlots (edges : List (Nat × List Nat)) : Nat → List Nat → List Nat
  | 0, l => l
  | n + 1, l => reachSlots edges n ((l ++ l.flatMap (fun x => ((edges.find? (fun e => e.1 = x)).map (·.2)).getD [])).eraseDups)

/-- Category 7: a finding for each set of slots that depend on one another, on behalf of its first. Slots are the only objects through which
a dependency can return. The detail is 0x0B in [31:24] and the slot. -/
def Chk.cat7 (k : Chk) : List Finding :=
  let slots := (k.w.inserts.map (fun i => i.2.2.1)).eraseDups
  let edges := slots.map (fun x => (x, k.w.slotEdges x))
  let reach := edges.map (fun e => (e.1, reachSlots edges slots.length e.2))
  let on := fun (x y : Nat) => reach.any (fun r => decide (r.1 = x) && r.2.contains y)
  (slots.filter (fun x => on x x && !slots.any (fun y => decide (y < x) && on x y && on y x))).flatMap (fun x =>
    findIf true 7 Err.loop (mkH 0x0B x 0xF0) (0x0B000000 + x))

end Sys2Proof.Machine
end

