-- ==== Sys2Proof/Machine/Check.lean ====
section
/-! DEFINITION. Sys2Proof/Machine/Check.lean: categories 8 to 12 of the check and the check as a whole (R112). -/
namespace Sys2Proof.Machine

open Fmt

/-! ### Category 8: clocks -/

/-- R210: whether a clock origin is amclk or the reference that the CKU has selected. -/
def State.originOk (s : State) (origin : Nat) : Bool := decide (origin = 8) || decide (s.cku.sel = origin)

/-- Category 8. R210 and R225 judge the directions that the set changes, in their own fields, through the pins they share or by another
engine rate: one that runs already keeps running when the CKU leaves its origin (log entry 45). -/
def Chk.cat8 (k : Chk) : List Finding :=
  let w := k.w
  let written := ((k.b.ofCls 0x20).map (fun e => (hInst e.1, decide (0x10 ≤ hField e.1)))).eraseDups
  let sapDirs := ((List.range 32).map (fun i => (i / 2, decide (i % 2 = 1)))).filter (fun q =>
    written.contains q || decide ((k.v.sapSet q.1 q.2).clock ≠ (w.sapSet q.1 q.2).clock)
      || decide ((k.v.sapSet q.1 q.2).origin ≠ (w.sapSet q.1 q.2).origin))
  let saps := sapDirs.flatMap (fun q =>
    let c := w.sapSet q.1 q.2
    findIf (decide (w.sapF q.1 q.2 0 = 1) && decide (c.clock = 1) && !k.s.originOk c.origin) 8 Err.clock
      (mkH 0x20 q.1 (8 + if q.2 then 0x10 else 0)) q.1)
  let madis := (if k.v.fs = w.fs then ((k.b.ofCls 0x21).map (fun e => hInst e.1)).eraseDups else List.range 8).flatMap (fun p =>
    let on := w.on 0x21 p 0 && decide (w.at 0x21 p 2 = 1)
    findIf (on && decide (w.at 0x21 p 4 ≠ w.fs)) 8 Err.clock (mkH 0x21 p 4) p
      ++ findIf (on && !k.s.originOk (w.at 0x21 p 3)) 8 Err.clock (mkH 0x21 p 3) p)
  let rates := [0x35, 0x36].flatMap (fun cls => (w.listed cls 0).flatMap (fun q =>
    findIf ((w.cap.path (w.at cls q.1 2)).isNone) 8 Err.range (mkH cls q.1 2) q.1))
  let decs := (w.listed 0x24 0).flatMap (fun q =>
    findIf (decide (q.2 ≠ 0xFFFF) && decide (2 ≤ (w.sapSet (q.2 / 256) false).clock)) 8 Err.clock (mkH 0x24 q.1 0) (q.2 / 256))
  let lead := w.at 0x33 0 3
  let ref4 := findIf (decide (lead = 1) && w.on 0x40 4 0) 8 Err.clock (mkH 0x40 4 0) 4
  let ref56 := [5, 6].flatMap (fun n =>
    findIf (w.on 0x40 n 0 && (!w.on 0x21 (n - 5) 0 || decide (w.at 0x21 (n - 5) 2 ≠ 1))) 8 Err.clock (mkH 0x40 n 0) n)
  let p7 := w.at 0x40 7 3
  let ref7 := findIf (w.on 0x40 7 0 && (decide (w.sapF p7 false 0 = 0) || decide (w.sapF p7 false 1 ≠ 0)
    || decide ((w.sapSet p7 false).clock ≠ 1))) 8 Err.clock (mkH 0x40 7 0) 7
  saps ++ madis ++ rates ++ decs ++ ref4 ++ ref56 ++ ref7

/-! ### Category 9: springs (R141, R142, R144, R155) -/

/-- Whether a SAP direction runs synchronous to amclk at 8× base rate and has a slot. -/
def State.springSap (w : State) (p : Nat) (tx : Bool) (slot : Nat) : Bool :=
  let c := w.sapSet p tx
  decide (c.kind = .spring8) && decide (c.clock ≤ 1) && decide (slot < 4) && decide (slot < c.slots) && bit (w.sapF p tx 0xA) slot

/-- Whether a spring source reference is legal. -/
def State.springSrcOk (w : State) (r : Nat) : Bool :=
  let p := refPort r
  let ch := refChan r
  match refType r with
  | 0 => decide (r = 0)
  | 2 => decide (p < 16) && w.springSap p false ch
  | 0x10 =>
    let i := w.at 0x24 (4 * p + ch) 0
    decide (p < 16) && decide (ch < 4) && w.on 0x24 (4 * p + ch) 1 &&
      (decide (i = 0xFFFF) || (decide ((w.sapSet (i / 256) false).clock ≤ 1) && decide ((w.sapSet (i / 256) false).kind ≠ .src)))
  | 0x11 => decide (p = 0) && decide (ch < 32)
  | _ => false

/-- The object of a spring word as category 9 reports it: the mix in [15:8] and the source entry, or 0x40 plus the field, in [7:0]; an
interpolator's number. -/
def springDetail (h : Nat) : Nat :=
  match hCls h with
  | 0x11 => hInst h / 64 * 256 + hInst h % 64
  | 0x10 => hInst h * 256 + 0x40 + hField h
  | _ => hInst h

/-- Category 9. While PD_SPRING is off, every spring word fails with E_STATE (R155). -/
def Chk.cat9 (k : Chk) : List Finding :=
  let w := k.w
  let srcs := (w.listed 0x11 0).flatMap (fun q =>
    findIf (!w.springSrcOk q.2) 9 Err.spring (mkH 0x11 q.1 0) (q.1 / 64 * 256 + q.1 % 64))
  let outs := (List.range 4).flatMap (fun j => (w.listed 0x10 j).map (fun q => (q.1, j, q.2)))
  let dests := (w.listed 6 0).map (·.2)
  let bad := fun (o : Nat × Nat × Nat) =>
    o.2.2 ≠ 0 ∧ (refType o.2.2 ≠ 2 ∨ 16 ≤ refPort o.2.2 ∨ !w.springSap (refPort o.2.2) true (refChan o.2.2)
      ∨ outs.any (fun q => decide (q.2.2 = o.2.2) && decide (q.1 * 4 + q.2.1 < o.1 * 4 + o.2.1))
      ∨ dests.any (fun r => (decide (refType r = 1) || decide (refType r = 2)) && decide (refPort r = refPort o.2.2) && decide (refChan r = refChan o.2.2)))
  let decs := (w.listed 0x24 0).flatMap (fun q =>
    findIf (decide (q.2 ≠ 0xFFFF) && (w.listed 0x24 0).any (fun p => decide (p.1 < q.1) && decide (p.2 = q.2))) 9 Err.spring
      (mkH 0x24 q.1 0) q.1)
  let off := if bit k.s.power.domains 5 then [] else
    (k.b.words.filter (fun e => decide (0x10 ≤ hCls e.1) && decide (hCls e.1 ≤ 0x12))).flatMap (fun e =>
      findIf true 9 Err.state e.1 (springDetail e.1))
  off ++ srcs ++ outs.flatMap (fun o => findIf (decide (bad o)) 9 Err.spring (mkH 0x10 o.1 o.2.1) (o.1 * 256 + 0x40 + o.2.1)) ++ decs

/-! ### Category 10: the legacy partition (R455, R471–R473, R497) -/

/-- Classes that carry audio, which legacy-only mode leaves to the legacy partition (log entry 46). -/
def audioCls (c : Nat) : Bool :=
  (decide (1 ≤ c) && decide (c ≤ 0x0B)) || (decide (0x10 ≤ c) && decide (c ≤ 0x13)) || (decide (0x20 ≤ c) && decide (c ≤ 0x25))
    || decide (c = 0x35) || decide (c = 0x36)

/-- Whether a reference names a port of the legacy partition. -/
def refLegacy (r : Nat) : Bool := (decide (refType r = 1) || decide (refType r = 2)) && decide (refPort r < 4)

/-- Whether a field holds a port channel reference, and which word a class's field names. -/
def isRefField (h : Nat) : Bool :=
  match hCls h, hField h with
  | 5, 0 => true | 5, 1 => true | 6, 0 => true | 8, 1 => true | 0x11, 0 => true
  | 0x10, f => decide (f < 4)
  | _, _ => false

/-- Whether a word breaks the legacy rules. -/
def Chk.legacyBad (k : Chk) (h w : Nat) : Bool :=
  let c := k.w.cap
  let cls := hCls h
  let n := hInst h
  let f := hField h
  if !c.legacy then isRefField h && decide (refType w = 7)
  else
    let corner := (decide (cls = 8) && (c.cornerSrc n || decide (f = 0 ∧ w / 2 ^ 24 = 5)))
      || (decide (cls = 9) && (c.cornerDst n || decide (w / 2 ^ 24 = 3)))
    let port := (isRefField h && refLegacy w) || (decide (cls = 0x20) && decide (n < 4))
      || (decide (cls = 0x24) && decide (f = 0) && decide (w ≠ 0xFFFF) && decide (w / 256 < 4))
      || (decide (cls = 0x40) && decide (n = 7) && decide (f = 3) && decide (w < 4))
    let owned := decide (k.v.ownerOf h = 15) || (k.v.wordTouch h w).contains 15
    let pr4 := decide (h = 0x50000001) && decide (w = 2)
    let only := decide (c.mode = 1) && (audioCls cls || (decide (cls = 0x60) && decide (f ≠ 0)))
    corner || port || owned || pr4 || only || decide (h = 0x0A000000)

/-- Category 10. The detail is the object. -/
def Chk.cat10 (k : Chk) : List Finding :=
  let c := k.w.cap
  k.b.words.flatMap (fun e => findIf (k.legacyBad e.1 e.2) 10 Err.legacy e.1 (hInst e.1))
    ++ (if c.legacy then k.b.nodes.flatMap (fun n =>
        findIf (decide (c.mode = 1) || c.cornerSrc (keySrc n.1) || c.cornerDst (keyDst n.1)
          || decide (k.v.ownerOf (0x03000000 + n.1) = 15)) 10 Err.legacy (0x03000000 + n.1) (keyDst n.1))
      else [])

/-! ### Category 11: pins and buffers (R199, R246, R268, R447, R479) -/

/-- R199: AT events that this set gives a slot in the block of its commit sample, with those of commits that fall in the same block; without
a commit sample, its own. -/
def Chk.atEvents (k : Chk) (n : Nat) (c : Option Nat) : Nat :=
  let mine := fun (l : List (Nat × Nat)) => l.filter (fun e =>
    decide (hCls e.1 = 0x0B) && decide (hInst e.1 = n) && (k.w.field e.1).any (fun f => decide (f.tr = .at)) && decide (hField e.1 < 0xF0))
  let sets := match c with
    | some c => (k.s.coming.filter (fun d => decide (d.set ≠ k.x.id) && decide (d.c / k.w.B = c / k.w.B))).flatMap (fun d =>
        (mine (k.s.bodyOf d.added).words).map (fun e => (d.c, e.1)))
    | none => []
  -- a slot that the set loads or reloads starts with its new words: they are no events
  let fresh := decide (k.v.slotMod n ≠ k.w.slotMod n) || k.b.writes (mkH 0x0B n 0xF0) || k.b.writes (mkH 0x0B n 0xF1)
  if fresh then 0 else (sets ++ (mine k.b.words).map (fun e => (c.getD 0, e.1))).eraseDups.length

/-- R199: findings for the slots that would get more AT events than they take. -/
def Chk.events (k : Chk) (c : Option Nat) : List Finding :=
  (((k.b.ofCls 0x0B).map (fun e => hInst e.1)).eraseDups).flatMap (fun n =>
    findIf ((k.w.slotImage n).any (fun i => decide (imgAt i < k.atEvents n c))) 11 Err.buffer (mkH 0x0B n 0xF0) n)

/-- What a commit sample decides that a check without one cannot: a shape change too close behind a node gain (R80), too many AT events
(R199). -/
def Chk.late (k : Chk) (c : Nat) : List Finding := (if k.shapeLate c then [shapeFinding] else []) ++ k.events (some c)

/-- R117, R246, R268, R447, R479: pins and buffers that a configuration asks for and something else owns. -/
def State.contended (s w : State) : List Finding :=
  let pins := (w.listed 0x32 0).filter (fun q => decide (q.2 ≠ 0xFF))
  let phc := pins.flatMap (fun q =>
    findIf (decide (20 < q.2) || decide (Cells.get 0 s.boot.pins q.2 ≠ 1) || pins.any (fun p => decide (p.1 < q.1) && decide (p.2 = q.2)))
      11 Err.pinConflict (mkH 0x32 q.1 0) q.2)
  let sync := findIf (decide (w.at 0x25 0 0 ≠ 0) && decide (Cells.get 0 s.boot.pins 16 ≠ 0)) 11 Err.pinConflict (mkH 0x25 0 0) 16
  let jitter := findIf (decide (4 * 2 ^ 20 < w.jitterBytes)) 11 Err.buffer (mkH 0x35 0 0) (w.jitterBytes - 4 * 2 ^ 20)
  let nonconv := if s.power.straps.twinEn then w.usedSlots.flatMap (fun n =>
      findIf ((w.slotImage n).any (fun i => imgFlag i 0 && decide (4096 < imgXs i + imgYs i))) 11 Err.buffer (mkH 0x0B n 0xF0) n)
    else []
  phc ++ sync ++ jitter ++ nonconv

/-- Category 11, of the set's commit and of the armed cues after it, whose resources are reserved (R132). -/
def Chk.cat11 (k : Chk) : List Finding :=
  k.s.contended k.w ++ (k.foreseen k.ledger.1).flatMap (fun q => k.s.contended q.1) ++ k.events k.c

/-! ### Category 12 and the whole -/

/-- R121: touched partitions that another session must co-sign: not the opener's own, not partition 0, not the legacy partition (R472). -/
def State.needCosign (s : State) (x : StageSet) (b : Body) (v : State) : List Nat :=
  if s.ofDevice x then []
  else (v.partsOf b).filter (fun p =>
    decide (p ≠ 0) && !(s.cap.legacy && decide (p = 15)) && decide (s.owner p ≠ x.sid) && !x.cosigned.contains p)

/-- Category 12 in a check: a partition that no session owns cannot co-sign. What other sessions own is judged at the commit (log entry
42). -/
def Chk.cat12 (k : Chk) : List Finding :=
  ((k.s.needCosign k.x k.b k.v).filter (fun p => decide (k.s.owner p = 0))).flatMap (fun p => findIf true 12 Err.cosign 0 p)

/-- What a check of a set at a commit sample looks at, before entries drop out. -/
def State.chkOf (s : State) (x : StageSet) (c : Option Nat) : Chk :=
  let v := s.predict c x.id
  let b := v.bodyOf x.added
  { s := s, v := v, w := v.overlay b, b := b, x := x, c := c }

/-- R112: the check: entries that fail categories 1 or 2 take no part in the later ones; at most 32 findings, in the order of the
categories. -/
def State.check (s : State) (x : StageSet) (c : Option Nat) : List Finding :=
  let k0 := s.chkOf x c
  let (f, b) := k0.entries
  let k1 : Chk := { k0 with b := b, w := k0.v.overlay b }
  let j := k1.joint
  let b2 := k1.without j
  let k : Chk := if j.isEmpty then k1 else { k1 with b := b2, w := k0.v.overlay b2 }
  (f ++ j ++ k.cat3 ++ k.cat45 ++ k.cat6 ++ k.cat7 ++ k.cat8 ++ k.cat9 ++ k.cat10 ++ k.cat11 ++ k.cat12).take 32

end Sys2Proof.Machine
end

