-- ==== Sys2Proof/Machine/Interp.lean ====
section
/-! DEFINITION. Sys2Proof/Machine/Interp.lean: the interpolators that feed bus outputs to the spring mixer (R145). -/
namespace Sys2Proof.Machine

open Fmt

/-- The spring mixer changed. -/
def State.setSpring (s : State) (f : SpringG → SpringG) : State := { s with spring := f s.spring }
/-- Spring samples of an engine-sample length (R139): 8/p to one. -/
def State.perEngine (s : State) : Nat := 8 / rateMul s.prof

/-- R145: the engine samples that an interpolator's filter holds at MCC m, newest first: a linear-phase filter with a delay of 16 spring
samples spans 32 of them. -/
def SpringInterp.window (i : SpringInterp) (perEngine m : Nat) : List Int :=
  (((i.blk.take (m + 1 - i.start)).reverse.map (·.getD 0)) ++ i.past).take (32 / perEngine + 1)

/-- R145: the interpolator's output: exact zero with no bus; a steady input passes at 0 dB; any other output is a free value of the samples
that the filter holds, since its coefficients are not stated (log entry 3). -/
def State.interpOut (s : State) (n : Nat) : Int :=
  let i := Cells.get SpringInterp.reset s.spring.interps n
  let w := i.window s.perEngine s.mcc
  if (i.blk.take (s.mcc + 1 - i.start)).getLast?.all (·.isNone) then 0
  else if w.all (fun v => decide (v = w.headD 0)) then w.headD 0
  else satE48 (Config.interpolate s.prof s.spring.phase.2 w)

/-- R145, R40, R47: one interpolator at the bus stage's frame tick: the block from stamp b that its bus has completed, with its patch
crossfade; it enters the filter from this MCC on. -/
def State.interpBlock (s : State) (b n : Nat) : State :=
  let i0 := Cells.get SpringInterp.reset s.spring.interps n
  let r := (List.range s.B).foldl (fun (a : Xf × List (Option Int) × Nat) j =>
    let k := b + j
    let len := s.valAt (mkH 0x12 n 1) k
    let (x, p) := (a.1.relength len).take [s.valAt (mkH 0x12 n 0) k] (touched (s.chgAt 0x12 n k) [0] false |>.map fun _ => len) k
    let smp := fun (v : List Nat) => if v.headD 0xFFFF = 0xFFFF then 0 else (Cells.get [] s.audio.busOut (v.headD 0)).getD j 0
    let y := if x.run.isNone ∧ x.cur = [0xFFFF] then none else some (x.mix k (smp x.cur) (smp x.target))
    (x, a.2.1 ++ [y], a.2.2 + p)) (i0.busX, [], 0)
  let past := (i0.blk.reverse.map (·.getD 0) ++ i0.past).take 32
  let quiet := r.2.1.all (·.isNone) && past.all (fun v => decide (v = 0))
  let i : SpringInterp := if quiet then { SpringInterp.reset with busX := r.1 } else { busX := r.1, start := s.mcc, blk := r.2.1, past := past }
  (s.setSpring (fun g => { g with interps := Cells.put SpringInterp.reset g.interps n i })).superseded 0 n r.2.2

/-- Every interpolator at a frame tick. -/
def State.interpTick (s0 : State) (b : Nat) : State :=
  (busyOf 32 (s0.touchedObjs 0x12 ++ s0.spring.interps.map (·.1))).foldl (fun s n => s.interpBlock b n) s0

end Sys2Proof.Machine
end

