-- ==== Sys2Proof/Machine/Spring.lean ====
section
/-! DEFINITION. Sys2Proof/Machine/Spring.lean: the spring mixer (R139–R154). -/
namespace Sys2Proof.Machine

open Fmt

/-- One mix. -/
def SpringG.mix (g : SpringG) (m : Nat) : SpringMix := Cells.get SpringMix.reset g.mixes m
/-- One source's queue. -/
def SpringG.src (g : SpringG) (r : Nat) : SpringSrc := Cells.get SpringSrc.reset g.srcs r
/-- One source's queue changed. -/
def State.updSpringSrc (s : State) (r : Nat) (f : SpringSrc → SpringSrc) : State :=
  s.setSpring (fun g => { g with srcs := Cells.upd SpringSrc.reset g.srcs r f })
/-- spring.t_zc and spring.l_ramp. -/
def State.springT (s : State) : Nat := s.at 0x13 0 0
def State.springL (s : State) : Nat := s.at 0x13 0 1

/-- The SAP port that gives a spring source its clock: its own, or the input of its decimator channel. -/
def State.springPort (s : State) (ref : Nat) : Option Nat :=
  match refType ref with
  | 0x02 => some (refPort ref)
  | 0x10 =>
    let i := (s.decCh (4 * refPort ref + refChan ref)).input
    if i = 0xFFFF then none else some (i / 256)
  | _ => none

/-- R152: whether a source's port is in loss or not running. -/
def State.springLoss (s : State) (ref : Nat) : Bool :=
  match s.springPort ref with
  | some p => (s.sapDir p false).out
  | none => false

/-! ### Sources -/

/-- R152: the port flags loss: the source fades from its held value over 32 spring samples. -/
def SpringSrc.clockLoss (q : SpringSrc) : SpringSrc := { q with lost := true, fade := some (q.held, 0), queue := [], fresh := false }

/-- R152: the port has resumed: every entry that reads the source returns from zero at its first zero crossing. -/
def springReturn (n : Nat) (ref : Nat) (m : StepG) : StepG :=
  let ks := (m.nodes.filter (fun c => decide (c.2.tap = ref))).map (·.1)
  let m1 := { m with nodes := m.nodes.map (fun c =>
    if c.2.tap = ref then (c.1, { c.2 with cur := 0, st := if c.2.goal = 0 then NodeSt.idle else .pending, hold := false }) else c) }
  if ks.isEmpty then m1
  else { m1 with groups := Cells.put Group.idle m1.groups ref { tp := some n, ramp := none } }

/-- A source's loss and recovery seen by the spring mixer (R152). -/
def State.springWatch (s : State) (ref : Nat) : State :=
  let q := s.spring.src ref
  if s.springLoss ref then
    if q.lost then s else s.updSpringSrc ref SpringSrc.clockLoss
  else if q.lost then
    (s.updSpringSrc ref (fun q => { q with lost := false, fade := none, held := 0 })).setSpring (fun g =>
      { g with step := springReturn g.n ref g.step })
  else s

/-- R143: the sample a period reads from a source's queue: the newest one written since the last period, or the previous one again;
in loss, the fade and zero. The third result says that a running source's sample was repeated. -/
def SpringSrc.read (q : SpringSrc) : SpringSrc × Int × Bool :=
  match q.fade with
  | some (v, k) => let y := fadeAt v k; ({ q with fade := if k < 32 then some (v, k + 1) else some (v, 32), held := 0, prev := q.prev }, y, false)
  | none =>
    if q.lost then (q, 0, false)
    else if q.fresh then
      let y := q.queue.getLastD q.held
      ({ q with queue := q.queue.dropLast, held := y, fresh := false }, y, false)
    else (q, q.held, true)

/-- The sample of a source for this period: an SAP or decimator sample from its queue, an interpolator's output, or nothing. -/
def State.springRead (s : State) (ref : Nat) : State × Int :=
  match refType ref with
  | 0x11 => (s, s.interpOut (refChan ref))
  | 0 => (s, 0)
  | _ =>
    let s1 := s.springWatch ref
    let (q, y, rep) := (s1.spring.src ref).read
    let s2 := s1.updSpringSrc ref (fun _ => q)
    (if rep then s2.springSlip ref else s2, y)

/-! ### Commits at the spring rate (R147–R150) -/

/-- The committed source reference and gain of an entry. -/
def State.springEntry (s : State) (k : Nat) : Nat × Int := (s.at 0x11 k 0, s.sat 0x11 k 1)

/-- R150: the output slots of a mix: those it drives move to unity, those it gave up to 0. -/
def State.springSlots (s : State) (m n : Nat) (x : SpringMix) : SpringMix :=
  let outs := ((List.range 4).map (fun j => s.at 0x10 m j)).filter (· ≠ 0)
  let kept := x.slots.map (fun c => (c.1, if outs.contains c.1 then c.2.commit n unity else c.2.commit n 0))
  { x with slots := outs.foldl (fun l r =>
      if l.any (fun c => c.1 = r) then l else Cells.ins l r (((Zc.at 0).commit n unity).after (x.pipe.getD 2 0))) kept }

/-- One committed parameter of a mix taken at spring sample n. -/
def State.springMixParam (s : State) (n m f cf : Nat) : State :=
  let (lim, p) := if f = 0x0A then (s.spring.mix m).lim.take [s.at 0x10 m 0x0A] (some (cf * s.perEngine)) n else ((s.spring.mix m).lim, 0)
  (s.setSpring (fun g => { g with mixes := Cells.upd SpringMix.reset g.mixes m (fun x =>
    match f with
    | 0x08 => { x with gain := x.gain.commit n (gainOf (s.at 0x10 m 0x08)) }
    | 0x09 => { x with mute := x.mute.commit n (if s.at 0x10 m 0x09 = 1 then 0 else unity) }
    | 0x0A => { x with lim := lim }
    | _ => if f < 4 then s.springSlots m n x else x) })).superseded (s.at 0x10 m 0x1F) m p

/-- R247: a committed dc.enable of a decimator channel taken at spring sample n. -/
def State.dcTake (s : State) (n i cf : Nat) : State :=
  let (x, p) := (s.decCh i).dcX.take [s.at 0x24 i 3] (some (cf * s.perEngine)) n
  (s.updDec i (fun q => { q with dcX := x })).superseded (s.at 0x24 i 7) i p

/-- What was committed since the last period (R148): mixes and interpolators at once, entries as the nodes to step. -/
def State.springTake (s : State) : State × List (Nat × Int × Nat) :=
  let n := s.spring.n
  let s1 := s.spring.pend.foldl (fun s q =>
    match hCls q.1 with
    | 0x10 => s.springMixParam n (hInst q.1) (hField q.1) q.2.2
    | 0x24 => s.dcTake n (hInst q.1) q.2.2
    | _ => s) s
  let entries := (s.spring.pend.filter (fun q => hCls q.1 = 0x11)).map (fun q => hInst q.1)
  (s1.setSpring (fun g => { g with pend := [] }),
    entries.eraseDups.map (fun k => (k, (s.springEntry k).2, (s.springEntry k).1)))

/-! ### One spring sample -/

/-- What the stepping of the entries reads. -/
def springEnv (tzc lramp : Nat) (sig prev : Cells Int) : StepEnv where
  zero := springNode0
  tzc := tzc
  lramp := lramp
  handover := fun _ => true
  gk := fun _ x => x.tap
  sig := fun g => Cells.get 0 sig g
  prev := fun g => Cells.get 0 prev g
  hear := fun _ x => Cells.get 0 sig x.tap

/-- R150: a mix result on its way to its output slots, each through its handover gain; a slot given up that has reached 0 leaves the mix.
The words of the period are collected by slot: while a slot passes from one mix to another, both give their part (log entry 167, DESIGN
CHOICE). -/
def State.springOut (s : State) (m n : Nat) (v : Int) (w : Cells Int) : State × Cells Int :=
  let (slots, w1) := (s.spring.mix m).slots.foldl (fun (a : Cells Zc × Cells Int) c =>
    let z := c.2.sample v n s.springT s.springL
    let gone := decide (z.gain = 0) && decide (z.tgt = 0) && z.ramp.isNone
    (if gone then a.1 else a.1 ++ [(c.1, z)], Cells.ins a.2 c.1 (satS 32 (Cells.get 0 a.2 c.1 + gmul v (z.applied n))))) ([], w)
  (s.setSpring (fun g => { g with mixes := Cells.upd SpringMix.reset g.mixes m (fun x => { x with slots := slots }) }), w1)

/-- R143, R437: the words of a period into the output queues, where the oldest unread sample gives way, and among the words of the block. -/
def State.springSend (s : State) (w : Cells Int) : State :=
  let s1 := s.setSpring (fun g => { g with outQ := w.foldl (fun (q : Cells (List Int)) (c : Nat × Int) => Cells.put [] q c.1 ((c.2 :: Cells.get [] q c.1).take 2)) g.outQ })
  if s.power.straps.twinEn then s1.setTwin (fun t => { t with
    springW := w.foldl (fun (l : Cells (List Int)) (c : Nat × Int) => Cells.upd [] l c.1 (· ++ [c.2])) t.springW }) else s1

/-- R139's chain of mix m on spring sample n, from its sum. -/
def State.springMix (s : State) (n m : Nat) (sum : Int) (w : Cells Int) : State × Cells Int :=
  let x := s.spring.mix m
  let e := satE48 sum
  let g := x.gain.sample e n s.springT s.springL
  let y1 := gmul e (g.applied n)
  let mu := x.mute.sample e n s.springT s.springL
  let y2 := satE48 (gmul (satE48 y1) (mu.applied n))
  let lg := min (limNeed (limT (s.at 0x10 m 0x0B)) y2) (limRecover x.limG (limRel (s.at 0x10 m 0x0C) (8 * baseRate s.fam)))
  let (lim, y3) := x.lim.switch n y2 (limApply y2 lg)
  let om := x.outM.sample y3 n s.springT s.springL
  let y4 := gmul y3 (om.applied n)
  let bits := s.at 0x10 m 0x0D
  let (d, dv) := ditherStep x.dither bits
  let (o, sat) := if om.applied n = 0 then ((0 : Int), false) else outTrunc (y4 + if s.at 0x10 m 0x0E = 1 then dv else 0) bits
  let late := x.pipe.getD 1 0
  let s1 := s.setSpring (fun q => { q with
    mixes := Cells.put SpringMix.reset q.mixes m
      { x with gain := g, mute := mu, lim := lim, limG := lg, outM := om, dither := d, pipe := (o :: x.pipe).take 3 }
    sat := Cells.upd 0 q.sat m (fun c => satInc c (b2n (overS 48 sum) + b2n sat)) })
  s1.springOut m n late w

/-- R139, R147: the sources that a period reads, those of entries and commits first; sources that no entry reads move on with them, so that
a group has its signal of the sample before from its first sample on. -/
def State.springRefs (s : State) (commits : List (Nat × Int × Nat)) : List Nat :=
  let read := s.spring.step.nodes.flatMap (fun c => [c.2.tap, c.2.ntap])
  let new := commits.map (fun q => q.2.2)
  let rest := s.spring.srcs.map (fun c => c.1)
  let interps := s.spring.interps.map (fun c => 0x11000000 + c.1)
  (read ++ new ++ rest ++ interps).eraseDups.filter (· ≠ 0)

/-- R139: which period of an engine sample this one is. -/
def SpringG.tickPhase (g : SpringG) (m : Nat) : Nat × Nat := if g.phase.1 = m then (m, g.phase.2 + 1) else (m, 0)

/-- R154: a failed residue check of a unit: recomputed within the period where it fits. -/
def State.springDetect (s : State) (q : Nat × Bool) : State :=
  if 12 ≤ q.1 ∨ s.spring.retired.contains q.1 then s
  else
    let n := s.spring.n
    let s1 := s.setSpring (fun g => { g with
      detect := Cells.upd [] g.detect q.1 (fun l => (n :: l).filter (fun t => decide (n < t + 4096)))
      recompute := if q.2 then satInc g.recompute 1 else g.recompute })
    if q.2 then s1.raise .springRecompute 0 q.1 0 else (s1.raise .springUncorrected 0 q.1 0).uncorrected

/-- SPRING_PERIOD: the mixer reads its queues and computes every mix (R139–R154); `detections` are the units whose checks fail, with
whether a free slot is left. While PD_SPRING is off the mixer does nothing, and only the spring samples by which the decimators count go
on (R20, R242). -/
def execSpringPeriod (detections : List (Nat × Bool)) (s : State) : Host.Outcome State Fault Refusal :=
  if !s.live then .next s
  else
    let n := s.spring.n
    let (s1, commits) := ((s.setSpring (fun g => { g with phase := g.tickPhase s.mcc })).decIdle).springTake
    if !bit s.power.domains 5 then .next (s1.setSpring (fun g => { g with n := n + 1 }))
    else
    let refs := s1.springRefs commits
    let (s2, sig) := refs.foldl (fun (a : State × Cells Int) r =>
      let (s', v) := a.1.springRead r
      (s', Cells.put 0 a.2 r v)) (s1, [])
    let env := springEnv s.springT s.springL sig s.spring.sig
    let step := s2.spring.step.sample env n commits
    let s3 := s2.setSpring (fun g => { g with step := step, sig := sig })
    let (s4, w) := (List.range 16).foldl (fun (a : State × Cells Int) m => a.1.springMix n m (step.sum env n (· / 64) m) a.2) (s3, [])
    let s5 := detections.foldl State.springDetect (s4.springSend w)
    .next (s5.setSpring (fun g => { g with n := n + 1 }))

/-- SPRING_SOURCE_HANDOVER: an entry that applies 0 switches source (R149). -/
def execSpringSourceHandover (m i : Nat) (s : State) : Host.Outcome State Fault Refusal :=
  if 16 ≤ m ∨ 64 ≤ i then .next s
  else
    let env := springEnv s.springT s.springL s.spring.sig s.spring.sig
    .next (s.setSpring (fun g => { g with step := (g.step.tapSwitch env g.n (m * 64 + i)).1 }))

/-- SPRING_OUTPUT_HANDOVER: an output slot steps to or from the mix output at its zero crossing (R150). -/
def execSpringOutputHandover (m ref : Nat) (s : State) : Host.Outcome State Fault Refusal :=
  if 16 ≤ m then .next s
  else .next (s.setSpring (fun g => { g with mixes := Cells.upd SpringMix.reset g.mixes m (fun x =>
    { x with slots := x.slots.map (fun c => if c.1 = ref ∧ c.2.tp.isSome then (c.1, c.2.step) else c) }) }))

/-- SPRING_SOURCE_CLOCK_LOSS: a spring source's port flags loss (R152). -/
def execSpringSourceClockLoss (ref : Nat) (s : State) : Host.Outcome State Fault Refusal :=
  if s.springLoss ref ∧ !(s.spring.src ref).lost then .next (s.updSpringSrc ref SpringSrc.clockLoss) else .next s

/-- SPRING_OUTPUT_CLOCK_RETURN: the port sends again from the newest mix sample (R153). -/
def execSpringOutputClockReturn (ref : Nat) (s : State) : Host.Outcome State Fault Refusal :=
  if s.spring.stopped.contains ref then
    .next (s.setSpring (fun g => { g with
      stopped := g.stopped.filter (· ≠ ref), outQ := Cells.put [] g.outQ ref ((Cells.get [] g.outQ ref).take 1) }))
  else .next s

/-- SPRING_UNIT_RETIRE: three detections within 4096 spring samples (R154). -/
def execSpringUnitRetire (unit : Nat) (s : State) : Host.Outcome State Fault Refusal :=
  let g := s.spring
  let recent := (Cells.get [] g.detect unit).filter (fun t => decide (g.n ≤ t + 4096))
  if 12 ≤ unit ∨ g.retired.contains unit ∨ recent.length < 3 then .next s
  else
    let s1 := s.setSpring (fun g => { g with detect := Cells.put [] g.detect unit [] })
    .next (if g.retired.length < 3 then
      (s1.setSpring (fun g => { g with retired := g.retired ++ [unit] })).raise .springUnitRetired 0 unit 0
    else s1.raise .springSpareExhausted 0 unit 0)

/-! ### Device state -/

/-- R351, R353: the spring outputs held muted, or released at their first zero crossings. -/
def State.muteSprings (s : State) : State :=
  s.setSpring (fun g => { g with mixes := (List.range 16).foldl (fun c m => Cells.upd SpringMix.reset c m (fun x => { x with outM := Zc.at 0 })) g.mixes })
def State.unmuteSprings (s : State) : State :=
  s.setSpring (fun g => { g with mixes := (List.range 16).foldl (fun c m => Cells.upd SpringMix.reset c m (fun x =>
    { x with outM := x.outM.commit g.n unity })) g.mixes })
/-- The legacy output slots are held muted (R351). -/
def State.muteLegacy (s : State) : State := s.setLeg (fun g => { g with outM := [] })

/-- Every output of the device is held muted (R3, R351, R355). -/
def State.muteAll (s : State) : State := (s.muteOutputs.muteSprings).muteLegacy

/-- R69, R140: the generators of the mixes, n = 4096 + m. -/
def State.seedSprings (s : State) (dev : Nat) : State :=
  s.setSpring (fun g => { g with mixes := (List.range 16).foldl (fun c m => Cells.upd SpringMix.reset c m (fun x =>
    { x with dither := ditherSeed dev (4096 + m) })) g.mixes })

end Sys2Proof.Machine
end

