-- ==== Sys2Proof/Machine/Commit.lean ====
section
/-! DEFINITION. Sys2Proof/Machine/Commit.lean: what a stage set does at its commit sample (R126): parameters of the block audio path go to
the stages by stamp (R95, R123), everything else takes them at the live instant. -/
namespace Sys2Proof.Machine

open Fmt

/-- A change of the scene engine. -/
def State.setScene (s : State) (f : SceG → SceG) : State := { s with scene := f s.scene }

/-- What a commit works with: the configuration before it and what it writes, its sample, its crossfade lengths. -/
structure Cmt where
  old : State
  b   : Body
  c   : Nat
  cf  : Nat
  dx  : Nat

/-- Whether a word of the configuration takes another value. -/
def Cmt.turns (k : Cmt) (s : State) (h : Nat) : Bool := decide (k.old.val h ≠ s.val h)
/-- Words of a class that the set writes with another value: instance, field, value. -/
def Cmt.turned (k : Cmt) (s : State) (cls : Nat) : List (Nat × Nat × Nat) :=
  ((k.b.ofCls cls).filter (fun e => k.turns s e.1)).map (fun e => (hInst e.1, hField e.1, e.2))

/-! ### The block audio path -/

/-- Classes whose words the stages take by stamp. -/
def stampCls (c : Nat) : Bool := [1, 2, 5, 6, 7, 8, 9, 0x0A, 0x12, 0x60].contains c

/-- The first stamp of a shape change at c: s0 of R80. -/
def firstBlock (c B : Nat) : Nat := cdiv c B * B

/-- The stamp from which a commit at c reaches the Mere's maps and nodes: a shape change on its way comes first (R80). -/
def State.matrixStamp (s : State) (c : Nat) (reshape : Bool) : Nat :=
  let c0 := if reshape then firstBlock c s.B else c
  (s.mere.queue.filter (fun q => q.shape.isSome)).foldl (fun a q => max a q.c) c0

/-- A committed word on its way through the stages. Words that two sets write at one sample make one transition (R126). -/
def addChange (l : List Change) (x : Change) : List Change :=
  if l.any (fun y => decide (y.c = x.c) && decide (y.h = x.h)) then
    l.map (fun y => if y.c = x.c ∧ y.h = x.h then { y with new := x.new, cf := x.cf, dx := x.dx } else y)
  else l ++ [x]

/-- Handles of the block audio path that a commit writes or changes: compensation delays (R72) and maps that a new shape resets (R80)
among them. -/
def Cmt.stamped (k : Cmt) (s : State) : List Nat :=
  let written := (k.b.words.map (·.1)).filter (fun h => stampCls (hCls h) || (decide (hCls h = 0x0B)
    && (s.field h).any (fun f => decide (f.tr = .cf))))
  let moved := ((k.old.params ++ s.params).map (·.1)).filter (fun h => stampCls (hCls h) && k.turns s h)
  (written ++ moved).eraseDups

/-- R95, R123: the words go to the stages with the sample on which they start. -/
def Cmt.toPath (k : Cmt) (s : State) : State :=
  let reshape := decide (k.old.shape ≠ s.shape)
  let cm := k.old.matrixStamp k.c reshape
  s.setAudio (fun a => { a with changes := (k.stamped s).foldl (fun l h =>
    addChange l (Change.mk (if hCls h = 8 ∨ hCls h = 9 then cm else k.c) h (k.old.val h) (s.val h) k.cf k.dx)) a.changes })

/-- R96, R80: node targets and a new shape go to the Mere. -/
def Cmt.toMere (k : Cmt) (s : State) : State :=
  let reshape := decide (k.old.shape ≠ s.shape)
  let nodes := k.b.nodes.map (fun n => (n.1, (n.2.getD (0, 2)).1, (n.2.getD (0, 2)).2))
  let s1 := if k.b.movesGain k.old then s.setMere (fun m => { m with lastC := some k.c }) else s
  if nodes.isEmpty ∧ !reshape then s1
  else s1.setMere (fun m => { m with
    queue := m.queue ++ [{ c := k.old.matrixStamp k.c reshape, nodes := nodes, shape := if reshape then some s.shape else none }] })

/-- R96: the staged plane cleared. -/
def MereG.clearPlane (m : MereG) : MereG :=
  { m with step := { m.step with nodes := m.step.nodes.filterMap (fun c =>
      let x : Node := { c.2 with stg := stgNone, stap := 2 }
      if x = Node.reset then none else some (c.1, x)) } }

/-! ### Effect slots -/

/-- The lowest address at which n words fit beside the runs in use and below a limit (R157). -/
def firstFit (used : List (Nat × Nat)) (lim n : Nat) : Option Nat :=
  let free := (0 :: used.map (fun u => u.1 + u.2)).filter (fun a =>
    decide (a + n ≤ lim) && used.all (fun u => decide (a + n ≤ u.1) || decide (u.1 + u.2 ≤ a)))
  free.foldl (fun (m : Option Nat) a => some (m.elim a (min a))) none

/-- A slot's instance gone: its task runs no more, and an engine that was running it goes on with its stub. -/
def State.dropSlot (s : State) (n : Nat) : State :=
  let e := s.phys (s.slotRt n).engine
  let x := s.eng e
  let y := { x with
    queue := x.queue.filter (fun t => decide (t.inst ≠ n)), ended := x.ended.filter (fun t => decide (t.inst ≠ n)) }
  let s1 := if (s.slotRt n) = SlotRt.reset then s
    else s.setEng e (if x.cur.any (fun t => decide (t.inst = n)) then Tarn.endTask { y with halt := none } else y)
  s1.updSlot n (fun _ => SlotRt.reset)

/-- A run of words as it stands and its length, put in ascending order. -/
def insertRun (u : Nat × Nat) : List (Nat × Nat) → List (Nat × Nat)
  | [] => [u]
  | v :: l => if u.1 ≤ v.1 then u :: v :: l else v :: insertRun u l

/-- Runs moved together from address 0, in ascending order: old base, new base, length. -/
def packed (used : List (Nat × Nat)) : List (Nat × Nat × Nat) :=
  ((used.eraseDups.foldl (fun l u => insertRun u l) []).foldl (fun (a : Nat × List (Nat × Nat × Nat)) u =>
    (a.1 + u.2, a.2 ++ [(u.1, a.1, u.2)])) (0, [])).2

/-- A memory with its runs moved. -/
def moveRuns (m : Mem) (l : List (Nat × Nat × Nat)) : Mem :=
  l.foldl (fun m q => Cells.putAll 0 m q.2.1 (Cells.getAll 0 m q.1 q.2.2)) m

/-- The new base of a run. -/
def newBase (l : List (Nat × Nat × Nat)) (base : Nat) : Nat := ((l.find? (fun q => decide (q.1 = base))).map (fun q => q.2.1)).getD base

/-- The instances that stand on an engine, but for the slots of `wait`: slot, image. -/
def State.standing (s : State) (e : Nat) (wait : List Nat) : List (Nat × List Nat) :=
  (s.usedSlots.filter (fun m => !wait.contains m && decide ((s.slotRt m).engine = e))).filterMap (fun m => (s.slotImage m).map (fun i => (m, i)))

/-- The runs of P, X and Y words that instances take. -/
def State.runsP (s : State) (l : List (Nat × List Nat)) : List (Nat × Nat) := l.map (fun q => ((s.slotRt q.1).pBase, imgPWords q.2))
def State.runsX (s : State) (l : List (Nat × List Nat)) : List (Nat × Nat) := l.map (fun q => ((s.slotRt q.1).xBase, (imgWords q.2 s.B).1))
def State.runsY (s : State) (l : List (Nat × List Nat)) : List (Nat × Nat) := l.map (fun q => ((s.slotRt q.1).yBase, (imgWords q.2 s.B).2))

/-- The instances of an engine moved together, with their words (log entry 9). -/
def State.pack (s : State) (e : Nat) (wait : List Nat) : State :=
  let near := s.standing e wait
  let p := packed (s.runsP near)
  let x := packed (s.runsX near)
  let y := packed (s.runsY near)
  let k := s.phys e
  let g := s.eng k
  let s1 := s.setEng k { g with pMem := moveRuns g.pMem p, xMem := moveRuns g.xMem x, yMem := moveRuns g.yMem y }
  near.foldl (fun s q => s.updSlot q.1 (fun r => { r with
    pBase := newBase p r.pBase, xBase := newBase x r.xBase, yBase := newBase y r.yBase })) s1

/-- Where the module of a slot fits beside the instances that stand on an engine: its P, X and Y bases. One copy of the code serves every
instance of a module. -/
def State.baseFor (s : State) (n e : Nat) (img : List Nat) (wait : List Nat) : Option (Nat × Nat × Nat) :=
  let near := s.standing e wait
  let w := imgWords img s.B
  let pB := match near.find? (fun q => decide (s.slotMod q.1 = s.slotMod n)) with
    | some q => some (s.slotRt q.1).pBase
    | none => firstFit (s.runsP near) 0x3F00 (imgPWords img)
  pB.bind (fun p => (firstFit (s.runsX near) 0x7E00 w.1).bind (fun x => (firstFit (s.runsY near) 0x7E00 w.2).map (fun y => (p, x, y))))

/-- R115, R157, R196, R203: the module of a slot is loaded on an engine beside the instances that stand there, which are moved together
where no gap is large enough; `wait` are slots still to be loaded. An instance that the engine cannot hold, which admission refuses (R203), gives
its fall-back. -/
def State.loadSlot (s0 : State) (n e : Nat) (wait : List Nat) : State :=
  match s0.slotImage n with
  | none => s0
  | some img =>
    let s := if (s0.baseFor n e img wait).isSome then s0 else s0.pack e wait
    match s.baseFor n e img wait with
    | none => s.updSlot n (fun _ => { SlotRt.reset with engine := e, failed := true })
    | some (pB, xB, yB) =>
      let w := imgWords img s.B
      let p := s.phys e
      let x0 := s.eng p
      let x1 := (x0.putRun false xB (List.replicate w.1 0)).putRun true yB (List.replicate w.2 0)
      let x2 := loadWords img (layOf img s.B xB yB) pB (fun d => s.at 0x0B n d.field) x1
      (s.setEng p x2).updSlot n (fun _ => { SlotRt.reset with
        engine := e, pBase := pB, xBase := xB, yBase := yB, xf := Xf.at ((imgCf img).map (fun d => s.at 0x0B n d.field)) })

/-- Slots loaded one after the other. -/
def State.loadSlots (eng : Nat → Nat) : List Nat → State → State
  | [], s => s
  | n :: rest, s => State.loadSlots eng rest (s.loadSlot n (eng n) (n :: rest))

/-- R114–R116: admission's ledger after the commit. -/
def Cmt.ledger (k : Cmt) (s : State) : Ledger := (k.old.ledger.step k.old.nativeEngines k.old s (some k.c) k.cf k.dx).1

/-- R59, R115, R193: slots that a commit gives a module, reloads or empties. `all` reloads every slot, which a change of block size
needs. -/
def Cmt.toSlots (k : Cmt) (s : State) (all : Bool) : State :=
  let hit := (List.range 64).filter (fun n => (all && decide ((s.slotMod n).1 ≠ 0)) || decide (k.old.slotMod n ≠ s.slotMod n)
    || k.b.writes (mkH 0x0B n 0xF0) || k.b.writes (mkH 0x0B n 0xF1))
  let pl := (k.ledger s).mods
  let engOf := fun n => ((pl.find? (fun p => decide (p.slot = n))).map (·.engine)).getD (s.nativeEngines.headD 0)
  let s1 := hit.foldl (fun s n => s.dropSlot n) s
  let s2 := State.loadSlots engOf (hit.filter (fun n => (s.slotImage n).isSome)) s1
  -- R199: AT parameters of running instances become events; one commit sample merges
  ((k.b.ofCls 0x0B).filter (fun e => decide (hField e.1 < 0xF0) && !hit.contains (hInst e.1)
      && (s.field e.1).any (fun f => decide (f.tr = .at)))).foldl (fun s e =>
    s.updSlot (hInst e.1) (fun r => { r with
      events := r.events.filter (fun v => decide (v.1 ≠ k.c) || decide (v.2.1 ≠ hField e.1)) ++ [(k.c, hField e.1, e.2)] })) s2

/-! ### Springs, ports, converters -/

/-- R148: spring words and the decimators' dc.enable wait for the next spring sample. An interpolator's bus is a change of the block audio
path (R145, R95). -/
def Cmt.toSprings (k : Cmt) (s : State) : State :=
  let late := k.b.words.filter (fun e => decide (hCls e.1 = 0x10) || decide (hCls e.1 = 0x11)
    || (decide (hCls e.1 = 0x24) && decide (hField e.1 = 3)))
  s.setSpring (fun g => { g with pend := g.pend ++ late.map (fun e => (e.1, e.2, k.cf)) })

/-- SAP, MADI, headset port and decimators, each at its committed change (R214–R218, R230–R232, R244–R247). -/
def Cmt.toPorts (k : Cmt) (s : State) : State :=
  let s1 := (k.turned s 0x20).foldl (fun s e =>
    let tx := decide (0x10 ≤ e.2.1)
    match e.2.1 % 16 with
    | 0x0 => if e.2.1 < 0x20 then s.sapEnable e.1 tx (decide (e.2.2 = 1)) else s
    | 0xA => if e.2.1 < 0x20 ∧ !k.turns s (mkH 0x20 e.1 (e.2.1 / 16 * 16)) then s.sapMask e.1 tx e.2.2 else s
    | _ => s) s
  let s2 := (k.turned s 0x21).foldl (fun s e =>
    match e.2.1 with
    | 0x00 => s.madiEnable e.1 false (decide (e.2.2 = 1))
    | 0x10 => s.madiEnable e.1 true (decide (e.2.2 = 1))
    | _ => s) s1
  let s3 := (k.turned s 0x22).foldl (fun s e =>
    match e.2.1 with
    | 0 => s.hspDetect (decide (e.2.2 = 1))
    | 1 => s.hspRange e.2.2
    | 2 => s.micAdvance s.mcc
    | 3 => s.hspBiasSet
    | _ => s) s2
  (k.turned s 0x24).foldl (fun s e =>
    match e.2.1 with
    | 0 => s.decInput e.1 e.2.2
    | 1 => s.decEnable e.1 true (decide (e.2.2 = 1))
    | 2 => s.decEnable e.1 false (decide (e.2.2 = 1))
    | 5 => s.decFreeze e.1 (decide (e.2.2 = 1))
    | _ => s) s3

/-! ### Network, time, clocks, power -/

/-- Selecting a PTP profile writes the profile's values into the fields that the set does not write itself (PTP parameter table). -/
def Cmt.ptpValues (k : Cmt) (s : State) : State :=
  if k.b.writes (mkH 0x33 0 1) then
    ((([2, 0xB, 0xC, 0xD] : List Nat).zip (ptpProfile (s.at 0x33 0 1)))).foldl (fun s q =>
      if k.b.writes (mkH 0x33 0 q.1) then s else s.setVal (mkH 0x33 0 q.1) (wrapU 32 q.2)) s
  else s

/-- NET ports, PTP, timers, streams (R255, R256, R259, R270, R274). -/
def Cmt.toNet (k : Cmt) (s0 : State) : State :=
  let s := k.ptpValues s0
  let s1 := (k.turned s 0x30).foldl (fun s e =>
    if e.2.1 = 0 ∧ e.2.2 = 0 ∧ s.linkUp e.1 then
      s.linkLost e.1
    else s) s
  let s2 := (k.turned s 0x33).foldl (fun s e =>
    match e.2.1 with
    | 0 => if e.2.2 = 1 then s.setNet (fun g => { g with ptpSt := if s.at 0x33 0 3 = 1 then 4 else 1, alt := false })
           else s.ptpUnlock.setNet (fun g => { g with ptpSt := 0, alt := false })
    -- R260: PTP moves with the port it runs on, and listens afresh
    | 8 => if !s.net.alt ∨ s.net.ptpSt = 0 then s else s.ptpUnlock.setNet (fun g => { g with alt := decide (e.2.2 ≠ 0xFF), ptpSt := 1 })
    | 7 => if s.net.alt ∨ s.net.ptpSt = 0 then s else s.ptpUnlock.setNet (fun g => { g with ptpSt := if s.at 0x33 0 3 = 1 then 4 else 1 })
    | _ => s) s1
  let timers := (((k.b.ofCls 0x32).filter (fun e => decide (hInst e.1 < 8) && decide (hField e.1 ≤ 3))).map (fun e => hInst e.1)).eraseDups
  let s3 := timers.foldl (fun s i => s.timerStart i) s2
  let s4 := (k.turned s 0x35).foldl (fun s e => if e.2.1 = 0 then s.rxEnable e.1 k.c (decide (e.2.2 = 1)) else s) s3
  (k.turned s 0x36).foldl (fun s e =>
    if e.2.1 = 0 then s.txEnable e.1 k.c (decide (e.2.2 = 1))
    else if e.2.1 = 0x0A ∨ e.2.1 = 0x0D then s.restagger else s) s4

/-- Reference slots, the CKU, power domains (R279, R287, R294–R297, R418). -/
def Cmt.toClocks (k : Cmt) (s : State) : State :=
  let s0 := if (k.b.ofCls 0x40).any (fun e => decide (hField e.1 = 0)) then s.enableRefs else s
  let news := (k.turned s 0x40).any (fun e => decide (e.2.1 = 1) || decide (e.2.1 = 5) || decide (e.2.1 = 6))
    || (k.turned s 0x41).any (fun e => decide (e.2.1 = 1))
  let s1 := if news then s0.setCku (fun c => { c with committed := true }) else s0
  let s2 := (k.turned s 0x41).foldl (fun s e =>
    match e.2.1 with
    | 0 => s.ckuMode (k.old.at 0x41 0 0) e.2.2
    | 5 => s.ckuTrim
    | 6 => s.ckuRate
    | _ => s) s1
  -- R263: mcc.align 1 in QUIET asks for the renumbering of start-up
  let s3 := (k.turned s 0x34).foldl (fun s e =>
    if e.2.1 = 0 ∧ s.cku.sel = 4 ∧ s.slewUnit ≠ 1 ∧ !s.net.align then
      (s.setNet (fun g => { g with mcc := 1 })).setCku (fun c => { c with slewing := true, slewMod := s.slewUnit })
    else s) s2
  (k.turned s 0x50).foldl (fun s e =>
    if 0x10 ≤ e.2.1 ∧ e.2.1 ≤ 0x17 then s.pdCommit (e.2.1 - 0x10) k.c (decide (e.2.2 = 1)) else s) s3

/-- R470: the bridge points connected on a side: by output patch entries (send) or input patch entries (return), and by bridge.ret. -/
def State.bridgesOn (s : State) (ret far : Bool) (k : Nat) : Bool :=
  if far then ret && decide (s.at 0x60 k 0x10 ≠ 0xFF)
  else if ret then (s.listed 5 0 ++ s.listed 5 1).any (fun q => decide (q.2 = bridgeRef k))
  else (s.listed 6 0).any (fun q => decide (q.2 = bridgeRef k))

/-- R470: EV_BRIDGE for each side that the commit connects or disconnects. -/
def State.bridgeEvents (s old : State) : State :=
  if !s.cap.legacy then s
  else (List.range 8).foldl (fun s k =>
    [(false, false), (true, false), (true, true)].foldl (fun (s : State) (q : Bool × Bool) =>
      let a := old.bridgesOn q.1 q.2 k
      let b := s.bridgesOn q.1 q.2 k
      if a = b then s else s.raise .bridge 0 (k + 256 * b2n q.1) (if b then 1 else 2)) s) s

/-! ### A change of rate or profile (R3, R128) -/

/-- R3, R80: the block audio path as a new profile starts it: nothing in flight, every listed word on its way from its default, dither
generators as they stand. Only a new profile changes the block and the matrix; a new family leaves the path as it stands. -/
def State.rebuild (s : State) : State :=
  let a := s.audio
  let t := s.mcc / s.B * s.B
  let words := s.params.filter (fun q => stampCls (hCls q.1))
  let s1 := s.setAudio (fun _ => { AudioG.reset with
    satStrip := a.satStrip, satBus := a.satBus, satOut := a.satOut, taken := t
    outs := a.outs.map (fun o => (o.1, { OutRt.reset with dither := o.2.dither }))
    changes := words.map (fun q => { c := t, h := q.1, old := (s.field q.1).elim 0 Field.dfltWord, new := q.2.getD 0, cf := 64, dx := 256 }) })
  let m := MereG.reset
  let s2 := s1.setMere (fun x => { x with
    step := m.step, sig := m.sig, queue := [], shape := s.shape, srcX := m.srcX, dstX := m.dstX, image := [] })
  { s2 with
    spring := { s2.spring with interps := Cells.mapVal (fun i => { SpringInterp.reset with busX := Xf.at i.busX.target }) s2.spring.interps }
    legacy := { s2.legacy with chans := [], busses := [], retX := [], changes := [] } }

/-- R128: what a rate or profile change discards: scheduled sets with a later sample and armed cue lists, with EV_COMMIT_CANCELLED for each;
open, checking and checked sets are discarded too (stage set states). -/
def State.cancelAll (s : State) (c set : Nat) : State :=
  let cut := s.scene.sets.filter (fun x => decide (x.st = .scheduled) && x.commit.any (fun q => decide (c < q)))
  let gone := fun (x : StageSet) => decide (x.id ≠ set) && (cut.any (fun y => decide (y.id = x.id))
    || decide (x.st = .open) || decide (x.st = .checking) || decide (x.st = .checked))
  let armed := (s.scene.cues.filter (fun l => decide (l.2.st = .armed))).map (·.1)
  -- a holder that is discarded leaves the plane clear and free (R110)
  let s0 := if s.scene.holder.any (fun h => decide (h ≠ set)) then s.setMere MereG.clearPlane else s
  let s1 := s0.setScene (fun g => { g with
    sets := g.sets.map (fun x => if gone x then { x with st := .discarded, added := [], waiting := false, planeIn := false, want := none } else x)
    cues := g.cues.map (fun l => if l.2.st = .armed then (l.1, { l.2 with st := .loaded, mcc := [], next := 0 }) else l)
    checkQ := []
    holder := g.holder.filter (fun h => decide (h = set)) })
  let s2 := cut.foldl (fun s x => s.raise .commitCancelled 0 x.id 0) s1
  let s3 := (s2.legacy.sets.filter (fun x => decide (c < x.c))).foldl (fun s _ => s.raise .commitCancelled 0 0 0) s2
  -- legacy sets likewise, and a load that has not committed (R474)
  let s4 := s3.setLeg (fun g => { g with sets := g.sets.filter (fun x => decide (x.c ≤ c)), pending := none, latched := false })
  (armed.foldl (fun s l => s.raise .commitCancelled 0 l 0) s4)

/-- R466: registers of channels and busses that the rate lacks hold their reset values. -/
def State.legTrim (s : State) : State :=
  s.setLeg (fun g => { g with
    live := g.live.filter (fun q => s.legExists q.1), comm := g.comm.filter (fun q => s.legExists q.1)
    shadow := g.shadow.filter (fun q => s.legExists q.1) })

/-- A CF stage whose banks are designed again. -/
def Cf.redesign (f : Cf) : Cf := { f with bank := none, idle := none }

/-- R498: the filters and the EQ of a strip or a bus, designed again for another engine rate. -/
def ChainRt.redesign (r : ChainRt) : ChainRt := { r with hpf := r.hpf.redesign, lpf := r.lpf.redesign, eq := r.eq.redesign }

/-- R498: every coefficient bank designed again for the engine rate in force. -/
def State.redesign (s : State) : State :=
  s.setAudio (fun a => { a with strips := Cells.mapVal ChainRt.redesign a.strips, busses := Cells.mapVal ChainRt.redesign a.busses })

/-- R3, R128: a commit that changes the rate family or the profile. -/
def Cmt.toProfile (k : Cmt) (s : State) (set : Nat) : State :=
  let prof := decide (k.old.prof ≠ s.prof)
  if !prof && decide (k.old.fam = s.fam) then s
  else
    let s1 := (if prof then (k.toSlots s.rebuild true).legTrim else s.redesign).muteAll
    (s1.cancelAll k.c set).setScene (fun g => { g with changing := true })

/-! ### The commit -/

/-- R120: checked sets that write an object whose owner has changed return to OPEN. -/
def State.reopen (s old : State) : State :=
  s.setScene (fun g => { g with sets := g.sets.map (fun x =>
    let b := s.bodyOf x.added
    if x.st = .checked ∧ (b.words.any (fun e => decide (old.ownerOf e.1 ≠ s.ownerOf e.1))
        ∨ b.nodes.any (fun n => decide (old.ownerOf (0x03000000 + n.1) ≠ s.ownerOf (0x03000000 + n.1)))) then
      { x with st := .open, cosigned := [], want := none }
    else x) })

/-- R96, R110: the plane of a set that is over: cleared and free. -/
def State.freePlane (s : State) (set : Nat) : State :=
  if s.scene.holder = some set then (s.setScene (fun g => { g with holder := none })).setMere MereG.clearPlane else s

/-- R124: a commit or a cue with an effect at c changes what other sets were checked against. -/
def SceG.changedAt (g : SceG) (c set : Nat) : SceG :=
  { g with sets := g.sets.map (fun x => if x.id = set then x else { x with moved := some (x.moved.elim c (min c)) }) }

/-- R126, R96, R110: the set's own records at its commit: it is COMMITTED, its contents leave the stage area, the plane is free, the
generation rises. -/
def State.closeSet (s : State) (set c : Nat) (parts : List Nat) : State :=
  let gen := (s.scene.gen + 1) % 2 ^ 64
  ((s.freePlane set).setTwin (fun q => { q with ids := if s.power.straps.twinEn then q.ids ++ [set] else q.ids })).setScene (fun g0 =>
    let g := g0.changedAt c set
    { g with
    gen := gen
    lastSet := parts.foldl (fun m p => Cells.put (0, 0, 0) m p (set, gen, c)) g.lastSet
    sets := g.sets.map (fun x => if x.id = set then { x with st := .committed, added := [], waiting := false, planeIn := false, want := none } else x) })

/-- R126: words as they stood before the first set of a commit sample, of those that its sets so far write. -/
def Cmt.opening (k : Cmt) : List (Nat × Nat) :=
  let prior := if k.old.scene.opening.1 = k.c then k.old.scene.opening.2 else []
  prior ++ (k.b.words.filter (fun e => !prior.any (fun q => decide (q.1 = e.1)))).map (fun e => (e.1, k.old.val e.1))

/-- R126: the sets of one commit sample as the units see them, each word with its value before c and the last value as its target. -/
def Cmt.merged (k : Cmt) (s : State) : Cmt :=
  if k.old.scene.opening.1 ≠ k.c then k
  else { k with
    old := k.opening.foldl (fun v q => v.setVal q.1 q.2) k.old
    b := { k.b with params := k.opening.foldl (fun m q => Cells.put none m q.1 (some (s.val q.1))) [] } }

/-- Whether another set or cue still waits for a commit sample. -/
def State.shared (s : State) (c set : Nat) : Bool :=
  s.scene.sets.any (fun x => decide (x.st = .scheduled) && decide (x.id ≠ set) && decide (x.commit = some c))
    || s.scene.cues.any (fun l => decide (l.2.st = .armed) && (l.2.left.head?).any (fun q => decide (q.2 = c)))

/-- Springs, ports, network, clocks and bridge points take the sets of one commit sample. -/
def Cmt.runUnits (k : Cmt) (s : State) : State :=
  let m := k.merged s
  ((m.toClocks (m.toNet (m.toPorts (m.toSprings s)))).bridgeEvents m.old).setScene (fun g => { g with units := none })

/-- R126: the units take a commit once for all sets of one commit sample, with the last of them; a change of profile or rate leaves no
armed cue to wait for (R128). -/
def Cmt.toUnits (k : Cmt) (s : State) (set : Nat) : State :=
  let cues := if k.old.prof ≠ s.prof ∨ k.old.fam ≠ s.fam then [] else k.old.scene.cues
  if (k.old.setScene (fun g => { g with cues := cues })).shared k.c set then
    s.setScene (fun g => { g with units := some (k.cf, k.dx) })
  else k.runUnits s

/-- R126: the units take a commit sample whose last set or cue came to nothing. -/
def State.flushUnits (s : State) : State :=
  match s.scene.units with
  | none => s
  | some (cf, dx) =>
    let c := s.scene.opening.1
    if s.shared c 0 then s else Cmt.runUnits { old := s, b := Body.empty, c := c, cf := cf, dx := dx } s

/-- R126: what the contents of a set do at a commit sample c: every transition starts and the generation rises. -/
def State.takeSet (s : State) (added : List Added) (cf dx c set : Nat) : State :=
  let b := s.bodyOf added
  let k : Cmt := { old := s, b := b, c := c, cf := cf, dx := dx }
  let w := s.overlay b
  let s1 := k.toMere (k.toPath w)
  let s2 := (k.toSlots s1 false).setScene (fun g => { g with opening := (c, k.opening), leaving := (k.ledger w).leaving })
  let s4 := (k.toProfile (k.toUnits s2 set) set).srcRefresh
  (s4.reopen s).closeSet set c (s.partsOf b)

/-- R126: a set takes effect at its commit sample c, with EV_COMMIT_APPLIED. Set 0 is a cue's scene. -/
def State.commitSet (s : State) (added : List Added) (cf dx c set : Nat) : State :=
  let s5 := s.takeSet added cf dx c set
  s5.raiseD .commitApplied 0 set ([set] ++ two c ++ two s5.scene.gen)

end Sys2Proof.Machine
end

