-- ==== Sys2Proof/Machine/Stage.lean ====
section
/-! DEFINITION. Sys2Proof/Machine/Stage.lean: stage sets, the staged plane, checking and scheduling (R106–R128). Who may use a set, and the
answers of refused requests that the spec gives no code for, are log entry 47. -/
namespace Sys2Proof.Machine

open Fmt Crypto

/-- R434: a standby, joining or fenced chip serves no audio commands. -/
def State.audioServed (s : State) : Bool := decide (s.twin.role = .solo) || decide (s.twin.role = .active)

/-- A command of R433's list, for a session with the owner or device role. -/
def State.serveAudio (s : State) (r : Req) (cmd : Nat) (act : Session → State → State × Option Ans) : State :=
  s.serve r cmd 1 (fun x s => if s.audioServed then act x s else (s, Ans.fail Err.state))

/-- One stage set changed. -/
def State.updSet (s : State) (id : Nat) (f : StageSet → StageSet) : State :=
  s.setScene (fun g => { g with sets := g.sets.map (fun x => if x.id = id then f x else x) })

/-- R107: sets that count against the limits. -/
def StageSet.live (x : StageSet) : Bool := decide (x.st ≠ .committed) && decide (x.st ≠ .discarded)

/-- Whether a session may use a set: its own, or the start scene's with the device role (R106, R350; log entry 47). -/
def State.mayUse (s : State) (q : Session) (x : StageSet) : Bool := decide (x.sid = q.sid) || (s.isStart x && decide (q.role = 0))

/-- A set that the session may use. -/
def State.withSet (s : State) (q : Session) (id : Nat) (f : StageSet → State × Option Ans) : State × Option Ans :=
  match s.stageSet? id with
  | none => (s, Ans.fail Err.notFound)
  | some x =>
    if s.mayUse q x then f x else (s, Ans.fail Err.owner)

/-! ### The staged plane (R96, R110) -/

/-- The staged plane rewritten from contents. -/
def State.stagePlane (s : State) (l : List Added) : State :=
    let nodes := (s.bodyOf l).nodes
    (s.setMere MereG.clearPlane).setMere (fun m => { m with step := { m.step with
      nodes := nodes.foldl (fun (l : Cells Node) (n : Nat × Option (Int × Nat)) => Cells.upd Node.reset l n.1 (fun y =>
        { y with stg := (n.2.getD (0, 2)).1, stap := (n.2.getD (0, 2)).2 })) m.step.nodes } })

/-- The staged plane rewritten from a set's contents. -/
def State.writePlane (s : State) (id : Nat) : State :=
  match s.stageSet? id with
  | none => s
  | some x => s.stagePlane x.added

/-- The plane given to a set. -/
def State.givePlane (s : State) (id : Nat) : State :=
  ((s.setScene (fun g => { g with holder := some id })).updSet id (fun x => { x with planeIn := true, waiting := false })).writePlane id

/-- Sets that wait for the plane. -/
def State.planeQueue (s : State) : List Nat := (s.scene.sets.filter (fun x => x.waiting && x.live)).map (·.id)

/-- What the plane's holder is while it holds the plane of an armed cue's scene. -/
def cueHolder : Nat := 65536

/-- The unfired cues of armed lists that carry node entries, with their MCC values. -/
def State.nodeCues (s : State) : List (CueWhat × Nat) :=
  (s.scene.cues.filter (fun l => decide (l.2.st = .armed))).flatMap (fun l =>
    (l.2.left.filter (fun q => (s.cueAdds q.1.what).any Added.hasNodes)).map (fun q => (q.1.what, q.2)))

/-- The first of them to fire. -/
def State.nextNodeCue (s : State) : Option CueWhat :=
  (s.nodeCues.foldl (fun (a : Option (CueWhat × Nat)) q => match a with
    | none => some q
    | some b => if q.2 < b.2 then some q else a) none).map (·.1)

/-- R132: the plane of the next cue with node entries, loaded while the plane is free (log entry 158). -/
def State.loadCue (s : State) : State :=
  if s.scene.holder.isSome then s
  else match s.nextNodeCue with
    | none => s
    | some (.set id) => s.givePlane id
    | some w => (s.setScene (fun g => { g with holder := some cueHolder })).stagePlane (s.cueAdds w)

/-- R110: a set that has node entries holds the plane, takes it while it is free and no other set waits for it, or waits. -/
def State.seekPlane (s : State) (id : Nat) : State :=
  match s.stageSet? id with
  | none => s
  | some x =>
    if s.scene.holder = some id then s.writePlane id
    else if !x.hasNodes then s
    else if s.scene.holder.isNone && (s.planeQueue.filter (· ≠ id)).isEmpty then s.givePlane id
    else s.updSet id (fun x => { x with planeIn := false, waiting := true })

/-- PLANE_READY: the free plane passes to the waiting set with the lowest id (R110), or first to the next armed cue with node entries
(R132; log entry 158). -/
def execPlaneReady (s : State) : Host.Outcome State Fault Refusal :=
  if s.scene.holder.isNone ∧ s.nextNodeCue.isSome then .next s.loadCue
  else match s.scene.holder, s.planeQueue with
  | none, i :: rest =>
    let id := rest.foldl min i
    .next ((s.givePlane id).raise .planeReady 0 id 0)
  | _, _ => .next s

/-! ### Contents -/

/-- R108: bytes of the stage area in use. -/
def State.areaUsed (s : State) : Nat := ((s.scene.sets.filter StageSet.live).map StageSet.cost).foldl (· + ·) 0
/-- Bytes of the stage area. -/
def stageArea : Nat := 4 * 2 ^ 20

/-- A request of a set that was waiting for it is answered E_STATE: the set has changed or is gone (log entry 47). -/
def State.dropReply (s : State) (x : StageSet) : State :=
  match x.reply with
  | some q => s.reply q (if x.want.isSome then 0x010A else 0x0108) { status := Err.state }
  | none => s

/-- R121, R111: a set that changes is OPEN; its co-signatures and a queued commit are void. -/
def State.loosen (s : State) (x : StageSet) : State :=
  (s.dropReply x).updSet x.id (fun y => { y with st := .open, cosigned := [], want := none, reply := none })

/-- Whether host software may change a set's contents. -/
def StageSet.editable (x : StageSet) : Bool := decide (x.st = .open) || decide (x.st = .checked)

/-- R108–R110: additions to a set: all of them, or none where they do not fit. -/
def State.addTo (s : State) (x : StageSet) (l : List Added) : State × Option Ans :=
  let cost := (l.map Added.cost).foldl (· + ·) 0
  if !x.editable then (s, Ans.fail Err.state)
  else if stageArea < s.areaUsed + cost then (s, Ans.fail Err.capacity)
  else
    let s1 := (s.loosen x).updSet x.id (fun y => { y with added := y.added ++ l })
    (if l.any Added.hasNodes then s1.seekPlane x.id else s1, Ans.good [])

/-- R82, R83: an entry as it is added: one of class 0x03 or 0x04 takes the node's committed target and tap with it. -/
def State.addedOf (s : State) (e : Entry) : Added :=
  if hCls e.h = 3 ∨ hCls e.h = 4 then
    let c := Cells.get (0, 2) s.mere.image (e.h % 2 ^ 24)
    .node e c.1 c.2
  else .entry e

/-- R307: whether attributes lie in their ranges; 0 stands for a default length. -/
def Attrs.ok (a : Attrs) : Bool :=
  (decide (a.cfLen = 0) || (decide (16 ≤ a.cfLen) && decide (a.cfLen ≤ 1024))) &&
    (decide (a.dxLen = 0) || (decide (32 ≤ a.dxLen) && decide (a.dxLen ≤ 4096)))

/-- Attributes with their defaults filled in. -/
def Attrs.full (a : Attrs) : Attrs :=
  { a with cfLen := if a.cfLen = 0 then 64 else a.cfLen, dxLen := if a.dxLen = 0 then 256 else a.dxLen, label := a.label.take 32 }

/-- Every attribute at its default. -/
def Attrs.dflt : Attrs := { nextPossible := false, noWait := false, cfLen := 64, dxLen := 256, label := [] }

/-- A set as it is opened. -/
def StageSet.fresh (id sid : Nat) (a : Attrs) : StageSet where
  id := id
  sid := sid
  st := .open
  attrs := a
  added := []
  cosigned := []
  findings := []
  commit := none
  want := none
  planeIn := false
  waiting := false
  order := 0
  moved := none
  scenes := []
  reading := none
  reply := none

/-- The first id from `n` on that no live set has, looking at `k` of them. -/
def freeId (sets : List StageSet) : Nat → Nat → Nat
  | 0, n => n
  | k + 1, n => if sets.any (fun x => x.live && decide (x.id = n)) then freeId sets k (n % 65535 + 1) else n

/-- A set opened; one that is over and had its id goes. -/
def State.openSet (s : State) (sid : Nat) (a : Attrs) : State × Nat :=
  let id := freeId s.scene.sets 33 s.scene.nextId
  (s.setScene (fun g => { g with
    sets := g.sets.filter (fun x => decide (x.id ≠ id)) ++ [StageSet.fresh id sid a]
    nextId := id % 65535 + 1 }), id)

/-- STAGE_OPEN (R106, R107, R307). -/
def execStageOpen (r : Req) (attrs : Option Attrs) (s : State) : Host.Outcome State Fault Refusal :=
  s.ifAsked r (.stageOpen r attrs) (s.serveAudio r 0x0101 (fun q s =>
    let a := attrs.getD Attrs.dflt
    let live := s.scene.sets.filter StageSet.live
    if !a.ok then (s, Ans.fail Err.range)
    else if 32 ≤ live.length ∨ 4 ≤ (live.filter (fun x => decide (x.sid = q.sid))).length then (s, Ans.fail Err.capacity)
    else
      let (s1, id) := s.openSet q.sid a.full
      (s1, Ans.good [.set id])))

/-- STAGE_ADD (R108, R109). -/
def execStageAdd (r : Req) (id : Nat) (entries : List Entry) (s : State) : Host.Outcome State Fault Refusal :=
  s.ifAsked r (.stageAdd r id entries) (s.serveAudio r 0x0102 (fun q s => s.withSet q id (fun x => s.addTo x (entries.map s.addedOf))))

/-- R308: whether a NODES item is well formed for its form. -/
def Nodes.ok (n : Nodes) : Bool :=
  (n.gain || n.tap) && decide (1 ≤ n.nd) && decide (1 ≤ n.ns)
    && (match n.form with
      | 0 => decide (n.nd = 1) && decide (n.ns = 1)
      | 1 => decide (n.nd = 1)
      | 2 => decide (n.ns = 1)
      | 3 => true
      | 4 => true
      | _ => false)
    && decide (n.data.length = if n.form = 4 then 1 else n.nd * n.ns)
    && n.data.all (fun d => decide (d.2 < 4))

/-- R308: the nodes of a NODES item: destination by destination, sources ascending. -/
def Nodes.keys (n : Nodes) : List Nat :=
  (List.range n.nd).flatMap (fun i => (List.range n.ns).map (fun j => nodeKey (n.dest + i) (n.src + j)))

/-- R82, R308: a NODES item as an addition: absent gains and taps are the committed ones. -/
def State.formOf (s : State) (n : Nodes) : Added :=
  let data := if n.form = 4 then List.replicate (n.nd * n.ns) (n.data.headD (0, 2)) else n.data
  .form n.form (16 + if n.form = 4 then 0 else 5 * n.data.length) ((n.keys.zip data).map (fun q =>
    let c := Cells.get (0, 2) s.mere.image q.1
    (q.1, if n.gain then toS 32 q.2.1 else c.1, if n.tap then q.2.2 else c.2)))

/-- A staging command of the forms it carries (R97, R308). -/
def State.stageForm (s : State) (r : Req) (cmd id : Nat) (forms : List Nat) (n : Nodes) : State :=
  s.serveAudio r cmd (fun q s => s.withSet q id (fun x =>
    if !forms.contains n.form || !n.ok then (s, Ans.fail Err.format)
    else if s.cap.dests < n.dest + n.nd ∨ s.cap.sources < n.src + n.ns then (s, Ans.fail Err.handle)
    else s.addTo x [s.formOf n]))

/-- STAGE_ROW: one destination, consecutive sources (R97, R308). -/
def execStageRow (r : Req) (id : Nat) (n : Nodes) (s : State) : Host.Outcome State Fault Refusal :=
  s.ifAsked r (.stageRow r id n) (s.stageForm r 0x0103 id [1] n)
/-- STAGE_COLUMN: one source, consecutive destinations (R97, R308). -/
def execStageColumn (r : Req) (id : Nat) (n : Nodes) (s : State) : Host.Outcome State Fault Refusal :=
  s.ifAsked r (.stageColumn r id n) (s.stageForm r 0x0104 id [2] n)
/-- STAGE_RECT: one node, or a block of nodes with one value each (R97, R308). -/
def execStageRect (r : Req) (id : Nat) (n : Nodes) (s : State) : Host.Outcome State Fault Refusal :=
  s.ifAsked r (.stageRect r id n) (s.stageForm r 0x0105 id [0, 3] n)
/-- STAGE_FILL: a block of nodes with one value for all (R97, R308). -/
def execStageFill (r : Req) (id : Nat) (n : Nodes) (s : State) : Host.Outcome State Fault Refusal :=
  s.ifAsked r (.stageFill r id n) (s.stageForm r 0x0106 id [4] n)

/-- STAGE_REMOVE: handles leave a set; a node's handle takes the node out of every form (R109; log entry 47). -/
def execStageRemove (r : Req) (id : Nat) (handles : List Nat) (s : State) : Host.Outcome State Fault Refusal :=
  .next (s.serveAudio r 0x0107 (fun q s => s.withSet q id (fun x =>
    if !x.editable then (s, Ans.fail Err.state)
    else
      let keep := x.added.filter (fun a =>
        match a with
        | .entry e => !handles.contains e.h
        | .node e _ _ => !handles.contains e.h
        | _ => true)
      let deep := x.added.any (fun a =>
        match a with
        | .form _ _ _ => true
        | .recall _ _ _ _ _ => true
        | _ => false)
      let s1 := (s.loosen x).updSet id (fun y => { y with added := keep ++ if deep then [.drop handles] else [] })
      (if s.scene.holder = some id then s1.writePlane id else s1, Ans.good []))))

/-- R56: the pair of gains of a pan: law, position −1000 … 1000, send level as a dB code. A gain below −144 dB is off. -/
def panGains (law : Nat) (pos level : Int) : Int × Int :=
  let p := Fxp.ofDiv pos 1000
  let s := if level ≤ -36864 then 0 else Fxp.exp10 (Fxp.ofDiv level 5120)
  let th := Fxp.mul (p + Fxp.one) (Fxp.pi / 4)
  let lin := ((Fxp.one - p) / 2, (Fxp.one + p) / 2)
  let (l, r) : Int × Int := match law with
    | 0 => (Fxp.cos th, Fxp.sin th)
    | 1 => (Fxp.sqrt (Fxp.mul (Fxp.cos th) lin.1), Fxp.sqrt (Fxp.mul (Fxp.sin th) lin.2))
    | 2 => lin
    | _ => (min Fxp.one (Fxp.one - p), min Fxp.one (Fxp.one + p))
  let off := Fxp.exp10 (Fxp.ofDiv (-144) 20)
  let g := fun x => let y := Fxp.mul s x; if y < off then 0 else Fxp.roundScaled y 27
  (g l, g r)

/-- PAN: a source's pair of node gains staged in one set (R56). Like every staged node, the two are judged against the shape at the commit
sample (R12, R112). -/
def execPan (r : Req) (id src left right law : Nat) (pos level : Int) (s : State) : Host.Outcome State Fault Refusal :=
  .next (s.serveAudio r 0x010E (fun q s => s.withSet q id (fun x =>
    if 3 < law ∨ pos < -1000 ∨ 1000 < pos ∨ 6165 < level then (s, Ans.fail Err.range)
    else if 4096 ≤ src ∨ 4096 ≤ left ∨ 4096 ≤ right then (s, Ans.fail Err.handle)
    else
      let (gl, gr) := panGains law pos level
      s.addTo x [s.addedOf { h := hGain left src, v := wrapU 32 gl }, s.addedOf { h := hGain right src, v := wrapU 32 gr }])))

/-! ### Checking (R112, R118) -/

/-- Sets that the check queue holds. -/
def checkDepth : Nat := 16

/-- A set enters the check queue; `q` is the request its result answers. -/
def State.queueCheck (s : State) (x : StageSet) (w : Option When) (q : Option Req) : State :=
  (s.updSet x.id (fun y => { y with st := .checking, want := w, reply := q, findings := [] })).setScene (fun g =>
    { g with checkQ := g.checkQ ++ [x.id] })

/-- R124: whether a SCHEDULED set's configuration has changed since its check, with an effect at or before its commit sample. -/
def StageSet.stale (x : StageSet) : Bool := x.moved.any (fun e => x.commit.any (fun c => decide (e ≤ c)))

/-- Whether a COMMIT of a set starts with a check (R122, R124). -/
def StageSet.checkFirst (x : StageSet) : Bool := decide (x.st = .open) || (decide (x.st = .scheduled) && x.stale)

/-- R118: a request for a check (of an OPEN set; of one that a COMMIT checks first) that finds the queue full waits at the transport,
where its set does not refuse to. -/
def State.waitsForQueue (s : State) (r : Req) (id : Nat) (p : StageSet → Bool) : Bool :=
  match s.stageSet? id with
  | some x => decide (checkDepth ≤ s.scene.checkQ.length) && p x && !x.attrs.noWait && (s.session? r.sid).any (fun q => s.mayUse q x)
  | none => false

/-- STAGE_CHECK: an OPEN set is queued for checking; the reply follows with CHECK_DONE (R112, R118). -/
def execStageCheck (r : Req) (id : Nat) (s : State) : Host.Outcome State Fault Refusal :=
  if s.waitsForQueue r id (fun x => decide (x.st = .open)) then .next (s.park r)
  else s.ifAsked r (.stageCheck r id) (s.serveAudio r 0x0108 (fun q s => s.withSet q id (fun x =>
    if x.st ≠ .open then (s, Ans.fail Err.state)
    else if checkDepth ≤ s.scene.checkQ.length then (s, Ans.fail Err.busy)
    else (s.queueCheck x none (some r), none))))

/-- The answer that findings give: the first one's code, and all of them. -/
def findAns (f : List Finding) : Ans := { status := (f.head?.map (·.err)).getD Err.ok, items := f.map Item.finding }

/-- Category 12 of the commit (R121, R122): the touched partitions that still have to co-sign. -/
def State.cosignFindings (s : State) (x : StageSet) : List Finding :=
  (s.needCosign x (s.bodyOf x.added) s).flatMap (fun p => findIf true 12 Err.cosign 0 p)

/-- CHECK_DONE: the check of the first set in the queue ends (R112). A set whose recall is still being read has not started its check. A
commit that asked for the check fails when a co-signature is missing; the set stays CHECKED, so that it can come (R121).
-/
def execCheckDone (s : State) : Host.Outcome State Fault Refusal :=
  match s.scene.checkQ with
  | [] => .next s
  | id :: rest =>
    match s.stageSet? id with
    | none => .next (s.setScene (fun g => { g with checkQ := rest }))
    | some x =>
      if x.reading.isSome then .next s
      else
        let c := match x.want with
          | some (.mcc c) => some c
          | _ => none
        let f := s.check x c
        let ok := f.isEmpty
        let miss := if x.reply.isSome && x.want.isSome then s.cosignFindings x else []
        let go := ok && miss.isEmpty
        let s1 := (s.setScene (fun g => { g with checkQ := rest })).updSet id (fun y => { y with
          st := if ok then .checked else .open
          findings := f
          moved := none
          want := if go then y.want else none
          reply := if go && y.want.isSome then y.reply else none })
        let s2 := s1.raise .checkDone 0 id ((f.head?.map (·.err)).getD 0)
        .next (match x.reply, x.want with
          | some q, none => s2.reply q 0x0108 (findAns f)
          | some q, some _ => if go then s2 else s2.reply q 0x010A (findAns (if ok then miss else f))
          | none, _ => s2)

/-! ### Co-signatures (R121) -/

/-- What a co-signature's digest covers: entries by handle, nodes by key, destinations of plane loads (log entry 48). -/
def State.contentDigest (s : State) (x : StageSet) : List Nat :=
  let b := s.bodyOf x.added
  let loads := x.added.flatMap (fun a => match a with
    | .recall _ scope dests _ _ => if inScope scope 3 then dests else []
    | _ => [])
  sha256 (b.words.flatMap (fun e => toBE 4 e.1 ++ toBE 4 e.2)
    ++ b.nodes.flatMap (fun n => nodeWord n.1 (n.2.getD (0, 2)).1 (n.2.getD (0, 2)).2) ++ loads.flatMap (toBE 2))

/-- STAGE_COSIGN: the owner session of touched partitions co-signs a CHECKED set of another session (R121). -/
def execStageCosign (r : Req) (id : Nat) (digest mac : List Nat) (s : State) : Host.Outcome State Fault Refusal :=
  .next (s.serveAudio r 0x0109 (fun q s =>
    match s.stageSet? id with
    | none => (s, Ans.fail Err.notFound)
    | some x =>
      let mine := (s.needCosign x (s.bodyOf x.added) s).filter (fun p => decide (s.owner p = q.sid))
      if x.st ≠ .checked then (s, Ans.fail Err.state)
      else if mine.isEmpty then (s, Ans.fail Err.owner)
      else if digest = s.contentDigest x ∧ mac = hmac q.ks digest then
        (s.updSet id (fun y => { y with cosigned := y.cosigned ++ mine }), Ans.good [])
      else (s, Ans.fail Err.cosign)))

/-! ### Commits (R122–R128) -/

/-- A time in ns as samples, rounded up. -/
def State.samplesOf (s : State) (ns : Nat) : Nat := cdiv (ns * s.fs) 1000000000

/-- Nodes that a check of additions counts: every node of a plane load's destinations, and those of the other forms (R118). -/
def State.checkNodes (s : State) (l : List Added) : Nat :=
  let loads := (l.flatMap (fun a => match a with
    | .recall _ scope dests _ _ => if inScope scope 3 then dests else []
    | _ => [])).eraseDups
  loads.length * s.cap.sources + ((s.bodyOf l).nodes.filter (fun n => !loads.contains (keyDst n.1))).length

/-- R118, R132, R138: plane load time and check time of a cue in ns: the MSTORE read at 400 × 10^6 bytes a second and 122.9 µs; 100 µs, 1 ns
per node and 5 ns per parameter entry. -/
def State.cueLoadNs (s : State) (w : CueWhat) : Nat :=
  let read := match w with
    | .scene id _ => (dirEnt s.scene.mstore id).size * 5 / 2
    | .set _ => 0
  let l := s.cueAdds w
  read + 122900 + 100000 + s.checkNodes l + 5 * (s.bodyOf l).params.length

/-- Samples from one commit with node entries to a cue that needs the plane after it (R127, R132). -/
def State.cueLead (s : State) (w : CueWhat) : Nat := s.samplesOf (s.cueLoadNs w) + 2 * s.B

/-- Whether a set with node entries that commits at c would hold the plane when an armed cue needs it (R127, R132; log entry 158). -/
def State.hindersCue (s : State) (id c : Nat) : Bool :=
  s.nodeCues.any (fun q => decide (q.1 ≠ .set id) && decide (q.2 < c + s.cueLead q.1))

/-- R122: the commit sample that a request for one gets at m, or the error. -/
def commitAt (m B : Nat) : When → Nat ⊕ Nat
  | .next => .inl (cdiv (m + 2 * B) B * B)
  | .mcc c => if c < m + 2 * B then .inr Err.late else if m + 2 ^ 40 < c then .inr Err.range else .inl c

/-- A set scheduled for c. Its own scheduling is no change of its configuration (R124). -/
def State.schedule (s : State) (id c : Nat) : State :=
  (s.updSet id (fun x => { x with
    st := .scheduled, commit := some c, want := none, reply := none, order := s.scene.orders })).setScene
    (fun g => { g.changedAt c id with orders := g.orders + 1 })

/-- Every partition that must co-sign has. -/
def State.cosignedAll (s : State) (x : StageSet) : Bool := (s.cosignFindings x).isEmpty

/-- R122: a CHECKED set whose conditions all hold is scheduled at m = MCC: the state, and the answer. What only the commit sample
decides (R80, R199) sends the set back to OPEN with its findings. -/
def State.scheduleNow (s : State) (x : StageSet) (w : When) : State × Ans :=
  match commitAt s.mcc s.B w with
  | .inr e => (s.updSet x.id (fun y => { y with want := none, reply := none }), { status := e })
  | .inl c =>
    if x.hasNodes && s.hindersCue x.id c then
      (s.updSet x.id (fun y => { y with want := none, reply := none }), { status := Err.late })
    else if (s.chkOf x (some c)).late c ≠ [] then
      let l := (s.chkOf x (some c)).late c
      (s.updSet x.id (fun y => { y with st := .open, cosigned := [], want := none, reply := none, findings := l }), findAns l)
    else (s.schedule x.id c, { status := Err.ok, items := [.mcc c] })

/-- COMMIT: a set is scheduled, checked first, or queued behind its plane or the standby's acknowledgement (R111, R122, R124, R433). A
commit that waits for the plane is queued and answered at once; any other is answered when it is scheduled. A SCHEDULED set whose
configuration has not changed is refused, and one that is checked again loses its commit sample meanwhile (log entry 159, DESIGN
CHOICE). A CHECKED set is scheduled by the check it has passed (log entry 179). -/
def State.commitReq (s : State) (r : Req) (x : StageSet) (w : When) : State × Option Ans :=
  let check := fun (st : State) (q : Option Req) (a : Option Ans) =>
    if checkDepth ≤ st.scene.checkQ.length then (st, Ans.fail Err.busy) else (st.queueCheck x (some w) q, a)
  if s.scene.changing then (s, Ans.fail Err.state)
  else if x.want.isSome then (s, Ans.fail (if x.st = .checked then Err.busy else Err.state))
  else if x.waiting then
    (if x.attrs.noWait then (s, Ans.fail Err.busy)
     else match w with
      | .mcc _ => (s, Ans.fail Err.late)
      | .next => match x.st with
        | .open => check s none (Ans.good [])
        | .checked => (s.updSet x.id (fun y => { y with want := some w }), Ans.good [])
        | _ => (s, Ans.fail Err.state))
  else match x.st with
    | .open => check s (some r) none
    | .checked =>
      if !s.cosignedAll x then (s, findAns (s.cosignFindings x))
      else if s.twin.role = .active then (s.updSet x.id (fun y => { y with want := some w, reply := some r }), none)
      else let (s1, a) := s.scheduleNow x w; (s1, some a)
    | .scheduled =>
      if !x.stale then (s, Ans.fail Err.state)
      else check (s.updSet x.id (fun y => { y with commit := none })) (some r) none
    | _ => (s, Ans.fail Err.state)

/-- COMMIT (R111, R118, R122, R124, R128). -/
def execCommit (r : Req) (id : Nat) (w : When) (s : State) : Host.Outcome State Fault Refusal :=
  if s.waitsForQueue r id StageSet.checkFirst then .next (s.park r)
  else s.ifAsked r (.commit r id w) (s.serveAudio r 0x010A (fun q s => s.withSet q id (fun x => s.commitReq r x w)))

/-- COMMIT_SCHEDULED: the conditions of a queued commit all hold (R122): EV_COMMIT_SCHEDULED reports c, and so does the reply that is due;
on an ACTIVE the standby has acknowledged the set (R433). -/
def execCommitScheduled (id : Nat) (s : State) : Host.Outcome State Fault Refusal :=
  match s.stageSet? id with
  | none => .next s
  | some x =>
    match x.want with
    | none => .next s
    | some w =>
      if x.st ≠ .checked ∨ x.waiting ∨ !s.cosignedAll x ∨ s.scene.changing then .next s
      else
        let (s1, a) := s.scheduleNow x w
        let s2 := match a.items with
          | [.mcc c] => s1.raiseD .commitScheduled 0 id (id :: two c)
          | _ => s1
        .next (match x.reply with
          | some q => s2.reply q 0x010A a
          | none => s2)

/-- R110, R125: the plane of a set that keeps its contents is released, and the set waits for it again. -/
def State.releasePlane (s : State) (x : StageSet) : State :=
  if s.scene.holder = some x.id then
    (s.freePlane x.id).updSet x.id (fun y => { y with planeIn := false, waiting := y.hasNodes })
  else s

/-- R125: a SCHEDULED set returns to CHECKED. -/
def State.cancelSet (s : State) (x : StageSet) : State :=
  ((s.updSet x.id (fun y => { y with st := .checked, commit := none })).releasePlane x).setScene (fun g =>
    g.changedAt (x.commit.getD 0) x.id)

/-- STAGE_CANCEL: a SCHEDULED set returns to CHECKED while the MCC is below c − 2B (R125). -/
def execStageCancel (r : Req) (id : Nat) (s : State) : Host.Outcome State Fault Refusal :=
  s.ifAsked r (.stageCancel r id) (s.serveAudio r 0x010B (fun q s => s.withSet q id (fun x =>
    match x.st, x.commit with
    | .scheduled, some c =>
      if s.mcc + 2 * s.B < c then (s.cancelSet x, Ans.good []) else (s, Ans.fail Err.late)
    | _, _ => (s, Ans.fail Err.state))))

/-- R106: a set is discarded: its contents leave the stage area and the plane is free. -/
def State.discardSet (s : State) (x : StageSet) : State :=
  let s1 := match x.reading with
    | some (_, _, q) => s.reply q 0x0202 { status := Err.state }
    | none => s
  (((s1.dropReply x).freePlane x.id).updSet x.id (fun y => { y with
    st := .discarded, added := [], want := none, reply := none, reading := none, waiting := false, planeIn := false, cosigned := [] })).setScene
    (fun g => { g with checkQ := g.checkQ.filter (fun i => decide (i ≠ x.id)) })

/-- STAGE_DISCARD: an OPEN, CHECKING or CHECKED set is discarded (R106). -/
def execStageDiscard (r : Req) (id : Nat) (s : State) : Host.Outcome State Fault Refusal :=
  s.ifAsked r (.stageDiscard r id) (s.serveAudio r 0x010C (fun q s => s.withSet q id (fun x =>
    if x.st = .open ∨ x.st = .checking ∨ x.st = .checked then (s.discardSet x, Ans.good []) else (s, Ans.fail Err.state))))

/-- Codes of stage set states: SUMMARY's, then 5 COMMITTED and 6 DISCARDED (log entry 49). -/
def SetSt.code : SetSt → Nat
  | .open => 1 | .checking => 2 | .checked => 3 | .scheduled => 4 | .committed => 5 | .discarded => 6

/-- STAGE_REPORT: state, commit time, findings (R112). -/
def execStageReport (r : Req) (id : Nat) (s : State) : Host.Outcome State Fault Refusal :=
  s.ifAsked r (.stageReport r id) (s.serveRead r 0x010D 2 (fun _ s =>
    match s.stageSet? id with
    | none => Ans.fail Err.notFound
    | some x => Ans.good ([.set id, .words [x.st.code], .mcc (x.commit.getD 0)] ++ x.findings.map Item.finding)))

/-- A stage set commits when its sample has come and no earlier one, by sample and order of acceptance, still waits (R126); legacy sets,
which COMMIT_APPLIED names by id 0, count among them. -/
def State.commitDue (s : State) (id : Nat) : Option StageSet :=
  let due := s.scene.sets.filter (fun x => decide (x.st = .scheduled) && x.commit.any (fun c => decide (c ≤ s.mcc)))
  (due.find? (fun x => decide (x.id = id))).filter (fun x =>
    due.all (fun y => decide (y.id = x.id) || decide (x.commit.getD 0 < y.commit.getD 0)
      || (decide (x.commit = y.commit) && decide (x.order < y.order)))
    && s.legacy.sets.all (fun y => decide (x.commit.getD 0 < y.c) || (decide (x.commit = some y.c) && decide (x.order < y.order))))

/-- A stage set applied. -/
def State.applySet (s : State) (x : StageSet) : State := s.commitSet x.added x.attrs.cfLen x.attrs.dxLen (x.commit.getD s.mcc) x.id

end Sys2Proof.Machine
end

