-- ==== Sys2Proof/Machine/Scene.lean ====
section
/-! DEFINITION. Sys2Proof/Machine/Scene.lean: the scene store's commands, recall, and cue lists (R131–R138). -/
namespace Sys2Proof.Machine

open Fmt

/-! ### The scene store (R134–R137) -/

/-- Whether a session may write scenes of a partition: its own, or partition 0 with the device role (log entry 50). -/
def State.mayScene (s : State) (q : Session) (p : Nat) : Bool :=
  if p = 0 then decide (q.role = 0) else decide (s.owner p = q.sid)

/-- SCENE_SAVE: the committed configuration of a partition is taken now, with its profile, its shape and the configuration generation (the
directory's save generation; log entry 160, DESIGN CHOICE), and written by SCENE_SAVE_DONE, which replies (R136). -/
def execSceneSave (r : Req) (part scene : Nat) (label : List Nat) (s : State) : Host.Outcome State Fault Refusal :=
  .next (s.serveAudio r 0x0201 (fun q s =>
    let e := dirEnt s.scene.mstore scene
    if 16 ≤ part ∨ 1024 ≤ scene then (s, Ans.fail Err.range)
    else if !s.mayScene q part || (e.used && !s.mayScene q e.part) then (s, Ans.fail Err.owner)
    else
      (s.setScene (fun g => { g with saving := g.saving ++
        [{ part := part, prof := s.prof, shape := s.shape, scene := scene, label := label.take 32, record := s.sceneOf part, gen := g.gen, req := r }] }), none)))

/-- SCENE_SAVE_DONE: the oldest save's record is written into free pages, then its directory entry; the reply and EV_SCENE_SAVED (R134,
R136). -/
def execSceneSaveDone (s : State) : Host.Outcome State Fault Refusal :=
  match s.scene.saving with
  | [] => .next s
  | v :: rest =>
    let s1 := s.setScene (fun g => { g with saving := rest })
    match recordWrite s.scene.mstore v.record with
    | none => .next (s1.reply v.req 0x0201 { status := Err.capacity })
    | some (m, page) =>
      let e : DirEnt := { label := v.label, part := v.part, prof := v.prof, shape := v.shape, used := true, size := v.record.length
                          crc := Crypto.crc32 v.record, map := page, gen := v.gen }
      .next (((s1.setStore (dirWrite m v.scene e)).reply v.req 0x0201 { status := Err.ok }).raise .sceneSaved v.part v.scene 0)

/-- SCENE_LIST: id and directory entry of every scene that the session may read (R134, R316). -/
def execSceneList (r : Req) (start : Nat) (s : State) : Host.Outcome State Fault Refusal :=
  .next (s.serveRead r 0x0203 2 (fun q s =>
    Ans.paged start (((dirList s.scene.mstore).filter (fun e => q.receives e.2.part)).map (fun e => .blob (toBE 2 e.1 ++ e.2.bytes)))))

/-- SCENE_DELETE: a directory entry leaves use (R134). -/
def execSceneDelete (r : Req) (scene : Nat) (s : State) : Host.Outcome State Fault Refusal :=
  .next (s.serveAudio r 0x0204 (fun q s =>
    let e := dirEnt s.scene.mstore scene
    if 1024 ≤ scene ∨ !e.used then (s, Ans.fail Err.scene)
    else if !s.mayScene q e.part then (s, Ans.fail Err.owner)
    else (s.setStore (dirWrite s.scene.mstore scene DirEnt.free), Ans.good [])))

/-! ### Recall (R138) -/

/-- SCENE_RECALL: the MSTORE read of a scene into an OPEN set starts; the reply follows with SCENE_READ_DONE (R138). A set is of the
partitions that its session may write (log entry 50). -/
def execSceneRecall (r : Req) (id scene scope : Nat) (s : State) : Host.Outcome State Fault Refusal :=
  .next (s.serveAudio r 0x0202 (fun q s => s.withSet q id (fun x =>
    if x.st ≠ .open then (s, Ans.fail Err.state)
    else if 64 ≤ scope then (s, Ans.fail Err.range)
    else if x.reading.isSome then (s, Ans.fail Err.busy)
    else if 1024 ≤ scene ∨ !(dirEnt s.scene.mstore scene).used then (s, Ans.fail Err.scene)
    else if !s.mayScene q (dirEnt s.scene.mstore scene).part then (s, Ans.fail Err.owner)
    else (s.updSet id (fun y => { y with reading := some (scene, scope, r) }), none))))

/-- SCENE_READ_DONE: the read for a set ends: its entries and its plane load join the set, or the recall fails (R108, R137, R138). -/
def execSceneReadDone (id : Nat) (s : State) : Host.Outcome State Fault Refusal :=
  match s.stageSet? id with
  | none => .next s
  | some x =>
    match x.reading with
    | none => .next s
    | some (scene, scope, q) =>
      let s1 := s.updSet id (fun y => { y with reading := none })
      match sceneRead s.scene.mstore scene with
      | .unknown => .next (s1.reply q 0x0202 { status := Err.scene, detail := scene })
      | .broken => .next (s1.reply q 0x0202 { status := Err.integrity, detail := scene })
      | .good e _ =>
        let l := s.recallOf scene scope
        if stageArea < s.areaUsed + (l.map Added.cost).foldl (· + ·) 0 then .next (s1.reply q 0x0202 { status := Err.capacity })
        else
          let s2 := s1.updSet id (fun y => { y with added := y.added ++ l, scenes := y.scenes ++ [(e.prof, e.shape)] })
          .next ((s2.seekPlane id).reply q 0x0202 { status := Err.ok })

/-! ### Cue lists (R131–R133) -/

/-- One cue list. -/
def State.cueList (s : State) (l : Nat) : CueList := Cells.get CueList.reset s.scene.cues l
/-- One cue list replaced. -/
def State.setCues (s : State) (l : Nat) (c : CueList) : State :=
  s.setScene (fun g => { g with cues := Cells.put CueList.reset g.cues l c })

/-- R131, R133: the MCC value of a PHC time: the media count M of that time, by the present difference of M and the MCC (R263). -/
def State.mccOfPhc (s : State) (sec ns : Nat) : Nat :=
  (((sec * 1000000000 + ns) * s.fs / 1000000000 : Nat) - s.delta : Int).toNat

/-- A cue's MCC value. -/
def State.cueMcc (s : State) : CueTime → Nat
  | .mcc c => c
  | .phc sec ns => s.mccOfPhc sec ns

/-- Insertion by MCC value; of equal ones the earlier stays first. -/
def insertCue (c : Cue × Nat) : List (Cue × Nat) → List (Cue × Nat)
  | [] => [c]
  | d :: l => if c.2 < d.2 then c :: d :: l else d :: insertCue c l

/-- Whether a cue's operands are in range (R131, R138). -/
def cueOk (c : Cue) : Bool :=
  (match c.what with
   | .scene _ scope => decide (scope < 64)
   | .set id => decide (1 ≤ id) && decide (id < 65536)) &&
  (match c.time with
   | .mcc m => decide (m < 2 ^ 64)
   | .phc sec ns => decide (sec < 2 ^ 48) && decide (ns < 1000000000))

/-- CUE_LOAD (R131). -/
def execCueLoad (r : Req) (list : Nat) (cues : List Cue) (s : State) : Host.Outcome State Fault Refusal :=
  .next (s.serveAudio r 0x0205 (fun _ s =>
    if 16 ≤ list then (s, Ans.fail Err.notFound)
    else if (s.cueList list).st = .armed then (s, Ans.fail Err.state)
    else if 256 < cues.length then (s, Ans.fail Err.capacity)
    else if !cues.all cueOk then (s, Ans.fail Err.range)
    else (s.setCues list { st := if cues.isEmpty then .empty else .loaded, cues := cues, mcc := [], next := 0 }, Ans.good [])))

/-- The set that a cue's check judges: the set it names, or its scene as a set of the arming session. -/
def State.cueSet (s : State) (sid : Nat) (w : CueWhat) : StageSet :=
  match w with
  | .set id => (s.stageSet? id).getD (StageSet.fresh 0 sid Attrs.dflt)
  | .scene id _ =>
    let e := dirEnt s.scene.mstore id
    { StageSet.fresh 0 sid Attrs.dflt with added := s.cueAdds w, scenes := [(e.prof, e.shape)] }

/-- Why a cue cannot be armed before it is checked: its scene or set is not there. -/
def State.cueMissing (s : State) (w : CueWhat) : Nat :=
  match w with
  | .scene id _ => match sceneRead s.scene.mstore id with
    | .unknown => Err.scene
    | .broken => Err.integrity
    | .good _ _ => Err.ok
  | .set id => match s.stageSet? id with
    | none => Err.notFound
    | some x => if x.st = .checked then Err.ok else Err.state

/-- R112, category 8, R132: one cue of a list in time order, the list armed as far as the cues before it; the answer that stops the arming. -/
def State.armOne (s : State) (sid list : Nat) (q : Cue × Nat) (before : List (Cue × Nat)) : Option Ans :=
  let phc := match q.1.time with
    | .phc _ _ => true
    | .mcc _ => false
  let m := s.cueMissing q.1.what
  let x := s.cueSet sid q.1.what
  let nodes := fun (w : CueWhat) => (s.cueAdds w).any Added.hasNodes
  let lead := s.cueLead q.1.what
  -- the cues and sets whose node entries leave the plane too late, or need it too soon
  let cues := (before.filter (fun p => nodes p.1.what)).map (fun p => (p.1.what, p.2)) ++ s.nodeCues
  let sets := s.scene.sets.filter (fun y => decide (y.st = .scheduled) && y.hasNodes)
  let close := nodes q.1.what && (cues.any (fun p => decide (q.2 < p.2 + lead) && decide (p.2 < q.2 + s.cueLead p.1))
    || sets.any (fun y => y.commit.any (fun c => decide (q.2 < c + lead))))
  if m ≠ Err.ok then some { status := m }
  else if phc && decide (s.net.ptpSt ≠ 3) then some (findAns [{ cat := 8, err := Err.clock, h := 0, det := list }])
  else if q.2 < s.mcc + 2 * s.B ∨ close then some { status := Err.late }
  else if s.mcc + 2 ^ 40 < q.2 then some { status := Err.range }
  else
    let s' := s.setCues list { st := .armed, cues := before.map (·.1), mcc := before.map (·.2), next := 0 }
    let f := s'.check x (some q.2)
    let c := s.cosignFindings x
    if (f ++ c).isEmpty then none else some (findAns ((f ++ c).take 32))

/-- The cues of a list, one after the other; the first that fails stops the arming. -/
def State.armAll (s : State) (sid list : Nat) : List (Cue × Nat) → List (Cue × Nat) → Option Ans
  | _, [] => none
  | before, q :: rest =>
    match s.armOne sid list q before with
    | some a => some a
    | none => State.armAll s sid list (before ++ [q]) rest

/-- A loaded list in time order, with the MCC value of each cue. -/
def State.timedCues (s : State) (l : CueList) : List (Cue × Nat) :=
  (l.cues.map (fun c => (c, s.cueMcc c.time))).foldl (fun a c => insertCue c a) []

/-- R132: a list armed, or the reason why not. -/
def State.armList (s : State) (sid list : Nat) : State × Ans :=
  let l := s.cueList list
  let q := s.timedCues l
  match s.armAll sid list [] q with
  | some a => (s, a)
  | none => ((s.setCues list { st := .armed, cues := q.map (·.1), mcc := q.map (·.2), next := 0 }).setScene (fun g =>
      (q.map (·.2)).foldl (fun g c => g.changedAt c 0) g) |>.loadCue, { status := Err.ok })

/-- CUE_ARM (R131, R132). -/
def execCueArm (r : Req) (list : Nat) (s : State) : Host.Outcome State Fault Refusal :=
  .next (s.serveAudio r 0x0206 (fun q s =>
    if 16 ≤ list then (s, Ans.fail Err.notFound)
    else if (s.cueList list).st = .armed ∨ (s.cueList list).st = .empty then (s, Ans.fail Err.state)
    else let (s1, a) := s.armList q.sid list; (s1, some a)))

/-- R131: an armed list back to LOADED; the plane that one of its cues held goes to the next cue, or is free. -/
def State.disarm (s : State) (list : Nat) : State :=
  ((((s.setCues list { s.cueList list with st := .loaded, mcc := [], next := 0 }).setScene (fun g =>
    ((s.cueList list).left.map (·.2)).foldl (fun g c => g.changedAt c 0) g)).freePlane cueHolder).loadCue).flushUnits

/-- CUE_DISARM (R131). -/
def execCueDisarm (r : Req) (list : Nat) (s : State) : Host.Outcome State Fault Refusal :=
  .next (s.serveAudio r 0x0207 (fun _ s =>
    let l := s.cueList list
    if 16 ≤ list then (s, Ans.fail Err.notFound)
    else if l.st ≠ .armed then (s, Ans.fail Err.state)
    else (s.disarm list, Ans.good [])))

/-- The state code of a cue list (SUMMARY). -/
def CueSt.code : CueSt → Nat
  | .empty => 0 | .loaded => 1 | .armed => 2 | .done => 3

/-- The words in which CUE_READ gives a cue: kind, id, scope, kind of time, the time (log entry 49). -/
def cueWords (c : Cue) : List Nat :=
  (match c.what with
   | .scene id scope => [0, id, scope]
   | .set id => [1, id, 0]) ++
  (match c.time with
   | .mcc m => [0] ++ two m
   | .phc sec ns => [1] ++ two sec ++ [ns])

/-- CUE_READ (R131). -/
def execCueRead (r : Req) (list : Nat) (s : State) : Host.Outcome State Fault Refusal :=
  .next (s.serveRead r 0x0208 2 (fun _ s =>
    let l := s.cueList list
    if 16 ≤ list then Ans.fail Err.notFound
    else Ans.good (.words [l.st.code, l.next] :: (l.cues.map (fun c => .words (cueWords c)) ++ l.mcc.map Item.mcc))))

/-- CUE_FIRED: the next cue of an armed list reaches its MCC value and fires as a commit (R132, R133); the plane of the next cue with node
entries is loaded (log entry 158). A cue commits what its scene or set holds now (log entry 181); a set that is CHECKED no more, or waits
for the plane, has nothing to commit (log entry 51); a PHC that is not a locked follower counts as out of lock (log entry 180). -/
def execCueFired (list : Nat) (s : State) : Host.Outcome State Fault Refusal :=
  let l := s.cueList list
  match l.st, l.left with
  | .armed, (q, c) :: rest =>
    if s.mcc < c then .next s
    else
      let s1 := s.setCues list { l with next := l.next + 1, st := if rest.isEmpty then .done else .armed }
      let late := match q.time with
        | .phc _ _ => decide (s.net.ptpSt ≠ 3)
        | .mcc _ => false
      let s2 := s1.raise .cueFired 0 list 0
      let s3 := if late then s2.raise .cueUnaligned 0 list 0 else s2
      .next (match q.what with
        | .scene _ _ =>
          let s4 := s3.commitSet (s.cueAdds q.what) 64 256 c 0
          if (s.cueAdds q.what).any Added.hasNodes then (s4.freePlane cueHolder).loadCue else s4
        | .set id => match s.stageSet? id with
          | some x => if x.st = .checked ∧ !x.waiting then (s3.commitSet x.added x.attrs.cfLen x.attrs.dxLen c id).loadCue
              else s3.flushUnits
          | none => s3.flushUnits)
  | _, _ => .next s

end Sys2Proof.Machine
end

