-- ==== Sys2Proof/Machine/Session.lean ====
section
/-! DEFINITION. Sys2Proof/Machine/Session.lean: opening and ending sessions, partitions, events to host software (R306, R307,
R312–R320, R328–R333). -/
namespace Sys2Proof.Machine

open Fmt

/-! ### Opening (R312, R315, R316, R356, R357, R417, R434) -/

/-- R357: whether credential 0 opens a recovery session in this life-cycle state. -/
def Life.recovers (l : Life) : Bool := !(decide (l = .blank) || decide (l = .returned))

/-- What a credential lets a session do: role, partition mask, takeover right. Credential 0 has the device role in BLANK and RETURNED, and
is the observer of a recovery session otherwise; its mask names every partition (log entry 54). -/
def State.credOf (s : State) (id : Nat) : Option (Nat × Nat × Bool) :=
  if id = 0 then some (if s.sec.life.recovers then 2 else 0, 0xFFFE, false)
  else (s.sec.creds.find? (fun c => decide (c.id = id))).map (fun c => (c.role, c.mask, c.takeover))

/-- R356, R357: whether credential 0 may open a session now. -/
def State.cred0Ok (s : State) (o : Origin) : Bool :=
  if s.sec.life.recovers then s.sec.creds.isEmpty && !s.vcp.sessions.any (·.recovery) else decide (o.transport ≠ 0)

/-- R417: a stage set that switches PD_PCIE off has passed its check and is not committed yet. -/
def State.pcieGoing (s : State) : Bool :=
  s.scene.sets.any (fun x => (decide (x.st = .checked) || decide (x.st = .scheduled)) &&
    decide (Cells.get none (s.bodyOf x.added).params 0x50000012 = some 0))

/-- Why a SESSION_OPEN fails, 0 where it does not. -/
def State.openError (s : State) (o : Origin) (cred role : Nat) (keepalive : Option Nat) (most : Nat) : Nat :=
  if cred = 0 ∧ !s.cred0Ok o then Err.auth
  else if 2 < role ∨ 300 < keepalive.getD 0 then Err.range
  else if role < most then Err.owner
  else if role = 1 ∧ !s.audioServed then Err.state
  else if o.transport = 1 ∧ s.pcieGoing then Err.state
  else if o.transport ≠ 0 ∧ s.vcp.sessions.any (fun x => decide (x.origin = o)) then Err.busy
  else if 8 ≤ s.vcp.sessions.length then Err.capacity
  else 0

/-- The lowest free session number. -/
def State.freeSid (s : State) : Nat :=
  (((List.range 8).map (· + 1)).find? (fun n => !s.vcp.sessions.any (fun x => decide (x.sid = n)))).getD 8

/-- A session as it opens (R312, R314, R318, R331). -/
def Session.fresh (sid cred role mask : Nat) (takeover : Bool) (o : Origin) (enc : Bool) (keepMs : Nat) (secret nonces : List Nat)
    (mcc : Nat) : Session where
  sid := sid
  cred := cred
  role := role
  mask := mask
  takeover := takeover
  recovery := false
  origin := o
  enc := enc
  keepMs := keepMs
  ks := Crypto.hmac secret ([0x56, 0x43, 0x50, 0x31] ++ nonces ++ [sid])
  ke := Crypto.hmac secret ([0x56, 0x43, 0x50, 0x31, 0x45] ++ nonces ++ [sid])
  salt := (Crypto.hmac secret ([0x56, 0x43, 0x50, 0x31, 0x53] ++ nonces ++ [sid])).take 4
  high := 0
  seen := []
  progress := []
  replies := []
  pushSeq := 0
  evMask := 2 ^ 256 - 1
  interval := 10
  since := mcc
  ends := 0
  nextEv := 1
  queue := []
  full := false
  lost := 0
  meters := []
  ring := []
  heard := mcc

/-- Whether a message of the queue is the SESSION_OPEN of a source and number. -/
def Message.isOpen (m : Message) (o : Origin) (seq : Nat) : Bool := decide (m.sid = 0 ∧ m.seq = seq ∧ m.origin = o)

/-- R319: a SESSION_OPEN whose message was recorded is served when it is the first of the queue, with the operands its body gives. -/
def State.openTurn (s : State) (o : Origin) (seq cred role options : Nat) (nonce : List Nat) (keepalive : Option Nat) : Bool :=
  !s.vcp.inbox.any (fun m => m.isOpen o seq) ||
    s.vcp.inbox.head?.any (fun m => m.isOpen o seq && decide (openOf m.body = some ((cred, role, options), nonce, keepalive)))

/-- SESSION_OPEN: a request whose tag has verified opens a session, or fails (R307, R312). -/
def execSessionOpen (o : Origin) (seq cred role options : Nat) (nonce : List Nat) (keepalive : Option Nat) (s : State) :
    Host.Outcome State Fault Refusal :=
  if !s.serves || !s.openTurn o seq cred role options nonce keepalive then .next s
  else
    let s0 := s.setVcp (fun v => { v with
      inbox := v.inbox.filter (fun m => !m.isOpen o seq) })
    match s0.secretOf cred, s0.credOf cred with
    | some secret, some (most, mask, takeover) =>
      let e := s0.openError o cred role keepalive most
      if e ≠ 0 then .next (s0.openFail o secret seq e)
      else
        let (i, s1) := s0.draw
        let nd := toBE 16 (Config.freeBits 128 i)
        let keep := if keepalive.getD 0 = 0 then 10 else keepalive.getD 0
        let y := Session.fresh s1.freeSid cred role mask takeover o (bit options 0) (if o.transport = 0 then keep * 1000 else 0) secret
          (nonce ++ nd) s1.mcc
        let x : Session := { y with recovery := decide (cred = 0) && s1.sec.life.recovers }
        let s2 := (s1.raise .sessionOpen 0 x.sid role).setVcp (fun v => { v with sessions := v.sessions ++ [x] })
        let s3 := match o with
          | .mbx c => s2.updChannel c (fun ch => { ch with evw := 0, evr := 0 })
          | .udp _ _ => s2
        .next (s3.openReply o x.ks { sid := x.sid, seq := seq, cmd := 0x0001, status := 0, detail := 0, items := [.nonce nd] })
    | _, _ => .next (s0.authFails o)

/-! ### Ending (R318) -/

/-- A partition passes to a session, or to none. -/
def State.setOwner (s : State) (p sid : Nat) : State := s.setVcp (fun v => { v with owner := Cells.put 0 v.owner p sid })

/-- R318, R106: what the end of a session entails. -/
def State.endSession (s : State) (sid : Nat) : State :=
  let sets := s.scene.sets.filter (fun x => decide (x.sid = sid) &&
    (decide (x.st = .open) || decide (x.st = .checking) || decide (x.st = .checked)))
  -- a SCHEDULED set stays, and belongs to no session from now on
  let s1 := (sets.foldl State.discardSet s).setScene (fun g => { g with
    sets := g.sets.map (fun x => if x.sid = sid then { x with sid := 0 } else x) })
  let s2 := s1.setVcp (fun v => { v with
    sessions := v.sessions.filter (fun x => decide (x.sid ≠ sid))
    owner := v.owner.filter (fun c => decide (c.2 ≠ sid))
    inbox := v.inbox.filter (fun m => decide (m.sid ≠ sid))
    asked := v.asked.filter (fun q => decide (q.1.sid ≠ sid))
    summaries := v.summaries.filter (fun q => decide (q.sid ≠ sid))
    partials := v.partials.filter (fun p => decide (p.sid ≠ sid)) })
  s2.raise .sessionClose 0 sid 0

/-- SESSION_CLOSE: the reply goes out, then the session ends (R318). -/
def execSessionClose (r : Req) (s : State) : Host.Outcome State Fault Refusal :=
  .next (s.serve r 0x0002 3 (fun _ s => ((s.reply r 0x0002 { status := Err.ok }).endSession r.sid, none)))

/-- KEEPALIVE_EXPIRY: a UDP session has heard no authenticated request for its keepalive time (R318). -/
def execKeepaliveExpiry (sid : Nat) (s : State) : Host.Outcome State Fault Refusal :=
  match s.session? sid with
  | some x => .next (if x.origin.transport = 0 then s.endSession sid else s)
  | none => .next s

/-- PCIE_LINK_RESET: at a link-down or function-level reset the PCIe port of the fabric drains, and every session on channels 0…6 ends
(R318, R376). -/
def execPcieLinkReset (s : State) : Host.Outcome State Fault Refusal :=
  .next (((s.vcp.sessions.filter (fun x => decide (x.origin.transport = 1))).map (·.sid)).foldl State.endSession (s.drain 22))

/-- PING: the reply carries the MCC (R321). -/
def execPing (r : Req) (s : State) : Host.Outcome State Fault Refusal :=
  .next (s.serveRead r 0x0003 3 (fun _ s => Ans.good [.mcc s.mcc]))

/-- UNKNOWN_COMMAND: a code that the command table does not give fails with E_COMMAND (R321). -/
def execUnknownCommand (r : Req) (code : Nat) (s : State) : Host.Outcome State Fault Refusal :=
  .next (s.serveRead r code 3 (fun _ _ => Ans.fail Err.command))

/-! ### Partitions (R307, R317) -/

/-- The contents of the booted image's first section of a type (R341). -/
def BootG.section (b : BootG) (ty : Nat) : Option (List Nat) :=
  b.image.bind (fun i => ((i.sections.zip b.sections).find? (fun q => decide (q.1.1 = ty))).map (·.2))

/-- R341: whether a partition is enabled; without a partition table all are, 15 in native mode only. -/
def State.partOn (s : State) (p : Nat) : Bool :=
  match s.boot.section 0x06 with
  | some b => decide ((slice b (64 * (p - 1)) 1).headD 0 % 2 = 1)
  | none => decide (p ≠ 15) || !s.cap.legacy

/-- The partitions 1…15 of a mask. -/
def maskParts (mask : Nat) : List Nat := (List.range 16).filter (fun p => decide (p ≠ 0) && bit mask p)

/-- Why a claim fails, 0 where it is granted, whole (log entry 55). -/
def State.claimError (s : State) (x : Session) (mask : Nat) (force : Bool) : Nat :=
  if bit mask 0 then Err.owner
  else if s.cap.legacy ∧ bit mask 15 then Err.legacy
  else if (maskParts mask).any (fun p => !s.partOn p || !bit x.mask p ||
      (decide (s.owner p ≠ 0) && decide (s.owner p ≠ x.sid) && !(force && x.takeover))) then Err.owner
  else 0

/-- R317: a partition passes to a session; a former owner's CHECKED sets that touch it return to OPEN, with EV_PARTITION_OWNER. -/
def State.claimOne (s : State) (sid p : Nat) : State :=
  let old := s.owner p
  let s1 := s.setOwner p sid
  if old = 0 ∨ old = sid then s1
  else
    let hit := s.scene.sets.filter (fun x => decide (x.sid = old) && decide (x.st = .checked) && (s.partsOf (s.bodyOf x.added)).contains p)
    (hit.foldl State.loosen s1).raise .partitionOwner p p 0

/-- PARTITION_CLAIM (R317). -/
def execPartitionClaim (r : Req) (mask : Nat) (force : Bool) (s : State) : Host.Outcome State Fault Refusal :=
  s.ifAsked r (.partitionClaim r mask force) (s.serveAudio r 0x0005 (fun x s =>
    let e := s.claimError x mask force
    if e ≠ 0 then (s, Ans.fail e) else ((maskParts mask).foldl (fun s p => s.claimOne x.sid p) s, Ans.good [])))

/-- PARTITION_RELEASE: partitions that the session owns become unowned (R307, R317). -/
def execPartitionRelease (r : Req) (mask : Nat) (s : State) : Host.Outcome State Fault Refusal :=
  s.ifAsked r (.partitionRelease r mask) (s.serveAudio r 0x0006 (fun x s =>
    if bit mask 0 ∨ (maskParts mask).any (fun p => decide (s.owner p ≠ x.sid)) then (s, Ans.fail Err.owner)
    else ((maskParts mask).foldl (fun s p => s.setOwner p 0) s, Ans.good [])))

/-! ### Events to host software (R328–R333) -/

/-- R328: the four words of an event record. -/
def QRec.words (q : QRec) : List Nat :=
  [q.seq % 2 ^ 32, q.id * 2 ^ 24 + q.count * 2 ^ 16 + q.part * 2 ^ 12 + b2n q.detail * 256 + q.mcc / 2 ^ 32 % 256, q.mcc % 2 ^ 32, q.arg]

/-- R333: records named by sequence number are delivered, and where `push` says so pushed over UDP. -/
def Session.deliver (x : Session) (seqs : List Nat) (push : Bool) (mcc : Nat) : Session :=
  let mark := fun (q : QRec) =>
    if seqs.contains q.seq then { q with delivered := true, pushed := if push then some mcc else q.pushed } else q
  Session.refill { x with queue := x.queue.map mark } mcc

/-- EVENT_READ: the unacknowledged records from a sequence number, which are then delivered (R333). -/
def execEventRead (r : Req) (start : Nat) (s : State) : Host.Outcome State Fault Refusal :=
  .next (s.serve r 0x0401 3 (fun x s =>
    let l := x.queue.filter (fun q => decide (start ≤ q.seq))
    (s.updQueue x.sid (fun y => y.deliver (l.map (·.seq)) false s.mcc), Ans.good [.words (l.flatMap QRec.words)])))

/-- EVENT_ACK: records up to a sequence number leave the queue (R333). -/
def execEventAck (r : Req) (upTo : Nat) (s : State) : Host.Outcome State Fault Refusal :=
  .next (s.serve r 0x0402 3 (fun x s =>
    let l := (x.queue.filter (fun q => decide (q.seq ≤ upTo))).map (fun q => q.seq)
    (s.updQueue x.sid (fun y => y.leave l s.mcc), Ans.good [])))

/-- EVENT_MASK: the session's mask and delivery interval, counted from now (R331, R333). -/
def execEventMask (r : Req) (mask interval : Nat) (s : State) : Host.Outcome State Fault Refusal :=
  .next (s.serve r 0x0403 3 (fun x s =>
    if interval = 0 ∨ 1000 < interval then (s, Ans.fail Err.range)
    else (s.updSession x.sid (fun y => { y with evMask := mask % 2 ^ 256, interval := interval, since := s.mcc, ends := 0 }), Ans.good [])))

/-- EVENT_DETAIL: the detail entry of a full index, while its slot still holds that index (R328, R330). -/
def execEventDetail (r : Req) (index : Nat) (s : State) : Host.Outcome State Fault Refusal :=
  .next (s.serveRead r 0x0404 3 (fun _ s =>
    let e := Cells.get (65536, []) s.ev.detail (index % 256)
    if e.1 = index then Ans.good [.words e.2] else Ans.fail Err.notFound))

/-- R333: whether a record goes into the EVENT of an interval's end: a new one, or one that was last pushed 1 s or more ago. One that only
EVENT_READ delivered was never pushed (log entry 197). -/
def State.pushDue (s : State) (q : QRec) : Bool := !q.delivered || q.pushed.any (fun t => !s.within 1 t)

/-- R333: over UDP an interval's end pushes the new records, and again those last pushed 1 s or more ago. -/
def State.pushEvents (s : State) (x : Session) : State :=
  let l := x.queue.filter s.pushDue
  if l.isEmpty then s
  else
    let s1 := s.updQueue x.sid (fun y => { Session.deliver y (l.map (·.seq)) true s.mcc with pushSeq := x.pushSeq + 1 })
    s1.sendPushes [{ sid := x.sid, seq := x.pushSeq + 1, cmd := 0x0405, items := [.words (l.flatMap QRec.words)] }]

/-- R310, R333: over the mailbox an interval's end writes the new records into the event ring, as far as it has room, and advances
MBX_EVW. -/
def State.ringEvents (s : State) (x : Session) (c : Nat) : State :=
  let l := (x.queue.filter (fun q => !q.delivered)).take (2047 - x.ring.length)
  let w := (s.channel c).evw
  let m := l.zipIdx.foldl (fun (m : Memory) (q : QRec × Nat) =>
    m.writeAll (mbxBase c + 0x18000 + (w + q.2) % 2048 * 16) (q.1.words.flatMap (toBE 4))) s.vcp.mbx
  let s1 := (s.setVcp (fun v => { v with mbx := m })).updChannel c (fun ch => { ch with evw := (w + l.length) % 2048 })
  s1.updQueue x.sid (fun y => { Session.deliver y (l.map (·.seq)) false s.mcc with ring := x.ring ++ l.map (·.seq) })

/-- R333: whether a session's next delivery interval has ended: intervals count from its SESSION_OPEN or its last EVENT_MASK. -/
def State.intervalDue (s : State) (x : Session) : Bool := decide ((x.ends + 1) * x.interval * s.fs ≤ (s.mcc - x.since) * 1000)

/-- DELIVERY_INTERVAL_END: a session's delivery interval ends (R333). Over SPI nothing is delivered but by EVENT_READ. -/
def execDeliveryIntervalEnd (sid : Nat) (s : State) : Host.Outcome State Fault Refusal :=
  match s.session? sid with
  | none => .next s
  | some x =>
    if !s.live || !s.intervalDue x then .next s
    else
      let s1 := s.updSession sid (fun y => { y with ends := y.ends + 1 })
      match x.origin with
      | .udp _ _ => .next (s1.pushEvents x)
      | .mbx c => .next (if c < 7 then s1.ringEvents x c else s1)

end Sys2Proof.Machine
end

