-- ==== Sys2Proof/Machine/Legacy.lean ====
section
/-! DEFINITION. Sys2Proof/Machine/Legacy.lean: the legacy unit: host SPI frames, registers, legacy sets and their commits (R456–R467,
R470, R474), and COMMIT_APPLIED (R126). -/
namespace Sys2Proof.Machine

open Fmt

/-! ### Registers (R459, R460) -/

/-- Whether the PQ-480 protocol is spoken: legacy-only or mixed mode, in QUIET or RUN. -/
def State.legOn (s : State) : Bool := s.live && s.cap.legacy

/-- RATE as it reads: the rate of the newest set that changes it, or the engine rate. -/
def State.legRate (s : State) : Nat := ((s.legacy.sets.filterMap (·.rate)).getLast?).getD (b2n s.legDouble)

/-- One bit per SAP of the legacy partition. -/
def portBits (f : Nat → Bool) : Nat := (List.range 4).foldl (fun a p => a + b2n (f p) * 2 ^ p) 0

/-- The live value of a register (R459). LOAD and SOFT_RESET read 1 until their action completes at its commit sample (R14, R465, R466). -/
def State.legLive (s : State) (a : Nat) : Nat :=
  if !s.legExists a then 0
  else if legParamMask a ≠ 0 then legGet s.legacy.live a
  else match legReg a with
  | .id => 0x480003
  | .rate => s.legRate
  | .control => b2n s.legacy.shadowEn + (2 + 4) * b2n s.legacy.pending.isSome
  | .soft => b2n (s.legacy.sets.any (·.soft))
  | .status => s.legacy.status
  | .run => portBits (fun p => (s.sapDir p false).running) + 16 * portBits (fun p => (s.sapDir p false).loss)
  | .count => s.mcc % 2 ^ 24
  | _ => Cells.get 0 s.legacy.live a

/-- The value a read returns: of a parameter register with SHADOW_EN at 1, its shadow (R460). -/
def State.legRead (s : State) (a : Nat) : Nat :=
  if s.legacy.shadowEn ∧ legParamMask a ≠ 0 ∧ s.legExists a then (Cells.get none s.legacy.shadow a).getD (s.legLive a)
  else s.legLive a

/-- Whether an address lies outside the register map (R456). -/
def legUnmapped (a : Nat) : Bool := decide (legReg a = .none)

/-- R456: errors on the legacy SPI: counted, with EV_LEGACY_SPI once for each second in which they occur. -/
def State.legError (s : State) (k : Nat) : State :=
  if k = 0 then s
  else
    let s1 := s.setLeg (fun g => { g with errors := satInc g.errors k })
    if s.legacy.errSec.any (fun t => decide (s.mcc < t + s.fs)) then s1
    else (s1.setLeg (fun g => { g with errSec := some s.mcc })).raise .legacySpi 15 0 0

/-! ### Legacy sets (R464–R466) -/

/-- A legacy set accepted now. -/
def State.legAccept (s : State) (x : LegSet) : State :=
  (s.setLeg (fun g => { g with sets := g.sets ++ [{ x with order := s.scene.orders }] })).setScene (fun g =>
    { g.changedAt x.c 0 with orders := g.orders + 1 })

/-- An empty legacy set of registration MCC v. -/
def legSet (v : Nat) : LegSet := { v := v, c := v + 24, order := 0, writes := [], load := false, soft := false, rate := none }

/-- Whether a set collects direct writes. -/
def LegSet.plain (x : LegSet) : Bool := !x.load && !x.soft && x.rate.isNone

/-- R464: a parameter write: to the shadow, or to the live register and the legacy set of its registration. -/
def State.legParam (s : State) (a w : Nat) : State :=
  let m := legParamMask a
  let v := Nat.land w m
  if m = 0 ∨ !s.legExists a then s
  else if s.legacy.shadowEn then s.setLeg (fun g => { g with shadow := Cells.put none g.shadow a (some v) })
  else
    let s1 := s.setLeg (fun g => { g with live := legPut g.live a v })
    if s1.legacy.sets.any (fun x => decide (x.v = s.mcc) && x.plain) then
      s1.setLeg (fun g => { g with sets := g.sets.map (fun x =>
        if x.v = s.mcc ∧ x.plain then { x with writes := x.writes ++ [(a, v)] } else x) })
    else s1.legAccept { legSet s.mcc with writes := [(a, v)] }

/-- R465: a LOAD; ignored while one is pending. -/
def State.legLoad (s : State) : State :=
  if s.legacy.pending.isSome then s else s.setLeg (fun g => { g with pending := some s.mcc, latched := false })

/-- R466: SOFT_RESET: live registers, shadows, INT_MASK and SHADOW_EN return at once; the audio follows with the set. -/
def State.legSoft (s : State) : State :=
  let hit := ((s.legacy.live ++ s.legacy.comm).map (·.1)).eraseDups.filter (fun a => legParamMask a ≠ 0 && decide (a ≠ 2))
  let s1 := s.setLeg (fun g => { g with
    live := g.live.filter (fun q => decide (q.1 = 2) || (decide (legParamMask q.1 = 0) && decide (q.1 ≠ 0x7F01)))
    shadow := [], shadowEn := false })
  s1.legAccept { legSet s.mcc with writes := hit.map (fun a => (a, legResetVal a)), soft := true }

/-- R466: RATE: in legacy-only mode a new value requests the profile change. -/
def State.legRateWrite (s : State) (rate : Nat) : State :=
  if s.power.straps.mode = 1 ∧ rate % 2 ≠ s.legRate then s.legAccept { legSet s.mcc with rate := some (rate % 2) } else s

/-- R460: status bits cleared by writing ones. -/
def State.legClear (s : State) (mask : Nat) : State :=
  s.setLeg (fun g => { g with status := (List.range 7).foldl (fun w i => if bit mask i then setBit w i false else w) g.status })

/-- R459, R464: one word written at an address. -/
def State.legWrite (s : State) (a w : Nat) : State :=
  if legUnmapped a then s.legError 1
  else match legReg a with
  | .rate => s.legRateWrite (w % 2)
  | .control =>
    let s1 := s.setLeg (fun g => { g with shadowEn := bit w 0 })
    if bit w 1 then s1.legLoad else s1
  | .soft => if bit w 0 then s.legSoft else s
  | .status => s.legClear w
  | .mask => s.setLeg (fun g => { g with live := Cells.put 0 g.live a (w % 128) })
  | _ => s.legParam a w

/-! ### Frames -/

/-- Words written one after the other from an address on (R456). -/
def State.legBurst (s : State) (a : Nat) (ws : List Nat) : State :=
  (ws.zipIdx.foldl (fun (s : State) (q : Nat × Nat) => s.legWrite ((a + q.2) % 65536) (q.1 % 2 ^ 24)) s)

/-- Words read from an address on (R456, R458). -/
def State.legBurstRead (s : State) (a n : Nat) : State :=
  let as := (List.range n).map (fun i => (a + i) % 65536)
  (s.legError (as.filter legUnmapped).length).setLeg (fun g => { g with miso := as.map s.legRead })

/-- LEGACY_WRITE: one word (R456, R458, R464). -/
def execLegacyWrite (addr word : Nat) (s : State) : Host.Outcome State Fault Refusal :=
  .next (if s.legOn then s.legBurst addr [word] else s)
/-- LEGACY_BURST_WRITE: words at successive addresses; a cut word is discarded and counted (R456). -/
def execLegacyBurstWrite (addr : Nat) (words : List Nat) (cut : Bool) (s : State) : Host.Outcome State Fault Refusal :=
  .next (if s.legOn then (s.legBurst addr words).legError (b2n cut) else s)
/-- LEGACY_READ: one word (R456, R458). -/
def execLegacyRead (addr : Nat) (s : State) : Host.Outcome State Fault Refusal :=
  .next (if s.legOn then s.legBurstRead addr 1 else s)
/-- LEGACY_BURST_READ: words at successive addresses (R456, R458). -/
def execLegacyBurstRead (addr n : Nat) (s : State) : Host.Outcome State Fault Refusal :=
  .next (if s.legOn then s.legBurstRead addr n else s)
/-- LEGACY_PARAM_WRITE: a parameter register written (R464). -/
def execLegacyParamWrite (addr word : Nat) (s : State) : Host.Outcome State Fault Refusal :=
  .next (if s.legOn then s.legParam (addr % 65536) (word % 2 ^ 24) else s)
/-- LOAD (R465). -/
def execLoad (s : State) : Host.Outcome State Fault Refusal := .next (if s.legOn then s.legLoad else s)
/-- SOFT_RESET (R466). -/
def execSoftReset (s : State) : Host.Outcome State Fault Refusal := .next (if s.legOn then s.legSoft else s)
/-- LEGACY_RATE_WRITE (R466). -/
def execLegacyRateWrite (rate : Nat) (s : State) : Host.Outcome State Fault Refusal :=
  .next (if s.legOn then s.legRateWrite rate else s)
/-- LEGACY_STATUS_CLEAR (R459, R460). -/
def execLegacyStatusClear (mask : Nat) (s : State) : Host.Outcome State Fault Refusal :=
  .next (if s.legOn then s.legClear mask else s)

/-- LOAD_LATCH: 8 samples after a LOAD its shadows go to the live registers and into one legacy set (R465). -/
def execLoadLatch (s : State) : Host.Outcome State Fault Refusal :=
  match s.legacy.pending with
  | some v =>
    if s.legacy.latched ∨ s.mcc < v + 8 then .next s
    else
      let ws := s.legacy.shadow.map (fun q => (q.1, q.2.getD 0))
      let s1 := s.setLeg (fun g => { g with
        live := ws.foldl (fun m q => legPut m q.1 q.2) g.live, shadow := [], latched := true })
      .next (s1.legAccept { legSet v with writes := ws, load := true })
  | none => .next s

/-! ### Commits (R464–R467, R470) -/

/-- R463: gain and tap of the corner node of a send, as committed. -/
def State.sendNode (s : State) (c b : Nat) : Int × Nat :=
  let pre := if b < 16 then bit (legGet s.legacy.comm (0x1004 + 0x40 * c)) b else bit (legGet s.legacy.comm (0x1005 + 0x40 * c)) (b - 16)
  (s24 (legGet s.legacy.comm (0x6000 + 32 * c + b)) * 128, if pre then 1 else 3)

/-- R453: key of the corner node of a send. -/
def State.cornerKey (s : State) (c b : Nat) : Nat := (s.cap.dests - 32 + b) * 4096 + (s.cap.sources - 64 + c)

/-- The sends that written addresses name: a send's own register, or the PRE bits of its channel. -/
def sendsOf (as : List Nat) : List (Nat × Nat) :=
  (as.flatMap (fun a => match legReg a with
    | .send c b => [(c, b)]
    | .chan c 4 => (List.range 16).map (fun b => (c, b))
    | .chan c 5 => (List.range 16).map (fun b => (c, 16 + b))
    | _ => [])).eraseDups

/-- R463: the corner nodes that the set changes go to the Mere, and into the committed image. -/
def State.legNodes (s : State) (as : List Nat) (c : Nat) : State :=
  let nodes := ((sendsOf as).filter (fun q => decide (q.1 < s.legChans) && decide (q.2 < s.legBusses))).map (fun q =>
    (s.cornerKey q.1 q.2, s.sendNode q.1 q.2))
  let new := nodes.filter (fun n => decide (Cells.get (0, 2) s.mere.image n.1 ≠ n.2))
  if new.isEmpty then s
  else s.setMere (fun m => { m with
    image := new.foldl (fun l n => Cells.put (0, 2) l n.1 n.2) m.image
    queue := m.queue ++ [{ c := c, nodes := new.map (fun n => (n.1, n.2.1, n.2.2)), shape := none }]
    lastC := if new.any (fun n => decide ((Cells.get (0, 2) m.image n.1).1 ≠ n.2.1)) then some c else m.lastC })

/-- One committed register on its way through the legacy path; a second write at the same sample makes one transition (R126). -/
def State.legCommitWord (s : State) (c a v : Nat) : State :=
  let old := legGet s.legacy.comm a
  s.setLeg (fun g => { g with
    comm := legPut g.comm a v
    changes := if g.changes.any (fun q => decide (q.1 = c) && decide (q.2.1 = a)) then
        g.changes.map (fun q => if q.1 = c ∧ q.2.1 = a then (c, a, q.2.2.1, v) else q)
      else if old = v then g.changes else g.changes ++ [(c, a, old, v)] })

/-- R467: SAP directions that RX_EN and TX_EN start or stop. -/
def State.legPorts (s : State) (old : Nat) : State :=
  let new := legGet s.legacy.comm 5
  (List.range 8).foldl (fun s i => if bit old i = bit new i then s else s.sapEnable (i % 4) (decide (4 ≤ i)) (bit new i)) s

/-- Whether a channel selects send bridge k. -/
def State.legHears (s : State) (k : Nat) : Bool :=
  (List.range s.legChans).any (fun c => decide (legGet s.legacy.comm (0x1000 + 0x40 * c) = 64 + k))

/-- R470: EV_BRIDGE for each send bridge that INSEL connects or disconnects. -/
def State.legBridges (s old : State) : State :=
  (List.range 8).foldl (fun s k =>
    if s.legHears k = old.legHears k then s else s.raise .bridge 0 k (if s.legHears k then 1 else 2)) s

/-- R466: what SOFT_RESET clears at its commit sample: every peak, clip count and status bit. -/
def State.legWipe (s : State) : State :=
  s.setLeg (fun g => { g with status := 0, live := g.live.filter (fun q => decide (legParamMask q.1 ≠ 0) || decide (q.1 = 0x7F01)) })

/-- R465: the end of a load. -/
def State.legLoaded (s : State) (c : Nat) : State :=
  (s.setLeg (fun g => { g with
    pending := none, latched := false, status := setBit g.status 0 true, loads := (g.loads + 1) % 2 ^ 32 })).raiseD .legacyLoad 15 0 (two c)

/-- A legacy set commits (R464–R467, R126). -/
def State.legCommit (s0 : State) (x : LegSet) : State :=
  let s := s0.setLeg (fun g => { g with sets := g.sets.filter (fun y => decide (y.order ≠ x.order)) })
  match x.rate with
  | some r => s.commitSet [.entry { h := 0x50000001, v := r }] 64 256 x.c 0
  | none =>
    let ws := x.writes.filter (fun q => s.legExists q.1)
    let s1 := ws.foldl (fun s q => s.legCommitWord x.c q.1 q.2) s
    let s2 := ((s1.legNodes (ws.map (·.1)) x.c).legPorts (legGet s.legacy.comm 5)).legBridges s
    let s3 := s2.closeSet 0 x.c [15]
    let s4 := s3.raiseD .commitApplied 0 0 ([0] ++ two x.c ++ two s3.scene.gen)
    let s5 := if x.soft then s4.legWipe else s4
    if x.load then s5.legLoaded x.c else s5

/-- The legacy set that is due first, by sample and order of acceptance; none while a stage set comes before it (R126). -/
def State.legDue (s : State) : Option LegSet :=
  let due := s.legacy.sets.filter (fun x => decide (x.c ≤ s.mcc))
  (due.find? (fun x => due.all (fun y => decide (y.order = x.order) || decide (x.c < y.c)
      || (decide (x.c = y.c) && decide (x.order < y.order))))).filter (fun x =>
    s.scene.sets.all (fun y => decide (y.st ≠ .scheduled) || y.commit.all (fun c => decide (x.c < c)
      || (decide (x.c = c) && decide (x.order < y.order)))))

/-- COMMIT_APPLIED: the stage set of an id, or for id 0 the legacy set due first, takes effect at its commit sample (R95, R122, R126,
R464). -/
def execCommitApplied (id : Nat) (s : State) : Host.Outcome State Fault Refusal :=
  if !s.live && decide (s.dev ≠ .boot) then .next s
  else if id = 0 then
    .next (match s.legDue with
      | some x => s.legCommit x
      | none => s)
  else
    .next (match s.commitDue id with
      | some x => s.applySet x
      | none => s)

end Sys2Proof.Machine
end

