-- ==== Sys2Proof/Machine/Status.lean ====
section
/-! DEFINITION. Sys2Proof/Machine/Status.lean: what a read of a handle returns (R83, R322, R468, R471): committed words, and the status
words and counters of the read-only fields. -/
namespace Sys2Proof.Machine

open Fmt

/-- A signed number as a 32-bit word. -/
def w32 (x : Int) : Nat := wrapU 32 x

/-! ### Nodes -/

/-- A node record as it stands. -/
def State.node (s : State) (k : Nat) : Node := Cells.get Node.reset s.mere.step.nodes k

/-- Code of a node state (R81). -/
def NodeSt.code : NodeSt → Nat
  | .idle => 0 | .pending => 1 | .ramp => 2 | .queued => 3

/-- The committed target and tap of a node (R83). -/
def State.nodeTarget (s : State) (k : Nat) : Int × Nat := Cells.get (0, 2) s.mere.image k

/-- R83: the class 0x04 word of a node. -/
def State.tapWord (s : State) (k : Nat) : Nat :=
  let x := s.node k
  let tap := (s.nodeTarget k).2
  tap + x.st.code * 2 ^ 8 + x.tap * 2 ^ 10 + b2n (decide (x.tap ≠ tap)) * 2 ^ 12

/-- R81: the 104 bits of a node record as four words, bits [31:0] first. -/
def State.nodeRecord (s : State) (k : Nat) : List Nat :=
  let x := s.node k
  let t := s.nodeTarget k
  [w32 x.cur, w32 t.1, w32 x.stg, x.tap + t.2 * 4 + x.stap * 16 + x.st.code * 64]

/-! ### Read-only fields -/

/-- A SAP direction's status words (R208). -/
def State.sapRo (s : State) (p : Nat) (tx : Bool) (f : Nat) : Nat :=
  let d := s.sapDir p tx
  match f with
  | 0x0C => d.status (decide ((s.sapCfg p tx).kind = .src))
  | 0x0D => d.frames
  | 0x0E => d.slips
  | _ => d.losses

/-- R468: a field of a SAP direction that the legacy partition owns. -/
def State.sapLegacy (s : State) (p : Nat) (tx : Bool) (f : Nat) : Option Nat :=
  let c := s.sapCfg p tx
  match f with
  | 0x00 => some (b2n (bit (legGet s.legacy.comm 5) (p + if tx then 4 else 0)))
  | 0x01 => some 0
  | 0x02 => some 0
  | 0x04 => some c.slots
  | 0x05 => some c.slotBits
  | 0x06 => some c.wordBits
  | 0x07 => some c.clock
  | 0x08 => some c.origin
  | 0x09 => some 0x10
  | 0x0A => some (2 ^ s.legPerPort - 1)
  | 0x0B => some 0xFF
  | _ => none

/-- A field of a SAP. -/
def State.sapRead (s : State) (p f : Nat) : Nat :=
  let own := if s.legSap p then (if f < 0x20 then s.sapLegacy p (decide (0x10 ≤ f)) (f % 16) else if f = 0x21 then some 15 else none) else none
  own.getD (if f < 0x20 ∧ 0x0C ≤ f % 16 then s.sapRo p (decide (0x10 ≤ f)) (f % 16) else s.at 0x20 p f)

/-- The status word of a MADI receiver. -/
def State.madiStatus (s : State) (p : Nat) : Nat :=
  (Cells.get PortDir.reset s.ports.madi (2 * p)).status (s.srcOf (0x03000000 + p * 65536) 0).isSome

/-- The status word of an SRC channel. -/
def SrcCh.status (x : SrcCh) : Nat := b2n x.locked + 2 * b2n x.acq + 4 * b2n x.out + 8 * b2n x.fixed

/-- A twin chip's peer role as reported (R449): 0xFF unknown. -/
def TwinG.peerRole (t : TwinG) : Nat :=
  match t.peer with
  | some h => if t.paths ≠ 0 then h.role else 0xFF
  | none => 0xFF

/-- tw.paths (R449). -/
def TwinG.pathsWord (t : TwinG) : Nat := t.paths % 4 + 4 * b2n t.peerAlive + 8 * b2n t.peerOwn

/-- The value of a read-only field; none for a field that the committed words hold. -/
def State.roVal (s : State) (cls n f : Nat) : Option Nat :=
  match cls, f with
  | 0x01, 0x7E => some (Cells.get 0 s.audio.satStrip n)
  | 0x02, 0x7E => some (Cells.get 0 s.audio.satBus n)
  | 0x07, 0x10 => some (Cells.get 0 s.audio.satOut n)
  | 0x07, 0x11 => some (Cells.get 0 s.audio.grOut n)
  | 0x0A, 0x10 => some s.mere.sparesFree
  | 0x0A, 0x11 => some s.mere.recompute
  | 0x0A, 0x12 => some s.mere.corrected
  | 0x0A, 0x13 => some s.mere.restored
  | 0x0B, 0xF2 => some (s.slotRt n).engine
  | 0x10, 0x10 => some (Cells.get 0 s.spring.sat n)
  | 0x11, 0x02 => some (Cells.get 0 s.spring.slips n)
  | 0x13, 0x10 => some (12 - s.spring.retired.length)
  | 0x13, 0x11 => some s.spring.recompute
  | 0x21, 0x05 => some (Cells.get 0 s.ports.chans n)
  | 0x21, 0x06 => some (s.madiStatus n)
  | 0x21, 0x07 => some (Cells.get 0 s.ports.parity n)
  | 0x21, 0x08 => some (Cells.get PortDir.reset s.ports.madi (2 * n)).losses
  | 0x22, 0x05 => some s.ports.hsp.type
  | 0x22, 0x06 => some s.ports.hsp.buttons
  | 0x23, _ =>
    let x := Cells.get SrcCh.reset s.conv.src n
    some (([x.user, x.dir, x.status, x.ratio, x.latency, x.unlocks] : List Nat).getD f 0)
  | 0x24, 0x06 => some (w32 (satS 32 (asr (s.decCh n).e 9)))
  | 0x25, 0x03 => some s.conv.count
  | 0x30, 0x10 => some (b2n (s.linkUp n))
  | 0x30, 0x11 => some (Config.mac n % 2 ^ 32)
  | 0x30, 0x12 => some (Cells.get 0 s.net.drop n)
  | 0x30, 0x13 => some (Cells.get 0 s.net.crc n)
  | 0x33, 0x10 => some s.net.ptpSt
  | 0x33, 0x11 => some (w32 s.net.offset)
  | 0x33, 0x12 => some (s.net.leader / 2 ^ 32 % 2 ^ 32)
  | 0x33, 0x13 => some (s.net.leader % 2 ^ 32)
  | 0x34, 0x01 => some s.net.mcc
  | 0x34, 0x02 => some (w32 s.net.edgeErr)
  | 0x35, 0x06 => some (s.linkOffset n)
  | 0x35, _ =>
    let x := s.rxStream n
    if 0x10 ≤ f then some (([x.status, x.lost, x.late, x.early, x.diff, x.aMiss, x.bMiss] : List Nat).getD (f - 0x10) 0) else none
  | 0x36, 0x10 => some (s.txStream n).stagger
  | 0x40, 0x10 => some (s.cku.ref n).st.code
  | 0x40, 0x11 => some (w32 (s.cku.ref n).offset)
  | 0x40, 0x12 => some (w32 (s.cku.ref n).drift)
  | 0x40, 0x13 => some (s.cku.ref n).losses
  | 0x41, 0x10 => some s.cku.st.code
  | 0x41, 0x11 => some s.cku.sel
  | 0x41, 0x12 => some (w32 s.cku.dco)
  | 0x41, 0x13 => some (w32 s.phaseNs)
  | 0x41, 0x14 => some (w32 s.cku.loCal)
  | 0x41, 0x15 => some s.cku.holdRem
  | 0x41, 0x16 => some s.cku.xin
  | 0x50, 0x18 => some (s.power.domains % 256)
  | 0x50, 0x28 => some s.twin.role.code
  | 0x50, 0x29 => some s.twin.peerRole
  | 0x50, 0x2A => some s.twin.mismatch
  | 0x50, 0x2B => some s.twin.pathsWord
  | 0x50, 0x2C => some (w32 s.twin.edge)
  | 0x50, 0x2D => some s.twin.progress
  | 0x60, 0x01 => some s.legacy.errors
  | 0x60, 0x02 => some s.legacy.loads
  | 0x60, 0x80 => some (s.legLive n)
  | _, _ => none

/-- R9: fields that hold a gain as a dB code: trim, makeup and fader of strips and busses, the gain of a spring mix, module parameters of
type 2. Thresholds, ranges and EQ gains are levels of a curve and no G32 gain (log entry 162). -/
def State.isDbGain (s : State) (h : Nat) : Bool :=
  let f := hField h
  match hCls h with
  | 0x01 => decide (f = 0x00) || decide (f = 0x66) || decide (f = 0x78)
  | 0x02 => decide (f = 0x00) || decide (f = 0x66) || decide (f = 0x78)
  | 0x0B => (s.slotImage (hInst h)).any (fun i => (imgParams i).any (fun d => decide (d.field = f) && decide (d.ty = 2)))
  | 0x10 => decide (f = 0x08)
  | _ => false

/-- R322: the word that a read of a handle returns; a gain in dB is reported from its G32 value (R9), map words of the legacy corner as R453
has them. -/
def State.readVal (s : State) (h : Nat) : Nat :=
  if s.isDbGain h then w32 (g32ToDb (gainOf (s.val h))) else
  match hCls h with
  | 0x03 => w32 (s.nodeTarget (h % 2 ^ 24)).1
  | 0x04 => s.tapWord (h % 2 ^ 24)
  | 0x08 => if hField h = 0 then s.srcMap (hInst h) else s.val h
  | 0x09 => if hField h = 0 then s.dstMap (hInst h) else s.val h
  | 0x20 => s.sapRead (hInst h) (hField h)
  | _ => (s.roVal (hCls h) (hInst h) (hField h)).getD (s.val h)

end Sys2Proof.Machine
end

