-- ==== Sys2Proof/Machine/Reads.lean ====
section
/-! DEFINITION. Sys2Proof/Machine/Reads.lean: PARAM_READ, MATRIX_READ, LATENCY_READ, COUNTER_READ, METER_SUBSCRIBE and metering,
STREAM_SDP, modules (R33, R35, R73, R194, R204, R265, R321, R322, R324, R382). -/
namespace Sys2Proof.Machine

open Fmt

/-! ### Parameters and nodes (R12, R81, R322) -/

/-- R12, R316: why a handle is not read for a session, 0 where it is. -/
def State.readError (s : State) (x : Session) (h : Nat) : Nat :=
  if (s.field h).isNone then Err.handle else if x.receives (s.ownerOf h) then 0 else Err.owner

/-- How many handles from the front fit one reply: 8 bytes for a value, 16 for a finding. -/
def readFit (bad : Nat → Bool) : Nat → List Nat → Nat
  | _, [] => 0
  | room, h :: l =>
    let c := if bad h then 16 else 8
    if c ≤ room then 1 + readFit bad (room - c) l else 0

/-- PARAM_READ: the committed value of each handle, and a finding for each one refused (R322). -/
def execParamRead (r : Req) (handles : List Nat) (s : State) : Host.Outcome State Fault Refusal :=
  .next (s.serveRead r 0x0301 2 (fun x s =>
    let bad := fun h => decide (s.readError x h ≠ 0)
    let n := readFit bad (replyMax - statusSize - 4 - 8) handles
    let l := handles.take n
    let vals := (l.filter (fun h => !bad h)).map (fun h => ({ h := h, v := s.readVal h } : Entry))
    let errs := (l.filter bad).map (fun h => Item.finding { cat := 2, err := s.readError x h, h := h, det := 0 })
    Ans.good ((if vals.isEmpty then [] else [.entries vals]) ++ errs ++ (if n < handles.length then [.cont n] else []))))

/-- Node records in one reply. -/
def nodesPerReply : Nat := (replyMax - statusSize - 4 - 8) / 16

/-- MATRIX_READ: the node records of a rectangle, destination by destination, from an offset (R81), for a session that receives the partitions of
its destinations (R316). -/
def execMatrixRead (r : Req) (d src nd ns start : Nat) (s : State) : Host.Outcome State Fault Refusal :=
  .next (s.serveRead r 0x0302 2 (fun x s =>
    if nd = 0 ∨ ns = 0 then Ans.fail Err.range
    else if s.cap.dests < d + nd ∨ s.cap.sources < src + ns then Ans.fail Err.handle
    else if (List.range nd).any (fun i => !x.receives (s.nodeOwner (d + i) src)) then Ans.fail Err.owner
    else
      let n := min nodesPerReply (nd * ns - start)
      let w := (List.range n).flatMap (fun i => s.nodeRecord (nodeKey (d + (start + i) / ns) (src + (start + i) % ns)))
      Ans.good (.words w :: (if start + n < nd * ns then [.cont (start + n)] else []))))

/-! ### Latency (R33, R35) -/

/-- R33: engine samples that a number of samples at another rate lasts, rounded up (log entry 58). -/
def State.atEngine (s : State) (n rate : Nat) : Nat := if rate = 0 then 0 else cdiv (n * s.fs) rate

/-- The rate at which a port channel's own samples pass. -/
def State.refRate (s : State) (ref dir : Nat) : Nat :=
  match refType ref with
  | 1 => (s.sapCfg (refPort ref) (decide (dir = 1))).rate
  | 3 => s.fs / s.madiDiv (refPort ref)
  | 4 => s.at (if dir = 0 then 0x35 else 0x36) (refStream ref) 2
  | _ => s.fs

/-- R33, R240: engine samples of the SRC or 2:1 converter that a port channel reference passes. L_src counts output samples: at the engine
rate on input, at the port's rate on output. -/
def State.convLat (s : State) (ref dir : Nat) : Nat :=
  match s.srcOf ref dir with
  | some (_, x) => if dir = 0 then x.latency else s.atEngine x.latency (s.refRate ref 1)
  | none =>
    if refType ref = 4 then
      match s.path (s.at (if dir = 0 then 0x35 else 0x36) (refStream ref) 2) with
      | .half => 32
      | .direct => 0
      | .src => 0
    else 0

/-- R33: the input component of a port channel: from the pin, or from the sender's RTP timestamp, to the frame tick. A link offset counts
samples of its stream. -/
def State.inLat (s : State) (ref : Nat) : Nat :=
  match refType ref with
  | 4 => s.atEngine (s.linkOffset (refStream ref)) (s.refRate ref 0) + s.B + 2 + s.convLat ref 0
  | 5 => s.B + 8
  | 6 => s.B + 18
  | _ => s.B + 2 + s.convLat ref 0

/-- R33: the output component of a port channel. -/
def State.outLat (s : State) (ref : Nat) : Nat :=
  match refType ref with
  | 4 => s.convLat ref 1
  | 6 => 19
  | _ => 3 + s.convLat ref 1

/-- R33: the strip and bus components of an object: B, its delays, its look-ahead, its insert. -/
def State.objLat (s : State) (cls n : Nat) : Nat := s.B + s.at cls n 2 + s.at cls n 4 + s.procLat cls n

/-- R33: an effect slot: B and the declared latency of its module. -/
def State.slotLat (s : State) (x : Nat) : Nat := s.B + (s.slotImage x).elim 0 imgLatency

/-- The path from a pin through a strip; none where the strip selects no port channel. -/
def State.stripPath (s : State) (k : Nat) : Option Nat :=
  let r := s.at 0x05 k (if s.at 0x05 k 2 = 0 then 0 else 1)
  if r = 0 then none else some (s.inLat r + s.objLat 1 k)

/-- The sources that a consumer, named by its destination map word, hears through nodes with a gain. -/
def State.heardAt (s : State) (w : Nat) : List Nat :=
  let dests := (List.range s.cap.dests).filter (fun d => decide (s.dstMap d = w))
  ((s.mere.image.filter (fun c => decide (c.2.1 ≠ 0) && dests.contains (keyDst c.1))).map (fun c => keySrc c.1)).eraseDups

/-- The longer of two paths, none being no path. -/
def longer (a b : Option Nat) : Option Nat :=
  match a, b with
  | some x, some y => some (max x y)
  | none, y => y
  | x, none => x

/-- R33, R35: the longest path from a pin to the frame tick at which a consumer of the Mere takes its block: through strips, direct sources,
bus returns and effect returns, each return with its own B. `past` holds the busses and slots (65536 + slot) on the way already; a route
back to one of them is followed no further. The first argument bounds the objects on a path (log entry 58). -/
def State.entryPath (s : State) : Nat → List Nat → Nat → Option Nat
  | 0, _, _ => none
  | fuel + 1, past, w =>
    ((s.heardAt w).map (fun n =>
      let m := s.srcMap n
      let i := m % 65536
      let x := i / 8
      (match m / 2 ^ 24 with
      | 1 => s.stripPath i
      | 2 =>
        if past.contains i ∨ s.at 0x02 i 0x7D = 0 then none
        else (s.entryPath fuel (i :: past) (0x01000000 + i)).map (· + s.objLat 2 i + s.B)
      | 3 =>
        if past.contains (65536 + x) then none
        else
          let on := (65536 + x) :: past
          let sends := (List.range 8).map (fun p => s.entryPath fuel on (0x02000000 + 8 * x + p))
          let inserts := (s.inserts.filter (fun (q : Nat × Nat × Nat × Nat) => decide (q.2.2.1 = x))).map (fun (q : Nat × Nat × Nat × Nat) =>
            if q.1 = 1 then (s.stripPath q.2.1).map (· - s.slotLat x)
            else if past.contains q.2.1 then none
            else (s.entryPath fuel (q.2.1 :: on) (0x01000000 + q.2.1)).map (· + s.objLat 2 q.2.1 - s.slotLat x))
          ((sends ++ inserts).foldl longer none).map (· + s.slotLat x + s.B)
      | 4 => if s.at 0x08 n 1 = 0 then none else some (s.inLat (s.at 0x08 n 1) + s.B)
      | 5 => some (2 * s.B + 2)
      | _ => none).map (· + s.B))).foldl longer none

/-- R33, R35: the latency of the path to an output patch entry: the longest that its bus hears, 0 where none reaches it (log entry
58). -/
def State.pathLat (s : State) (n : Nat) : Nat :=
  let bus := s.at 0x06 n 1
  if bus = 0xFFFF ∨ s.at 0x06 n 0 = 0 then 0
  else (s.entryPath (s.cap.busses + s.cap.slots + 1) [bus] (0x01000000 + bus)).elim 0 (fun l =>
    l + s.objLat 2 bus + s.B + s.outLat (s.at 0x06 n 0))

/-- LATENCY_READ: the path latency of each output patch entry named, in samples (R35), for a session that receives their partitions (R316). -/
def execLatencyRead (r : Req) (outs : List Nat) (s : State) : Host.Outcome State Fault Refusal :=
  .next (s.serveRead r 0x0303 2 (fun x s =>
    if outs.any (fun n => decide (outEntries ≤ n)) then Ans.fail Err.handle
    else if outs.any (fun n => !x.receives (s.ownerOf (mkH 0x06 n 0))) then Ans.fail Err.owner
    else Ans.good [.words (outs.map s.pathLat)]))

/-! ### Counters (R382) -/

/-- The 16 fault counters in the order of SUMMARY (R326). -/
def State.faultCounters (s : State) : List Nat :=
  [s.fault.recomputes, s.fault.retired, s.mere.recompute, s.mere.corrected, s.mere.restored, s.spring.recompute, s.fault.rollbacks,
    s.fault.restarts, s.fault.episodes, s.fab.dramCorr, s.fab.dramUncorr, s.fab.poolParity, s.fab.mstoreCorr, s.fab.cdcTimeout,
    s.fault.failedTasks, s.vcp.authFail]

/-- Handles of the saturation counters (R29): strip, bus, output stage, spring mix. -/
def satHandle (h : Nat) : Bool :=
  (decide (hCls h = 0x01 ∨ hCls h = 0x02) && decide (hField h = 0x7E)) || (decide (hCls h = 0x07 ∨ hCls h = 0x10) && decide (hField h = 0x10))

/-- The counter of an id: R382's, a saturation counter by its handle, and the fault counters of SUMMARY from 0x0100 on (log entry 74). -/
def State.counter (s : State) (id : Nat) : Option Nat :=
  if 0x0100 ≤ id ∧ id < 0x0110 then s.faultCounters[id - 0x0100]?
  else if satHandle id then (if (s.field id).isSome then some (s.readVal id) else none)
  else if 0x0400 ≤ id ∧ id < 0x0418 then some (Cells.get 0 s.fab.conflict (id - 0x0400))
  else if 0x0420 ≤ id ∧ id < 0x0438 then some (Cells.get 0 s.fab.decode (id - 0x0420))
  else
    match id with
    | 0x0440 => some s.fab.lockForced
    | 0x0441 => some s.fab.cdcTimeout
    | 0x0442 => some s.fab.xrst
    | 0x0443 => some s.fab.poolParity
    | 0x0444 => some s.fab.dramCorr
    | 0x0445 => some s.fab.dramUncorr
    | 0x0446 => some s.fab.dramRetry
    | 0x0447 => some s.fab.mstoreCorr
    | _ => none

/-- COUNTER_READ: saturation, fault and fabric counters (R321, R382); a saturation counter for a session that receives its partition (R316). -/
def execCounterRead (r : Req) (ids : List Nat) (s : State) : Host.Outcome State Fault Refusal :=
  .next (s.serveRead r 0x0304 2 (fun x s =>
    if ids.any (fun i => (s.counter i).isNone) then Ans.fail Err.range
    else if ids.any (fun i => satHandle i && !x.receives (s.ownerOf i)) then Ans.fail Err.owner
    else Ans.good [.words (ids.map (fun i => (s.counter i).getD 0))]))

/-! ### Meters (R73, R324) -/

/-- Class, instance and position of a meter point key. -/
def meterOf (k : Nat) : Nat × Nat × Nat := (k / 8 / 65536, k / 8 % 65536, k % 8)

/-- R73: whether a meter point exists. -/
def State.meterIs (s : State) (k : Nat) : Bool :=
  let (cls, inst, p) := meterOf k
  match cls with
  | 1 => decide (inst < s.cap.strips) && decide (p < 6)
  | 2 => decide (inst < s.cap.busses) && decide (p < 4)
  | 7 => decide (inst < outEntries) && decide (p < 3)
  | _ => false

/-- The partition of a meter point's object. -/
def State.meterPart (s : State) (k : Nat) : Nat := let (cls, inst, _) := meterOf k; s.ownerOf (mkH cls inst 0)

/-- METER_SUBSCRIBE: the session's meter points, up to 1024 (R324). -/
def execMeterSubscribe (r : Req) (points : List Nat) (s : State) : Host.Outcome State Fault Refusal :=
  .next (s.serve r 0x0305 2 (fun x s =>
    if 1024 < points.length then (s, Ans.fail Err.capacity)
    else if points.any (fun k => !s.meterIs k) then (s, Ans.fail Err.handle)
    else if points.any (fun k => !x.receives (s.meterPart k)) then (s, Ans.fail Err.owner)
    else (s.updSession x.sid (fun y => { y with meters := points }), Ans.good [])))

/-- The dB code of a ratio to full scale, k times its decibels over 2 (2 for an amplitude, 1 for a power); -36,864 for zero (R9, R73). -/
def levelCode (k : Int) (num den : Nat) : Int :=
  if num = 0 then -36864
  else max (-36864) (Fxp.roundScaled (k * 10 * Fxp.log10 (Fxp.ofDiv num den)) 8)

/-- R73: the reading of a point: peak and mean square over the period as dB codes; the largest reduction; sat_count. -/
def State.meterRead (s : State) (k : Nat) : List Nat :=
  let (cls, inst, p) := meterOf k
  let m := Cells.get (0, 0) s.audio.meters k
  let n := s.at 0x51 (s.meterPart k) 0 * s.B
  let gr := (decide (cls = 1) && (decide (p = 2) || decide (p = 3))) || (decide (cls = 2) && (decide (p = 1) || decide (p = 2)))
    || (decide (cls = 7) && decide (p = 0))
  if cls = 7 ∧ p = 2 then [Cells.get 0 s.audio.satOut inst, 0]
  else if gr then [m.1, 0]
  else [w32 (levelCode 2 m.1 (2 ^ 40)), w32 (levelCode 1 m.2 (n * 2 ^ 80))]

/-- METER_PERIOD_END: a partition's meter period ends: METER goes to every session with points in it that receives it, and the next period starts
(R73, R316, R324). -/
def execMeterPeriodEnd (part : Nat) (s : State) : Host.Outcome State Fault Refusal :=
  if !s.live then .next s
  else
    let mine := fun k => decide (s.meterPart k = part)
    let hear := s.vcp.sessions.filter (fun x => x.receives part && x.meters.any mine)
    let push := hear.map (fun (x : Session) =>
      ({ sid := x.sid, seq := x.pushSeq + 1, cmd := 0x0306, items := [.words ((x.meters.filter mine).flatMap s.meterRead)] } : Push))
    let s1 := hear.foldl (fun s x => s.updSession x.sid (fun y => { y with pushSeq := y.pushSeq + 1 })) s
    let s2 := if push.isEmpty then s1 else s1.sendPushes push
    .next (s2.setAudio (fun a => { a with meters := a.meters.filter (fun c => !mine c.1) }))

/-! ### SDP (R265) -/

/-- The characters of a text. -/
def ascii (t : String) : List Nat := t.toList.map Char.toNat
/-- A number in decimal. -/
def decimal (n : Nat) : List Nat := (Nat.toDigits 10 n).map Char.toNat
/-- An IPv4 address in dotted form. -/
def dotted (a : Nat) : List Nat :=
  decimal (a / 2 ^ 24 % 256) ++ [46] ++ decimal (a / 2 ^ 16 % 256) ++ [46] ++ decimal (a / 2 ^ 8 % 256) ++ [46] ++ decimal (a % 256)
/-- A line with its line end. -/
def sdpLine (l : List Nat) : List Nat := l ++ [13, 10]

/-- The packet time of a ptime code in ms. -/
def ptimeText (c : Nat) : List Nat := ascii ((["0.125", "0.25", "0.333", "1", "4"] : List String).getD c "1")
/-- 64 bits as 16 hexadecimal digits, in pairs joined by '-'. -/
def clockText (w : Nat) : List Nat :=
  (List.range 8).flatMap (fun i =>
    let b := w / 2 ^ (8 * (7 - i)) % 256
    (if i = 0 then [] else [45]) ++ (if b < 16 then [48] else []) ++ (Nat.toDigits 16 b).map Char.toNat)

/-- One media description of a transmit stream, for a leg. -/
def State.sdpMedia (s : State) (i leg : Nat) : List Nat :=
  let f := fun k => s.at 0x36 i k
  let o := if leg = 0 then 8 else 0x0B
  let pt := decimal (f 5)
  sdpLine (ascii "m=audio " ++ decimal (f (o + 1)) ++ ascii " RTP/AVP " ++ pt)
    ++ sdpLine (ascii "c=IN IP4 " ++ dotted (f o) ++ [47] ++ decimal (f 7))
    ++ sdpLine (ascii "a=rtpmap:" ++ pt ++ ascii (if f 1 = 0 then " L16/" else " L24/") ++ decimal (f 2) ++ [47] ++ decimal (f 3))
    ++ sdpLine (ascii "a=ptime:" ++ ptimeText (f 4))
    ++ sdpLine (ascii "a=ts-refclk:ptp=IEEE1588-2008:" ++ clockText s.net.leader ++ [58] ++ decimal (s.at 0x33 0 2))
    ++ sdpLine (ascii "a=mediaclk:direct=0")

/-- R265: the description of a transmit stream; the lines that the rule does not name follow the plain form of SDP (log entry 56). -/
def State.sdpOut (s : State) (i : Nat) : List Nat :=
  let legs := [0, 1].filter (fun l => decide (s.at 0x36 i (if l = 0 then 0x0A else 0x0D) ≠ 0xFF))
  let port := s.at 0x36 i (if legs.headD 0 = 0 then 0x0A else 0x0D)
  sdpLine (ascii "v=0")
    ++ sdpLine (ascii "o=- " ++ decimal i ++ [32] ++ decimal s.scene.gen ++ ascii " IN IP4 " ++ dotted (s.at 0x30 port 2))
    ++ sdpLine (ascii "s=" ++ decimal i) ++ sdpLine (ascii "t=0 0")
    ++ legs.flatMap (s.sdpMedia i)

/-- A line cut at blanks and at '=', ':' and '/'. -/
def sdpTokens (l : List Nat) : List (List Nat) :=
  (l.splitOnP (fun c => [32, 61, 58, 47].contains c)).filter (fun t => !t.isEmpty)

/-- The lines of a text. -/
def sdpLines (t : List Nat) : List (List (List Nat)) := ((t.filter (· ≠ 13)).splitOnP (· = 10)).map sdpTokens

/-- A decimal number. -/
def undec (t : List Nat) : Option Nat :=
  if t.isEmpty ∨ t.any (fun c => decide (c < 48) || decide (57 < c)) then none
  else some (t.foldl (fun a c => a * 10 + (c - 48)) 0)
/-- A dotted address. -/
def undot (t : List Nat) : Option Nat :=
  let l := (t.splitOnP (· = 46)).map undec
  if l.length = 4 ∧ l.all (fun x => x.any (fun n => decide (n < 256))) then some (ofBE (l.map (fun x => x.getD 0))) else none
/-- A packet time. -/
def unptime (t : List Nat) : Option Nat :=
  (([("0.125", 0), ("0.12", 0), ("0.25", 1), ("0.333", 2), ("0.33", 2), ("1", 3), ("1.0", 3), ("4", 4), ("4.0", 4)] : List (String × Nat)).find?
    (fun q => decide (ascii q.1 = t))).map (·.2)

/-- What one line of a description says of a receive stream: fields and values, with the media descriptions before it. -/
def sdpFields (medias : Nat) (l : List (List Nat)) : List (Nat × Nat) :=
  let is := fun (i : Nat) (t : String) => decide (l.getD i [] = ascii t)
  let leg := if medias ≤ 1 then 8 else 0x0C
  let opt := fun (f : Nat) (v : Option Nat) => v.toList.map (fun x => (f, x))
  if is 0 "c" then opt leg (undot (l.getD 3 []))
  else if is 0 "m" then opt (if medias = 0 then 9 else 0x0D) (undec (l.getD 2 [])) ++ opt 5 (undec (l.getD 5 []))
  else if is 0 "a" ∧ is 1 "rtpmap" then
    (if is 3 "L16" then [(1, 0)] else if is 3 "L24" then [(1, 1)] else []) ++ opt 2 (undec (l.getD 4 []))
      ++ opt 3 (some ((undec (l.getD 5 [])).getD 1))
  else if is 0 "a" ∧ is 1 "ptime" then opt 4 (unptime (l.getD 2 []))
  else if is 0 "a" ∧ is 1 "source-filter" then opt (leg + 2) (undot (l.getD 6 []))
  else []

/-- R265: the fields of a receive stream that a description gives; where a field is given twice the last counts. -/
def sdpIn (text : List Nat) : Mem :=
  ((sdpLines text).foldl (fun (a : Nat × Cells (Option Nat)) l =>
    let m := a.1
    let fs := sdpFields m l
    (if l.headD [] = [109] then m + 1 else m, fs.foldl (fun c q => Cells.put none c q.1 (some q.2)) a.2)) (0, [])).2.map
      (fun c => (c.1, c.2.getD 0))

/-- STREAM_SDP: the description of a transmit stream, or one for a receive stream, whose fields are staged in the session's newest OPEN
set (R265; log entry 56). -/
def execStreamSdp (r : Req) (sIx : Nat) (sdp : Option (List Nat)) (s : State) : Host.Outcome State Fault Refusal :=
  .next (s.serve r 0x0307 1 (fun x s =>
    if 256 ≤ sIx then (s, Ans.fail Err.handle)
    else
      match sdp with
      | none => (s, Ans.good [.blob (s.sdpOut sIx)])
      | some t =>
        if !s.audioServed then (s, Ans.fail Err.state)
        else
          match (s.scene.sets.filter (fun q => decide (q.sid = x.sid) && decide (q.st = .open))).getLast? with
          | none => (s, Ans.fail Err.state)
          | some q => s.addTo q ((sdpIn t).map (fun c => .entry { h := mkH 0x35 sIx c.1, v := c.2 }))))

/-! ### Modules (R194, R204) -/

/-- Who signed a module image: 0 nobody (the signature is all zeros, log entry 57), 1 Sormaja, 2 an integrator module key, 3 anyone
else. -/
def State.moduleSigner (s : State) (img : List Nat) : Nat :=
  let body := img.take (img.length - 64)
  let sig := img.drop (img.length - 64)
  if sig.all (· = 0) then 0
  else if Crypto.ecdsa (toBE 64 Config.romRoot) body sig then 1
  else if s.sec.modKeys.any (fun k => Crypto.ecdsa k.2 body sig) then 2
  else 3

/-- R204: whether an image of a signer and an id loads in the present life-cycle state. -/
def State.signerOk (s : State) (signer id : Nat) : Bool :=
  match signer, s.sec.life with
  | 0, .blank => true
  | 0, .provisioned => true
  | 1, .returned => Config.diagnostic id
  | 1, _ => true
  | 2, .provisioned => true
  | 2, .deployed => true
  | _, _ => false

/-- R204: whether an image loads by itself. -/
def State.moduleOk (s : State) (img : List Nat) : Bool := s.signerOk (s.moduleSigner img) (imgW img 8)

/-- A module joins the library; one of the same id and version gives way. -/
def State.addModule (s : State) (img : List Nat) : State :=
  let m : Module := { id := imgW img 8, version := imgW img 12, image := img }
  { s with tarn := { s.tarn with modules := s.tarn.modules.filter (fun q => !(decide (q.id = m.id) && decide (q.version = m.version))) ++ [m] } }

/-- Why an image is not loaded, 0 where it is (R194, R204). -/
def State.moduleError (s : State) (img : List Nat) : Nat :=
  if !imgRangeOk img then Err.range
  else if !imgDigestOk img then Err.integrity
  else if !s.moduleOk img then Err.signature
  else 0

/-- A module image is loaded, with EV_MODULE_UNSIGNED for an unsigned one (R204). -/
def State.loadModule (s : State) (img : List Nat) : State :=
  let s1 := s.addModule img
  if s.moduleSigner img = 0 then s1.raiseD .moduleUnsigned 0 (imgW img 8 % 65536) [imgW img 8, imgW img 12] else s1

/-- MODULE_LOAD (R194, R204). -/
def execModuleLoad (r : Req) (image : List Nat) (s : State) : Host.Outcome State Fault Refusal :=
  .next (s.serveAudio r 0x0601 (fun _ s =>
    let e := s.moduleError image
    if e ≠ 0 then (s, Ans.fail e) else (s.loadModule image, Ans.good [])))

/-- MODULE_LIST: id, version and image bytes of every module loaded. -/
def execModuleList (r : Req) (s : State) : Host.Outcome State Fault Refusal :=
  .next (s.serveRead r 0x0602 2 (fun _ s =>
    Ans.good [.words (s.tarn.modules.flatMap (fun m => [m.id, m.version, m.image.length]))]))

end Sys2Proof.Machine
end

