-- ==== Sys2Proof/Machine/Summary.lean ====
section
/-! DEFINITION. Sys2Proof/Machine/Summary.lean: SUMMARY (R326). -/
namespace Sys2Proof.Machine

open Fmt

/-- Bytes cut or filled with zeros to a length. -/
def padTo (n : Nat) (l : List Nat) : List Nat := l.take n ++ List.replicate (n - l.length) 0

/-- A 256-bit bitmap, most significant byte first. -/
def bitmap (n : Nat) (f : Nat → Bool) : List Nat :=
  (List.range n).map (fun i => (List.range 8).foldl (fun a j => a + b2n (f (8 * (n - 1 - i) + j)) * 2 ^ j) 0)

/-- 0x000, 64 bytes. -/
def State.sumIdentity (s : State) : List Nat :=
  toBE 4 devId ++ toBE 8 Config.serial ++ toBE 4 s.fw.version ++ toBE 4 (s.boot.image.elim 0 (·.generation))
    ++ [b2n s.boot.slotUsed, s.power.straps.mode, s.sec.life.code, s.dev.code, s.fam, s.prof, s.shape, b2n s.power.straps.pairId]
    ++ toBE 4 s.power.upS

/-- 0x040, 64 bytes. -/
def State.sumTime (s : State) : List Nat :=
  toBE 8 s.mcc ++ toBE 8 (s.net.phc.t / phcSecond) ++ toBE 4 (s.net.phc.t % phcSecond / 2 ^ 32) ++ toBE 4 0 ++ toBE 8 s.scene.gen
    ++ [s.cku.st.code, s.cku.sel, s.net.mcc, s.net.ptpSt] ++ (List.range 8).map (fun k => (s.cku.ref k).st.code)
    ++ toBE 4 (w32 s.phaseNs) ++ toBE 4 (w32 s.net.offset) ++ toBE 4 s.cku.holdRem ++ toBE 4 (w32 s.net.edgeErr)

/-- R440: the PAIR_ID of the chip that holds the lease, 0xFF none. -/
def State.leaseHolder (s : State) : Nat :=
  let me := b2n s.power.straps.pairId
  if !s.twin.lease then 0xFF
  else
    match s.twin.role with
    | .active => me
    | .standby => 1 - me
    | .solo => 0xFF
    | .joining => 0xFF
    | .fenced => 0xFF

/-- 0x080, 32 bytes. -/
def State.sumTwin (s : State) : List Nat :=
  [s.twin.role.code, s.twin.peerRole, s.leaseHolder, s.twin.paths % 4] ++ toBE 4 s.twin.mismatch ++ toBE 8 s.twin.instepAt

/-- 0x0A0, 96 bytes. -/
def State.sumFaults (s : State) : List Nat :=
  [s.fault.holder.elim 0 (·.code), s.fault.holder.elim 0 (·.sid), s.fault.queue.length,
    ((List.range 17).filter (fun e => decide ((s.eng e).st = .spare))).length, s.mere.sparesFree, 12 - s.spring.retired.length, 0, 0]
    ++ s.faultCounters.flatMap (toBE 4)

/-- 0x100: one partition, 16 bytes. -/
def State.sumPartition (s : State) (p : Nat) : List Nat :=
  let l := Cells.get (0, 0, 0) s.scene.lastSet p
  [s.owner p, b2n (decide (p = 15) && s.cap.legacy)] ++ toBE 2 l.1 ++ toBE 4 l.2.1 ++ toBE 8 l.2.2

/-- The partitions that a session owns, as a mask. -/
def State.ownedMask (s : State) (sid : Nat) : Nat :=
  (List.range 16).foldl (fun a p => a + b2n (decide (s.owner p = sid)) * 2 ^ p) 0

/-- 0x200: one session, 32 bytes. -/
def State.sumSession (s : State) (sid : Nat) : List Nat :=
  match s.session? sid with
  | none => List.replicate 32 0
  | some x =>
    let peer := match x.origin with
      | .udp a p => (a, p)
      | .mbx c => (c, 0)
    padTo 32 ([x.sid, x.role, x.origin.transport, b2n x.enc] ++ toBE 2 (s.ownedMask sid) ++ toBE 2 x.queue.length ++ toBE 4 x.high
      ++ toBE 4 x.nextEv ++ toBE 4 peer.1 ++ toBE 2 peer.2 ++ [0, 0] ++ toBE 4 ((s.mcc - x.heard) * 1000 / s.fs))

/-- 0x300: one stage set, 16 bytes. -/
def State.sumSet (s : State) (x : StageSet) : List Nat :=
  let parts := (s.partsOf (s.bodyOf x.added)).foldl (fun a p => setBit a p true) 0
  let flags := b2n (decide (s.scene.holder = some x.id)) + 2 * b2n x.waiting + 4 * b2n (s.cosignedAll x)
    + 8 * b2n (x.attrs.nextPossible || decide (x.want = some .next))
  toBE 2 x.id ++ [x.st.code, x.sid] ++ toBE 2 parts ++ toBE 2 flags ++ toBE 8 (x.commit.getD 0)

/-- 0x500: one cue list, 16 bytes. -/
def State.sumCues (s : State) (l : Nat) : List Nat :=
  let c := s.cueList l
  [c.st.code, 0] ++ toBE 2 c.cues.length ++ toBE 2 c.next ++ [0, 0] ++ toBE 8 (c.mcc.getD c.next 0)

/-- 0x600: the ports, 512 bytes. -/
def State.sumPorts (s : State) : List Nat :=
  let rx := fun (i : Nat) (k : Nat) => bit (s.rxStream i).status k
  (List.range 16).flatMap (fun p => toBE 4 (s.sapRo p false 0x0C)) ++ (List.range 16).flatMap (fun p => toBE 4 (s.sapRo p true 0x0C))
    ++ (List.range 8).flatMap (fun p => toBE 4 (s.madiStatus p))
    ++ (List.range 4).flatMap (fun n => [b2n (s.linkUp n), s.at 0x30 n 1, 0, 0] ++ toBE 4 (Cells.get 0 s.net.drop n))
    ++ padTo 32 [s.ports.hsp.type, s.ports.hsp.buttons]
    ++ bitmap 32 (fun i => rx i 0) ++ bitmap 32 (fun i => rx i 1) ++ bitmap 32 (fun i => rx i 2) ++ bitmap 32 (fun i => rx i 3)
    ++ bitmap 32 (fun i => decide (s.at 0x36 i 0 = 1))
    ++ bitmap 64 (fun i => (Cells.get SrcCh.reset s.conv.src i).locked)

/-- Code of an engine's state. -/
def EngSt.code : EngSt → Nat
  | .active => 0 | .spare => 1 | .retired => 2 | .legacy => 3

/-- 0x800: one engine, 8 bytes: its instances, and the cycles admitted for them, the runtime and the native tasks (log entry 8). -/
def State.sumEngine (s : State) (e : Nat) : List Nat :=
  let l := s.ledger.all
  let on := l.filter (fun p => decide (p.engine = e))
  let es := s.nativeEngines
  let t := if es.contains e then s.nativeTasks es e else (0, 0)
  let base := if es.contains e then 1100 + s.nativeCycles es e else 0
  [(s.eng e).st.code, t.1 + t.2 + on.length] ++ toBE 4 (base + cyclesOn l e) ++ [0, 0]

/-- 0x800: the resources, 256 bytes. -/
def State.sumResources (s : State) : List Nat :=
  (List.range 17).flatMap s.sumEngine ++ toBE 4 (s.granulesOf s.ledger) ++ toBE 4 dramGranules
    ++ toBE 2 (s.conv.src.filter (fun c => decide (c.2.user ≠ 0))).length ++ toBE 2 (s.listed 0x35 0).length
    ++ toBE 2 (s.listed 0x36 0).length ++ [0, 0] ++ toBE 4 s.areaUsed ++ toBE 4 s.jitterBytes ++ [s.scene.checkQ.length, 0]
    ++ toBE 2 (s.scene.holder.getD 0)

/-- R326: the 4096 bytes. -/
def State.summary (s : State) : List Nat :=
  let sets := (s.scene.sets.filter StageSet.live).take 32
  let b := padTo 64 s.sumIdentity ++ padTo 64 s.sumTime ++ padTo 32 s.sumTwin ++ padTo 96 s.sumFaults
    ++ (List.range 16).flatMap s.sumPartition ++ (List.range 8).flatMap (fun i => s.sumSession (i + 1))
    ++ padTo 512 (sets.flatMap s.sumSet) ++ (List.range 16).flatMap s.sumCues ++ padTo 512 s.sumPorts ++ padTo 256 s.sumResources
  let c := padTo 0xFE0 b
  c ++ Crypto.sha256 c

/-- SUMMARY: the request waits for the next frame tick, at which every field is taken (R326). -/
def execSummary (r : Req) (s : State) : Host.Outcome State Fault Refusal :=
  .next (s.serve r 0x0004 3 (fun _ s => (s.setVcp (fun v => { v with summaries := v.summaries ++ [r] }), none)))

/-- R326: at a frame tick the SUMMARY requests that wait get their reply. -/
def State.answerSummaries (s : State) : State :=
  s.vcp.summaries.foldl (fun t r => t.reply r 0x0004 { status := Err.ok, items := [.blob s.summary] })
    (s.setVcp (fun v => { v with summaries := [] }))

end Sys2Proof.Machine
end

