-- ==== Sys2Proof/Machine/Image.lean ====
section
/-! DEFINITION. Sys2Proof/Machine/Image.lean: the Wellhead image: header, sections, validity, pin functions (R340–R342, R347, R477). -/
namespace Sys2Proof.Machine

open Fmt

/-! ### The flash slots (R343, R365, R367) -/

/-- A flash slot: 0 A, 1 B. -/
def FwG.slot (g : FwG) (n : Nat) : FlashSlot := if n = 0 then g.slotA else g.slotB

/-- The first n bytes of a slot that FW_WRITE has written; erased bytes read 0xFF (log entry 199, PRESUMED). -/
def FlashSlot.bytes (f : FlashSlot) (n : Nat) : List Nat := f.data.readAll 0 (min n f.size) ++ List.replicate (n - f.size) 0xFF

/-- What a read of a slot's first 4096 bytes gives: what FW_WRITE wrote there, or, in a slot written outside the model, the bytes that the
command brings; none where the flash does not answer. -/
def State.slotRead (s : State) (b : Bool) (h : Option (List Nat)) : Option (List Nat) :=
  let f := s.fw.slot (b2n b)
  if f.known then h.map (fun _ => f.bytes 4096) else h

/-! ### Reading a header (R340, R341) -/

/-- The 48 bytes of section entry i. -/
def secEntry (h : List Nat) (i : Nat) : List Nat := slice h (0x100 + 48 * i) 48

/-- A section entry: type, offset, length, SHA-256. -/
def secOf (e : List Nat) : Nat × Nat × Nat × List Nat := (imgW e 0 / 2 ^ 24, imgW e 4, imgW e 8, slice e 16 32)

/-- What a header says. -/
def imageOf (h : List Nat) : Image where
  generation := imgW h 0x08
  fwVersion := imgW h 0x0C
  secVersion := imgW h 0x10 % 256
  bytes := imgW h 0x14
  signer := imgW h 0x1C % 256
  xin := bits (imgW h 0x20) 0 0
  family := bits (imgW h 0x20) 1 1
  profile := bits (imgW h 0x20) 3 2
  tamperEn := bits (imgW h 0x20) 7 4
  runTimeout := imgW h 0x24
  sections := (List.range (imgW h 0x18 % 256)).map (fun i => secOf (secEntry h i))

/-! ### Validity (R342) -/

/-- Whether n bytes from an offset are 0. -/
def zeroAt (h : List Nat) (off n : Nat) : Bool := (slice h off n).all (· = 0)

/-- Condition 2: magic, format, hdr_words, the profile for the strapped mode, reserved fields. -/
def State.headerForm (s : State) (h : List Nat) : Bool :=
  let prof := bits (imgW h 0x20) 3 2
  decide (4096 ≤ h.length) && decide (imgW h 0 = 0x57454C4C) && decide (imgW h 4 = 0x00010400)
    && decide (prof ≠ 3) && !(s.cap.legacy && decide (prof = 2))
    && decide (imgW h 0x10 / 256 = 0) && decide (imgW h 0x18 / 256 = 0) && decide (imgW h 0x1C / 256 = 0) && decide (imgW h 0x20 / 256 = 0)
    && zeroAt h 0x28 0x18 && zeroAt h 0x80 0x80 && zeroAt h 0xD00 0x2C0

/-- Condition 3: the header's signature under the signer's key. -/
def State.headerSigned (s : State) (h : List Nat) : Bool :=
  let body := slice h 0 0xFC0
  let sig := slice h 0xFC0 64
  match imgW h 0x1C % 256 with
  | 0 => Crypto.ecdsa (toBE 64 Config.romRoot) body sig
  | 1 =>
    let key := slice h 0x40 64
    decide (s.sec.rootHash ≠ []) && decide (Crypto.sha256 key = s.sec.rootHash) && Crypto.ecdsa key body sig
  | _ => false

/-- R356: the image signers that a life-cycle state admits. -/
def Life.admits (l : Life) (signer : Nat) : Bool :=
  decide (signer = 0) || (decide (signer = 1) && (decide (l = .provisioned) || decide (l = .deployed)))

/-- R341: how many sections of a type an image may have. -/
def typeCountOk (ty n : Nat) : Bool :=
  if ty = 1 ∨ ty = 7 then decide (n = 1) else if ty = 3 ∨ ty = 4 ∨ ty = 5 ∨ ty = 6 ∨ ty = 8 then decide (n ≤ 1) else true

/-- R341: whether a type exists. -/
def typeOk (ty : Nat) : Bool := (decide (1 ≤ ty) && decide (ty ≤ 8)) || decide (0x80 ≤ ty)

/-- R341: sections in ascending offset without overlap from `from` on; where the last one ends. -/
def sectionsEnd : Nat → List (Nat × Nat × Nat × List Nat) → Option Nat
  | e, [] => some e
  | e, q :: l => if e ≤ q.2.1 then sectionsEnd (q.2.1 + q.2.2.1) l else none

/-- Condition 6: the section table, the numbers of sections and of bytes within their ranges, and the unused entries 0. -/
def tableOk (h : List Nat) : Bool :=
  let i := imageOf h
  let n := i.sections.length
  decide (2 ≤ n) && decide (n ≤ 64) && decide (8192 ≤ i.bytes) && decide (i.bytes ≤ 0x02000000)
    && (List.range n).all (fun k => decide (imgW (secEntry h k) 0 % 2 ^ 24 = 0) && decide (imgW (secEntry h k) 12 = 0))
    && zeroAt h (0x100 + 48 * n) (48 * (64 - n))
    && i.sections.all (fun q => typeOk q.1 && decide (q.2.1 % 16 = 0) && decide (4096 ≤ q.2.1))
    && decide (sectionsEnd 4096 i.sections = some i.bytes)
    && (List.range 256).all (fun ty => typeCountOk ty (i.sections.filter (fun q => decide (q.1 = ty))).length)

/-- Conditions 1 to 5: what a header read (none: the source does not answer) gives, 0 where all hold. -/
def State.headerTest (s : State) : Option (List Nat) → Nat
  | none => 0x01
  | some h =>
    if !s.headerForm h then 0x02
    else if !s.headerSigned h then 0x03
    else if !s.sec.life.admits (imgW h 0x1C % 256) then 0x04
    else if imgW h 0x10 % 256 < s.sec.floor then 0x05
    else 0

/-- Conditions 1 to 6. -/
def State.headerError (s : State) (r : Option (List Nat)) : Nat :=
  let e := s.headerTest r
  if e ≠ 0 then e else if r.all tableOk then 0 else 0x08

/-! ### Pin functions (R347, R477) -/

/-- A pin function section's entries: row, column, function. -/
def pinEntries (sec : List Nat) : List (Nat × Nat × Nat) :=
  (List.range (sec.length / 4)).map (fun i =>
    let w := imgW sec (4 * i)
    (w / 2 ^ 24, bits w 23 16, w % 65536))

/-- The general-function ball at a place of column 2: GPF0…GPF15 are 0…15, DECSYNC 16, the twin balls OWN_N, ALIVE, PEER_OWN_N and
PEER_ALIVE 17…20 (R475: PAIR_ID, RESET_N, STBY_N and TAMPER_N precede DECSYNC in rows D to G). -/
def ballOf (row col : Nat) : Option Nat :=
  if col ≠ 2 then none
  else if row = 8 then some 16
  else if 9 ≤ row ∧ row ≤ 28 then some (if row < 25 then row - 9 else row - 8)
  else none

/-- Condition 9: an entry names a ball of the package and a function it can take: another than its reset function only on a general-function
ball, and on a twin ball only with TWIN_EN at 0. -/
def State.pinOk (s : State) (q : Nat × Nat × Nat) : Bool :=
  decide (1 ≤ q.1) && decide (q.1 ≤ 39) && decide (1 ≤ q.2.1) && decide (q.2.1 ≤ 39) &&
    (decide (q.2.2 = 0) || (decide (q.2.2 ≤ 2) &&
      match ballOf q.1 q.2.1 with
      | none => false
      | some b => decide (b < 17) || !s.power.straps.twinEn))

/-- The functions that a section leaves on the general-function balls; the last entry of a ball stands. -/
def pinMap (sec : List Nat) : Mem :=
  (pinEntries sec).foldl (fun m q =>
    match ballOf q.1 q.2.1 with
    | some b => Cells.put 0 m b q.2.2
    | none => m) []

/-! ### Sections (R342, conditions 7 to 9) -/

/-- The first section of a type. -/
def sectionOf (i : Image) (secs : List (List Nat)) (ty : Nat) : Option (List Nat) :=
  ((i.sections.zip secs).find? (fun q => decide (q.1.1 = ty))).map (·.2)

/-- Whether every section has its length and its digest. -/
def digestsOk (i : Image) (secs : List (List Nat)) : Bool :=
  decide (secs.length = i.sections.length) &&
    (i.sections.zip secs).all (fun q => decide (q.2.length = q.1.2.2.1) && decide (Crypto.sha256 q.2 = q.1.2.2.2))

/-- Condition 8: the firmware section ends with Sormaja's signature over the rest of it. -/
def firmwareOk (sec : List Nat) : Bool :=
  let n := sec.length - 64
  decide (64 ≤ sec.length) && Crypto.ecdsa (toBE 64 Config.romRoot) (sec.take n) (sec.drop n)

/-- Conditions 7 to 9 of an image whose header holds, 0 where all hold. -/
def State.sectionsError (s : State) (i : Image) (secs : List (List Nat)) : Nat :=
  if !digestsOk i secs then 0x06
  else if !(sectionOf i secs 1).any firmwareOk then 0x07
  else if !(pinEntries ((sectionOf i secs 3).getD [])).all s.pinOk then 0x09
  else 0

/-- The sections of a whole image. -/
def cutSections (i : Image) (bytes : List Nat) : List (List Nat) := i.sections.map (fun q => (bytes.drop q.2.1).take q.2.2.1)

/-- What a read of a slot's sections gives, by the same rule as `slotRead`. -/
def State.slotSections (s : State) (b : Bool) (i : Image) (secs : List (List Nat)) : List (List Nat) :=
  let f := s.fw.slot (b2n b)
  if f.known then cutSections i (f.bytes i.bytes) else secs

/-- R342 for an image that is there as a whole, 0 where it is accepted. -/
def State.imageError (s : State) (bytes : List Nat) : Nat :=
  let e := s.headerError (some bytes)
  if e ≠ 0 then e else s.sectionsError (imageOf bytes) (cutSections (imageOf bytes) bytes)

/-- R345: R342 as the bytes arrive: the header's conditions once it is there, each section's digest once the section is. -/
def State.arrivalError (s : State) (bytes : List Nat) : Nat :=
  if bytes.length < 4096 then 0
  else
    let e := s.headerError (some bytes)
    if e ≠ 0 then e
    else if (imageOf bytes).sections.all (fun q =>
        decide (bytes.length < q.2.1 + q.2.2.1) || decide (Crypto.sha256 ((bytes.drop q.2.1).take q.2.2.1) = q.2.2.2)) then 0
    else 0x06

/-! ### The module library (R194, R342) -/

/-- Bytes of the module image at the head of a list: the end of its last section, then its signature of 64 bytes. -/
def moduleLen (b : List Nat) : Nat := ((List.range 4).map (fun k => (imgSection b k).1 + (imgSection b k).2)).foldl max 256 + 64

/-- The module images of a library section, end to end. -/
def moduleImages : Nat → List Nat → List (List Nat)
  | 0, _ => []
  | n + 1, b => if b.length < 320 then [] else b.take (moduleLen b) :: moduleImages n (b.drop (moduleLen b))

/-- R342, R204: the library of an image of a signer joins the loaded modules, each counting as signed by that signer. A module that R194 or
R204 refuses is left out (log entry 61). -/
def State.loadLibrary (s : State) (i : Image) (secs : List (List Nat)) : State :=
  let lib := (i.sections.zip secs).flatMap (fun q => if q.1.1 = 2 then moduleImages (q.2.length / 320) q.2 else [])
  (lib.filter (fun m => imgRangeOk m && imgDigestOk m && s.signerOk (if i.signer = 0 then 1 else 2) (imgW m 8))).foldl State.addModule s

end Sys2Proof.Machine
end

