-- ==== Sys2Proof/Machine/Firmware.lean ====
section
/-! DEFINITION. Sys2Proof/Machine/Firmware.lean: live firmware update (R365, R366) and the end of a firmware restart (R413). -/
namespace Sys2Proof.Machine

open Fmt

/-- A flash slot replaced. -/
def State.setSlot (s : State) (n : Nat) (f : FlashSlot) : State :=
  { s with fw := if n = 0 then { s.fw with slotA := f } else { s.fw with slotB := f } }

/-- Bytes of a flash slot (R343). -/
def slotBytes : Nat := 0x02000000

/-- The bytes of the image that a slot holds, as its header's image_bytes says. -/
def FlashSlot.image (f : FlashSlot) : List Nat := f.data.readAll 0 (ofBE (f.data.readAll 0x14 4))

/-- R365: whether a write from `old` bytes on makes the bytes written reach image_bytes. -/
def FlashSlot.complete (f : FlashSlot) (old : Nat) : Bool :=
  let n := ofBE (f.data.readAll 0x14 4)
  decide (0x18 ≤ f.size) && decide (n ≤ f.size) && (decide (old < n) || decide (old < 0x18))

/-- FW_WRITE: bytes into the slot that is not in use; the first write erases it; when the image is complete it is tested, with EV_FW_STAGED
(R365). -/
def execFwWrite (r : Req) (slot offset : Nat) (bytes : List Nat) (s : State) : Host.Outcome State Fault Refusal :=
  .next (s.serve r 0x0605 0 (fun _ s =>
    let f0 := s.fw.slot slot
    let f := if f0.erased then f0 else { FlashSlot.reset with erased := true, known := true }
    if 2 ≤ slot then (s, Ans.fail Err.range)
    else if s.fw.inUse = some slot then (s, Ans.fail Err.state)
    else if offset ≠ f.size ∨ slotBytes < offset + bytes.length then (s, Ans.fail Err.range)
    else
      let g := { f with data := f.data.writeAll offset bytes, size := offset + bytes.length, staged := none }
      let s1 := s.setSlot slot g
      if g.complete offset then
        let e := s.imageError g.image
        ((s1.setSlot slot { g with staged := some e }).raise .fwStaged 0 slot e, Ans.good [])
      else (s1, Ans.good [])))

/-- FW_SWITCH: slot in [7:0], defer in [8]: with a staged result of 0 and the maintenance token, the boot preference is written and, without
defer, the control firmware restarts from the slot (R366, R419). -/
def execFwSwitch (r : Req) (slot : Nat) (noWait : Bool) (s : State) : Host.Outcome State Fault Refusal :=
  .next (s.serve r 0x0606 0 (fun x s =>
    let n := slot % 256
    if 2 ≤ n then (s, Ans.fail Err.state)
    else if (s.fw.slot n).staged ≠ some 0 then (s, Ans.fail Err.state)
    else
      let (s1, e) := s.maintAsk { code := 5, target := n, sid := x.sid, defer := bit slot 8 } noWait
      if e ≠ Err.ok then (s1, Ans.fail e)
      else (if s1.maintOn 5 ∧ s.fault.holder.isNone then s1.maintBegin else s1, Ans.good [])))

/-- CC_RESTART_DONE: the firmware resumes serving, from the new slot after a slot switch; what was held meanwhile is served (R320, R366,
R413). The header fields of the new image, and FW_VERSION with them, wait for the next boot. -/
def execCcRestartDone (s : State) : Host.Outcome State Fault Refusal :=
  if !s.fault.stalled then .next s
  else
    let s1 := s.setFault (fun f => { f with stalled := false })
    match s.fw.pending with
    | none => .next s1.release
    | some n =>
      let b := (s.fw.slot n).image
      let i := imageOf b
      let s2 : State := { s1 with fw := { s1.fw with inUse := some n, pending := none } }
      let s3 := s2.loadLibrary i (cutSections i b)
      .next ((if s3.maintOn 5 then s3.maintEnd else s3).release)

end Sys2Proof.Machine
end

