-- ==== Sys2Proof/Machine/Grant.lean ====
section
/-! DEFINITION. Sys2Proof/Machine/Grant.lean: what a target does with a transaction that it grants: pool, DRAM, staging port, bridges, default
target (R369–R384). -/
namespace Sys2Proof.Machine

open Fmt

/-- The answer a transaction leaves, its data in the master's width. -/
def State.answer (s : State) (t : Txn) (err poisoned : Bool) (data : List Nat) : State :=
  s.setFab (fun g => { g with resp := some { master := t.master, err := err, poisoned := poisoned, data := t.native data } })

/-- R374: the default target's answer: an error on each beat, with zero data. -/
def State.decodeErr (s : State) (t : Txn) : State :=
  let s1 := s.setFab (fun g => { g with decode := Cells.upd 0 g.decode t.master (satInc · 1) })
  (s1.raiseD .decodeError 0 t.master [t.master, t.addr]).answer t true false (if t.write then [] else t.packed.beats.map (fun _ => 0))

/-- R310, R311: a write of the PCIe or SPI side into a window of the other's channels has no effect. -/
def Txn.otherWindow (t : Txn) : Bool := decide (t.master = 22) && !reaches (decide (t.unit = 1)) ((t.line - 0xE00000) / 0x20000)

/-- The pool transfer of a granted transaction (R377–R380); PB28 and PB29 are the mailbox windows. A write makes the parity of its lines good,
and of their partners; a read is judged line by line. -/
def State.poolTransfer (s : State) (bank : Nat) (t : Txn) : State :=
  let n := t.packed.beats.length
  let lines := (List.range n).map (fun i => t.line / 32 + i)
  match s.memAt bank with
  | none => s
  | some (base, mem) =>
    if t.write then
      if t.otherWindow then s.answer t false false []
      else
        let s1 := s.setMemAt bank (writeBurst mem (t.line - base) t.packed.beats t.packed.enables)
        let s2 := lines.foldl (fun s l => if mirrored bank t.issued then (partnerLine l).elim (s.goodLine l) (s.goodLine l).goodLine
          else s.goodLine l) s1
        s2.answer t false false []
    else
      let fail := fun (s : State) => if t.parity = 0 then s else s.failLine (t.line / 32)
      let both := fun (s : State) => if t.parity < 2 then s else (partnerLine (t.line / 32)).elim s s.failLine
      let r := lines.foldl (fun (a : State × Bool) l => let q := a.1.readLine (mirrored bank t.issued) l; (q.1, a.2 || q.2)) (both (fail s), false)
      r.1.answer t false r.2 (readBurst mem (t.line - base) n)

/-- The DRAM transfer of a granted transaction (R383, R384): what its parity operand shows: 1 a single-bit error, 2 a double-bit
error, 3…5 that many link failures less 2, 6 four link failures. -/
def State.dramTransfer (s : State) (t : Txn) : State :=
  let a := t.line - 0x100000000
  let retries := if 3 ≤ t.parity ∧ t.parity ≤ 5 then t.parity - 2 else if t.parity = 6 then 3 else 0
  let s0 := s.setFab (fun g => { g with dramRetry := satInc g.dramRetry retries })
  let s1 := if t.parity = 6 then s0.dramBad (4 * t.packed.beats.length) else s0
  if t.write then
    (s1.setFab (fun g => { g with dram := writeBurst g.dram a t.packed.beats t.packed.enables })).answer t false false []
  else
    let d := readBurst s.fab.dram a t.packed.beats.length
    if t.parity = 1 then (s1.dramFixed).answer t false false d
    else if t.parity = 2 then (s1.dramBad 1).answer t false true d
    else s1.answer t false (decide (t.parity = 6)) d

/-- R375: a bridge's single 32-bit accesses of a transaction: address, word and byte enables of each; those with no byte enabled do not
happen. -/
def Txn.accesses (t : Txn) : List (Nat × Nat × Nat) :=
  let l := t.packed.beats.zipIdx.flatMap (fun b => (List.range 8).map (fun k =>
    (t.line + 32 * b.2 + 4 * k, b.1 / 2 ^ (32 * k) % 2 ^ 32, if t.write then t.packed.enables.getD b.2 0 / 2 ^ (4 * k) % 16 else 15)))
  l.filter (fun q => decide (q.2.2 ≠ 0))

/-- One 32-bit access behind a bridge, and the word read: the direct registers on BAR0, whole words only (R16), and free data elsewhere, since
the spec lays nothing else out there (log entry 35). -/
def State.access (s : State) (spi write : Bool) (q : Nat × Nat × Nat) : State × Nat :=
  if q.1 < 0x20010000 then
    let off := q.1 - 0x20000000
    if !s.regsOn then (s, 0)
    else if write then (if q.2.2 = 15 then s.regWrite spi off q.2.1 else s, 0)
    else let (v, s1) := s.regRead spi off; (s1, v)
  else if write then (s, 0)
  else let (i, s1) := s.draw; (s1, Config.freeBits 32 i % 2 ^ 32)

/-- The words of a bridge's read as beats of 32 bytes. -/
def wordsToBeats : Nat → List Nat → List Nat
  | 0, _ => []
  | n + 1, l => ((l.take 8).zipIdx.foldl (fun w q => w + q.1 * 2 ^ (32 * q.2)) 0) :: wordsToBeats n (l.drop 8)

/-- The transfer behind a bridge (R375), access by access. -/
def State.bridgeTransfer (s : State) (t : Txn) : State :=
  let spi := decide (t.master = 22) && decide (t.unit = 1)
  let r := t.accesses.foldl (fun (a : State × List Nat) q => let x := a.1.access spi t.write q; (x.1, a.2 ++ [x.2])) (s, [])
  r.1.answer t false false (if t.write then [] else wordsToBeats t.packed.beats.length r.2)

/-- The transfer of a granted transaction at a target. -/
def State.transfer (s : State) (target : Nat) (t : Txn) : State :=
  if target < 32 then s.poolTransfer target t
  else if target = 32 then
    if t.write then
      (s.setFab (fun g => { g with staging := writeBurst g.staging (t.line - 0x10000000) t.packed.beats t.packed.enables })).answer t false false []
    else s.answer t false false (readBurst s.fab.staging (t.line - 0x10000000) t.packed.beats.length)
  else if target = 35 then s.dramTransfer t
  else if target = 36 then s.decodeErr t
  else s.bridgeTransfer t

/-- R382: waiting masters count the cycles in which another master holds a pool bank. -/
def State.conflicts (s : State) (target holder beats : Nat) (l : List Txn) : State :=
  if 32 ≤ target then s
  else l.foldl (fun s t => if t.master = holder then s else
    s.setFab (fun g => { g with conflict := Cells.upd 0 g.conflict t.master (satInc · beats) })) s

/-- R382: the cycles that arrivals will have waited for the burst of another master that holds their bank. -/
def State.waited (s : State) (target : Nat) (l : List Txn) : State :=
  match Cells.get none s.fab.bursts target with
  | none => s
  | some b =>
    if 32 ≤ target then s
    else l.foldl (fun s t =>
      if s.decodeTxn t ≠ target ∨ t.master = b.txn.master then s
      else s.setFab (fun g => { g with conflict := Cells.upd 0 g.conflict t.master (satInc · (b.done - t.arrived)) })) s

/-- A granted transaction performed, and its burst in progress until its last beat (R371–R384). -/
def State.perform (s : State) (target cycle : Nat) (t : Txn) : State :=
  let old := if t.write then ((s.memAt target).map (fun q => readBurst q.2 (t.line - q.1) t.packed.beats.length)).getD [] else []
  (s.transfer target t).setFab (fun g => { g.lockAfter target cycle t with
    bursts := Cells.put none g.bursts target (some { txn := t, start := cycle, old := old }) })

/-- FABRIC_GRANT: transactions arrive in the queues of their ports, and a target that no burst holds grants one of those that wait for it
(R371–R374, R377–R384, R391). -/
def execFabricGrant (target cycle : Nat) (arrivals : List Txn) (s : State) : Host.Outcome State Fault Refusal :=
  if !bit s.power.domains 11 then .next s
  else
    let s0 := ((s.waited target arrivals).arrive arrivals).setFab (fun g => { g with now := max g.now cycle })
    let q := Cells.get [] s0.fab.waiting target
    let lock := s0.fab.lock target
    let ready := q.filter (fun t => decide (t.arrived ≤ cycle) && (lock.isNone || decide (t.master = 18)))
    match (if s0.fab.busy target cycle then none else pick cycle ready) with
    | none => .next s0
    | some t =>
      let s1 := s0.setFab (fun g => { g with
        waiting := Cells.put [] g.waiting target (dropTxn t q), last := Cells.put 0 g.last target (t.master + 1) })
      let s2 := s1.refill cycle (Cells.get [] s1.fab.held t.queue)
      let n := t.packed.beats.length
      if lock.any (fun l => t.locked && !l.admits cycle n) then
        .next (((s2.setFab (fun g => { g.setLock target none with lockForced := satInc g.lockForced 1 })).raise
          .lockForced 0 t.master (portOf target)).answer t true false [])
      else .next ((s2.conflicts target t.master n (dropTxn t q)).perform target cycle t)

end Sys2Proof.Machine
end

