-- ==== Sys2Proof/Machine/Frame.lean ====
section
/-! DEFINITION. Sys2Proof/Machine/Frame.lean: the stages of the block audio path at one frame tick (R24–R28, R95). The tick at
MCC kB + 2 gives the strips the block from stamp (k − 1)B, the Mere that from (k − 2)B, the busses that from (k − 3)B and the output
stages that from (k − 4)B, while the block from (k − 5)B leaves. -/
namespace Sys2Proof.Machine

open Fmt

/-- A matrix destination that feeds a slot input gives it its sum as E48 (R60, R77). -/
def State.sendDests (s : State) : State :=
  s.setAudio (fun a => { a with slotIn := a.sums.foldl (fun m q =>
    if q.1 / 65536 = 2 then Cells.put [] m (q.1 % 65536) (q.2.map satE48) else m) a.slotIn })

/-- What no later tick reads any more is dropped: changes every stage has passed, received samples the Mere has passed (and 128 more of
those before a 2:1 converter), and
delivered samples 4096 samples old. -/
def State.prune (s : State) (k : Nat) : State :=
  let B := s.B
  (s.setAudio (fun a => { a with
    changes := a.changes.filter (fun c => decide ((k - 4) * B ≤ c.c + 8))
    rx := a.rx.filter (fun c => decide ((k - 1) * B ≤ c.1 % 2 ^ 64 + if 2 ^ 96 ≤ c.1 then 128 else 0))
    port := a.port.filter (fun c => decide (s.mcc ≤ c.1 % 2 ^ 64 + 4096)) })).setLeg (fun g => { g with
      changes := g.changes.filter (fun c => decide ((k - 4) * B ≤ c.1 + 8)) })

/-- A stage runs once the block it takes exists. -/
def atTick (k d : Nat) (f : State → State) (s : State) : State := if d ≤ k then f s else s

/-- The stages of the tick with number k, in an order in which each reads what the others left at the tick before; a return enters the
Mere from the block one before its own (R95, R98; log entry 37). -/
def State.pathTick (s0 : State) (fill : Nat → State → State) (k : Nat) : State :=
  let B := s0.B
  let b := fun d => (k - d) * B
  let s1 := s0.collectAll.setAudio (fun a => { a with slotIn := [] })
  let s2 := atTick k 5 (fun s => (s.outputTick (b 5) s.mcc).interpTick (b 4)) s1
  let s3 := atTick k 3 (fun s => (s.bussesTick (b 3)).legBussesTick (b 3)) s2
  let s4 := atTick k 5 (fun s => s.legOutsTick (b 5) s.mcc) s3
  let s5 := atTick k 2 (fun s => (s.mereTick (b 2)).sendDests) s4
  let s6 := atTick k 1 (fun s => (((fill (b 1) s).inputPatch (b 1)).stripsTick (b 1)).legChansTick (b 1)) s5
  let s7 := atTick k 2 (fun s => s.launchAll (b 2)) s6
  s7.prune k

end Sys2Proof.Machine
end

