-- ==== Sys2Proof/Machine/Steps.lean ====
section
/-! DEFINITION. Sys2Proof/Machine/Steps.lean: the transitions of one parameter or one node group, named by their own events (R42, R44–R47,
R89–R92, R130). A frame tick takes the same steps itself on the samples it works through; an event here asserts the sample on which a step
falls. -/
namespace Sys2Proof.Machine

open Fmt

/-! ### Stages by handle -/

/-- A processing stage that moves from one committed value to the next: by a zero crossing (R44), by a crossfade (R40, R46), by two
coefficient banks (R45). -/
inductive Stage where
  | zc (z : Zc)
  | xf (x : Xf)
  | cf (f : Cf)
  deriving DecidableEq, Repr

/-- The stage of a field of a strip or a bus. -/
def ChainRt.stage (r : ChainRt) (f : Nat) : Option Stage :=
  if eqFields.contains f then some (.cf r.eq)
  else match f with
  | 0x00 => some (.zc r.trim)
  | 0x01 => some (.zc r.pol)
  | 0x02 => some (.xf r.delay)
  | 0x04 => some (.xf r.delay)
  | 0x08 => some (.cf r.hpf)
  | 0x09 => some (.cf r.hpf)
  | 0x0A => some (.cf r.hpf)
  | 0x0C => some (.cf r.lpf)
  | 0x0D => some (.cf r.lpf)
  | 0x0E => some (.cf r.lpf)
  | 0x10 => some (.cf r.gate)
  | 0x60 => some (.cf r.comp)
  | 0x66 => some (.zc r.makeup)
  | 0x67 => some (.xf r.look)
  | 0x6C => some (.cf r.lim)
  | 0x70 => some (.xf r.ins)
  | 0x71 => some (.cf r.insEn)
  | 0x72 => some (.xf r.ins)
  | 0x78 => some (.zc r.fader)
  | 0x79 => some (.zc r.mute)
  | _ => none

/-- A strip or a bus with a stage of it replaced. -/
def ChainRt.setStage (r : ChainRt) (f : Nat) (st : Stage) : ChainRt :=
  match st with
  | .zc z => match f with
    | 0x00 => { r with trim := z }
    | 0x01 => { r with pol := z }
    | 0x66 => { r with makeup := z }
    | 0x78 => { r with fader := z }
    | 0x79 => { r with mute := z }
    | _ => r
  | .xf x =>
    if f = 2 ∨ f = 4 then { r with delay := x }
    else if f = 0x67 then { r with look := x }
    else if f = 0x70 ∨ f = 0x72 then { r with ins := x } else r
  | .cf c =>
    if eqFields.contains f then { r with eq := c }
    else if 8 ≤ f ∧ f ≤ 0xA then { r with hpf := c }
    else if 0xC ≤ f ∧ f ≤ 0xE then { r with lpf := c }
    else match f with
    | 0x10 => { r with gate := c }
    | 0x60 => { r with comp := c }
    | 0x6C => { r with lim := c }
    | 0x71 => { r with insEn := c }
    | _ => r

/-- The stage of a spring mix by field; an output field names the handover gain of the slot it drives (R150). -/
def State.springStage (s : State) (m f : Nat) : Option Stage :=
  let x := s.spring.mix m
  match f with
  | 0x08 => some (.zc x.gain)
  | 0x09 => some (.zc x.mute)
  | 0x0A => some (.cf x.lim)
  | _ => if f < 4 then (x.slots.find? (fun c => decide (c.1 = s.at 0x10 m f))).map (fun c => .zc c.2) else none

/-- A spring mix with a stage of it replaced. -/
def State.setSpringStage (s : State) (m f : Nat) (st : Stage) : State :=
  let r := s.at 0x10 m f
  s.setSpring (fun g => { g with mixes := Cells.upd SpringMix.reset g.mixes m (fun x =>
    match st with
    | .zc z => if f = 8 then { x with gain := z } else if f = 9 then { x with mute := z }
      else if f < 4 then { x with slots := x.slots.map (fun c => if c.1 = r then (r, z) else c) } else x
    | .cf c => if f = 0xA then { x with lim := c } else x
    | .xf _ => x) })

/-- A legacy register's stage (R467). -/
def State.legStage (s : State) (a : Nat) : Option Stage :=
  match legReg a with
  | .chan c 0 => some (.xf (Cells.get LegRt.reset s.legacy.chans c).inX)
  | .chan c 1 => some (.zc (Cells.get LegRt.reset s.legacy.chans c).gain)
  | .chan c 2 => some (.zc (Cells.get LegRt.reset s.legacy.chans c).fader)
  | .chan c 3 => some (.zc (Cells.get LegRt.reset s.legacy.chans c).pol)
  | .bus b 0 => some (.zc (Cells.get LegRt.reset s.legacy.busses b).fader)
  | .outsel k => some (.xf (Cells.get (Xf.at [0x80]) s.legacy.outX k))
  | _ => none

/-- A legacy register's stage replaced. -/
def State.setLegStage (s : State) (a : Nat) (st : Stage) : State :=
  s.setLeg (fun g => match legReg a, st with
    | .chan c 0, .xf x => { g with chans := Cells.upd LegRt.reset g.chans c (fun r => { r with inX := x }) }
    | .chan c 1, .zc z => { g with chans := Cells.upd LegRt.reset g.chans c (fun r => { r with gain := z }) }
    | .chan c 2, .zc z => { g with chans := Cells.upd LegRt.reset g.chans c (fun r => { r with fader := z }) }
    | .chan c 3, .zc z => { g with chans := Cells.upd LegRt.reset g.chans c (fun r => { r with pol := z }) }
    | .bus b 0, .zc z => { g with busses := Cells.upd LegRt.reset g.busses b (fun r => { r with fader := z }) }
    | .outsel k, .xf x => { g with outX := Cells.put (Xf.at [0x80]) g.outX k x }
    | _, _ => g)

/-- The stage a parameter handle acts on. -/
def State.stage (s : State) (h : Nat) : Option Stage :=
  let n := hInst h
  let f := hField h
  match hCls h with
  | 0x01 => (Cells.get ChainRt.reset s.audio.strips n).stage f
  | 0x02 => (Cells.get ChainRt.reset s.audio.busses n).stage f
  | 0x05 => if f ≤ 2 then some (.xf (Cells.get ChainRt.reset s.audio.strips n).inX) else none
  | 0x06 => if f = 0 then some (.xf (s.outRt n).destX) else if f = 1 then some (.xf (s.outRt n).busX) else none
  | 0x07 => if f = 0 then some (.cf (s.outRt n).lim) else none
  | 0x08 => some (.xf (Cells.get (Xf.at []) s.mere.srcX n))
  | 0x09 => some (.xf (Cells.get (Xf.at []) s.mere.dstX n))
  | 0x10 => s.springStage n f
  | 0x12 => if f = 0 then some (.xf (Cells.get SpringInterp.reset s.spring.interps n).busX) else none
  | 0x24 => match f with
    | 1 => some (.zc (Cells.get DecCh.reset s.conv.dec n).out8.z)
    | 2 => some (.zc (Cells.get DecCh.reset s.conv.dec n).outE.z)
    | 3 => some (.cf (Cells.get DecCh.reset s.conv.dec n).dcX)
    | _ => none
  | 0x60 => if f = 0x10 then some (.xf (Cells.get (Xf.at [0xFF]) s.legacy.retX n))
    else if f = 0x80 then s.legStage n else none
  | _ => none

/-- A map crossfade that is over leaves nothing behind (R79). -/
def restMap (x : Xf) : Xf := if x.run.isNone then Xf.at [] else x

/-- A decimator's stage replaced. -/
def DecCh.setStage (x : DecCh) (f : Nat) (st : Stage) : DecCh :=
  match st with
  | .zc z => if f = 1 then { x with out8 := { x.out8 with z := z } } else if f = 2 then { x with outE := { x.outE with z := z } } else x
  | .cf c => if f = 3 then { x with dcX := c } else x
  | .xf _ => x

/-- The stage of a handle replaced. -/
def State.setStage (s : State) (h : Nat) (st : Stage) : State :=
  let n := hInst h
  let f := hField h
  match hCls h with
  | 0x01 => s.setAudio (fun a => { a with strips := Cells.upd ChainRt.reset a.strips n (fun r => r.setStage f st) })
  | 0x02 => s.setAudio (fun a => { a with busses := Cells.upd ChainRt.reset a.busses n (fun r => r.setStage f st) })
  | 0x10 => s.setSpringStage n f st
  | 0x24 => s.updDec n (fun x => x.setStage f st)
  | 0x60 => if f = 0x80 then s.setLegStage n st
    else match st with
    | .xf x => s.setLeg (fun g => { g with retX := Cells.put (Xf.at [0xFF]) g.retX n x })
    | _ => s
  | c => match st with
    | .xf x =>
      if c = 5 then s.setAudio (fun a => { a with strips := Cells.upd ChainRt.reset a.strips n (fun r => { r with inX := x }) })
      else if c = 6 then s.updOut n (fun o => if f = 0 then { o with destX := x } else { o with busX := x })
      else if c = 8 then s.setMere (fun m => { m with srcX := Cells.put (Xf.at []) m.srcX n (restMap x) })
      else if c = 9 then s.setMere (fun m => { m with dstX := Cells.put (Xf.at []) m.dstX n (restMap x) })
      else if c = 0x12 then s.setSpring (fun g => { g with interps := Cells.upd SpringInterp.reset g.interps n (fun i => { i with busX := x }) })
      else s
    | .cf x => if c = 7 then s.updOut n (fun o => { o with lim := x }) else s
    | .zc _ => s

/-- Whether a stage counts spring samples (R148). -/
def springStaged (h : Nat) : Bool :=
  decide (hCls h = 0x10) || (decide (hCls h = 0x24) && (decide (hField h = 1) || decide (hField h = 3)))

/-- A sample that the rate of a stage has reached. -/
def State.reached (s : State) (h n : Nat) : Bool := decide (n ≤ if springStaged h then s.spring.n else s.mcc)
/-- T_zc and L_ramp of a stage (R44, R147). -/
def State.zcTimes (s : State) (h n : Nat) : Nat × Nat :=
  if springStaged h then (s.springT, s.springL) else (s.valAt (mkH 0x0A 0 1) n, s.valAt (mkH 0x0A 0 2) n)

/-- A change of a stage on a sample it has reached. -/
def State.moveStage (s : State) (h n : Nat) (f : Stage → Stage) : State :=
  if s.reached h n then
    match s.stage h with
    | some st => s.setStage h (f st)
    | none => s
  else s

/-- ZC_STEP: the entering signal crosses zero on sample n, and the pending stage steps (R44, R49). -/
def execZcStep (h n : Nat) (s : State) : Host.Outcome State Fault Refusal :=
  .next (s.moveStage h n (fun st => match st with
    | .zc z => if z.tp.any (fun p => decide (p ≤ n)) then .zc z.step else st
    | _ => st))

/-- ZC_TIMEOUT: no crossing came on samples tp … tp + T_zc, so the ramp starts (R44). -/
def execZcTimeout (h n : Nat) (s : State) : Host.Outcome State Fault Refusal :=
  .next (s.moveStage h n (fun st => match st with
    | .zc z => if z.tp.any (fun p => decide (p + (s.zcTimes h n).1 ≤ n)) then .zc (z.timeout n (s.zcTimes h n).2) else st
    | _ => st))

/-- ZC_RAMP_END: a ramp that has reached its target by sample n ends (R44). -/
def execZcRampEnd (h n : Nat) (s : State) : Host.Outcome State Fault Refusal :=
  .next (s.moveStage h n (fun st => match st with
    | .zc z => .zc (z.endRamp n)
    | _ => st))

/-- XFADE_END: a crossfade that completed before sample n is over; the new side or bank is in force, and a pending change starts (R45, R47,
R130). A slot's crossfade ends with a block (R198). -/
def execXfadeEnd (h n : Nat) (s : State) : Host.Outcome State Fault Refusal :=
  if hCls h = 0x0B then
    .next (if n ≤ s.mcc ∧ n % s.B = 0 then s.updSlot (hInst h) (fun r => r.turn n) else s)
  else .next (s.moveStage h n (fun st => match st with
    | .xf x => .xf (x.advance n)
    | .cf f => .cf (f.advance n)
    | .zc _ => st))

/-! ### Node groups (R86–R93) -/

/-- What the stepping of the Mere reads for one sample named by an event. -/
def State.eventEnv (s : State) (n : Nat) : StepEnv := s.stepEnv [] [] [] n n

/-- The Mere's stepping changed on sample n, once the Mere has computed the sample. -/
def State.moveNodes (s : State) (n : Nat) (f : StepEnv → StepG → StepG) : State :=
  if n < s.mereStamp then s.setMere (fun m => { m with step := f (s.eventEnv n) m.step }) else s

/-- Whether sample n is one on which a group can step: not before its pending period or the ramp its nodes are queued behind (R89, R90). -/
def Group.canCross (g : Group) (n : Nat) : Bool := g.tp.all (fun p => decide (p ≤ n)) && g.ramp.all (fun r => decide (r.1 ≤ n))

/-- NODE_GROUP_ZERO_CROSSING: every pending or queued node of group g steps on the first sample at or after its commit (R86, R87, R89,
R90). -/
def execNodeGroupZeroCrossing (g n : Nat) (s : State) : Host.Outcome State Fault Refusal :=
  .next (s.moveNodes n (fun e m => if (m.group g).canCross n then m.crossing e g else m))
/-- NODE_GROUP_TIMEOUT: a group that has waited T_zc samples ramps, or queues behind a running ramp (R89, R90). -/
def execNodeGroupTimeout (g n : Nat) (s : State) : Host.Outcome State Fault Refusal :=
  .next (s.moveNodes n (fun e m => m.timeout e n [] g))
/-- NODE_RAMP_END: a group's ramp ends, and queued nodes start theirs (R89, R90). -/
def execNodeRampEnd (g n : Nat) (s : State) : Host.Outcome State Fault Refusal :=
  .next (s.moveNodes n (fun e m => (m.endRamp e n g).startQueued e n g))
/-- TAP_HANDOVER_SWITCH: a node that applies 0 takes its committed tap (R92). -/
def execTapHandoverSwitch (d src n : Nat) (s : State) : Host.Outcome State Fault Refusal :=
  .next (s.moveNodes n (fun e m => (m.tapSwitch e n (d * 4096 + src)).1))

/-! ### Coefficient banks (R130, R191) -/

/-- The fields whose values make up a coefficient stage, and the design of its bank. -/
def bankOf (fs f : Nat) : Option (List Nat × (List Nat → List Coef)) :=
  if eqFields.contains f then some (eqFields, eqBank fs)
  else if 8 ≤ f ∧ f ≤ 0xA then some ([8, 9, 0xA], hpfBank fs)
  else if 0xC ≤ f ∧ f ≤ 0xE then some ([0xC, 0xD, 0xE], lpfBank fs)
  else none

/-- The words of the earliest scheduled set, more than B samples before its commit, that writes one of these handles. -/
def State.comingWords (s : State) (hs : List Nat) : Option (List (Nat × Nat)) :=
  let sets := s.scene.sets.filter (fun x => decide (x.st = .scheduled) && x.commit.any (fun c => decide (s.mcc + s.B < c))
    && hs.any (fun h => (s.bodyOf x.added).writes h))
  let best := sets.foldl (fun (a : Option StageSet) x => match a with
    | none => some x
    | some y => if x.commit.getD 0 < y.commit.getD 0 then some x else some y) none
  best.map (fun x => (s.bodyOf x.added).words)

/-- CF_BANK_WRITE: the SCE writes the coefficients that a running crossfade moves to, or those of the next scheduled set, into the idle bank
of the stage of a handle (R130); of an effect slot, the words of its CF descriptors (R191). -/
def execCfBankWrite (h : Nat) (s : State) : Host.Outcome State Fault Refusal :=
  let n := hInst h
  if hCls h = 0x0B then
    .next (match s.slotImage n with
      | none => s
      | some img =>
        let cf := imgCf img
        let rt := s.slotRt n
        match rt.xf.run, s.comingWords (cf.map (fun d => mkH 0x0B n d.field)) with
        | none, some w =>
          let l := s.lay n img
          let e := s.phys rt.engine
          s.setEng e (cf.foldl (fun (x : Engine) d =>
            let v := ((w.find? (fun q => decide (q.1 = mkH 0x0B n d.field))).map (·.2)).getD (s.at 0x0B n d.field)
            x.putRun (imgFlag img 3) ((if rt.bank = 0 then l.bank1 else l.bank0) + d.off) [modWord d v]) (s.eng e))
        | _, _ => s)
  else
    .next (match s.stage h, bankOf s.fs (hField h) with
      | some (.cf f), some (fields, design) =>
        if hCls h ≠ 1 ∧ hCls h ≠ 2 then s
        else match f.xf.run with
        | some r => s.setStage h (.cf { f with idle := some (r.new, design r.new) })
        | none =>
          match s.comingWords (fields.map (mkH (hCls h) n)) with
          | none => s
          | some w =>
            let vals := fields.map (fun d =>
              ((w.find? (fun q => decide (q.1 = mkH (hCls h) n d))).map (·.2)).getD (s.at (hCls h) n d))
            s.setStage h (.cf { f with idle := some (vals, design vals) })
      | _, _ => s)

/-! ### Failover (R42), reconfiguration (R3) -/

/-- PATCH_REVERT: at a frame tick an entry with failover 2 returns from side B to side A, which has been out of loss for 2 s (R42); a commit
that moves the selection on this stamp goes first (R43). -/
def execPatchRevert (n : Nat) (s : State) : Host.Outcome State Fault Refusal :=
  let b := s.mcc - s.B - 2
  let since := (Cells.get { both := false, since := none } s.audio.failover n).since
  let a := s.valAt (mkH 0x05 n 0) b
  if s.live ∧ n < s.cap.strips ∧ s.mcc % s.B = 2 ∧ s.B + 2 ≤ s.mcc ∧ s.audio.taken ≤ b ∧ s.valAt (mkH 0x05 n 3) b = 2
      ∧ s.valAt (mkH 0x05 n 2) b = 1 ∧ a ≠ 0 ∧ !s.refLoss a ∧ since.any (fun t => decide (t + 2 * s.fs ≤ s.mcc)) then
    .next (if s.selectMoves n b then s else (s.autoSelect n b 0).raiseD .patchFailover (s.stripOwner n) n (3 :: two b))
  else .next s

/-- Every output unmutes at its first zero crossing (R3, R353). -/
def State.unmuteAll (s : State) : State := (s.unmuteOutputs.unmuteSprings).unmuteLegacy

/-- PROFILE_RECONFIG_DONE: commits are accepted again, and in RUN the outputs unmute (R3, R128). -/
def execProfileReconfigDone (s : State) : Host.Outcome State Fault Refusal :=
  if s.scene.changing then
    let s1 := s.setScene (fun g => { g with changing := false })
    .next (if s.dev = .run then s1.unmuteAll else s1)
  else .next s

end Sys2Proof.Machine
end

