-- ==== Sys2Proof/Machine/Boot.lean ====
section
/-! DEFINITION. Sys2Proof/Machine/Boot.lean: rails, reset, the boot loader, QUIET, RUN and STANDBY (R17, R303, R337–R355, R428, R476,
R481–R484). -/
namespace Sys2Proof.Machine

open Fmt

/-- A change of the boot group. -/
def State.setBoot (s : State) (f : BootG → BootG) : State := { s with boot := f s.boot }
/-- A change of the power group. -/
def State.setPower (s : State) (f : PowerG → PowerG) : State := { s with power := f s.power }

/-! ### Reset -/

/-- A flash slot after a reset: what was written stands; the next FW_WRITE erases it (R365, R367). -/
def FlashSlot.afterReset (f : FlashSlot) : FlashSlot := { f with erased := false, staged := none }

/-- cku.lo_cal as MSTORE holds it (R303). -/
def State.loCalStored (s : State) : Int := toS 32 (ofBE (s.scene.mstore.readAll loCalAddr 4))

/-- The clock unit after the internal reset of a wake: selection, lock, reference states and average untouched; outputs off (R301,
R303). -/
def CkuG.wake (c : CkuG) : CkuG := { c with outs := [], cal := none }

/-- A reset: everything returns to its reset value but what PD_AON, the fuses, MSTORE and the flash hold. A wake from STANDBY also keeps the
clock unit with its settings (R17, R303, R318, R355). -/
def State.resetAll (s : State) (wake : Bool) : State :=
  { State.reset with
    mcc := s.mcc
    params := if wake then s.params.filter (fun c => decide (hCls c.1 = 0x40) || decide (hCls c.1 = 0x41)) else []
    power := { PowerG.reset with
      standbySet := s.power.standbySet, mainRails := s.power.mainRails, resetN := s.power.resetN, stbyLow := s.power.stbyLow
      straps := s.power.straps }
    boot := { BootG.reset with pref := s.boot.pref }
    sec := { s.sec with wiped := false }
    fw := { FwG.reset with slotA := s.fw.slotA.afterReset, slotB := s.fw.slotB.afterReset }
    cku := if wake then s.cku.wake else { CkuG.reset with loCal := s.loCalStored }
    scene := { SceG.reset with mstore := s.scene.mstore }
    twin := { TwinG.reset with peerAlive := s.twin.peerAlive, peerOwn := s.twin.peerOwn }
    free := s.free
    draws := s.draws
    pending := s.pending }

/-- The secure bank's contents lost (R361, R481). -/
def SecG.cleared (g : SecG) : SecG := { g with creds := [], modKeys := [], bankCtr := 0 }

/-- R338, R339: strap values with which no image is read. -/
def Straps.reserved (x : Straps) : Bool := decide (x.mode = 3) || (decide (x.boot = 3) && !x.twinEn)

/-- R338: what feeds the boot loader; for flash, the preferred slot first (R343). -/
def State.feedOf (s : State) : Feed :=
  match s.power.straps.boot with
  | 2 => .pcie
  | 3 => .twin
  | _ => .slot (decide (s.boot.pref = some 1))

/-- Order 1: the boot begins: the straps are latched and the MCC counts (R17, R348); with a reserved strap value, error 0x0C (R339). The
device shows BOOT from here on (log entry 200). -/
def State.startBoot (s : State) : State :=
  let s1 := { s with dev := .boot, power := { s.power with holdMcc := false, upS := 0, upN := 0, domains := 0 } }
  s1.setBoot (fun b => { b with stage := 0x01, error := if s.power.straps.reserved then 0x0C else b.error })

/-- Order 2: PD_CTL and PD_FAB are on and Wellhead runs from ROM (R338, R339, R343, R348). A chip that its twin feeds has PD_TWIN on too,
over which the image and the heartbeats come (R346, R429; log entry 200). -/
def State.orderTwo (s : State) : State :=
  let f := s.feedOf
  let bad := s.power.straps.reserved
  let twin := decide (f = .twin) && !bad
  (s.setPower (fun p => { p with domains := 2 ^ 8 + 2 ^ 11 + (if twin then 2 ^ 6 else 0) })).setBoot (fun b =>
    if bad then { b with stage := 0x02 }
    else { b with
      feed := f
      stage := if f = .pcie then 0x0F else if f = .twin then 0x10 else 0x02
      waitPcie := decide (f = .pcie)
      chosen := b.pref.isSome
      slotUsed := decide (f = .slot true) })

/-- POWER_ON_STANDBY_SET: the standby set comes into range; the device is in RESET with the MCC at 0 (R17, R481, R482). -/
def execPowerOnStandbySet (s : State) : Host.Outcome State Fault Refusal :=
  if s.dev ≠ .off then .next s
  else
    let s1 := s.resetAll false
    .next { s1 with mcc := 0, power := { s1.power with standbySet := true } }

/-- STANDBY_SET_LOST: the device is OFF; the secure bank and the MCC count are lost, MSTORE keeps its contents (R481). -/
def execStandbySetLost (s : State) : Host.Outcome State Fault Refusal :=
  let s1 := s.resetAll false
  .next { s1 with
    mcc := 0, dev := .off, power := { s1.power with standbySet := false }, sec := { s1.sec.cleared with tripped := [], wiping := false } }

/-- MAIN_RAIL_OUT_OF_RANGE: a rail outside the standby set leaves its range: RESET, with the MCC held (R481). -/
def execMainRailOutOfRange (s : State) : Host.Outcome State Fault Refusal :=
  if s.dev = .off then .next (s.setPower (fun p => { p with mainRails := false }))
  else .next ((s.resetAll false).setPower (fun p => { p with mainRails := false }))

/-- MAIN_RAILS_IN_RANGE: the last rail comes into range; where RESET_N has risen already, the device boots (R483). -/
def execMainRailsInRange (s : State) : Host.Outcome State Fault Refusal :=
  let s1 := s.setPower (fun p => { p with mainRails := true })
  if s.dev = .reset ∧ !s.power.mainRails ∧ s.power.resetN then .next s1.startBoot else .next s1

/-- RESET_N_LOW: RESET, whatever the device did; the MCC holds its count (R17, R303, R318, R476). -/
def execResetNLow (s : State) : Host.Outcome State Fault Refusal :=
  let low := fun (s : State) => s.setPower (fun p => { p with resetN := false })
  if s.dev = .off then .next (low s) else .next (low (s.resetAll false))

/-- RESET_N_RISE: the straps are sampled; with every rail in range, Wellhead starts (R2, R337, R339, R483). -/
def execResetNRise (straps : Straps) (s : State) : Host.Outcome State Fault Refusal :=
  if s.power.resetN then .next s
  else if s.dev ≠ .reset then .next (s.setPower (fun p => { p with resetN := true }))
  else
    let s1 := s.setPower (fun p => { p with resetN := true, straps := straps })
    .next (if s.power.mainRails then s1.startBoot else s1)

/-! ### An accepted image is applied (R348, orders 6 and 7) -/

/-- The parameter entries of a set-up section that a class list admits, of fields that exist, with values in range; others are left out
(log entry 62). -/
def State.setupEntries (s : State) (sec : List Nat) (cls : Nat → Bool) : List Entry :=
  ((List.range (sec.length / 8)).map (fun i => Entry.mk (imgW sec (8 * i)) (imgW sec (8 * i + 4)))).filter (fun e =>
    cls (hCls e.h) && (s.field e.h).any (fun f => !f.ro && (decide (f.kind ≠ .int) || f.inRange e.v)))

/-- Parameter words written. -/
def State.putEntries (s : State) (l : List Entry) : State := l.foldl (fun s e => s.setVal e.h e.v) s

/-- R303: a reference slot under new settings: one that stays enabled with the same frequency, edge and port goes on; any other qualifies
afresh. -/
def State.refreshRef (s : State) (old : State) (k : Nat) : State :=
  let was := old.on 0x40 k 0
  let is := s.on 0x40 k 0
  let same := [2, 3, 4].all (fun f => decide (old.at 0x40 k f = s.at 0x40 k f))
  if was && is && same then s
  else s.updRef k (fun r => { r with st := if is then .lost else .disabled, timer := 0, hist := [] })

/-- Orders 6 and 7: the clock set-up in force; the CKU monitors its references (R303). -/
def State.applyClocks (old : State) (sec : List Nat) : State :=
  let bare : State := { old with params := old.params.filter (fun c => decide (hCls c.1 ≠ 0x40) && decide (hCls c.1 ≠ 0x41)) }
  let s1 := bare.putEntries (old.setupEntries sec (fun c => decide (c = 0x34) || (decide (0x40 ≤ c) && decide (c ≤ 0x42))))
  let s2 := (List.range 8).foldl (fun (s : State) k => s.refreshRef old k) s1
  let s3 := if s2.cku.sel < 8 ∧ !s2.isCand s2.cku.sel then s2.evaluate else s2
  let s4 := s3.ckuMode (old.at 0x41 0 0) (s3.at 0x41 0 0)
  if old.at 0x41 0 5 = s4.at 0x41 0 5 then s4 else s4.ckuTrim

/-- Order 7: the port set-up in force; ports and transmit streams start muted. -/
def State.applyPorts (s : State) (sec : List Nat) : State :=
  let l := s.setupEntries sec (fun c => (decide (0x20 ≤ c) && decide (c ≤ 0x25)) || (decide (0x30 ≤ c) && decide (c ≤ 0x36)))
  let k : Cmt := { old := s, b := l.foldl (fun b e => b.put e.h e.v) Body.empty, c := s.mcc, cf := 64, dx := 256 }
  -- the image's dc.enable is in force from the start
  let dc := l.filter (fun e => decide (hCls e.h = 0x24) && decide (hField e.h = 3))
  let s1 := dc.foldl (fun s e => s.updDec (hInst e.h) (fun x => { x with dcX := Cf.at [e.v] })) (k.toPorts (s.putEntries l))
  (k.toNet s1).srcRefresh

/-- R452: in the legacy modes TE14 and TE15 serve the legacy partition. -/
def State.legacyEngines (s : State) : State :=
  if s.cap.legacy then [14, 15].foldl (fun s e => s.setEng e { s.eng e with st := .legacy }) s else s

/-- R69, R435: the device draws its dither_seed and seeds every generator. -/
def State.drawSeed (s : State) : State :=
  let (i, s1) := s.takeFree
  let seed := Config.freeBits 32 i % 2 ^ 32
  ((s1.setTwin (fun t => { t with seed := seed })).seedDither seed).seedSprings seed

/-- R356: in RETURNED the scene area of MSTORE is erased; calibration and log stay. -/
def State.returnErase (s : State) : State :=
  if s.sec.life = .returned then s.setStore (s.scene.mstore.clear (pageBase 0) (scenePages * 4096)) else s

/-- Order 6: an image accepted under R342 is in force: firmware, pin functions, xin, family, profile and clock set-up (R347, R348). `slot` is
the flash slot it came from. -/
def State.applyImage (s : State) (i : Image) (secs : List (List Nat)) (slot : Option Nat) : State :=
  let sec := fun ty => (sectionOf i secs ty).getD []
  let s1 := (s.setBoot (fun b => { b with
    stage := 0x05, image := some i, sections := secs, header := none, fed := [], waitPcie := false, pins := pinMap (sec 3) })).setPower
      (fun p => { p with domains := 0xFFE + p.domains % 2 })
  let s2 := { s1 with fw := { s1.fw with version := i.fwVersion, inUse := slot } }
  let s3 := ((s2.setCku (fun c => { c with xin := i.xin })).setVal 0x50000000 i.family).setVal 0x50000001 i.profile
  (s3.applyClocks (sec 4)).drawSeed.returnErase

/-- Order 7, first part: the module library is loaded. -/
def State.orderLibrary (s : State) : State :=
  (match s.boot.image with
    | some i => (s.loadLibrary i s.boot.sections).legacyEngines
    | none => s).setBoot (fun b => { b with stage := 0x06 })

/-- Order 7, second part: the port set-up is in force. -/
def State.orderPorts (s : State) : State :=
  let s1 := s.applyPorts ((s.boot.section 0x05).getD [])
  (s1.setAudio (fun a => { a with taken := s1.mcc / s1.B * s1.B })).setBoot (fun b => { b with stage := 0x07 })

/-- R348: the order that follows by itself on the one reached, as time passes. -/
def State.bootReady (s : State) : State :=
  if s.dev ≠ .boot then s
  else match s.boot.stage with
    | 0x01 => s.orderTwo
    | 0x05 => s.orderLibrary
    | 0x06 => s.orderPorts
    | _ => s

/-! ### Reading images (R342–R346) -/

/-- R344: the device stays in BOOT and waits for an image over PCIe. -/
def State.waitImage (s : State) (e : Nat) : State :=
  s.setBoot (fun b => { b with stage := 0x0F, error := e, waitPcie := true, header := none, fed := [] })

/-- R343, R344: the flash slot being read fails: the other is taken, or, when both have failed, an image over PCIe is waited for. -/
def State.slotFails (s : State) (b : Bool) (e : Nat) : State :=
  if s.boot.fallback then s.waitImage e
  else s.setBoot (fun g => { g with
    stage := 0x02, error := e, fallback := true, failed := e, feed := .slot (!b), slotUsed := !b, header := none })

/-- Conditions 1 to 6 of the slot taken. -/
def State.slotHeader (s : State) (b : Bool) (h : Option (List Nat)) : State :=
  let e := s.headerError h
  if e ≠ 0 then s.slotFails b e
  else s.setBoot (fun g => { g with stage := 0x03, header := h.map imageOf, feed := .slot b, slotUsed := b })

/-- R343: without a preference, slot B is taken when its header passes conditions 1 to 5 and slot A's fails them or has a lower
generation. -/
def State.takesB (s : State) (a b : Option (List Nat)) : Bool :=
  decide (s.headerTest b = 0) && (decide (s.headerTest a ≠ 0) || decide (imgW (a.getD []) 8 < imgW (b.getD []) 8))

/-- IMAGE_HEADER_READ: a flash slot's header has been read; none where the source does not answer (R342, R343). -/
def execImageHeaderRead (header : Option (List Nat)) (s0 : State) : Host.Outcome State Fault Refusal :=
  let s := s0.bootReady
  if s.dev ≠ .boot ∨ s.boot.stage ≠ 0x02 ∨ s.power.straps.reserved then .next s
  else
    match s.boot.feed with
    | .slot b =>
      let h := s.slotRead b header
      if s.boot.chosen then .next (s.slotHeader b h)
      else
        match s.boot.probe with
        | none => .next (s.setBoot (fun g => { g with probe := some h, feed := .slot true }))
        | some a =>
          let s1 := s.setBoot (fun g => { g with probe := none, chosen := true })
          .next (if s.takesB a h then s1.slotHeader true h else s1.slotHeader false a)
    | _ => .next s

/-- IMAGE_SECTIONS_READ: the sections of the slot have been read: accepted or refused (R342–R344). -/
def execImageSectionsRead (sections : List (List Nat)) (s : State) : Host.Outcome State Fault Refusal :=
  match s.dev, s.boot.feed, s.boot.header with
  | .boot, .slot b, some i =>
    let secs := s.slotSections b i sections
    let e := s.sectionsError i secs
    .next (if e ≠ 0 then s.slotFails b e else s.applyImage i secs (some (b2n b)))
  | _, _, _ => .next s

/-- DRAM_TRAINING_DONE: PD_DRAM is on, or stays off with error 0x0A (R348). With a reserved strap value Wellhead goes no further than
order 2 (R339). -/
def execDramTrainingDone (ok : Bool) (s0 : State) : Host.Outcome State Fault Refusal :=
  let s := s0.bootReady
  if s.dev ≠ .boot ∨ s.boot.dram.isSome ∨ s.power.straps.reserved then .next s
  else
    .next ((s.setBoot (fun b => { b with
      dram := some ok, error := if ok then b.error else 0x0A, stage := if b.stage = 0x03 then 0x04 else b.stage })).setPower
        (fun p => { p with domains := setBit p.domains 0 ok }))

/-- A whole image that the host or the twin has fed: accepted, or refused and waited for again (R344, R345). -/
def State.fedImage (s : State) (bytes : List Nat) : State :=
  let e := s.imageError bytes
  if e ≠ 0 then s.waitImage e else s.applyImage (imageOf bytes) (cutSections (imageOf bytes) bytes) none

/-- R345: what a refused image over PCIe leaves: overrun on channel 0, the error, nothing held. -/
def State.pcieFails (s : State) (e : Nat) : State := (s.updChannel 0 (fun c => { c with overrun := true })).waitImage e

/-- PCIE_IMAGE_CHUNK: a count written to MBX_REQ[0] hands over the next part of the image, at most 98,304 bytes; a count of 0 ends it
(R345). -/
def execPcieImageChunk (bytes : List Nat) (s0 : State) : Host.Outcome State Fault Refusal :=
  let s := s0.bootReady
  if s.dev ≠ .boot ∨ !s.boot.waitPcie then .next s
  else
    let s1 := (s.updChannel 0 (fun c => { c with overrun := false })).setBoot (fun b => { b with feed := .pcie })
    if bytes.isEmpty then
      let e := s.imageError s.boot.fed
      .next (if e ≠ 0 then s1.pcieFails e else s1.fedImage s.boot.fed)
    else
      let fed := s.boot.fed ++ bytes.take 98304
      let e := s.arrivalError fed
      .next (if e ≠ 0 then s1.pcieFails e else s1.setBoot (fun b => { b with fed := fed }))

/-- TWIN_IMAGE_RECEIVED: the peer's image arrives over TWL; none where the source does not answer (R346). -/
def execTwinImageReceived (bytes : Option (List Nat)) (s0 : State) : Host.Outcome State Fault Refusal :=
  let s := s0.bootReady
  if s.dev ≠ .boot ∨ s.boot.stage ≠ 0x10 then .next s
  else
    .next (match bytes with
      | none => s.waitImage 0x01
      | some b => s.fedImage b)

/-! ### The start scene (R350) -/

/-- The records of a start scene section, one after the other. -/
def sceneRecords : Nat → List Nat → List (List Nat)
  | 0, _ => []
  | n + 1, b => if b.length < 256 ∨ b.length < recordLen b then [] else b.take (recordLen b) :: sceneRecords n (b.drop (recordLen b))

/-- What the start scene adds to its set: each record with full scope, in the partition it names (log entry 40). -/
def State.startAdds (s : State) (sec : List Nat) : List Added :=
  (sceneRecords (sec.length / 256) sec).map (fun r =>
    .recall (recordPart r) scopeAll (s.destsOf (recordPart r)) (recordParams r) (recordNodes r))

/-- START_SCENE_COMMIT: the start scene in one stage set of partition 0 without a session: checked without categories 1 and 12, and
committed with next possible; a set that fails stays OPEN with error 0x0B (R350). -/
def execStartSceneCommit (s0 : State) : Host.Outcome State Fault Refusal :=
  let s := s0.bootReady.bootReady
  if s.dev ≠ .boot ∨ s.boot.stage ≠ 0x07 ∨ s.boot.dram.isNone then .next s
  else
    let (s1, id) := s.openSet 0 Attrs.dflt
    let adds := s.startAdds ((s.boot.section 0x07).getD [])
    let s2 := (s1.updSet id (fun x => { x with added := adds })).setBoot (fun b => { b with stage := 0x08, startSet := some id })
    match s2.stageSet? id with
    | none => .next s2
    | some x =>
      let f := s2.check x none
      let s3 := (s2.updSet id (fun y => { y with findings := f, moved := none, st := if f.isEmpty then .checked else .open })).raise
        .checkDone 0 id ((f.head?.map (·.err)).getD 0)
      let s4 := if adds.any Added.hasNodes then s3.givePlane id else s3
      match f, commitAt s.mcc s.B .next with
      | [], .inl c => .next (s4.schedule id c)
      | _, _ => .next (s4.setBoot (fun b => { b with error := 0x0B }))

/-! ### QUIET and RUN (R351–R354, R428) -/

/-- R428: the first role that the peer's heartbeats give at QUIET, if they do. -/
def State.firstRole (s : State) : State :=
  if s.twin.hasRole ∨ !s.live then s
  else if !s.power.straps.twinEn then (s.setTwin (fun t => { t with role := .solo, hasRole := true })).drivePins
  else
    match s.twin.peer with
    | none => s
    | some hb =>
      if hb.boot then s
      else if hb.run then s.setRole (if s.power.straps.pairId then .joining else .solo) 0x000A
      else if hb.role ≤ 1 then s.setRole .joining 0x000A
      else s

/-- Whether the start scene's set still waits for its commit sample. -/
def State.startPending (s : State) : Bool :=
  s.scene.sets.any (fun x => s.isStart x && decide (x.st = .scheduled))

/-- TWIN_FIRST_ROLE_TIMEOUT: 1 s in QUIET without a heartbeat: a chip whose PEER_ALIVE is stopped, or that has PAIR_ID 0, takes SOLO, the
other JOINING (R428). -/
def execTwinFirstRoleTimeout (s : State) : Host.Outcome State Fault Refusal :=
  if s.twin.hasRole ∨ !s.live ∨ !s.power.straps.twinEn ∨ s.twin.peer.isSome then .next s
  else .next (s.setRole (if s.twin.peerAlive && s.power.straps.pairId then .joining else .solo) 0x000A)

/-- R352: the run_timeout of the booted image, ms. -/
def State.runTimeout (s : State) : Nat := (s.boot.image.map (·.runTimeout)).getD 0

/-- R352, first case: cku.state is 2, and with cku.selected 4 and mcc.align 1 mcc.status is 2 as well. -/
def State.mayRun (s : State) : Bool :=
  decide (s.cku.st = .locked) && !(decide (s.cku.sel = 4) && s.on 0x34 0 0 && decide (s.net.mcc ≠ 2))

/-- R352, third case, judged as QUIET is entered: run_timeout is 0, cku.mode is not 0, or no reference slot is enabled. -/
def State.runsAtOnce (s : State) : Bool :=
  decide (s.runTimeout = 0) || decide (s.at 0x41 0 0 ≠ 0) || (List.range 8).all (fun k => !s.on 0x40 k 0)

/-- The cue lists of a cue section in the CUE_LOAD form: for each list its number and its number of cues in 32-bit words, then the cues in
the words of CUE_READ (log entry 53). -/
def cueOf (w : List Nat) : Cue × List Nat :=
  let g := fun i => w.getD i 0
  let what : CueWhat := if g 0 = 0 then .scene (g 1) (g 2) else .set (g 1)
  if g 3 = 0 then ({ what := what, time := .mcc (g 4 * 2 ^ 32 + g 5) }, w.drop 6)
  else ({ what := what, time := .phc (g 4 * 2 ^ 32 + g 5) (g 6) }, w.drop 7)

/-- n cues from a list of words. -/
def cuesOf : Nat → List Nat → List Cue × List Nat
  | 0, w => ([], w)
  | n + 1, w =>
    let (c, r) := cueOf w
    let (l, r2) := cuesOf n r
    (c :: l, r2)

/-- The lists of a section's words. -/
def cueLists : Nat → List Nat → List (Nat × List Cue)
  | 0, _ => []
  | n + 1, w =>
    match w with
    | l :: k :: rest =>
      let (c, r) := cuesOf (min k 256) rest
      (l, c) :: cueLists n r
    | _ => []

/-- R354: the image's cue lists are loaded and armed without a session; a list that fails to arm stays loaded. -/
def State.armImageCues (s : State) : State :=
  let sec := (s.boot.section 0x08).getD []
  let words := (List.range (sec.length / 4)).map (fun i => imgW sec (4 * i))
  (cueLists 16 words).foldl (fun s q =>
    if 16 ≤ q.1 ∨ q.2.isEmpty ∨ !q.2.all cueOk then s
    else ((s.setCues q.1 { st := .loaded, cues := q.2, mcc := [], next := 0 }).armList 0 q.1).1) s

/-- R353, R354: RUN is entered: every output unmutes at its first zero crossing, the image's cues are armed. -/
def State.runNow (s : State) : State :=
  (((({ s with dev := .run }.setBoot (fun b => { b with stage := 0x0A })).unmuteAll).raise .deviceState 0 0 4)).armImageCues

/-- QUIET: EV_DEVICE_STATE, EV_BOOT_SLOT with the slot as its object and slot, fall-back flag and the failed slot's error as its content, the
first role of a twin; mailbox requests that came before are served (R328, R343, R351, R428). -/
def State.quietNow (s : State) : State :=
  let s1 := ({ s with dev := .quiet }.setBoot (fun b => { b with stage := 0x09 })).raise .deviceState 0 0 3
  let s2 := match s.boot.feed with
    | .slot b => s1.raiseD .bootSlot 0 (b2n b) [b2n b, b2n s.boot.fallback, s.boot.failed]
    | _ => s1
  s2.drivePins.firstRole.release

/-- ENTER_QUIET: boot is complete and the device enters QUIET, and from there RUN at once in the third case of R352. -/
def execEnterQuiet (s : State) : Host.Outcome State Fault Refusal :=
  if s.dev ≠ .boot ∨ s.boot.stage ≠ 0x08 ∨ s.startPending then .next s
  else .next (if s.runsAtOnce ∧ !s.power.stbyLow then s.quietNow.runNow else s.quietNow)

/-- ENTER_RUN (R352–R354). -/
def execEnterRun (s : State) : Host.Outcome State Fault Refusal :=
  .next (if s.dev = .quiet ∧ !s.power.stbyLow ∧ s.mayRun then s.runNow else s)

/-- RUN_TIMEOUT: run_timeout ms have passed in QUIET (R352). -/
def execRunTimeout (s : State) : Host.Outcome State Fault Refusal :=
  .next (if s.dev = .quiet ∧ !s.power.stbyLow ∧ s.runTimeout ≠ 0xFFFFFFFF then s.runNow else s)

/-! ### STANDBY (R355) -/

/-- Every output mutes at its zero crossing. -/
def State.fadeAll (s : State) : State :=
  let s1 := s.updOuts (fun o => { o with mute := o.mute.commit s.exitStamp 0 })
  let s2 := s1.setSpring (fun g => { g with mixes := (List.range 16).foldl (fun c m => Cells.upd SpringMix.reset c m (fun x =>
    { x with outM := x.outM.commit g.n 0 })) g.mixes })
  s2.setLeg (fun g => { g with outM := (List.range 64).foldl (fun m k => Cells.upd (Zc.at 0) m k (fun z => z.commit (s.exitStamp - 7) 0)) g.outM })

/-- Whether a mute has reached 0. -/
def Zc.silent (z : Zc) : Bool := decide (z.gain = 0) && decide (z.tgt = 0) && z.ramp.isNone && z.tp.isNone

/-- Whether every output applies 0. -/
def State.allSilent (s : State) : Bool :=
  (List.range outEntries).all (fun n => (s.outRt n).mute.silent)
    && (List.range 16).all (fun m => (Cells.get SpringMix.reset s.spring.mixes m).outM.silent)
    && (List.range 64).all (fun k => (Cells.get (Zc.at 0) s.legacy.outM k).silent)

/-- STBY_N_LOW_HELD: in QUIET or RUN every output mutes at its zero crossing; in RESET and BOOT the low acts on entry to QUIET (R355,
R367). -/
def execStbyNLowHeld (s : State) : Host.Outcome State Fault Refusal :=
  let s1 := s.setPower (fun p => { p with stbyLow := true })
  if s.dev = .off then .next s
  else .next (if s.live ∧ !s.power.stbyLow then s1.fadeAll else s1)

/-- ENTER_STANDBY: every output applies 0, or the bound has passed: ports stop, every switched domain is off, sessions, sets and cues end;
PD_AON keeps the CKU, the MCC, the tamper monitors, the secure bank and MSTORE (R355). -/
def execEnterStandby (bound : Bool) (s : State) : Host.Outcome State Fault Refusal :=
  if !s.live ∨ !s.power.stbyLow ∨ !(bound || s.allSilent) then .next s
  else
    let r := s.resetAll true
    .next ({ r with
      dev := .standby, params := s.params, cku := s.cku
      power := { s.power with domains := 0, holdMcc := false }
      boot := s.boot, fw := { r.fw with version := s.fw.version }
      sec := s.sec
      twin := { s.twin with lease := false, swap := none, swapReq := none, handover := none }
      vcp := VcpG.reset, ev := s.ev }).netDown.drivePins

/-- STBY_N_HIGH_WAKE: in STANDBY an internal reset that keeps the clock unit and the MCC, after which the straps are sampled and the device
boots; in RESET and BOOT the pending low is withdrawn (R17, R303, R337, R355). -/
def execStbyNHighWake (straps : Straps) (s : State) : Host.Outcome State Fault Refusal :=
  match s.dev with
  | .standby =>
    let s1 := s.unfollow.resetAll true
    .next ({ s1 with power := { s1.power with stbyLow := false, straps := straps } }).startBoot
  | .reset => .next (s.setPower (fun p => { p with stbyLow := false }))
  | .boot => .next (s.setPower (fun p => { p with stbyLow := false }))
  | _ => .next s

end Sys2Proof.Machine
end

