-- ==== Sys2Proof/Machine/Security.lean ====
section
/-! DEFINITION. Sys2Proof/Machine/Security.lean: life cycle, tamper, the secure bank and provisioning (R356–R364). -/
namespace Sys2Proof.Machine

open Fmt

/-- A change of the security group. -/
def State.setSec (s : State) (f : SecG → SecG) : State := { s with sec := f s.sec }

/-! ### Tamper (R360, R361) -/

/-- R360: whether a tamper source (0 TAMPER_N, 1 voltage, 2 clock, 3 temperature) counts: all of them in DEPLOYED, else those that the
booted image enables. -/
def State.tamperOn (s : State) (source : Nat) : Bool :=
  decide (source < 4) && decide (s.dev ≠ .off) && (decide (s.sec.life = .deployed) || s.boot.image.any (fun i => bit i.tamperEn source))

/-- TAMPER_TRIP: EV_TAMPER with the source as its object, and the wipe starts (R328, R361, R367). -/
def execTamperTrip (source : Nat) (s : State) : Host.Outcome State Fault Refusal :=
  if s.tamperOn source ∧ !s.sec.tripped.contains source then
    .next ((s.setSec (fun g => { g with tripped := source :: g.tripped, wiping := true })).raise .tamper 0 source 0)
  else .next s

/-- SB_WIPED: every word of the secure bank has been overwritten and verified: FAULT_SUM [4], EV_SB_WIPED (R361, R362). -/
def execSbWiped (s : State) : Host.Outcome State Fault Refusal :=
  if s.sec.wiping then .next ((s.setSec (fun g => { g.cleared with wiping := false, wiped := true })).raise .sbWiped 0 0 0)
  else .next s

/-- TAMPER_SOURCE_CLEARED: a source returns to its normal condition (R361). -/
def execTamperSourceCleared (source : Nat) (s : State) : Host.Outcome State Fault Refusal :=
  .next (s.setSec (fun g => { g with tripped := g.tripped.filter (· ≠ source) }))

/-! ### Life cycle (R356, R358) -/

/-- Whether a return authorisation names this device and is Sormaja's: the serial number in its first 8 bytes, the signature in its last
64 (log entry 59). -/
def returnOk (blob : List Nat) : Bool :=
  let n := blob.length - 64
  decide (ofBE (slice blob 0 8) = Config.serial) && Crypto.ecdsa (toBE 64 Config.romRoot) (blob.take n) (blob.drop n)

/-- R356: a transition: the state, the wipe, EV_LIFECYCLE with the new state. EV_SB_WIPED follows with SB_WIPED. -/
def State.lifeTo (s : State) (l : Life) (f : SecG → SecG) : State :=
  (s.setSec (fun g => { f g with life := l, wiping := true })).raise .lifecycle 0 0 l.code

/-- LIFECYCLE_SET (R356). -/
def execLifecycleSet (r : Req) (target : Nat) (blob : List Nat) (s : State) : Host.Outcome State Fault Refusal :=
  .next (s.serve r 0x0702 0 (fun _ s =>
    match s.sec.life, target with
    | .blank, 1 =>
      if blob.length ≠ 64 then (s, Ans.fail Err.format)
      else (s.lifeTo .provisioned (fun g => { g with rootKey := blob, rootHash := Crypto.sha256 blob }), Ans.good [])
    | .provisioned, 2 => (s.lifeTo .deployed id, Ans.good [])
    | .returned, _ => (s, Ans.fail Err.state)
    | _, 3 =>
      if blob.length < 72 then (s, Ans.fail Err.format)
      else if returnOk blob then (s.lifeTo .returned id, Ans.good [])
      else (s, Ans.fail Err.signature)
    | _, _ => (s, Ans.fail Err.state)))

/-- SEC_VERSION_FLOOR_RAISE: in DEPLOYED, once the booted image has been in RUN for 600 s, the floor rises to its sec_version (R358). -/
def execSecVersionFloorRaise (s : State) : Host.Outcome State Fault Refusal :=
  match s.boot.image with
  | some i => .next (if s.sec.life = .deployed ∧ s.dev = .run then s.setSec (fun g => { g with floor := max g.floor i.secVersion }) else s)
  | none => .next s

/-! ### Provisioning (R357, R363, R364) -/

/-- What a provisioning record brings: a credential, or half of a module key: slot and 32 bytes. -/
inductive ProvRec where
  | cred (c : Cred)
  | key (slot : Nat) (half : List Nat)
  deriving DecidableEq, Repr

/-- One decrypted record (R363; the second half of a key stands at the first one's place, log entry 60). -/
def provRec (b : List Nat) : ProvRec :=
  let id := ofBE (slice b 0 2)
  if id = 0xFFFF then .key ((slice b 2 1).headD 0) (slice b 16 32)
  else .cred { id := id, role := (slice b 2 1).headD 0, takeover := bit ((slice b 3 1).headD 0) 0, mask := ofBE (slice b 4 2)
               secret := slice b 8 32 }

/-- What all records bring. -/
structure Prov where
  creds : List Cred
  keys  : Cells (List Nat)
  deriving DecidableEq, Repr

/-- The records in order added to what the bank holds; a module key takes two records, of which `half` is the first. None where a record is
malformed. -/
def provAll : List (List Nat) → Option (Nat × List Nat) → Prov → Option Prov
  | [], none, p => some p
  | [], some _, _ => none
  | b :: rest, some (k, a), p => provAll rest none { p with keys := Cells.put [] p.keys k (a ++ slice b 16 32) }
  | b :: rest, none, p =>
    match provRec b with
    | .cred c =>
      if c.id = 0 ∨ 2 < c.role then none
      else provAll rest none { p with creds := p.creds.filter (fun x => decide (x.id ≠ c.id)) ++ [c] }
    | .key k a => if k = 0 ∨ 4 < k then none else provAll rest (some (k, a)) p

/-- The AES-GCM key of a blob: SHA-256 of the ECDH product's x coordinate and the four bytes 0x43524544. -/
def provKey (eph : List Nat) : List Nat := Crypto.sha256 (Crypto.ecdh Config.deviceKey eph ++ [0x43, 0x52, 0x45, 0x44])

/-- Why a blob is refused before it is decrypted, 0 where it is not (R361, R363). -/
def State.provError (s : State) (blob : List Nat) : Nat :=
  let n := imgW blob 4 % 65536
  let body := blob.length - 64
  if s.sec.tripped ≠ [] ∨ s.sec.wiping then Err.state
  else if blob.length ≠ 0x64 + 48 * n + 80 ∨ imgW blob 0 ≠ 0x43524544 ∨ imgW blob 4 / 65536 ≠ 1 then Err.format
  else if !(decide (s.sec.life = .provisioned) || decide (s.sec.life = .deployed))
      || !Crypto.ecdsa s.sec.rootKey (blob.take body) (blob.drop body)
      || decide (ofBE (slice blob 8 8) ≠ Config.serial) || decide (imgW blob 0x10 ≤ s.sec.counter) then Err.signature
  else 0

/-- R363, R364: an accepted blob written into the secure bank, then its counter to MSTORE. -/
def State.provision (s : State) (blob : List Nat) : State × Option Ans :=
  let n := imgW blob 4 % 65536
  let ct := slice blob 0x64 (48 * n)
  match Crypto.gcmOpen (provKey (slice blob 0x18 64)) (slice blob 0x58 12) [] ct (slice blob (0x64 + 48 * n) 16) with
  | none => (s, Ans.fail Err.integrity)
  | some text =>
    let base : Prov := if bit (imgW blob 0x14) 0 then { creds := [], keys := [] } else { creds := s.sec.creds, keys := s.sec.modKeys }
    match provAll ((List.range n).map (fun i => slice text (48 * i) 48)) none base with
    | none => (s, Ans.fail Err.range)
    | some p =>
      if 32 < p.creds.length ∨ 4 < p.keys.length then (s, Ans.fail Err.capacity)
      else
        let ctr := imgW blob 0x10
        ((s.setSec (fun g => { g with creds := p.creds, modKeys := p.keys, bankCtr := ctr, counter := ctr })).raise .credProvisioned 0 0 0,
          Ans.good [])

/-- CRED_PROVISION, from a device-role session or the recovery session of credential 0 (R357, R363, R364). -/
def execCredProvision (r : Req) (blob : List Nat) (s : State) : Host.Outcome State Fault Refusal :=
  .next (s.serve r 0x0701 2 (fun x s =>
    if x.role ≠ 0 ∧ !x.recovery then (s, Ans.fail Err.owner)
    else
      let e := s.provError blob
      if e ≠ 0 then (s, Ans.fail e) else s.provision blob))

/-- The device's public key. -/
def devicePublic : List Nat :=
  match Crypto.mulPt 256 Config.deviceKey (some Crypto.g256) with
  | none => List.replicate 64 0
  | some (x, y) => toBE 32 x ++ toBE 32 y

/-- KEY_INFO: the device's public key, then id, role and mask of each credential, then the slot and the key of each module key (R359; log
entry 49). -/
def execKeyInfo (r : Req) (s : State) : Host.Outcome State Fault Refusal :=
  .next (s.serveRead r 0x0703 2 (fun _ s =>
    Ans.good (.blob devicePublic :: .words (s.sec.creds.flatMap (fun c => [c.id, c.role, c.mask]))
      :: s.sec.modKeys.map (fun k => .blob (toBE 4 k.1 ++ k.2)))))

end Sys2Proof.Machine
end

