-- ==== Sys2Proof/Machine/Shift.lean ====
section
/-! DEFINITION. Sys2Proof/Machine/Shift.lean: the renumbering of the MCC (R263): everything in flight takes its stamps shifted by Δ. -/
namespace Sys2Proof.Machine

open Fmt

/-- A count of samples shifted by Δ. -/
def sh (d : Int) (n : Nat) : Nat := ((n : Int) + d).toNat
/-- A pair whose first member is a stamp. -/
def sh1 {α : Type} (d : Int) (p : Nat × α) : Nat × α := (sh d p.1, p.2)

/-- A zero-crossing stage. -/
def Zc.shift (d : Int) (z : Zc) : Zc := { z with tp := z.tp.map (sh d), ramp := z.ramp.map (sh1 d) }
/-- A crossfading stage. -/
def Xf.shift (d : Int) (x : Xf) : Xf := { x with run := x.run.map (fun r => { r with start := sh d r.start }) }
/-- A coefficient stage. -/
def Cf.shift (d : Int) (c : Cf) : Cf := { c with xf := c.xf.shift d }

/-- A strip or a bus. -/
def ChainRt.shift (d : Int) (c : ChainRt) : ChainRt :=
  { c with
    inX := c.inX.shift d, trim := c.trim.shift d, pol := c.pol.shift d, delay := c.delay.shift d, hpf := c.hpf.shift d
    lpf := c.lpf.shift d, gate := c.gate.shift d, eq := c.eq.shift d, comp := c.comp.shift d, look := c.look.shift d
    lim := c.lim.shift d, makeup := c.makeup.shift d, ins := c.ins.shift d, insEn := c.insEn.shift d, fader := c.fader.shift d
    mute := c.mute.shift d }
/-- An output entry. -/
def OutRt.shift (d : Int) (o : OutRt) : OutRt :=
  { o with busX := o.busX.shift d, destX := o.destX.shift d, lim := o.lim.shift d, mute := o.mute.shift d
           sent := o.sent.map (fun q => { q with dest := q.dest.shift d }) }
/-- A slot of a port that counts on engine samples. -/
def SlotSt.shift (d : Int) (x : SlotSt) : SlotSt := { x with z := x.z.shift d }
/-- Samples kept by reference and stamp. -/
def shiftKeys (d : Int) (m : Cells Int) : Cells Int :=
  m.map (fun c => (smpKey (c.1 / 2 ^ 64) (sh d (c.1 % 2 ^ 64)), c.2))

/-- The block audio path. -/
def AudioG.shift (d : Int) (a : AudioG) : AudioG :=
  { a with
    changes := a.changes.map (fun c => { c with c := sh d c.c })
    strips := Cells.mapVal (ChainRt.shift d) a.strips
    busses := Cells.mapVal (ChainRt.shift d) a.busses
    outs := Cells.mapVal (OutRt.shift d) a.outs
    failover := Cells.mapVal (fun (f : Failover) => { f with since := f.since.map (sh d) }) a.failover
    rx := shiftKeys d a.rx
    port := shiftKeys d a.port
    taken := sh d a.taken }

/-- The Mere; `blk` is Δ in blocks. -/
def MereG.shift (d blk : Int) (m : MereG) : MereG :=
  { m with
    step := { m.step with groups := Cells.mapVal (fun (g : Group) => { tp := g.tp.map (sh d), ramp := g.ramp.map (sh1 d) }) m.step.groups }
    queue := m.queue.map (fun q => { q with c := sh d q.c })
    srcX := Cells.mapVal (Xf.shift d) m.srcX
    dstX := Cells.mapVal (Xf.shift d) m.dstX
    lanes := Cells.mapVal (fun (l : Lane) => { l with detections := l.detections.map (sh blk) }) m.lanes
    lastC := m.lastC.map (sh d) }

/-- The effect slots. -/
def TarnG.shift (d : Int) (t : TarnG) : TarnG :=
  { t with slots := Cells.mapVal (fun (r : SlotRt) => { r with xf := r.xf.shift d, events := r.events.map (sh1 d) }) t.slots }

/-- A port direction that counts on engine samples. -/
def PortDir.shift (d : Int) (p : PortDir) : PortDir :=
  { p with nextStamp := p.nextStamp.map (sh d), slots := Cells.mapVal (SlotSt.shift d) p.slots }
/-- A port direction whose slots count on their own frames: its frame numbers move by Δ in its own frames. -/
def PortDir.shiftOwn (d : Int) (p : PortDir) : PortDir := { p with nextStamp := p.nextStamp.map (sh d), idle := sh d p.idle }

/-- Δ in frames of a rate. -/
def State.inFrames (s : State) (d : Int) (rate : Nat) : Int := d * (rate : Int) / (s.fs : Int)

/-- The ports. -/
def State.shiftPorts (s : State) (d : Int) : PortG :=
  { s.ports with
    sap := s.ports.sap.map (fun c =>
      let k := s.sapCfg (c.1 / 2) (decide (c.1 % 2 = 1))
      (c.1, if k.kind = .engine then c.2.shift d else c.2.shiftOwn (s.inFrames d k.rate)))
    madi := s.ports.madi.map (fun c => (c.1, if s.madiFast (c.1 / 2) (decide (c.1 % 2 = 1)) then c.2.shift d
      else c.2.shiftOwn (s.inFrames d (s.madiW (c.1 / 2) false 4))))
    hsp := { s.ports.hsp with
      phones := Cells.mapVal (SlotSt.shift d) s.ports.hsp.phones, mic := s.ports.hsp.mic.shift d, next := sh d s.ports.hsp.next
      outNext := sh d s.ports.hsp.outNext, leaving := s.ports.hsp.leaving.map (sh d), range := s.ports.hsp.range.shift d } }

/-- Rate converters and decimators. -/
def ConvG.shift (d : Int) (c : ConvG) : ConvG :=
  { c with
    src := Cells.mapVal (fun (x : SrcCh) => { x with next := sh d x.next, slot := if x.dir = 0 then x.slot.shift d else x.slot }) c.src
    dec := Cells.mapVal (fun (x : DecCh) => { x with next := sh d x.next, outE := x.outE.shift d }) c.dec
    sched := c.sched.map (sh d) }

/-- Δ on a stream's own count (R267, R272): streams behind the SRC count on the PHC and do not move. -/
def State.streamShift (s : State) (rate : Nat) (d : Int) : Int :=
  match s.path rate with
  | .direct => d
  | .half => d / 2
  | .src => 0

/-- The streams. -/
def State.shiftNet (s : State) (d : Int) : NetG :=
  { s.net with
    linkAt := Cells.mapVal (fun n => if n = 0 then 0 else sh d n) s.net.linkAt
    rx := s.net.rx.map (fun c =>
      let k := s.streamShift (s.at 0x35 c.1 2) d
      (c.1, { c.2 with
        diffSec := c.2.diffSec.map (sh d), copies := c.2.copies.map (fun p => { p with mcc := sh d p.mcc })
        got := c.2.got.map (sh k), settled := sh k c.2.settled, mark := c.2.mark.map (fun q => (sh d q.1, q.2)), slots := Cells.mapVal (SlotSt.shift d) c.2.slots }))
    tx := s.net.tx.map (fun c =>
      let k := s.streamShift (s.at 0x36 c.1 2) d
      -- the next packet starts at a multiple of P (R272)
      (c.1, { c.2 with
        next := ceilMul (sh k c.2.next) (s.streamP 0x36 c.1), before := none, mark := c.2.mark.map (fun q => (sh d q.1, q.2))
        slots := Cells.mapVal (SlotSt.shift k) c.2.slots })) }

/-- Fault continuity; `blk` is Δ in blocks. -/
def FaultG.shift (d blk : Int) (f : FaultG) : FaultG :=
  { f with
    detect := Cells.mapVal (fun (l : List Nat) => l.map (sh blk)) f.detect
    recomputed := Cells.mapVal (fun n => if n = 0 then 0 else sh blk n) f.recomputed
    spareBlock := f.spareBlock.map (sh1 blk)
    rollTimes := f.rollTimes.map (sh d)
    restartAt := f.restartAt.map (sh d)
    pdPending := f.pdPending.map (fun q => (q.1, sh d q.2.1, q.2.2)) }

/-- The twin link. -/
def TwinG.shift (d : Int) (t : TwinG) : TwinG :=
  let rec' := fun (r : InRecord) => { r with tick := sh d r.tick }
  { t with
    instepAt := sh d t.instepAt, acked := sh d t.acked, renewed := sh d t.renewed, swap := t.swap.map (sh d)
    handover := t.handover.map (sh d), joinAt := sh d t.joinAt, record := t.record.map rec', own := []
    word := t.word.map (sh d), sent := t.sent.map rec', forward := t.forward.map (sh1 d) }

/-- The legacy partition. -/
def LegG.shift (d : Int) (g : LegG) : LegG :=
  let rt := fun (r : LegRt) => { r with gain := r.gain.shift d, pol := r.pol.shift d, fader := r.fader.shift d, inX := r.inX.shift d }
  { g with
    pending := g.pending.map (sh d)
    sets := g.sets.map (fun x => { x with v := sh d x.v, c := sh d x.c })
    changes := g.changes.map (sh1 d)
    errSec := g.errSec.map (sh d)
    chans := Cells.mapVal rt g.chans
    busses := Cells.mapVal rt g.busses
    outX := Cells.mapVal (Xf.shift d) g.outX
    outM := Cells.mapVal (Zc.shift d) g.outM
    retX := Cells.mapVal (Xf.shift d) g.retX }

/-- A session: when it was last heard, from when its intervals count, and when its records were last pushed. -/
def Session.shift (d : Int) (x : Session) : Session :=
  { x with heard := sh d x.heard, since := sh d x.since, queue := x.queue.map (fun q => { q with pushed := q.pushed.map (sh d) }) }

/-- The scene engine: what still counts in admission, the sample of the latest commits, and how far sets were judged. -/
def SceG.shift (d : Int) (g : SceG) : SceG :=
  { g with
    leaving := { mods := g.leaving.mods.map (fun q => (q.1, sh d q.2)), delays := g.leaving.delays.map (fun q => (q.1, q.2.1, sh d q.2.2)) }
    opening := sh1 d g.opening
    sets := g.sets.map (fun x => { x with moved := x.moved.map (sh d) }) }

/-- R263: everything in flight takes stamps shifted by Δ, which is a multiple of B. -/
def State.shiftAll (s : State) (d : Int) : State :=
  let blk := d / (s.B : Int)
  { s with
    mcc := sh d s.mcc
    audio := s.audio.shift d
    mere := s.mere.shift d blk
    spring := { s.spring with
      interps := Cells.mapVal (fun (i : SpringInterp) => { i with busX := i.busX.shift d, start := if i.blk.isEmpty then 0 else sh d i.start }) s.spring.interps
      phase := sh1 d s.spring.phase }
    scene := s.scene.shift d
    tarn := s.tarn.shift d
    ports := s.shiftPorts d
    conv := s.conv.shift d
    net := s.shiftNet d
    fault := s.fault.shift d blk
    cku := { s.cku with outs := Cells.mapVal (fun (o : ClkOut) => { o with since := sh (d * (s.halves : Int)) o.since }) s.cku.outs }
    twin := s.twin.shift d
    vcp := { s.vcp with
      sessions := s.vcp.sessions.map (Session.shift d), fails := s.vcp.fails.map (fun q => (q.1, sh d q.2)) }
    legacy := s.legacy.shift d }

/-- R263: pending commits move with the count; one that would come too soon moves to the first multiple of B at least 2B after the tick,
with EV_COMMIT_SCHEDULED. `tick` is the renumbered frame tick. -/
def State.shiftSets (s : State) (d : Int) (tick : Nat) : State :=
  s.scene.sets.foldl (fun s x =>
    match x.st, x.commit with
    | .scheduled, some c =>
      let c1 := sh d c
      if c1 < tick + 2 * s.B then
        let c2 := cdiv (tick + 2 * s.B) s.B * s.B
        (s.updSet x.id (fun y => { y with commit := some c2 })).raiseD .commitScheduled 0 x.id (x.id :: two c2)
      else s.updSet x.id (fun y => { y with commit := some c1 })
    | _, _ => s) s

/-- R263: armed cues: one with a PHC time is converted again, any other moves with the count. -/
def State.shiftCues (s : State) (d : Int) : State :=
  s.setScene (fun g => { g with cues := g.cues.map (fun l =>
    (l.1, { l.2 with mcc := (l.2.cues.zip l.2.mcc).map (fun q =>
      match q.1.time with
      | .phc sec ns => s.mccOfPhc sec ns
      | .mcc _ => sh d q.2) })) })

/-- MCC_RENUMBER: at a frame tick, with amclk slewed so that Δ is a multiple of B, the MCC takes MCC + Δ (R263): once at start-up where
mcc.align is 1, or as MCC_ALIGN has asked. -/
def execMccRenumber (s : State) : Host.Outcome State Fault Refusal :=
  let d := s.delta
  if s.slewUnit ≠ 1 ∧ s.cku.sel = 4 ∧ s.cku.st = .locked ∧ s.mcc % s.B = 2 ∧ s.slewLeft s.B = 0 ∧ 0 ≤ (s.mcc : Int) + d then
    let s1 := s.shiftAll d
    let s2 := ((s1.shiftSets d s1.mcc).shiftCues d).setNet (fun g => { g with mcc := 2, align := false, delta := d })
    .next ((s2.setCku (fun c => { c with slewing := false, slewMod := 1 })).raiseD .mccAligned 0 0
      [(wrapU 64 d) / 2 ^ 32, (wrapU 64 d) % 2 ^ 32])
  else .next s

end Sys2Proof.Machine
end

