-- ==== Sys2Proof/Machine/Clock.lean ====
section
/-! DEFINITION. Sys2Proof/Machine/Clock.lean: one engine sample passing. -/
namespace Sys2Proof.Machine

/-- The seconds since the release of reset (SUMMARY). -/
def PowerG.second (p : PowerG) (fs : Nat) : PowerG :=
  if p.holdMcc then p else if fs ≤ p.upN + 1 then { p with upS := p.upS + 1, upN := 0 } else { p with upN := p.upN + 1 }

/-- One engine sample passes: the CKU and the PHC run in every device state but OFF, and the MCC counts where R17 lets it. -/
def tick (s : State) : State :=
  if s.dev = .off then s
  else
    let s0 := s.ckuTick.phcTick
    let s1 := { s0 with power := s0.power.second s.fs }
    if s1.power.holdMcc then s1 else { s1 with mcc := s1.mcc + 1 }

end Sys2Proof.Machine
end

