-- ==== Sys2Proof/Machine/Twin.lean ====
section
/-! DEFINITION. Sys2Proof/Machine/Twin.lean: the twin pair: heartbeats, lease, takeover, input records, forwarded changes, rejoining
(R423–R450). What a chip puts on TWL and HBL is seen by its peer only and is no state of this chip, but for the lease word, the input record
and what R436 mirrors. -/
namespace Sys2Proof.Machine

open Fmt

/-- Whether the twin link is in use: TWIN_EN at 1 and PD_TWIN on. -/
def State.twinUp (s : State) : Bool := s.power.straps.twinEn && bit s.power.domains 6

/-! ### Digests (R437, R438) -/

/-- S32 words, most significant byte first. -/
def wordBytes (l : List Int) : List Nat := l.flatMap (fun v => toBE 4 (wrapU 32 v))

/-- The words of port channels over the exits from MCC t on: channel by channel, sample by sample. -/
def State.exitWords (s : State) (refs : List Nat) (t : Nat) : List Int :=
  refs.flatMap (fun r => (List.range s.B).map (fun j => s.portAt r (t + j)))

/-- The bytes of a digest group over the block whose exits begin at MCC t. -/
def State.digestBytes (s : State) (t g : Nat) : List Nat :=
  if g < 16 then
    let d := s.sapDir g true
    let k := (s.sapCfg g true).kind
    let slots := if d.active then maskSlots d.mask 64 else []
    wordBytes (match k with
      | .spring8 => slots.flatMap (fun i => Cells.get [] s.twin.springW (sapRef0 k g + i))
      | .spring16 => slots.flatMap (fun i => Cells.get [] s.twin.springW (sapRef0 k g + i))
      | .engine => s.exitWords (slots.map (sapRef0 k g + ·)) t
      | .src => s.exitWords (slots.map (sapRef0 k g + ·)) t)
  else if g < 24 then
    let d := s.madiDir (g - 16) true
    wordBytes (s.exitWords ((if d.active then maskSlots d.mask 64 else []).map (madiRef0 (g - 16) + ·)) t)
  else if g < 28 then
    wordBytes (s.exitWords ((List.range 64).flatMap (fun i =>
      let x := 4 * i + (g - 24)
      if (s.txStream x).running then (List.range (s.at 0x36 x 3)).map (streamRef x) else [])) t)
  else if g = 28 then wordBytes (s.exitWords [micRef, micRef + 1] t)
  else if g = 29 then toBE 8 s.scene.gen ++ s.twin.ids.flatMap (toBE 4)
  else []

/-- R437: the digests of the block that leaves from MCC t on, under its number; the last eight blocks' are kept. -/
def State.digestTick (s : State) (t : Nat) : State :=
  if !s.twinUp then s
  else
    let d := (List.range 32).map (fun g => Crypto.crc32 (s.digestBytes t g))
    s.setTwin (fun q => { q with own := (Cells.put [] q.own (t / s.B) d).filter (fun c => decide (t / s.B < c.1 + 8)), ids := [], springW := [] })

/-- The bitmap of the groups that differ. -/
def digestDiff (a b : List Nat) : Nat :=
  (List.range 32).foldl (fun m g => if a.getD g 0 = b.getD g 0 then m else m + 2 ^ g) 0

/-- R438: what a difference makes a standby do. -/
def State.standbyDiff (s : State) (blk d : Nat) : State :=
  if s.twin.role = .standby then
    let run := if d = 0 then 0 else s.twin.mismRun + 1
    let hist := ((if d = 0 then [] else [blk]) ++ s.twin.mismHist).filter (fun b => decide (blk < b + 1024))
    let s1 := s.setTwin (fun t => { t with mismRun := run, mismHist := hist })
    if 4 ≤ run ∨ 16 ≤ hist.length then s1.withdraw 0x0005 else s1
  else s

/-- R448: 1024 consecutive matching blocks: the pair is in step, and the token is released. -/
def State.inStep (s : State) : State :=
  let s1 := s.setTwin (fun t => { t with instepAt := s.mcc })
  let s2 := (s1.setRole (if s.twin.role = .joining then .standby else .active) 0x0009).raise .twinInstep 0 0 1
  if s2.maintOn 6 then s2.maintEnd else s2

/-- R448: a block compared after the convergence window. -/
def State.joinDiff (s : State) (d : Nat) : State :=
  if s.twin.resync = 6 then
    let s1 := s.setTwin (fun t => { t with progress := if d = 0 then t.progress + 1 else 0 })
    if 1024 ≤ s1.twin.progress then s1.inStep else s1
  else s

/-- R438: the digests of the block before the heartbeat's own, compared with the peer's. -/
def State.compare (s : State) (hb : Heartbeat) : State :=
  let blk := hb.mcc / s.B - 1
  let own := Cells.get [] s.twin.own blk
  let inStep := decide (s.twin.role = .active) || decide (s.twin.role = .standby)
  if hb.digests.isEmpty ∨ own.isEmpty ∨ !(inStep || decide (s.twin.resync = 6)) then s
  else
    let d := digestDiff own hb.digests
    let s1 := if d = 0 then s else (s.setTwin (fun t => { t with mismatch := satInc t.mismatch 1 })).raiseD .twinDigest 0 0 [d]
    (s1.standbyDiff blk d).joinDiff d

/-! ### Heartbeats (R428, R429, R439) -/

/-- R439: a path up or down, with EV_TWIN_HB: 0 TWL, 1 HBL. -/
def State.pathSet (s : State) (k : Nat) (up : Bool) : State :=
  if bit s.twin.paths k = up then s
  else (s.setTwin (fun t => { t with paths := setBit t.paths k up })).raise .twinHb 0 k (b2n up)

/-- R446: with tw.auto_rejoin at 1 the SOLO chip asks for the token when a joining peer appears. -/
def State.autoRejoin (s : State) (hb : Heartbeat) : State :=
  if s.twin.role = .solo ∧ s.twin.hasRole ∧ hb.role = 3 ∧ !hb.boot ∧ !hb.run ∧ s.on 0x50 0 0x23 ∧ s.twin.resync = 0
      ∧ !s.maintOn 6 ∧ !s.fault.queue.any (fun m => decide (m.code = 6)) then
    let s1 := (s.maintAsk { code := 6, target := 0, sid := 0 } false).1
    if s1.maintOn 6 then s1.maintBegin else s1
  else s

/-- R427: an ACTIVE takes SOLO when its peer has withdrawn or is fenced. A heartbeat sent before in step was declared says neither. -/
def State.peerLeft (s : State) (hb : Heartbeat) : State :=
  if s.twin.role = .active ∧ (hb.role = 3 ∨ hb.role = 4) ∧ !hb.boot ∧ !hb.run ∧ s.twin.instepAt ≤ hb.mcc then s.setRole .solo 0x000B else s

/-- TWIN_HEARTBEAT: a heartbeat record arrives on TWL or HBL (R428, R429, R438, R439). -/
def execTwinHeartbeat (twl : Bool) (hb : Heartbeat) (s0 : State) : Host.Outcome State Fault Refusal :=
  let s := s0.bootReady
  if !s.twinUp then .next s
  else
    let s1 := (s.pathSet (if twl then 0 else 1) true).setTwin (fun t => { t with
      peer := some hb, peerAlive := !hb.boot && decide (hb.role ≠ 4), peerOwn := !hb.boot && !hb.run && decide (hb.role ≤ 1)
      image := t.image && hb.boot })
    let s2 := if s.dev = .boot ∧ s.boot.stage = 0x10 ∧ hb.boot then s1.waitImage 0x0D else s1
    let s3 := ((s2.firstRole).peerLeft hb).autoRejoin hb
    .next (if twl then s3.compare hb else s3)

/-- TWIN_PATH_DOWN: three heartbeats are missing from a path, or TWL has lost its lanes (R439); a standby withdraws at the next frame
tick. -/
def execTwinPathDown (twl : Bool) (s : State) : Host.Outcome State Fault Refusal :=
  let s1 := s.pathSet (if twl then 0 else 1) false
  .next (if twl && decide (s.twin.role = .standby) then s1.setTwin (fun t => { t with leave := some 0x0008 }) else s1)

/-- R432, R439: a withdrawal due at this frame tick; with both paths down the lease decides (R450). -/
def State.leaveTick (s : State) : State :=
  match s.twin.leave with
  | none => s
  | some c =>
    let s1 := s.setTwin (fun t => { t with leave := none })
    if c = 0x0008 ∧ (bit s.twin.paths 0 || !bit s.twin.paths 1) then s1 else s1.withdraw c

/-- TWIN_IMAGE_SEND: the chip sends the image from which it booted to a peer in BOOT at stage 0x10 (R429). -/
def execTwinImageSend (s : State) : Host.Outcome State Fault Refusal :=
  if s.twinUp ∧ s.twin.peer.any (·.boot) ∧ s.boot.image.isSome ∧ !s.twin.image then .next (s.setTwin (fun t => { t with image := true }))
  else .next s

/-! ### Ownership: lease, handover, swap (R424, R440–R445) -/

/-- R446: a resynchronisation whose peer is lost is over; the spec states no event for it (log entry 63). -/
def State.dropResync (s : State) : State :=
  let s1 := s.setTwin (fun t => { t with resync := 0, nonconv := [], copied := [], progress := 0 })
  if s1.maintOn 6 then s1.maintEnd else s1

/-- PEER_ALIVE_STOPPED: no edge on PEER_ALIVE for two sample periods (R424, R427, R442). -/
def execPeerAliveStopped (s : State) : Host.Outcome State Fault Refusal :=
  if !s.power.straps.twinEn then .next s
  else
    let s1 := s.setTwin (fun t => { t with peerAlive := false, peerOwn := false })
    .next (match s.twin.role with
      | .active => s1.setRole .solo 0x0002
      | .standby => s1.setRole .solo 0x0002
      | .joining => s1.setRole .solo 0x0002
      | .solo => if s.twin.resync = 0 then s1 else s1.dropResync
      | .fenced => s1)

/-- AMCLK_STOP_RELEASE: XIN logic releases OWN_N and holds ALIVE low; the chip takes FENCED before it can own again (R424). No cause is
stated for that role (log entry 64). -/
def execAmclkStopRelease (s : State) : Host.Outcome State Fault Refusal :=
  let s1 := if s.power.straps.twinEn ∧ s.twin.hasRole ∧ s.twin.role ≠ .fenced then s.setRole .fenced 0 else s
  .next (s1.setTwin (fun t => { t with ownN := true, aliveHeld := true }))

/-- LEASE_RENEWAL: the renewal word of sample edge n: an ACTIVE sends it, a standby takes it and answers (R440). -/
def execLeaseRenewal (n : Nat) (s : State) : Host.Outcome State Fault Refusal :=
  if !s.twinUp then .next s
  else .next (match s.twin.role with
    | .active => if n = s.mcc then s.setTwin (fun t => { t with word := some n }) else s
    | .standby => s.setTwin (fun t => { t with renewed := max t.renewed n, word := some n })
    | .solo => s
    | .joining => s
    | .fenced => s)

/-- LEASE_ACK: an acknowledgement carrying n reaches the ACTIVE (R440). -/
def execLeaseAck (n : Nat) (s : State) : Host.Outcome State Fault Refusal :=
  if s.twinUp ∧ s.twin.role = .active ∧ n ≤ s.mcc then .next (s.setTwin (fun t => { t with acked := max t.acked n })) else .next s

/-- LEASE_FENCE: a quarter sample before E_a = n_a + 7 (R440). -/
def execLeaseFence (s : State) : Host.Outcome State Fault Refusal :=
  if s.twin.role = .active ∧ s.twin.acked + 6 ≤ s.mcc then .next (s.setRole .fenced 0x0001) else .next s

/-- LEASE_GUARD_EXPIRY: a quarter sample after E_s = n_r + 7 (R440). -/
def execLeaseGuardExpiry (s : State) : Host.Outcome State Fault Refusal :=
  if s.twin.role = .standby ∧ s.twin.renewed + 7 ≤ s.mcc then .next (s.setRole .solo 0x0001) else .next s

/-- TWIN_HANDOVER: an ACTIVE that has met a fault outside the boundary announces h, and at h takes FENCED; at h the standby takes SOLO
(R443). -/
def execTwinHandover (h : Nat) (s : State) : Host.Outcome State Fault Refusal :=
  .next (match s.twin.role with
    | .active => match s.twin.handover with
      | some k => if k ≤ s.mcc then s.setRole .fenced 0x0003 else s
      | none => s
    | .standby => if h ≤ s.mcc then s.setRole .solo 0x0003 else s
    | .solo => s
    | .joining => s
    | .fenced => s)

/-- R445: the earliest h of a swap accepted at m. -/
def swapAt (m B : Nat) : When → Option Nat
  | .next => some (cdiv (m + 2 * B) B * B)
  | .mcc h => if h % B = 0 ∧ m + 2 * B ≤ h then some h else none

/-- TWIN_SWAP: a planned exchange of roles at h, which the reply gives once it has taken place (R434, R445, R450). -/
def execTwinSwap (r : Req) (w : When) (s : State) : Host.Outcome State Fault Refusal :=
  .next (s.serve r 0x0607 0 (fun _ s =>
    if s.twin.role ≠ .active ∨ s.twin.peerRole ≠ 2 ∨ s.twin.handover.isSome then (s, Ans.fail Err.state)
    else if s.twin.swap.isSome then (s, Ans.fail Err.busy)
    else match swapAt s.mcc s.B w with
      | none => (s, Ans.fail Err.late)
      | some h => (s.setTwin (fun t => { t with swap := some h, swapReq := some r }), none)))

/-- TWIN_SWAP_AT_H: at h the roles exchange (R445). -/
def execTwinSwapAtH (s : State) : Host.Outcome State Fault Refusal :=
  match s.twin.swap with
  | none => .next s
  | some h =>
    if s.mcc < h then .next s
    else
      let s1 := (s.swapAnswer s.twin.swapReq { status := Err.ok, items := [.mcc h] }).setTwin (fun t => { t with swapReq := none, swap := none })
      .next (match s.twin.role with
        | .active => s1.setRole .standby 0x0004
        | .standby => s1.setRole .active 0x0004
        | .solo => s1
        | .joining => s1
        | .fenced => s1)

/-- PROCESSING_PLL_LOSS_OF_LOCK: a fault outside the boundary (R443). -/
def execProcessingPllLossOfLock (s : State) : Host.Outcome State Fault Refusal := .next s.outside

/-- EDGE_OFFSET_EXCEEDED: the offset to the peer's sample edges, measured over one block; beyond ±500 ns a standby withdraws (R430). -/
def execEdgeOffsetExceeded (offset : Int) (s : State) : Host.Outcome State Fault Refusal :=
  if !s.twin.role.follows then .next s
  else
    let s1 := s.setTwin (fun t => { t with edge := offset })
    .next (if 500 < offset.natAbs then s1.withdraw 0x0007 else s1)

/-! ### Input records (R431, R432) -/

/-- The headset as the chip with PAIR_ID 0 has it. -/
def State.takeHsp (s : State) (type buttons : Nat) : State :=
  if !s.power.straps.pairId then s
  else
    let old := s.ports.hsp.type
    let s1 := s.phonesAdvance s.mcc
    let s2 := if old = 0 ∧ type ≠ 0 then s1.setHsp (fun g => g.eachPhone (fun x => { x.start s.mcc with held := 0 }))
      else if old ≠ 0 ∧ type = 0 then s1.setHsp (fun g => g.eachPhone (fun x => if x.silent s.mcc then SlotSt.reset else x.fadeOut))
      else s1
    s2.setHsp (fun g => { g with type := type, buttons := buttons })

/-- The microphone block that a tick takes, from the chip with PAIR_ID 0. -/
def State.takeMic (s : State) (b : Nat) (samples : List Nat) : State :=
  if !s.power.straps.pairId then s
  else
    let s1 := samples.zipIdx.foldl (fun (s : State) (q : Nat × Nat) => s.putRx micRef (b + q.2) (toS 48 q.1)) s
    s1.setHsp (fun g => { g with next := max g.next (b + samples.length) })

/-- A decision taken: the lead's, or the chip's own. `tick` is the MCC of the frame tick that takes it. -/
def State.takeItem (s : State) (tick : Nat) : InItem → State
  | .sapLoss p d cause _ => if (s.sapDir p (decide (d = 1))).running then s.sapLose p (decide (d = 1)) cause else s
  | .sapResume p d muted _ =>
    let x := s.sapDir p (decide (d = 1))
    if x.active && !x.running then s.sapRun p (decide (d = 1)) muted else s
  | .madiLoss p cause _ => if (s.madiDir p false).running then s.madiLose p cause else s
  | .madiResume p muted _ => let x := s.madiDir p false; if x.active && !x.running then s.madiRun p muted else s
  | .sapSlip p d late =>
    let tx := decide (d = 1)
    let x := s.sapDir p tx
    let c := s.sapCfg p tx
    let (s1, x1) := s.sapSlip p tx x
    if late then
      let s2 := if tx then s1.sapSkip p c x1 else s1.sapRepeat p c x1
      let (s3, x2) := if tx ∨ c.kind ≠ .engine then (s2, { x1 with nextStamp := x1.nextStamp.map (· + 1) })
        else s2.rxGap (sapRef0 .engine p) x1 (x1.nextStamp.getD s.mcc + 1)
      s3.setSap p tx x2
    else s1.setSap p tx { x1 with nextStamp := x1.nextStamp.map (· - 1) }
  | .madiRepeat p k n => s.putRx (madiRef0 p + k) n (s.rxAt (madiRef0 p + k) (n - 1))
  | .ratio i w => s.updSrc i (fun x => { x with ratio := w })
  | .packet i leg _ ts data =>
    let rate := s.at 0x35 i 2
    let x := lift32 (s.streamNow rate) ts
    if (s.rxStream i).running ∧ leg < 2 then s.takePacket i x (s.engineStamp rate x) data else s
  | .decsync c => s.setConv (fun g => if g.sched.isSome then g else { g with sched := some c, byPin := true, fading := false })
  | .mic samples => s.takeMic (tick - s.B - 2) samples
  | .hsp t b => s.takeHsp t b

/-- Whether an item comes from the chip with PAIR_ID 0 whoever leads (R431). -/
def InItem.headset : InItem → Bool
  | .mic _ => true
  | .hsp _ _ => true
  | .sapLoss _ _ _ _ => false
  | .sapResume _ _ _ _ => false
  | .madiLoss _ _ _ => false
  | .madiResume _ _ _ => false
  | .sapSlip _ _ _ => false
  | .madiRepeat _ _ _ => false
  | .ratio _ _ => false
  | .packet _ _ _ _ _ => false
  | .decsync _ => false

/-- INPUT_RECORD: the peer's record for the next frame tick (R431). A lead with PAIR_ID 1 takes its headset items only. -/
def execInputRecord (tick : Nat) (items : List InItem) (s : State) : Host.Outcome State Fault Refusal :=
  if !s.twinUp ∨ !s.paired ∨ tick % s.B ≠ 2 ∨ tick ≤ s.mcc ∨ s.mcc + s.B < tick then .next s
  else
    let use := if s.obeys then items else items.filter InItem.headset
    .next ((use.foldl (fun (s : State) i => s.takeItem tick i) s).setTwin (fun t => { t with record := some { tick := tick, items := items } }))

/-- INPUT_RECORD_MISSING: 1 µs before a frame tick a standby lacks the lead's record; it withdraws at that tick (R432). -/
def execInputRecordMissing (s : State) : Host.Outcome State Fault Refusal :=
  if s.twin.role = .standby ∧ s.mcc % s.B = 1 ∧ !s.twin.record.any (fun r => decide (r.tick = s.mcc + 1)) then
    .next (s.setTwin (fun t => { t with leave := some 0x0006 }))
  else .next s

/-- What joins every record: the ratio of every SRC channel, and from the chip with PAIR_ID 0 the microphone block that the tick takes. -/
def State.closeItems (s : State) (tick : Nat) : List InItem :=
  (if s.twin.role.owns then (s.conv.src.filter (fun q => decide (q.2.user ≠ 0))).map (fun q => .ratio q.1 q.2.ratio) else [])
  ++ (if s.power.straps.pairId then []
      else [.mic ((List.range s.B).map (fun j => wrapU 48 (s.rxAt micRef (tick - s.B - 2 + j))))])

/-- INPUT_RECORD_CLOSE: 5 µs before a frame tick the record for it is closed and sent (R431). -/
def execInputRecordClose (s : State) : Host.Outcome State Fault Refusal :=
  if !s.twinUp ∨ !s.paired ∨ s.mcc % s.B ≠ 1 ∨ (!s.twin.role.owns && s.power.straps.pairId) then .next s
  else
    let tick := s.mcc + 1
    let s1 := s.micAdvance (tick - 2)
    .next (s1.setTwin (fun t => { t with sent := some { tick := tick, items := t.closing ++ s1.closeItems tick }, closing := [] }))

/-- R431: from the first frame tick at which it leads a chip uses what its own monitors and buffers have decided. -/
def State.leadTick (s : State) : State :=
  if s.obeys ∨ s.twin.held.isEmpty then s
  else s.twin.held.foldl (fun (s : State) i => s.takeItem s.mcc i) (s.setTwin (fun t => { t with held := [] }))

/-! ### Forwarded changes (R433, R436, R446) -/

/-- R446: the committed configuration as the SOLO chip has it: what it does not list takes its default. -/
def State.takeConfig (s : State) (entries : List Entry) (nodes : List (Nat × Int × Nat)) (gen : Nat) : State :=
  let gone := (s.params.filter (fun c => !entries.any (fun e => decide (e.h = c.1)))).map (fun c =>
    Added.entry { h := c.1, v := (s.field c.1).elim 0 Field.dfltWord })
  let idle := (s.mere.image.filter (fun c => !nodes.any (fun n => decide (n.1 = c.1)))).map (fun c => (c.1, (0 : Int), 2))
  (s.takeSet (gone ++ entries.map Added.entry ++ [.form 3 0 (idle ++ nodes)]) 64 256 s.mcc 0).setScene (fun g => { g with gen := gen })

/-- A forwarded set's contents. -/
def State.takeStage (s : State) (id : Nat) (attrs : Attrs) (added : List Added) : State :=
  (s.setScene (fun g => { g with
    nextId := max g.nextId (id + 1)
    sets := g.sets.filter (fun x => decide (x.id ≠ id)) ++ [{ StageSet.fresh id 0 attrs with st := .checked, added := added }] })).seekPlane id

/-- One forwarded change applied. -/
def State.takeFwd (s : State) : Fwd → State
  | .stage id attrs added => s.takeStage id attrs added
  | .cosign id p => s.updSet id (fun x => { x with cosigned := x.cosigned ++ [p] })
  | .commit id c => if (s.stageSet? id).isSome then s.schedule id c else s
  | .cancel id => match s.stageSet? id with
    | some x => if x.st = .scheduled then s.cancelSet x else s
    | none => s
  | .own p sid => s.setOwner p sid
  | .decsync c => s.setConv (fun g => { g with sched := some c, byPin := false, fading := false })
  | .mccAlign => s.askAlign
  | .phcSet sec ns => s.phcStep ((sec * 1000000000 + ns) * 2 ^ 32)
  | .legacy a w => s.legWrite a w
  | .mstore a data => s.setStore (s.scene.mstore.writeAll a data)
  | .moduleLoad img => s.loadModule img
  | .cueLoad l cues => s.setCues l { st := if cues.isEmpty then .empty else .loaded, cues := cues, mcc := [], next := 0 }
  | .cueArm l => (s.armList 0 l).1
  | .cueDisarm l => if (s.cueList l).st = .armed then s.disarm l else s
  | .session x => s.setTwin (fun t => { t with mirrored := t.mirrored.filter (fun y => decide (y.sid ≠ x.sid)) ++ [x] })
  | .sessionEnd sid => s.setTwin (fun t => { t with mirrored := t.mirrored.filter (fun y => decide (y.sid ≠ sid)) })
  | .swap h => if s.twin.role = .standby then s.setTwin (fun t => { t with swap := some h }) else s
  | .config entries nodes gen => s.takeConfig entries nodes gen

/-- Forwarded changes whose MCC has come, in the order of their arrival. -/
def State.forwardDue (s : State) : State :=
  let due := s.twin.forward.filter (fun q => decide (q.1 ≤ s.mcc))
  if due.isEmpty then s
  else due.foldl (fun (s : State) q => s.takeFwd q.2)
    (s.setTwin (fun t => { t with forward := t.forward.filter (fun q => decide (s.mcc < q.1)) }))

/-- R427, R446: the copy of a configuration starts a resynchronisation: a chip FENCED with no fault since its reset takes JOINING. -/
def State.copyStart (s : State) : Fwd → State
  | .config _ _ _ =>
    let s1 := if s.twin.role = .fenced ∧ !s.twin.faulted then s.setRole .joining 0 else s
    if s1.twin.role = .joining ∧ s1.twin.resync = 0 then s1.setTwin (fun t => { t with resync := 1 }) else s1
  | _ => s

/-- TWIN_FORWARD: a change arrives from the peer that leads, to be applied at MCC m (R433, R446). -/
def execTwinForward (m : Nat) (f : Fwd) (s : State) : Host.Outcome State Fault Refusal :=
  let s1 := s.copyStart f
  if !s.twinUp ∨ !s1.twin.role.follows then .next s
  else .next (if m ≤ s.mcc then s1.takeFwd f else s1.setTwin (fun t => { t with forward := t.forward ++ [(m, f)] }))

/-- R436: the owner mirrors its sessions on tw.ctl_ip every block (log entry 65). -/
def State.mirrorTick (s : State) : State :=
  if s.twinUp ∧ s.twin.role.owns ∧ s.twin.hasRole ∧ s.at 0x50 0 0x22 ≠ 0 then
    s.setTwin (fun t => { t with mirrored := s.vcp.sessions.filter (fun x => match x.origin with
      | .udp _ _ => true
      | .mbx _ => false) })
  else s

/-! ### Rejoining (R435, R446–R448) -/

/-- The convergence window in samples: tw.settle and the longest delays (R446). -/
def State.convergence (s : State) : Nat :=
  let top := fun (l : List Nat) => l.foldl max 0
  s.at 0x50 0 0x20 * s.fs / 1000 + top ((List.range s.cap.strips).map (s.objLat 1)) + top ((List.range s.cap.busses).map (s.objLat 2))
    + top (s.usedSlots.map (fun n => (s.slotImage n).elim 0 (fun i => imgDram i s.prof / 8)))
    + top (s.conv.src.map (fun q => q.2.latency))

/-- The slots whose instances do not converge (R447). -/
def State.nonconvSlots (s : State) : List Nat := s.usedSlots.filter (fun n => (s.slotImage n).any (fun i => imgFlag i 0))

/-- R430, R446: the joining chip takes the SOLO chip's count at a frame tick. -/
def State.takeMcc (s : State) (peer : Nat) : State :=
  let f := s.twin.forward
  (s.shiftAll ((peer : Int) - (s.mcc : Int))).setTwin (fun t => { t with forward := f })

/-- R435, R446 step 3: from block j0, the next one; the convergence window begins. -/
def State.windowStart (s : State) (seed : Nat) : State :=
  s.setTwin (fun t => { t with
    resync := 4, joinAt := s.mcc / s.B * s.B + s.B, window := s.convergence, seed := seed, reseed := true, progress := 0 })

/-- RESYNC_STEP_DONE: a step of the resynchronisation completes: the copy; the MCC take-up, at a frame tick, with the SOLO chip's count and
dither_seed; the convergence window (R435, R446). -/
def execResyncStepDone (peer seed : Nat) (s : State) : Host.Outcome State Fault Refusal :=
  let t := s.twin
  let joins := decide (t.role = .joining)
  if !joins ∧ t.role ≠ .solo then .next s
  else if t.resync = 1 then .next (s.setTwin (fun t => { t with resync := 2 }))
  else if t.resync = 2 ∧ s.mcc % s.B = 2 then
    if !joins then .next (s.windowStart t.seed)
    else if peer % s.B = 2 then .next ((s.takeMcc peer).windowStart seed)
    else .next s
  else if t.resync = 4 ∧ t.joinAt + t.window ≤ s.mcc then
    let l := s.nonconvSlots
    .next (s.setTwin (fun t => { t with nonconv := l, resync := if l.isEmpty then 6 else 5 }))
  else .next s

/-- NONCONV_STATE_COPY: the swapped write copies of one instance are sent by the SOLO chip and received by the joining one (R447). -/
def execNonconvStateCopy (slot : Nat) (x y : List Nat) (s : State) : Host.Outcome State Fault Refusal :=
  if s.twin.resync = 5 ∧ s.twin.nonconv.head? = some slot then
    let rest := s.twin.nonconv.tail
    .next (s.setTwin (fun t => { t with
      nonconv := rest, resync := if rest.isEmpty then 6 else 5
      copied := if t.role = .joining then t.copied ++ [(slot, x, y)] else t.copied }))
  else .next s

/-- R447: a received copy becomes the instance's read copies. -/
def State.installCopy (s : State) (slot : Nat) (x y : List Nat) : State :=
  match s.slotImage slot with
  | none => s
  | some img =>
    let rt := s.slotRt slot
    let l := s.lay slot img
    let e := s.phys rt.engine
    let words := fun (n : Nat) (w : List Nat) => (w.take n).map (toS 48)
    s.setEng e (((s.eng e).putRun false (if rt.second then l.xs1 else l.xs0) (words (imgXs img) x)).putRun true
      (if rt.second then l.ys1 else l.ys0) (words (imgYs img) y))

/-- DITHER_RESEED (R435), and the copies of R447: what a frame tick of a resynchronisation does. -/
def State.joinTick (s : State) : State :=
  let s1 := if s.twin.reseed ∧ s.twin.joinAt + 2 ≤ s.mcc then
      ((s.setTwin (fun t => { t with reseed := false })).seedDither s.twin.seed).seedSprings s.twin.seed else s
  if s1.twin.copied.isEmpty then s1
  else s1.twin.copied.foldl (fun (s : State) (q : Nat × List Nat × List Nat) => s.installCopy q.1 q.2.1 q.2.2)
    (s1.setTwin (fun t => { t with copied := [] }))

/-- JOIN_LIMIT_EXPIRY: no run of 1024 matching blocks within tw.join_limit seconds of j0 (R448). -/
def execJoinLimitExpiry (s : State) : Host.Outcome State Fault Refusal :=
  if 4 ≤ s.twin.resync ∧ s.twin.joinAt + s.at 0x50 0 0x21 * s.fs ≤ s.mcc then .next (s.dropResync.raise .twinInstep 0 0 2) else .next s

end Sys2Proof.Machine
end

