-- ==== Sys2Proof/Machine/Tick.lean ====
section
/-! DEFINITION. Sys2Proof/Machine/Tick.lean: the frame tick (R24–R29): every stage of the block audio path takes its next block. -/
namespace Sys2Proof.Machine

/-- Whether the block audio path runs: in QUIET and RUN, and in BOOT once the port set-up is in force. -/
def State.pathOn (s : State) : Bool :=
  s.live || (decide (s.dev = .boot) && (decide (s.boot.stage = 0x07) || decide (s.boot.stage = 0x08)))

/-- R25, R27: what the strips take from stamp b on lies in the alignment buffers: ports, converters, decimators, streams, the
microphone. -/
def State.fillInputs (b : Nat) (s : State) : State :=
  let e := b + s.B
  let s1 := (List.range 16).foldl (fun (s : State) p => s.sapIdle p false e) s
  let s2 := (List.range 8).foldl (fun (s : State) p => (s.madiIdle p e).madiStopped p false) s1
  let s3 := (s2.conv.src.map (·.1)).foldl (fun (s : State) i => s.srcAdvance i e) s2
  let s4 := (s3.net.rx.map (·.1)).foldl (fun (s : State) i => s.rxBlock i b) s3
  (s4.decUsed.foldl (fun (s : State) i => s.decAdvance i e) s4).micAdvance e

/-- Whether this sample is a frame tick whose block has not been taken: MCC kB + 2 (R24). -/
def State.atFrameTick (s : State) : Bool :=
  s.pathOn && decide (s.mcc % s.B = 2) && decide (s.B + 2 ≤ s.mcc) && decide (s.audio.taken ≤ s.mcc - s.B - 2)

/-- What comes before the stages at a frame tick: forwarded changes, withdrawals, takeover of the lead, the resynchronisation, spare Mere
lanes. -/
def State.tickFirst (s : State) : State := (s.forwardDue.leaveTick.leadTick.joinTick).mereRetire

/-- FRAME_TICK: every stage of the block audio path takes its next block (R24–R29), and SUMMARY is answered (R326). -/
def execFrameTick (s : State) : Host.Outcome State Fault Refusal :=
  if s.atFrameTick then
    let s1 := (s.tickFirst.pathTick State.fillInputs (s.mcc / s.B)).phonesAdvance s.mcc
    .next ((s1.digestTick s.mcc).mirrorTick).answerSummaries
  else .next s

/-- One engine sample passes: the NET ports send (R254), forwarded changes whose MCC has come are applied (R433), a removed plug's fade ends
(R234), and a boot goes on with the order that follows by itself (R348). -/
def passSample (s : State) : State := ((((tick s).netSend s.net.phc.t).forwardDue).hspGone).bootReady

end Sys2Proof.Machine
end

