-- ==== Sys2Proof/Machine/Dispatch.lean ====
section
/-! DEFINITION. Sys2Proof/Machine/Dispatch.lean: one arm per command. -/
namespace Sys2Proof.Machine

def exec (i : Instr) (s : State) : Host.Outcome State Fault Refusal :=
  match i with
  | .powerOnStandbySet => Sys2Proof.Machine.execPowerOnStandbySet s
  | .mainRailsInRange => Sys2Proof.Machine.execMainRailsInRange s
  | .mainRailOutOfRange => Sys2Proof.Machine.execMainRailOutOfRange s
  | .standbySetLost => Sys2Proof.Machine.execStandbySetLost s
  | .resetNLow => Sys2Proof.Machine.execResetNLow s
  | .resetNRise straps => Sys2Proof.Machine.execResetNRise straps s
  | .imageHeaderRead header => Sys2Proof.Machine.execImageHeaderRead header s
  | .imageSectionsRead sections => Sys2Proof.Machine.execImageSectionsRead sections s
  | .dramTrainingDone ok => Sys2Proof.Machine.execDramTrainingDone ok s
  | .pcieImageChunk bytes => Sys2Proof.Machine.execPcieImageChunk bytes s
  | .twinImageReceived bytes => Sys2Proof.Machine.execTwinImageReceived bytes s
  | .twinImageSend => Sys2Proof.Machine.execTwinImageSend s
  | .startSceneCommit => Sys2Proof.Machine.execStartSceneCommit s
  | .enterQuiet => Sys2Proof.Machine.execEnterQuiet s
  | .twinFirstRoleTimeout => Sys2Proof.Machine.execTwinFirstRoleTimeout s
  | .enterRun => Sys2Proof.Machine.execEnterRun s
  | .runTimeout => Sys2Proof.Machine.execRunTimeout s
  | .stbyNLowHeld => Sys2Proof.Machine.execStbyNLowHeld s
  | .enterStandby bound => Sys2Proof.Machine.execEnterStandby bound s
  | .stbyNHighWake straps => Sys2Proof.Machine.execStbyNHighWake straps s
  | .profileReconfigDone => Sys2Proof.Machine.execProfileReconfigDone s
  | .frameTick => Sys2Proof.Machine.execFrameTick s
  | .patchRevert n => Sys2Proof.Machine.execPatchRevert n s
  | .commitApplied id => Sys2Proof.Machine.execCommitApplied id s
  | .pdSwitchDone d => Sys2Proof.Machine.execPdSwitchDone d s
  | .zcStep h n => Sys2Proof.Machine.execZcStep h n s
  | .zcTimeout h n => Sys2Proof.Machine.execZcTimeout h n s
  | .zcRampEnd h n => Sys2Proof.Machine.execZcRampEnd h n s
  | .xfadeEnd h n => Sys2Proof.Machine.execXfadeEnd h n s
  | .nodeGroupZeroCrossing g n => Sys2Proof.Machine.execNodeGroupZeroCrossing g n s
  | .nodeGroupTimeout g n => Sys2Proof.Machine.execNodeGroupTimeout g n s
  | .nodeRampEnd g n => Sys2Proof.Machine.execNodeRampEnd g n s
  | .tapHandoverSwitch d sIx n => Sys2Proof.Machine.execTapHandoverSwitch d sIx n s
  | .mereSegmentDetection lane fits => Sys2Proof.Machine.execMereSegmentDetection lane fits s
  | .nodeCorrected d sIx => Sys2Proof.Machine.execNodeCorrected d sIx s
  | .nodeRestored d sIx field => Sys2Proof.Machine.execNodeRestored d sIx field s
  | .mereScrubPass nodes tables => Sys2Proof.Machine.execMereScrubPass nodes tables s
  | .checkDone => Sys2Proof.Machine.execCheckDone s
  | .planeReady => Sys2Proof.Machine.execPlaneReady s
  | .commitScheduled id => Sys2Proof.Machine.execCommitScheduled id s
  | .cfBankWrite h => Sys2Proof.Machine.execCfBankWrite h s
  | .cueFired list => Sys2Proof.Machine.execCueFired list s
  | .sceneSaveDone => Sys2Proof.Machine.execSceneSaveDone s
  | .sceneReadDone id => Sys2Proof.Machine.execSceneReadDone id s
  | .springPeriod detections => Sys2Proof.Machine.execSpringPeriod detections s
  | .springSourceHandover m iIx => Sys2Proof.Machine.execSpringSourceHandover m iIx s
  | .springOutputHandover m ref => Sys2Proof.Machine.execSpringOutputHandover m ref s
  | .springSourceClockLoss ref => Sys2Proof.Machine.execSpringSourceClockLoss ref s
  | .springOutputClockReturn ref => Sys2Proof.Machine.execSpringOutputClockReturn ref s
  | .springUnitRetire unit => Sys2Proof.Machine.execSpringUnitRetire unit s
  | .dispatchInterrupt e => Sys2Proof.Machine.execDispatchInterrupt e s
  | .dispatchReturn e => Sys2Proof.Machine.execDispatchReturn e s
  | .serviceInterrupt e debug => Sys2Proof.Machine.execServiceInterrupt e debug s
  | .taskOverrun e => Sys2Proof.Machine.execTaskOverrun e s
  | .illegalInstruction e => Sys2Proof.Machine.execIllegalInstruction e s
  | .nop e => Sys2Proof.Machine.execNop e s
  | .add e f => Sys2Proof.Machine.execAdd e f s
  | .sub e f => Sys2Proof.Machine.execSub e f s
  | .neg e f => Sys2Proof.Machine.execNeg e f s
  | .abs e f => Sys2Proof.Machine.execAbs e f s
  | .andOp e f => Sys2Proof.Machine.execAndOp e f s
  | .orOp e f => Sys2Proof.Machine.execOrOp e f s
  | .xorOp e f => Sys2Proof.Machine.execXorOp e f s
  | .notOp e f => Sys2Proof.Machine.execNotOp e f s
  | .asl e f => Sys2Proof.Machine.execAsl e f s
  | .asr e f => Sys2Proof.Machine.execAsr e f s
  | .lsr e f => Sys2Proof.Machine.execLsr e f s
  | .minOp e f => Sys2Proof.Machine.execMinOp e f s
  | .maxOp e f => Sys2Proof.Machine.execMaxOp e f s
  | .cmp e f => Sys2Proof.Machine.execCmp e f s
  | .tst e f => Sys2Proof.Machine.execTst e f s
  | .clr e f => Sys2Proof.Machine.execClr e f s
  | .rnd e f => Sys2Proof.Machine.execRnd e f s
  | .sat e f => Sys2Proof.Machine.execSat e f s
  | .mac e f => Sys2Proof.Machine.execMac e f s
  | .msu e f => Sys2Proof.Machine.execMsu e f s
  | .mpy e f => Sys2Proof.Machine.execMpy e f s
  | .move e dst src => Sys2Proof.Machine.execMove e dst src s
  | .loadStore e f => Sys2Proof.Machine.execLoadStore e f s
  | .aguOperation e f => Sys2Proof.Machine.execAguOperation e f s
  | .shortImmediate e d imm => Sys2Proof.Machine.execShortImmediate e d imm s
  | .longImmediate e reg imm => Sys2Proof.Machine.execLongImmediate e reg imm s
  | .branch e c target => Sys2Proof.Machine.execBranch e c target s
  | .call e c target => Sys2Proof.Machine.execCall e c target s
  | .ret e c => Sys2Proof.Machine.execRet e c s
  | .endTask e c => Sys2Proof.Machine.execEndTask e c s
  | .rep e count => Sys2Proof.Machine.execRep e count s
  | .loop e count le => Sys2Proof.Machine.execLoop e count le s
  | .endl e => Sys2Proof.Machine.execEndl e s
  | .lpush e => Sys2Proof.Machine.execLpush e s
  | .lpop e => Sys2Proof.Machine.execLpop e s
  | .log2 e dst src => Sys2Proof.Machine.execLog2 e dst src s
  | .exp2 e dst src => Sys2Proof.Machine.execExp2 e dst src s
  | .recip e dst src => Sys2Proof.Machine.execRecip e dst src s
  | .rsqrt e dst src => Sys2Proof.Machine.execRsqrt e dst src s
  | .tarnDetection e cause addr again fits => Sys2Proof.Machine.execTarnDetection e cause addr again fits s
  | .tarnRetire e => Sys2Proof.Machine.execTarnRetire e s
  | .spareSelfTestPass ok => Sys2Proof.Machine.execSpareSelfTestPass ok s
  | .tarnScrubPass => Sys2Proof.Machine.execTarnScrubPass s
  | .poisonedBlockRead buffer key index => Sys2Proof.Machine.execPoisonedBlockRead buffer key index s
  | .ccRollback addr => Sys2Proof.Machine.execCcRollback addr s
  | .ccCheckpoint => Sys2Proof.Machine.execCcCheckpoint s
  | .ccRestart cause => Sys2Proof.Machine.execCcRestart cause s
  | .ccWatchdogExpiry => Sys2Proof.Machine.execCcWatchdogExpiry s
  | .ccRestartDone => Sys2Proof.Machine.execCcRestartDone s
  | .droopReport mere => Sys2Proof.Machine.execDroopReport mere s
  | .throttleStep mere => Sys2Proof.Machine.execThrottleStep mere s
  | .tempWarn celsius => Sys2Proof.Machine.execTempWarn celsius s
  | .maintRequest r code target noWait => Sys2Proof.Machine.execMaintRequest r code target noWait s
  | .maintStatus r => Sys2Proof.Machine.execMaintStatus r s
  | .maintGrant => Sys2Proof.Machine.execMaintGrant s
  | .maintActivityEnd ok => Sys2Proof.Machine.execMaintActivityEnd ok s
  | .sapFrame port tx words phase period bclks => Sys2Proof.Machine.execSapFrame port tx words phase period bclks s
  | .sapClockStop port tx idle => Sys2Proof.Machine.execSapClockStop port tx idle s
  | .sapRateMeasured port tx period bclks => Sys2Proof.Machine.execSapRateMeasured port tx period bclks s
  | .sapStopDone port tx => Sys2Proof.Machine.execSapStopDone port tx s
  | .sapMaskShadowWrite port tx => Sys2Proof.Machine.execSapMaskShadowWrite port tx s
  | .sapLayout port tx => Sys2Proof.Machine.execSapLayout port tx s
  | .madiFrame port tx subframes violations period => Sys2Proof.Machine.execMadiFrame port tx subframes violations period s
  | .madiLock port period => Sys2Proof.Machine.execMadiLock port period s
  | .madiStop port idle => Sys2Proof.Machine.execMadiStop port idle s
  | .hspInsertion => Sys2Proof.Machine.execHspInsertion s
  | .hspPlug tip ring1 ring2 sleeve => Sys2Proof.Machine.execHspPlug tip ring1 ring2 sleeve s
  | .hspButtonDown => Sys2Proof.Machine.execHspButtonDown s
  | .hspButtonPress mv => Sys2Proof.Machine.execHspButtonPress mv s
  | .hspButtonRepeat => Sys2Proof.Machine.execHspButtonRepeat s
  | .hspButtonRelease => Sys2Proof.Machine.execHspButtonRelease s
  | .hspUnplug => Sys2Proof.Machine.execHspUnplug s
  | .hspMicGainStep => Sys2Proof.Machine.execHspMicGainStep s
  | .srcLock iIx ratio => Sys2Proof.Machine.execSrcLock iIx ratio s
  | .srcUnlock iIx outOfRange => Sys2Proof.Machine.execSrcUnlock iIx outOfRange s
  | .decInputSwitch iIx => Sys2Proof.Machine.execDecInputSwitch iIx s
  | .decSilenceEnd iIx => Sys2Proof.Machine.execDecSilenceEnd iIx s
  | .decsync r w => Sys2Proof.Machine.execDecsync r w s
  | .decsyncFadeStart => Sys2Proof.Machine.execDecsyncFadeStart s
  | .decsyncReset => Sys2Proof.Machine.execDecsyncReset s
  | .decsyncPinEdge => Sys2Proof.Machine.execDecsyncPinEdge s
  | .decsyncHoldEnd => Sys2Proof.Machine.execDecsyncHoldEnd s
  | .netLinkDown n => Sys2Proof.Machine.execNetLinkDown n s
  | .netLinkUp n => Sys2Proof.Machine.execNetLinkUp n s
  | .netFrameReceive n frame stamp => Sys2Proof.Machine.execNetFrameReceive n frame stamp s
  | .ptpOffsetMeasurement offset leader => Sys2Proof.Machine.execPtpOffsetMeasurement offset leader s
  | .announceTimeout => Sys2Proof.Machine.execAnnounceTimeout s
  | .phcTimerPulse iIx => Sys2Proof.Machine.execPhcTimerPulse iIx s
  | .phcCapture iIx rising => Sys2Proof.Machine.execPhcCapture iIx rising s
  | .mccRenumber => Sys2Proof.Machine.execMccRenumber s
  | .mccUnaligned edge => Sys2Proof.Machine.execMccUnaligned edge s
  | .mccRealigned edge => Sys2Proof.Machine.execMccRealigned edge s
  | .streamPacketReceive sIx leg seq ts ns payload => Sys2Proof.Machine.execStreamPacketReceive sIx leg seq ts ns payload s
  | .streamLegMiss sIx leg seq => Sys2Proof.Machine.execStreamLegMiss sIx leg seq s
  | .streamPacketTransmit sIx => Sys2Proof.Machine.execStreamPacketTransmit sIx s
  | .streamTxStopDone sIx => Sys2Proof.Machine.execStreamTxStopDone sIx s
  | .streamRxRelease sIx => Sys2Proof.Machine.execStreamRxRelease sIx s
  | .refLost k => Sys2Proof.Machine.execRefLost k s
  | .refEvaluation meas => Sys2Proof.Machine.execRefEvaluation meas s
  | .ckuLock => Sys2Proof.Machine.execCkuLock s
  | .ckuBwStep => Sys2Proof.Machine.execCkuBwStep s
  | .ckuUnlock => Sys2Proof.Machine.execCkuUnlock s
  | .ckuGlide => Sys2Proof.Machine.execCkuGlide s
  | .ckuFreerun => Sys2Proof.Machine.execCkuFreerun s
  | .ref4SlewDone edge => Sys2Proof.Machine.execRef4SlewDone edge s
  | .ckuSteer r target => Sys2Proof.Machine.execCkuSteer r target s
  | .ckuCalibrate r => Sys2Proof.Machine.execCkuCalibrate r s
  | .ckuCalDone value => Sys2Proof.Machine.execCkuCalDone value s
  | .clkoutFreqChange k => Sys2Proof.Machine.execClkoutFreqChange k s
  | .vcpFragment o bytes => Sys2Proof.Machine.execVcpFragment o bytes s
  | .reassemblyTimeout o sid seq => Sys2Proof.Machine.execReassemblyTimeout o sid seq s
  | .authBlockExpiry o => Sys2Proof.Machine.execAuthBlockExpiry o s
  | .sessionOpen o seq cred role options nonce keepalive => Sys2Proof.Machine.execSessionOpen o seq cred role options nonce keepalive s
  | .sessionClose r => Sys2Proof.Machine.execSessionClose r s
  | .keepaliveExpiry sid => Sys2Proof.Machine.execKeepaliveExpiry sid s
  | .pcieLinkReset => Sys2Proof.Machine.execPcieLinkReset s
  | .ping r => Sys2Proof.Machine.execPing r s
  | .summary r => Sys2Proof.Machine.execSummary r s
  | .partitionClaim r mask force => Sys2Proof.Machine.execPartitionClaim r mask force s
  | .partitionRelease r mask => Sys2Proof.Machine.execPartitionRelease r mask s
  | .stageOpen r attrs => Sys2Proof.Machine.execStageOpen r attrs s
  | .stageAdd r id entries => Sys2Proof.Machine.execStageAdd r id entries s
  | .stageRow r id nodes => Sys2Proof.Machine.execStageRow r id nodes s
  | .stageColumn r id nodes => Sys2Proof.Machine.execStageColumn r id nodes s
  | .stageRect r id nodes => Sys2Proof.Machine.execStageRect r id nodes s
  | .stageFill r id nodes => Sys2Proof.Machine.execStageFill r id nodes s
  | .stageRemove r id handles => Sys2Proof.Machine.execStageRemove r id handles s
  | .stageCheck r id => Sys2Proof.Machine.execStageCheck r id s
  | .stageCosign r id digest mac => Sys2Proof.Machine.execStageCosign r id digest mac s
  | .commit r id w => Sys2Proof.Machine.execCommit r id w s
  | .stageCancel r id => Sys2Proof.Machine.execStageCancel r id s
  | .stageDiscard r id => Sys2Proof.Machine.execStageDiscard r id s
  | .stageReport r id => Sys2Proof.Machine.execStageReport r id s
  | .pan r id src left right law pos level => Sys2Proof.Machine.execPan r id src left right law pos level s
  | .sceneSave r part scene label => Sys2Proof.Machine.execSceneSave r part scene label s
  | .sceneRecall r id scene scope => Sys2Proof.Machine.execSceneRecall r id scene scope s
  | .sceneList r start => Sys2Proof.Machine.execSceneList r start s
  | .sceneDelete r scene => Sys2Proof.Machine.execSceneDelete r scene s
  | .cueLoad r list cues => Sys2Proof.Machine.execCueLoad r list cues s
  | .cueArm r list => Sys2Proof.Machine.execCueArm r list s
  | .cueDisarm r list => Sys2Proof.Machine.execCueDisarm r list s
  | .cueRead r list => Sys2Proof.Machine.execCueRead r list s
  | .paramRead r handles => Sys2Proof.Machine.execParamRead r handles s
  | .matrixRead r d sIx nd ns start => Sys2Proof.Machine.execMatrixRead r d sIx nd ns start s
  | .latencyRead r outs => Sys2Proof.Machine.execLatencyRead r outs s
  | .counterRead r ids => Sys2Proof.Machine.execCounterRead r ids s
  | .meterSubscribe r points => Sys2Proof.Machine.execMeterSubscribe r points s
  | .meterPeriodEnd part => Sys2Proof.Machine.execMeterPeriodEnd part s
  | .streamSdp r sIx sdp => Sys2Proof.Machine.execStreamSdp r sIx sdp s
  | .eventRead r start => Sys2Proof.Machine.execEventRead r start s
  | .eventAck r upTo => Sys2Proof.Machine.execEventAck r upTo s
  | .eventMask r mask interval => Sys2Proof.Machine.execEventMask r mask interval s
  | .eventDetail r index => Sys2Proof.Machine.execEventDetail r index s
  | .deliveryIntervalEnd sid => Sys2Proof.Machine.execDeliveryIntervalEnd sid s
  | .phcSet r sec ns => Sys2Proof.Machine.execPhcSet r sec ns s
  | .mccAlign r => Sys2Proof.Machine.execMccAlign r s
  | .moduleLoad r image => Sys2Proof.Machine.execModuleLoad r image s
  | .moduleList r => Sys2Proof.Machine.execModuleList r s
  | .fwWrite r slot offset bytes => Sys2Proof.Machine.execFwWrite r slot offset bytes s
  | .fwSwitch r slot noWait => Sys2Proof.Machine.execFwSwitch r slot noWait s
  | .twinSwap r w => Sys2Proof.Machine.execTwinSwap r w s
  | .credProvision r blob => Sys2Proof.Machine.execCredProvision r blob s
  | .lifecycleSet r target blob => Sys2Proof.Machine.execLifecycleSet r target blob s
  | .keyInfo r => Sys2Proof.Machine.execKeyInfo r s
  | .unknownCommand r code => Sys2Proof.Machine.execUnknownCommand r code s
  | .secVersionFloorRaise => Sys2Proof.Machine.execSecVersionFloorRaise s
  | .tamperTrip source => Sys2Proof.Machine.execTamperTrip source s
  | .sbWiped => Sys2Proof.Machine.execSbWiped s
  | .mbxReqWrite c len => Sys2Proof.Machine.execMbxReqWrite c len s
  | .mbxReply c => Sys2Proof.Machine.execMbxReply c s
  | .mbxEvrWrite c value => Sys2Proof.Machine.execMbxEvrWrite c value s
  | .evStatClear k mask => Sys2Proof.Machine.execEvStatClear k mask s
  | .mccLoRead => Sys2Proof.Machine.execMccLoRead s
  | .genLoRead => Sys2Proof.Machine.execGenLoRead s
  | .registerWrite offset value => Sys2Proof.Machine.execRegisterWrite offset value s
  | .spiRegisterWrite offset words => Sys2Proof.Machine.execSpiRegisterWrite offset words s
  | .spiRegisterRead offset n => Sys2Proof.Machine.execSpiRegisterRead offset n s
  | .spiMailboxWrite addr bytes => Sys2Proof.Machine.execSpiMailboxWrite addr bytes s
  | .spiMailboxRead addr n => Sys2Proof.Machine.execSpiMailboxRead addr n s
  | .fabricGrant target cycle arrivals => Sys2Proof.Machine.execFabricGrant target cycle arrivals s
  | .qosPromotion target cycle => Sys2Proof.Machine.execQosPromotion target cycle s
  | .masterResetDrain m => Sys2Proof.Machine.execMasterResetDrain m s
  | .poolScrubPass found => Sys2Proof.Machine.execPoolScrubPass found s
  | .dramPatrolPass found => Sys2Proof.Machine.execDramPatrolPass found s
  | .mstoreCorrected addr => Sys2Proof.Machine.execMstoreCorrected addr s
  | .mstoreScrubPass found => Sys2Proof.Machine.execMstoreScrubPass found s
  | .eventCountPublish x arrivals reflect take => Sys2Proof.Machine.execEventCountPublish x arrivals reflect take s
  | .crossingClockStopped x far => Sys2Proof.Machine.execCrossingClockStopped x far s
  | .crossingResetIndication x => Sys2Proof.Machine.execCrossingResetIndication x s
  | .resetGroupRequest g => Sys2Proof.Machine.execResetGroupRequest g s
  | .peerAliveStopped => Sys2Proof.Machine.execPeerAliveStopped s
  | .amclkStopRelease => Sys2Proof.Machine.execAmclkStopRelease s
  | .leaseRenewal n => Sys2Proof.Machine.execLeaseRenewal n s
  | .leaseAck n => Sys2Proof.Machine.execLeaseAck n s
  | .leaseFence => Sys2Proof.Machine.execLeaseFence s
  | .leaseGuardExpiry => Sys2Proof.Machine.execLeaseGuardExpiry s
  | .twinHeartbeat twl hb => Sys2Proof.Machine.execTwinHeartbeat twl hb s
  | .twinPathDown twl => Sys2Proof.Machine.execTwinPathDown twl s
  | .inputRecord tick items => Sys2Proof.Machine.execInputRecord tick items s
  | .inputRecordMissing => Sys2Proof.Machine.execInputRecordMissing s
  | .edgeOffsetExceeded offset => Sys2Proof.Machine.execEdgeOffsetExceeded offset s
  | .twinForward m f => Sys2Proof.Machine.execTwinForward m f s
  | .twinHandover h => Sys2Proof.Machine.execTwinHandover h s
  | .twinSwapAtH => Sys2Proof.Machine.execTwinSwapAtH s
  | .resyncStepDone mcc seed => Sys2Proof.Machine.execResyncStepDone mcc seed s
  | .nonconvStateCopy slot x y => Sys2Proof.Machine.execNonconvStateCopy slot x y s
  | .joinLimitExpiry => Sys2Proof.Machine.execJoinLimitExpiry s
  | .legacyWrite addr word => Sys2Proof.Machine.execLegacyWrite addr word s
  | .legacyRead addr => Sys2Proof.Machine.execLegacyRead addr s
  | .legacyBurstWrite addr words cut => Sys2Proof.Machine.execLegacyBurstWrite addr words cut s
  | .legacyBurstRead addr n => Sys2Proof.Machine.execLegacyBurstRead addr n s
  | .legacyParamWrite addr word => Sys2Proof.Machine.execLegacyParamWrite addr word s
  | .load => Sys2Proof.Machine.execLoad s
  | .loadLatch => Sys2Proof.Machine.execLoadLatch s
  | .softReset => Sys2Proof.Machine.execSoftReset s
  | .legacyRateWrite rate => Sys2Proof.Machine.execLegacyRateWrite rate s
  | .legacyStatusClear mask => Sys2Proof.Machine.execLegacyStatusClear mask s
  | .tamperSourceCleared source => Sys2Proof.Machine.execTamperSourceCleared source s
  | .processingPllLossOfLock => Sys2Proof.Machine.execProcessingPllLossOfLock s
  | .inputRecordClose => Sys2Proof.Machine.execInputRecordClose s

end Sys2Proof.Machine
end

