-- ==== Sys2Proof/WellFormed.lean ====
section
/-! DEFINITION. Sys2Proof/WellFormed.lean: which commands can occur: every operand fits the field, the wire or the pin that carries it.
The meanings are total and answer for ill-formed commands too; nothing asks for a well-formed one. -/
namespace Sys2Proof

open Machine

/-! ### Checks of operands -/

/-- A number below a bound. -/
def below (bound n : Nat) : Bool := decide (n < bound)
/-- A 32-bit word. -/
def okWord (n : Nat) : Bool := below (2 ^ 32) n
/-- A signed 64-bit number. -/
def okInt (n : Int) : Bool := decide (-2 ^ 63 ≤ n) && decide (n < 2 ^ 63)
/-- Bytes. -/
def okBytes (l : List Nat) : Bool := l.all (below 256)
/-- 32-bit words. -/
def okWords (l : List Nat) : Bool := l.all okWord
/-- What an optional operand holds. -/
def okOpt {α : Type} (f : α → Bool) : Option α → Bool
  | none => true
  | some x => f x

/-- Two-bit MODE and BOOT straps (R337). -/
def okStraps (x : Straps) : Bool := below 4 x.mode && below 4 x.boot
/-- Session numbers 1…8 and 32-bit sequence numbers (R304, R314). -/
def okReq (r : Req) : Bool := decide (1 ≤ r.sid) && below 9 r.sid && okWord r.seq
/-- An MCC value has 64 bits. -/
def okWhen : When → Bool
  | .next => true
  | .mcc c => below (2 ^ 64) c
/-- Form lengths of 16 bits; a label of bytes (R307). -/
def okAttrs (a : Attrs) : Bool := below 65536 a.cfLen && below 65536 a.dxLen && okBytes a.label
/-- A handle and a value of 32 bits (R108). -/
def okEntry (e : Entry) : Bool := okWord e.h && okWord e.v
/-- The fields of a frame's headers. -/
def okFrame (f : NetFrame) : Bool :=
  below 65536 f.len && below 65536 f.etype && below 256 f.proto && okWord f.src && okWord f.dst && below 65536 f.udp && below 256 f.msg
/-- A NODES item (R308). -/
def okNodes (n : Nodes) : Bool :=
  below 256 n.form && below 65536 n.dest && below 65536 n.src && below 65536 n.nd && below 65536 n.ns
  && n.data.all (fun q => okWord q.1 && below 256 q.2)
/-- A cue (R131). -/
def okCue (c : Cue) : Bool :=
  (match c.what with
   | .scene id scope => below 65536 id && below 65536 scope
   | .set id => below 65536 id) &&
  (match c.time with
   | .mcc m => below (2 ^ 64) m
   | .phc sec ns => below (2 ^ 64) sec && okWord ns)
/-- A UDP address and port, or a mailbox channel. -/
def okOrigin : Origin → Bool
  | .udp a p => okWord a && below 65536 p
  | .mbx c => below 8 c
/-- A fabric transaction (R368–R372): M22's beats are 128 bits wide, all others 256. -/
def okTxn (x : Txn) : Bool :=
  let wide := if x.master = 22 then 16 else 32
  below 24 x.master && below 256 x.unit && below 16 x.qos && below (2 ^ 40) x.addr && x.beats.all (below (256 ^ wide)) &&
    x.enables.all (below (2 ^ wide)) && below 3 x.parity
/-- A reset request (R394, R395). -/
def okReset : ResetName → Bool
  | .tarn n => below 17 n
  | .mere => true
  | .net => true
  | .twin => true
  | .lone x => below 65536 x
  | .part g => below 65536 g
/-- A pool bank below 32 (R378), a DRAM address of 40 bits (R369). -/
def okFound : MemFault → Bool
  | .poolMirrored b => below 32 b
  | .poolBoth b => below 32 b
  | .poolPlain b => below 32 b
  | .dramCorrected a => below (2 ^ 40) a
  | .dramDouble a => below (2 ^ 40) a
  | .dramRetry _ => true
/-- A heartbeat: roles 0…4, 32 digests or none (R437, R439). -/
def okHeartbeat (h : Heartbeat) : Bool :=
  below 5 h.role && below (2 ^ 64) h.mcc && below (2 ^ 64) h.gen && okWord h.fault && okWords h.digests
/-- One item of an input record (R431). -/
def okItem : InItem → Bool
  | .sapLoss p d c f => below 16 p && below 2 d && okWord c && okWord f
  | .sapResume p d _ f => below 16 p && below 2 d && okWord f
  | .madiLoss p c f => below 8 p && okWord c && okWord f
  | .madiResume p _ f => below 8 p && okWord f
  | .sapSlip p d _ => below 16 p && below 2 d
  | .madiRepeat p k n => below 8 p && below 64 k && below (2 ^ 64) n
  | .ratio i w => below 1024 i && okWord w
  | .packet s l q t d => below 256 s && below 2 l && below 65536 q && okWord t && okBytes d
  | .decsync c => below (2 ^ 64) c
  | .mic l => l.all (below (2 ^ 48))
  | .hsp t b => below 5 t && below 8 b
/-- A forwarded change: its numbers (R433, R436). -/
def okFwd : Fwd → Bool
  | .stage i a _ => below 65536 i && okAttrs a
  | .cosign i p => below 65536 i && below 16 p
  | .commit i c => below 65536 i && below (2 ^ 64) c
  | .cancel i => below 65536 i
  | .own p i => below 16 p && below 9 i
  | .decsync c => below (2 ^ 64) c
  | .mccAlign => true
  | .phcSet s n => below (2 ^ 48) s && okWord n
  | .legacy a v => below 65536 a && below (2 ^ 24) v
  | .mstore a d => below (2 ^ 25) a && okBytes d
  | .moduleLoad b => okBytes b
  | .cueLoad l c => below 16 l && c.all okCue
  | .cueArm l => below 16 l
  | .cueDisarm l => below 16 l
  | .session x => below 9 x.sid
  | .sessionEnd i => below 9 i
  | .swap h => below (2 ^ 64) h
  | .config es _ g => es.all okEntry && below (2 ^ 64) g

/-! ### Operands of Tarn instructions (R170, R173) -/

/-- A parallel move: register codes 0…11, modes 0b000…0b100. -/
def okMove (m : PMove) : Bool := below 12 m.reg && below 8 m.an && below 5 m.mode
/-- Two moves that do not name one address register (R170). -/
def okMoves (m : Moves) : Bool :=
  okOpt okMove m.x && okOpt okMove m.y && (match m.x, m.y with
    | some a, some b => decide (a.an ≠ b.an)
    | _, _ => true)
/-- ALU operands. -/
def okAlu (f : AluF) : Bool := below 12 f.dst && below 12 f.src1 && below 12 f.src2 && below 64 f.shift && okOpt okMoves f.mv
/-- MAC operands; a quad-MAC has no dx and dy. -/
def okMac (f : MacF) : Bool :=
  below 4 f.acc && (if f.quad then decide (f.dx = 0) && decide (f.dy = 0) else below 8 f.dx && below 8 f.dy) && okOpt okMoves f.mv
/-- Load and store operands; only modes 0b101 and 0b110 have an address field. -/
def okLdSt (f : LdSt) : Bool :=
  below 32 f.reg && below 8 f.an && below 7 f.mode && below 32768 f.addr && (decide (5 ≤ f.mode) || decide (f.addr = 0))
/-- AGU operands; post-modify takes A only, moves have no immediate. -/
def okAgu (f : AguF) : Bool :=
  below 4 f.op && below 4 f.kind && below 8 f.index && below 8 f.d && below 65536 f.imm
  && (decide (f.op ≠ 1) || decide (f.kind = 0)) && (below 2 f.op || decide (f.imm = 0))
/-- A count: 1 to the largest immediate, or a D register. -/
def okCount (top : Nat) : Count → Bool
  | .imm n => decide (1 ≤ n) && decide (n ≤ top)
  | .reg d => below 8 d

/-! ### Commands -/

/-- Whether a command can occur. -/
def Instr.wf : Instr → Bool
  | .powerOnStandbySet => true
  | .mainRailsInRange => true
  | .mainRailOutOfRange => true
  | .standbySetLost => true
  | .resetNLow => true
  | .resetNRise straps => okStraps straps
  | .imageHeaderRead header => okOpt okBytes header
  | .imageSectionsRead sections => sections.all okBytes
  | .dramTrainingDone _ => true
  | .pcieImageChunk bytes => okBytes bytes
  | .twinImageReceived bytes => okOpt okBytes bytes
  | .twinImageSend => true
  | .startSceneCommit => true
  | .enterQuiet => true
  | .twinFirstRoleTimeout => true
  | .enterRun => true
  | .runTimeout => true
  | .stbyNLowHeld => true
  | .enterStandby _ => true
  | .stbyNHighWake straps => okStraps straps
  | .profileReconfigDone => true
  | .frameTick => true
  | .patchRevert n => below 1024 n
  | .commitApplied id => okWord id
  | .pdSwitchDone d => below 12 d
  | .zcStep h n => okWord h && below (2 ^ 64) n
  | .zcTimeout h n => okWord h && below (2 ^ 64) n
  | .zcRampEnd h n => okWord h && below (2 ^ 64) n
  | .xfadeEnd h n => okWord h && below (2 ^ 64) n
  | .nodeGroupZeroCrossing g n => below 16384 g && below (2 ^ 64) n
  | .nodeGroupTimeout g n => below 16384 g && below (2 ^ 64) n
  | .nodeRampEnd g n => below 16384 g && below (2 ^ 64) n
  | .tapHandoverSwitch d s n => below 4096 d && below 4096 s && below (2 ^ 64) n
  | .mereSegmentDetection lane _ => below 256 lane
  | .nodeCorrected d s => below 4096 d && below 4096 s
  | .nodeRestored d s field => below 4096 d && below 4096 s && below 4 field
  | .mereScrubPass nodes tables => nodes.all (below (4096 * 4096)) && below 262145 tables
  | .checkDone => true
  | .planeReady => true
  | .commitScheduled id => okWord id
  | .cfBankWrite h => okWord h
  | .cueFired list => below 16 list
  | .sceneSaveDone => true
  | .sceneReadDone id => okWord id
  | .springPeriod detections => detections.all (fun q => below (2 ^ 32) q.1)
  | .springSourceHandover m i => below 16 m && below 64 i
  | .springOutputHandover m ref => below 16 m && okWord ref
  | .springSourceClockLoss ref => okWord ref
  | .springOutputClockReturn ref => okWord ref
  | .springUnitRetire unit => below 16 unit
  | .dispatchInterrupt e => below 17 e
  | .dispatchReturn e => below 17 e
  | .serviceInterrupt e _ => below 17 e
  | .taskOverrun e => below 17 e
  | .illegalInstruction e => below 17 e
  | .nop e => below 17 e
  | .add e f => below 17 e && okAlu f
  | .sub e f => below 17 e && okAlu f
  | .neg e f => below 17 e && okAlu f
  | .abs e f => below 17 e && okAlu f
  | .andOp e f => below 17 e && okAlu f
  | .orOp e f => below 17 e && okAlu f
  | .xorOp e f => below 17 e && okAlu f
  | .notOp e f => below 17 e && okAlu f
  | .asl e f => below 17 e && okAlu f
  | .asr e f => below 17 e && okAlu f
  | .lsr e f => below 17 e && okAlu f
  | .minOp e f => below 17 e && okAlu f
  | .maxOp e f => below 17 e && okAlu f
  | .cmp e f => below 17 e && okAlu f
  | .tst e f => below 17 e && okAlu f
  | .clr e f => below 17 e && okAlu f
  | .rnd e f => below 17 e && okAlu f
  | .sat e f => below 17 e && okAlu f
  | .mac e f => below 17 e && okMac f
  | .msu e f => below 17 e && okMac f
  | .mpy e f => below 17 e && okMac f
  | .move e dst src => below 17 e && below 32 dst && below 32 src
  | .loadStore e f => below 17 e && okLdSt f
  | .aguOperation e f => below 17 e && okAgu f
  | .shortImmediate e d imm => below 17 e && below 8 d && below (2 ^ 24) imm
  | .longImmediate e reg imm => below 17 e && below 12 reg && below (2 ^ 48) imm
  | .branch e c target => below 17 e && below 14 c && below 16384 target
  | .call e c target => below 17 e && below 14 c && below 16384 target
  | .ret e c => below 17 e && below 14 c
  | .endTask e c => below 17 e && below 14 c
  | .rep e count => below 17 e && okCount 4096 count
  | .loop e count le => below 17 e && okCount 1024 count && below 16384 le
  | .endl e => below 17 e
  | .lpush e => below 17 e
  | .lpop e => below 17 e
  | .log2 e dst src => below 17 e && below 12 dst && below 12 src
  | .exp2 e dst src => below 17 e && below 12 dst && below 12 src
  | .recip e dst src => below 17 e && below 12 dst && below 12 src
  | .rsqrt e dst src => below 17 e && below 12 dst && below 12 src
  | .tarnDetection e cause addr _ _ => below 17 e && okWord cause && okWord addr
  | .tarnRetire e => below 17 e
  | .spareSelfTestPass _ => true
  | .tarnScrubPass => true
  | .poisonedBlockRead buffer key index => okWord buffer && okWord key && okWord index
  | .ccRollback addr => below (2 ^ 40) addr
  | .ccCheckpoint => true
  | .ccRestart cause => okWord cause
  | .ccWatchdogExpiry => true
  | .ccRestartDone => true
  | .droopReport _ => true
  | .throttleStep _ => true
  | .tempWarn celsius => okInt celsius
  | .maintRequest r code target _ => okReq r && okWord code && okWord target
  | .maintStatus r => okReq r
  | .maintGrant => true
  | .maintActivityEnd _ => true
  | .sapFrame port _ words phase period bclks => below 16 port && okWords words && okInt phase && okWord period && okWord bclks
  | .sapClockStop port _ idle => below 16 port && okWord idle
  | .sapRateMeasured port _ period bclks => below 16 port && okWord period && okWord bclks
  | .sapStopDone port _ => below 16 port
  | .sapMaskShadowWrite port _ => below 16 port
  | .sapLayout port _ => below 16 port
  | .madiFrame port _ subframes violations period => below 8 port && okWords subframes && okWord violations && okWord period
  | .madiLock port period => below 8 port && okWord period
  | .madiStop port idle => below 8 port && okWord idle
  | .hspInsertion => true
  | .hspPlug tip ring1 ring2 sleeve => okWord tip && okWord ring1 && okWord ring2 && okWord sleeve
  | .hspButtonDown => true
  | .hspButtonPress mv => okWord mv
  | .hspButtonRepeat => true
  | .hspButtonRelease => true
  | .hspUnplug => true
  | .hspMicGainStep => true
  | .srcLock i ratio => okWord i && okWord ratio
  | .srcUnlock i _ => okWord i
  | .decInputSwitch i => below 64 i
  | .decSilenceEnd i => below 64 i
  | .decsync r w => okReq r && okWhen w
  | .decsyncFadeStart => true
  | .decsyncReset => true
  | .decsyncPinEdge => true
  | .decsyncHoldEnd => true
  | .netLinkDown n => below 4 n
  | .netLinkUp n => below 4 n
  | .netFrameReceive n f stamp => below 4 n && okFrame f && below (2 ^ 64) stamp
  | .ptpOffsetMeasurement offset leader => okInt offset && below (2 ^ 64) leader
  | .announceTimeout => true
  | .phcTimerPulse i => below 16 i
  | .phcCapture i _ => below 16 i
  | .mccRenumber => true
  | .mccUnaligned edge => okInt edge
  | .mccRealigned edge => okInt edge
  | .streamPacketReceive s leg seq ts ns payload => below 256 s && below 2 leg && below (2 ^ 16) seq && okWord ts && okWord ns && okBytes payload
  | .streamLegMiss s leg seq => below 256 s && below 2 leg && below (2 ^ 16) seq
  | .streamPacketTransmit s => below 256 s
  | .streamTxStopDone s => below 256 s
  | .streamRxRelease s => below 256 s
  | .refLost k => below 8 k
  | .refEvaluation meas => meas.all (fun q => below 8 q.1)
  | .ckuLock => true
  | .ckuBwStep => true
  | .ckuUnlock => true
  | .ckuGlide => true
  | .ckuFreerun => true
  | .ref4SlewDone edge => okInt edge
  | .ckuSteer r target => okReq r && okInt target
  | .ckuCalibrate r => okReq r
  | .ckuCalDone value => okOpt okInt value
  | .clkoutFreqChange k => below 5 k
  | .vcpFragment o bytes => okOrigin o && okBytes bytes
  | .reassemblyTimeout o sid seq => okOrigin o && okWord sid && okWord seq
  | .authBlockExpiry o => okOrigin o
  | .sessionOpen o seq cred role options nonce keepalive => okOrigin o && okWord seq && okWord cred && okWord role && okWord options && okBytes nonce && okOpt okWord keepalive
  | .sessionClose r => okReq r
  | .keepaliveExpiry sid => okWord sid
  | .pcieLinkReset => true
  | .ping r => okReq r
  | .summary r => okReq r
  | .partitionClaim r mask _ => okReq r && okWord mask
  | .partitionRelease r mask => okReq r && okWord mask
  | .stageOpen r attrs => okReq r && okOpt okAttrs attrs
  | .stageAdd r id entries => okReq r && okWord id && entries.all okEntry
  | .stageRow r id nodes => okReq r && okWord id && okNodes nodes
  | .stageColumn r id nodes => okReq r && okWord id && okNodes nodes
  | .stageRect r id nodes => okReq r && okWord id && okNodes nodes
  | .stageFill r id nodes => okReq r && okWord id && okNodes nodes
  | .stageRemove r id handles => okReq r && okWord id && okWords handles
  | .stageCheck r id => okReq r && okWord id
  | .stageCosign r id digest macIx => okReq r && okWord id && okBytes digest && okBytes macIx
  | .commit r id w => okReq r && okWord id && okWhen w
  | .stageCancel r id => okReq r && okWord id
  | .stageDiscard r id => okReq r && okWord id
  | .stageReport r id => okReq r && okWord id
  | .pan r id src left right law pos level => okReq r && okWord id && okWord src && okWord left && okWord right && okWord law && okInt pos && okInt level
  | .sceneSave r part scene label => okReq r && okWord part && okWord scene && okBytes label
  | .sceneRecall r id scene scope => okReq r && okWord id && okWord scene && okWord scope
  | .sceneList r start => okReq r && okWord start
  | .sceneDelete r scene => okReq r && okWord scene
  | .cueLoad r list cues => okReq r && okWord list && cues.all okCue
  | .cueArm r list => okReq r && okWord list
  | .cueDisarm r list => okReq r && okWord list
  | .cueRead r list => okReq r && okWord list
  | .paramRead r handles => okReq r && okWords handles
  | .matrixRead r d s nd ns start => okReq r && okWord d && okWord s && okWord nd && okWord ns && okWord start
  | .latencyRead r outs => okReq r && okWords outs
  | .counterRead r ids => okReq r && okWords ids
  | .meterSubscribe r points => okReq r && okWords points
  | .meterPeriodEnd part => below 16 part
  | .streamSdp r s sdp => okReq r && okWord s && okOpt okBytes sdp
  | .eventRead r start => okReq r && okWord start
  | .eventAck r upTo => okReq r && okWord upTo
  | .eventMask r mask interval => okReq r && below (2 ^ 256) mask && okWord interval
  | .eventDetail r index => okReq r && okWord index
  | .deliveryIntervalEnd sid => okWord sid
  | .phcSet r sec ns => okReq r && below (2 ^ 64) sec && okWord ns
  | .mccAlign r => okReq r
  | .moduleLoad r image => okReq r && okBytes image
  | .moduleList r => okReq r
  | .fwWrite r slot offset bytes => okReq r && okWord slot && okWord offset && okBytes bytes
  | .fwSwitch r slot _ => okReq r && okWord slot
  | .twinSwap r w => okReq r && okWhen w
  | .credProvision r blob => okReq r && okBytes blob
  | .lifecycleSet r target blob => okReq r && okWord target && okBytes blob
  | .keyInfo r => okReq r
  | .unknownCommand r code => okReq r && okWord code
  | .secVersionFloorRaise => true
  | .tamperTrip source => okWord source
  | .sbWiped => true
  | .mbxReqWrite c len => below 8 c && okWord len
  | .mbxReply c => below 8 c
  | .mbxEvrWrite c value => below 8 c && okWord value
  | .evStatClear k mask => below 8 k && okWord mask
  | .mccLoRead => true
  | .genLoRead => true
  | .registerWrite offset value => okWord offset && okWord value
  | .spiRegisterWrite offset words => okWord offset && okWords words
  | .spiRegisterRead offset n => okWord offset && okWord n
  | .spiMailboxWrite addr bytes => okWord addr && okBytes bytes
  | .spiMailboxRead addr n => okWord addr && okWord n
  | .fabricGrant target cycle arrivals => below 37 target && below (2 ^ 64) cycle && arrivals.all okTxn
  | .qosPromotion target cycle => below 37 target && below (2 ^ 64) cycle
  | .masterResetDrain m => below 24 m
  | .poolScrubPass found => found.all okFound
  | .dramPatrolPass found => found.all okFound
  | .mstoreCorrected addr => below (2 ^ 40) addr
  | .mstoreScrubPass found => okWords found
  | .eventCountPublish x arrivals _ _ => below (2 ^ 16) x && okWord arrivals
  | .crossingClockStopped x far => below (2 ^ 16) x && okReset far
  | .crossingResetIndication x => below (2 ^ 16) x
  | .resetGroupRequest g => okReset g
  | .peerAliveStopped => true
  | .amclkStopRelease => true
  | .leaseRenewal n => below (2 ^ 64) n
  | .leaseAck n => below (2 ^ 64) n
  | .leaseFence => true
  | .leaseGuardExpiry => true
  | .twinHeartbeat _ hb => okHeartbeat hb
  | .twinPathDown _ => true
  | .inputRecord tick items => below (2 ^ 64) tick && items.all okItem
  | .inputRecordMissing => true
  | .edgeOffsetExceeded offset => okInt offset
  | .twinForward m f => below (2 ^ 64) m && okFwd f
  | .twinHandover h => below (2 ^ 64) h
  | .twinSwapAtH => true
  | .resyncStepDone mcc seed => below (2 ^ 64) mcc && okWord seed
  | .nonconvStateCopy slot x y => below 64 slot && x.all (below (2 ^ 48)) && y.all (below (2 ^ 48))
  | .joinLimitExpiry => true
  | .legacyWrite addr word => below (2 ^ 16) addr && below (2 ^ 24) word
  | .legacyRead addr => below (2 ^ 16) addr
  | .legacyBurstWrite addr words _ => below (2 ^ 16) addr && words.all (below (2 ^ 24))
  | .legacyBurstRead addr n => below (2 ^ 16) addr && okWord n
  | .legacyParamWrite addr word => below (2 ^ 16) addr && below (2 ^ 24) word
  | .load => true
  | .loadLatch => true
  | .softReset => true
  | .legacyRateWrite rate => below 2 rate
  | .legacyStatusClear mask => okWord mask
  | .tamperSourceCleared source => okWord source
  | .processingPllLossOfLock => true
  | .inputRecordClose => true

end Sys2Proof
end

