-- ==== Sys2Proof/Machine/TarnCode.lean ====
section
/-! DEFINITION. Sys2Proof/Machine/TarnCode.lean: the words of the Tarn instruction set, from the field layouts of R173: decoding, which
refuses what R174 calls illegal by its form, and encoding. An instruction comes to an engine as a command; what the engine's P memory spells
at its PC is `State.codeAt`. -/
namespace Sys2Proof.Machine.Tarn

open Fmt

/-! ### Fields -/

/-- The ALU instruction of an operation code. -/
def aluInstr (e op : Nat) (f : AluF) : Option Instr :=
  match op with
  | 0x00 => some (.add e f)
  | 0x01 => some (.sub e f)
  | 0x02 => some (.neg e f)
  | 0x03 => some (.abs e f)
  | 0x04 => some (.andOp e f)
  | 0x05 => some (.orOp e f)
  | 0x06 => some (.xorOp e f)
  | 0x07 => some (.notOp e f)
  | 0x08 => some (.asl e f)
  | 0x09 => some (.asr e f)
  | 0x0A => some (.lsr e f)
  | 0x0B => some (.minOp e f)
  | 0x0C => some (.maxOp e f)
  | 0x0D => some (.cmp e f)
  | 0x0E => some (.tst e f)
  | 0x0F => some (.clr e f)
  | 0x10 => some (.rnd e f)
  | 0x11 => some (.sat e f)
  | _ => none

/-- The MAC instruction of an operation code. -/
def macInstr (e op : Nat) (f : MacF) : Option Instr :=
  match op with
  | 0 => some (.mac e f)
  | 1 => some (.msu e f)
  | 2 => some (.mpy e f)
  | _ => none

/-- The nonlinear instruction of an operation code. -/
def nlInstr (e op dst src : Nat) : Option Instr :=
  match op with
  | 0 => some (.log2 e dst src)
  | 1 => some (.exp2 e dst src)
  | 2 => some (.recip e dst src)
  | 3 => some (.rsqrt e dst src)
  | _ => none

/-- A parallel move field of 12 bits: enable, direction, register, address register, mode. -/
def encMove : Option PMove → Nat
  | none => 0
  | some m => 2 ^ 11 + b2n m.store * 2 ^ 10 + m.reg * 2 ^ 6 + m.an * 2 ^ 3 + m.mode

/-- The move a field spells; the outer none is a form that is illegal. -/
def decMove (w : Nat) : Option (Option PMove) :=
  if w / 2 ^ 11 % 2 = 0 then some none
  else
    let m : PMove := { store := decide (w / 2 ^ 10 % 2 = 1), reg := w / 2 ^ 6 % 16, an := w / 2 ^ 3 % 8, mode := w % 8 }
    if okMove m then some (some m) else none

/-- Both moves (R170). -/
def decMoves (x y : Nat) : Option Moves :=
  match decMove x, decMove y with
  | some a, some b =>
    let mv : Moves := { x := a, y := b }
    if okMoves mv then some mv else none
  | _, _ => none

/-! ### Decoding -/

/-- Class 0x1. -/
def decAlu (e w : Nat) : Option Instr :=
  let f : AluF := { dst := w / 2 ^ 19 % 16, src1 := w / 2 ^ 15 % 16, src2 := w / 2 ^ 11 % 16, shift := w / 2 ^ 5 % 64, mv := none }
  if w % 2 ^ 5 = 0 ∧ okAlu f then aluInstr e (w / 2 ^ 23 % 32) f else none

/-- Class 0xC. -/
def decAluMoves (e w v : Nat) : Option Instr :=
  match decMoves (w % 2 ^ 12) (v / 2 ^ 20) with
  | none => none
  | some mv =>
    let f : AluF := { dst := w / 2 ^ 19 % 16, src1 := w / 2 ^ 15 % 16, src2 := v / 2 ^ 16 % 16, shift := v / 2 ^ 10 % 64, mv := some mv }
    if w / 2 ^ 12 % 8 = 0 ∧ v % 2 ^ 10 = 0 ∧ okAlu f then aluInstr e (w / 2 ^ 23 % 32) f else none

/-- Classes 0x2 and 0x3. -/
def decMac (e w : Nat) (quad : Bool) : Option Instr :=
  let f : MacF := { quad := quad, acc := w / 2 ^ 24 % 4, dx := w / 2 ^ 21 % 8, dy := w / 2 ^ 18 % 8, mv := none }
  if w % 2 ^ 18 = 0 ∧ okMac f then macInstr e (w / 2 ^ 26 % 4) f else none

/-- Class 0xD. -/
def decMacMoves (e w v : Nat) : Option Instr :=
  match decMoves (w % 2 ^ 12) (v / 2 ^ 20) with
  | none => none
  | some mv =>
    let f : MacF := { quad := decide (w / 2 ^ 27 % 2 = 1), acc := w / 2 ^ 23 % 4, dx := w / 2 ^ 20 % 8, dy := w / 2 ^ 17 % 8, mv := some mv }
    if w / 2 ^ 12 % 32 = 0 ∧ v % 2 ^ 20 = 0 ∧ okMac f then macInstr e (w / 2 ^ 25 % 4) f else none

/-- Class 0x5. -/
def decLdSt (e w : Nat) : Option Instr :=
  let f : LdSt := { y := decide (w / 2 ^ 27 % 2 = 1), store := decide (w / 2 ^ 26 % 2 = 1), reg := w / 2 ^ 21 % 32, an := w / 2 ^ 18 % 8
                    mode := w / 2 ^ 15 % 8, addr := w % 2 ^ 15 }
  if okLdSt f then some (.loadStore e f) else none

/-- Class 0x6. -/
def decAgu (e w : Nat) : Option Instr :=
  let f : AguF := { op := w / 2 ^ 26 % 4, kind := w / 2 ^ 24 % 4, index := w / 2 ^ 21 % 8, d := w / 2 ^ 16 % 8, imm := w % 2 ^ 16 }
  if w / 2 ^ 19 % 4 = 0 ∧ okAgu f then some (.aguOperation e f) else none

/-- Class 0x8. -/
def decBranch (e w : Nat) : Option Instr :=
  let c := w / 2 ^ 24 % 16
  let t := w % 2 ^ 14
  if w / 2 ^ 14 % 2 ^ 8 ≠ 0 ∨ 14 ≤ c then none
  else match w / 2 ^ 22 % 4 with
    | 0 => some (.branch e c t)
    | 1 => some (.call e c t)
    | 2 => if t = 0 then some (.ret e c) else none
    | _ => if t = 0 then some (.endTask e c) else none

/-- Class 0x9. -/
def decLoop (e w : Nat) : Option Instr :=
  let reg := decide (w / 2 ^ 25 % 2 = 1)
  match w / 2 ^ 26 % 4 with
  | 0 =>
    if w % 2 ^ 13 ≠ 0 then none
    else if reg then (if w / 2 ^ 16 % 2 ^ 9 = 0 then some (.rep e (.reg (w / 2 ^ 13 % 8))) else none)
    else some (.rep e (.imm (w / 2 ^ 13 % 2 ^ 12 + 1)))
  | 1 =>
    if w / 2 ^ 24 % 2 ≠ 0 then none
    else if reg then (if w / 2 ^ 17 % 2 ^ 7 = 0 then some (.loop e (.reg (w / 2 ^ 14 % 8)) (w % 2 ^ 14)) else none)
    else some (.loop e (.imm (w / 2 ^ 14 % 2 ^ 10 + 1)) (w % 2 ^ 14))
  | 2 => if w % 2 ^ 26 = 0 then some (.endl e) else none
  | _ => if w % 2 ^ 25 ≠ 0 then none else if reg then some (.lpop e) else some (.lpush e)

/-- Class 0xA. -/
def decNl (e w : Nat) : Option Instr :=
  let dst := w / 2 ^ 19 % 16
  let src := w / 2 ^ 15 % 16
  if w / 2 ^ 23 % 4 = 0 ∧ w % 2 ^ 15 = 0 ∧ dst < 12 ∧ src < 12 then nlInstr e (w / 2 ^ 25 % 8) dst src else none

/-- The instruction that two words spell for engine e, none where they are illegal; a 32-bit instruction takes the first only. -/
def decode (e w v : Nat) : Option Instr :=
  match w / 2 ^ 28 with
  | 0x0 => if w % 2 ^ 28 = 0 then some (.nop e) else none
  | 0x1 => decAlu e w
  | 0x2 => decMac e w false
  | 0x3 => decMac e w true
  | 0x4 => if w % 2 ^ 18 = 0 then some (.move e (w / 2 ^ 23 % 32) (w / 2 ^ 18 % 32)) else none
  | 0x5 => decLdSt e w
  | 0x6 => decAgu e w
  | 0x7 => if w / 2 ^ 24 % 2 = 0 then some (.shortImmediate e (w / 2 ^ 25 % 8) (w % 2 ^ 24)) else none
  | 0x8 => decBranch e w
  | 0x9 => decLoop e w
  | 0xA => decNl e w
  | 0xC => decAluMoves e w v
  | 0xD => decMacMoves e w v
  | 0xE =>
    if w / 2 ^ 16 % 2 ^ 8 = 0 ∧ w / 2 ^ 24 % 16 < 12 then some (.longImmediate e (w / 2 ^ 24 % 16) (w % 2 ^ 16 * 2 ^ 32 + v % 2 ^ 32)) else none
  | _ => none

/-! ### Encoding -/

/-- The words of an ALU instruction. -/
def encAlu (op : Nat) (f : AluF) : List Nat :=
  let h := op * 2 ^ 23 + f.dst * 2 ^ 19 + f.src1 * 2 ^ 15
  match f.mv with
  | none => [0x1 * 2 ^ 28 + h + f.src2 * 2 ^ 11 + f.shift * 2 ^ 5]
  | some mv => [0xC * 2 ^ 28 + h + encMove mv.x, encMove mv.y * 2 ^ 20 + f.src2 * 2 ^ 16 + f.shift * 2 ^ 10]

/-- The words of a MAC instruction. -/
def encMac (op : Nat) (f : MacF) : List Nat :=
  match f.mv with
  | none => [(if f.quad then 0x3 else 0x2) * 2 ^ 28 + op * 2 ^ 26 + f.acc * 2 ^ 24 + f.dx * 2 ^ 21 + f.dy * 2 ^ 18]
  | some mv => [0xD * 2 ^ 28 + b2n f.quad * 2 ^ 27 + op * 2 ^ 25 + f.acc * 2 ^ 23 + f.dx * 2 ^ 20 + f.dy * 2 ^ 17 + encMove mv.x,
      encMove mv.y * 2 ^ 20]

/-- The word of a load or store. -/
def encLdSt (f : LdSt) : Nat :=
  0x5 * 2 ^ 28 + b2n f.y * 2 ^ 27 + b2n f.store * 2 ^ 26 + f.reg * 2 ^ 21 + f.an * 2 ^ 18 + f.mode * 2 ^ 15 + f.addr

/-- The word of an AGU instruction. -/
def encAgu (f : AguF) : Nat := 0x6 * 2 ^ 28 + f.op * 2 ^ 26 + f.kind * 2 ^ 24 + f.index * 2 ^ 21 + f.d * 2 ^ 16 + f.imm

/-- The word of a branch. -/
def encBranch (kind c target : Nat) : Nat := 0x8 * 2 ^ 28 + c * 2 ^ 24 + kind * 2 ^ 22 + target

/-- The word of REP. -/
def encRep : Count → Nat
  | .imm n => 0x9 * 2 ^ 28 + (n - 1) * 2 ^ 13
  | .reg d => 0x9 * 2 ^ 28 + 2 ^ 25 + d * 2 ^ 13

/-- The word of LOOP. -/
def encLoop (le : Nat) : Count → Nat
  | .imm n => 0x9 * 2 ^ 28 + 2 ^ 26 + (n - 1) * 2 ^ 14 + le
  | .reg d => 0x9 * 2 ^ 28 + 2 ^ 26 + 2 ^ 25 + d * 2 ^ 14 + le

/-- The word of a nonlinear instruction. -/
def encNl (op dst src : Nat) : Nat := 0xA * 2 ^ 28 + op * 2 ^ 25 + dst * 2 ^ 19 + src * 2 ^ 15

/-- The words of a Tarn instruction, by the instruction and the engine it names; none for every other command. -/
def encode : Instr → Option (Nat × List Nat)
  | .nop e => some (e, [0])
  | .add e f => some (e, encAlu 0x00 f)
  | .sub e f => some (e, encAlu 0x01 f)
  | .neg e f => some (e, encAlu 0x02 f)
  | .abs e f => some (e, encAlu 0x03 f)
  | .andOp e f => some (e, encAlu 0x04 f)
  | .orOp e f => some (e, encAlu 0x05 f)
  | .xorOp e f => some (e, encAlu 0x06 f)
  | .notOp e f => some (e, encAlu 0x07 f)
  | .asl e f => some (e, encAlu 0x08 f)
  | .asr e f => some (e, encAlu 0x09 f)
  | .lsr e f => some (e, encAlu 0x0A f)
  | .minOp e f => some (e, encAlu 0x0B f)
  | .maxOp e f => some (e, encAlu 0x0C f)
  | .cmp e f => some (e, encAlu 0x0D f)
  | .tst e f => some (e, encAlu 0x0E f)
  | .clr e f => some (e, encAlu 0x0F f)
  | .rnd e f => some (e, encAlu 0x10 f)
  | .sat e f => some (e, encAlu 0x11 f)
  | .mac e f => some (e, encMac 0 f)
  | .msu e f => some (e, encMac 1 f)
  | .mpy e f => some (e, encMac 2 f)
  | .move e dst src => some (e, [0x4 * 2 ^ 28 + dst * 2 ^ 23 + src * 2 ^ 18])
  | .loadStore e f => some (e, [encLdSt f])
  | .aguOperation e f => some (e, [encAgu f])
  | .shortImmediate e d imm => some (e, [0x7 * 2 ^ 28 + d * 2 ^ 25 + imm])
  | .longImmediate e reg imm => some (e, [0xE * 2 ^ 28 + reg * 2 ^ 24 + imm / 2 ^ 32, imm % 2 ^ 32])
  | .branch e c t => some (e, [encBranch 0 c t])
  | .call e c t => some (e, [encBranch 1 c t])
  | .ret e c => some (e, [encBranch 2 c 0])
  | .endTask e c => some (e, [encBranch 3 c 0])
  | .rep e n => some (e, [encRep n])
  | .loop e n le => some (e, [encLoop le n])
  | .endl e => some (e, [0x9 * 2 ^ 28 + 2 * 2 ^ 26])
  | .lpush e => some (e, [0x9 * 2 ^ 28 + 3 * 2 ^ 26])
  | .lpop e => some (e, [0x9 * 2 ^ 28 + 3 * 2 ^ 26 + 2 ^ 25])
  | .log2 e dst src => some (e, [encNl 0 dst src])
  | .exp2 e dst src => some (e, [encNl 1 dst src])
  | .recip e dst src => some (e, [encNl 2 dst src])
  | .rsqrt e dst src => some (e, [encNl 3 dst src])
  | _ => none

end Sys2Proof.Machine.Tarn

namespace Sys2Proof.Machine

/-- The instruction that an engine's P memory, or its loop cache, spells at its PC (R156, R173, R182). -/
def State.codeAt (s : State) (e : Nat) : Option Instr :=
  let x := s.eng e
  Tarn.decode e (Tarn.fetchWord x x.pc) (Tarn.fetchWord x (x.pc + 1))

end Sys2Proof.Machine
end

