-- ==== Sys2Proof/Safety.lean ====
section
/-! DEFINITION. Sys2Proof/Safety.lean: the terms that claims are stated in: the parts of the state that a frame names, an occurrence of an
event, a request that a session may make, the reply to it, and what a safe step is. -/
namespace Sys2Proof.Machine

/-! ### Frames -/

/-- The parts of the state, as a frame names them. The addressed memories stand apart from the groups that hold them (`scene` is the scene
engine but MSTORE, and so on), and so do the session table and the reply machinery. -/
inductive Part where
  | mcc | dev | params | power | boot | sec | fw | flash | audio | mere | spring | tarn | ports | conv | net | cku
  | sessions | mailbox | vcp | ev | scene | mstore | fab | memories | fault | twin | legacy | free | draws | pending
  deriving DecidableEq, Repr

/-- Two states agree on a part. -/
def Part.same (s t : State) : Part → Prop
  | .mcc => t.mcc = s.mcc
  | .dev => t.dev = s.dev
  | .params => t.params = s.params
  | .power => t.power = s.power
  | .boot => t.boot = s.boot
  | .sec => t.sec = s.sec
  | .fw => t.fw.version = s.fw.version ∧ t.fw.inUse = s.fw.inUse ∧ t.fw.pending = s.fw.pending
  | .flash => t.fw.slotA = s.fw.slotA ∧ t.fw.slotB = s.fw.slotB
  | .audio => t.audio = s.audio
  | .mere => t.mere = s.mere
  | .spring => t.spring = s.spring
  | .tarn => t.tarn = s.tarn
  | .ports => t.ports = s.ports
  | .conv => t.conv = s.conv
  | .net => t.net = s.net
  | .cku => t.cku = s.cku
  | .sessions => t.vcp.sessions = s.vcp.sessions
  | .mailbox => t.vcp.mbx = s.vcp.mbx
  | .vcp => { t.vcp with sessions := [], mbx := [] } = { s.vcp with sessions := [], mbx := [] }
  | .ev => t.ev = s.ev
  | .scene => { t.scene with mstore := [] } = { s.scene with mstore := [] }
  | .mstore => t.scene.mstore = s.scene.mstore
  | .fab => { t.fab with pool := [], staging := [], dram := [] } = { s.fab with pool := [], staging := [], dram := [] }
  | .memories => t.fab.pool = s.fab.pool ∧ t.fab.staging = s.fab.staging ∧ t.fab.dram = s.fab.dram
  | .fault => t.fault = s.fault
  | .twin => t.twin = s.twin
  | .legacy => t.legacy = s.legacy
  | .free => t.free = s.free
  | .draws => t.draws = s.draws
  | .pending => t.pending = s.pending

/-- The frame of a change from `s` to `t`: nothing changed but the parts named. -/
def State.frame (s t : State) (touched : List Part) : Prop := ∀ p, p ∉ touched → p.same s t

/-! ### Occurrences of events (R328–R334) -/

/-- What an occurrence leaves in the event registers and the session queues of `t` is what raising it in `s` leaves there. -/
def State.told (s t : State) (ev : Ev) (part obj val : Nat) : Prop :=
  t.ev = (s.raise ev part obj val).ev ∧ t.vcp.sessions = (s.raise ev part obj val).vcp.sessions

/-- The same for an occurrence with a detail entry. -/
def State.toldD (s t : State) (ev : Ev) (part obj : Nat) (content : List Nat) : Prop :=
  t.ev = (s.raiseD ev part obj content).ev ∧ t.vcp.sessions = (s.raiseD ev part obj content).vcp.sessions

/-- An event's bit of EV_STAT is set. -/
def State.marks (t : State) (ev : Ev) : Prop := Fmt.bit t.ev.stat ev.id = true

/-! ### Requests (R304, R314, R319, R321) -/

/-- A request that its session may make now: the control cores serve, it is its turn, the session is open and has room, the sequence number
is fresh and the session's role suffices. -/
def State.admits (s : State) (r : Req) (need : RoleReq) (x : Session) : Prop :=
  s.serves = true ∧ s.turn r = true ∧ s.session? r.sid = some x ∧ (0 < r.seq ∧ r.seq ≤ 0xFFFFFFFF) ∧ x.seqCase r.seq = .fresh ∧ x.progress.length < 16 ∧
    x.role ≤ need

/-- The state in which an admitted request acts: the request has left the queue of whole requests, and its session has taken its number. -/
def State.admitted (s : State) (r : Req) : State :=
  (s.unbox r).updSession r.sid (fun x => { x.accept r.seq with heard := s.mcc })

/-- The latest reply of `t` answers a request with a status, a detail word and items. -/
def State.answers (t : State) (r : Req) (cmd status detail : Nat) (items : List Item) : Prop :=
  t.vcp.last = some { sid := r.sid, seq := r.seq, cmd := cmd, status := status, detail := detail, items := items }

/-- What serving a request that changes nothing but what it answers touches. -/
def replyParts : List Part := [.sessions, .vcp]

/-- Whether items fit one reply (R306). -/
def itemsFit (items : List Item) : Prop := itemsSize items ≤ replyMax - statusSize

/-- A command that reads: where its message asks for it and its items fit a reply, it answers success with them, and nothing else changes. -/
def State.reads (s : State) (c : Instr) (r : Req) (cmd : Nat) (items : List Item) : Prop :=
  s.asks r c = true → itemsFit items → ∃ t, exec c s = .next t ∧ t.answers r cmd 0 0 items ∧ s.frame t replyParts

/-- A request that is refused, where its message asks for it: the reply says why, and nothing else changes. -/
def State.refuses (s : State) (c : Instr) (r : Req) (cmd err : Nat) : Prop :=
  s.asks r c = true → ∃ t, exec c s = .next t ∧ t.answers r cmd err 0 [] ∧ s.frame t replyParts

/-! ### Stage sets (R106–R125) -/

/-- A request of its session for a stage set that it opened, on a chip that serves audio commands. -/
def State.admitsSet (s : State) (r : Req) (id : Nat) (q : Session) (x : StageSet) : Prop :=
  s.admits r 1 q ∧ s.audioServed = true ∧ s.stageSet? id = some x ∧ x.sid = r.sid

/-- A staging command that adds `l` to the set `id`, which was `x`: where the set may be edited and the stage area has room, all of it joins
the set, which is OPEN with no co-signature; node entries wait for the plane or hold it. Where there is no room, none of it does. -/
def State.stages (s : State) (c : Instr) (r : Req) (cmd id : Nat) (x : StageSet) (l : List Added) : Prop :=
  let used := s.areaUsed + (l.map Added.cost).foldl (· + ·) 0
  (s.asks r c = true → x.editable = true → used ≤ stageArea → ∃ (t : State) (y : StageSet), exec c s = .next t ∧ t.answers r cmd 0 0 [] ∧
    t.stageSet? id = some y ∧ y.st = .open ∧ y.cosigned = [] ∧ y.want = none ∧ y.added = x.added ++ l ∧
    (l.any Added.hasNodes = true → y.waiting = true ∨ t.scene.holder = some id) ∧
    (∀ j, j ≠ id → t.stageSet? j = s.stageSet? j) ∧ s.frame t [.scene, .mere, .sessions, .vcp]) ∧
  (x.editable = true → stageArea < used → s.refuses c r cmd Err.capacity) ∧
  (x.editable = false → s.refuses c r cmd Err.state)

/-- The set `id` becomes `y`; the others stay. -/
def State.setBecomes (s t : State) (id : Nat) (y : StageSet) : Prop :=
  t.stageSet? id = some y ∧ ∀ j, j ≠ id → t.stageSet? j = s.stageSet? j

/-- The set `id` becomes `y`; the others stay, but for noting that their configuration changes at sample c (R124). -/
def State.setChangesAt (s t : State) (id c : Nat) (y : StageSet) : Prop :=
  t.stageSet? id = some y ∧
    ∀ j, j ≠ id → t.stageSet? j = (s.stageSet? j).map (fun z => { z with moved := some (z.moved.elim c (min c)) })

/-- The staging commands that carry nodes, by command code, with the forms they carry (R97, R308). -/
def formCommands : List (Nat × (Req → Nat → Nodes → Instr) × List Nat) :=
  [(0x0103, .stageRow, [1]), (0x0104, .stageColumn, [2]), (0x0105, .stageRect, [0, 3]), (0x0106, .stageFill, [4])]

/-! ### Reset -/

/-- The groups that every reset returns to their reset values (R17, R318, R481): the audio path, the matrix, the spring path, the engines,
ports, converters, network, sessions, events, fabric, faults and the legacy partition. -/
def State.atReset (t : State) : Prop :=
  t.audio = AudioG.reset ∧ t.mere = MereG.reset ∧ t.spring = SpringG.reset ∧ t.tarn = TarnG.reset ∧ t.ports = PortG.reset ∧
    t.conv = ConvG.reset ∧ t.net = NetG.reset ∧ t.vcp = VcpG.reset ∧ t.ev = EvG.reset ∧ t.fab = FabG.reset ∧ t.fault = FaultG.reset ∧
    t.legacy = LegG.reset

/-- What a reset does not take from the device: MSTORE, the flash contents, the fuses. -/
def State.keepsStores (s t : State) : Prop :=
  t.scene.mstore = s.scene.mstore ∧ t.fw.slotA.data = s.fw.slotA.data ∧ t.fw.slotB.data = s.fw.slotB.data ∧ t.sec.life = s.sec.life ∧
    t.sec.rootHash = s.sec.rootHash ∧ t.sec.floor = s.sec.floor

/-- What an accepted image leaves (R348, order 6): the image and its firmware in force, every domain on that an image switches on; media
count, secure bank and device state as they were. -/
def State.imageApplied (s t : State) (i : Image) (slot : Option Nat) : Prop :=
  t.dev = s.dev ∧ t.mcc = s.mcc ∧ t.sec = s.sec ∧ t.boot.stage = 0x05 ∧ t.boot.image = some i ∧ t.boot.header = none ∧
    t.boot.waitPcie = false ∧ t.fw.version = i.fwVersion ∧ t.fw.inUse = slot ∧ t.power.domains = 0xFFE + s.power.domains % 2 ∧
    t.cku.xin = i.xin

/-! ### Matrix nodes (R81, R86) -/

/-- The zero-crossing group a node steps in at stamp n. -/
def State.nodeGroup (s : State) (n k : Nat) : Nat := (s.eventEnv n).gk k (s.node k)
/-- The state of a zero-crossing group. -/
def State.groupAt (s : State) (g : Nat) : Group := s.mere.step.group g
/-- The node memory and the group table are in the canonical form. -/
def State.nodesWf (s : State) : Bool := Cells.wf Node.reset s.mere.step.nodes && Cells.wf Group.idle s.mere.step.groups

/-! ### Tarn engines (R155, R173) -/

/-- Engine e issues its next instruction, finding the engine as `x`: no REP is armed, and a running task has the cycles that any one
instruction takes, or has executed END (R173, R192). -/
def State.canRun (s : State) (e : Nat) (x : Engine) : Prop :=
  e < 17 ∧ s.tarnOn = true ∧ Tarn.canIssue (s.eng e) = true ∧ x = Tarn.ready (s.eng e) ∧ x.rep = none ∧
    (Tarn.ending x = true ∨ ∀ t ∈ x.cur, t.cycles + 7 ≤ t.cost)

/-- An instruction of engine e changes that engine only. -/
def State.onEngine (s t : State) (e : Nat) : Prop := s.frame t [.tarn] ∧ (∀ j, j ≠ e → t.eng j = s.eng j) ∧
  t.tarn.modules = s.tarn.modules ∧ t.tarn.slots = s.tarn.slots

/-- The X address of a parallel move: the address register as address generation sees it (R168, R170, R184). -/
def Tarn.moveAt (x : Engine) (m : PMove) : Nat := Tarn.aguSeen x 0 m.an % 2 ^ 15
/-- The word that a parallel move carries, read before the instruction writes anything (R171, R172): memory for a load, 0 outside the
windows of the running task, and a register for a store. -/
def Tarn.carried (x : Engine) (y : Bool) (m : PMove) : W48 :=
  if m.store then if m.reg < 8 then Tarn.rdD (Tarn.bank x) m.reg else (Tarn.conv (Tarn.accSeen x (m.reg - 8)) (Tarn.bank x).sr).1
  else (Tarn.load x y (Tarn.moveAt x m)).1
/-- A parallel move loads register r. -/
def Tarn.loadsReg (p : Option PMove) (r : Nat) : Bool := p.any (fun m => !m.store && decide (m.reg = r))
/-- A memory after a parallel move: a store writes its word inside the windows of the running task (R158). -/
def Tarn.afterMove (x : Engine) (y : Bool) (p : Option PMove) : Mem :=
  let old := if y then x.yMem else x.xMem
  p.elim old (fun m => if m.store ∧ Tarn.allowed x y (Tarn.moveAt x m) true = true then
    Cells.put 0 old (Tarn.moveAt x m) (Tarn.carried x y m).toNat else old)
/-- A parallel move reaches outside the windows of the running task (R158). -/
def Tarn.outside (x : Engine) (y : Bool) (p : Option PMove) : Bool := p.any (fun m => !Tarn.allowed x y (Tarn.moveAt x m) m.store)
/-- Register An after the parallel moves that name it (R167, R168, R172). -/
def Tarn.afterPost (x : Engine) (mv : Moves) (i : Nat) : BitVec 15 :=
  [mv.x, mv.y].foldl (fun a p => p.elim a (fun m =>
    if m.an = i then ((Tarn.address x m.an m.mode 0 false).bind (·.2)).getD a else a)) (Tarn.rdA (Tarn.bank x) i)

/-- R171, R172: engine y is what an ALU or MAC part with parallel moves `mv` leaves of engine x, where the part alone would leave the data
registers `d`, the accumulators `acc` and SR `sr`: the X move's load wins over the part, the Y move's over both; stores write words that
were read first; post-modified address registers move; SR comes from the part, with SV where a move reached outside the windows. M, B, L and
P keep their contents. -/
def Tarn.MovesAfter (x y : Engine) (mv : Moves) (d : Nat → W48) (acc : Nat → W80) (sr : Word) : Prop :=
  let b := Tarn.bank x
  let u := Tarn.bank y
  let word := fun (sp : Bool) (p : Option PMove) => p.elim 0#48 (Tarn.carried x sp)
  (∀ i, i < 8 → Tarn.rdD u i =
    if Tarn.loadsReg mv.y i then word true mv.y else if Tarn.loadsReg mv.x i then word false mv.x else d i) ∧
  (∀ i, i < 4 → Tarn.rdAcc u i = if Tarn.loadsReg mv.y (i + 8) then Tarn.toAcc (word true mv.y)
    else if Tarn.loadsReg mv.x (i + 8) then Tarn.toAcc (word false mv.x) else acc i) ∧
  (∀ i, i < 8 → Tarn.rdA u i = Tarn.afterPost x mv i) ∧ u.m = b.m ∧ u.b = b.b ∧ u.l = b.l ∧
  u.sr = (if Tarn.outside x false mv.x || Tarn.outside x true mv.y then Tarn.setFlag sr Tarn.bSV true else sr) ∧
  y.xMem = Tarn.afterMove x false mv.x ∧ y.yMem = Tarn.afterMove x true mv.y ∧ y.pMem = x.pMem

/-- What an instruction of engine e with parallel moves changes: that engine only, and, where a move reached outside the windows of the
running task, the events that tell it (R158). -/
def State.onEngineMoves (s t : State) (e : Nat) (x : Engine) (mv : Moves) : Prop :=
  (if Tarn.outside x false mv.x || Tarn.outside x true mv.y then s.frame t [.tarn, .ev, .sessions] else s.frame t [.tarn]) ∧
    (∀ j, j ≠ e → t.eng j = s.eng j) ∧ t.tarn.modules = s.tarn.modules ∧ t.tarn.slots = s.tarn.slots

/-- The moves of an instruction; one without a move field moves nothing. -/
def movesOf (mv : Option Moves) : Moves := mv.getD { x := none, y := none }

/-- The unit table of the MAC instructions: the sign of the product that accumulator k takes and the two data registers it is of; none where
the instruction leaves accumulator k. -/
def MacF.unit (f : MacF) (k : Nat) : Option (Int × Nat × Nat) :=
  if f.quad then
    match f.acc with
    | 0 => some (1, k, k + 4)
    | 1 => some (1, k, 4)
    | 2 => some (1, k, 4)
    | _ => [(1, 0, 4), (-1, 1, 5), (1, 0, 5), (1, 1, 4)][k]?
  else if k = f.acc then some (1, f.dx, f.dy) else none

/-- The ALU commands by operation code (R175). -/
def aluCommands : List (Nat × (Nat → AluF → Instr)) :=
  [(0x00, .add), (0x01, .sub), (0x02, .neg), (0x03, .abs), (0x04, .andOp), (0x05, .orOp), (0x06, .xorOp), (0x07, .notOp), (0x08, .asl),
   (0x09, .asr), (0x0A, .lsr), (0x0B, .minOp), (0x0C, .maxOp), (0x0D, .cmp), (0x0E, .tst), (0x0F, .clr), (0x10, .rnd), (0x11, .sat)]
/-- The MAC commands by operation code (R162). -/
def macCommands : List (Nat × (Nat → MacF → Instr)) := [(0, .mac), (1, .msu), (2, .mpy)]
/-- The commands of the nonlinear unit by operation code (R176). -/
def nonlinearCommands : List (Nat × (Nat → Nat → Nat → Instr)) := [(0, .log2), (1, .exp2), (2, .recip), (3, .rsqrt)]

/-! ### Memories -/

/-- Every addressed memory of the device: MSTORE, the mailbox windows, the pool and its staging, DRAM, the two flash slots. -/
def State.memories (s : State) : List Memory :=
  [s.scene.mstore, s.vcp.mbx, s.fab.pool, s.fab.staging, s.fab.dram, s.fw.slotA.data, s.fw.slotB.data]

/-- Every memory, and the Mere's node memory and group table, is in the canonical form. -/
def State.memWf (s : State) : Bool := s.memories.all Memory.wf && s.nodesWf

/-- A safe step: it answers a next state, and every memory keeps its canonical form. -/
def State.stepsSafely (s : State) : Prop := ∃ t, step s = .next t ∧ t.memWf = true

end Sys2Proof.Machine
end

