-- ==== Sys2Proof/Certificates/Slice0/Obligations.lean ====
section
/-! DEFINITION. Sys2Proof/Certificates/Slice0/Obligations.lean: the statements for the provers. A completion statement gives the next state and, by
`State.frame`, everything that the command leaves alone. Where a statement rests on a choice of the model it says so and names the log
entry. -/

open Sys2Proof Sys2Proof.Machine

/-! ### Rails, reset and boot (spec/13, R481–R484) -/

/-- R17, R481, R482: the standby set coming into range takes the device from OFF to RESET with the MCC at 0; a rail that leaves its range
and RESET_N low take it to RESET from every other state with the MCC held; losing the standby set takes it to OFF from every state, and the
secure bank with it. Each leaves every group at its reset value, and MSTORE, flash and fuses as they were. R2, R17, R337, R339, R348, R483:
with RESET_N low and every rail in range, RESET_N rising samples the straps and the boot begins: BOOT at stage 0x01 (the model's choice, log
entry 200), the MCC counting from its held value, error 0x0C with a reserved strap value. A rail that comes into range last does the same
with the straps sampled before. Order 2 follows by itself: PD_CTL and PD_FAB on (and PD_TWIN where the twin feeds, log entry 200), the stage
that of the source; a command of the loader that comes before it finds it done. With a reserved strap value no header is read. -/
def Obligations.ResetAndBootStart : Prop :=
  (∀ s : State,
      (s.dev = .off → ∃ t, exec .powerOnStandbySet s = .next t ∧ t.dev = .reset ∧ t.mcc = 0 ∧ t.power.standbySet = true ∧
        t.power.holdMcc = true ∧ t.power.domains = 0 ∧ t.params = [] ∧ t.atReset ∧ s.keepsStores t) ∧
      (∃ t, exec .standbySetLost s = .next t ∧ t.dev = .off ∧ t.mcc = 0 ∧ t.power.standbySet = false ∧ t.sec.creds = [] ∧
        t.sec.modKeys = [] ∧ t.params = [] ∧ t.atReset ∧ s.keepsStores t) ∧
      (s.dev ≠ .off → ∃ t, exec .mainRailOutOfRange s = .next t ∧ t.dev = .reset ∧ t.mcc = s.mcc ∧ t.power.holdMcc = true ∧
        t.power.mainRails = false ∧ t.power.resetN = s.power.resetN ∧ t.sec.creds = s.sec.creds ∧ t.params = [] ∧ t.atReset ∧
        s.keepsStores t) ∧
      (s.dev ≠ .off → ∃ t, exec .resetNLow s = .next t ∧ t.dev = .reset ∧ t.mcc = s.mcc ∧ t.power.holdMcc = true ∧
        t.power.resetN = false ∧ t.power.mainRails = s.power.mainRails ∧ t.sec.creds = s.sec.creds ∧ t.params = [] ∧ t.atReset ∧
        s.keepsStores t)) ∧
  (∀ (s : State) (x : Straps), s.dev = .reset →
      (s.power.resetN = false → s.power.mainRails = true → ∃ t, exec (.resetNRise x) s = .next t ∧ t.dev = .boot ∧
        t.power.resetN = true ∧ t.power.straps = x ∧ t.power.holdMcc = false ∧ t.power.domains = 0 ∧ t.mcc = s.mcc ∧
        t.boot.stage = 0x01 ∧ (x.reserved = true → t.boot.error = 0x0C) ∧ s.frame t [.dev, .power, .boot]) ∧
      (s.power.resetN = true → s.power.mainRails = false → ∃ t, exec .mainRailsInRange s = .next t ∧ t.dev = .boot ∧
        t.power.mainRails = true ∧ t.power.straps = s.power.straps ∧ t.power.holdMcc = false ∧ t.mcc = s.mcc ∧ t.boot.stage = 0x01 ∧
        s.frame t [.dev, .power, .boot])) ∧
  (∀ s : State, s.dev = .boot → s.boot.stage = 0x01 →
    let x := s.power.straps
    let t := s.bootReady
    t.boot.stage = (if x.reserved then 0x02 else if x.boot = 2 then 0x0F else if x.boot = 3 then 0x10 else 0x02) ∧
    t.power.domains = 2 ^ 8 + 2 ^ 11 + (if x.boot = 3 ∧ x.reserved = false then 2 ^ 6 else 0) ∧ t.boot.error = s.boot.error ∧
    s.frame t [.power, .boot] ∧ (∀ h, exec (.imageHeaderRead h) s = exec (.imageHeaderRead h) t) ∧
    (∀ ok, exec (.dramTrainingDone ok) s = exec (.dramTrainingDone ok) t) ∧ (∀ b, exec (.pcieImageChunk b) s = exec (.pcieImageChunk b) t) ∧
    (∀ b, exec (.twinImageReceived b) s = exec (.twinImageReceived b) t)) ∧
  (∀ (s : State) (h : Option (List Nat)), s.dev = .boot → s.boot.stage = 0x02 → s.power.straps.reserved = true →
    exec (.imageHeaderRead h) s = .next s)

/-- R342–R344, R348: while the boot loader reads a flash slot, a header that passes its conditions (the header that FW_WRITE wrote, where it
wrote the slot) is accepted and the sections are awaited; one that does not hands over to the other slot, or, when both have failed, the
device waits for an image over PCIe. DRAM training done turns PD_DRAM on, or leaves it off with error 0x0A. -/
def Obligations.BootLoaderReadsHeaders : Prop :=
  ∀ (s : State) (h : Option (List Nat)) (b : Bool), s.dev = .boot → s.boot.stage = 0x02 → s.power.straps.reserved = false →
    s.boot.feed = .slot b → s.boot.chosen = true →
    let g := s.slotRead b h
    (s.headerError g = 0 → ∃ t, exec (.imageHeaderRead h) s = .next t ∧ t.boot.stage = 0x03 ∧ t.boot.header = g.map imageOf ∧
      t.boot.slotUsed = b ∧ s.frame t [.boot]) ∧
    (s.headerError g ≠ 0 → s.boot.fallback = false → ∃ t, exec (.imageHeaderRead h) s = .next t ∧ t.boot.stage = 0x02 ∧
      t.boot.feed = .slot (!b) ∧ t.boot.fallback = true ∧ t.boot.failed = s.headerError g ∧ s.frame t [.boot]) ∧
    (s.headerError g ≠ 0 → s.boot.fallback = true → ∃ t, exec (.imageHeaderRead h) s = .next t ∧ t.boot.stage = 0x0F ∧
      t.boot.waitPcie = true ∧ t.boot.error = s.headerError g ∧ s.frame t [.boot]) ∧
    ((s.fw.slot (Fmt.b2n b)).known = false → g = h) ∧
    (s.boot.dram = none → ∀ ok : Bool, ∃ t, exec (.dramTrainingDone ok) s = .next t ∧ t.boot.dram = some ok ∧
      t.power.domains = Fmt.setBit s.power.domains 0 ok ∧ (ok = false → t.boot.error = 0x0A) ∧ s.frame t [.boot, .power])

/-- R342–R346, R348: a whole image is accepted or refused by its conditions, and an accepted one is in force (order 6): the device's image,
firmware and slot are those of the image, and the domains an image switches on are on. The sections of a flash slot: accepted, the image is
applied; refused, the other slot is read, or, when both have failed, an image over PCIe awaited. Over PCIe a part that passes the conditions
judged on arrival is kept, one that fails them ends the image with an overrun on channel 0; a count of 0 ends the image, which is accepted
or refused. The image from the twin is accepted or refused likewise; one that does not come leaves error 0x01. -/
def Obligations.ImagesAreAcceptedOrRefused : Prop :=
  ∀ s : State, s.dev = .boot →
    (∀ (b : Bool) (i : Image) (secs : List (List Nat)), s.boot.feed = .slot b → s.boot.header = some i →
      let l := s.slotSections b i secs
      (s.sectionsError i l = 0 → ∃ t, exec (.imageSectionsRead secs) s = .next t ∧ t = s.applyImage i l (some (Fmt.b2n b)) ∧
        s.imageApplied t i (some (Fmt.b2n b))) ∧
      (s.sectionsError i l ≠ 0 → ∃ t, exec (.imageSectionsRead secs) s = .next t ∧ t.boot.error = s.sectionsError i l ∧
        t.boot.stage = (if s.boot.fallback then 0x0F else 0x02) ∧ t.boot.header = none ∧
        (s.boot.fallback = false → t.boot.feed = .slot (!b) ∧ t.boot.fallback = true) ∧
        (s.boot.fallback = true → t.boot.waitPcie = true) ∧ s.frame t [.boot])) ∧
    (s.boot.waitPcie = true → s.boot.stage = 0x0F → ∀ bytes : List Nat, bytes ≠ [] → let fed := s.boot.fed ++ bytes.take 98304
      (s.arrivalError fed = 0 → ∃ t, exec (.pcieImageChunk bytes) s = .next t ∧ t.boot.fed = fed ∧ t.boot.feed = .pcie ∧
        (t.channel 0).overrun = false ∧ s.frame t [.boot, .vcp]) ∧
      (s.arrivalError fed ≠ 0 → ∃ t, exec (.pcieImageChunk bytes) s = .next t ∧ t.boot.fed = [] ∧ t.boot.error = s.arrivalError fed ∧
        t.boot.waitPcie = true ∧ t.boot.stage = 0x0F ∧ (t.channel 0).overrun = true ∧ s.frame t [.boot, .vcp])) ∧
    (s.boot.waitPcie = true → s.boot.stage = 0x0F →
      (s.imageError s.boot.fed = 0 → ∃ t, exec (.pcieImageChunk []) s = .next t ∧ s.imageApplied t (imageOf s.boot.fed) none) ∧
      (s.imageError s.boot.fed ≠ 0 → ∃ t, exec (.pcieImageChunk []) s = .next t ∧ t.boot.fed = [] ∧
        t.boot.error = s.imageError s.boot.fed ∧ t.boot.waitPcie = true ∧ t.boot.stage = 0x0F ∧ (t.channel 0).overrun = true ∧
        s.frame t [.boot, .vcp])) ∧
    (s.boot.stage = 0x10 →
      (∃ t, exec (.twinImageReceived none) s = .next t ∧ t.boot.stage = 0x0F ∧ t.boot.waitPcie = true ∧ t.boot.error = 0x01 ∧
        s.frame t [.boot]) ∧
      (∀ bytes : List Nat, s.imageError bytes = 0 → ∃ t, exec (.twinImageReceived (some bytes)) s = .next t ∧
        s.imageApplied t (imageOf bytes) none) ∧
      (∀ bytes : List Nat, s.imageError bytes ≠ 0 → ∃ t, exec (.twinImageReceived (some bytes)) s = .next t ∧ t.boot.stage = 0x0F ∧
        t.boot.waitPcie = true ∧ t.boot.error = s.imageError bytes ∧ s.frame t [.boot]))

/-- R348, R350: order 7 follows by itself on order 6, library first (stage 0x06), then ports (0x07), and the start scene waits for no more
than that: a command that comes earlier finds it done. With that and DRAM training over, the start scene's set is opened in partition 0
without a session, with the records of the image's start scene section, and checked, which EV_CHECK_DONE tells. Where the check finds
nothing it is SCHEDULED by the rule of 'next possible': the first block start at or after MCC + 2B. Where it finds something the set stays
OPEN with error 0x0B. -/
def Obligations.StartSceneIsCheckedAndScheduled : Prop :=
  (∀ s : State, s.dev = .boot →
    (s.boot.stage = 0x05 → s.bootReady.boot.stage = 0x06 ∧ exec .startSceneCommit s = exec .startSceneCommit s.bootReady) ∧
    (s.boot.stage = 0x06 → s.bootReady.boot.stage = 0x07 ∧ exec .startSceneCommit s = exec .startSceneCommit s.bootReady)) ∧
  ∀ s : State, s.dev = .boot → s.boot.stage = 0x07 → s.boot.dram.isSome = true →
    let id := (s.openSet 0 Attrs.dflt).2
    ∃ (t : State) (x : StageSet), exec .startSceneCommit s = .next t ∧ t.boot.stage = 0x08 ∧ t.boot.startSet = some id ∧
      t.stageSet? id = some x ∧ x.sid = 0 ∧ x.added = s.startAdds ((s.boot.section 0x07).getD []) ∧
      s.told t .checkDone 0 id ((x.findings.head?.map (·.err)).getD 0) ∧
      (x.findings = [] → x.st = .scheduled ∧ x.commit = some (Fmt.cdiv (s.mcc + 2 * s.B) s.B * s.B) ∧ t.boot.error = s.boot.error) ∧
      (x.findings ≠ [] → x.st = .open ∧ x.commit = none ∧ t.boot.error = 0x0B) ∧
      s.frame t [.boot, .scene, .sessions, .ev, .mere]

/-- R343, R351–R354, R428: the device enters QUIET when the start scene is done, announcing EV_DEVICE_STATE and, from flash, EV_BOOT_SLOT,
and from there RUN at once in the third case of R352; it enters RUN from QUIET when the clock unit is locked (and aligned where that counts)
or when run_timeout has passed, announcing it likewise, every output unmuting and the image's cue lists armed. One second in QUIET without a
heartbeat gives a twin its first role, which EV_TWIN_ROLE announces. R17, R303, R337, R355: STBY_N held low in QUIET or RUN fades every
output; when every output is silent, or the bound has passed, the device is in STANDBY with every switched domain off, the MCC as it was and
the sessions gone; the clock unit stays as it was, but that a REF4 that was not lost is lost with PD_NET (R20); STBY_N going high samples
the straps and boots with the clock unit kept. In BOOT a low is withdrawn before it acted. -/
def Obligations.QuietRunAndStandby : Prop :=
  (∀ s : State,
      (s.dev = .boot → s.boot.stage = 0x08 → s.startPending = false → s.power.straps.twinEn = false → s.twin.hasRole = false →
        ∃ t, exec .enterQuiet s = .next t ∧ t.dev = (if s.runsAtOnce ∧ s.power.stbyLow = false then .run else .quiet) ∧
          t.boot.stage = (if s.runsAtOnce ∧ s.power.stbyLow = false then 0x0A else 0x09) ∧ t.twin.role = .solo ∧ t.twin.hasRole = true ∧
          t.mcc = s.mcc ∧ t.marks .deviceState ∧ (∀ b, s.boot.feed = .slot b → t.marks .bootSlot)) ∧
      (s.dev = .quiet → s.power.stbyLow = false → s.mayRun = true → ∃ t, exec .enterRun s = .next t ∧ t = s.runNow ∧ t.dev = .run ∧
        t.boot.stage = 0x0A ∧ t.mcc = s.mcc ∧ t.marks .deviceState) ∧
      (s.dev = .quiet → s.power.stbyLow = false → s.runTimeout ≠ 0xFFFFFFFF → ∃ t, exec .runTimeout s = .next t ∧ t = s.runNow ∧
        t.dev = .run ∧ t.boot.stage = 0x0A ∧ t.mcc = s.mcc ∧ t.marks .deviceState) ∧
      (s.twin.hasRole = false → s.live = true → s.power.straps.twinEn = true → s.twin.peer = none →
        let role : Role := if s.twin.peerAlive && s.power.straps.pairId then .joining else .solo
        ∃ t, exec .twinFirstRoleTimeout s = .next t ∧ t = s.setRole role 0x000A ∧ t.twin.role = role ∧ t.twin.hasRole = true ∧
          t.marks .twinRole)) ∧
  (∀ s : State,
      (s.live = true → s.power.stbyLow = false → ∃ t, exec .stbyNLowHeld s = .next t ∧
        t = (s.setPower (fun p => { p with stbyLow := true })).fadeAll ∧ t.power.stbyLow = true ∧
        s.frame t [.power, .audio, .spring, .legacy] ∧ ∀ n, n < outEntries → (t.outRt n).mute.tgt = 0) ∧
      (s.live = true → s.power.stbyLow = true → ∀ bound, (bound || s.allSilent) = true →
        ∃ t, exec (.enterStandby bound) s = .next t ∧ t.dev = .standby ∧ t.mcc = s.mcc ∧ t.power.domains = 0 ∧ t.power.holdMcc = false ∧
          ((s.cku.ref 4).st = .disabled ∨ (s.cku.ref 4).st = .lost → t.cku = s.cku) ∧
          ((s.cku.ref 4).st ≠ .disabled → (t.cku.ref 4).st = .lost) ∧ t.params = s.params ∧ t.sec = s.sec ∧
            t.scene.mstore = s.scene.mstore ∧ t.scene.sets = [] ∧
          t.vcp = VcpG.reset) ∧
      (s.dev = .standby → s.cku.twinFollow = false → ∀ x : Straps, ∃ t, exec (.stbyNHighWake x) s = .next t ∧ t.dev = .boot ∧
        t.mcc = s.mcc ∧ t.power.straps = x ∧ t.power.stbyLow = false ∧ t.cku = s.cku.wake ∧ t.scene.mstore = s.scene.mstore ∧
        t.atReset) ∧
      (s.dev = .boot → ∀ x : Straps, ∃ t, exec (.stbyNHighWake x) s = .next t ∧ t.power.stbyLow = false ∧ s.frame t [.power]))

/-- R3, R128: the end of a profile or rate change lets commits be accepted again; in QUIET the outputs stay muted, in RUN they unmute. R42:
at a frame tick, a strip with failover 2 on side B whose side A is out of loss for 2 s returns to side A, and EV_PATCH_FAILOVER says so with
the stamp, unless a commit moves the selection on that very stamp (R43). R95, R122, R126: the stage set that is due is applied at its commit
sample by the shared operation of every commit: it is COMMITTED, its contents and the plane are given up and EV_COMMIT_APPLIED is raised;
for id 0 the legacy set that is due. R418: a committed switch of a power domain completes: its state bit takes the committed value and
EV_PD_SWITCH tells the domain and the value; a domain that goes off has the masters inside it drained (R376, R394) and its contents cleared.
R230: with hsp.detect at 0, PD_HSP coming on makes the port one of type 1 with its drivers on. -/
def Obligations.CommitsSwitchesAndReverts : Prop :=
  (∀ s : State, s.scene.changing = true →
      (s.dev ≠ .run → ∃ t, exec .profileReconfigDone s = .next t ∧ t.scene = { s.scene with changing := false } ∧ s.frame t [.scene]) ∧
      (s.dev = .run → ∃ t, exec .profileReconfigDone s = .next t ∧ t = (s.setScene (fun g => { g with changing := false })).unmuteAll ∧
        t.scene = { s.scene with changing := false } ∧ s.frame t [.scene, .audio, .spring, .legacy])) ∧
  (∀ (s : State) (n b x : Nat), b + s.B + 2 = s.mcc → s.mcc % s.B = 2 → s.live = true → n < s.cap.strips → s.audio.taken ≤ b →
      s.valAt (mkH 0x05 n 3) b = 2 → s.valAt (mkH 0x05 n 2) b = 1 → s.valAt (mkH 0x05 n 0) b ≠ 0 →
      s.refLoss (s.valAt (mkH 0x05 n 0) b) = false → (Cells.get { both := false, since := none } s.audio.failover n).since = some x →
      x + 2 * s.fs ≤ s.mcc →
      (s.selectMoves n b = true → exec (.patchRevert n) s = .next s) ∧
      (s.selectMoves n b = false → ∃ t, exec (.patchRevert n) s = .next t ∧ (∃ c ∈ t.audio.changes, c.h = mkH 0x05 n 2 ∧ c.c = b ∧
        c.old = 1 ∧ c.new = 0) ∧
        s.toldD t .patchFailover (s.stripOwner n) n (3 :: two b) ∧ s.frame t [.audio, .params, .ev, .sessions])) ∧
  (∀ (s : State) (id : Nat), s.live = true →
      (∀ x, id ≠ 0 → s.commitDue id = some x →
        ∃ t, exec (.commitApplied id) s = .next t ∧
          t = s.commitSet x.added x.attrs.cfLen x.attrs.dxLen (x.commit.getD s.mcc) x.id ∧
          (∀ y ∈ t.scene.sets, y.id = id → y.st = .committed ∧ y.added = []) ∧ t.scene.holder ≠ some id ∧
          t.marks .commitApplied) ∧
      (∀ x, s.legDue = some x → ∃ t, exec (.commitApplied 0) s = .next t ∧ t = s.legCommit x ∧
        t.marks .commitApplied) ∧
      (∀ x, s.commitDue id = some x → x.id = id ∧ x ∈ s.scene.sets ∧ x.st = .scheduled ∧ ∃ c, x.commit = some c ∧ c ≤ s.mcc)) ∧
  (∀ (s : State) (d c : Nat) (on : Bool), s.fault.pdPending.find? (fun q => q.1 = d) = some (d, c, on) →
      let done := { s with
        fault := { s.fault with pdPending := s.fault.pdPending.filter (fun q => q.1 ≠ d) }
        power := { s.power with domains := Fmt.setBit s.power.domains d on } }
      (on = true → ∃ t, exec (.pdSwitchDone d) s = .next t ∧ t.power = done.power ∧ t.fault = done.fault ∧ s.told t .pdSwitch 0 d 1 ∧
        (d ≠ 7 ∨ s.at 0x22 0 0 ≠ 0 → s.frame t [.fault, .power, .ev, .sessions]) ∧
        (d = 7 → s.at 0x22 0 0 = 0 → t.ports.hsp.type = 1 ∧ t.ports.hsp.drivers = true ∧
          s.frame t [.fault, .power, .ev, .sessions, .ports, .audio, .free])) ∧
      (on = false → ∃ t, exec (.pdSwitchDone d) s = .next t ∧ t = ((State.clearDomain (done.drainDomain d) d).netDown.raise .pdSwitch 0 d 0) ∧
        t.power = done.power ∧ t.fault.pdPending = done.fault.pdPending ∧ t.marks .pdSwitch ∧
        (d = 0 → t.fab.dram = []) ∧ (d = 1 → t.net.queue = [] ∧ t.net.phc = NetG.reset.phc)))

/-! ### The frame tick and the transitions (spec/02, spec/03, R86–R92, R130) -/

/-- R24–R29, R145, R326: on its frame tick the block audio path takes one block through every stage, the interpolators' among them, the
headset output follows, the output block's digest is taken, a twin's input record goes with it, and the SUMMARY requests that wait get the
fields of that tick; at any other sample nothing changes. -/
def Obligations.FrameTickRunsTheBlockPath : Prop :=
  ∀ s : State,
    (s.atFrameTick = true → ∃ t, exec .frameTick s = .next t ∧
      t = ((((s.tickFirst.pathTick State.fillInputs (s.mcc / s.B)).phonesAdvance s.mcc).digestTick s.mcc).mirrorTick).answerSummaries) ∧
    s.summary.length = 4096 ∧
    (∀ r, s.vcp.summaries = [r] → s.answerSummaries.answers r 0x0004 0 0 [.blob s.summary] ∧
      s.answerSummaries.vcp.summaries = [] ∧ s.frame s.answerSummaries replyParts) ∧
    (s.atFrameTick = false → exec .frameTick s = .next s) ∧
    (∀ k, 5 ≤ k →
      let s0 := s.collectAll.setAudio (fun a => { a with slotIn := [] })
      let s1 := (s0.outputTick ((k - 5) * s.B) s0.mcc).interpTick ((k - 4) * s.B)
      let s2 := (s1.bussesTick ((k - 3) * s.B)).legBussesTick ((k - 3) * s.B)
      let s3 := ((s2.legOutsTick ((k - 5) * s.B) s2.mcc).mereTick ((k - 2) * s.B)).sendDests
      let s4 := (State.fillInputs ((k - 1) * s.B) s3).inputPatch ((k - 1) * s.B)
      let s5 := (s4.stripsTick ((k - 1) * s.B)).legChansTick ((k - 1) * s.B)
      s.pathTick State.fillInputs k = (s5.launchAll ((k - 2) * s.B)).prune k)

/-- R44: a pending zero-crossing stage takes its target on the sample on which its signal crosses zero; when T_zc samples bring no crossing,
its ramp starts over L_ramp samples; a ramp that has run is over and the target applies. R45, R47, R130: a crossfade that completed before
sample n is over: the new values are in force and a pending change starts on that sample. While a coefficient crossfade runs, the SCE writes
the bank it moves to, designed from the new values. -/
def Obligations.StagesMoveToTheirTargets : Prop :=
  (∀ (s : State) (h n : Nat) (z : Zc), s.reached h n = true → s.stage h = some (.zc z) →
      (∀ p, z.tp = some p → p ≤ n → ∃ t, exec (.zcStep h n) s = .next t ∧
        t = s.setStage h (.zc { z with gain := z.tgt, tp := none }) ∧ s.frame t [.audio, .mere, .spring, .conv, .legacy]) ∧
      (∀ p, z.tp = some p → p + (s.zcTimes h n).1 ≤ n → ∃ t, exec (.zcTimeout h n) s = .next t ∧
        t = s.setStage h (.zc { z with tp := none, ramp := some (n, (s.zcTimes h n).2) }) ∧
        s.frame t [.audio, .mere, .spring, .conv, .legacy]) ∧
      (∀ tr L, z.ramp = some (tr, L) → tr + L ≤ n → ∃ t, exec (.zcRampEnd h n) s = .next t ∧
        t = s.setStage h (.zc { z with gain := z.tgt, ramp := none }) ∧ s.frame t [.audio, .mere, .spring, .conv, .legacy])) ∧
  (∀ (s : State) (h n : Nat), hCls h ≠ 0x0B →
      (∀ (x : Xf) (r : XfRun), s.reached h n = true → s.stage h = some (.xf x) → x.run = some r → r.start + r.len < n →
        ∃ t, exec (.xfadeEnd h n) s = .next t ∧
          t = s.setStage h (.xf { cur := r.new, run := x.pend.map (fun p => ⟨p.1, n, p.2⟩), pend := none }) ∧
          s.frame t [.audio, .mere, .spring, .conv, .legacy]) ∧
      (∀ (f : Cf) (r : XfRun) (fields : List Nat) (design : List Nat → List Coef), hCls h = 1 ∨ hCls h = 2 → s.stage h = some (.cf f) →
        bankOf s.fs (hField h) = some (fields, design) → f.xf.run = some r →
        ∃ t, exec (.cfBankWrite h) s = .next t ∧ t = s.setStage h (.cf { f with idle := some (r.new, design r.new) }) ∧
          s.frame t [.audio]))

/-- R88: the gain of a ramp moves from its start to its target and applies the target on its last sample; on sample tr + i it is the start
plus the i + 1 parts of L of the way, truncated toward zero. -/
def Obligations.RampEndsOnItsTarget : Prop :=
  ∀ (g t : Int) (tr L i : Nat), 0 < L →
    rampGain g t tr L (tr + (L - 1)) = t ∧
    (i < L → rampGain g t tr L (tr + i) = g + Int.tdiv ((t - g) * ((i : Int) + 1)) L) ∧
    (i < L → min g t ≤ rampGain g t tr L (tr + i) ∧ rampGain g t tr L (tr + i) ≤ max g t)

/-- R86, R87, R89: NODE_GROUP_ZERO_CROSSING on a sample that the Mere has computed and not before the group's pending period or the ramp
before it began: every pending or queued node of the group applies its goal and is idle, and the pending period is over (R501); every other
node keeps its record. R89, R90: NODE_GROUP_TIMEOUT once a group has waited T_zc samples: its pending nodes ramp over L_ramp samples, or,
behind a running ramp, queue. NODE_RAMP_END when a ramp has run: its nodes apply their goals and queued nodes start the next ramp. R92:
TAP_HANDOVER_SWITCH: a node that applies 0 in a handover takes its committed tap; it is idle where its target is 0, else pending in its new
group, whose pending period runs from the earlier of its own start and this sample. A pending node whose lost field holds it until a zero
crossing (R105) does not time out. -/
def Obligations.NodeGroupsStepTimeOutAndRamp : Prop :=
  (∀ (s : State) (g n : Nat), n < s.mereStamp → (s.groupAt g).canCross n = true → s.nodesWf = true →
      ∃ t, exec (.nodeGroupZeroCrossing g n) s = .next t ∧ s.frame t [.mere] ∧
        (∀ k, s.nodeGroup n k = g → (s.node k).waits = true →
          t.node k = { s.node k with cur := (s.node k).goal, st := .idle, hold := false }) ∧
        (∀ k, s.nodeGroup n k ≠ g ∨ (s.node k).waits = false → t.node k = s.node k) ∧
        (t.groupAt g).tp = none ∧ (∀ j, j ≠ g → t.groupAt j = s.groupAt j)) ∧
  (∀ (s : State) (g n : Nat), n < s.mereStamp → s.nodesWf = true →
      (∀ p, (s.groupAt g).tp = some p → p + s.valAt (mkH 0x0A 0 1) n ≤ n → (s.groupAt g).ramp = none →
        ∃ t, exec (.nodeGroupTimeout g n) s = .next t ∧ s.frame t [.mere] ∧
          (∀ k, s.nodeGroup n k = g → (s.node k).st = .pending → (s.node k).hold = false →
            t.node k = { s.node k with st := .ramp } ∧ (t.groupAt g).ramp = some (n, s.valAt (mkH 0x0A 0 2) n)) ∧
          (∀ k, s.nodeGroup n k ≠ g ∨ (s.node k).st ≠ .pending ∨ (s.node k).hold = true → t.node k = s.node k)) ∧
      (∀ p tr L, (s.groupAt g).tp = some p → p + s.valAt (mkH 0x0A 0 1) n ≤ n → (s.groupAt g).ramp = some (tr, L) → tr < n →
        ∃ t, exec (.nodeGroupTimeout g n) s = .next t ∧ s.frame t [.mere] ∧
          (∀ k, s.nodeGroup n k = g → (s.node k).st = .pending → (s.node k).hold = false →
            t.node k = { s.node k with st := .queued }) ∧
          (∀ k, s.nodeGroup n k ≠ g ∨ (s.node k).st ≠ .pending ∨ (s.node k).hold = true → t.node k = s.node k) ∧
          (∀ k, s.nodeGroup n k = g → (s.node k).st = .ramp → (t.groupAt g).ramp = some (tr, L))) ∧
      (∀ tr L, (s.groupAt g).ramp = some (tr, L) → tr + L ≤ n →
        ∃ t, exec (.nodeRampEnd g n) s = .next t ∧ s.frame t [.mere] ∧
          (∀ k, s.nodeGroup n k = g → (s.node k).st = .ramp →
            t.node k = { s.node k with cur := (s.node k).goal, st := .idle, hold := false }) ∧
          (∀ k, s.nodeGroup n k = g → (s.node k).st = .queued →
            t.node k = { s.node k with st := .ramp } ∧ (t.groupAt g).ramp = some (n, s.valAt (mkH 0x0A 0 2) n)) ∧
          (∀ k, s.nodeGroup n k ≠ g → t.node k = s.node k)) ∧
      (∀ d x, let k := d * 4096 + x
        (s.node k).tap ≠ (s.node k).ntap → (s.node k).st = .idle → (s.node k).cur = 0 →
        ∃ t, exec (.tapHandoverSwitch d x n) s = .next t ∧ (t.node k).tap = (s.node k).ntap ∧
          (t.node k).st = (if (s.node k).tgt = 0 then .idle else .pending) ∧
          (t.node k).tgt = (s.node k).tgt ∧ (t.node k).ntap = (s.node k).ntap ∧ (t.node k).cur = 0 ∧
          (let j := (s.eventEnv n).gk k (t.node k)
           (s.node k).tgt ≠ 0 → (t.groupAt j).tp = some ((s.groupAt j).tp.getD n)) ∧
          (∀ j, j ≠ k → t.node j = s.node j) ∧ s.frame t [.mere]))

/-! ### Fault continuity (spec/15, R101–R105) -/

/-- R101, R103: a segment of a lane that serves a logical lane fails its residue check: while a spare lane is free it is recomputed,
mere.recompute counts and EV_MERE_RECOMPUTE tells the lane; the lane remembers the block. R104: a record corrected in flight counts in
mere.corrected with EV_NODE_CORRECTED; a scrubber pass counts, and every error that it corrected in a record or a table counts likewise.
R105: an uncorrectable field is restored from the committed image (target and tap) or from the record's own target (current gain). An idle
node stays idle; a node in a ramp whose target is lost goes on from the gain it applied; a node in transition whose current gain or tap is
lost waits for a zero crossing, with the gain 0 where the gain was lost. The staged fields are those of the set in the plane.
EV_NODE_RESTORED tells the destination, and no other node changes. -/
def Obligations.MereCorrectsAndFieldsAreRestored : Prop :=
  (∀ s : State, s.mereOn = true →
      (∀ (lane : Nat) (fits : Bool), s.mere.laneMap.contains lane = true → s.mere.spareLane.isSome = true →
        ∃ t, exec (.mereSegmentDetection lane fits) s = .next t ∧ t.mere.recompute = Fmt.satInc s.mere.recompute 1 ∧
          (t.mere.lane lane).retired = (s.mere.lane lane).retired ∧ s.blockNo ∈ (t.mere.lane lane).detections ∧
          t.mere.step = s.mere.step ∧ s.told t .mereRecompute 0 lane 0 ∧ s.frame t [.mere, .ev, .sessions]) ∧
      (∀ d x : Nat, s.nodeIn d x = true → ∃ t, exec (.nodeCorrected d x) s = .next t ∧
        t.mere = { s.mere with corrected := Fmt.satInc s.mere.corrected 1 } ∧ s.told t .nodeCorrected (s.nodeOwner d x) d 0 ∧
        s.frame t [.mere, .ev, .sessions]) ∧
      (∀ (nodes : List Nat) (tables : Nat), (∀ k ∈ nodes, s.nodeIn (keyDst k) (keySrc k) = true) →
        s.mere.corrected ≤ 0xFFFFFFFF → ∃ t, exec (.mereScrubPass nodes tables) s = .next t ∧
          t.mere = { s.mere with scrubs := s.mere.scrubs + 1, corrected := Fmt.satInc s.mere.corrected (nodes.length + tables) } ∧
          s.frame t [.mere, .ev, .sessions])) ∧
  (∀ (s : State) (d x f : Nat), s.mereOn = true → s.nodeIn d x = true → f < 4 → s.nodesWf = true →
      let k := nodeKey d x
      let img := Cells.get (0, 2) s.mere.image k
      let staged := s.stagedNode k
      ∃ t, exec (.nodeRestored d x f) s = .next t ∧
        ((s.node k).st = .idle → f = 0 → t.node k = { s.node k with tgt := img.1, cur := img.1 }) ∧
        ((s.node k).st = .idle → f = 1 → t.node k = { s.node k with cur := (s.node k).tgt }) ∧
        ((s.node k).st = .idle → f = 3 → t.node k = { s.node k with tap := img.2, ntap := img.2 }) ∧
        ((s.node k).st = .ramp → f = 0 → ∃ g, t.node k = { s.node k with cur := g, tgt := img.1, st := .pending }) ∧
        ((s.node k).st = .pending ∨ (s.node k).st = .queued → f = 0 → t.node k = { s.node k with tgt := img.1 }) ∧
        ((s.node k).st ≠ .idle → f = 1 →
          t.node k = { s.node k with cur := 0, tap := (s.node k).ntap, st := .pending, hold := true }) ∧
        ((s.node k).st ≠ .idle → f = 3 → t.node k = { s.node k with tap := img.2, ntap := img.2, st := .pending, hold := true }) ∧
        (f = 2 → t.node k = { s.node k with stg := (staged.map (·.1)).getD stgNone, stap := (staged.map (·.2)).getD 2 }) ∧
        (∀ j, j ≠ k → t.node j = s.node j) ∧ t.mere.restored = Fmt.satInc s.mere.restored 1 ∧
        s.told t .nodeRestored (s.nodeOwner d x) d 0 ∧ s.frame t [.mere, .ev, .sessions])

/-- R399, R405, R406, R192: the first detection of a block on an engine makes the engine recompute the task, which EV_TARN_RECOMPUTE tells
with value 1; a second one is settled by the spare (value 2) where it is free. An illegal instruction met again at the same address fails
the instance: EV_TARN_TASK_FAILED. -/
def Obligations.TarnDetectionsAreSettled : Prop :=
  ∀ (s : State) (e cause addr : Nat) (fits : Bool), e < 17 → s.tarnOn = true → cause < 5 →
    (s.eng e).st = .active ∨ (s.eng e).st = .legacy →
    ((s.eng e).cur = none → Cells.get 0 s.fault.recomputed e ≠ s.blockNo + 1 →
      ∃ t, exec (.tarnDetection e cause addr false fits) s = .next t ∧ t.fault.recomputes = Fmt.satInc s.fault.recomputes 1 ∧
        t.detections e = (s.detected e).detections e ∧ s.told t .tarnRecompute 0 e 1 ∧ s.frame t [.fault, .tarn, .ev, .sessions]) ∧
    ((s.eng e).cur = none → Cells.get 0 s.fault.recomputed e = s.blockNo + 1 → s.swapping = none → s.spareFree e = true →
      ∃ t, exec (.tarnDetection e cause addr false fits) s = .next t ∧ t.fault.recomputes = Fmt.satInc s.fault.recomputes 1 ∧
        t.fault.spareBlock = some (s.blockNo, e) ∧ s.told t .tarnRecompute 0 e 2 ∧ s.frame t [.fault, .tarn, .ev, .sessions]) ∧
    (∀ k, (s.eng e).cur = some k → cause = 4 → (s.slotRt k.inst).cause = some (4, addr) →
      ∃ t, exec (.tarnDetection e cause addr false fits) s = .next t ∧ t.fault.failedTasks = s.fault.failedTasks + 1 ∧
        (t.slotRt k.inst).failed = true ∧ s.toldD t .tarnTaskFailed (s.slotOwner k.inst) e [e, k.inst, (s.slotMod k.inst).1, addr, 2] ∧
        s.frame t [.fault, .tarn, .ev, .sessions])

/-- R402, R407, R409: an engine at the detection threshold with no task left in the block hands its tasks to the spare and is retired, with
EV_TARN_RETIRED; a spare that fails its self-test is retired, one that passes counts the test; a scrub pass counts. R410, R443: a reader of
block data takes zero for a poisoned word; with no standby the device goes on, marked faulted. -/
def Obligations.EnginesRetireAndPoisonReadsAsZero : Prop :=
  (∀ (s : State), s.tarnOn = true →
      (∀ e p, e < 17 → p < 17 → p ≠ e → (s.eng e).st = .active → (s.eng e).queue = [] → (s.eng e).cur = none →
        Sys2Proof.Machine.reached s.blockNo (s.detections e) = true → s.swapping = none → s.spare? = some p →
        ∃ t, exec (.tarnRetire e) s = .next t ∧ (t.eng e).st = .retired ∧ (t.eng p).st = .active ∧ (t.eng p).pMem = (s.eng e).pMem ∧
          (t.eng p).xMem = (s.eng e).xMem ∧ (t.eng p).yMem = (s.eng e).yMem ∧ t.fault.retired = s.fault.retired + 1 ∧
          s.told t .tarnRetired 0 e 1 ∧ s.frame t [.fault, .tarn, .ev, .sessions]) ∧
      (∀ p, s.spare? = some p → s.fault.tarn.pct = 100 → s.fault.holder = none →
        (∃ t, exec (.spareSelfTestPass true) s = .next t ∧ t.fault = { s.fault with spareTests := s.fault.spareTests + 1 } ∧
          s.frame t [.fault]) ∧
        (p < 17 → ∃ t, exec (.spareSelfTestPass false) s = .next t ∧ (t.eng p).st = .retired ∧ t.fault.retired = s.fault.retired + 1 ∧
          s.told t .tarnRetired 0 p 2 ∧ s.frame t [.fault, .tarn, .ev, .sessions])) ∧
      (s.fault.tarn.pct = 100 → ∃ t, exec .tarnScrubPass s = .next t ∧ t.fault = { s.fault with scrubs := s.fault.scrubs + 1 } ∧
        s.frame t [.fault])) ∧
  (∀ (s : State) (key i : Nat), s.twin.role = .solo →
      let zap := fun (m : Cells (List Int)) => Cells.put [] m key ((Cells.get [] m key).set i 0)
      let after := fun (a : AudioG) => { s with audio := a, twin := { s.twin with faulted := true } }
      (∃ t, exec (.poisonedBlockRead 0 key i) s = .next t ∧ t = after { s.audio with inBlk := zap s.audio.inBlk }) ∧
      (∃ t, exec (.poisonedBlockRead 1 key i) s = .next t ∧ t = after { s.audio with taps := zap s.audio.taps }) ∧
      (∃ t, exec (.poisonedBlockRead 2 key i) s = .next t ∧ t = after { s.audio with busOut := zap s.audio.busOut }) ∧
      (∃ t, exec (.poisonedBlockRead 3 key i) s = .next t ∧ t = after { s.audio with slotIn := zap s.audio.slotIn }) ∧
      (∃ t, exec (.poisonedBlockRead 4 key i) s = .next t ∧ t = after { s.audio with slotOut := zap s.audio.slotOut }))

/-- R412, R413: a rollback of the control cores counts and is told with the program address; a checkpoint ends the interval; a restart
stalls the cores with its cause, the third within 60 s halts them with cause 5; when it is done the firmware serves again. -/
def Obligations.ControlCoresRollBackAndRestart : Prop :=
  ∀ s : State,
    (s.coresRun = true → s.fault.interval = false → ∀ a, ∃ t, exec (.ccRollback a) s = .next t ∧
      t.fault.rollbacks = s.fault.rollbacks + 1 ∧ t.fault.interval = true ∧ s.toldD t .ccRollback 0 0 [a % 2 ^ 32] ∧
      s.frame t [.fault, .ev, .sessions]) ∧
    (s.coresRun = true → ∃ t, exec .ccCheckpoint s = .next t ∧ t.fault.checkpoint = s.fault.checkpoint + 1 ∧ t.fault.interval = false ∧
      s.frame t [.fault]) ∧
    (s.coresRun = true → (s.fault.restartAt.filter (s.within 60)).length < 2 → 0 < s.fs →
      (∃ t, exec .ccWatchdogExpiry s = .next t ∧ t.fault.stalled = true ∧ t.fault.restarts = s.fault.restarts + 1 ∧
        s.told t .ccRestart 0 0 3 ∧ s.frame t [.fault, .ev, .sessions]) ∧
      (s.fault.interval = true → ∃ t, exec (.ccRestart 1) s = .next t ∧ t.fault.stalled = true ∧ t.fault.halted = false ∧
        t.fault.restarts = s.fault.restarts + 1 ∧ s.told t .ccRestart 0 0 1 ∧ s.frame t [.fault, .ev, .sessions])) ∧
    (s.coresRun = true → 2 ≤ (s.fault.restartAt.filter (s.within 60)).length → 0 < s.fs → s.twin.role = .solo →
      ∃ t, exec .ccWatchdogExpiry s = .next t ∧ t.fault.halted = true ∧ t.fault.stalled = false ∧ t.twin.faulted = true ∧
        s.told t .ccRestart 0 0 5 ∧ s.frame t [.fault, .ev, .sessions, .twin]) ∧
    (s.fault.stalled = true → s.fw.pending = none → ∃ t, exec .ccRestartDone s = .next t ∧
      t = (s.setFault (fun f => { f with stalled := false })).release ∧
      (s.vcp.held = [] → s.net.owed = [] → (∀ c, (s.channel c).wait = none) →
        t.fault = { s.fault with stalled := false } ∧ s.frame t [.fault]))

/-- R414, R416: a droop report takes a clock at its nominal rate to its floor at once and counts an episode with EV_THROTTLE; a block period
without a report raises a throttled clock by 5 % of nominal, and EV_THROTTLE_END tells the return to nominal; EV_TEMP_WARN is told once
above the limit. R419, R420: the maintenance token. A request while it is free takes it, with EV_MAINT_START; while it is held, the request
waits, or with no-wait fails with E_BUSY; the status lists holder and queue; a free token passes to the request that has waited longest; the
end of an activity frees it, with EV_MAINT_END. -/
def Obligations.ThrottlingAndMaintenance : Prop :=
  (∀ (s : State) (m : Bool),
      ((if m then s.mereOn else s.tarnOn) = true → (s.fault.throttle m).pct = 100 → ∃ t, exec (.droopReport m) s = .next t ∧
        (t.fault.throttle m).pct = (if m then 85 else 75) ∧ t.fault.throttle (!m) = s.fault.throttle (!m) ∧
        t.fault.episodes = s.fault.episodes + 1 ∧ s.told t .throttle 0 (Fmt.b2n m) 0 ∧ s.frame t [.fault, .ev, .sessions]) ∧
      ((s.fault.throttle m).pct < 95 → (s.fault.throttle m).report = false → ∃ t, exec (.throttleStep m) s = .next t ∧
        (t.fault.throttle m).pct = (s.fault.throttle m).pct + 5 ∧ t.fault.throttle (!m) = s.fault.throttle (!m) ∧ s.frame t [.fault]) ∧
      ((s.fault.throttle m).pct = 95 → (s.fault.throttle m).report = false → ∃ t, exec (.throttleStep m) s = .next t ∧
        (t.fault.throttle m).pct = 100 ∧ s.told t .throttleEnd 0 (Fmt.b2n m) 0 ∧ s.frame t [.fault, .ev, .sessions]) ∧
      (∀ c : Int, tempLimit < c → s.fault.warm = false → ∃ t, exec (.tempWarn c) s = .next t ∧ t.fault = { s.fault with warm := true } ∧
        s.told t .tempWarn 0 0 0 ∧ s.frame t [.fault, .ev, .sessions]) ∧
      (∀ c : Int, c + 5 ≤ tempLimit → ∃ t, exec (.tempWarn c) s = .next t ∧ t.fault = { s.fault with warm := false } ∧ s.frame t [.fault])) ∧
  (∀ s : State,
      (∀ (r : Req) (x : Session) (target : Nat), s.admits r 0 x → target < 30 → s.fault.holder = none → s.fault.queue = [] →
        ∃ t, exec (.maintRequest r 3 target false) s = .next t ∧ t.answers r 0x0603 0 0 [] ∧
          t.fault = { s.fault with holder := some { code := 3, target := target, sid := r.sid } } ∧
          t.ev = ((s.admitted r).raise .maintStart 0 3 target).ev ∧
          s.frame t [.fault, .ev, .sessions, .vcp]) ∧
      (∀ (r : Req) (x : Session) (target : Nat), s.admits r 0 x → target < 30 → s.fault.holder.isSome = true →
        (s.fault.queue.length < 8 → ∃ t, exec (.maintRequest r 3 target false) s = .next t ∧ t.answers r 0x0603 0 0 [] ∧
          t.fault = { s.fault with queue := s.fault.queue ++ [{ code := 3, target := target, sid := r.sid }] } ∧
          s.frame t [.fault, .sessions, .vcp]) ∧
        (∃ t, exec (.maintRequest r 3 target true) s = .next t ∧ t.answers r 0x0603 Err.busy 0 [] ∧ s.frame t [.sessions, .vcp])) ∧
      (∀ (r : Req) (x : Session), s.admits r 2 x → s.fault.holder = none → s.fault.queue = [] →
        ∃ t, exec (.maintStatus r) s = .next t ∧ t.answers r 0x0604 0 0 [.words [0, 0, 0]] ∧ s.frame t [.sessions, .vcp]) ∧
      (∀ (m : Maint) (rest : List Maint), s.fault.holder = none → s.fault.queue = m :: rest → m.code = 3 →
        ∃ t, exec .maintGrant s = .next t ∧ t.fault = { s.fault with holder := some m, queue := rest } ∧
          s.told t .maintStart 0 3 m.target ∧ s.frame t [.fault, .ev, .sessions]) ∧
      (∀ (m : Maint) (ok : Bool), s.fault.holder = some m → m.code = 3 →
        ∃ t, exec (.maintActivityEnd ok) s = .next t ∧ t.fault = { s.fault with holder := none } ∧
          t.fab.evacuated = (if ok then s.fab.evacuated else m.target :: s.fab.evacuated) ∧ s.told t .maintEnd 0 3 m.target ∧
          s.frame t [.fault, .fab, .ev, .sessions]))

/-- R392–R396: a crossing whose far clock stops is fenced and drops what was pending and what its master's port queue holds, with
EV_CDC_TIMEOUT; with the firmware not running the group waits for its reset. A reset group that is asked to reset resumes the crossings
fenced on it; a reset indication flushes a crossing and takes the incoming count as its baseline. A lone domain's reset touches nothing
else. -/
def Obligations.CrossingsAreFencedAndResume : Prop :=
  ∀ (s : State) (x : Nat), x < 65536 →
    (∀ g : ResetName, (s.fab.crossing x).fence = none → s.serves = false → Cells.wf Crossing.reset s.fab.crossings = true →
      ∃ t, exec (.crossingClockStopped x g) s = .next t ∧ (t.fab.crossing x).fence = some g ∧ (t.fab.crossing x).pending = 0 ∧
        (∀ m, crossingPort x = some m → Cells.get [] t.fab.held m = [] ∧ ∀ k, ∀ u ∈ Cells.get [] t.fab.waiting k, u.master ≠ m) ∧
        (∀ y, y ≠ x → t.fab.crossing y = s.fab.crossing y) ∧ t.fab.cdcTimeout = Fmt.satInc s.fab.cdcTimeout 1 ∧
        s.told t .cdcTimeout 0 x 0 ∧ s.frame t [.fab, .ev, .sessions]) ∧
    (Cells.wf Crossing.reset s.fab.crossings = true →
      ∃ t, exec (.crossingResetIndication x) s = .next t ∧ (t.fab.crossing x).pending = 0 ∧ (t.fab.crossing x).published = 0 ∧
        (t.fab.crossing x).last = 0 ∧ (∀ y, y ≠ x → t.fab.crossing y = s.fab.crossing y) ∧ t.fab.xrst = Fmt.satInc s.fab.xrst 1 ∧
        s.told t .xrst 0 x 0 ∧ s.frame t [.fab, .ev, .sessions]) ∧
    (∀ n : Nat, Cells.wf Crossing.reset s.fab.crossings = true → s.fab.crossings.filter (fun c => c.2.fence = some (.lone n)) =
        [(x, s.fab.crossing x)] →
      ∃ t, exec (.resetGroupRequest (.lone n)) s = .next t ∧ (t.fab.crossing x).fence = none ∧ s.told t .xrst 0 x 0 ∧
        s.frame t [.fab, .ev, .sessions])

/-! ### The spring mixer and the converters (spec/05, spec/09) -/

/-- R139–R145, R148: one spring period without a detection takes what was committed, steps the entries and computes every mix: one more
spring sample is counted, nothing committed is left waiting, and the engine-rate path, its parameters and its clock are not touched. With
PD_SPRING off nothing is mixed, and the spring samples by which the decimators count go on (R20, R242). -/
def Obligations.SpringPeriodComputesOneSample : Prop :=
  ∀ s : State, s.live = true →
    (Fmt.bit s.power.domains 5 = true → ∃ t, exec (.springPeriod []) s = .next t ∧ t.spring.n = s.spring.n + 1 ∧ t.spring.pend = [] ∧
      t.spring.phase = s.spring.tickPhase s.mcc ∧ s.frame t [.spring, .conv, .twin, .free, .ev, .sessions]) ∧
    (Fmt.bit s.power.domains 5 = false → ∀ l, ∃ t, exec (.springPeriod l) s = .next t ∧ t.spring.n = s.spring.n + 1 ∧
      t.spring.pend = [] ∧ t.spring.step = s.spring.step ∧ t.spring.srcs = s.spring.srcs ∧ t.spring.outQ = s.spring.outQ ∧
      s.frame t [.spring, .conv, .ev, .sessions])

/-- R149, R150, R153: a spring entry that applies 0 in a handover takes its committed source; an output slot whose handover gain is pending
steps to its target; an output whose bit clock returns leaves the stopped ones and sends on from the newest sample of its queue. R152, R154:
a spring source whose port flags loss fades from its held value and holds no samples; a spring unit with three detections in 4096 spring
samples is retired with EV_SPRING_UNIT_RETIRED while fewer than three are, and with EV_SPRING_SPARE_EXHAUSTED no unit takes its place. -/
def Obligations.SpringHandoversAndLoss : Prop :=
  (∀ s : State,
      (∀ m i, m < 16 → i < 64 → Cells.wf springNode0 s.spring.step.nodes = true →
        let k := m * 64 + i
        let x := Cells.get springNode0 s.spring.step.nodes k
        x.tap ≠ x.ntap → x.st = .idle → x.cur = 0 →
        ∃ t, exec (.springSourceHandover m i) s = .next t ∧ (Cells.get springNode0 t.spring.step.nodes k).tap = x.ntap ∧
          (∀ j, j ≠ k → Cells.get springNode0 t.spring.step.nodes j = Cells.get springNode0 s.spring.step.nodes j) ∧
          s.frame t [.spring]) ∧
      (∀ m ref, m < 16 → Cells.wf SpringMix.reset s.spring.mixes = true → ∃ t, exec (.springOutputHandover m ref) s = .next t ∧
        (t.spring.mix m).slots = (s.spring.mix m).slots.map (fun c =>
          if c.1 = ref ∧ c.2.tp.isSome then (c.1, { c.2 with gain := c.2.tgt, tp := none }) else c) ∧
        (∀ j, j ≠ m → t.spring.mix j = s.spring.mix j) ∧ s.frame t [.spring]) ∧
      (∀ ref, s.spring.stopped.contains ref = true → ∃ t, exec (.springOutputClockReturn ref) s = .next t ∧
        t.spring.stopped = s.spring.stopped.filter (· ≠ ref) ∧
        Cells.get [] t.spring.outQ ref = (Cells.get [] s.spring.outQ ref).take 1 ∧ t.spring.mixes = s.spring.mixes ∧ s.frame t [.spring])) ∧
  (∀ s : State,
      (∀ ref, s.springLoss ref = true → (s.spring.src ref).lost = false → ∃ t, exec (.springSourceClockLoss ref) s = .next t ∧
        (t.spring.src ref).lost = true ∧ (t.spring.src ref).fade = some ((s.spring.src ref).held, 0) ∧ (t.spring.src ref).queue = [] ∧
        s.frame t [.spring]) ∧
      (∀ u, u < 12 → s.spring.retired.contains u = false →
        3 ≤ ((Cells.get [] s.spring.detect u).filter (fun k => decide (s.spring.n ≤ k + 4096))).length →
        (s.spring.retired.length < 3 → ∃ t, exec (.springUnitRetire u) s = .next t ∧ t.spring.retired = s.spring.retired ++ [u] ∧
          s.told t .springUnitRetired 0 u 0 ∧ s.frame t [.spring, .ev, .sessions]) ∧
        (3 ≤ s.spring.retired.length → ∃ t, exec (.springUnitRetire u) s = .next t ∧ t.spring.retired = s.spring.retired ∧
          s.told t .springSpareExhausted 0 u 0 ∧ s.frame t [.spring, .ev, .sessions])))

/-- R237, R238: an acquiring SRC channel locks to its measured ratio and raises EV_SRC_LOCK; a locked one that loses its ratio acquires
again, counts the unlock, fades out and raises EV_SRC_UNLOCK. R245: a decimator channel whose outputs have both reached 0 switches its input
and is silent for 64 spring samples; the silence ends when they have passed. -/
def Obligations.ConvertersLockAndSwitch : Prop :=
  (∀ (s : State) (i : Nat),
      let x := Cells.get SrcCh.reset s.conv.src i
      x.user ≠ 0 → x.fixed = false →
      (∀ ratio, x.acq = true → ∃ t, exec (.srcLock i ratio) s = .next t ∧ (Cells.get SrcCh.reset t.conv.src i).locked = true ∧
        (Cells.get SrcCh.reset t.conv.src i).acq = false ∧ (Cells.get SrcCh.reset t.conv.src i).ratio = ratio ∧
        s.told t .srcLock 0 i 0 ∧ s.frame t [.conv, .audio, .free, .ports, .net, .ev, .sessions]) ∧
      (∀ out, x.locked = true → ∃ t, exec (.srcUnlock i out) s = .next t ∧ (Cells.get SrcCh.reset t.conv.src i).locked = false ∧
        (Cells.get SrcCh.reset t.conv.src i).acq = true ∧ (Cells.get SrcCh.reset t.conv.src i).out = out ∧
        (Cells.get SrcCh.reset t.conv.src i).unlocks = Fmt.satInc x.unlocks 1 ∧ s.told t .srcUnlock 0 i 0 ∧
        s.frame t [.conv, .audio, .free, .ev, .sessions])) ∧
  (∀ (s : State) (i : Nat), i < 64 →
      (∀ w, (s.decCh i).want = some w → ((s.decAdvance i s.mcc).decCh i).out8.silent s.spring.n = true →
        ((s.decAdvance i s.mcc).decCh i).outE.silent s.mcc = true → ∃ t, exec (.decInputSwitch i) s = .next t ∧ (t.decCh i).input = w ∧
          (t.decCh i).want = none ∧ (t.decCh i).silence = some (s.spring.n + 64) ∧ s.frame t [.conv, .audio, .free]) ∧
      (∀ n, (s.decCh i).silence = some n → n ≤ s.spring.n → ∃ t, exec (.decSilenceEnd i) s = .next t ∧
        t = (s.updDec i (fun x => { x with silence := none })).decUnmute i ∧ (t.decCh i).silence = none ∧
        (t.decCh i).input = (s.decCh i).input ∧ s.frame t [.conv, .audio, .free]))

/-- R249–R251: a DECSYNC request schedules c: 'next possible' gives the first block boundary at least 32 + 2B samples ahead, and the reply
carries it; the outputs fade 32 samples before it; at it every channel in use restarts, the hold and the pin pulse start, the counter counts
and EV_DECSYNC carries c; the hold ends after dec.sync_hold spring samples. A pin edge while one is scheduled is ignored with
EV_DECSYNC_IGNORED, another schedules MCC + 32. -/
def Obligations.DecsyncRunsItsCourse : Prop :=
  ∀ s : State,
    (∀ (r : Req) (x : Session), s.admits r 0 x → s.asks r (.decsync r .next) = true → s.conv.sched = none →
      ∃ t, exec (.decsync r .next) s = .next t ∧
        t.answers r 0x0505 0 0 [.mcc (Fmt.cdiv (s.mcc + 32 + 2 * s.B) s.B * s.B)] ∧
        t.conv = { s.conv with sched := some (Fmt.cdiv (s.mcc + 32 + 2 * s.B) s.B * s.B), byPin := false, fading := false } ∧
        s.frame t [.conv, .sessions, .vcp]) ∧
    (∀ c, s.conv.sched = some c → s.conv.fading = false → c ≤ s.mcc + 32 →
      ∃ t, exec .decsyncFadeStart s = .next t ∧ t.conv.fading = true ∧ t.conv.sched = some c ∧ t.conv.src = s.conv.src ∧
        s.frame t [.conv, .audio, .free]) ∧
    (∀ c, s.conv.sched = some c → c ≤ s.mcc → ∃ t, exec .decsyncReset s = .next t ∧ t.conv.sched = none ∧
      (∀ i ∈ s.decUsed, (t.decCh i).phase8 = 0 ∧ (t.decCh i).phase16 = 0) ∧ t.conv.src = s.conv.src ∧
        t.conv.hold = some (s.spring.n + s.at 0x25 0 2) ∧ t.conv.count = (s.conv.count + 1) % 2 ^ 32 ∧
      t.conv.pulse = (if s.at 0x25 0 0 = 1 then s.at 0x25 0 1 else 0) ∧ s.toldD t .decsync 0 0 (two c) ∧
      s.frame t [.conv, .audio, .free, .ev, .sessions]) ∧
    (s.at 0x25 0 0 = 2 → s.conv.sched.isSome = true → ∃ t, exec .decsyncPinEdge s = .next t ∧ s.told t .decsyncIgnored 0 0 0 ∧
      s.frame t [.ev, .sessions]) ∧
    (s.at 0x25 0 0 = 2 → s.conv.sched = none → s.conv.hold = none → s.obeys = false → ∃ t, exec .decsyncPinEdge s = .next t ∧
      t.conv = { s.conv with sched := some (s.mcc + 32), byPin := true, fading := false } ∧ s.frame t [.conv, .twin]) ∧
    (∀ n, s.conv.hold = some n → n ≤ s.spring.n → ∃ t, exec .decsyncHoldEnd s = .next t ∧
      t.conv.hold = none ∧ t.conv.sched = s.conv.sched ∧ t.conv.src = s.conv.src ∧ s.frame t [.conv, .audio, .free])

/-! ### The Tarn engines (spec/06, spec/07) -/

/-- R164, R171, R172, R175: ADD, SUB, NEG, ABS, AND, OR, XOR, NOT, ASL, ASR, LSR, MIN, MAX, CMP, TST, CLR, RND and SAT, without or with
parallel moves, complete: dst takes the operation's result and SR its flags; the parallel moves load, store and post-modify as R171 and R172
say; every other data register and accumulator, the other address registers and the memories keep their contents, and no other engine
changes. Outside loops and delay slots the next address follows the instruction's words. A move outside the windows of the running task is
told (R158). -/
def Obligations.AluWritesItsResultAndFlags : Prop :=
  ∀ (s : State) (e op : Nat) (x : Engine) (f : AluF) (c : Nat → AluF → Instr), (op, c) ∈ aluCommands → s.canRun e x →
    f.mv.all Tarn.movesOk = true → f.dst < 12 → f.src1 < 12 → f.src2 < 12 → f.shift < 64 →
    let b := Tarn.bank x
    let wide := fun k => if k < 8 then Tarn.toAcc (Tarn.rdD b k) else Tarn.accSeen x (k - 8)
    let word := fun k => if k < 8 then Tarn.rdD b k else Tarn.accH (Tarn.accSeen x (k - 8))
    ∃ (t : State) (r : Tarn.AluR), exec (c e f) s = .next t ∧
      Tarn.alu op (decide (f.dst < 8)) (wide f.src1) (wide f.src2) (word f.src1) (word f.src2) f.shift b.sr = some r ∧
      Tarn.MovesAfter x (t.eng e) (movesOf f.mv) (fun i => if i = f.dst then r.d.getD (Tarn.rdD b i) else Tarn.rdD b i)
        (fun i => if i + 8 = f.dst then r.acc.getD (Tarn.rdAcc b i) else Tarn.rdAcc b i) r.sr ∧
      (x.slots = none → x.view = [] → (t.eng e).pc = x.pc + movesW f.mv) ∧ s.onEngineMoves t e x (movesOf f.mv)

/-- R165, R175: ADD and SUB of two D registers into a D register: with SAT set, the exact sum or difference saturated to E48; V says that it
lay outside, Z and N follow the result, C is the carry or borrow, and SV sticks. MIN and MAX give the smaller and the larger; ABS of the
most negative word saturates. -/
def Obligations.AddAndSubSaturate : Prop :=
  ∀ (a b : W48) (k : Nat) (sr : Word), Tarn.srSat sr = true →
    (∃ r, Tarn.alu 0x00 true (Tarn.toAcc a) (Tarn.toAcc b) a b k sr = some r ∧
      r.d = some (BitVec.ofInt 48 (Fmt.satS 48 (a.toInt + b.toInt))) ∧ r.acc = none ∧
      Tarn.flag r.sr Tarn.bV = Fmt.overS 48 (a.toInt + b.toInt) ∧
      Tarn.flag r.sr Tarn.bZ = decide (Fmt.satS 48 (a.toInt + b.toInt) = 0) ∧
      Tarn.flag r.sr Tarn.bN = decide (Fmt.satS 48 (a.toInt + b.toInt) < 0) ∧
      Tarn.flag r.sr Tarn.bSV = (Tarn.flag sr Tarn.bSV || Fmt.overS 48 (a.toInt + b.toInt))) ∧
    (∃ r, Tarn.alu 0x01 true (Tarn.toAcc a) (Tarn.toAcc b) a b k sr = some r ∧
      r.d = some (BitVec.ofInt 48 (Fmt.satS 48 (a.toInt - b.toInt))) ∧
      Tarn.flag r.sr Tarn.bV = Fmt.overS 48 (a.toInt - b.toInt)) ∧
    (∃ r, Tarn.alu 0x0B true (Tarn.toAcc a) (Tarn.toAcc b) a b k sr = some r ∧ r.d = some (if b.toInt < a.toInt then b else a)) ∧
    (∃ r, Tarn.alu 0x0C true (Tarn.toAcc a) (Tarn.toAcc b) a b k sr = some r ∧ r.d = some (if a.toInt < b.toInt then b else a)) ∧
    (∃ r, Tarn.alu 0x03 true (Tarn.toAcc a) (Tarn.toAcc b) a b k sr = some r ∧
      r.d = some (BitVec.ofInt 48 (Fmt.satS 48 (if a.toInt < 0 then -a.toInt else a.toInt))))

/-- R162, R163, R171, R172: MAC, MSU and MPY, without or with parallel moves, complete. Each unit adds, subtracts or loads the product of
two data registers, rounded to 64 fraction bits, into its accumulator, saturated to ACC80; AV sticks where a limit was reached. A single MAC
has one unit. The quad patterns have four: 0 with Dn and Dn+4, 1 and 2 with Dn and D4 (2 shifting D0–D2 up), 3 as a complex product, whose
second unit does the opposite. The parallel moves load, store and post-modify; nothing else of the engine's registers and memories and no
other engine changes. -/
def Obligations.MacAccumulatesRoundedProducts : Prop :=
  ∀ (s : State) (e op : Nat) (x : Engine) (f : MacF) (c : Nat → MacF → Instr), (op, c) ∈ macCommands → s.canRun e x →
    f.mv.all Tarn.movesOk = true → f.acc < 4 → f.dx < 8 → f.dy < 8 → (f.quad = true → f.dx = 0 ∧ f.dy = 0) →
    let b := Tarn.bank x
    let sum := fun (k : Nat) (q : Int × Nat × Nat) =>
      let p := q.1 * prod64 (Tarn.rdD b q.2.1).toInt (Tarn.rdD b q.2.2).toInt
      if op = 0 then (Tarn.rdAcc b k).toInt + p else if op = 1 then (Tarn.rdAcc b k).toInt - p else p
    let limited := (List.range 4).any (fun k => (f.unit k).any (fun q => Fmt.overS 80 (sum k q)))
    ∃ t, exec (c e f) s = .next t ∧
      Tarn.MovesAfter x (t.eng e) (movesOf f.mv)
        (fun i => if f.quad = true ∧ f.acc = 2 ∧ 1 ≤ i ∧ i ≤ 3 then Tarn.rdD b (i - 1) else Tarn.rdD b i)
        (fun k => (f.unit k).elim (Tarn.rdAcc b k) (fun q => BitVec.ofInt 80 (Fmt.satS 80 (sum k q))))
        (if limited then Tarn.setFlag b.sr Tarn.bAV true else b.sr) ∧
      (x.slots = none → x.view = [] → (t.eng e).pc = x.pc + movesW f.mv) ∧ s.onEngineMoves t e x (movesOf f.mv)

/-- R157, R161, R164, R167, R172: NOP changes no register; SHORT_IMMEDIATE fills the upper 24 bits of a D register and clears the lower;
LONG_IMMEDIATE loads a D register or an accumulator; MOVE copies between D registers and accumulators; LOAD_STORE loads a D register from X
or Y, and AGU_OPERATION writes an address register. Outside loops and delay slots the next address follows the instruction's words. R176:
LOG2, EXP2, RECIP and RSQRT write their result to dst; outside their range they give the extreme value the spec names and set V and SV: LOG2
of zero or less the most negative word, EXP2 of 7 or more the largest, EXP2 below −40 zero, RECIP and RSQRT of zero the largest. No other
register changes. -/
def Obligations.MovesAndNonlinearResults : Prop :=
  (∀ (s : State) (e : Nat) (x : Engine), s.canRun e x →
      let b := Tarn.bank x
      (∃ t, exec (.nop e) s = .next t ∧ (x.slots = none → x.view = [] → Tarn.bank (t.eng e) = b ∧ (t.eng e).pc = x.pc + 1) ∧
        s.onEngine t e) ∧
      (∀ d i, d < 8 → i < 2 ^ 24 → ∃ t, exec (.shortImmediate e d i) s = .next t ∧ (∀ j, j < 8 → Tarn.rdD (Tarn.bank (t.eng e)) j =
        if j = d then BitVec.ofNat 48 (i * 2 ^ 24) else Tarn.rdD b j) ∧ (Tarn.bank (t.eng e)).acc = b.acc ∧
        (Tarn.bank (t.eng e)).sr = b.sr ∧ (x.slots = none → x.view = [] → (t.eng e).pc = x.pc + 1) ∧ s.onEngine t e) ∧
      (∀ d i, d < 12 → i < 2 ^ 48 → ∃ t, exec (.longImmediate e d i) s = .next t ∧
        (d < 8 → Tarn.rdD (Tarn.bank (t.eng e)) d = BitVec.ofNat 48 i) ∧
        (8 ≤ d → Tarn.rdAcc (Tarn.bank (t.eng e)) (d - 8) = Tarn.toAcc (BitVec.ofNat 48 i)) ∧ (Tarn.bank (t.eng e)).sr = b.sr ∧
        (x.slots = none → x.view = [] → (t.eng e).pc = x.pc + 2) ∧ s.onEngine t e) ∧
      (∀ d k, d < 8 → k < 8 → ∃ t, exec (.move e d k) s = .next t ∧ (∀ j, j < 8 → Tarn.rdD (Tarn.bank (t.eng e)) j =
        if j = d then Tarn.rdD b k else Tarn.rdD b j) ∧ (Tarn.bank (t.eng e)).sr = b.sr ∧ s.onEngine t e) ∧
      (∀ d k, 8 ≤ d → d < 12 → 8 ≤ k → k < 12 → ∃ t, exec (.move e d k) s = .next t ∧
        Tarn.rdAcc (Tarn.bank (t.eng e)) (d - 8) = Tarn.accSeen x (k - 8) ∧ s.onEngine t e) ∧
      (∀ (y : Bool) (d an : Nat), d < 8 → an < 8 → Tarn.allowed x y (Tarn.aguSeen x 0 an % 2 ^ 15) false = true →
        ∃ t, exec (.loadStore e { y := y, store := false, reg := d, an := an, mode := 0, addr := 0 }) s = .next t ∧
          Tarn.rdD (Tarn.bank (t.eng e)) d =
            BitVec.ofNat 48 (Cells.get 0 (if y then x.yMem else x.xMem) (Tarn.aguSeen x 0 an % 2 ^ 15)) ∧
          (t.eng e).xMem = x.xMem ∧ (t.eng e).yMem = x.yMem ∧ s.onEngine t e) ∧
      (∀ k i, k < 8 → i < 2 ^ 15 → ∃ t, exec (.aguOperation e { op := 0, kind := 0, index := k, d := 0, imm := i }) s = .next t ∧
        Tarn.rdA (Tarn.bank (t.eng e)) k = BitVec.ofNat 15 i ∧ (Tarn.bank (t.eng e)).d = b.d ∧ s.onEngine t e)) ∧
  (∀ (s : State) (e op : Nat) (x : Engine) (c : Nat → Nat → Nat → Instr) (d k : Nat), (op, c) ∈ nonlinearCommands → s.canRun e x →
      d < 8 → k < 8 →
      let b := Tarn.bank x
      let v := (Tarn.rdD b k).toInt
      ∃ (t : State) (w : W48) (ov : Bool), exec (c e d k) s = .next t ∧ Tarn.nonlinear op (Tarn.rdD b k) = some (w, ov) ∧
        (∀ j, j < 8 → Tarn.rdD (Tarn.bank (t.eng e)) j = if j = d then w else Tarn.rdD b j) ∧
        (Tarn.bank (t.eng e)).acc = b.acc ∧ (ov = false → (Tarn.bank (t.eng e)).sr = b.sr) ∧
        (ov = true → Tarn.flag (Tarn.bank (t.eng e)).sr Tarn.bV = true ∧ Tarn.flag (Tarn.bank (t.eng e)).sr Tarn.bSV = true) ∧
        (op = 0 → v ≤ 0 → w.toInt = -2 ^ 47 ∧ ov = true) ∧ (op = 1 → 7 * 2 ^ 40 ≤ v → w.toInt = 2 ^ 47 - 1 ∧ ov = true) ∧
        (op = 1 → v < -(40 * 2 ^ 40) → w = 0#48 ∧ ov = true) ∧ (op = 2 → v = 0 → w.toInt = 2 ^ 47 - 1 ∧ ov = true) ∧
        (op = 3 → v ≤ 0 → w.toInt = 2 ^ 47 - 1 ∧ ov = true) ∧ s.onEngine t e)

/-- R158: a store inside the windows of the running task writes one word and no other; outside them it is suppressed, sets SV and is told by
EV_TARN_BOUNDS with engine, task and address, and a load outside them gives 0. -/
def Obligations.StoresStayInsideTheWindows : Prop :=
  ∀ (s : State) (e : Nat) (x : Engine) (y : Bool) (d an : Nat), s.canRun e x → d < 8 → an < 8 →
    let ad := Tarn.aguSeen x 0 an % 2 ^ 15
    let old := fun (z : Engine) => if y then z.yMem else z.xMem
    let other := fun (z : Engine) => if y then z.xMem else z.yMem
    (Tarn.allowed x y ad true = true → Cells.wf 0 (old x) = true →
      ∃ t, exec (.loadStore e { y := y, store := true, reg := d, an := an, mode := 0, addr := 0 }) s = .next t ∧
        Cells.get 0 (old (t.eng e)) ad = (Tarn.rdD (Tarn.bank x) d).toNat ∧
        (∀ k, k ≠ ad → Cells.get 0 (old (t.eng e)) k = Cells.get 0 (old x) k) ∧ other (t.eng e) = other x ∧
        (Tarn.bank (t.eng e)).d = (Tarn.bank x).d ∧ s.onEngine t e) ∧
    (Tarn.allowed x y ad true = false →
      ∃ t, exec (.loadStore e { y := y, store := true, reg := d, an := an, mode := 0, addr := 0 }) s = .next t ∧
        (t.eng e).xMem = x.xMem ∧ (t.eng e).yMem = x.yMem ∧ Tarn.flag (Tarn.bank (t.eng e)).sr Tarn.bSV = true ∧
        s.toldD t .tarnBounds 0 e [e, x.task, ad] ∧ (∀ j, j ≠ e → t.eng j = s.eng j) ∧ s.frame t [.tarn, .ev, .sessions]) ∧
    (Tarn.allowed x y ad false = false →
      ∃ t, exec (.loadStore e { y := y, store := false, reg := d, an := an, mode := 0, addr := 0 }) s = .next t ∧
        Tarn.rdD (Tarn.bank (t.eng e)) d = 0#48 ∧ s.toldD t .tarnBounds 0 e [e, x.task, ad] ∧ (∀ j, j ≠ e → t.eng j = s.eng j) ∧
        s.frame t [.tarn, .ev, .sessions])

/-- R183, R185: a taken BRANCH, CALL, RET or END leaves two delay slots and takes effect after them: BRANCH goes to its target, CALL pushes
the address after the second slot, RET goes to the address on top and pops it, END ends the frame task. An untaken one falls through. CALL
at a depth of 8 and RET at a depth of 0 are illegal, taken or not: EV_TARN_ILLEGAL, and the task stops. -/
def Obligations.ControlFlowHasTwoDelaySlots : Prop :=
  ∀ (s : State) (e c : Nat) (x : Engine), s.canRun e x → x.slots = none →
    let b := Tarn.bank x
    let taken := Tarn.cond c b.sr = some true
    let untaken := Tarn.cond c b.sr = some false ∧ x.view = []
    let goes := fun (i : Instr) (a : After) (stack : List (BitVec 14)) => ∃ t, exec i s = .next t ∧ (t.eng e).slots = some (2, a) ∧
      (t.eng e).pc = x.pc + 1 ∧ Tarn.bank (t.eng e) = { b with cstk := stack } ∧ (t.eng e).cur.isSome = x.cur.isSome ∧
      (t.eng e).xMem = x.xMem ∧ (t.eng e).yMem = x.yMem ∧ s.onEngine t e
    let stops := fun (i : Instr) => ∀ k, x.cur = some k → ∃ t, exec i s = .next t ∧ t.eng e = { x with halt := some (.illegal, x.pc) } ∧
      s.toldD t .tarnIllegal 0 e [e, k.inst, x.pc] ∧ (∀ j, j ≠ e → t.eng j = s.eng j) ∧ s.frame t [.tarn, .ev, .sessions]
    (∀ target, Tarn.inCode x target = true →
      (taken → goes (.branch e c target) (.goto target) b.cstk) ∧ (untaken → goes (.branch e c target) .fall b.cstk) ∧
      (taken → b.cstk.length < 8 → goes (.call e c target) (.call target) (BitVec.ofNat 14 (x.pc + 3) :: b.cstk)) ∧
      (untaken → b.cstk.length < 8 → goes (.call e c target) .fall b.cstk)) ∧
    (∀ a rest, b.cstk = a :: rest → (taken → goes (.ret e c) (.goto a.toNat) rest) ∧ (untaken → goes (.ret e c) .fall b.cstk)) ∧
    (taken → goes (.endTask e c) .endTask b.cstk) ∧ (untaken → goes (.endTask e c) .fall b.cstk) ∧
    (∀ target, 8 ≤ b.cstk.length → stops (.call e c target)) ∧ (b.cstk = [] → stops (.ret e c))

/-- R177–R182: REP arms its count, at most 4096, for the next instruction, which then runs that many times; LOOP pushes a level that starts
after it and ends at its end address, a register count of 0 skipping the body; LPUSH pushes a cleared level; ENDL and LPOP pop the top
level; each of the four empties the loop cache or starts it anew. R177: with a REP armed, the instruction after it takes effect that many
times before the next address; R192: where the task's declared cost leaves cycles for fewer, it takes effect that many times and the task
stands at it with its cost spent. -/
def Obligations.LoopsAndRepeatsRun : Prop :=
  (∀ (s : State) (e : Nat) (x : Engine), s.canRun e x → x.slots = none →
      (∀ n, 1 ≤ n → n ≤ 4096 → ∃ t, exec (.rep e (.imm n)) s = .next t ∧ (t.eng e).rep = some n ∧
        Tarn.bank (t.eng e) = Tarn.bank x ∧ s.onEngine t e) ∧
      (∀ n le, 1 ≤ n → n ≤ 1024 → x.loops.length < 4 → x.pc + 2 ≤ le → le < 16384 → ∃ t, exec (.loop e (.imm n) le) s = .next t ∧
        (t.eng e).loops = { lc := BitVec.ofNat 16 n, ls := BitVec.ofNat 14 (x.pc + 1), le := BitVec.ofNat 14 le } :: x.loops ∧
        (t.eng e).pc = x.pc + 1 ∧ Tarn.bank (t.eng e) = Tarn.bank x ∧ (t.eng e).cache.isSome = decide (le - x.pc ≤ 32) ∧
        s.onEngine t e) ∧
      (∀ d le, d < 8 → (Tarn.rdD (Tarn.bank x) d).toNat % 65536 = 0 → x.loops.length < 4 → x.pc + 2 ≤ le → le < 16384 →
        ∃ t, exec (.loop e (.reg d) le) s = .next t ∧ (t.eng e).loops = x.loops ∧ (t.eng e).pc = le + 1 ∧ (t.eng e).cache = none ∧
          Tarn.bank (t.eng e) = Tarn.bank x ∧ s.onEngine t e) ∧
      (x.loops.length < 4 → x.lpend = [] → ∃ t, exec (.lpush e) s = .next t ∧ (t.eng e).loops = { lc := 0#16, ls := 0#14, le := 0#14 } :: x.loops ∧
        (t.eng e).cache = none ∧ Tarn.bank (t.eng e) = Tarn.bank x ∧ s.onEngine t e) ∧
      (∀ l rest, x.loops = l :: rest → x.lpend = [] → (∀ o ∈ x.view.tail.head?, o.le.toNat ≠ x.pc) →
        (∃ t, exec (.lpop e) s = .next t ∧ (t.eng e).loops = rest ∧
        (t.eng e).cache = none ∧ Tarn.bank (t.eng e) = Tarn.bank x ∧ s.onEngine t e) ∧
        (∃ t, exec (.endl e) s = .next t ∧ (t.eng e).loops = rest ∧ (t.eng e).cache = none ∧ Tarn.bank (t.eng e) = Tarn.bank x ∧
          s.onEngine t e))) ∧
  (∀ (x : Engine) (n : Nat) (f : Engine → Tarn.Res), Tarn.ready x = x → x.rep = some n →
      (∀ k, Tarn.times f (k + 1) x = (f x).bind (fun a => (Tarn.times f k a.e).map (fun c => { c with oob := a.oob ++ c.oob }))) ∧
      (∀ o, Tarn.room x 1 1 n = n → Tarn.times f n (Tarn.charge x 1 n) = some o → o.e.slots = none →
        ∃ u, Tarn.issue x 1 1 .plain f = some u ∧ Tarn.bank u.e = Tarn.bank o.e ∧ u.e.rep = none ∧ u.oob = o.oob) ∧
      (∀ o m, Tarn.room x 1 1 n = m → m < n → Tarn.times f m (Tarn.charge x 1 m) = some o → o.e.rep.isSome = true →
        ∃ u, Tarn.issue x 1 1 .plain f = some u ∧ Tarn.bank u.e = Tarn.bank o.e ∧ u.e.pc = o.e.pc ∧ u.e.rep = some (n - m) ∧
          (∀ k ∈ u.e.cur, k.cycles = k.cost) ∧ u.oob = o.oob))

/-- R174, R186–R189, R192: the dispatch interrupt takes an engine from background code to its stub at 0x3F00, the loop levels saved; the
return restores them and goes back; a service handler runs at a task boundary, where it takes at most 240 cycles of the block's budget of
960, or in background code, where debug halts a spare and lets it go, and waits inside a task; a task at its declared cost that has not
executed END is stopped as an overrun; a word that no instruction has is told by EV_TARN_ILLEGAL and stops the task. -/
def Obligations.EngineInterruptsAndStops : Prop :=
  ∀ (s : State) (e : Nat), e < 17 → s.tarnOn = true → (s.eng e).st ≠ .retired →
    ((s.eng e).debug = false → (s.eng e).inTask = false → (s.eng e).slots = none → (s.eng e).rep = none →
      ∃ t, exec (.dispatchInterrupt e) s = .next t ∧ (t.eng e).pc = 0x3F00 ∧ (t.eng e).saved = (s.eng e).pc ∧ (t.eng e).stub = true ∧
        (t.eng e).inTask = true ∧ (t.eng e).savedL = (s.eng e).loops ∧ (t.eng e).loops = [] ∧ (t.eng e).bg = (s.eng e).bg ∧
        s.onEngine t e) ∧
    ((s.eng e).stub = true → (s.eng e).cur = none → (s.eng e).queue = [] → ∃ t, exec (.dispatchReturn e) s = .next t ∧
      (t.eng e).pc = (s.eng e).saved ∧ (t.eng e).loops = (s.eng e).savedL ∧ (t.eng e).inTask = false ∧ (t.eng e).stub = false ∧
      (t.eng e).bg = (s.eng e).bg ∧ s.onEngine t e) ∧
    ((s.eng e).calls = [] → ∀ debug, ∃ (t : State) (n : Nat), n ≤ 240 ∧ exec (.serviceInterrupt e debug) s = .next t ∧
      (∀ j, j ≠ e → t.eng j = s.eng j) ∧ t.tarn.modules = s.tarn.modules ∧ t.tarn.slots = s.tarn.slots ∧ s.frame t [.tarn, .draws] ∧
      (debug = false → (s.eng e).stub = true → (s.eng e).cur = none → (s.eng e).loops = [] → (s.eng e).slots = none →
        (s.eng e).rep = none → (s.eng e).service + 240 ≤ 960 →
        t.eng e = { s.eng e with service := (s.eng e).service + n }) ∧
      (debug = true → (s.eng e).st = .spare → (s.eng e).inTask = false → (s.eng e).loops = [] → (s.eng e).slots = none →
        (s.eng e).rep = none → t.eng e = { s.eng e with debug := !(s.eng e).debug }) ∧
      ((s.eng e).inTask = true → (s.eng e).stub = false →
        t.eng e = { s.eng e with calls := [{ debug := debug, cycles := n, late := false }] })) ∧
    (∀ k, (s.eng e).halt = none → (s.eng e).cur = some k → k.cost ≤ k.cycles → Tarn.ending (s.eng e) = false →
      ∃ t, exec (.taskOverrun e) s = .next t ∧ t.eng e = { s.eng e with halt := some (.overrun, (s.eng e).pc) } ∧ s.onEngine t e) ∧
    (∀ x k, s.canRun e x → x.cur = some k → ∃ t, exec (.illegalInstruction e) s = .next t ∧
      t.eng e = { x with halt := some (.illegal, x.pc) } ∧ s.toldD t .tarnIllegal 0 e [e, k.inst, x.pc] ∧
      (∀ j, j ≠ e → t.eng j = s.eng j) ∧ s.frame t [.tarn, .ev, .sessions])

/-- The words of every well-formed Tarn instruction decode to it, on its engine, with every operand (classes 0x0 to 0xE). -/
def Obligations.TarnDecodeOfEncode : Prop :=
  ∀ (i : Instr) (e w v : Nat) (ws : List Nat), i.wf = true → Tarn.encode i = some (e, ws) → ws = [w] ∨ ws = [w, v] →
    Tarn.decode e w v = some i

/-! ### Sessions, requests, events and the direct registers (spec/12, spec/13) -/

/-- R304, R305, R307, R309, R314, R319, R321: before its turn a request waits; in a session that is not open, or with the role too low, or
while 16 are in progress, it fails with the code the rules give, and nothing else changes; a repeat of an answered number gets the same
reply again and is not executed. Over UDP a reply leaves for the source of its request in fragments, whose runs of at most 1440 bytes make
up its body. -/
def Obligations.RequestsAreAdmittedOrRefused : Prop :=
  (∀ b : List Nat, (bodyRuns b).flatten = b ∧ (∀ p ∈ bodyRuns b, p.length ≤ 1440) ∧ (bodyRuns b).length = max 1 (Fmt.cdiv b.length 1440)) ∧
  (∀ (s : State) (r : Req) (cmd a p : Nat) (ans : Ans) (x : Session), s.session? r.sid = some x → s.sourceOf r x = .udp a p →
    (s.reply r cmd ans).vcp.out = s.vcp.out ++
      ((Reply.mk r.sid r.seq cmd ans.fits.status ans.fits.detail ans.fits.items).datagrams x.keys).map (Datagram.mk a p)) ∧
  ∀ (s : State) (r : Req) (cmd need : Nat) (act : Session → State → State × Option Ans), s.serves = true →
    (s.turn r = false → s.serve r cmd need act = s) ∧ (s.turn r = true →
    (s.session? r.sid = none → ∃ t, s.serve r cmd need act = t ∧ t.answers r cmd Err.session 0 [] ∧ s.frame t replyParts) ∧
    (∀ x, s.session? r.sid = some x → 0 < r.seq → r.seq ≤ 0xFFFFFFFF → x.seqCase r.seq = .fresh →
      (16 ≤ x.progress.length → ∃ t, s.serve r cmd need act = t ∧ t.answers r cmd Err.busy 0 [] ∧ s.frame t replyParts) ∧
      (x.progress.length < 16 → need < x.role → ∃ t, s.serve r cmd need act = t ∧ t.answers r cmd Err.owner 0 [] ∧
        s.frame t replyParts) ∧
      (x.progress.length < 16 → x.role ≤ need → s.serve r cmd need act = (match act (x.accept r.seq) (s.admitted r) with
        | (u, some a) => u.reply r cmd a
        | (u, none) => u))) ∧
    (∀ x rep, s.session? r.sid = some x → 0 < r.seq → r.seq ≤ 0xFFFFFFFF → x.seqCase r.seq = .replay rep →
      (s.serve r cmd need act).vcp.last = some rep ∧ (s.serve r cmd need act).vcp.sessions = s.vcp.sessions))

/-- R305, R312, R313, R318, R376: a session opens with the role asked for under a credential that allows it, with a fresh number and the
device's nonce in the reply, and EV_SESSION_OPEN; it ends by SESSION_CLOSE, by its keepalive over UDP, or by a reset of the PCIe link, with
EV_SESSION_CLOSE, its partitions unowned. An incomplete message is discarded after its time, and a blocked source is heard again. R254,
R309: a datagram takes its bytes from the limit of the port it comes on, and is discarded beyond it; it is held while the control cores
restart; a whole authenticated one whose items are well formed waits for its command. -/
def Obligations.SessionsOpenAndEnd : Prop :=
  ∀ s : State,
    (∀ (o : Origin) (q cred role opt : Nat) (nonce secret : List Nat) (keep : Option Nat) (most mask : Nat) (tk : Bool), s.serves = true →
      s.secretOf cred = some secret → s.credOf cred = some (most, mask, tk) → s.openError o cred role keep most = 0 →
      s.openTurn o q cred role opt nonce keep = true →
      ∃ (t : State) (x : Session), exec (.sessionOpen o q cred role opt nonce keep) s = .next t ∧ t.session? s.freeSid = some x ∧
        x.role = role ∧ x.mask = mask ∧ x.cred = cred ∧ x.recovery = (decide (cred = 0) && s.sec.life.recovers) ∧ x.origin = o ∧
          x.high = 0 ∧ x.queue = [] ∧
        t.answers { sid := s.freeSid, seq := q } 0x0001 0 0 [.nonce (Fmt.toBE 16 (Config.freeBits 128 s.draws))] ∧
        t.ev = (s.raise .sessionOpen 0 s.freeSid role).ev ∧ s.frame t [.sessions, .vcp, .ev, .draws]) ∧
    (∀ (r : Req) (x : Session), s.admits r 3 x → s.scene.sets = [] →
      ∃ t, exec (.sessionClose r) s = .next t ∧ t.session? r.sid = none ∧ t.answers r 0x0002 0 0 [] ∧
        (∀ p, t.owner p ≠ r.sid ∨ r.sid = 0) ∧ s.frame t [.sessions, .vcp, .ev]) ∧
    (∀ (sid : Nat) (x : Session), s.session? sid = some x → x.origin.transport = 0 → s.scene.sets = [] →
      ∃ t, exec (.keepaliveExpiry sid) s = .next t ∧ t.session? sid = none ∧ (∀ y, y ≠ sid → (t.session? y).isSome = (s.session? y).isSome) ∧
        s.frame t [.sessions, .vcp, .ev]) ∧
    (s.scene.sets = [] → ∃ t, exec .pcieLinkReset s = .next t ∧ (∀ x ∈ t.vcp.sessions, x.origin.transport ≠ 1) ∧
      s.frame t [.sessions, .vcp, .ev, .fab, .memories, .mailbox] ∧
      ((∀ c ∈ s.fab.bursts, ∀ b ∈ c.2, b.txn.master ≠ 22) → s.frame t [.sessions, .vcp, .ev, .fab])) ∧
    (∀ o : Origin, ∃ t, exec (.authBlockExpiry o) s = .next t ∧ t.vcp.blocked = s.vcp.blocked.filter (fun q => decide (q ≠ o.source)) ∧
      s.frame t [.vcp]) ∧
    (∀ (o : Origin) (sid seq : Nat), ∃ t, exec (.reassemblyTimeout o sid seq) s = .next t ∧
      (∀ p ∈ t.vcp.partials, ¬ (p.origin.source = o.source ∧ p.sid = sid ∧ p.seq = seq)) ∧ s.frame t [.vcp]) ∧
    (∀ (a p n : Nat) (b : List Nat), s.live = true → s.netOn = true → s.portFrom a = some n →
      (s.ctlFree n 0 = false → ∃ t, exec (.vcpFragment (.udp a p) b) s = .next t ∧
        Cells.get 0 t.net.drop n = Fmt.satInc (Cells.get 0 s.net.drop n) 1 ∧ s.frame t [.net]) ∧
      (s.ctlFree n 0 = true → s.serves = false → s.vcp.held.length < 256 → ∃ t, exec (.vcpFragment (.udp a p) b) s = .next t ∧
        t.vcp = { s.vcp with held := s.vcp.held ++ [(.udp a p, b)] } ∧
        Cells.get 0 t.net.paid (2 * n) = max (Cells.get 0 s.net.paid (2 * n)) s.upNs + 160 * (b.length + 70) ∧ s.frame t [.vcp, .net])) ∧
    (∀ (a p n : Nat) (b body : List Nat) (h : Header) (x : Session), s.live = true → s.netOn = true → s.serves = true →
      s.portFrom a = some n → s.ctlFree n 0 = true →
      s.vcp.blocked.contains (Origin.udp a 0) = false → Header.parse b = some h → h.sid ≠ 0 → s.session? h.sid = some x →
      x.origin.transport = 0 → openMsg x.enc x.ks x.ke x.salt h b = some body → headerError b h = 0 → h.more = false → h.frag = 0 →
      body.length ≤ 1440 → badBody body = false → (askOf { sid := h.sid, seq := h.seq } h.cmd body).isSome = true →
      ∃ t, exec (.vcpFragment (.udp a p) b) s = .next t ∧
        t.vcp.inbox = s.vcp.inbox ++ [{ origin := .udp a p, sid := h.sid, seq := h.seq, cmd := h.cmd, body := body }] ∧
        s.frame t [.sessions, .vcp, .net])

/-- R306, R317, R331, R333: a claim that is granted makes every partition of its mask the session's, a release makes them unowned;
EVENT_MASK sets mask and interval, which counts from then on; EVENT_READ answers the records from a number on; EVENT_ACK takes records up to
a number out of the queue, and drops counted before then take a fresh overflow record (R332); at the end of a delivery interval, and not
before, the new records are pushed over UDP, or written into the event ring of a mailbox channel and nowhere else. -/
def Obligations.PartitionsAndEventQueues : Prop :=
  ∀ (s : State) (r : Req) (x : Session),
    (∀ mask, s.admits r 1 x → s.audioServed = true → s.asks r (.partitionClaim r mask false) = true →
      (s.admitted r).claimError x mask false = 0 →
      Cells.wf 0 s.vcp.owner = true → (∀ p ∈ maskParts mask, s.owner p = 0 ∨ s.owner p = r.sid) →
      ∃ t, exec (.partitionClaim r mask false) s = .next t ∧ t.answers r 0x0005 0 0 [] ∧ (∀ p ∈ maskParts mask, t.owner p = r.sid) ∧
        (∀ p, p ∉ maskParts mask → t.owner p = s.owner p) ∧ s.frame t replyParts) ∧
    (∀ mask, s.admits r 1 x → s.audioServed = true → s.asks r (.partitionRelease r mask) = true → Fmt.bit mask 0 = false →
      (∀ p ∈ maskParts mask, s.owner p = r.sid) →
      Cells.wf 0 s.vcp.owner = true →
      ∃ t, exec (.partitionRelease r mask) s = .next t ∧ t.answers r 0x0006 0 0 [] ∧ (∀ p ∈ maskParts mask, t.owner p = 0) ∧
        (∀ p, p ∉ maskParts mask → t.owner p = s.owner p) ∧ s.frame t replyParts) ∧
    (∀ mask k, s.admits r 3 x → 1 ≤ k → k ≤ 1000 → ∃ t y, exec (.eventMask r mask k) s = .next t ∧ t.answers r 0x0403 0 0 [] ∧
      t.session? r.sid = some y ∧ y.evMask = mask % 2 ^ 256 ∧ y.interval = k ∧ y.since = s.mcc ∧ y.ends = 0 ∧
      y.queue = x.queue ∧ s.frame t replyParts) ∧
    (∀ start, s.admits r 3 x → x.lost = 0 → s.reads (.eventRead r start) r 0x0401
      [.words ((x.queue.filter (fun q => decide (start ≤ q.seq))).flatMap QRec.words)]) ∧
    (∀ upTo, s.admits r 3 x →
      let left := x.queue.filter (fun q => decide (upTo < q.seq))
      (x.lost = 0 → ∃ t y, exec (.eventAck r upTo) s = .next t ∧ t.answers r 0x0402 0 0 [] ∧ t.session? r.sid = some y ∧ y.queue = left ∧
        s.frame t replyParts) ∧
      (x.lost ≠ 0 → left.length < 1024 → ∃ t y, exec (.eventAck r upTo) s = .next t ∧ t.answers r 0x0402 0 0 [] ∧
        t.session? r.sid = some y ∧ y.queue = left ++ [x.newRec 0x04 (min 255 x.lost) 0 false s.mcc (min 0xFFFFFFFF x.lost)] ∧
        y.lost = 0 ∧ t.marks .queueOverflow ∧ s.frame t [.sessions, .vcp, .ev])) ∧
    (s.session? r.sid = some x → s.intervalDue x = false → exec (.deliveryIntervalEnd r.sid) s = .next s) ∧
    (∀ a p, s.live = true → s.session? r.sid = some x → x.origin = .udp a p → s.intervalDue x = true → x.lost = 0 →
      let l := x.queue.filter s.pushDue
      l ≠ [] → ∃ t, exec (.deliveryIntervalEnd r.sid) s = .next t ∧
        t.vcp.pushes = [{ sid := r.sid, seq := x.pushSeq + 1, cmd := 0x0405, items := [.words (l.flatMap QRec.words)] }] ∧
        s.frame t replyParts) ∧
    (∀ c, s.live = true → s.session? r.sid = some x → x.origin = .mbx c → c < 7 → s.intervalDue x = true → x.lost = 0 →
      let n := ((x.queue.filter (fun q => !q.delivered)).take (2047 - x.ring.length)).length
      ∃ t, exec (.deliveryIntervalEnd r.sid) s = .next t ∧ (t.channel c).evw = ((s.channel c).evw + n) % 2048 ∧
        (∀ a, a < mbxBase c + 0x18000 ∨ mbxBase c + 0x20000 ≤ a → t.vcp.mbx.read a = s.vcp.mbx.read a) ∧
        s.frame t [.sessions, .vcp, .mailbox])

/-- R33, R35, R73, R81, R194, R316, R321, R322, R326, R330, R359, R382: the commands that read answer what they read and change nothing
else: PING the MCC, PARAM_READ, MATRIX_READ, LATENCY_READ, COUNTER_READ, STREAM_SDP of a transmit stream, MODULE_LIST, EVENT_DETAIL,
KEY_INFO; a read of a partition that the session does not receive fails with E_OWNER. SUMMARY waits for its frame tick. A code that the
table does not give fails with E_COMMAND. -/
def Obligations.ReadsAnswerAndChangeNothing : Prop :=
  ∀ (s : State) (r : Req) (x : Session) (need : Nat), s.admits r need x →
    let u := s.admitted r
    (need = 3 → s.reads (.ping r) r 0x0003 [.mcc s.mcc]) ∧
    (need = 3 → ∃ t, exec (.summary r) s = .next t ∧ t.vcp.summaries = s.vcp.summaries ++ [r] ∧ t.vcp.last = s.vcp.last ∧
      s.frame t replyParts) ∧
    (need = 3 → ∀ c, s.refuses (.unknownCommand r c) r c Err.command) ∧
    (need = 3 → ∀ i words, Cells.get (65536, []) s.ev.detail (i % 256) = (i, words) →
      s.reads (.eventDetail r i) r 0x0404 [.words words]) ∧
    (need = 2 → ∀ h, u.readError (x.accept r.seq) h = 0 →
      s.reads (.paramRead r [h]) r 0x0301 [.entries [{ h := h, v := u.readVal h }]]) ∧
    (need = 2 → ∀ d k, d < s.cap.dests → k < s.cap.sources →
      (x.receives (s.nodeOwner d k) = true → s.reads (.matrixRead r d k 1 1 0) r 0x0302 [.words (u.nodeRecord (nodeKey d k))]) ∧
      (x.receives (s.nodeOwner d k) = false → s.refuses (.matrixRead r d k 1 1 0) r 0x0302 Err.owner)) ∧
    (need = 2 → ∀ outs : List Nat, (∀ n ∈ outs, n < outEntries ∧ x.receives (s.ownerOf (mkH 0x06 n 0)) = true) →
      s.reads (.latencyRead r outs) r 0x0303 [.words (outs.map u.pathLat)]) ∧
    (need = 2 → ∀ ids : List Nat, (∀ i ∈ ids, (s.counter i).isSome = true ∧ (satHandle i = true → x.receives (s.ownerOf i) = true)) →
      s.reads (.counterRead r ids) r 0x0304 [.words (ids.map (fun i => (s.counter i).getD 0))]) ∧
    (need = 1 → ∀ i, i < 256 → s.reads (.streamSdp r i none) r 0x0307 [.blob (u.sdpOut i)]) ∧
    (need = 2 → s.reads (.moduleList r) r 0x0602 [.words (s.tarn.modules.flatMap (fun m => [m.id, m.version, m.image.length]))]) ∧
    (need = 2 → s.reads (.keyInfo r) r 0x0703 (.blob devicePublic :: .words (s.sec.creds.flatMap (fun c => [c.id, c.role, c.mask])) ::
      s.sec.modKeys.map (fun k => .blob (Fmt.toBE 4 k.1 ++ k.2))))

/-- R73, R194, R204, R324, R365, R366: METER_SUBSCRIBE sets the session's points, and the end of a partition's meter period pushes their
readings and starts the next period; MODULE_LOAD loads a module or says why not; FW_WRITE appends to the slot that is not in use, and no
other byte of flash changes; FW_SWITCH to a staged slot takes the maintenance token and writes the boot preference. -/
def Obligations.MetersModulesAndFirmware : Prop :=
  ∀ (s : State) (r : Req) (x : Session),
    (∀ points : List Nat, s.admits r 2 x → points.length ≤ 1024 → (∀ k ∈ points, s.meterIs k = true ∧ x.receives (s.meterPart k) = true) →
      ∃ t y, exec (.meterSubscribe r points) s = .next t ∧ t.answers r 0x0305 0 0 [] ∧ t.session? r.sid = some y ∧ y.meters = points ∧
        s.frame t replyParts) ∧
    (∀ part, s.live = true → s.vcp.sessions = [x] → x.receives part = true → x.meters ≠ [] → (∀ k ∈ x.meters, s.meterPart k = part) →
      ∃ t, exec (.meterPeriodEnd part) s = .next t ∧
        t.vcp.pushes = [{ sid := x.sid, seq := x.pushSeq + 1, cmd := 0x0306, items := [.words (x.meters.flatMap s.meterRead)] }] ∧
        (∀ c ∈ t.audio.meters, s.meterPart c.1 ≠ part) ∧ s.frame t [.sessions, .vcp, .audio]) ∧
    (∀ image : List Nat, s.admits r 1 x → s.audioServed = true →
      ∃ t, exec (.moduleLoad r image) s = .next t ∧
        ((s.admitted r).moduleError image ≠ 0 → t.answers r 0x0601 ((s.admitted r).moduleError image) 0 [] ∧
          s.frame t replyParts) ∧
        ((s.admitted r).moduleError image = 0 → t.answers r 0x0601 0 0 [] ∧
          t.tarn.modules = ((s.admitted r).loadModule image).tarn.modules)) ∧
    (∀ (n : Nat) (bytes : List Nat), s.admits r 0 x → n < 2 → s.fw.inUse ≠ some n →
      let f := s.fw.slot n
      f.erased = true → f.size + bytes.length ≤ 0x02000000 →
      let g : FlashSlot := { f with data := f.data.writeAll f.size bytes, size := f.size + bytes.length, staged := none }
      g.complete f.size = false →
      ∃ t, exec (.fwWrite r n f.size bytes) s = .next t ∧ t.answers r 0x0605 0 0 [] ∧ t.fw.slot n = g ∧
        t.fw.slot (1 - n) = s.fw.slot (1 - n) ∧
        (∀ a, a < f.size ∨ f.size + bytes.length ≤ a → (t.fw.slot n).data.read a = f.data.read a) ∧ s.frame t [.sessions, .vcp, .flash]) ∧
    (∀ n, s.admits r 0 x → n < 2 → (s.fw.slot n).staged = some 0 → s.fault.holder = none → s.fault.queue = [] →
      ∃ t, exec (.fwSwitch r n false) s = .next t ∧ t.answers r 0x0606 0 0 [] ∧ t.boot.pref = some n ∧ t.fw.pending = some n ∧
        t.fault.holder = some { code := 5, target := n, sid := r.sid } ∧ t.ev = ((s.admitted r).raise .maintStart 0 5 n).ev ∧
        s.frame t [.sessions, .vcp, .ev, .fault, .boot, .fw, .flash])

/-- R356–R363: LIFECYCLE_SET takes the part from BLANK to PROVISIONED with its root key, and on to DEPLOYED, each wiping the secure bank; a
tamper source that counts and trips starts the wipe with EV_TAMPER; when it is done nothing of the bank is left, with EV_SB_WIPED; a source
that returns to normal is not tripped. In DEPLOYED the floor rises to the running image's version. CRED_PROVISION brings what its blob
decrypts to, or says why not. -/
def Obligations.LifeCycleTamperAndProvisioning : Prop :=
  ∀ (s : State) (r : Req) (x : Session),
    (∀ key : List Nat, s.admits r 0 x → s.sec.life = .blank → key.length = 64 →
      ∃ t, exec (.lifecycleSet r 1 key) s = .next t ∧ t.answers r 0x0702 0 0 [] ∧ t.sec.life = .provisioned ∧ t.sec.rootKey = key ∧
        t.sec.wiping = true ∧ t.ev = ((s.admitted r).raise .lifecycle 0 0 1).ev ∧ s.frame t [.sec, .ev, .sessions, .vcp]) ∧
    (∀ b : List Nat, s.admits r 0 x → s.sec.life = .provisioned → ∃ t, exec (.lifecycleSet r 2 b) s = .next t ∧
      t.answers r 0x0702 0 0 [] ∧ t.sec = { s.sec with life := .deployed, wiping := true } ∧
      t.ev = ((s.admitted r).raise .lifecycle 0 0 2).ev ∧ s.frame t [.sec, .ev, .sessions, .vcp]) ∧
    (∀ k, s.tamperOn k = true → s.sec.tripped.contains k = false → ∃ t, exec (.tamperTrip k) s = .next t ∧
      t.sec = { s.sec with tripped := k :: s.sec.tripped, wiping := true } ∧ s.told t .tamper 0 k 0 ∧ s.frame t [.sec, .ev, .sessions]) ∧
    (s.sec.wiping = true → ∃ t, exec .sbWiped s = .next t ∧ t.sec.creds = [] ∧ t.sec.modKeys = [] ∧ t.sec.bankCtr = 0 ∧
      t.sec.wiping = false ∧ t.sec.wiped = true ∧ t.sec.rootHash = s.sec.rootHash ∧ s.told t .sbWiped 0 0 0 ∧
      s.frame t [.sec, .ev, .sessions]) ∧
    (∀ k, ∃ t, exec (.tamperSourceCleared k) s = .next t ∧ t.sec = { s.sec with tripped := s.sec.tripped.filter (· ≠ k) } ∧
      s.frame t [.sec]) ∧
    (∀ i, s.boot.image = some i → s.sec.life = .deployed → s.dev = .run → ∃ t, exec .secVersionFloorRaise s = .next t ∧
      t.sec = { s.sec with floor := max s.sec.floor i.secVersion } ∧ s.frame t [.sec]) ∧
    (∀ b : List Nat, s.admits r 2 x → x.role = 0 ∨ x.recovery = true →
      ∃ (t u : State) (a : Ans), exec (.credProvision r b) s = .next t ∧
        (u, some a) = (if s.provError b ≠ 0 then (s.admitted r, Ans.fail (s.provError b)) else (s.admitted r).provision b) ∧
        t.answers r 0x0701 a.status 0 [] ∧ t.sec = u.sec ∧ s.frame t [.sec, .ev, .sessions, .vcp])

/-- R310, R311, R334, R335: writing MBX_REQ makes a channel busy, or sets overrun where it is; while the control cores restart the request
waits. A reply is written into the reply half of its channel's window and nowhere else, with EV_MBX_REPLY. MBX_EVR takes its index. EV_STAT
bits written 1 clear and the others stay. Reading MCC_LO or GEN_LO latches the high word. SCRATCH and HOST_CTRL take what is written. R311:
in native mode an SPI register frame writes and reads the direct registers, and an SPI mailbox frame writes and reads the bytes of channel
7's window; bytes of the other windows are not written. -/
def Obligations.MailboxRegistersAndSpiFrames : Prop :=
  (∀ s : State, s.regsOn = true →
      (∀ c n, c < 8 → s.boot.waitPcie = false →
        ((s.channel c).busy = true → ∃ t, exec (.mbxReqWrite c n) s = .next t ∧ t.channel c = { s.channel c with overrun := true } ∧
          s.frame t [.vcp]) ∧
        ((s.channel c).busy = false → s.serves = false → ∃ t, exec (.mbxReqWrite c n) s = .next t ∧
          t.channel c = { s.channel c with busy := true, ready := false, overrun := false, wait := some (n % 2 ^ 17) } ∧
          s.frame t [.vcp])) ∧
      (∀ c b, (s.channel c).busy = true → (s.channel c).reply = some b → b.length ≤ 0x8000 → s.vcp.mbx.wf = true →
        ∃ t, exec (.mbxReply c) s = .next t ∧
          t.channel c = { s.channel c with busy := false, ready := true, rlen := b.length, reply := none } ∧
          t.vcp.mbx.readAll (mbxBase c + 0x8000) b.length = b.map (· % 256) ∧
          (∀ a, a < mbxBase c + 0x8000 ∨ mbxBase c + 0x8000 + b.length ≤ a → t.vcp.mbx.read a = s.vcp.mbx.read a) ∧
          s.told t .mbxReply 0 c 0 ∧ s.frame t [.vcp, .mailbox, .ev, .sessions]) ∧
      (∀ c v, c < 8 → Cells.wf Channel.reset s.vcp.channels = true → ∃ t, exec (.mbxEvrWrite c v) s = .next t ∧ (t.channel c).evr = v % 2048 ∧
        (∀ x, s.sessionOn c = some x → s.session? x.sid = some x → x.lost = 0 →
          let k := (v % 2048 + 2048 - (s.channel c).evr) % 2048
          ∃ y, t.session? x.sid = some y ∧ y.queue = x.queue.filter (fun q => !(x.ring.take k).contains q.seq) ∧ y.ring = x.ring.drop k ∧
            s.frame t [.vcp, .sessions]) ∧
        s.frame t [.vcp, .sessions, .ev]) ∧
      (∀ k m, k < 8 → ∃ t, exec (.evStatClear k m) s = .next t ∧ (∀ j, Fmt.bit t.ev.stat j =
        (Fmt.bit s.ev.stat j && !(decide (j / 32 = k) && Fmt.bit m (j % 32)))) ∧ t.ev.detail = s.ev.detail ∧ s.frame t [.ev]) ∧
      (∃ t, exec .mccLoRead s = .next t ∧ t.ev = { s.ev with mccHi := s.mcc / 2 ^ 32 % 2 ^ 32 } ∧ s.frame t [.ev]) ∧
      (∃ t, exec .genLoRead s = .next t ∧ t.ev = { s.ev with genHi := s.scene.gen / 2 ^ 32 % 2 ^ 32 } ∧ s.frame t [.ev]) ∧
      (∀ v, ∃ t, exec (.registerWrite 0x20 v) s = .next t ∧ t.ev = { s.ev with scratch := v % 2 ^ 32 } ∧ s.frame t [.ev]) ∧
      (∀ v, ∃ t, exec (.registerWrite 0x24 v) s = .next t ∧ t.ev.msiEn = Fmt.bit v 0 ∧ t.ev.stat = s.ev.stat ∧ s.frame t [.ev])) ∧
  (∀ s : State, s.spiOn = true →
      (∀ v, ∃ t, exec (.spiRegisterWrite 0x20 [v]) s = .next t ∧ t.ev = { s.ev with scratch := v % 2 ^ 32 } ∧ s.frame t [.ev]) ∧
      (∃ t, exec (.spiRegisterRead 0x00 2) s = .next t ∧ t.legacy.miso = [devId, s.devState] ∧ s.frame t [.legacy]) ∧
      (∀ (a : Nat) (bytes : List Nat), 7 * 0x20000 ≤ a → a < 0x100000 → a + bytes.length ≤ 0x100000 → s.vcp.mbx.wf = true →
        ∃ t, exec (.spiMailboxWrite a bytes) s = .next t ∧ t.vcp.mbx.readAll a bytes.length = bytes.map (· % 256) ∧
          (∀ k, k < a ∨ a + bytes.length ≤ k → t.vcp.mbx.read k = s.vcp.mbx.read k) ∧ s.frame t [.mailbox]) ∧
      (∀ (a : Nat) (bytes : List Nat), a + bytes.length ≤ 7 * 0x20000 → ∃ t, exec (.spiMailboxWrite a bytes) s = .next t ∧
        t.vcp.mbx = s.vcp.mbx ∧ s.frame t [.mailbox]) ∧
      (∀ a n, a + n ≤ 2 ^ 20 → 0 < n → ∃ t, exec (.spiMailboxRead a n) s = .next t ∧ t.legacy.miso = s.vcp.mbx.readAll a n ∧
        s.frame t [.legacy]) ∧
      (∀ (a n : Nat) (bytes : List Nat), 2 ^ 20 ≤ a →
        (∃ t, exec (.spiMailboxRead a n) s = .next t ∧ t.legacy.miso = List.replicate n 0 ∧ s.frame t [.legacy]) ∧
        (∃ t, exec (.spiMailboxWrite a bytes) s = .next t ∧ t.legacy.miso = List.replicate bytes.length 0 ∧ s.frame t [.legacy])) ∧
      (∀ (c : Nat) (bytes : List Nat), spiFrame c = none → ∃ t, s.spiBytes (c :: bytes) = .next t ∧
        t.legacy.miso = List.replicate (bytes.length + 1) 0 ∧ s.frame t [.legacy]))

/-! ### Stage sets, commits, scenes, cue lists (spec/04) -/

/-- R56, R97, R106–R109, R308: STAGE_OPEN opens an empty set of its session with a fresh id; STAGE_ADD, the commands that carry nodes and
PAN add to a set, all or nothing, within the stage area's 4 MiB; STAGE_REMOVE takes handles out; what is added or removed leaves the set
OPEN. -/
def Obligations.StageSetsAreFilled : Prop :=
  ∀ (s : State) (r : Req) (q : Session),
    (∀ attrs : Option Attrs, s.admits r 1 q → s.audioServed = true → s.asks r (.stageOpen r attrs) = true →
      (attrs.getD Attrs.dflt).ok = true →
      (s.scene.sets.filter StageSet.live).length < 32 →
      ((s.scene.sets.filter StageSet.live).filter (fun x => decide (x.sid = r.sid))).length < 4 →
      ∃ t id, exec (.stageOpen r attrs) s = .next t ∧ t.answers r 0x0101 0 0 [.set id] ∧
        s.setBecomes t id (StageSet.fresh id r.sid (attrs.getD Attrs.dflt).full) ∧ s.frame t [.scene, .sessions, .vcp]) ∧
    (∀ id x, s.admitsSet r id q x →
      (∀ es : List Entry, s.stages (.stageAdd r id es) r 0x0102 id x (es.map s.addedOf)) ∧
      (∀ f ∈ formCommands, ∀ n : Nodes, f.2.2.contains n.form = true → n.ok = true → n.dest + n.nd ≤ s.cap.dests →
        n.src + n.ns ≤ s.cap.sources → s.stages (f.2.1 r id n) r f.1 id x [s.formOf n]) ∧
      (∀ src left right law pos level, law ≤ 3 → -1000 ≤ pos → pos ≤ 1000 → level ≤ 6165 → src < 4096 → left < 4096 →
        right < 4096 → s.stages (.pan r id src left right law pos level) r 0x010E id x
          [s.addedOf { h := hGain left src, v := Fmt.wrapU 32 (panGains law pos level).1 },
           s.addedOf { h := hGain right src, v := Fmt.wrapU 32 (panGains law pos level).2 }]) ∧
      (∀ hs : List Nat, x.editable = true → ∃ t y, exec (.stageRemove r id hs) s = .next t ∧ t.answers r 0x0107 0 0 [] ∧
        s.setBecomes t id y ∧ y.st = .open ∧ y.cosigned = [] ∧
        (∀ e, Added.entry e ∈ y.added ↔ Added.entry e ∈ x.added ∧ hs.contains e.h = false) ∧
        s.frame t [.scene, .mere, .sessions, .vcp]))

/-- R106, R110, R112, R118, R121, R132: the free plane passes to the waiting set with the lowest id, or first to the next armed cue with
node entries (the model's choice, log entry 158); STAGE_CHECK queues an OPEN set, and its result comes with CHECK_DONE: CHECKED with no
finding, else OPEN again; the owner session of touched partitions co-signs with the right digest and code only; STAGE_REPORT answers state,
commit sample and findings; STAGE_DISCARD ends a set that is not SCHEDULED. -/
def Obligations.StageSetsAreCheckedAndCosigned : Prop :=
  ∀ (s : State) (r : Req) (q : Session) (id : Nat) (x : StageSet), s.stageSet? id = some x →
    (s.scene.holder = none → ∀ n scope, s.nextNodeCue = some (.scene n scope) → ∃ t, exec .planeReady s = .next t ∧
      t.scene = { s.scene with holder := some cueHolder } ∧ s.frame t [.scene, .mere]) ∧
    (s.scene.holder = none → s.nextNodeCue = none → x.waiting = true → x.live = true → (∀ y ∈ s.scene.sets, y.waiting = true →
      y.live = true → id ≤ y.id) →
      ∃ t, exec .planeReady s = .next t ∧ t.scene.holder = some id ∧ s.told t .planeReady 0 id 0 ∧
        s.frame t [.scene, .mere, .ev, .sessions]) ∧
    (s.admitsSet r id q x → s.asks r (.stageCheck r id) = true → x.st = .open → s.scene.checkQ.length < 16 →
      ∃ t, exec (.stageCheck r id) s = .next t ∧
      s.setBecomes t id { x with st := .checking, want := none, reply := some r, findings := [] } ∧
      t.scene.checkQ = s.scene.checkQ ++ [id] ∧ t.vcp.last = s.vcp.last ∧ s.frame t [.scene, .sessions, .vcp]) ∧
    (∀ rest, s.scene.checkQ = id :: rest → x.reading = none → x.want = none → x.reply = some r →
      let f := s.check x none
      itemsFit (findAns f).items →
      ∃ t y, exec .checkDone s = .next t ∧ s.setBecomes t id y ∧ y.st = (if f = [] then .checked else .open) ∧ y.findings = f ∧
        y.added = x.added ∧ t.scene.checkQ = rest ∧ t.answers r 0x0108 (findAns f).status 0 (findAns f).items ∧
        t.ev = (s.raise .checkDone 0 id ((f.head?.map (·.err)).getD 0)).ev ∧ s.frame t [.scene, .ev, .sessions, .vcp]) ∧
    (∀ digest mac, s.admits r 1 q → s.audioServed = true → x.st = .checked →
      let u := s.admitted r
      let mine := (u.needCosign x (u.bodyOf x.added) u).filter (fun p => decide (u.owner p = r.sid))
      (mine = [] → s.refuses (.stageCosign r id digest mac) r 0x0109 Err.owner) ∧
      (mine ≠ [] → digest = u.contentDigest x ∧ mac = Crypto.hmac q.ks digest → ∃ t, exec (.stageCosign r id digest mac) s = .next t ∧
        t.answers r 0x0109 0 0 [] ∧ s.setBecomes t id { x with cosigned := x.cosigned ++ mine } ∧ s.frame t [.scene, .sessions, .vcp]) ∧
      (mine ≠ [] → ¬ (digest = u.contentDigest x ∧ mac = Crypto.hmac q.ks digest) →
        s.refuses (.stageCosign r id digest mac) r 0x0109 Err.cosign)) ∧
    (s.admits r 2 q → s.reads (.stageReport r id) r 0x010D
      ([.set id, .words [x.st.code], .mcc (x.commit.getD 0)] ++ x.findings.map Item.finding)) ∧
    (s.admitsSet r id q x →
      (s.asks r (.stageDiscard r id) = true → x.st = .open ∨ x.st = .checking ∨ x.st = .checked → ∃ t y,
        exec (.stageDiscard r id) s = .next t ∧ t.answers r 0x010C 0 0 [] ∧
        s.setBecomes t id y ∧ y.st = .discarded ∧ y.added = [] ∧ t.scene.holder ≠ some id ∧ id ∉ t.scene.checkQ ∧
        s.frame t [.scene, .mere, .sessions, .vcp]) ∧
      (x.st = .scheduled ∨ x.st = .committed ∨ x.st = .discarded → s.refuses (.stageDiscard r id) r 0x010C Err.state))

/-- R111, R122, R124, R433: COMMIT of a CHECKED set whose conditions hold schedules it: for the next possible sample, the first multiple of
the block at or above MCC + 2 blocks, or for the sample asked for; one closer than 2 blocks fails with E_LATE, one 2^40 samples away with
E_RANGE. What only the commit sample decides (R80, R199) sends the set back to OPEN with its findings; one that an armed cue's reservation
of the plane forbids is late (R132; log entry 158). A commit that waited is scheduled when its conditions hold, and EV_COMMIT_SCHEDULED
reports its sample. -/
def Obligations.CommitsAreScheduled : Prop :=
  ∀ (s : State) (r : Req) (q : Session) (id : Nat) (x : StageSet),
    let now := fun (u : State) => x.st = .checked ∧ x.waiting = false ∧ u.scene.changing = false ∧ u.cosignedAll x = true
    let free := fun (u : State) (c : Nat) => (x.hasNodes && u.hindersCue x.id c) = false
    (∀ w c, s.admitsSet r id q x → s.asks r (.commit r id w) = true → now (s.admitted r) → x.want = none → s.twin.role ≠ .active →
      (w = .next → c = Fmt.cdiv (s.mcc + 2 * s.B) s.B * s.B) → (w = .next ∨ (w = .mcc c ∧ s.mcc + 2 * s.B ≤ c ∧ c ≤ s.mcc + 2 ^ 40)) →
      let u := s.admitted r
      let f := (u.chkOf x (some c)).late c
      (free u c → f = [] → ∃ t y, exec (.commit r id w) s = .next t ∧ t.answers r 0x010A 0 0 [.mcc c] ∧ s.setChangesAt t id c y ∧
        y.st = .scheduled ∧ y.commit = some c ∧ y.added = x.added ∧ s.frame t [.scene, .sessions, .vcp]) ∧
      (free u c → f ≠ [] → itemsFit (findAns f).items → ∃ t y, exec (.commit r id w) s = .next t ∧
        t.answers r 0x010A (findAns f).status 0 (findAns f).items ∧ s.setBecomes t id y ∧ y.st = .open ∧ y.findings = f ∧
        y.added = x.added ∧ s.frame t [.scene, .sessions, .vcp]) ∧
      (¬ free u c → ∃ t y, exec (.commit r id w) s = .next t ∧ t.answers r 0x010A Err.late 0 [] ∧ s.setBecomes t id y ∧
        y.st = .checked ∧ y.commit = x.commit ∧ y.added = x.added ∧ s.frame t [.scene, .sessions, .vcp])) ∧
    (∀ c, s.admitsSet r id q x → s.asks r (.commit r id (.mcc c)) = true → now (s.admitted r) → x.want = none → s.twin.role ≠ .active →
      (c < s.mcc + 2 * s.B ∨ s.mcc + 2 ^ 40 < c) → ∃ t y, exec (.commit r id (.mcc c)) s = .next t ∧
        t.answers r 0x010A (if c < s.mcc + 2 * s.B then Err.late else Err.range) 0 [] ∧ s.setBecomes t id y ∧ y.st = .checked ∧
        y.commit = x.commit ∧ y.added = x.added ∧ s.frame t [.scene, .sessions, .vcp]) ∧
    (∀ w c, s.stageSet? id = some x → now s → x.want = some w → commitAt s.mcc s.B w = .inl c → free s c →
      (s.chkOf x (some c)).late c = [] →
      ∃ t y, exec (.commitScheduled id) s = .next t ∧ s.setChangesAt t id c y ∧ y.st = .scheduled ∧ y.commit = some c ∧
        y.added = x.added ∧ t.ev = (s.raiseD .commitScheduled 0 id (id :: two c)).ev ∧
        (x.reply = some r → t.answers r 0x010A 0 0 [.mcc c]) ∧ s.frame t [.scene, .ev, .sessions, .vcp])

/-- R125: STAGE_CANCEL returns a SCHEDULED set to CHECKED while the MCC is below c − 2B, and releases the staged plane if the set held it;
later it fails with E_LATE, and the set stays SCHEDULED for c, at which it commits. -/
def Obligations.CancelUntilTwoBlocksBefore : Prop :=
  ∀ (s : State) (r : Req) (q : Session) (id c : Nat) (x : StageSet), s.admitsSet r id q x → x.st = .scheduled → x.commit = some c →
    (s.asks r (.stageCancel r id) = true → s.mcc + 2 * s.B < c → ∃ t y, exec (.stageCancel r id) s = .next t ∧
      t.answers r 0x010B 0 0 [] ∧ s.setChangesAt t id c y ∧ y.st = .checked ∧ y.commit = none ∧ y.added = x.added ∧
        t.scene.holder = (if s.scene.holder = some id then none else s.scene.holder) ∧
      s.frame t [.scene, .mere, .sessions, .vcp]) ∧
    (c ≤ s.mcc + 2 * s.B → s.refuses (.stageCancel r id) r 0x010B Err.late ∧
      (∃ t, exec (.stageCancel r id) s = .next t ∧ t.stageSet? id = some x) ∧
      (∀ u : State, u.live = true → id ≠ 0 → u.commitDue id = some x → ∃ t, exec (.commitApplied id) u = .next t ∧
        t = u.commitSet x.added x.attrs.cfLen x.attrs.dxLen c id ∧ (∀ y ∈ t.scene.sets, y.id = id → y.st = .committed) ∧
        t.marks .commitApplied))

/-- R107: a session holds up to 4 stage sets that are neither COMMITTED nor DISCARDED, and the device up to 32: below both limits STAGE_OPEN
opens one more, and beyond either it fails with E_CAPACITY. -/
def Obligations.StageSetLimits : Prop :=
  ∀ (s : State) (r : Req) (q : Session), s.admits r 1 q → s.audioServed = true →
    let live := s.scene.sets.filter (fun x => decide (x.st ≠ .committed) && decide (x.st ≠ .discarded))
    let own := live.filter (fun x => decide (x.sid = r.sid))
    (s.asks r (.stageOpen r none) = true → live.length < 32 → own.length < 4 → ∃ t id, exec (.stageOpen r none) s = .next t ∧
      t.answers r 0x0101 0 0 [.set id]) ∧
    (32 ≤ live.length ∨ 4 ≤ own.length → s.refuses (.stageOpen r none) r 0x0101 Err.capacity)

/-- R131–R138: SCENE_SAVE takes the committed configuration of its partition, and the write that ends puts the record and its directory
entry into MSTORE, with the reply and EV_SCENE_SAVED; SCENE_LIST answers the directory, SCENE_DELETE frees an entry, and a recall adds the
scene it reads to its set. CUE_LOAD, CUE_ARM and CUE_DISARM take a list through its states, CUE_READ answers it, and the next cue of an
armed list commits its set or scene at its sample with EV_CUE_FIRED. -/
def Obligations.ScenesAndCueLists : Prop :=
  ∀ (s : State) (r : Req) (q : Session),
    (∀ part n label, s.admits r 1 q → s.audioServed = true → 0 < part → part < 16 → n < 1024 → s.owner part = r.sid →
      (dirEnt s.scene.mstore n).used = false → ∃ t, exec (.sceneSave r part n label) s = .next t ∧
        t.scene.saving = s.scene.saving ++ [{ part := part, prof := s.prof, shape := s.shape, scene := n, label := label.take 32,
                                              record := (s.admitted r).sceneOf part, gen := s.scene.gen, req := r }] ∧
        t.vcp.last = s.vcp.last ∧ s.frame t [.scene, .sessions, .vcp]) ∧
    (∀ v rest, s.scene.saving = v :: rest → v.req = r → ∃ t, exec .sceneSaveDone s = .next t ∧ t.scene.saving = rest ∧
      (recordWrite s.scene.mstore v.record = none → t.answers r 0x0201 Err.capacity 0 [] ∧ s.frame t [.scene, .sessions, .vcp]) ∧
      (∀ m page, recordWrite s.scene.mstore v.record = some (m, page) → t.answers r 0x0201 0 0 [] ∧
        t.scene.mstore = dirWrite m v.scene { label := v.label, part := v.part, prof := v.prof, shape := v.shape, used := true,
                                              size := v.record.length, crc := Crypto.crc32 v.record, map := page, gen := v.gen } ∧
        t.ev = (s.raise .sceneSaved v.part v.scene 0).ev ∧ s.frame t [.scene, .mstore, .ev, .sessions, .vcp])) ∧
    (s.admits r 2 q → s.reads (.sceneList r 0) r 0x0203
      (((dirList s.scene.mstore).filter (fun e => q.receives e.2.part)).map (fun e => .blob (Fmt.toBE 2 e.1 ++ e.2.bytes)))) ∧
    (∀ n, s.admits r 1 q → s.audioServed = true → n < 1024 → (dirEnt s.scene.mstore n).used = true →
      s.mayScene q (dirEnt s.scene.mstore n).part = true → ∃ t, exec (.sceneDelete r n) s = .next t ∧ t.answers r 0x0204 0 0 [] ∧
        t.scene.mstore = dirWrite s.scene.mstore n DirEnt.free ∧ s.frame t [.mstore, .sessions, .vcp]) ∧
    (∀ id x n scope, s.admitsSet r id q x → x.st = .open → x.reading = none → scope < 64 → n < 1024 →
      (dirEnt s.scene.mstore n).used = true →
      (s.mayScene q (dirEnt s.scene.mstore n).part = false → s.refuses (.sceneRecall r id n scope) r 0x0202 Err.owner) ∧
      (s.mayScene q (dirEnt s.scene.mstore n).part = true → ∃ t, exec (.sceneRecall r id n scope) s = .next t ∧
        s.setBecomes t id { x with reading := some (n, scope, r) } ∧ t.vcp.last = s.vcp.last ∧ s.frame t [.scene, .sessions, .vcp])) ∧
    (∀ id x n scope e rec, s.stageSet? id = some x → x.reading = some (n, scope, r) → sceneRead s.scene.mstore n = .good e rec →
      s.areaUsed + ((s.recallOf n scope).map Added.cost).foldl (· + ·) 0 ≤ stageArea → ∃ t y, exec (.sceneReadDone id) s = .next t ∧
        s.setBecomes t id y ∧ y.added = x.added ++ s.recallOf n scope ∧ y.scenes = x.scenes ++ [(e.prof, e.shape)] ∧ y.reading = none ∧
          t.answers r 0x0202 0 0 [] ∧
        s.frame t [.scene, .mere, .sessions, .vcp]) ∧
    (∀ l cues, s.admits r 1 q → s.audioServed = true → l < 16 → (s.cueList l).st ≠ .armed → cues.length ≤ 256 → cues.all cueOk = true →
      Cells.wf CueList.reset s.scene.cues = true → ∃ t, exec (.cueLoad r l cues) s = .next t ∧ t.answers r 0x0205 0 0 [] ∧
        t.cueList l = { st := if cues = [] then .empty else .loaded, cues := cues, mcc := [], next := 0 } ∧
        (∀ j, j ≠ l → t.cueList j = s.cueList j) ∧ s.frame t [.scene, .sessions, .vcp]) ∧
    (∀ l, s.admits r 1 q → s.audioServed = true → l < 16 → (s.cueList l).st = .loaded →
      let m := (s.admitted r).timedCues (s.cueList l)
      (s.admitted r).armAll r.sid l [] m = none → Cells.wf CueList.reset s.scene.cues = true →
      ∃ t, exec (.cueArm r l) s = .next t ∧ t.answers r 0x0206 0 0 [] ∧
        t.cueList l = { st := .armed, cues := m.map (·.1), mcc := m.map (·.2), next := 0 } ∧
        (∀ h, s.scene.holder = some h → t.scene.holder = some h) ∧ s.frame t [.scene, .mere, .sessions, .vcp]) ∧
    (∀ l, s.admits r 1 q → s.audioServed = true → l < 16 → (s.cueList l).st = .armed → Cells.wf CueList.reset s.scene.cues = true →
      s.scene.units = none → ∃ t, exec (.cueDisarm r l) s = .next t ∧ t.answers r 0x0207 0 0 [] ∧
        t.cueList l = { s.cueList l with st := .loaded, mcc := [], next := 0 } ∧ s.frame t [.scene, .mere, .sessions, .vcp]) ∧
    (∀ l, s.admits r 2 q → l < 16 → s.reads (.cueRead r l) r 0x0208 (.words [(s.cueList l).st.code, (s.cueList l).next] ::
      ((s.cueList l).cues.map (fun c => .words (cueWords c)) ++ (s.cueList l).mcc.map Item.mcc))) ∧
    (∀ l w m c rest, (s.cueList l).st = .armed → (s.cueList l).left = (⟨w, .mcc m⟩, c) :: rest → c ≤ s.mcc →
      let u := s.setCues l { s.cueList l with next := (s.cueList l).next + 1, st := if rest = [] then .done else .armed }
      let v := u.raise .cueFired 0 l 0
      (∀ id x, w = .set id → s.stageSet? id = some x → x.st = .checked → x.waiting = false → ∃ t, exec (.cueFired l) s = .next t ∧
        t = (v.commitSet x.added x.attrs.cfLen x.attrs.dxLen c id).loadCue ∧ t.marks .commitApplied ∧
        (∀ y ∈ t.scene.sets, y.id = id → y.st = .committed)) ∧
      (∀ id x, w = .set id → s.stageSet? id = some x → x.st ≠ .checked ∨ x.waiting = true → s.scene.units = none →
        ∃ t, exec (.cueFired l) s = .next t ∧ t = v) ∧
      (∀ n scope, w = .scene n scope → (s.cueAdds w).any Added.hasNodes = true → ∃ t, exec (.cueFired l) s = .next t ∧
        t = ((v.commitSet (s.cueAdds w) 64 256 c 0).freePlane cueHolder).loadCue ∧ t.marks .commitApplied) ∧
      (∀ n scope, w = .scene n scope → (s.cueAdds w).any Added.hasNodes = false → ∃ t, exec (.cueFired l) s = .next t ∧
        t = v.commitSet (s.cueAdds w) 64 256 c 0 ∧ t.marks .commitApplied))

/-! ### Ports (spec/07, spec/08) -/

/-- R207–R223: a SAP direction that has not run yet measures good frames and sends zero words; a running master receiver puts the words of
its mask's slots through their stages into the alignment buffers at its stamp; a transmitter sends the stages' results in its mask's slots
and 0, or high impedance, in the others; a slave whose clock stops for two frame periods, or whose frame is a glitch, is in loss with
EV_SAP_LOSS, and runs again with EV_SAP_RESUME when its measured rate fits, or says EV_SAP_RATE; when every leaving slot is silent the
shadow mask is written, which takes effect with EV_SAP_LAYOUT; a stop ends when its frames of zero have passed. -/
def Obligations.SapDirectionsRun : Prop :=
  ∀ (s : State) (p : Nat) (tx : Bool), p < 16 → Fmt.bit s.power.domains 3 = true →
    let d := s.sapDir p tx
    let c := s.sapCfg p tx
    let obj := sapObj p tx
    let clean := fun (period bclks : Nat) => c.master = true ∨ s.sapClean c period bclks = true
    (∀ ws ph period bclks, clean period bclks → d.active = true → d.running = false →
      ∃ t, exec (.sapFrame p tx ws ph period bclks) s = .next t ∧
        t.sapDir p tx = { d.count with measuring := true, meas := d.meas + 1, tx := d.tx.map (fun _ => 0)
                                       hiz := if tx then s.sapHiz p c d.mask else 0 } ∧ s.frame t [.ports]) ∧
    (∀ ws ph period bclks n, clean period bclks → tx = false → d.running = true → c.kind = .engine → c.clock = 0 →
      d.nextStamp = some n → s.mcc = n → n < 2 ^ 64 → Cells.wf SlotSt.reset d.slots = true → Cells.wf 0 s.audio.rx = true →
      ∃ t, exec (.sapFrame p tx ws ph period bclks) s = .next t ∧
        (∀ k, k < 64 → Fmt.bit d.mask k = true → t.rxAt (sapRef0 .engine p + k) n =
          ((d.slot k).sample (Fmt.s32ToE48 (sapWord c.wordBits (ws.getD k 0))) n s.tzc s.lramp).2) ∧
        (∀ k m, m < 2 ^ 64 → m ≠ n ∨ 64 ≤ k ∨ Fmt.bit d.mask k = false →
          t.rxAt (sapRef0 .engine p + k) m = s.rxAt (sapRef0 .engine p + k) m) ∧
        (t.sapDir p tx).nextStamp = some (n + 1) ∧ s.frame t [.audio, .ports]) ∧
    (∀ ws ph period bclks, clean period bclks → tx = true → d.running = true → c.kind = .engine → c.clock = 0 →
      Cells.wf SlotSt.reset d.slots = true → ∃ t, exec (.sapFrame p tx ws ph period bclks) s = .next t ∧
        (t.sapDir p tx).tx.length = c.slots ∧ (t.sapDir p tx).hiz = s.sapHiz p c d.mask ∧
        (∀ k, k < c.slots → (t.sapDir p tx).tx[k]? = some (if Fmt.bit d.mask k then
          sapBits c.wordBits ((d.slot k).sample (Fmt.toS 32 (Fmt.wrapU 32 (s.portAt (sapRef0 .engine p + k) (s.mcc - 3)))) s.mcc
            s.tzc s.lramp).2 else 0)) ∧ (t.sapDir p tx).nextStamp = some (s.mcc + 1) ∧ s.frame t [.ports]) ∧
    (d.running = true → c.master = false → s.obeys = false →
      let lost := fun (t : State) (cause : Nat) => (t.sapDir p tx).loss = true ∧ (t.sapDir p tx).running = false ∧
        (t.sapDir p tx).losses = Fmt.satInc d.losses 1 ∧
        (∀ k ∈ [5, 6, 7], (s.cku.ref k).st ≠ .disabled → t.refAlive k = false → (t.cku.ref k).st = .lost) ∧
        ((∀ k ∈ [5, 6, 7], (s.cku.ref k).st = .disabled) → (c.kind = .engine → s.told t .sapLoss (s.sapOwner p) obj cause) ∧
          s.frame t [.audio, .ports, .conv, .spring, .free, .draws, .ev, .sessions, .legacy, .twin])
      (∀ idle, 2 * s.amclk ≤ idle * c.rate → ∃ t, exec (.sapClockStop p tx idle) s = .next t ∧ lost t 1) ∧
      (∀ idle, idle * c.rate < 2 * s.amclk → exec (.sapClockStop p tx idle) s = .next s) ∧
      (∀ ws ph period bclks, s.sapClean c period bclks = false →
        ∃ t, exec (.sapFrame p tx ws ph period bclks) s = .next t ∧ lost t 2)) ∧
    (∀ period, d.running = false → d.measuring = true → 64 ≤ d.meas → c.master = false → s.obeys = false → d.shadow = none →
      (rateMatches s.amclk period c.rate = true → ∃ t, exec (.sapRateMeasured p tx period (c.slots * c.slotBits)) s = .next t ∧
        (t.sapDir p tx).running = true ∧ (t.sapDir p tx).loss = false ∧ (t.sapDir p tx).mask = d.mask ∧
        (c.kind = .engine → s.told t .sapResume (s.sapOwner p) obj 0) ∧
        s.frame t [.audio, .ports, .conv, .free, .ev, .sessions, .twin]) ∧
      (rateMatches s.amclk period c.rate = false → c.clock ≠ 3 → d.mismatch = false →
        ∃ t, exec (.sapRateMeasured p tx period (c.slots * c.slotBits)) s = .next t ∧
          t.sapDir p tx = { d with mismatch := true, meas := 0 } ∧ s.toldD t .sapRate (s.sapOwner p) obj [rateOf s.amclk period] ∧
          s.frame t [.ports, .ev, .sessions])) ∧
    (let d1 := (s.sapIdle p tx s.mcc).sapDir p tx
     (∀ m, d1.wanted = some m → (∀ k ∈ maskSlots d1.mask 64, Fmt.bit m k = true ∨ (d1.slot k).silent (d1.now c.kind s.mcc) = true) →
      ∃ t, exec (.sapMaskShadowWrite p tx) s = .next t ∧ t.sapDir p tx = { d1 with wanted := none, shadow := some (m, 2) } ∧
        (tx = true → d1 = d ∧ s.frame t [.ports]) ∧ s.frame t [.audio, .ports, .conv, .free, .ev, .sessions]) ∧
     (∀ k, d1.stopping = some k → 2 ≤ k → d1.again = false → ∃ t, exec (.sapStopDone p tx) s = .next t ∧ t.sapDir p tx = d1.off ∧
      s.frame t [.audio, .ports, .conv, .free, .ev, .sessions])) ∧
    (∀ m k, d.shadow = some (m, k) → k ≤ 1 → d.running = true → ∃ t, exec (.sapLayout p tx) s = .next t ∧
      (t.sapDir p tx).mask = m ∧ (t.sapDir p tx).shadow = none ∧ s.toldD t .sapLayout (s.sapOwner p) obj
        ([p, Fmt.b2n tx, (d.frames + 1) % 2 ^ 32] ++
          if c.clock ≤ 1 then two (s.sapStamp c d) else []) ∧
      s.frame t [.ports, .conv, .ev, .sessions])

/-- R224–R229, R221: a MADI receiver counts good frames until it locks, with EV_MADI_RESUME when its rate fits, and a glitch or a stop
starts the count afresh; a running direct receiver puts the channels of its mask through their stages, a subframe with a parity error
repeating the last sample; a receiver that hears nothing for two frame periods, or a glitch, is in loss with EV_MADI_LOSS; every transmitted
subframe has even parity, and only the first carries the channel marker. -/
def Obligations.MadiPortsRun : Prop :=
  ∀ (s : State) (p : Nat), p < 8 → Fmt.bit s.power.domains 3 = true →
    let d := s.madiDir p false
    let lost := fun (t : State) (cause : Nat) => (t.madiDir p false).loss = true ∧ (t.madiDir p false).running = false ∧
      (t.madiDir p false).losses = Fmt.satInc d.losses 1 ∧
      (∀ k ∈ [5, 6, 7], (s.cku.ref k).st ≠ .disabled → t.refAlive k = false → (t.cku.ref k).st = .lost) ∧
      ((∀ k ∈ [5, 6, 7], (s.cku.ref k).st = .disabled) → (s.madiDirect p = true → s.told t .madiLoss (s.madiOwner p) p cause) ∧
        s.frame t [.audio, .ports, .conv, .free, .draws, .ev, .sessions, .twin])
    (∀ ws v period, d.active = true → d.running = false →
      (s.madiClean p ws v period = true → ∃ t, exec (.madiFrame p false ws v period) s = .next t ∧
        t.madiDir p false = { d.count with meas := d.meas + 1, measuring := true } ∧ Cells.get 0 t.ports.chans p = ws.length ∧
        s.frame t [.ports, .ev, .sessions]) ∧
      (s.madiClean p ws v period = false → ∃ t, exec (.madiFrame p false ws v period) s = .next t ∧
        t.madiDir p false = { d.count with meas := 0, measuring := true } ∧ s.frame t [.ports])) ∧
    (∀ ws v period, d.running = true → s.obeys = false → s.madiClean p ws v period = false →
      ∃ t, exec (.madiFrame p false ws v period) s = .next t ∧ lost t 2) ∧
    (∀ ws v period n, d.running = true → d.stopping = none → s.madiClean p ws v period = true → s.madiDirect p = true →
      d.nextStamp = some n → n < 2 ^ 64 → Cells.wf SlotSt.reset d.slots = true → Cells.wf 0 s.audio.rx = true →
      ∃ t, exec (.madiFrame p false ws v period) s = .next t ∧
        (∀ k, k < 64 → Fmt.bit d.mask k = true → t.rxAt (madiRef0 p + k) n = (madiSlot ws n s.tzc s.lramp s.obeys k (d.slot k)).2) ∧
        (∀ k m, m < 2 ^ 64 → m ≠ n ∨ 64 ≤ k ∨ Fmt.bit d.mask k = false → t.rxAt (madiRef0 p + k) m = s.rxAt (madiRef0 p + k) m) ∧
        (t.madiDir p false).nextStamp = some (n + 1) ∧ s.frame t [.audio, .ports, .ev, .sessions, .twin]) ∧
    (∀ period, d.active = true → d.running = false → 64 ≤ d.meas → s.obeys = false →
      rateMatches s.amclk period (s.madiW p false 4) = true → ∃ t, exec (.madiLock p period) s = .next t ∧
        (t.madiDir p false).running = true ∧ (t.madiDir p false).loss = false ∧
        (s.madiDirect p = true → s.told t .madiResume (s.madiOwner p) p 0) ∧
        s.frame t [.audio, .ports, .conv, .free, .ev, .sessions, .twin]) ∧
    (∀ idle, 2 * s.amclk ≤ idle * s.madiW p false 4 →
      (d.running = true → s.obeys = false → ∃ t, exec (.madiStop p idle) s = .next t ∧ lost t 1) ∧
      (d.active = true → d.running = false → ∃ t, exec (.madiStop p idle) s = .next t ∧ t.madiDir p false = { d with meas := 0 } ∧
        s.frame t [.ports])) ∧
    (∀ idle, idle * s.madiW p false 4 < 2 * s.amclk → exec (.madiStop p idle) s = .next s) ∧
    (∀ ws v period, (s.madiDir p true).active = true → (s.madiDir p true).stopping = none → s.madiDiv p = 1 →
      Cells.wf 0 s.ports.block = true → ∃ t, exec (.madiFrame p true ws v period) s = .next t ∧
        (t.madiDir p true).tx.length = madiChans (s.madiW p true 1) ∧
        (∀ w ∈ (t.madiDir p true).tx, madiParity w = true) ∧ madiMarks (t.madiDir p true).tx = true ∧
        Cells.get 0 t.ports.block p = (Cells.get 0 s.ports.block p + 1) % 192 ∧ s.frame t [.ports])

/-- R230–R234: an insertion starts the measurement, whose result is the accessory's type with EV_HSP_PLUG; a falling line mutes the
microphone, a held band is a press, a hold repeats, a rise is the release, each with EV_HSP_BUTTON; an unplug starts a fade of 32 exits with
drivers, bias and type as they were, and when it is over they go, with EV_HSP_UNPLUG; the microphone gain moves one step towards its
committed value. -/
def Obligations.HeadsetPortFollowsTheAccessory : Prop :=
  ∀ s : State,
    let g := s.ports.hsp
    (s.on 0x22 0 0 = true → g.inserted = false → Fmt.bit s.power.domains 7 = true → ∃ t, exec .hspInsertion s = .next t ∧
      t.ports.hsp.inserted = true ∧ t.ports.hsp.type = g.type ∧ s.frame t [.ports, .audio, .free]) ∧
    (∀ tip r1 r2 sl, s.on 0x22 0 0 = true → g.inserted = true → g.leaving = none → g.type = 0 → Fmt.bit s.power.domains 7 = true →
      ∃ t, exec (.hspPlug tip r1 r2 sl) s = .next t ∧ t.ports.hsp.type = hspClass tip r1 r2 sl ∧ t.ports.hsp.drivers = true ∧
        s.told t .hspPlug s.hspOwner 0 (hspClass tip r1 r2 sl) ∧ s.frame t [.ports, .audio, .free, .ev, .sessions, .twin]) ∧
    (g.inserted = true → g.leaving = none → g.bias = true → g.touch = false → ∃ t, exec .hspButtonDown s = .next t ∧ t.ports.hsp.touch = true ∧
      t.ports.hsp.type = g.type ∧ s.frame t [.ports, .audio, .free]) ∧
    (∀ mv b, buttonOf mv = some b → g.touch = true → g.pressed = none → ∃ t, exec (.hspButtonPress mv) s = .next t ∧
      t.ports.hsp = { g with pressed := some b, buttons := 2 ^ b, repeats := 0 } ∧ s.told t .hspButton s.hspOwner b 1 ∧
      s.frame t [.ports, .ev, .sessions, .twin]) ∧
    (∀ b, g.pressed = some b → s.on 0x22 0 4 = true → ∃ t, exec .hspButtonRepeat s = .next t ∧
      t.ports.hsp = { g with repeats := g.repeats + 1 } ∧ s.told t .hspButton s.hspOwner b 2 ∧ s.frame t [.ports, .ev, .sessions]) ∧
    (∀ b, g.pressed = some b → g.touch = true → ∃ t, exec .hspButtonRelease s = .next t ∧ t.ports.hsp.pressed = none ∧
      t.ports.hsp.touch = false ∧ t.ports.hsp.buttons = 0 ∧ s.told t .hspButton s.hspOwner b 3 ∧
      s.frame t [.ports, .audio, .free, .ev, .sessions, .twin]) ∧
    (s.on 0x22 0 0 = true → g.inserted = true → g.leaving = none → ∃ t, exec .hspUnplug s = .next t ∧
      t.ports.hsp.leaving = some (s.mcc + 32) ∧ t.ports.hsp.type = g.type ∧ t.ports.hsp.drivers = g.drivers ∧
      t.ports.hsp.bias = g.bias ∧ t.ports.hsp.buttons = 0 ∧ t.ports.hsp.pressed = none ∧ s.frame t [.ports, .audio, .free]) ∧
    (∀ n, g.leaving = some n → (s.mcc < n → s.hspGone = s) ∧ (n ≤ s.mcc → ∃ t, s.hspGone = t ∧ t.ports.hsp.leaving = none ∧
      t.ports.hsp.type = 0 ∧ t.ports.hsp.inserted = false ∧ t.ports.hsp.drivers = false ∧ t.ports.hsp.bias = false ∧
      s.told t .hspUnplug s.hspOwner 0 0 ∧ s.frame t [.ports, .audio, .free, .ev, .sessions, .twin])) ∧
    (∃ t, exec .hspMicGainStep s = .next t ∧ t.ports.hsp.gainNow = (if g.gainNow < s.at 0x22 0 2 then g.gainNow + 1
      else if s.at 0x22 0 2 < g.gainNow then g.gainNow - 1 else g.gainNow) ∧ s.frame t [.ports])

/-! ### Network, time of day and streams (spec/09, spec/10) -/

/-- R253–R264: links rise and fall with EV_NET_LINK, a fall emptying the port's queues; a received frame goes to its counter, to its
timestamp, or to firmware within the limit of 50 Mb/s, and firmware's answer joins the port's queues, of which the first that has a frame
sends next; announces that return on ptp.port take PTP back there. An offset measurement steps a PHC that is not locked by an offset above
100 µs, and the 16th in a row within the limit locks it; a lost leader moves PTP to its alternate port or listens afresh; a due pulse raises
its pin and is told, as is a captured edge; PHC_SET steps the clock, and is refused while PD_NET is off (the model's choice, log entry 150);
MCC_ALIGN asks for the renumbering, which gives the MCC its media count; the alignment follows the selected reference and the edge error. -/
def Obligations.LinksAndTimeOfDay : Prop :=
  ∀ (s : State) (r : Req) (q : Session),
    (∀ n, s.linkUp n = true → ∃ t, exec (.netLinkDown n) s = .next t ∧ t.linkUp n = false ∧ (∀ m, m ≠ n → t.linkUp m = s.linkUp m) ∧
      Cells.get [] t.net.queue n = [] ∧ s.told t .netLink 0 n 1 ∧ s.frame t [.net, .ev, .sessions]) ∧
    (∀ n, n < 4 → s.netOn = true → s.on 0x30 n 0 = true → s.linkUp n = false → ∃ t, exec (.netLinkUp n) s = .next t ∧ t.linkUp n = true ∧
      (∀ m, m ≠ n → t.linkUp m = s.linkUp m) ∧ Cells.get 0 t.net.linkAt n = s.mcc ∧ s.told t .netLink 0 n 2 ∧
      s.frame t [.net, .ev, .sessions]) ∧
    (∀ (n : Nat) (f : NetFrame) (v : Nat), s.linkUp n = true →
      let k := s.classify n f
      let slow := k = .arp ∨ k = .icmp ∨ k = .igmp
      let drops := fun (t : State) => Cells.get 0 t.net.drop n = Fmt.satInc (Cells.get 0 s.net.drop n) 1 ∧ t.net.queue = s.net.queue
      (k = .badFcs → ∃ t, exec (.netFrameReceive n f v) s = .next t ∧ Cells.get 0 t.net.crc n = Fmt.satInc (Cells.get 0 s.net.crc n) 1 ∧
        t.net.drop = s.net.drop ∧ s.frame t [.net]) ∧
      (k = .other → ∃ t, exec (.netFrameReceive n f v) s = .next t ∧ drops t ∧ t.net.crc = s.net.crc ∧ s.frame t [.net]) ∧
      (k = .stream ∨ k = .vcp → exec (.netFrameReceive n f v) s = .next s) ∧
      (k = .ptpEvent → ∃ t, exec (.netFrameReceive n f v) s = .next t ∧ t.net.ptpStamp = s.rxTimestamp n v ∧
        t.net.drop = s.net.drop ∧ s.frame t [.net]) ∧
      (k = .ptpGeneral → (f.msg % 16 = 0xB ∧ s.net.alt = true ∧ n = s.at 0x33 0 7 → ∃ t, exec (.netFrameReceive n f v) s = .next t ∧
          t.net.alt = false ∧ t.net.ptpSt = 1) ∧
        (¬ (f.msg % 16 = 0xB ∧ s.net.alt = true ∧ n = s.at 0x33 0 7) → exec (.netFrameReceive n f v) s = .next s)) ∧
      (slow → s.ctlFree n 0 = false → ∃ t, exec (.netFrameReceive n f v) s = .next t ∧ drops t ∧ s.frame t [.net]) ∧
      (slow → s.ctlFree n 0 = true → ∃ t, exec (.netFrameReceive n f v) s = .next t ∧ t.net.drop = s.net.drop ∧
        Cells.get 0 t.net.paid (2 * n) = max (Cells.get 0 s.net.paid (2 * n)) s.upNs + 160 * (f.len + 20) ∧
        (k = .arp → f.dst = s.at 0x30 n 2 → f.msg = 1 → s.fault.stalled = false → s.fault.halted = false →
          Cells.get [] t.net.queue n = Cells.get [] s.net.queue n ++ [{ kind := .arp, bytes := 88 }]) ∧ s.frame t [.net])) ∧
    (∀ free now l f, nextFrame free now l = some f → f ∈ l ∧ f.due ≤ now ∧ (free = true ∨ f.kind.limited = false) ∧
      ∀ g ∈ l, g.due ≤ now → free = true ∨ g.kind.limited = false → f.kind.queue ≤ g.kind.queue) ∧
    (∀ off l, s.netOn = true → s.on 0x33 0 0 = true → s.at 0x33 0 3 ≠ 1 → s.net.ptpSt = 1 ∨ s.net.ptpSt = 2 →
      (100000 < off.natAbs → ∃ t, exec (.ptpOffsetMeasurement off l) s = .next t ∧ t.net.offset = off ∧
        t.net.phc.t = ((s.net.phc.t : Int) - off * 2 ^ 32).toNat ∧ t.net.phc.rem = 0 ∧ s.frame t [.net, .cku, .ev, .sessions]) ∧
      (off.natAbs ≤ 100000 → off.natAbs ≤ s.at 0x33 0 0x0A → 15 ≤ s.net.phc.within →
        ∃ t, exec (.ptpOffsetMeasurement off l) s = .next t ∧ t.net.ptpSt = 3 ∧ t.net.phc.t = s.net.phc.t ∧
          t.net.phc.adj.natAbs ≤ 8589935 ∧ s.told t .ptpLock 0 0 0 ∧ s.frame t [.net, .ev, .sessions, .draws])) ∧
    (s.netOn = true → s.on 0x33 0 0 = true → s.net.ptpSt = 1 ∨ s.net.ptpSt = 2 → ∃ t, exec .announceTimeout s = .next t ∧
      t.net.alt = (s.net.alt || decide (s.at 0x33 0 8 ≠ 0xFF)) ∧ t.net.phc.within = 0 ∧ s.frame t [.net]) ∧
    (s.netOn = true → s.on 0x33 0 0 = true → s.net.ptpSt = 3 → ∃ t, exec .announceTimeout s = .next t ∧ t.net.ptpSt ≠ 3 ∧
      t.marks .ptpUnlock ∧ t.net.phc.t = s.net.phc.t) ∧
    (∀ i, i < 8 → s.netOn = true → s.at 0x32 i 0 ≠ 0xFF →
      s.at 0x32 i 1 * 1000000000 + s.at 0x32 i 2 + Cells.get 0 s.net.timers i * s.at 0x32 i 3 ≤ s.phcNs →
      ∃ t, exec (.phcTimerPulse i) s = .next t ∧ Cells.get 0 t.net.timers i = Cells.get 0 s.net.timers i + 1 ∧
        Cells.get 0 t.net.pulse i = s.at 0x32 i 1 * 1000000000 + s.at 0x32 i 2 + Cells.get 0 s.net.timers i * s.at 0x32 i 3 + s.at 0x32 i 4 ∧
        s.told t .phcTimer 0 i 0 ∧ s.frame t [.net, .ev, .sessions]) ∧
    (∀ i up, 8 ≤ i → i < 16 → s.netOn = true → s.at 0x32 i 0 ≠ 0xFF → s.at 0x32 i 5 = 2 ∨ s.at 0x32 i 5 = (if up then 0 else 1) →
      Cells.wf 0 s.net.capture = true → ∃ t, exec (.phcCapture i up) s = .next t ∧ Cells.get 0 t.net.capture i = s.phcNs ∧
        s.toldD t .phcCapture 0 i (two (s.phcNs / 1000000000) ++ [s.phcNs % 1000000000, s.net.phc.t % 2 ^ 32]) ∧
        s.frame t [.net, .ev, .sessions]) ∧
    (∀ sec ns, s.admits r 0 q → s.audioServed = true → sec < 2 ^ 48 → ns < 1000000000 →
      (s.netOn = true → ∃ t, exec (.phcSet r sec ns) s = .next t ∧
        t.answers r 0x0501 0 0 [] ∧ t.net.phc.t = (sec * 1000000000 + ns) * 2 ^ 32 ∧ t.net.phc.rem = 0 ∧
        (s.cku.sel ≠ 4 → s.frame t [.net, .sessions, .vcp]) ∧ s.frame t [.net, .cku, .ev, .sessions, .vcp]) ∧
      (s.netOn = false → s.refuses (.phcSet r sec ns) r 0x0501 Err.state)) ∧
    (s.admits r 0 q → s.audioServed = true → (∀ x ∈ s.scene.sets, x.st ≠ .scheduled) → (∀ c ∈ s.scene.cues, c.2.st ≠ .armed) →
      ∃ t, exec (.mccAlign r) s = .next t ∧ t.answers r 0x0502 0 0 [] ∧ t.net.align = true ∧ t.net.mcc = 1 ∧ t.cku.slewMod = s.B ∧
        s.frame t [.net, .cku, .sessions, .vcp]) ∧
    (s.slewUnit ≠ 1 → s.cku.sel = 4 → s.cku.st = .locked → s.mcc % s.B = 2 → s.slewLeft s.B = 0 → 0 ≤ (s.mcc : Int) + s.delta →
      ∃ t, exec .mccRenumber s = .next t ∧ t.mcc = s.mediaCount ∧ t.net.mcc = 2 ∧ t.net.align = false ∧ t.net.delta = s.delta ∧ t.marks .mccAligned ∧
        (∀ x ∈ t.scene.sets, x.st = .scheduled → ∀ c, x.commit = some c → t.mcc + 2 * s.B ≤ c) ∧
        s.frame t [.mcc, .audio, .mere, .spring, .tarn, .ports, .conv, .net, .cku, .sessions, .vcp, .ev, .scene, .fault, .twin, .legacy]) ∧
    (∀ e, s.net.mcc = 2 → s.cku.sel ≠ 4 ∨ 50 < e.natAbs → ∃ t, exec (.mccUnaligned e) s = .next t ∧ t.net.mcc = 0 ∧ t.net.edgeErr = e ∧
      s.told t .mccUnaligned 0 0 0 ∧ s.frame t [.net, .ev, .sessions]) ∧
    (∀ e, s.net.mcc = 0 → s.cku.sel = 4 → e.natAbs ≤ 50 → s.delta = 0 → ∃ t, exec (.mccRealigned e) s = .next t ∧ t.net.mcc = 2 ∧
      s.toldD t .mccAligned 0 0 [0, 0] ∧ s.frame t [.net, .ev, .sessions])

/-- R266–R274: the first copy of a packet in time enters the stream and, on a direct path, its samples stand in the alignment buffers from
its stamp; one that comes too late or too early is counted and goes no further; a leg whose copy does not come is counted missing, and at 16
in a row flagged; a due packet joins the queues of its legs' ports, where their links are up since its first sample, with its stamp, number
and payload, and the next follows P samples later; a stopped transmitter and a disabled receiver are silent first, and their rate converter
channels are free. -/
def Obligations.StreamsCarryPackets : Prop :=
  ∀ (s : State) (i : Nat), i < 256 →
    let x := s.rxStream i
    let y := s.txStream i
    let P := s.streamP 0x35 i
    let chans := s.at 0x35 i 3
    let bytes := s.at 0x35 i 1 + 2
    (∀ (leg n ts ns : Nat) (data : List Nat), leg < 2 → x.running = true → s.linkUp (s.legPort 0x35 i leg) = true →
      data.length = chans * P * bytes → (∀ c ∈ x.copies, c.seq ≠ n) →
      let now := s.streamNow (s.at 0x35 i 2)
      let k := lift32 now ts + s.linkOffset i
      let tick := tickOf s.B (s.engineStamp (s.at 0x35 i 2) k)
      let late := tick ≤ s.mcc ∨ (tick - s.mcc) * 1000000000 < (s.leadNs + ns) * s.fs
      (late → ∃ t, exec (.streamPacketReceive i leg n ts ns data) s = .next t ∧
        t.rxStream i = { x with late := Fmt.satInc x.late 1 } ∧ s.frame t [.net]) ∧
      (¬ late → now + s.linkOffset i + P + 2 * s.B < k → ∃ t, exec (.streamPacketReceive i leg n ts ns data) s = .next t ∧
        t.rxStream i = { x with early := Fmt.satInc x.early 1 } ∧ s.frame t [.net]) ∧
      (¬ late → k ≤ now + s.linkOffset i + P + 2 * s.B → s.obeys = false → k + P ≤ 2 ^ 64 → Cells.wf 0 s.audio.rx = true →
        ∃ t, exec (.streamPacketReceive i leg n ts ns data) s = .next t ∧ (t.rxStream i).got = (k :: x.got).take 4096 ∧
          (t.rxStream i).good = runAt ((k :: x.got).take 4096) P k ∧ (s.path (s.at 0x35 i 2) = .direct → ∀ j ch, j < P → ch < chans →
            t.rxAt (streamRef i ch) (k + j) = payloadSample data bytes chans j ch) ∧
          s.frame t [.audio, .net, .conv, .ev, .sessions, .twin])) ∧
    (∀ n c, x.copies.find? (fun c => c.seq = n && !c.both && c.leg != 0) = some c → x.running = true → s.legPort 0x35 i 0 ≠ 0xFF →
      (s.at 0x35 i 7 * 1000 : Nat) ≤ s.since c 0 → ∃ t, exec (.streamLegMiss i 0 n) s = .next t ∧
        (t.rxStream i).aMiss = Fmt.satInc x.aMiss 1 ∧ (t.rxStream i).legA = (x.legA && decide (x.runA + 1 < 16)) ∧
        (x.legA = true ∧ 16 ≤ x.runA + 1 → s.told t .streamLeg 0 i 1) ∧ s.frame t [.net, .ev, .sessions]) ∧
    (let p := s.streamP 0x36 i
     y.running = true → 0 < p → y.next + p + 1 ≤ s.streamNow (s.at 0x36 i 2) →
      ∃ (t : State) (q : Rtp), exec (.streamPacketTransmit i) s = .next t ∧ (t.txStream i).last = some q ∧ (t.txStream i).next = y.next + p ∧
        q.ts = y.next % 2 ^ 32 ∧ q.seq = y.next / p % 65536 ∧ q.pt = s.at 0x36 i 5 ∧ q.ssrc = s.at 0x36 i 6 ∧
        q.data.length = p * s.at 0x36 i 3 * (s.at 0x36 i 1 + 2) ∧
        (s.twin.handover = none → ∀ k, k < 2 → let n := s.legPort 0x36 i k
          (if k = 0 then q.legA else q.legB) = ((if k = 0 then (y.legsAt y.next).1 else (y.legsAt y.next).2) && s.linkUp n &&
            decide (Cells.get 0 s.net.linkAt n ≤ s.engineStamp (s.at 0x36 i 2) y.next))) ∧
        (∀ k, k < 2 → (if k = 0 then q.legA else q.legB) = true →
          { kind := .audio i q.seq, bytes := q.data.length + 82, due := s.emitAt i k y.next } ∈ Cells.get [] t.net.queue (s.legPort 0x36 i k)) ∧
        s.frame t [.net, .conv, .free, .ev, .sessions]) ∧
    (y.stopping = true → y.slots.all (fun c => c.2.silent y.next) = true → Cells.wf TxStream.reset s.net.tx = true →
      ∃ t, exec (.streamTxStopDone i) s = .next t ∧ (t.txStream i).running = false ∧ (t.txStream i).stopping = false ∧
        (t.txStream i).last = y.last ∧ (∀ c ∈ t.conv.src, ¬ (c.2.user / 256 = 0x040000 + i ∧ c.2.dir = 1)) ∧ s.frame t [.net, .conv]) ∧
    (x.stopping = true → x.slots.all (fun c => c.2.silent s.mcc) = true → Cells.wf RxStream.reset s.net.rx = true →
      ∃ t, exec (.streamRxRelease i) s = .next t ∧ (t.rxStream i).running = false ∧ (t.rxStream i).stopping = false ∧
        (t.rxStream i).lost = x.lost ∧ (∀ c ∈ t.conv.src, ¬ (c.2.user / 256 = 0x040000 + i ∧ c.2.dir = 0)) ∧ s.frame t [.net, .conv])

/-! ### Clock references (spec/11) -/

/-- R279–R301: a lost reference is LOST and counted with EV_REF_LOST, and in mode 0 the selection is that of R285 at once; so it is after
each evaluation. The clock unit locks, narrows its bandwidth a code at a time, and falls back; the holdover ends in a glide and that in free
run, each with its event; a REF4 slew whose edge error is small aligns the MCC, unless a renumbering waits for its own end. CKU_STEER sets
the target of the steered mode; a calibration runs under the maintenance token, and its value is kept in MSTORE. A clock output takes its
committed frequency. -/
def Obligations.ClockUnitFollowsItsReferences : Prop :=
  ∀ (s : State) (r : Req) (q : Session),
    (∀ k, k < 8 → (s.cku.ref k).st ≠ .disabled → (s.cku.ref k).st ≠ .lost → s.dev ≠ .off → ∃ t, exec (.refLost k) s = .next t ∧
      (t.cku.ref k).st = .lost ∧ (t.cku.ref k).losses = Fmt.satInc (s.cku.ref k).losses 1 ∧
      (s.at 0x41 0 0 ≠ 0 → s.told t .refLost 0 k 0 ∧ s.frame t [.cku, .ev, .sessions]) ∧
      (s.at 0x41 0 0 = 0 → s.cku.twinFollow = false → t.cku.sel = (s.loseRef k).select ∧ (s.loseRef k).isCand k = false)) ∧
    (∀ m, s.dev ≠ .off →
      let u := m.foldl (fun s m => s.measureRef m) (((List.range 8).filter (fun k => !s.refAlive k)).foldl (fun s k => s.loseRef k) s.enableRefs)
      ∃ t, exec (.refEvaluation m) s = .next t ∧ t.cku.refs = u.cku.refs ∧
        (s.at 0x41 0 0 = 0 → s.cku.twinFollow = false → t.cku.sel = u.select) ∧ (s.at 0x41 0 0 ≠ 0 → t = u)) ∧
    (s.cku.st = .acquiring → s.cku.sel ≠ 0xFF ∨ s.cku.twinFollow = true → s.fs ≤ s.cku.inN → ∃ t, exec .ckuLock s = .next t ∧
      t.cku = { s.cku with st := .locked, everLock := true, bwN := 0 } ∧ s.told t .ckuLock 0 0 0 ∧ s.frame t [.cku, .ev, .sessions]) ∧
    (s.cku.inN < s.fs → exec .ckuLock s = .next s) ∧
    (s.cku.st = .locked → s.at 0x40 s.cku.sel 9 < s.cku.bw → 10000 * s.fs ≤ s.cku.bwN * 10 ^ s.cku.bw → ∃ t, exec .ckuBwStep s = .next t ∧
      t.cku = { s.cku with bw := s.cku.bw - 1, bwN := 0 } ∧ s.frame t [.cku]) ∧
    (s.cku.st = .locked → s.fs ≤ 10 * s.cku.outN → ∃ t, exec .ckuUnlock s = .next t ∧ t.cku.st = .acquiring ∧ t.cku.sel = s.cku.sel ∧
      (s.cku.twinFollow = false → t.cku.bw = s.acquireBw s.cku.sel) ∧ t.cku.cal = s.cku.cal ∧ s.told t .ckuUnlock 0 0 0 ∧
      s.frame t [.cku, .ev, .sessions]) ∧
    (s.cku.st = .holdover → s.cku.holdRem = 0 → 0 < s.cku.holdN → ∃ t, exec .ckuGlide s = .next t ∧
      t.cku = { s.cku with st := .glide, target := some (s.sat 0x41 0 5, 100000) } ∧ s.told t .ckuGlide 0 0 0 ∧
      s.frame t [.cku, .ev, .sessions]) ∧
    (s.cku.st = .glide → s.cku.target = none → ∃ t, exec .ckuFreerun s = .next t ∧ t.cku = { s.cku with st := .freeRun } ∧
      s.told t .ckuFreerun 0 0 0 ∧ s.frame t [.cku, .ev, .sessions]) ∧
    (∀ e, s.cku.sel = 4 → s.net.mcc = 1 → e.natAbs ≤ 50 → e = s.edgeNs →
      (s.slewUnit = 1 ∨ s.delta = 0 → ∃ t, exec (.ref4SlewDone e) s = .next t ∧
        t.net = { s.net with edgeErr := e, mcc := if s.delta = 0 then 2 else 0 } ∧
        (s.delta = 0 → s.toldD t .mccAligned 0 0 [0, 0]) ∧ s.frame t [.net, .ev, .sessions]) ∧
      (s.slewUnit ≠ 1 → s.delta ≠ 0 → ∃ t, exec (.ref4SlewDone e) s = .next t ∧ t.net = { s.net with edgeErr := e } ∧
        s.frame t [.net])) ∧
    (∀ f, s.admits r 0 q → s.audioServed = true → s.at 0x41 0 0 = 1 → f.natAbs ≤ 500000000 → ∃ t, exec (.ckuSteer r f) s = .next t ∧
      t.answers r 0x0503 0 0 [] ∧ t.cku = { s.cku with target := some (f, s.at 0x41 0 6 * 1000) } ∧ s.frame t [.cku, .sessions, .vcp]) ∧
    (s.admits r 0 q → s.cku.st = .locked → (s.cku.ref s.cku.sel).st = .qualified → s.fault.holder = none → s.fault.queue = [] →
      ∃ t, exec (.ckuCalibrate r) s = .next t ∧ t.answers r 0x0504 0 0 [] ∧ t.cku = { s.cku with cal := some s.cku.sel } ∧
        t.fault.holder = some { code := 7, target := 0, sid := r.sid } ∧ t.ev = ((s.admitted r).raise .maintStart 0 7 0).ev ∧
        s.frame t [.cku, .fault, .ev, .sessions, .vcp]) ∧
    (∀ k v, s.cku.cal = some k → ∃ t, exec (.ckuCalDone (some v)) s = .next t ∧ t.cku = s.cku.calibrate v ∧ t.cku.loCal = v ∧ t.cku.cal = none ∧
      t.cku.freq = recal s.cku.loCal v s.cku.freq ∧
      t.scene.mstore = s.scene.mstore.writeAll loCalAddr (Fmt.toBE 4 (Fmt.wrapU 32 v)) ∧ (s.maintOn 7 = true → t.fault.holder = none) ∧
      s.frame t [.cku, .mstore, .fault, .ev, .sessions]) ∧
    (∀ k, k < 5 → s.dev = .quiet ∨ s.dev = .run ∨ s.dev = .standby → Cells.wf ClkOut.reset s.cku.outs = true →
      let o := s.cku.out k
      let new := s.at 0x42 k 0
      let delay := if o.freq = 0 then s.at 0x42 k 1 else o.delay
      let edge := clkRise (max (s.clkPeriod k o.freq) (s.clkPeriod k new)) delay (s.mcc * s.halves)
      (new ≠ o.freq → edge < (s.mcc + 1) * s.halves → ∃ t, exec (.clkoutFreqChange k) s = .next t ∧ (t.cku.out k).freq = new ∧
        (t.cku.out k).since = edge ∧ (∀ h, h < edge → t.clkLevel k h = clkHigh (s.clkPeriod k o.freq) o.delay h) ∧ s.frame t [.cku]) ∧
      (new = o.freq ∨ (s.mcc + 1) * s.halves ≤ edge → exec (.clkoutFreqChange k) s = .next s))

/-! ### Fabric and memories (spec/14) -/

/-- R369–R377, R379, R382: a granted pool write stores the enabled bytes of its beats in its lines and no other byte; a granted read answers
the bytes that stand there. A read whose first line fails its parity is told: corrected where it is mirrored, poisoned where it is not. An
access that no window takes is answered with an error and EV_DECODE_ERROR. Of those that wait, the one with the highest effective QoS goes
first, of equals the earliest arrival, and it leaves the queue; while a burst holds the target, or a lock its port, no other goes. A
transaction that has waited 256 cycles is promoted. A writer that finds no room in its queue waits, and nothing else changes. A master's
reset withdraws what it has waiting, and of its burst the beats after the present cycle leave their lines as they were. R377–R390: a pass of
a scrubber is counted, with an event and a count for what it finds: a pool line corrected from its partner, DRAM words that cannot be
corrected, which set FAULT_SUM; corrected MSTORE words are counted and told. No pass changes a byte. Of the events pending at a crossing, at
most one a cycle is published, within the credit, and none is lost while no more than 255 wait. -/
def Obligations.FabricAndMemoriesServe : Prop :=
  (∀ (s : State) (target cycle : Nat),
      (∀ x : Txn, Fmt.bit s.power.domains 11 = true → s.fab.lock target = none → s.fab.busy target cycle = false →
          Cells.get 0 s.fab.resets x.master ≤ x.arrived → Cells.get [] s.fab.waiting target = [] → s.decodeTxn x = target →
          x.arrived ≤ cycle → Cells.wf [] s.fab.waiting = true → Cells.get [] s.fab.held x.queue = [] → s.fab.room x = true →
        let y := x.packed
        let n := y.beats.length
        (target < 28 → x.write = true → s.fab.pool.wf = true → ∃ t, exec (.fabricGrant target cycle [x]) s = .next t ∧
          t.fab.resp = some { master := x.master, err := false, poisoned := false, data := [] } ∧
          (∀ j i, j < n → i < 32 → t.fab.pool.read (x.line + 32 * j + i) =
            if Fmt.bit (y.enables.getD j 0) i then y.beats.getD j 0 / 256 ^ i % 256 else s.fab.pool.read (x.line + 32 * j + i)) ∧
          (∀ a, a < x.line ∨ x.line + 32 * n ≤ a → t.fab.pool.read a = s.fab.pool.read a) ∧
          t.fab.staging = s.fab.staging ∧ t.fab.dram = s.fab.dram ∧ s.frame t [.fab, .memories] ∧
          (s.fab.now ≤ cycle → s.fab.bursts = [] → ∃ u, exec (.masterResetDrain x.master) t = .next u ∧
            (∀ a, a < x.line + 32 → u.fab.pool.read a = t.fab.pool.read a) ∧
            (∀ a, x.line + 32 ≤ a → u.fab.pool.read a = s.fab.pool.read a))) ∧
        (target < 28 → x.write = false → s.fab.flips = [] →
          (x.parity = 0 → ∃ t, exec (.fabricGrant target cycle [x]) s = .next t ∧
            t.fab.resp = some { master := x.master, err := false, poisoned := false, data := x.native (readBurst s.fab.pool x.line n) } ∧
            s.frame t [.fab]) ∧
          (x.parity = 1 → let mir := mirrored target x.issued
            ∃ t, exec (.fabricGrant target cycle [x]) s = .next t ∧ t.fab.poolParity = Fmt.satInc s.fab.poolParity 1 ∧
              t.fab.resp = some { master := x.master, err := false, poisoned := !mir, data := x.native (readBurst s.fab.pool x.line n) } ∧
              s.told t .poolParity 0 target (if mir then 1 else 3) ∧ (mir = true → t.fab.flips = []) ∧
              (mir = false → t.lineGood (x.line / 32) = false ∧ t.fault.uncorrected = true))) ∧
        (target = 36 → ∃ (t : State) (a : Resp), exec (.fabricGrant target cycle [x]) s = .next t ∧ t.fab.resp = some a ∧
          a.master = x.master ∧ a.err = true ∧ s.toldD t .decodeError 0 x.master [x.master, x.addr] ∧
          s.frame t [.fab, .ev, .sessions])) ∧
      (∀ q, Fmt.bit s.power.domains 11 = true → s.fab.lock target = none → s.fab.busy target cycle = false →
          Cells.get [] s.fab.waiting target = q → q ≠ [] → (∀ x ∈ q, x.arrived ≤ cycle) →
          (∀ x ∈ q, Cells.get [] s.fab.held x.queue = []) → Cells.wf [] s.fab.waiting = true →
        ∃ (t : State) (x : Txn), exec (.fabricGrant target cycle []) s = .next t ∧ x ∈ q ∧
          (∀ y ∈ q, y.effective cycle ≤ x.effective cycle ∧ (y.effective cycle = x.effective cycle → x.arrived ≤ y.arrived)) ∧
          Cells.get 0 t.fab.last target = x.master + 1 ∧ Cells.get [] t.fab.waiting target = dropTxn x q) ∧
      (Fmt.bit s.power.domains 11 = true →
          s.fab.busy target cycle = true ∨ (s.fab.lock target ≠ none ∧ ∀ x ∈ Cells.get [] s.fab.waiting target, x.master ≠ 18) →
        ∃ t, exec (.fabricGrant target cycle []) s = .next t ∧ t.fab = { s.fab with now := max s.fab.now cycle } ∧ s.frame t [.fab]) ∧
      (∀ x : Txn, Fmt.bit s.power.domains 11 = true → Cells.get 0 s.fab.resets x.master ≤ x.arrived → Cells.get [] s.fab.waiting target = [] →
          s.fab.room x = false →
        ∃ t, exec (.fabricGrant target cycle [x]) s = .next t ∧ t.fab.waiting = s.fab.waiting ∧
          Cells.get [] t.fab.held x.queue = Cells.get [] s.fab.held x.queue ++ [x] ∧ t.fab.resp = s.fab.resp ∧ s.frame t [.fab]) ∧
      (Cells.wf [] s.fab.waiting = true → ∃ t, exec (.qosPromotion target cycle) s = .next t ∧
        Cells.get [] t.fab.waiting target = (Cells.get [] s.fab.waiting target).map (fun x =>
          if x.arrived + 256 ≤ cycle ∧ x.issued < 14 then { x with promoted := true } else x) ∧ s.frame t [.fab]) ∧
      (∀ m, ∃ t, exec (.masterResetDrain m) s = .next t ∧ (∀ k, ∀ x ∈ Cells.get [] t.fab.waiting k, x.master ≠ m) ∧
        (∀ q, q % 32 = m → Cells.get [] t.fab.held q = []) ∧ (m = 18 → t.fab.lock target = none) ∧
        (∀ c ∈ s.fab.bursts, ∀ b, c.2 = some b → b.txn.master = m → b.done ≤ Cells.get 0 t.fab.resets m) ∧
        s.frame t [.fab, .memories, .mailbox] ∧ (s.fab.bursts = [] → s.frame t [.fab]))) ∧
  (∀ s : State,
      (∀ found, Fmt.bit s.power.domains 11 = true → ∃ t, exec (.poolScrubPass found) s = .next t ∧ t.fab.scrubs = s.fab.scrubs + 1 ∧
        (∀ b, found = [.poolMirrored b] → s.fab.flips = [] → t.fab.poolParity = Fmt.satInc s.fab.poolParity 1 ∧
          s.told t .poolParity 0 b 1 ∧ t.fault = s.fault) ∧
        s.frame t [.fab, .fault, .ev, .sessions]) ∧
      (∀ found, Fmt.bit s.power.domains 0 = true → ∃ t, exec (.dramPatrolPass found) s = .next t ∧ t.fab.patrols = s.fab.patrols + 1 ∧
        (∀ b, found = [.dramDouble b] → t.fab.dramUncorr = Fmt.satInc s.fab.dramUncorr 1 ∧ t.fault.uncorrected = true ∧
          s.told t .dramUncorrected 0 0 0) ∧ s.frame t [.fab, .fault, .ev, .sessions]) ∧
      (∀ a, a < 0x2000000 → ∃ t, exec (.mstoreCorrected a) s = .next t ∧ t.fab.mstoreCorr = Fmt.satInc s.fab.mstoreCorr 1 ∧
        s.told t .mstoreCorrected 0 0 0 ∧ s.frame t [.fab, .ev, .sessions]) ∧
      (∀ found, ∃ t, exec (.mstoreScrubPass found) s = .next t ∧ t.fab.mramPasses = s.fab.mramPasses + 1 ∧
        (found = [] → t.fab.mstoreCorr = s.fab.mstoreCorr) ∧ s.frame t [.fab, .ev, .sessions]) ∧
      (∀ x n reflect take, x < 65536 → (s.fab.crossing x).fence = none → Cells.wf Crossing.reset s.fab.crossings = true →
        let c := s.fab.crossing x
        ∃ t, exec (.eventCountPublish x n reflect take) s = .next t ∧ t.fab.crossing x = c.cycle n reflect take ∧
          (c.pending + n ≤ 255 → (t.fab.crossing x).pending + (if (t.fab.crossing x).published = c.published then 0 else 1) = c.pending + n) ∧
          (take = true → (t.fab.crossing x).last = (t.fab.crossing x).published) ∧
          (∀ y, y ≠ x → t.fab.crossing y = s.fab.crossing y) ∧ s.frame t [.fab]))

/-! ### Twin pairs (spec/16) -/

/-- R277, R424, R426, R427, R430: a change of role gives the chip that role; it owns the outputs in SOLO and ACTIVE while in QUIET or RUN,
holds ALIVE in FENCED; its streams use the legs of the role; what the old role had under way is over, and EV_TWIN_ROLE is raised. The
parameters, the audio path and the memories stay. -/
def Obligations.RoleChangesTakeEffect : Prop :=
  ∀ (s : State) (new : Role) (cause : Nat),
    let t := s.setRole new cause
    t.twin.role = new ∧ t.twin.hasRole = true ∧ t.twin.ownN = !((new = .solo || new = .active) && s.live) ∧
    t.twin.aliveHeld = (!s.live || decide (new = .fenced)) ∧ t.twin.swap = none ∧ t.twin.handover = none ∧ t.twin.resync = 0 ∧
    (∀ c ∈ t.net.tx, (c.2.legA, c.2.legB) = twinLegs s.power.straps.twinEn s.power.straps.pairId new) ∧
    t.marks .twinRole ∧ t.cku.twinFollow = (decide (new = .standby) || decide (new = .joining)) ∧
    s.frame t [.twin, .net, .cku, .ports, .fault, .ev, .sessions, .vcp]

/-- R424, R427, R439–R445: a heartbeat shows peer and path, a withdrawn peer makes an ACTIVE SOLO, a path without heartbeats is down with
EV_TWIN_HB. A silent peer makes the chip SOLO; a stopped amclk releases OWN_N; the ACTIVE renews its lease each sample, and an
acknowledgement that is too old fences it; a standby without renewal takes SOLO. At the announced sample a handover or a swap exchanges the
roles, and the swap's reply gives the sample. -/
def Obligations.LeaseAndRolesFollowThePeer : Prop :=
  ∀ (s : State) (r : Req) (q : Session),
    (∀ hb : Heartbeat, s.twinUp = true → s.twin.hasRole = true → s.twin.role = .active → s.dev = .run →
      (hb.role ≤ 2 → ∃ t, exec (.twinHeartbeat false hb) s = .next t ∧ t.twin.peer = some hb ∧ t.twin.role = .active ∧
        Fmt.bit t.twin.paths 1 = true ∧ (Fmt.bit s.twin.paths 1 = false → s.told t .twinHb 0 1 1) ∧ s.frame t [.twin, .ev, .sessions]) ∧
      (hb.role = 3 ∨ hb.role = 4 → hb.boot = false → hb.run = false → s.twin.instepAt ≤ hb.mcc →
        ∃ t, exec (.twinHeartbeat false hb) s = .next t ∧ t.twin.role = .solo)) ∧
    (s.twin.role ≠ .standby → Fmt.bit s.twin.paths 0 = true → ∃ t, exec (.twinPathDown true) s = .next t ∧
      (∀ k, Fmt.bit t.twin.paths k = (Fmt.bit s.twin.paths k && decide (k ≠ 0))) ∧ s.told t .twinHb 0 0 0 ∧
      s.frame t [.twin, .ev, .sessions]) ∧
    (s.twin.role = .standby → ∃ t, exec (.twinPathDown true) s = .next t ∧ t.twin.leave = some 8 ∧ t.twin.role = .standby ∧
      s.frame t [.twin, .ev, .sessions]) ∧
    (s.power.straps.twinEn = true → s.twin.role = .active ∨ s.twin.role = .standby ∨ s.twin.role = .joining →
      ∃ t, exec .peerAliveStopped s = .next t ∧
        t = (s.setTwin (fun t => { t with peerAlive := false, peerOwn := false })).setRole .solo 2 ∧ t.twin.role = .solo ∧
        t.twin.peerAlive = false) ∧
    (∃ t, exec .amclkStopRelease s = .next t ∧ t.twin.ownN = true ∧ t.twin.aliveHeld = true ∧
      (s.power.straps.twinEn = true → s.twin.hasRole = true → t.twin.role = .fenced)) ∧
    (∀ n, s.twinUp = true → s.twin.role = .active → n = s.mcc → ∃ t, exec (.leaseRenewal n) s = .next t ∧
      t.twin = { s.twin with word := some n } ∧ s.frame t [.twin]) ∧
    (∀ n, s.twinUp = true → s.twin.role = .standby → ∃ t, exec (.leaseRenewal n) s = .next t ∧
      t.twin = { s.twin with renewed := max s.twin.renewed n, word := some n } ∧ s.frame t [.twin]) ∧
    (∀ n, s.twinUp = true → s.twin.role = .active → n ≤ s.mcc → ∃ t, exec (.leaseAck n) s = .next t ∧
      t.twin = { s.twin with acked := max s.twin.acked n } ∧ s.frame t [.twin]) ∧
    (s.twin.role = .active → (s.twin.acked + 6 ≤ s.mcc → ∃ t, exec .leaseFence s = .next t ∧ t = s.setRole .fenced 1 ∧
        t.twin.role = .fenced ∧ t.twin.ownN = true) ∧
      (s.mcc < s.twin.acked + 6 → exec .leaseFence s = .next s)) ∧
    (s.twin.role = .standby → (s.twin.renewed + 7 ≤ s.mcc → ∃ t, exec .leaseGuardExpiry s = .next t ∧ t = s.setRole .solo 1 ∧
        t.twin.role = .solo ∧ t.twin.ownN = !s.live) ∧
      (s.mcc < s.twin.renewed + 7 → exec .leaseGuardExpiry s = .next s)) ∧
    (∀ h k, s.twin.role = .active → s.twin.handover = some k → k ≤ s.mcc → ∃ t, exec (.twinHandover h) s = .next t ∧
      t = s.setRole .fenced 3 ∧ t.twin.role = .fenced ∧ t.twin.handover = none) ∧
    (∀ h, s.twin.role = .standby → h ≤ s.mcc → ∃ t, exec (.twinHandover h) s = .next t ∧ t = s.setRole .solo 3 ∧
      t.twin.role = .solo) ∧
    (∀ w h, s.admits r 0 q → s.twin.role = .active → s.twin.peerRole = 2 → s.twin.handover = none → s.twin.swap = none →
      (w = .next ∧ h = Fmt.cdiv (s.mcc + 2 * s.B) s.B * s.B ∨ w = .mcc h ∧ h % s.B = 0 ∧ s.mcc + 2 * s.B ≤ h) →
      ∃ t, exec (.twinSwap r w) s = .next t ∧ t.twin = { s.twin with swap := some h, swapReq := some r } ∧ t.vcp.last = s.vcp.last ∧
        s.frame t [.twin, .sessions, .vcp]) ∧
    (∀ h, s.twin.swap = some h → h ≤ s.mcc → s.twin.role = .active → s.twin.swapReq = some r → ∃ t, exec .twinSwapAtH s = .next t ∧
      t.twin.role = .standby ∧ t.answers r 0x0607 0 0 [.mcc h]) ∧
    (s.twin.role = .active → s.twin.swap = none → s.twin.swapReq = none → ∃ t, exec .processingPllLossOfLock s = .next t ∧
      t.twin = { s.twin with faulted := true, handover := if s.twin.handover.isSome then s.twin.handover else some (s.mcc + s.B) } ∧
      s.frame t [.twin]) ∧
    (s.twin.role = .standby → ∃ t, exec .processingPllLossOfLock s = .next t ∧
      t = (s.setTwin (fun t => { t with faulted := true })).setRole .fenced 12 ∧ t.twin.role = .fenced ∧ t.twin.faulted = true)

/-- R429–R438, R446–R448: the image goes to a booting peer once; a block whose digests differ is counted with EV_TWIN_DIGEST, and four in a
row make a standby withdraw; an edge offset beyond 500 ns makes a standby withdraw; a record of the lead for the next tick stands until it,
a missing one makes the standby withdraw at that tick, and the lead's own record is closed with what it decided; a change forwarded for a
later sample waits for it. The steps of a resynchronisation follow one another, each copied instance in turn, and without its run of equal
blocks in time it ends with EV_TWIN_INSTEP. -/
def Obligations.RecordsAndRejoining : Prop :=
  ∀ s : State,
    (s.twinUp = true → s.twin.peer.any (·.boot) = true → s.boot.image.isSome = true → s.twin.image = false →
      ∃ t, exec .twinImageSend s = .next t ∧ t.twin = { s.twin with image := true } ∧ s.frame t [.twin]) ∧
    (∀ off, s.twin.role = .standby ∨ s.twin.role = .joining → off.natAbs ≤ 500 → ∃ t, exec (.edgeOffsetExceeded off) s = .next t ∧
      t.twin = { s.twin with edge := off } ∧ s.frame t [.twin]) ∧
    (∀ off, s.twin.role = .standby → 500 < off.natAbs → ∃ t, exec (.edgeOffsetExceeded off) s = .next t ∧ t.twin.edge = off ∧
      t.twin.role = .joining) ∧
    (∀ tick, s.twinUp = true → s.twin.role = .standby → tick % s.B = 2 → s.mcc < tick → tick ≤ s.mcc + s.B →
      ∃ t, exec (.inputRecord tick []) s = .next t ∧ t.twin = { s.twin with record := some { tick := tick, items := [] } } ∧
        s.frame t [.twin]) ∧
    (s.twin.role = .standby → s.mcc % s.B = 1 → (∀ x, s.twin.record = some x → x.tick ≠ s.mcc + 1) →
      ∃ t, exec .inputRecordMissing s = .next t ∧ t.twin = { s.twin with leave := some 6 } ∧ s.frame t [.twin]) ∧
    (∀ hb : Heartbeat, s.twinUp = true → s.twin.hasRole = true → s.dev = .run → s.twin.role = .standby → Fmt.bit s.twin.paths 0 = true →
      hb.digests ≠ [] →
      let blk := hb.mcc / s.B - 1
      let own := Cells.get [] s.twin.own blk
      let d := digestDiff own hb.digests
      own ≠ [] → d ≠ 0 → ∃ t, exec (.twinHeartbeat true hb) s = .next t ∧ t.twin.mismatch = Fmt.satInc s.twin.mismatch 1 ∧
        (s.twin.mismRun < 3 → ((blk :: s.twin.mismHist).filter (fun b => decide (blk < b + 1024))).length < 16 → t.twin.role = .standby ∧
          t.twin.mismRun = s.twin.mismRun + 1 ∧ s.toldD t .twinDigest 0 0 [d] ∧ s.frame t [.twin, .ev, .sessions]) ∧
        (3 ≤ s.twin.mismRun → t.twin.role = .joining)) ∧
    (s.twinUp = true → s.twin.role = .active → s.mcc % s.B = 1 → ∃ (t : State) (x : InRecord),
      exec .inputRecordClose s = .next t ∧ t.twin.sent = some x ∧ x.tick = s.mcc + 1 ∧ (∀ i ∈ s.twin.closing, i ∈ x.items) ∧
        t.twin.closing = [] ∧ s.frame t [.twin, .audio, .ports, .free]) ∧
    (∀ m id, s.twinUp = true → s.twin.role = .standby → s.mcc < m → ∃ t, exec (.twinForward m (.sessionEnd id)) s = .next t ∧
      t.twin = { s.twin with forward := s.twin.forward ++ [(m, .sessionEnd id)] } ∧ s.frame t [.twin]) ∧
    (∀ m id, s.twinUp = true → s.twin.role = .standby → m ≤ s.mcc → ∃ t, exec (.twinForward m (.sessionEnd id)) s = .next t ∧
      t.twin.mirrored = s.twin.mirrored.filter (fun y => decide (y.sid ≠ id)) ∧ s.frame t [.twin]) ∧
    (∀ peer seed, s.twin.role = .solo ∨ s.twin.role = .joining →
      (s.twin.resync = 1 → ∃ t, exec (.resyncStepDone peer seed) s = .next t ∧ t.twin = { s.twin with resync := 2 } ∧ s.frame t [.twin]) ∧
      (s.twin.resync = 2 → s.twin.role = .solo → s.mcc % s.B = 2 → ∃ t, exec (.resyncStepDone peer seed) s = .next t ∧ t.twin.resync = 4 ∧
        t.twin.joinAt = s.mcc / s.B * s.B + s.B ∧ t.twin.reseed = true ∧ t.twin.seed = s.twin.seed ∧ s.frame t [.twin]) ∧
      (s.twin.resync = 2 → s.twin.role = .joining → s.mcc % s.B = 2 → peer % s.B = 2 → ∃ t, exec (.resyncStepDone peer seed) s = .next t ∧
        t.mcc = peer ∧ t.twin.resync = 4 ∧ t.twin.seed = seed ∧ t.twin.reseed = true) ∧
      (s.twin.resync = 4 → s.twin.joinAt + s.twin.window ≤ s.mcc → ∃ t, exec (.resyncStepDone peer seed) s = .next t ∧
        t.twin.nonconv = s.nonconvSlots ∧ t.twin.resync = (if s.nonconvSlots = [] then 6 else 5) ∧ s.frame t [.twin])) ∧
    (∀ n rest x y, s.twin.resync = 5 → s.twin.nonconv = n :: rest → ∃ t, exec (.nonconvStateCopy n x y) s = .next t ∧
      t.twin.nonconv = rest ∧ t.twin.resync = (if rest = [] then 6 else 5) ∧
      t.twin.copied = (if s.twin.role = .joining then s.twin.copied ++ [(n, x, y)] else s.twin.copied) ∧ s.frame t [.twin]) ∧
    (4 ≤ s.twin.resync → s.twin.joinAt + s.at 0x50 0 0x21 * s.fs ≤ s.mcc → s.maintOn 6 = false → ∃ t, exec .joinLimitExpiry s = .next t ∧
      t.twin.resync = 0 ∧ t.twin.nonconv = [] ∧ s.told t .twinInstep 0 0 2 ∧ s.frame t [.twin, .ev, .sessions])

/-! ### The legacy partition (spec/17) -/

/-- R455–R466: a written parameter register reads as the bits that it has; with SHADOW_EN at 1 its live value waits for LOAD, else a legacy
set takes it to the audio 24 samples later, and no other register changes. A burst goes through successive addresses, and a word cut short
or without a register is an error. A read answers the words of successive registers. LOAD is pending until its shadows latch 8 samples later
as one set; a second LOAD waits for none. SOFT_RESET returns the registers; RATE in legacy-only mode asks for the new rate; status bits
clear by ones. -/
def Obligations.LegacyRegistersAndSets : Prop :=
  ∀ s : State, s.legOn = true →
    (∀ a w, a < 65536 → w < 2 ^ 24 → legParamMask a ≠ 0 → s.legExists a = true → Cells.wf 0 s.legacy.live = true →
      ∃ t, exec (.legacyWrite a w) s = .next t ∧ exec (.legacyParamWrite a w) s = .next t ∧ t.legRead a = Nat.land w (legParamMask a) ∧
        (∀ b, b ≠ a → legParamMask b ≠ 0 → t.legRead b = s.legRead b) ∧
        (s.legacy.shadowEn = true → t.legacy.live = s.legacy.live ∧ t.legacy.sets = s.legacy.sets ∧ s.frame t [.legacy]) ∧
        (s.legacy.shadowEn = false → (∃ x ∈ t.legacy.sets, x.v = s.mcc ∧ (a, Nat.land w (legParamMask a)) ∈ x.writes) ∧
          s.frame t [.legacy, .scene])) ∧
    (∀ a w, a < 65536 → legUnmapped a = true → ∃ t, exec (.legacyWrite a w) s = .next t ∧
      t.legacy.errors = Fmt.satInc s.legacy.errors 1 ∧ (s.legacy.errSec = none → s.told t .legacySpi 15 0 0) ∧
      s.frame t [.legacy, .ev, .sessions]) ∧
    (∀ a w ws, ∃ u t, exec (.legacyWrite a w) s = .next u ∧ exec (.legacyBurstWrite (a + 1) ws false) u = .next t ∧
      exec (.legacyBurstWrite a (w :: ws) false) s = .next t) ∧
    (∃ t, exec (.legacyBurstWrite 0 [] true) s = .next t ∧ t.legacy.errors = Fmt.satInc s.legacy.errors 1 ∧
      s.frame t [.legacy, .ev, .sessions]) ∧
    (∀ a, a < 65536 → legUnmapped a = false → ∃ t, exec (.legacyRead a) s = .next t ∧
      t.legacy = { s.legacy with miso := [s.legRead a] } ∧ s.frame t [.legacy]) ∧
    (∀ a n, ∃ t, exec (.legacyBurstRead a n) s = .next t ∧ t.legacy.miso.length = n ∧
      (∀ i, i < n → t.legacy.miso[i]? = some (s.legRead ((a + i) % 65536))) ∧ s.frame t [.legacy, .ev, .sessions]) ∧
    (∃ t, exec .load s = .next t ∧ (s.legacy.pending = none → t.legacy = { s.legacy with pending := some s.mcc, latched := false }) ∧
      (s.legacy.pending ≠ none → t = s) ∧ s.frame t [.legacy]) ∧
    (∀ v, s.legacy.pending = some v → s.legacy.latched = false → v + 8 ≤ s.mcc → ∃ t, exec .loadLatch s = .next t ∧ t.legacy.shadow = [] ∧
      t.legacy.latched = true ∧ t.legacy.pending = some v ∧ (∃ x ∈ t.legacy.sets, x.v = v ∧ x.c = v + 24 ∧ x.load = true ∧
        x.writes = s.legacy.shadow.map (fun q => (q.1, q.2.getD 0))) ∧ s.frame t [.legacy, .scene]) ∧
    (∃ t, exec .softReset s = .next t ∧ t.legacy.shadowEn = false ∧ t.legacy.shadow = [] ∧
      (∀ a, a ≠ 2 → legParamMask a ≠ 0 → s.legExists a = true → t.legRead a = legResetVal a) ∧
      (∃ x ∈ t.legacy.sets, x.soft = true ∧ x.c = s.mcc + 24) ∧ s.frame t [.legacy, .scene]) ∧
    (∀ k, s.power.straps.mode = 1 → k % 2 ≠ s.legRate → ∃ t, exec (.legacyRateWrite k) s = .next t ∧ t.legRate = k % 2 ∧
      (∃ x ∈ t.legacy.sets, x.rate = some (k % 2) ∧ x.c = s.mcc + 24) ∧ s.frame t [.legacy, .scene]) ∧
    (∀ m, ∃ t, exec (.legacyStatusClear m) s = .next t ∧
      (∀ i, Fmt.bit t.legacy.status i = (Fmt.bit s.legacy.status i && !(decide (i < 7) && Fmt.bit m i))) ∧ s.frame t [.legacy])

/-! ### The fader law of the legacy partition (R462) -/

/-- R462: law(0) is 0; for a code n of 1…1023 it is 2^20 × 10^((n − 895) / 160) + 0.5 rounded down, which is (n − 895) / 8 dB above 2^20;
the values of the codes 895 and 1023, and the level of code 1; no code falls on a rounding tie. -/
def Obligations.LegacyFaderLaw : Prop :=
  legLaw 0 = 0 ∧
  (∀ n : Nat, 1 ≤ n → n ≤ 1023 →
    let x : ℝ := 2 ^ 20 * (10 : ℝ) ^ (((n : ℝ) - 895) / 160)
    legLaw n = ⌊x + 1 / 2⌋ ∧ 20 * Real.logb 10 (x / 2 ^ 20) = ((n : ℝ) - 895) / 8 ∧ (∀ k : ℤ, x + 1 / 2 ≠ k)) ∧
  legLaw 895 = 0x100000 ∧ legLaw 1023 = 0x64F403 ∧ (((1 : ℝ) - 895) / 8 = -111.75) ∧ (((895 : ℝ) - 895) / 8 = 0) ∧
  (((1023 : ℝ) - 895) / 8 = 16)

/-! ### Steps, reset, events, memories -/

/-- A step takes the command at the front of the queue and answers what it does to the state with the queue's rest. -/
def Obligations.StepRunsTheFrontCommand : Prop :=
  ∀ (s : State) (c : Instr) (rest : List Instr), s.pending = c :: rest → step s = exec c { s with pending := rest }

/-- The model's choice (log entry 6): a step on an empty queue is one engine sample. In OFF nothing moves; else the MCC counts unless it is
held, and with no forwarded change waiting, no link up, no removed plug and no order of the boot that follows by itself the step changes the
MCC, the clock unit, the PHC and the uptime only, beside the count of free values where a twin peer is followed. With links up the ports
send too (R254), where a removed plug's fade is over, what R234 takes away goes, and a boot at stage 0x01, 0x05 or 0x06 goes on (R348). -/
def Obligations.EmptyQueuePassesASample : Prop :=
  ∀ s : State, s.pending = [] → s.twin.forward = [] →
    let goesOn := s.dev = .boot ∧ s.boot.stage ∈ [0x01, 0x05, 0x06]
    (¬ goesOn → s.netOn = false ∨ s.net.link = [] → s.ports.hsp.leaving = none → ∃ t, step s = .next t ∧ (s.dev = .off → t = s) ∧
      (s.dev ≠ .off → t.mcc = if s.power.holdMcc then s.mcc else s.mcc + 1) ∧
      (s.cku.twinFollow = false → t.draws = s.draws) ∧ s.frame t [.mcc, .cku, .net, .power, .draws]) ∧
    (¬ goesOn → ∃ t, step s = .next t ∧ t.mcc = (if s.dev = .off ∨ s.power.holdMcc = true then s.mcc else s.mcc + 1) ∧
      (∀ n, s.ports.hsp.leaving = some n → n ≤ t.mcc → t.ports.hsp.leaving = none ∧ t.ports.hsp.type = 0) ∧
      s.frame t [.mcc, .cku, .net, .power, .vcp, .ports, .audio, .free, .draws, .ev, .sessions, .twin]) ∧
    (goesOn → ∃ t, step s = .next t ∧ t.mcc = (if s.power.holdMcc then s.mcc else s.mcc + 1) ∧ t.boot.stage = s.bootReady.boot.stage)

/-- The state right after reset, as the model has it (log entry 1): RESET with the MCC held at 0, every committed parameter at its default,
every matrix node off, no session, no event, no stage set, the queue empty; every memory is in the canonical form. -/
def Obligations.ResetStateHolds : Prop :=
  let s := State.reset
  s.dev = .reset ∧ s.mcc = 0 ∧ s.power.holdMcc = true ∧ s.ev.stat = 0 ∧ s.vcp.sessions = [] ∧ s.scene.sets = [] ∧ s.pending = [] ∧
  (∀ h f, hCls h ≠ 3 → hCls h ≠ 4 → s.field h = some f → s.val h = f.dfltWord) ∧ (∀ k, (s.node k).cur = 0 ∧ (s.node k).tgt = 0) ∧ s.memWf = true

/-- R329–R334: an occurrence sets its bit of EV_STAT and clears none; it enters the queue of every session whose mask and partitions admit
it and that has room and no undelivered record of its kind and object, with the event, the object and the value; the other sessions, and
every other part of the state, stay. -/
def Obligations.OccurrencesReachTheSessions : Prop :=
  ∀ (s : State) (ev : Ev) (part obj val : Nat),
    let t := s.raise ev part obj val
    Fmt.bit t.ev.stat ev.id = true ∧ (∀ j, Fmt.bit s.ev.stat j = true → Fmt.bit t.ev.stat j = true) ∧
    (∀ j, j ≠ ev.id → j ≠ Ev.queueOverflow.id → Fmt.bit t.ev.stat j = Fmt.bit s.ev.stat j) ∧
    t.vcp.sessions.length = s.vcp.sessions.length ∧
    (∀ (i : Nat) (x y : Session), s.vcp.sessions[i]? = some x → t.vcp.sessions[i]? = some y →
      (Fmt.bit x.evMask ev.id = false ∨ x.receives part = false → y = x) ∧
      (Fmt.bit x.evMask ev.id = true → x.receives part = true → x.full = false → x.queue.length < 1023 →
        (∀ k ∈ x.queue, k.delivered = false → k.id = ev.id → k.arg % 65536 ≠ obj % 65536) →
        ∃ k : QRec, y.queue = x.queue ++ [k] ∧ k.seq = x.nextEv ∧ k.id = ev.id ∧ k.count = 1 ∧
          k.arg = val % 65536 * 65536 + obj % 65536 ∧ k.delivered = false)) ∧
    s.frame t [.ev, .sessions]

/-- Every step from a state whose memories (MSTORE, the mailbox windows, the pool and its staging port, DRAM, both flash slots) are in the
canonical form answers a next state in which they are: addresses rise, and no byte that reads as zero is listed. -/
def Obligations.EveryStepKeepsMemoriesCanonical : Prop :=
  ∀ s : State, s.memWf = true → s.stepsSafely

/-- Every command completes in every state: a request that the spec refuses is answered with a status (R321), an illegal instruction is
reported (R174), and an event that the state does not allow leaves it as it is, which is the model's choice (log entry 138). No fault and no
refusal is ever answered. -/
def Obligations.NoCommandStops : Prop := ∀ (i : Instr) (s : State), ∃ t, exec i s = .next t
end

