-- ==== Sys2Proof/Laws/Cells.lean ====
section
/-! SUPPORT. Sys2Proof/Laws/Cells.lean: the basic laws of the sparse stores: a read after a write, and
that every operation keeps the canonical form. -/
namespace Sys2Proof.Cells

variable {α : Type}

@[simp] theorem get_nil (d : α) (k : Nat) : get d ([] : Cells α) k = d := rfl

/-- Every address listed lies above the bound, and the addresses rise. -/
theorem rising_some_iff (l : Cells α) (b : Nat) :
    rising (some b) l = true ↔ (∀ c ∈ l, b < c.1) ∧ rising none l = true := by
  induction l generalizing b with
  | nil => simp [rising]
  | cons c l ih =>
    obtain ⟨a, v⟩ := c
    simp only [rising, Bool.and_eq_true, decide_eq_true_eq, List.mem_cons, forall_eq_or_imp]
    rw [ih a]
    constructor
    · rintro ⟨h, h1, h2⟩; exact ⟨⟨h, fun c hc => lt_trans h (h1 c hc)⟩, h1, h2⟩
    · rintro ⟨⟨h, _⟩, h1, h2⟩; exact ⟨h, h1, h2⟩

theorem get_of_lt (d : α) (l : Cells α) (k : Nat) (h : ∀ c ∈ l, k < c.1) : get d l k = d := by
  induction l with
  | nil => rfl
  | cons c l ih =>
    obtain ⟨a, v⟩ := c
    have h1 := h (a, v) (by simp)
    rw [get, if_neg (by simp at h1; omega)]
    exact ih fun c hc => h c (by simp [hc])

theorem get_ins_same (d : α) (l : Cells α) (k : Nat) (v : α) : get d (ins l k v) k = v := by
  induction l with
  | nil => simp [ins, get]
  | cons c l ih =>
    obtain ⟨a, w⟩ := c
    simp only [ins]
    split
    · simp [get]
    · split
      · simp_all [get]
      · rw [get, if_neg (by assumption), ih]

theorem get_ins_other (d : α) (l : Cells α) (k j : Nat) (v : α) (h : j ≠ k) :
    get d (ins l k v) j = get d l j := by
  induction l with
  | nil => simp [ins, get, Ne.symm h]
  | cons c l ih =>
    obtain ⟨a, w⟩ := c
    simp only [ins]
    split
    · rw [get, if_neg (Ne.symm h)]
    · split
      · rename_i h1 h2; subst h2; simp [get, Ne.symm h]
      · simp [get, ih]

theorem get_del_same (d : α) (l : Cells α) (k : Nat) : get d (del l k) k = d := by
  induction l with
  | nil => rfl
  | cons c l ih =>
    obtain ⟨a, w⟩ := c
    simp only [del]
    split
    · exact ih
    · rw [get, if_neg (by assumption)]; exact ih

theorem get_del_other (d : α) (l : Cells α) (k j : Nat) (h : j ≠ k) : get d (del l k) j = get d l j := by
  induction l with
  | nil => rfl
  | cons c l ih =>
    obtain ⟨a, w⟩ := c
    simp only [del]
    split
    · rename_i h2; subst h2; simp [get, Ne.symm h, ih]
    · simp [get, ih]

variable [DecidableEq α]

/-- A read of the address written gives the value written. -/
@[simp] theorem get_put_same (d : α) (l : Cells α) (k : Nat) (v : α) : get d (put d l k v) k = v := by
  simp only [put]
  split
  · rename_i h2; rw [get_del_same d l k, h2]
  · exact get_ins_same d l k v

/-- A write leaves every other address as it was. -/
theorem get_put_other (d : α) (l : Cells α) (k j : Nat) (v : α) (h : j ≠ k) :
    get d (put d l k v) j = get d l j := by
  simp only [put]
  split
  · exact get_del_other d l k j h
  · exact get_ins_other d l k j v h

omit [DecidableEq α] in
theorem mem_del (l : Cells α) (k : Nat) (c : Nat × α) (h : c ∈ del l k) : c ∈ l := by
  induction l with
  | nil => simp [del] at h
  | cons e l ih =>
    obtain ⟨a, w⟩ := e
    simp only [del] at h
    split at h
    · exact List.mem_cons_of_mem _ (ih h)
    · rcases List.mem_cons.1 h with h | h
      · exact h ▸ List.mem_cons_self
      · exact List.mem_cons_of_mem _ (ih h)

omit [DecidableEq α] in
theorem mem_ins (l : Cells α) (k : Nat) (v : α) (c : Nat × α) (h : c ∈ ins l k v) : c = (k, v) ∨ c ∈ l := by
  induction l with
  | nil => simp_all [ins]
  | cons e l ih =>
    obtain ⟨a, w⟩ := e
    simp only [ins] at h
    split at h
    · simpa using h
    · split at h
      · rename_i h2; subst h2; rcases List.mem_cons.1 h with h | h <;> simp_all
      · rcases List.mem_cons.1 h with h | h
        · simp_all
        · rcases ih h with h | h <;> simp_all

theorem rising_del (l : Cells α) (k : Nat) (h : rising none l = true) : rising none (del l k) = true := by
  induction l with
  | nil => simpa [del] using h
  | cons e l ih =>
    obtain ⟨a, w⟩ := e
    have h' := (rising_some_iff l a).1 h
    simp only [del]
    split
    · exact ih h'.2
    · exact (rising_some_iff _ a).2 ⟨fun c hc => h'.1 c (mem_del l k c hc), ih h'.2⟩

theorem rising_ins (l : Cells α) (k : Nat) (v : α) (h : rising none l = true) :
    rising none (ins l k v) = true := by
  induction l with
  | nil => simp [ins, rising]
  | cons e l ih =>
    obtain ⟨a, w⟩ := e
    have h' := (rising_some_iff l a).1 h
    simp only [ins]
    split
    · rename_i hk
      refine (rising_some_iff _ k).2 ⟨?_, h⟩
      intro c hc
      rcases List.mem_cons.1 hc with hc | hc
      · subst hc; exact hk
      · exact lt_trans hk (h'.1 c hc)
    · split
      · exact (rising_some_iff _ a).2 ⟨h'.1, h'.2⟩
      · refine (rising_some_iff _ a).2 ⟨?_, ih h'.2⟩
        intro c hc
        rcases mem_ins l k v c hc with hc | hc
        · subst hc; simp; omega
        · exact h'.1 c hc

/-- A write keeps the canonical form. -/
theorem wf_put (d : α) (l : Cells α) (k : Nat) (v : α) (h : wf d l = true) : wf d (put d l k v) = true := by
  simp only [wf, Bool.and_eq_true, List.all_eq_true, decide_eq_true_eq] at h ⊢
  simp only [put]
  split
  · exact ⟨rising_del l k h.1, fun c hc => h.2 c (mem_del l k c hc)⟩
  · rename_i h2
    refine ⟨rising_ins l k v h.1, fun c hc => ?_⟩
    rcases mem_ins l k v c hc with hc | hc
    · subst hc; exact h2
    · exact h.2 c hc

/-- A run of writes keeps the canonical form. -/
theorem wf_putAll (d : α) (l : Cells α) (k : Nat) (vs : List α) (h : wf d l = true) :
    wf d (putAll d l k vs) = true := by
  induction vs generalizing l k with
  | nil => exact h
  | cons v vs ih => exact ih _ _ (wf_put d l k v h)

/-- Updating one entry keeps the canonical form. -/
theorem wf_upd (d : α) (l : Cells α) (k : Nat) (f : α → α) (h : wf d l = true) :
    wf d (upd d l k f) = true := wf_put d l k _ h

/-- A read after a write. -/
theorem get_put (d : α) (l : Cells α) (k j : Nat) (v : α) : get d (put d l k v) j = if j = k then v else get d l j := by
  by_cases h : j = k
  · subst h; simp
  · rw [get_put_other _ _ _ _ _ h, if_neg h]

/-- A read after an entry was updated. -/
theorem get_upd (d : α) (l : Cells α) (k j : Nat) (f : α → α) :
    get d (upd d l k f) j = if j = k then f (get d l k) else get d l j := get_put d l k j _

end Sys2Proof.Cells
end

