-- ==== Sys2Proof/Laws/Memory.lean ====
section
/-! SUPPORT. Sys2Proof/Laws/Memory.lean: what the operations on an addressed memory do: a byte read after a write, and that each
operation keeps the canonical form. -/
namespace Sys2Proof.Memory

@[simp] theorem wf_nil : wf [] = true := rfl

/-- A byte that nothing has written reads as zero. -/
@[simp] theorem read_nil (a : Nat) : read [] a = 0 := rfl

/-- The byte written is the byte read. -/
theorem read_write_same (m : Memory) (a v : Nat) : (m.write a v).read a = v % 256 := by
  simp [read, write]

/-- A write leaves every other byte as it was. -/
theorem read_write_other (m : Memory) (a b v : Nat) (h : b ≠ a) : (m.write a v).read b = m.read b := by
  simp [read, write, Cells.get_put_other 0#8 m a b _ h]

theorem wf_write (m : Memory) (a v : Nat) (h : m.wf = true) : (m.write a v).wf = true := Cells.wf_put 0#8 m a _ h

theorem wf_writeAll (m : Memory) (a : Nat) (vs : List Nat) (h : m.wf = true) : (m.writeAll a vs).wf = true :=
  Cells.wf_putAll 0#8 m a _ h

/-- A run of writes reaches only the bytes from its address on. -/
theorem read_writeAll_other (m : Memory) (a b : Nat) (vs : List Nat) (h : b < a ∨ a + vs.length ≤ b) :
    (m.writeAll a vs).read b = m.read b := by
  have run : ∀ (vs : List Byte) (m : Memory) (a : Nat), (b < a ∨ a + vs.length ≤ b) →
      Cells.get 0#8 (Cells.putAll 0#8 m a vs) b = Cells.get 0#8 m b := by
    intro vs
    induction vs with
    | nil => intro m a _; rfl
    | cons v vs ih =>
      intro m a h
      simp only [List.length_cons] at h
      rw [Cells.putAll, ih _ _ (by omega), Cells.get_put_other _ _ _ _ _ (by omega)]
  simp only [read, writeAll]
  rw [run _ m a (by simpa using h)]

/-- A run of writes puts its i-th byte at the i-th address. -/
theorem read_writeAll_same (m : Memory) (a i : Nat) (vs : List Nat) (hi : i < vs.length) :
    (m.writeAll a vs).read (a + i) = vs[i] % 256 := by
  induction vs generalizing m a i with
  | nil => simp at hi
  | cons v vs ih =>
    show (Memory.writeAll (m.write a v) (a + 1) vs).read (a + i) = _
    cases i with
    | zero => rw [read_writeAll_other _ _ _ _ (.inl (by omega))]; exact read_write_same m a v
    | succ i =>
      have := ih (m.write a v) (a + 1) i (by simpa using hi)
      rw [show a + (i + 1) = a + 1 + i by omega, this]; rfl

/-- A cleared run lists nothing new. -/
theorem wf_clear (m : Memory) (a n : Nat) (h : m.wf = true) : (m.clear a n).wf = true := by
  have ris : ∀ l : Cells Byte, Cells.rising none l = true →
      Cells.rising none (l.filter (fun c => decide (c.1 < a) || decide (a + n ≤ c.1))) = true := by
    intro l
    induction l with
    | nil => exact id
    | cons c l ih =>
      obtain ⟨k, v⟩ := c
      intro hr
      obtain ⟨h1, h2⟩ := (Cells.rising_some_iff l k).1 hr
      by_cases hc : (decide (k < a) || decide (a + n ≤ k)) = true
      · rw [List.filter_cons_of_pos (by exact hc)]
        exact (Cells.rising_some_iff _ k).2 ⟨fun c hm => h1 c (List.mem_filter.1 hm).1, ih h2⟩
      · rw [List.filter_cons_of_neg (by exact hc)]; exact ih h2
  simp only [wf, Cells.wf, Bool.and_eq_true, List.all_eq_true] at h ⊢
  exact ⟨ris m h.1, fun c hc => h.2 c (List.mem_filter.1 hc).1⟩

end Sys2Proof.Memory

namespace Sys2Proof.Machine

/-- A write beat keeps the canonical form. -/
theorem wf_writeBeat (m : Memory) (a w en : Nat) (h : m.wf = true) : (writeBeat m a w en).wf = true := by
  have run : ∀ (l : List Nat) (m : Memory), m.wf = true →
      (l.foldl (fun m i => if Fmt.bit en i then m.write (a + i) (w / 256 ^ i % 256) else m) m).wf = true := by
    intro l
    induction l with
    | nil => intro m h; exact h
    | cons i l ih =>
      intro m h
      rw [List.foldl_cons]
      apply ih
      split
      · exact Memory.wf_write m _ _ h
      · exact h
  exact run _ m h

/-- A write burst keeps the canonical form. -/
theorem wf_writeBurst (m : Memory) (a : Nat) (ws ens : List Nat) (h : m.wf = true) : (writeBurst m a ws ens).wf = true := by
  induction ws generalizing m a ens with
  | nil => exact h
  | cons w ws ih => exact ih _ _ _ (wf_writeBeat m a w _ h)

end Sys2Proof.Machine
end

