-- ==== Sys2Proof/Laws/Mere.lean ====
section
/-! SUPPORT. Sys2Proof/Laws/Mere.lean: node records and groups read back after the operations that step them. -/
namespace Sys2Proof.Cells

/-- In a canonical store each address is listed once. -/
theorem nodup_keys {α : Type} (l : Cells α) (h : rising none l = true) : (l.map (·.1)).Nodup := by
  induction l with
  | nil => simp
  | cons c l ih =>
    obtain ⟨a, v⟩ := c
    obtain ⟨h1, h2⟩ := (rising_some_iff l a).1 h
    rw [List.map_cons, List.nodup_cons]
    refine ⟨fun hm => ?_, ih h2⟩
    obtain ⟨c, hc, e⟩ := List.mem_map.1 hm
    have := h1 c hc
    omega

/-- In a canonical store an entry is listed exactly where it is read. -/
theorem mem_iff_get {α : Type} [DecidableEq α] (d : α) (l : Cells α) (h : wf d l = true) (k : Nat) (v : α) :
    (k, v) ∈ l ↔ get d l k = v ∧ v ≠ d := by
  simp only [wf, Bool.and_eq_true, List.all_eq_true, decide_eq_true_eq] at h
  obtain ⟨hr, hd⟩ := h
  induction l with
  | nil => simp only [List.not_mem_nil, get_nil, false_iff]; rintro ⟨h1, h2⟩; exact h2 h1.symm
  | cons c l ih =>
    obtain ⟨a, w⟩ := c
    obtain ⟨h1, h2⟩ := (rising_some_iff l a).1 hr
    by_cases e : a = k
    · subst e
      have hn : ∀ u, (a, u) ∉ l := fun u hm => absurd (h1 _ hm) (by simp)
      have hw : w ≠ d := hd (a, w) (by simp)
      simp only [List.mem_cons, Prod.mk.injEq, true_and, hn, or_false, get, if_true]
      constructor
      · rintro rfl; exact ⟨rfl, hw⟩
      · rintro ⟨rfl, _⟩; rfl
    · have : ((k, v) ∈ (a, w) :: l) ↔ (k, v) ∈ l := by
        simp only [List.mem_cons, Prod.mk.injEq]
        constructor
        · rintro (⟨h, _⟩ | h)
          · exact absurd h.symm e
          · exact h
        · exact Or.inr
      rw [this, get, if_neg e]
      exact ih h2 (fun c hc => hd c (List.mem_cons_of_mem _ hc))

end Sys2Proof.Cells

namespace Sys2Proof.Machine

@[simp] theorem StepG.setGroup_fields (m : StepG) (g : Nat) (x : Group) :
    (m.setGroup g x).nodes = m.nodes ∧ (m.setGroup g x).groups = Cells.put Group.idle m.groups g x := ⟨rfl, rfl⟩

@[simp] theorem StepG.setNode_fields (e : StepEnv) (m : StepG) (k : Nat) (x : Node) :
    (m.setNode e k x).groups = m.groups ∧ (m.setNode e k x).nodes = Cells.put e.zero m.nodes k x := ⟨rfl, rfl⟩

/-- A group read after one was written. -/
theorem StepG.group_setGroup (m : StepG) (g j : Nat) (x : Group) : (m.setGroup g x).group j = if j = g then x else m.group j := by
  simp [StepG.group, Cells.get_put]

@[simp] theorem StepG.mapNodes_groups (e : StepEnv) (m : StepG) (ks : List Nat) (f : Node → Node) : (m.mapNodes e ks f).groups = m.groups := by
  unfold StepG.mapNodes
  induction ks generalizing m with
  | nil => rfl
  | cons k ks ih => rw [List.foldl_cons, ih]; rfl

/-- A node read after a change of every node of a list without repeats. -/
theorem StepG.get_mapNodes (e : StepEnv) (m : StepG) (ks : List Nat) (f : Node → Node) (hk : ks.Nodup) (j : Nat) :
    Cells.get e.zero (m.mapNodes e ks f).nodes j =
      if j ∈ ks then f (Cells.get e.zero m.nodes j) else Cells.get e.zero m.nodes j := by
  unfold StepG.mapNodes
  induction ks generalizing m with
  | nil => simp
  | cons k ks ih =>
    obtain ⟨h1, h2⟩ := List.nodup_cons.1 hk
    rw [List.foldl_cons, ih _ h2, (StepG.setNode_fields e m k _).2, Cells.get_put]
    by_cases e1 : j = k
    · subst e1; simp [h1]
    · simp [e1]

/-- A change of nodes keeps the node memory canonical. -/
theorem StepG.wf_mapNodes (e : StepEnv) (m : StepG) (ks : List Nat) (f : Node → Node) (h : Cells.wf e.zero m.nodes = true) :
    Cells.wf e.zero (m.mapNodes e ks f).nodes = true := by
  unfold StepG.mapNodes
  induction ks generalizing m with
  | nil => exact h
  | cons k ks ih => rw [List.foldl_cons]; exact ih _ (Cells.wf_put _ _ _ _ h)

/-- The nodes of a group are listed once each. -/
theorem StepG.nodup_inGroup (e : StepEnv) (m : StepG) (g : Nat) (p : Node → Bool) (h : Cells.wf e.zero m.nodes = true) :
    (m.inGroup e g p).Nodup := by
  simp only [Cells.wf, Bool.and_eq_true] at h
  exact (List.filter_sublist.map _).nodup (Cells.nodup_keys m.nodes h.1)

/-- Which nodes a group lists, for a test that an unlisted node fails. -/
theorem StepG.mem_inGroup (e : StepEnv) (m : StepG) (g : Nat) (p : Node → Bool) (h : Cells.wf e.zero m.nodes = true)
    (hp : p e.zero = false) (k : Nat) :
    k ∈ m.inGroup e g p ↔ e.gk k (Cells.get e.zero m.nodes k) = g ∧ p (Cells.get e.zero m.nodes k) = true := by
  simp only [StepG.inGroup, List.mem_map, List.mem_filter, Bool.and_eq_true, decide_eq_true_eq, Prod.exists]
  constructor
  · rintro ⟨a, x, ⟨hm, h1, h2⟩, rfl⟩
    have := ((Cells.mem_iff_get e.zero m.nodes h a x).1 hm).1
    rw [this]; exact ⟨h1, h2⟩
  · rintro ⟨h1, h2⟩
    refine ⟨k, _, ⟨(Cells.mem_iff_get e.zero m.nodes h k _).2 ⟨rfl, ?_⟩, h1, h2⟩, rfl⟩
    intro h3; rw [h3, hp] at h2; cases h2

@[simp] theorem StepG.tidy_nodes (e : StepEnv) (m : StepG) (g : Nat) : (m.tidy e g).nodes = m.nodes := rfl

end Sys2Proof.Machine
end

