-- ==== Sys2Proof/Laws/PerInstr.lean ====
section
/-! SUPPORT. Sys2Proof/Laws/PerInstr.lean: the family Words, one lemma per constructor of Instr: what a well-formed command encodes to
(R173) is one or two
words of 32 bits on an engine that exists; only Tarn instructions encode to anything. -/
namespace Sys2Proof.Laws

set_option Elab.async false

open Sys2Proof.Machine

/-- One or two words of 32 bits. -/
def Words.fit (ws : List Nat) : Prop := (ws.length = 1 ∨ ws.length = 2) ∧ ∀ w ∈ ws, w < 2 ^ 32

/-- The words of a well-formed command fit, on an engine that exists. -/
def Words.Statement (i : Instr) : Prop :=
  i.wf = true → ∀ e ws, Tarn.encode i = some (e, ws) → e < 17 ∧ Words.fit ws

theorem Words.fit_one {w : Nat} (h : w < 2 ^ 32) : Words.fit [w] := by simpa [Words.fit] using h

theorem Words.fit_two {w v : Nat} (h : w < 2 ^ 32) (k : v < 2 ^ 32) : Words.fit [w, v] := by simpa [Words.fit] using ⟨h, k⟩

theorem Words.b2n_le (b : Bool) : Fmt.b2n b ≤ 1 := by cases b <;> decide

theorem Words.encMove_lt {m : Option PMove} (h : okOpt okMove m = true) : Tarn.encMove m < 2 ^ 12 := by
  cases m with
  | none => decide
  | some m =>
    simp only [okOpt, okMove, below, Bool.and_eq_true, decide_eq_true_eq] at h
    have := Words.b2n_le m.store
    simp only [Tarn.encMove]
    omega

theorem Words.encAlu_fit {op : Nat} {f : AluF} (ho : op < 32) (h : okAlu f = true) : Words.fit (Tarn.encAlu op f) := by
  simp only [okAlu, below, Bool.and_eq_true, decide_eq_true_eq] at h
  obtain ⟨⟨⟨⟨h1, h2⟩, h3⟩, h4⟩, h5⟩ := h
  unfold Tarn.encAlu
  split
  · exact Words.fit_one (by omega)
  · rename_i mv e
    rw [e] at h5
    simp only [okOpt, okMoves, Bool.and_eq_true] at h5
    have hx := Words.encMove_lt h5.1.1
    have hy := Words.encMove_lt h5.1.2
    exact Words.fit_two (by omega) (by omega)

theorem Words.encMac_fit {op : Nat} {f : MacF} (ho : op < 4) (h : okMac f = true) : Words.fit (Tarn.encMac op f) := by
  simp only [okMac, below, Bool.and_eq_true, decide_eq_true_eq] at h
  obtain ⟨⟨h1, h2⟩, h3⟩ := h
  have hd : f.dx < 8 ∧ f.dy < 8 := by
    split at h2 <;> simp only [Bool.and_eq_true, decide_eq_true_eq] at h2 <;> omega
  have hq := Words.b2n_le f.quad
  unfold Tarn.encMac
  split
  · have : (if f.quad then 3 else 2) ≤ 3 := by split <;> omega
    exact Words.fit_one (by omega)
  · rename_i mv e
    rw [e] at h3
    simp only [okOpt, okMoves, Bool.and_eq_true] at h3
    have hx := Words.encMove_lt h3.1.1
    have hy := Words.encMove_lt h3.1.2
    exact Words.fit_two (by omega) (by omega)

theorem Words.of {i : Instr} {e : Nat} {ws : List Nat} (h : Tarn.encode i = some (e, ws)) (k : i.wf = true → e < 17 ∧ Words.fit ws) :
    Words.Statement i := by
  intro w e' ws' h'
  rw [h] at h'
  cases h'
  exact k w

theorem Words.none {i : Instr} (h : Tarn.encode i = .none) : Words.Statement i := by
  intro _ e ws h'
  rw [h] at h'
  cases h'

theorem Words.alu {i : Instr} {e op : Nat} {f : AluF} (h : Tarn.encode i = some (e, Tarn.encAlu op f)) (ho : op < 32)
    (k : i.wf = (below 17 e && okAlu f)) : Words.Statement i :=
  Words.of h (fun w => by
    rw [k, Bool.and_eq_true] at w
    exact ⟨by simpa [below] using w.1, Words.encAlu_fit ho w.2⟩)

theorem Words.mulacc {i : Instr} {e op : Nat} {f : MacF} (h : Tarn.encode i = some (e, Tarn.encMac op f)) (ho : op < 4)
    (k : i.wf = (below 17 e && okMac f)) : Words.Statement i :=
  Words.of h (fun w => by
    rw [k, Bool.and_eq_true] at w
    exact ⟨by simpa [below] using w.1, Words.encMac_fit ho w.2⟩)

theorem Words.powerOnStandbySet : Words.Statement .powerOnStandbySet := Words.none rfl

theorem Words.mainRailsInRange : Words.Statement .mainRailsInRange := Words.none rfl

theorem Words.mainRailOutOfRange : Words.Statement .mainRailOutOfRange := Words.none rfl

theorem Words.standbySetLost : Words.Statement .standbySetLost := Words.none rfl

theorem Words.resetNLow : Words.Statement .resetNLow := Words.none rfl

theorem Words.resetNRise : ∀ a, Words.Statement (.resetNRise a) := fun _ => Words.none rfl

theorem Words.imageHeaderRead : ∀ a, Words.Statement (.imageHeaderRead a) := fun _ => Words.none rfl

theorem Words.imageSectionsRead : ∀ a, Words.Statement (.imageSectionsRead a) := fun _ => Words.none rfl

theorem Words.dramTrainingDone : ∀ a, Words.Statement (.dramTrainingDone a) := fun _ => Words.none rfl

theorem Words.pcieImageChunk : ∀ a, Words.Statement (.pcieImageChunk a) := fun _ => Words.none rfl

theorem Words.twinImageReceived : ∀ a, Words.Statement (.twinImageReceived a) := fun _ => Words.none rfl

theorem Words.twinImageSend : Words.Statement .twinImageSend := Words.none rfl

theorem Words.startSceneCommit : Words.Statement .startSceneCommit := Words.none rfl

theorem Words.enterQuiet : Words.Statement .enterQuiet := Words.none rfl

theorem Words.twinFirstRoleTimeout : Words.Statement .twinFirstRoleTimeout := Words.none rfl

theorem Words.enterRun : Words.Statement .enterRun := Words.none rfl

theorem Words.runTimeout : Words.Statement .runTimeout := Words.none rfl

theorem Words.stbyNLowHeld : Words.Statement .stbyNLowHeld := Words.none rfl

theorem Words.enterStandby : ∀ a, Words.Statement (.enterStandby a) := fun _ => Words.none rfl

theorem Words.stbyNHighWake : ∀ a, Words.Statement (.stbyNHighWake a) := fun _ => Words.none rfl

theorem Words.profileReconfigDone : Words.Statement .profileReconfigDone := Words.none rfl

theorem Words.frameTick : Words.Statement .frameTick := Words.none rfl

theorem Words.patchRevert : ∀ a, Words.Statement (.patchRevert a) := fun _ => Words.none rfl

theorem Words.commitApplied : ∀ a, Words.Statement (.commitApplied a) := fun _ => Words.none rfl

theorem Words.pdSwitchDone : ∀ a, Words.Statement (.pdSwitchDone a) := fun _ => Words.none rfl

theorem Words.zcStep : ∀ a b, Words.Statement (.zcStep a b) := fun _ _ => Words.none rfl

theorem Words.zcTimeout : ∀ a b, Words.Statement (.zcTimeout a b) := fun _ _ => Words.none rfl

theorem Words.zcRampEnd : ∀ a b, Words.Statement (.zcRampEnd a b) := fun _ _ => Words.none rfl

theorem Words.xfadeEnd : ∀ a b, Words.Statement (.xfadeEnd a b) := fun _ _ => Words.none rfl

theorem Words.nodeGroupZeroCrossing : ∀ a b, Words.Statement (.nodeGroupZeroCrossing a b) := fun _ _ => Words.none rfl

theorem Words.nodeGroupTimeout : ∀ a b, Words.Statement (.nodeGroupTimeout a b) := fun _ _ => Words.none rfl

theorem Words.nodeRampEnd : ∀ a b, Words.Statement (.nodeRampEnd a b) := fun _ _ => Words.none rfl

theorem Words.tapHandoverSwitch : ∀ a b c, Words.Statement (.tapHandoverSwitch a b c) := fun _ _ _ => Words.none rfl

theorem Words.mereSegmentDetection : ∀ a b, Words.Statement (.mereSegmentDetection a b) := fun _ _ => Words.none rfl

theorem Words.nodeCorrected : ∀ a b, Words.Statement (.nodeCorrected a b) := fun _ _ => Words.none rfl

theorem Words.nodeRestored : ∀ a b c, Words.Statement (.nodeRestored a b c) := fun _ _ _ => Words.none rfl

theorem Words.mereScrubPass : ∀ a b, Words.Statement (.mereScrubPass a b) := fun _ _ => Words.none rfl

theorem Words.checkDone : Words.Statement .checkDone := Words.none rfl

theorem Words.planeReady : Words.Statement .planeReady := Words.none rfl

theorem Words.commitScheduled : ∀ a, Words.Statement (.commitScheduled a) := fun _ => Words.none rfl

theorem Words.cfBankWrite : ∀ a, Words.Statement (.cfBankWrite a) := fun _ => Words.none rfl

theorem Words.cueFired : ∀ a, Words.Statement (.cueFired a) := fun _ => Words.none rfl

theorem Words.sceneSaveDone : Words.Statement .sceneSaveDone := Words.none rfl

theorem Words.sceneReadDone : ∀ a, Words.Statement (.sceneReadDone a) := fun _ => Words.none rfl

theorem Words.springPeriod : ∀ a, Words.Statement (.springPeriod a) := fun _ => Words.none rfl

theorem Words.springSourceHandover : ∀ a b, Words.Statement (.springSourceHandover a b) := fun _ _ => Words.none rfl

theorem Words.springOutputHandover : ∀ a b, Words.Statement (.springOutputHandover a b) := fun _ _ => Words.none rfl

theorem Words.springSourceClockLoss : ∀ a, Words.Statement (.springSourceClockLoss a) := fun _ => Words.none rfl

theorem Words.springOutputClockReturn : ∀ a, Words.Statement (.springOutputClockReturn a) := fun _ => Words.none rfl

theorem Words.springUnitRetire : ∀ a, Words.Statement (.springUnitRetire a) := fun _ => Words.none rfl

theorem Words.dispatchInterrupt : ∀ a, Words.Statement (.dispatchInterrupt a) := fun _ => Words.none rfl

theorem Words.dispatchReturn : ∀ a, Words.Statement (.dispatchReturn a) := fun _ => Words.none rfl

theorem Words.serviceInterrupt : ∀ a b, Words.Statement (.serviceInterrupt a b) := fun _ _ => Words.none rfl

theorem Words.taskOverrun : ∀ a, Words.Statement (.taskOverrun a) := fun _ => Words.none rfl

theorem Words.illegalInstruction : ∀ a, Words.Statement (.illegalInstruction a) := fun _ => Words.none rfl

theorem Words.nop : ∀ a, Words.Statement (.nop a) := fun a =>
  Words.of rfl (fun w => by
    simp only [Instr.wf, below, Bool.and_eq_true, decide_eq_true_eq] at w
    exact ⟨by omega, Words.fit_one (by decide)⟩)

theorem Words.add : ∀ e f, Words.Statement (.add e f) := fun _ _ =>
  Words.alu rfl (by decide) rfl

theorem Words.sub : ∀ e f, Words.Statement (.sub e f) := fun _ _ =>
  Words.alu rfl (by decide) rfl

theorem Words.neg : ∀ e f, Words.Statement (.neg e f) := fun _ _ =>
  Words.alu rfl (by decide) rfl

theorem Words.abs : ∀ e f, Words.Statement (.abs e f) := fun _ _ =>
  Words.alu rfl (by decide) rfl

theorem Words.andOp : ∀ e f, Words.Statement (.andOp e f) := fun _ _ =>
  Words.alu rfl (by decide) rfl

theorem Words.orOp : ∀ e f, Words.Statement (.orOp e f) := fun _ _ =>
  Words.alu rfl (by decide) rfl

theorem Words.xorOp : ∀ e f, Words.Statement (.xorOp e f) := fun _ _ =>
  Words.alu rfl (by decide) rfl

theorem Words.notOp : ∀ e f, Words.Statement (.notOp e f) := fun _ _ =>
  Words.alu rfl (by decide) rfl

theorem Words.asl : ∀ e f, Words.Statement (.asl e f) := fun _ _ =>
  Words.alu rfl (by decide) rfl

theorem Words.asr : ∀ e f, Words.Statement (.asr e f) := fun _ _ =>
  Words.alu rfl (by decide) rfl

theorem Words.lsr : ∀ e f, Words.Statement (.lsr e f) := fun _ _ =>
  Words.alu rfl (by decide) rfl

theorem Words.minOp : ∀ e f, Words.Statement (.minOp e f) := fun _ _ =>
  Words.alu rfl (by decide) rfl

theorem Words.maxOp : ∀ e f, Words.Statement (.maxOp e f) := fun _ _ =>
  Words.alu rfl (by decide) rfl

theorem Words.cmp : ∀ e f, Words.Statement (.cmp e f) := fun _ _ =>
  Words.alu rfl (by decide) rfl

theorem Words.tst : ∀ e f, Words.Statement (.tst e f) := fun _ _ =>
  Words.alu rfl (by decide) rfl

theorem Words.clr : ∀ e f, Words.Statement (.clr e f) := fun _ _ =>
  Words.alu rfl (by decide) rfl

theorem Words.rnd : ∀ e f, Words.Statement (.rnd e f) := fun _ _ =>
  Words.alu rfl (by decide) rfl

theorem Words.sat : ∀ e f, Words.Statement (.sat e f) := fun _ _ =>
  Words.alu rfl (by decide) rfl

theorem Words.mac : ∀ e f, Words.Statement (.mac e f) := fun _ _ =>
  Words.mulacc rfl (by decide) rfl

theorem Words.msu : ∀ e f, Words.Statement (.msu e f) := fun _ _ =>
  Words.mulacc rfl (by decide) rfl

theorem Words.mpy : ∀ e f, Words.Statement (.mpy e f) := fun _ _ =>
  Words.mulacc rfl (by decide) rfl

theorem Words.move : ∀ a b c, Words.Statement (.move a b c) := fun a b c =>
  Words.of rfl (fun w => by
    simp only [Instr.wf, below, Bool.and_eq_true, decide_eq_true_eq] at w
    exact ⟨by omega, Words.fit_one (by omega)⟩)

theorem Words.loadStore : ∀ e f, Words.Statement (.loadStore e f) := fun e f =>
  Words.of rfl (fun w => by
    simp only [Instr.wf, below, okLdSt, Bool.and_eq_true, decide_eq_true_eq] at w
    have := Words.b2n_le f.y
    have := Words.b2n_le f.store
    exact ⟨by omega, Words.fit_one (by simp only [Tarn.encLdSt]; omega)⟩)

theorem Words.aguOperation : ∀ a b, Words.Statement (.aguOperation a b) := fun a b =>
  Words.of rfl (fun w => by
    simp only [Instr.wf, below, okAgu, Bool.and_eq_true, decide_eq_true_eq] at w
    exact ⟨by omega, Words.fit_one (by simp only [Tarn.encAgu]; omega)⟩)

theorem Words.shortImmediate : ∀ a b c, Words.Statement (.shortImmediate a b c) := fun a b c =>
  Words.of rfl (fun w => by
    simp only [Instr.wf, below, Bool.and_eq_true, decide_eq_true_eq] at w
    exact ⟨by omega, Words.fit_one (by omega)⟩)

theorem Words.longImmediate : ∀ e r k, Words.Statement (.longImmediate e r k) := fun e r k =>
  Words.of rfl (fun w => by
    simp only [Instr.wf, below, Bool.and_eq_true, decide_eq_true_eq] at w
    exact ⟨by omega, Words.fit_two (by omega) (by omega)⟩)

theorem Words.branch : ∀ a b c, Words.Statement (.branch a b c) := fun a b c =>
  Words.of rfl (fun w => by
    simp only [Instr.wf, below, Bool.and_eq_true, decide_eq_true_eq] at w
    exact ⟨by omega, Words.fit_one (by simp only [Tarn.encBranch]; omega)⟩)

theorem Words.call : ∀ a b c, Words.Statement (.call a b c) := fun a b c =>
  Words.of rfl (fun w => by
    simp only [Instr.wf, below, Bool.and_eq_true, decide_eq_true_eq] at w
    exact ⟨by omega, Words.fit_one (by simp only [Tarn.encBranch]; omega)⟩)

theorem Words.ret : ∀ a b, Words.Statement (.ret a b) := fun a b =>
  Words.of rfl (fun w => by
    simp only [Instr.wf, below, Bool.and_eq_true, decide_eq_true_eq] at w
    exact ⟨by omega, Words.fit_one (by simp only [Tarn.encBranch]; omega)⟩)

theorem Words.endTask : ∀ a b, Words.Statement (.endTask a b) := fun a b =>
  Words.of rfl (fun w => by
    simp only [Instr.wf, below, Bool.and_eq_true, decide_eq_true_eq] at w
    exact ⟨by omega, Words.fit_one (by simp only [Tarn.encBranch]; omega)⟩)

theorem Words.rep : ∀ e n, Words.Statement (.rep e n) := by
  intro e n
  refine Words.of rfl (fun w => ?_)
  cases n <;> simp only [Instr.wf, below, okCount, Bool.and_eq_true, decide_eq_true_eq] at w
  · exact ⟨by omega, Words.fit_one (by simp only [Tarn.encRep]; omega)⟩
  · exact ⟨by omega, Words.fit_one (by simp only [Tarn.encRep]; omega)⟩

theorem Words.loop : ∀ e n le, Words.Statement (.loop e n le) := by
  intro e n le
  refine Words.of rfl (fun w => ?_)
  cases n <;> simp only [Instr.wf, below, okCount, Bool.and_eq_true, decide_eq_true_eq] at w
  · exact ⟨by omega, Words.fit_one (by simp only [Tarn.encLoop]; omega)⟩
  · exact ⟨by omega, Words.fit_one (by simp only [Tarn.encLoop]; omega)⟩

theorem Words.endl : ∀ a, Words.Statement (.endl a) := fun a =>
  Words.of rfl (fun w => by
    simp only [Instr.wf, below, Bool.and_eq_true, decide_eq_true_eq] at w
    exact ⟨by omega, Words.fit_one (by decide)⟩)

theorem Words.lpush : ∀ a, Words.Statement (.lpush a) := fun a =>
  Words.of rfl (fun w => by
    simp only [Instr.wf, below, Bool.and_eq_true, decide_eq_true_eq] at w
    exact ⟨by omega, Words.fit_one (by decide)⟩)

theorem Words.lpop : ∀ a, Words.Statement (.lpop a) := fun a =>
  Words.of rfl (fun w => by
    simp only [Instr.wf, below, Bool.and_eq_true, decide_eq_true_eq] at w
    exact ⟨by omega, Words.fit_one (by decide)⟩)

theorem Words.log2 : ∀ a b c, Words.Statement (.log2 a b c) := fun a b c =>
  Words.of rfl (fun w => by
    simp only [Instr.wf, below, Bool.and_eq_true, decide_eq_true_eq] at w
    exact ⟨by omega, Words.fit_one (by simp only [Tarn.encNl]; omega)⟩)

theorem Words.exp2 : ∀ a b c, Words.Statement (.exp2 a b c) := fun a b c =>
  Words.of rfl (fun w => by
    simp only [Instr.wf, below, Bool.and_eq_true, decide_eq_true_eq] at w
    exact ⟨by omega, Words.fit_one (by simp only [Tarn.encNl]; omega)⟩)

theorem Words.recip : ∀ a b c, Words.Statement (.recip a b c) := fun a b c =>
  Words.of rfl (fun w => by
    simp only [Instr.wf, below, Bool.and_eq_true, decide_eq_true_eq] at w
    exact ⟨by omega, Words.fit_one (by simp only [Tarn.encNl]; omega)⟩)

theorem Words.rsqrt : ∀ a b c, Words.Statement (.rsqrt a b c) := fun a b c =>
  Words.of rfl (fun w => by
    simp only [Instr.wf, below, Bool.and_eq_true, decide_eq_true_eq] at w
    exact ⟨by omega, Words.fit_one (by simp only [Tarn.encNl]; omega)⟩)

theorem Words.tarnDetection : ∀ a b c d e, Words.Statement (.tarnDetection a b c d e) := fun _ _ _ _ _ => Words.none rfl

theorem Words.tarnRetire : ∀ a, Words.Statement (.tarnRetire a) := fun _ => Words.none rfl

theorem Words.spareSelfTestPass : ∀ a, Words.Statement (.spareSelfTestPass a) := fun _ => Words.none rfl

theorem Words.tarnScrubPass : Words.Statement .tarnScrubPass := Words.none rfl

theorem Words.poisonedBlockRead : ∀ a b c, Words.Statement (.poisonedBlockRead a b c) := fun _ _ _ => Words.none rfl

theorem Words.ccRollback : ∀ a, Words.Statement (.ccRollback a) := fun _ => Words.none rfl

theorem Words.ccCheckpoint : Words.Statement .ccCheckpoint := Words.none rfl

theorem Words.ccRestart : ∀ a, Words.Statement (.ccRestart a) := fun _ => Words.none rfl

theorem Words.ccWatchdogExpiry : Words.Statement .ccWatchdogExpiry := Words.none rfl

theorem Words.ccRestartDone : Words.Statement .ccRestartDone := Words.none rfl

theorem Words.droopReport : ∀ a, Words.Statement (.droopReport a) := fun _ => Words.none rfl

theorem Words.throttleStep : ∀ a, Words.Statement (.throttleStep a) := fun _ => Words.none rfl

theorem Words.tempWarn : ∀ a, Words.Statement (.tempWarn a) := fun _ => Words.none rfl

theorem Words.maintRequest : ∀ a b c d, Words.Statement (.maintRequest a b c d) := fun _ _ _ _ => Words.none rfl

theorem Words.maintStatus : ∀ a, Words.Statement (.maintStatus a) := fun _ => Words.none rfl

theorem Words.maintGrant : Words.Statement .maintGrant := Words.none rfl

theorem Words.maintActivityEnd : ∀ a, Words.Statement (.maintActivityEnd a) := fun _ => Words.none rfl

theorem Words.sapFrame : ∀ a b c d e f, Words.Statement (.sapFrame a b c d e f) := fun _ _ _ _ _ _ => Words.none rfl

theorem Words.sapClockStop : ∀ a b c, Words.Statement (.sapClockStop a b c) := fun _ _ _ => Words.none rfl

theorem Words.sapRateMeasured : ∀ a b c d, Words.Statement (.sapRateMeasured a b c d) := fun _ _ _ _ => Words.none rfl

theorem Words.sapStopDone : ∀ a b, Words.Statement (.sapStopDone a b) := fun _ _ => Words.none rfl

theorem Words.sapMaskShadowWrite : ∀ a b, Words.Statement (.sapMaskShadowWrite a b) := fun _ _ => Words.none rfl

theorem Words.sapLayout : ∀ a b, Words.Statement (.sapLayout a b) := fun _ _ => Words.none rfl

theorem Words.madiFrame : ∀ a b c d e, Words.Statement (.madiFrame a b c d e) := fun _ _ _ _ _ => Words.none rfl

theorem Words.madiLock : ∀ a b, Words.Statement (.madiLock a b) := fun _ _ => Words.none rfl

theorem Words.madiStop : ∀ a b, Words.Statement (.madiStop a b) := fun _ _ => Words.none rfl

theorem Words.hspInsertion : Words.Statement .hspInsertion := Words.none rfl

theorem Words.hspPlug : ∀ a b c d, Words.Statement (.hspPlug a b c d) := fun _ _ _ _ => Words.none rfl

theorem Words.hspButtonDown : Words.Statement .hspButtonDown := Words.none rfl

theorem Words.hspButtonPress : ∀ a, Words.Statement (.hspButtonPress a) := fun _ => Words.none rfl

theorem Words.hspButtonRepeat : Words.Statement .hspButtonRepeat := Words.none rfl

theorem Words.hspButtonRelease : Words.Statement .hspButtonRelease := Words.none rfl

theorem Words.hspUnplug : Words.Statement .hspUnplug := Words.none rfl

theorem Words.hspMicGainStep : Words.Statement .hspMicGainStep := Words.none rfl

theorem Words.srcLock : ∀ a b, Words.Statement (.srcLock a b) := fun _ _ => Words.none rfl

theorem Words.srcUnlock : ∀ a b, Words.Statement (.srcUnlock a b) := fun _ _ => Words.none rfl

theorem Words.decInputSwitch : ∀ a, Words.Statement (.decInputSwitch a) := fun _ => Words.none rfl

theorem Words.decSilenceEnd : ∀ a, Words.Statement (.decSilenceEnd a) := fun _ => Words.none rfl

theorem Words.decsync : ∀ a b, Words.Statement (.decsync a b) := fun _ _ => Words.none rfl

theorem Words.decsyncFadeStart : Words.Statement .decsyncFadeStart := Words.none rfl

theorem Words.decsyncReset : Words.Statement .decsyncReset := Words.none rfl

theorem Words.decsyncPinEdge : Words.Statement .decsyncPinEdge := Words.none rfl

theorem Words.decsyncHoldEnd : Words.Statement .decsyncHoldEnd := Words.none rfl

theorem Words.netLinkDown : ∀ a, Words.Statement (.netLinkDown a) := fun _ => Words.none rfl

theorem Words.netLinkUp : ∀ a, Words.Statement (.netLinkUp a) := fun _ => Words.none rfl

theorem Words.netFrameReceive : ∀ a b c, Words.Statement (.netFrameReceive a b c) := fun _ _ _ => Words.none rfl

theorem Words.ptpOffsetMeasurement : ∀ a b, Words.Statement (.ptpOffsetMeasurement a b) := fun _ _ => Words.none rfl

theorem Words.announceTimeout : Words.Statement .announceTimeout := Words.none rfl

theorem Words.phcTimerPulse : ∀ a, Words.Statement (.phcTimerPulse a) := fun _ => Words.none rfl

theorem Words.phcCapture : ∀ a b, Words.Statement (.phcCapture a b) := fun _ _ => Words.none rfl

theorem Words.mccRenumber : Words.Statement .mccRenumber := Words.none rfl

theorem Words.mccUnaligned : ∀ a, Words.Statement (.mccUnaligned a) := fun _ => Words.none rfl

theorem Words.mccRealigned : ∀ a, Words.Statement (.mccRealigned a) := fun _ => Words.none rfl

theorem Words.streamPacketReceive : ∀ a b c d e f, Words.Statement (.streamPacketReceive a b c d e f) := fun _ _ _ _ _ _ => Words.none rfl

theorem Words.streamLegMiss : ∀ a b c, Words.Statement (.streamLegMiss a b c) := fun _ _ _ => Words.none rfl

theorem Words.streamPacketTransmit : ∀ a, Words.Statement (.streamPacketTransmit a) := fun _ => Words.none rfl

theorem Words.streamTxStopDone : ∀ a, Words.Statement (.streamTxStopDone a) := fun _ => Words.none rfl

theorem Words.streamRxRelease : ∀ a, Words.Statement (.streamRxRelease a) := fun _ => Words.none rfl

theorem Words.refLost : ∀ a, Words.Statement (.refLost a) := fun _ => Words.none rfl

theorem Words.refEvaluation : ∀ a, Words.Statement (.refEvaluation a) := fun _ => Words.none rfl

theorem Words.ckuLock : Words.Statement .ckuLock := Words.none rfl

theorem Words.ckuBwStep : Words.Statement .ckuBwStep := Words.none rfl

theorem Words.ckuUnlock : Words.Statement .ckuUnlock := Words.none rfl

theorem Words.ckuGlide : Words.Statement .ckuGlide := Words.none rfl

theorem Words.ckuFreerun : Words.Statement .ckuFreerun := Words.none rfl

theorem Words.ref4SlewDone : ∀ a, Words.Statement (.ref4SlewDone a) := fun _ => Words.none rfl

theorem Words.ckuSteer : ∀ a b, Words.Statement (.ckuSteer a b) := fun _ _ => Words.none rfl

theorem Words.ckuCalibrate : ∀ a, Words.Statement (.ckuCalibrate a) := fun _ => Words.none rfl

theorem Words.ckuCalDone : ∀ a, Words.Statement (.ckuCalDone a) := fun _ => Words.none rfl

theorem Words.clkoutFreqChange : ∀ a, Words.Statement (.clkoutFreqChange a) := fun _ => Words.none rfl

theorem Words.vcpFragment : ∀ a b, Words.Statement (.vcpFragment a b) := fun _ _ => Words.none rfl

theorem Words.reassemblyTimeout : ∀ a b c, Words.Statement (.reassemblyTimeout a b c) := fun _ _ _ => Words.none rfl

theorem Words.authBlockExpiry : ∀ a, Words.Statement (.authBlockExpiry a) := fun _ => Words.none rfl

theorem Words.sessionOpen : ∀ a b c d e f g, Words.Statement (.sessionOpen a b c d e f g) := fun _ _ _ _ _ _ _ => Words.none rfl

theorem Words.sessionClose : ∀ a, Words.Statement (.sessionClose a) := fun _ => Words.none rfl

theorem Words.keepaliveExpiry : ∀ a, Words.Statement (.keepaliveExpiry a) := fun _ => Words.none rfl

theorem Words.pcieLinkReset : Words.Statement .pcieLinkReset := Words.none rfl

theorem Words.ping : ∀ a, Words.Statement (.ping a) := fun _ => Words.none rfl

theorem Words.summary : ∀ a, Words.Statement (.summary a) := fun _ => Words.none rfl

theorem Words.partitionClaim : ∀ a b c, Words.Statement (.partitionClaim a b c) := fun _ _ _ => Words.none rfl

theorem Words.partitionRelease : ∀ a b, Words.Statement (.partitionRelease a b) := fun _ _ => Words.none rfl

theorem Words.stageOpen : ∀ a b, Words.Statement (.stageOpen a b) := fun _ _ => Words.none rfl

theorem Words.stageAdd : ∀ a b c, Words.Statement (.stageAdd a b c) := fun _ _ _ => Words.none rfl

theorem Words.stageRow : ∀ a b c, Words.Statement (.stageRow a b c) := fun _ _ _ => Words.none rfl

theorem Words.stageColumn : ∀ a b c, Words.Statement (.stageColumn a b c) := fun _ _ _ => Words.none rfl

theorem Words.stageRect : ∀ a b c, Words.Statement (.stageRect a b c) := fun _ _ _ => Words.none rfl

theorem Words.stageFill : ∀ a b c, Words.Statement (.stageFill a b c) := fun _ _ _ => Words.none rfl

theorem Words.stageRemove : ∀ a b c, Words.Statement (.stageRemove a b c) := fun _ _ _ => Words.none rfl

theorem Words.stageCheck : ∀ a b, Words.Statement (.stageCheck a b) := fun _ _ => Words.none rfl

theorem Words.stageCosign : ∀ a b c d, Words.Statement (.stageCosign a b c d) := fun _ _ _ _ => Words.none rfl

theorem Words.commit : ∀ a b c, Words.Statement (.commit a b c) := fun _ _ _ => Words.none rfl

theorem Words.stageCancel : ∀ a b, Words.Statement (.stageCancel a b) := fun _ _ => Words.none rfl

theorem Words.stageDiscard : ∀ a b, Words.Statement (.stageDiscard a b) := fun _ _ => Words.none rfl

theorem Words.stageReport : ∀ a b, Words.Statement (.stageReport a b) := fun _ _ => Words.none rfl

theorem Words.pan : ∀ a b c d e f g i, Words.Statement (.pan a b c d e f g i) := fun _ _ _ _ _ _ _ _ => Words.none rfl

theorem Words.sceneSave : ∀ a b c d, Words.Statement (.sceneSave a b c d) := fun _ _ _ _ => Words.none rfl

theorem Words.sceneRecall : ∀ a b c d, Words.Statement (.sceneRecall a b c d) := fun _ _ _ _ => Words.none rfl

theorem Words.sceneList : ∀ a b, Words.Statement (.sceneList a b) := fun _ _ => Words.none rfl

theorem Words.sceneDelete : ∀ a b, Words.Statement (.sceneDelete a b) := fun _ _ => Words.none rfl

theorem Words.cueLoad : ∀ a b c, Words.Statement (.cueLoad a b c) := fun _ _ _ => Words.none rfl

theorem Words.cueArm : ∀ a b, Words.Statement (.cueArm a b) := fun _ _ => Words.none rfl

theorem Words.cueDisarm : ∀ a b, Words.Statement (.cueDisarm a b) := fun _ _ => Words.none rfl

theorem Words.cueRead : ∀ a b, Words.Statement (.cueRead a b) := fun _ _ => Words.none rfl

theorem Words.paramRead : ∀ a b, Words.Statement (.paramRead a b) := fun _ _ => Words.none rfl

theorem Words.matrixRead : ∀ a b c d e f, Words.Statement (.matrixRead a b c d e f) := fun _ _ _ _ _ _ => Words.none rfl

theorem Words.latencyRead : ∀ a b, Words.Statement (.latencyRead a b) := fun _ _ => Words.none rfl

theorem Words.counterRead : ∀ a b, Words.Statement (.counterRead a b) := fun _ _ => Words.none rfl

theorem Words.meterSubscribe : ∀ a b, Words.Statement (.meterSubscribe a b) := fun _ _ => Words.none rfl

theorem Words.meterPeriodEnd : ∀ a, Words.Statement (.meterPeriodEnd a) := fun _ => Words.none rfl

theorem Words.streamSdp : ∀ a b c, Words.Statement (.streamSdp a b c) := fun _ _ _ => Words.none rfl

theorem Words.eventRead : ∀ a b, Words.Statement (.eventRead a b) := fun _ _ => Words.none rfl

theorem Words.eventAck : ∀ a b, Words.Statement (.eventAck a b) := fun _ _ => Words.none rfl

theorem Words.eventMask : ∀ a b c, Words.Statement (.eventMask a b c) := fun _ _ _ => Words.none rfl

theorem Words.eventDetail : ∀ a b, Words.Statement (.eventDetail a b) := fun _ _ => Words.none rfl

theorem Words.deliveryIntervalEnd : ∀ a, Words.Statement (.deliveryIntervalEnd a) := fun _ => Words.none rfl

theorem Words.phcSet : ∀ a b c, Words.Statement (.phcSet a b c) := fun _ _ _ => Words.none rfl

theorem Words.mccAlign : ∀ a, Words.Statement (.mccAlign a) := fun _ => Words.none rfl

theorem Words.moduleLoad : ∀ a b, Words.Statement (.moduleLoad a b) := fun _ _ => Words.none rfl

theorem Words.moduleList : ∀ a, Words.Statement (.moduleList a) := fun _ => Words.none rfl

theorem Words.fwWrite : ∀ a b c d, Words.Statement (.fwWrite a b c d) := fun _ _ _ _ => Words.none rfl

theorem Words.fwSwitch : ∀ a b c, Words.Statement (.fwSwitch a b c) := fun _ _ _ => Words.none rfl

theorem Words.twinSwap : ∀ a b, Words.Statement (.twinSwap a b) := fun _ _ => Words.none rfl

theorem Words.credProvision : ∀ a b, Words.Statement (.credProvision a b) := fun _ _ => Words.none rfl

theorem Words.lifecycleSet : ∀ a b c, Words.Statement (.lifecycleSet a b c) := fun _ _ _ => Words.none rfl

theorem Words.keyInfo : ∀ a, Words.Statement (.keyInfo a) := fun _ => Words.none rfl

theorem Words.unknownCommand : ∀ a b, Words.Statement (.unknownCommand a b) := fun _ _ => Words.none rfl

theorem Words.secVersionFloorRaise : Words.Statement .secVersionFloorRaise := Words.none rfl

theorem Words.tamperTrip : ∀ a, Words.Statement (.tamperTrip a) := fun _ => Words.none rfl

theorem Words.sbWiped : Words.Statement .sbWiped := Words.none rfl

theorem Words.mbxReqWrite : ∀ a b, Words.Statement (.mbxReqWrite a b) := fun _ _ => Words.none rfl

theorem Words.mbxReply : ∀ a, Words.Statement (.mbxReply a) := fun _ => Words.none rfl

theorem Words.mbxEvrWrite : ∀ a b, Words.Statement (.mbxEvrWrite a b) := fun _ _ => Words.none rfl

theorem Words.evStatClear : ∀ a b, Words.Statement (.evStatClear a b) := fun _ _ => Words.none rfl

theorem Words.mccLoRead : Words.Statement .mccLoRead := Words.none rfl

theorem Words.genLoRead : Words.Statement .genLoRead := Words.none rfl

theorem Words.registerWrite : ∀ a b, Words.Statement (.registerWrite a b) := fun _ _ => Words.none rfl

theorem Words.spiRegisterWrite : ∀ a b, Words.Statement (.spiRegisterWrite a b) := fun _ _ => Words.none rfl

theorem Words.spiRegisterRead : ∀ a b, Words.Statement (.spiRegisterRead a b) := fun _ _ => Words.none rfl

theorem Words.spiMailboxWrite : ∀ a b, Words.Statement (.spiMailboxWrite a b) := fun _ _ => Words.none rfl

theorem Words.spiMailboxRead : ∀ a b, Words.Statement (.spiMailboxRead a b) := fun _ _ => Words.none rfl

theorem Words.fabricGrant : ∀ a b c, Words.Statement (.fabricGrant a b c) := fun _ _ _ => Words.none rfl

theorem Words.qosPromotion : ∀ a b, Words.Statement (.qosPromotion a b) := fun _ _ => Words.none rfl

theorem Words.masterResetDrain : ∀ a, Words.Statement (.masterResetDrain a) := fun _ => Words.none rfl

theorem Words.poolScrubPass : ∀ a, Words.Statement (.poolScrubPass a) := fun _ => Words.none rfl

theorem Words.dramPatrolPass : ∀ a, Words.Statement (.dramPatrolPass a) := fun _ => Words.none rfl

theorem Words.mstoreCorrected : ∀ a, Words.Statement (.mstoreCorrected a) := fun _ => Words.none rfl

theorem Words.mstoreScrubPass : ∀ a, Words.Statement (.mstoreScrubPass a) := fun _ => Words.none rfl

theorem Words.eventCountPublish : ∀ a b c d, Words.Statement (.eventCountPublish a b c d) := fun _ _ _ _ => Words.none rfl

theorem Words.crossingClockStopped : ∀ a b, Words.Statement (.crossingClockStopped a b) := fun _ _ => Words.none rfl

theorem Words.crossingResetIndication : ∀ a, Words.Statement (.crossingResetIndication a) := fun _ => Words.none rfl

theorem Words.resetGroupRequest : ∀ a, Words.Statement (.resetGroupRequest a) := fun _ => Words.none rfl

theorem Words.peerAliveStopped : Words.Statement .peerAliveStopped := Words.none rfl

theorem Words.amclkStopRelease : Words.Statement .amclkStopRelease := Words.none rfl

theorem Words.leaseRenewal : ∀ a, Words.Statement (.leaseRenewal a) := fun _ => Words.none rfl

theorem Words.leaseAck : ∀ a, Words.Statement (.leaseAck a) := fun _ => Words.none rfl

theorem Words.leaseFence : Words.Statement .leaseFence := Words.none rfl

theorem Words.leaseGuardExpiry : Words.Statement .leaseGuardExpiry := Words.none rfl

theorem Words.twinHeartbeat : ∀ a b, Words.Statement (.twinHeartbeat a b) := fun _ _ => Words.none rfl

theorem Words.twinPathDown : ∀ a, Words.Statement (.twinPathDown a) := fun _ => Words.none rfl

theorem Words.inputRecord : ∀ a b, Words.Statement (.inputRecord a b) := fun _ _ => Words.none rfl

theorem Words.inputRecordMissing : Words.Statement .inputRecordMissing := Words.none rfl

theorem Words.edgeOffsetExceeded : ∀ a, Words.Statement (.edgeOffsetExceeded a) := fun _ => Words.none rfl

theorem Words.twinForward : ∀ a b, Words.Statement (.twinForward a b) := fun _ _ => Words.none rfl

theorem Words.twinHandover : ∀ a, Words.Statement (.twinHandover a) := fun _ => Words.none rfl

theorem Words.twinSwapAtH : Words.Statement .twinSwapAtH := Words.none rfl

theorem Words.resyncStepDone : ∀ a b, Words.Statement (.resyncStepDone a b) := fun _ _ => Words.none rfl

theorem Words.nonconvStateCopy : ∀ a b c, Words.Statement (.nonconvStateCopy a b c) := fun _ _ _ => Words.none rfl

theorem Words.joinLimitExpiry : Words.Statement .joinLimitExpiry := Words.none rfl

theorem Words.legacyWrite : ∀ a b, Words.Statement (.legacyWrite a b) := fun _ _ => Words.none rfl

theorem Words.legacyRead : ∀ a, Words.Statement (.legacyRead a) := fun _ => Words.none rfl

theorem Words.legacyBurstWrite : ∀ a b c, Words.Statement (.legacyBurstWrite a b c) := fun _ _ _ => Words.none rfl

theorem Words.legacyBurstRead : ∀ a b, Words.Statement (.legacyBurstRead a b) := fun _ _ => Words.none rfl

theorem Words.legacyParamWrite : ∀ a b, Words.Statement (.legacyParamWrite a b) := fun _ _ => Words.none rfl

theorem Words.load : Words.Statement .load := Words.none rfl

theorem Words.loadLatch : Words.Statement .loadLatch := Words.none rfl

theorem Words.softReset : Words.Statement .softReset := Words.none rfl

theorem Words.legacyRateWrite : ∀ a, Words.Statement (.legacyRateWrite a) := fun _ => Words.none rfl

theorem Words.legacyStatusClear : ∀ a, Words.Statement (.legacyStatusClear a) := fun _ => Words.none rfl

theorem Words.tamperSourceCleared : ∀ a, Words.Statement (.tamperSourceCleared a) := fun _ => Words.none rfl

theorem Words.processingPllLossOfLock : Words.Statement .processingPllLossOfLock := Words.none rfl

theorem Words.inputRecordClose : Words.Statement .inputRecordClose := Words.none rfl

end Sys2Proof.Laws
end

