-- ==== Sys2Proof/Laws/State.lean ====
section
/-! SUPPORT. Sys2Proof/Laws/State.lean: what every update of the state changes and what it leaves alone, field by field. -/
namespace Sys2Proof.Machine

/-! ### Changes of one group -/

@[simp] theorem State.setTwin_fields (s : State) (f : TwinG → TwinG) :
    (s.setTwin f).twin = f s.twin ∧ (s.setTwin f).mcc = s.mcc ∧ (s.setTwin f).dev = s.dev ∧ (s.setTwin f).params = s.params ∧
    (s.setTwin f).power = s.power ∧ (s.setTwin f).boot = s.boot ∧ (s.setTwin f).sec = s.sec ∧ (s.setTwin f).fw = s.fw ∧
    (s.setTwin f).audio = s.audio ∧ (s.setTwin f).mere = s.mere ∧ (s.setTwin f).spring = s.spring ∧ (s.setTwin f).tarn = s.tarn ∧
    (s.setTwin f).ports = s.ports ∧ (s.setTwin f).conv = s.conv ∧ (s.setTwin f).net = s.net ∧ (s.setTwin f).cku = s.cku ∧
    (s.setTwin f).vcp = s.vcp ∧ (s.setTwin f).ev = s.ev ∧ (s.setTwin f).scene = s.scene ∧ (s.setTwin f).fab = s.fab ∧
    (s.setTwin f).fault = s.fault ∧ (s.setTwin f).legacy = s.legacy ∧ (s.setTwin f).free = s.free ∧ (s.setTwin f).draws = s.draws ∧
    (s.setTwin f).pending = s.pending := by
  simp [State.setTwin]

@[simp] theorem State.setCku_fields (s : State) (f : CkuG → CkuG) :
    (s.setCku f).cku = f s.cku ∧ (s.setCku f).mcc = s.mcc ∧ (s.setCku f).dev = s.dev ∧ (s.setCku f).params = s.params ∧
    (s.setCku f).power = s.power ∧ (s.setCku f).boot = s.boot ∧ (s.setCku f).sec = s.sec ∧ (s.setCku f).fw = s.fw ∧
    (s.setCku f).audio = s.audio ∧ (s.setCku f).mere = s.mere ∧ (s.setCku f).spring = s.spring ∧ (s.setCku f).tarn = s.tarn ∧
    (s.setCku f).ports = s.ports ∧ (s.setCku f).conv = s.conv ∧ (s.setCku f).net = s.net ∧ (s.setCku f).vcp = s.vcp ∧
    (s.setCku f).ev = s.ev ∧ (s.setCku f).scene = s.scene ∧ (s.setCku f).fab = s.fab ∧ (s.setCku f).fault = s.fault ∧
    (s.setCku f).twin = s.twin ∧ (s.setCku f).legacy = s.legacy ∧ (s.setCku f).free = s.free ∧ (s.setCku f).draws = s.draws ∧ (s.setCku f).pending = s.pending := by
  simp [State.setCku]

@[simp] theorem State.setNet_fields (s : State) (f : NetG → NetG) :
    (s.setNet f).net = f s.net ∧ (s.setNet f).mcc = s.mcc ∧ (s.setNet f).dev = s.dev ∧ (s.setNet f).params = s.params ∧
    (s.setNet f).power = s.power ∧ (s.setNet f).boot = s.boot ∧ (s.setNet f).sec = s.sec ∧ (s.setNet f).fw = s.fw ∧
    (s.setNet f).audio = s.audio ∧ (s.setNet f).mere = s.mere ∧ (s.setNet f).spring = s.spring ∧ (s.setNet f).tarn = s.tarn ∧
    (s.setNet f).ports = s.ports ∧ (s.setNet f).conv = s.conv ∧ (s.setNet f).cku = s.cku ∧ (s.setNet f).vcp = s.vcp ∧
    (s.setNet f).ev = s.ev ∧ (s.setNet f).scene = s.scene ∧ (s.setNet f).fab = s.fab ∧ (s.setNet f).fault = s.fault ∧
    (s.setNet f).twin = s.twin ∧ (s.setNet f).legacy = s.legacy ∧ (s.setNet f).free = s.free ∧ (s.setNet f).draws = s.draws ∧ (s.setNet f).pending = s.pending := by
  simp [State.setNet]

@[simp] theorem State.setScene_fields (s : State) (f : SceG → SceG) :
    (s.setScene f).scene = f s.scene ∧ (s.setScene f).mcc = s.mcc ∧ (s.setScene f).dev = s.dev ∧ (s.setScene f).params = s.params ∧
    (s.setScene f).power = s.power ∧ (s.setScene f).boot = s.boot ∧ (s.setScene f).sec = s.sec ∧ (s.setScene f).fw = s.fw ∧
    (s.setScene f).audio = s.audio ∧ (s.setScene f).mere = s.mere ∧ (s.setScene f).spring = s.spring ∧ (s.setScene f).tarn = s.tarn ∧
    (s.setScene f).ports = s.ports ∧ (s.setScene f).conv = s.conv ∧ (s.setScene f).net = s.net ∧ (s.setScene f).cku = s.cku ∧
    (s.setScene f).vcp = s.vcp ∧ (s.setScene f).ev = s.ev ∧ (s.setScene f).fab = s.fab ∧ (s.setScene f).fault = s.fault ∧
    (s.setScene f).twin = s.twin ∧ (s.setScene f).legacy = s.legacy ∧ (s.setScene f).free = s.free ∧ (s.setScene f).draws = s.draws ∧
    (s.setScene f).pending = s.pending := by
  simp [State.setScene]

@[simp] theorem State.setLeg_fields (s : State) (f : LegG → LegG) :
    (s.setLeg f).legacy = f s.legacy ∧ (s.setLeg f).mcc = s.mcc ∧ (s.setLeg f).dev = s.dev ∧ (s.setLeg f).params = s.params ∧
    (s.setLeg f).power = s.power ∧ (s.setLeg f).boot = s.boot ∧ (s.setLeg f).sec = s.sec ∧ (s.setLeg f).fw = s.fw ∧
    (s.setLeg f).audio = s.audio ∧ (s.setLeg f).mere = s.mere ∧ (s.setLeg f).spring = s.spring ∧ (s.setLeg f).tarn = s.tarn ∧
    (s.setLeg f).ports = s.ports ∧ (s.setLeg f).conv = s.conv ∧ (s.setLeg f).net = s.net ∧ (s.setLeg f).cku = s.cku ∧
    (s.setLeg f).vcp = s.vcp ∧ (s.setLeg f).ev = s.ev ∧ (s.setLeg f).scene = s.scene ∧ (s.setLeg f).fab = s.fab ∧
    (s.setLeg f).fault = s.fault ∧ (s.setLeg f).twin = s.twin ∧ (s.setLeg f).free = s.free ∧ (s.setLeg f).draws = s.draws ∧ (s.setLeg f).pending = s.pending := by
  simp [State.setLeg]

@[simp] theorem State.setAudio_fields (s : State) (f : AudioG → AudioG) :
    (s.setAudio f).audio = f s.audio ∧ (s.setAudio f).mcc = s.mcc ∧ (s.setAudio f).dev = s.dev ∧ (s.setAudio f).params = s.params ∧
    (s.setAudio f).power = s.power ∧ (s.setAudio f).boot = s.boot ∧ (s.setAudio f).sec = s.sec ∧ (s.setAudio f).fw = s.fw ∧
    (s.setAudio f).mere = s.mere ∧ (s.setAudio f).spring = s.spring ∧ (s.setAudio f).tarn = s.tarn ∧ (s.setAudio f).ports = s.ports ∧
    (s.setAudio f).conv = s.conv ∧ (s.setAudio f).net = s.net ∧ (s.setAudio f).cku = s.cku ∧ (s.setAudio f).vcp = s.vcp ∧
    (s.setAudio f).ev = s.ev ∧ (s.setAudio f).scene = s.scene ∧ (s.setAudio f).fab = s.fab ∧ (s.setAudio f).fault = s.fault ∧
    (s.setAudio f).twin = s.twin ∧ (s.setAudio f).legacy = s.legacy ∧ (s.setAudio f).free = s.free ∧ (s.setAudio f).draws = s.draws ∧
    (s.setAudio f).pending = s.pending := by
  simp [State.setAudio]

@[simp] theorem State.setFab_fields (s : State) (f : FabG → FabG) :
    (s.setFab f).fab = f s.fab ∧ (s.setFab f).mcc = s.mcc ∧ (s.setFab f).dev = s.dev ∧ (s.setFab f).params = s.params ∧
    (s.setFab f).power = s.power ∧ (s.setFab f).boot = s.boot ∧ (s.setFab f).sec = s.sec ∧ (s.setFab f).fw = s.fw ∧
    (s.setFab f).audio = s.audio ∧ (s.setFab f).mere = s.mere ∧ (s.setFab f).spring = s.spring ∧ (s.setFab f).tarn = s.tarn ∧
    (s.setFab f).ports = s.ports ∧ (s.setFab f).conv = s.conv ∧ (s.setFab f).net = s.net ∧ (s.setFab f).cku = s.cku ∧
    (s.setFab f).vcp = s.vcp ∧ (s.setFab f).ev = s.ev ∧ (s.setFab f).scene = s.scene ∧ (s.setFab f).fault = s.fault ∧
    (s.setFab f).twin = s.twin ∧ (s.setFab f).legacy = s.legacy ∧ (s.setFab f).free = s.free ∧ (s.setFab f).draws = s.draws ∧ (s.setFab f).pending = s.pending := by
  simp [State.setFab]

@[simp] theorem State.setVcp_fields (s : State) (f : VcpG → VcpG) :
    (s.setVcp f).vcp = f s.vcp ∧ (s.setVcp f).mcc = s.mcc ∧ (s.setVcp f).dev = s.dev ∧ (s.setVcp f).params = s.params ∧
    (s.setVcp f).power = s.power ∧ (s.setVcp f).boot = s.boot ∧ (s.setVcp f).sec = s.sec ∧ (s.setVcp f).fw = s.fw ∧
    (s.setVcp f).audio = s.audio ∧ (s.setVcp f).mere = s.mere ∧ (s.setVcp f).spring = s.spring ∧ (s.setVcp f).tarn = s.tarn ∧
    (s.setVcp f).ports = s.ports ∧ (s.setVcp f).conv = s.conv ∧ (s.setVcp f).net = s.net ∧ (s.setVcp f).cku = s.cku ∧
    (s.setVcp f).ev = s.ev ∧ (s.setVcp f).scene = s.scene ∧ (s.setVcp f).fab = s.fab ∧ (s.setVcp f).fault = s.fault ∧
    (s.setVcp f).twin = s.twin ∧ (s.setVcp f).legacy = s.legacy ∧ (s.setVcp f).free = s.free ∧ (s.setVcp f).draws = s.draws ∧ (s.setVcp f).pending = s.pending := by
  simp [State.setVcp]

@[simp] theorem State.setSec_fields (s : State) (f : SecG → SecG) :
    (s.setSec f).sec = f s.sec ∧ (s.setSec f).mcc = s.mcc ∧ (s.setSec f).dev = s.dev ∧ (s.setSec f).params = s.params ∧
    (s.setSec f).power = s.power ∧ (s.setSec f).boot = s.boot ∧ (s.setSec f).fw = s.fw ∧ (s.setSec f).audio = s.audio ∧
    (s.setSec f).mere = s.mere ∧ (s.setSec f).spring = s.spring ∧ (s.setSec f).tarn = s.tarn ∧ (s.setSec f).ports = s.ports ∧
    (s.setSec f).conv = s.conv ∧ (s.setSec f).net = s.net ∧ (s.setSec f).cku = s.cku ∧ (s.setSec f).vcp = s.vcp ∧
    (s.setSec f).ev = s.ev ∧ (s.setSec f).scene = s.scene ∧ (s.setSec f).fab = s.fab ∧ (s.setSec f).fault = s.fault ∧
    (s.setSec f).twin = s.twin ∧ (s.setSec f).legacy = s.legacy ∧ (s.setSec f).free = s.free ∧ (s.setSec f).draws = s.draws ∧ (s.setSec f).pending = s.pending := by
  simp [State.setSec]

@[simp] theorem State.setMere_fields (s : State) (f : MereG → MereG) :
    (s.setMere f).mere = f s.mere ∧ (s.setMere f).mcc = s.mcc ∧ (s.setMere f).dev = s.dev ∧ (s.setMere f).params = s.params ∧
    (s.setMere f).power = s.power ∧ (s.setMere f).boot = s.boot ∧ (s.setMere f).sec = s.sec ∧ (s.setMere f).fw = s.fw ∧
    (s.setMere f).audio = s.audio ∧ (s.setMere f).spring = s.spring ∧ (s.setMere f).tarn = s.tarn ∧ (s.setMere f).ports = s.ports ∧
    (s.setMere f).conv = s.conv ∧ (s.setMere f).net = s.net ∧ (s.setMere f).cku = s.cku ∧ (s.setMere f).vcp = s.vcp ∧
    (s.setMere f).ev = s.ev ∧ (s.setMere f).scene = s.scene ∧ (s.setMere f).fab = s.fab ∧ (s.setMere f).fault = s.fault ∧
    (s.setMere f).twin = s.twin ∧ (s.setMere f).legacy = s.legacy ∧ (s.setMere f).free = s.free ∧ (s.setMere f).draws = s.draws ∧
    (s.setMere f).pending = s.pending := by
  simp [State.setMere]

@[simp] theorem State.setFault_fields (s : State) (f : FaultG → FaultG) :
    (s.setFault f).fault = f s.fault ∧ (s.setFault f).mcc = s.mcc ∧ (s.setFault f).dev = s.dev ∧ (s.setFault f).params = s.params ∧
    (s.setFault f).power = s.power ∧ (s.setFault f).boot = s.boot ∧ (s.setFault f).sec = s.sec ∧ (s.setFault f).fw = s.fw ∧
    (s.setFault f).audio = s.audio ∧ (s.setFault f).mere = s.mere ∧ (s.setFault f).spring = s.spring ∧ (s.setFault f).tarn = s.tarn ∧
    (s.setFault f).ports = s.ports ∧ (s.setFault f).conv = s.conv ∧ (s.setFault f).net = s.net ∧ (s.setFault f).cku = s.cku ∧
    (s.setFault f).vcp = s.vcp ∧ (s.setFault f).ev = s.ev ∧ (s.setFault f).scene = s.scene ∧ (s.setFault f).fab = s.fab ∧
    (s.setFault f).twin = s.twin ∧ (s.setFault f).legacy = s.legacy ∧ (s.setFault f).free = s.free ∧ (s.setFault f).draws = s.draws ∧
    (s.setFault f).pending = s.pending := by
  simp [State.setFault]

@[simp] theorem State.setBoot_fields (s : State) (f : BootG → BootG) :
    (s.setBoot f).boot = f s.boot ∧ (s.setBoot f).mcc = s.mcc ∧ (s.setBoot f).dev = s.dev ∧ (s.setBoot f).params = s.params ∧
    (s.setBoot f).power = s.power ∧ (s.setBoot f).sec = s.sec ∧ (s.setBoot f).fw = s.fw ∧ (s.setBoot f).audio = s.audio ∧
    (s.setBoot f).mere = s.mere ∧ (s.setBoot f).spring = s.spring ∧ (s.setBoot f).tarn = s.tarn ∧ (s.setBoot f).ports = s.ports ∧
    (s.setBoot f).conv = s.conv ∧ (s.setBoot f).net = s.net ∧ (s.setBoot f).cku = s.cku ∧ (s.setBoot f).vcp = s.vcp ∧
    (s.setBoot f).ev = s.ev ∧ (s.setBoot f).scene = s.scene ∧ (s.setBoot f).fab = s.fab ∧ (s.setBoot f).fault = s.fault ∧
    (s.setBoot f).twin = s.twin ∧ (s.setBoot f).legacy = s.legacy ∧ (s.setBoot f).free = s.free ∧ (s.setBoot f).draws = s.draws ∧
    (s.setBoot f).pending = s.pending := by
  simp [State.setBoot]

@[simp] theorem State.setPower_fields (s : State) (f : PowerG → PowerG) :
    (s.setPower f).power = f s.power ∧ (s.setPower f).mcc = s.mcc ∧ (s.setPower f).dev = s.dev ∧ (s.setPower f).params = s.params ∧
    (s.setPower f).boot = s.boot ∧ (s.setPower f).sec = s.sec ∧ (s.setPower f).fw = s.fw ∧ (s.setPower f).audio = s.audio ∧
    (s.setPower f).mere = s.mere ∧ (s.setPower f).spring = s.spring ∧ (s.setPower f).tarn = s.tarn ∧ (s.setPower f).ports = s.ports ∧
    (s.setPower f).conv = s.conv ∧ (s.setPower f).net = s.net ∧ (s.setPower f).cku = s.cku ∧ (s.setPower f).vcp = s.vcp ∧
    (s.setPower f).ev = s.ev ∧ (s.setPower f).scene = s.scene ∧ (s.setPower f).fab = s.fab ∧ (s.setPower f).fault = s.fault ∧
    (s.setPower f).twin = s.twin ∧ (s.setPower f).legacy = s.legacy ∧ (s.setPower f).free = s.free ∧ (s.setPower f).draws = s.draws ∧
    (s.setPower f).pending = s.pending := by
  simp [State.setPower]

@[simp] theorem State.setSpring_fields (s : State) (f : SpringG → SpringG) :
    (s.setSpring f).spring = f s.spring ∧ (s.setSpring f).mcc = s.mcc ∧ (s.setSpring f).dev = s.dev ∧
    (s.setSpring f).params = s.params ∧ (s.setSpring f).power = s.power ∧ (s.setSpring f).boot = s.boot ∧
    (s.setSpring f).sec = s.sec ∧ (s.setSpring f).fw = s.fw ∧ (s.setSpring f).audio = s.audio ∧ (s.setSpring f).mere = s.mere ∧
    (s.setSpring f).tarn = s.tarn ∧ (s.setSpring f).ports = s.ports ∧ (s.setSpring f).conv = s.conv ∧ (s.setSpring f).net = s.net ∧
    (s.setSpring f).cku = s.cku ∧ (s.setSpring f).vcp = s.vcp ∧ (s.setSpring f).ev = s.ev ∧ (s.setSpring f).scene = s.scene ∧
    (s.setSpring f).fab = s.fab ∧ (s.setSpring f).fault = s.fault ∧ (s.setSpring f).twin = s.twin ∧
    (s.setSpring f).legacy = s.legacy ∧ (s.setSpring f).free = s.free ∧ (s.setSpring f).draws = s.draws ∧ (s.setSpring f).pending = s.pending := by
  simp [State.setSpring]

@[simp] theorem State.setConv_fields (s : State) (f : ConvG → ConvG) :
    (s.setConv f).conv = f s.conv ∧ (s.setConv f).mcc = s.mcc ∧ (s.setConv f).dev = s.dev ∧ (s.setConv f).params = s.params ∧
    (s.setConv f).power = s.power ∧ (s.setConv f).boot = s.boot ∧ (s.setConv f).sec = s.sec ∧ (s.setConv f).fw = s.fw ∧
    (s.setConv f).audio = s.audio ∧ (s.setConv f).mere = s.mere ∧ (s.setConv f).spring = s.spring ∧ (s.setConv f).tarn = s.tarn ∧
    (s.setConv f).ports = s.ports ∧ (s.setConv f).net = s.net ∧ (s.setConv f).cku = s.cku ∧ (s.setConv f).vcp = s.vcp ∧
    (s.setConv f).ev = s.ev ∧ (s.setConv f).scene = s.scene ∧ (s.setConv f).fab = s.fab ∧ (s.setConv f).fault = s.fault ∧
    (s.setConv f).twin = s.twin ∧ (s.setConv f).legacy = s.legacy ∧ (s.setConv f).free = s.free ∧ (s.setConv f).draws = s.draws ∧
    (s.setConv f).pending = s.pending := by
  simp [State.setConv]

@[simp] theorem State.setTarn_fields (s : State) (f : TarnG → TarnG) :
    (s.setTarn f).tarn = f s.tarn ∧ (s.setTarn f).mcc = s.mcc ∧ (s.setTarn f).dev = s.dev ∧ (s.setTarn f).params = s.params ∧
    (s.setTarn f).power = s.power ∧ (s.setTarn f).boot = s.boot ∧ (s.setTarn f).sec = s.sec ∧ (s.setTarn f).fw = s.fw ∧
    (s.setTarn f).audio = s.audio ∧ (s.setTarn f).mere = s.mere ∧ (s.setTarn f).spring = s.spring ∧ (s.setTarn f).ports = s.ports ∧
    (s.setTarn f).conv = s.conv ∧ (s.setTarn f).net = s.net ∧ (s.setTarn f).cku = s.cku ∧ (s.setTarn f).vcp = s.vcp ∧
    (s.setTarn f).ev = s.ev ∧ (s.setTarn f).scene = s.scene ∧ (s.setTarn f).fab = s.fab ∧ (s.setTarn f).fault = s.fault ∧
    (s.setTarn f).twin = s.twin ∧ (s.setTarn f).legacy = s.legacy ∧ (s.setTarn f).free = s.free ∧ (s.setTarn f).draws = s.draws ∧
    (s.setTarn f).pending = s.pending := by
  simp [State.setTarn]

/-! ### Raising an event -/

@[simp] theorem State.setEv_fields (s : State) (f : EvG → EvG) :
    (s.setEv f).mcc = s.mcc ∧ (s.setEv f).dev = s.dev ∧ (s.setEv f).params = s.params ∧ (s.setEv f).power = s.power ∧
    (s.setEv f).boot = s.boot ∧ (s.setEv f).sec = s.sec ∧ (s.setEv f).fw = s.fw ∧ (s.setEv f).audio = s.audio ∧
    (s.setEv f).mere = s.mere ∧ (s.setEv f).spring = s.spring ∧ (s.setEv f).tarn = s.tarn ∧ (s.setEv f).ports = s.ports ∧
    (s.setEv f).conv = s.conv ∧ (s.setEv f).net = s.net ∧ (s.setEv f).cku = s.cku ∧ (s.setEv f).vcp = s.vcp ∧
    (s.setEv f).scene = s.scene ∧ (s.setEv f).fab = s.fab ∧ (s.setEv f).fault = s.fault ∧ (s.setEv f).twin = s.twin ∧
    (s.setEv f).legacy = s.legacy ∧ (s.setEv f).free = s.free ∧ (s.setEv f).draws = s.draws ∧ (s.setEv f).pending = s.pending := by
  simp [State.setEv]

@[simp] theorem State.raiseTo_fields (s : State) (only : Session → Bool) (ev : Ev) (part obj val : Nat) (c : Option (List Nat)) :
    (s.raiseTo only ev part obj val c).mcc = s.mcc ∧ (s.raiseTo only ev part obj val c).dev = s.dev ∧
    (s.raiseTo only ev part obj val c).params = s.params ∧ (s.raiseTo only ev part obj val c).power = s.power ∧
    (s.raiseTo only ev part obj val c).boot = s.boot ∧ (s.raiseTo only ev part obj val c).sec = s.sec ∧
    (s.raiseTo only ev part obj val c).fw = s.fw ∧ (s.raiseTo only ev part obj val c).audio = s.audio ∧
    (s.raiseTo only ev part obj val c).mere = s.mere ∧ (s.raiseTo only ev part obj val c).spring = s.spring ∧
    (s.raiseTo only ev part obj val c).tarn = s.tarn ∧ (s.raiseTo only ev part obj val c).ports = s.ports ∧
    (s.raiseTo only ev part obj val c).conv = s.conv ∧ (s.raiseTo only ev part obj val c).net = s.net ∧
    (s.raiseTo only ev part obj val c).cku = s.cku ∧ (s.raiseTo only ev part obj val c).scene = s.scene ∧
    (s.raiseTo only ev part obj val c).fab = s.fab ∧ (s.raiseTo only ev part obj val c).fault = s.fault ∧
    (s.raiseTo only ev part obj val c).twin = s.twin ∧ (s.raiseTo only ev part obj val c).legacy = s.legacy ∧
    (s.raiseTo only ev part obj val c).free = s.free ∧ (s.raiseTo only ev part obj val c).draws = s.draws ∧ (s.raiseTo only ev part obj val c).pending = s.pending := by
  simp only [State.raiseTo]; split_ifs <;> simp

@[simp] theorem State.raise_fields (s : State) (ev : Ev) (part obj val : Nat) :
    (s.raise ev part obj val).mcc = s.mcc ∧ (s.raise ev part obj val).dev = s.dev ∧ (s.raise ev part obj val).params = s.params ∧
    (s.raise ev part obj val).power = s.power ∧ (s.raise ev part obj val).boot = s.boot ∧ (s.raise ev part obj val).sec = s.sec ∧
    (s.raise ev part obj val).fw = s.fw ∧ (s.raise ev part obj val).audio = s.audio ∧ (s.raise ev part obj val).mere = s.mere ∧
    (s.raise ev part obj val).spring = s.spring ∧ (s.raise ev part obj val).tarn = s.tarn ∧
    (s.raise ev part obj val).ports = s.ports ∧ (s.raise ev part obj val).conv = s.conv ∧ (s.raise ev part obj val).net = s.net ∧
    (s.raise ev part obj val).cku = s.cku ∧ (s.raise ev part obj val).scene = s.scene ∧ (s.raise ev part obj val).fab = s.fab ∧
    (s.raise ev part obj val).fault = s.fault ∧ (s.raise ev part obj val).twin = s.twin ∧
    (s.raise ev part obj val).legacy = s.legacy ∧ (s.raise ev part obj val).free = s.free ∧ (s.raise ev part obj val).draws = s.draws ∧
    (s.raise ev part obj val).pending = s.pending := by
  simp [State.raise]

@[simp] theorem State.raiseD_fields (s : State) (ev : Ev) (part obj : Nat) (c : List Nat) :
    (s.raiseD ev part obj c).mcc = s.mcc ∧ (s.raiseD ev part obj c).dev = s.dev ∧ (s.raiseD ev part obj c).params = s.params ∧
    (s.raiseD ev part obj c).power = s.power ∧ (s.raiseD ev part obj c).boot = s.boot ∧ (s.raiseD ev part obj c).sec = s.sec ∧
    (s.raiseD ev part obj c).fw = s.fw ∧ (s.raiseD ev part obj c).audio = s.audio ∧ (s.raiseD ev part obj c).mere = s.mere ∧
    (s.raiseD ev part obj c).spring = s.spring ∧ (s.raiseD ev part obj c).tarn = s.tarn ∧ (s.raiseD ev part obj c).ports = s.ports ∧
    (s.raiseD ev part obj c).conv = s.conv ∧ (s.raiseD ev part obj c).net = s.net ∧ (s.raiseD ev part obj c).cku = s.cku ∧
    (s.raiseD ev part obj c).scene = s.scene ∧ (s.raiseD ev part obj c).fab = s.fab ∧ (s.raiseD ev part obj c).fault = s.fault ∧
    (s.raiseD ev part obj c).twin = s.twin ∧ (s.raiseD ev part obj c).legacy = s.legacy ∧ (s.raiseD ev part obj c).free = s.free ∧ (s.raiseD ev part obj c).draws = s.draws ∧
    (s.raiseD ev part obj c).pending = s.pending := by
  simp [State.raiseD]

@[simp] theorem State.raiseTo_vcp (s : State) (only : Session → Bool) (ev : Ev) (part obj val : Nat) (c : Option (List Nat)) :
    (s.raiseTo only ev part obj val c).vcp.last = s.vcp.last ∧ (s.raiseTo only ev part obj val c).vcp.mbx = s.vcp.mbx ∧
    (s.raiseTo only ev part obj val c).vcp.owner = s.vcp.owner ∧ (s.raiseTo only ev part obj val c).vcp.inbox = s.vcp.inbox ∧
    (s.raiseTo only ev part obj val c).vcp.partials = s.vcp.partials ∧ (s.raiseTo only ev part obj val c).vcp.fails = s.vcp.fails ∧
    (s.raiseTo only ev part obj val c).vcp.blocked = s.vcp.blocked ∧
    (s.raiseTo only ev part obj val c).vcp.channels = s.vcp.channels ∧ (s.raiseTo only ev part obj val c).vcp.pushes = s.vcp.pushes ∧
    (s.raiseTo only ev part obj val c).vcp.held = s.vcp.held ∧ (s.raiseTo only ev part obj val c).vcp.authFail = s.vcp.authFail := by
  simp only [State.raiseTo]; split_ifs <;> simp

@[simp] theorem State.raise_vcp (s : State) (ev : Ev) (part obj val : Nat) :
    (s.raise ev part obj val).vcp.last = s.vcp.last ∧ (s.raise ev part obj val).vcp.mbx = s.vcp.mbx ∧
    (s.raise ev part obj val).vcp.owner = s.vcp.owner ∧ (s.raise ev part obj val).vcp.inbox = s.vcp.inbox ∧
    (s.raise ev part obj val).vcp.partials = s.vcp.partials ∧ (s.raise ev part obj val).vcp.fails = s.vcp.fails ∧
    (s.raise ev part obj val).vcp.blocked = s.vcp.blocked ∧ (s.raise ev part obj val).vcp.channels = s.vcp.channels ∧
    (s.raise ev part obj val).vcp.pushes = s.vcp.pushes ∧ (s.raise ev part obj val).vcp.held = s.vcp.held ∧
    (s.raise ev part obj val).vcp.authFail = s.vcp.authFail := by
  simp [State.raise]

@[simp] theorem State.raiseD_vcp (s : State) (ev : Ev) (part obj : Nat) (c : List Nat) :
    (s.raiseD ev part obj c).vcp.last = s.vcp.last ∧ (s.raiseD ev part obj c).vcp.mbx = s.vcp.mbx ∧
    (s.raiseD ev part obj c).vcp.owner = s.vcp.owner ∧ (s.raiseD ev part obj c).vcp.inbox = s.vcp.inbox ∧
    (s.raiseD ev part obj c).vcp.partials = s.vcp.partials ∧ (s.raiseD ev part obj c).vcp.fails = s.vcp.fails ∧
    (s.raiseD ev part obj c).vcp.blocked = s.vcp.blocked ∧ (s.raiseD ev part obj c).vcp.channels = s.vcp.channels ∧
    (s.raiseD ev part obj c).vcp.pushes = s.vcp.pushes ∧ (s.raiseD ev part obj c).vcp.held = s.vcp.held ∧
    (s.raiseD ev part obj c).vcp.authFail = s.vcp.authFail := by
  simp [State.raiseD]

/-! ### Requests and replies -/

@[simp] theorem State.updSession_fields (s : State) (sid : Nat) (f : Session → Session) :
    (s.updSession sid f).mcc = s.mcc ∧ (s.updSession sid f).dev = s.dev ∧ (s.updSession sid f).params = s.params ∧
    (s.updSession sid f).power = s.power ∧ (s.updSession sid f).boot = s.boot ∧ (s.updSession sid f).sec = s.sec ∧
    (s.updSession sid f).fw = s.fw ∧ (s.updSession sid f).audio = s.audio ∧ (s.updSession sid f).mere = s.mere ∧
    (s.updSession sid f).spring = s.spring ∧ (s.updSession sid f).tarn = s.tarn ∧ (s.updSession sid f).ports = s.ports ∧
    (s.updSession sid f).conv = s.conv ∧ (s.updSession sid f).net = s.net ∧ (s.updSession sid f).cku = s.cku ∧
    (s.updSession sid f).ev = s.ev ∧ (s.updSession sid f).scene = s.scene ∧ (s.updSession sid f).fab = s.fab ∧
    (s.updSession sid f).fault = s.fault ∧ (s.updSession sid f).twin = s.twin ∧ (s.updSession sid f).legacy = s.legacy ∧
    (s.updSession sid f).free = s.free ∧ (s.updSession sid f).draws = s.draws ∧ (s.updSession sid f).pending = s.pending := by
  simp [State.updSession]

@[simp] theorem State.updSession_vcp (s : State) (sid : Nat) (f : Session → Session) :
    (s.updSession sid f).vcp.last = s.vcp.last ∧ (s.updSession sid f).vcp.mbx = s.vcp.mbx ∧
    (s.updSession sid f).vcp.owner = s.vcp.owner ∧ (s.updSession sid f).vcp.inbox = s.vcp.inbox ∧
    (s.updSession sid f).vcp.partials = s.vcp.partials ∧ (s.updSession sid f).vcp.fails = s.vcp.fails ∧
    (s.updSession sid f).vcp.blocked = s.vcp.blocked ∧ (s.updSession sid f).vcp.channels = s.vcp.channels ∧
    (s.updSession sid f).vcp.pushes = s.vcp.pushes ∧ (s.updSession sid f).vcp.held = s.vcp.held ∧
    (s.updSession sid f).vcp.authFail = s.vcp.authFail := by
  simp [State.updSession]

@[simp] theorem State.updChannel_fields (s : State) (c : Nat) (f : Channel → Channel) :
    (s.updChannel c f).mcc = s.mcc ∧ (s.updChannel c f).dev = s.dev ∧ (s.updChannel c f).params = s.params ∧
    (s.updChannel c f).power = s.power ∧ (s.updChannel c f).boot = s.boot ∧ (s.updChannel c f).sec = s.sec ∧
    (s.updChannel c f).fw = s.fw ∧ (s.updChannel c f).audio = s.audio ∧ (s.updChannel c f).mere = s.mere ∧
    (s.updChannel c f).spring = s.spring ∧ (s.updChannel c f).tarn = s.tarn ∧ (s.updChannel c f).ports = s.ports ∧
    (s.updChannel c f).conv = s.conv ∧ (s.updChannel c f).net = s.net ∧ (s.updChannel c f).cku = s.cku ∧
    (s.updChannel c f).ev = s.ev ∧ (s.updChannel c f).scene = s.scene ∧ (s.updChannel c f).fab = s.fab ∧
    (s.updChannel c f).fault = s.fault ∧ (s.updChannel c f).twin = s.twin ∧ (s.updChannel c f).legacy = s.legacy ∧
    (s.updChannel c f).free = s.free ∧ (s.updChannel c f).draws = s.draws ∧ (s.updChannel c f).pending = s.pending := by
  simp [State.updChannel]

@[simp] theorem State.updChannel_vcp (s : State) (c : Nat) (f : Channel → Channel) :
    (s.updChannel c f).vcp.last = s.vcp.last ∧ (s.updChannel c f).vcp.mbx = s.vcp.mbx ∧ (s.updChannel c f).vcp.owner = s.vcp.owner ∧
    (s.updChannel c f).vcp.inbox = s.vcp.inbox ∧ (s.updChannel c f).vcp.partials = s.vcp.partials ∧
    (s.updChannel c f).vcp.fails = s.vcp.fails ∧ (s.updChannel c f).vcp.blocked = s.vcp.blocked ∧
    (s.updChannel c f).vcp.pushes = s.vcp.pushes ∧ (s.updChannel c f).vcp.held = s.vcp.held ∧
    (s.updChannel c f).vcp.authFail = s.vcp.authFail ∧ (s.updChannel c f).vcp.sessions = s.vcp.sessions := by
  simp [State.updChannel]

@[simp] theorem State.toUdp_fields (s : State) (o : Origin) (l : List (List Nat)) :
    (s.toUdp o l).mcc = s.mcc ∧ (s.toUdp o l).dev = s.dev ∧ (s.toUdp o l).params = s.params ∧
    (s.toUdp o l).power = s.power ∧ (s.toUdp o l).boot = s.boot ∧ (s.toUdp o l).sec = s.sec ∧
    (s.toUdp o l).fw = s.fw ∧ (s.toUdp o l).audio = s.audio ∧ (s.toUdp o l).mere = s.mere ∧
    (s.toUdp o l).spring = s.spring ∧ (s.toUdp o l).tarn = s.tarn ∧ (s.toUdp o l).ports = s.ports ∧
    (s.toUdp o l).conv = s.conv ∧ (s.toUdp o l).net = s.net ∧ (s.toUdp o l).cku = s.cku ∧
    (s.toUdp o l).ev = s.ev ∧ (s.toUdp o l).scene = s.scene ∧ (s.toUdp o l).fab = s.fab ∧
    (s.toUdp o l).fault = s.fault ∧ (s.toUdp o l).twin = s.twin ∧ (s.toUdp o l).legacy = s.legacy ∧
    (s.toUdp o l).free = s.free ∧ (s.toUdp o l).draws = s.draws ∧ (s.toUdp o l).pending = s.pending := by
  cases o <;> simp [State.toUdp]

@[simp] theorem State.toUdp_vcp (s : State) (o : Origin) (l : List (List Nat)) :
    (s.toUdp o l).vcp.mbx = s.vcp.mbx ∧ (s.toUdp o l).vcp.owner = s.vcp.owner ∧
    (s.toUdp o l).vcp.inbox = s.vcp.inbox ∧ (s.toUdp o l).vcp.partials = s.vcp.partials ∧
    (s.toUdp o l).vcp.fails = s.vcp.fails ∧ (s.toUdp o l).vcp.blocked = s.vcp.blocked ∧
    (s.toUdp o l).vcp.pushes = s.vcp.pushes ∧ (s.toUdp o l).vcp.held = s.vcp.held ∧
    (s.toUdp o l).vcp.authFail = s.vcp.authFail ∧ (s.toUdp o l).vcp.sessions = s.vcp.sessions ∧
    (s.toUdp o l).vcp.last = s.vcp.last := by
  cases o <;> simp [State.toUdp]

@[simp] theorem State.forget_fields (s : State) (r : Req) :
    (s.forget r).mcc = s.mcc ∧ (s.forget r).dev = s.dev ∧ (s.forget r).params = s.params ∧ (s.forget r).power = s.power ∧
    (s.forget r).boot = s.boot ∧ (s.forget r).sec = s.sec ∧ (s.forget r).fw = s.fw ∧ (s.forget r).audio = s.audio ∧
    (s.forget r).mere = s.mere ∧ (s.forget r).spring = s.spring ∧ (s.forget r).tarn = s.tarn ∧ (s.forget r).ports = s.ports ∧
    (s.forget r).conv = s.conv ∧ (s.forget r).net = s.net ∧ (s.forget r).cku = s.cku ∧ (s.forget r).ev = s.ev ∧
    (s.forget r).scene = s.scene ∧ (s.forget r).fab = s.fab ∧ (s.forget r).fault = s.fault ∧ (s.forget r).twin = s.twin ∧
    (s.forget r).legacy = s.legacy ∧ (s.forget r).free = s.free ∧ (s.forget r).draws = s.draws ∧ (s.forget r).pending = s.pending := by
  simp [State.forget]

@[simp] theorem State.forget_vcp (s : State) (r : Req) :
    (s.forget r).vcp.mbx = s.vcp.mbx ∧ (s.forget r).vcp.owner = s.vcp.owner ∧ (s.forget r).vcp.inbox = s.vcp.inbox ∧
    (s.forget r).vcp.partials = s.vcp.partials ∧ (s.forget r).vcp.fails = s.vcp.fails ∧ (s.forget r).vcp.blocked = s.vcp.blocked ∧
    (s.forget r).vcp.pushes = s.vcp.pushes ∧ (s.forget r).vcp.held = s.vcp.held ∧ (s.forget r).vcp.authFail = s.vcp.authFail ∧
    (s.forget r).vcp.sessions = s.vcp.sessions ∧ (s.forget r).vcp.last = s.vcp.last ∧ (s.forget r).vcp.channels = s.vcp.channels ∧
    (s.forget r).vcp.out = s.vcp.out ∧ (s.forget r).vcp.summaries = s.vcp.summaries := by
  simp [State.forget]

@[simp] theorem State.sendTo_fields (s : State) (o : Origin) (k : Keys) (rep : Machine.Reply) :
    (s.sendTo o k rep).mcc = s.mcc ∧ (s.sendTo o k rep).dev = s.dev ∧ (s.sendTo o k rep).params = s.params ∧
    (s.sendTo o k rep).power = s.power ∧ (s.sendTo o k rep).boot = s.boot ∧ (s.sendTo o k rep).sec = s.sec ∧
    (s.sendTo o k rep).fw = s.fw ∧ (s.sendTo o k rep).audio = s.audio ∧ (s.sendTo o k rep).mere = s.mere ∧
    (s.sendTo o k rep).spring = s.spring ∧ (s.sendTo o k rep).tarn = s.tarn ∧ (s.sendTo o k rep).ports = s.ports ∧
    (s.sendTo o k rep).conv = s.conv ∧ (s.sendTo o k rep).net = s.net ∧ (s.sendTo o k rep).cku = s.cku ∧ (s.sendTo o k rep).ev = s.ev ∧
    (s.sendTo o k rep).scene = s.scene ∧ (s.sendTo o k rep).fab = s.fab ∧ (s.sendTo o k rep).fault = s.fault ∧
    (s.sendTo o k rep).twin = s.twin ∧ (s.sendTo o k rep).legacy = s.legacy ∧ (s.sendTo o k rep).free = s.free ∧
    (s.sendTo o k rep).draws = s.draws ∧ (s.sendTo o k rep).pending = s.pending := by
  cases o <;> simp [State.sendTo]

@[simp] theorem State.sendTo_vcp (s : State) (o : Origin) (k : Keys) (rep : Machine.Reply) :
    (s.sendTo o k rep).vcp.mbx = s.vcp.mbx ∧ (s.sendTo o k rep).vcp.owner = s.vcp.owner ∧ (s.sendTo o k rep).vcp.inbox = s.vcp.inbox ∧
    (s.sendTo o k rep).vcp.partials = s.vcp.partials ∧ (s.sendTo o k rep).vcp.fails = s.vcp.fails ∧
    (s.sendTo o k rep).vcp.blocked = s.vcp.blocked ∧ (s.sendTo o k rep).vcp.pushes = s.vcp.pushes ∧
    (s.sendTo o k rep).vcp.held = s.vcp.held ∧ (s.sendTo o k rep).vcp.authFail = s.vcp.authFail ∧
    (s.sendTo o k rep).vcp.sessions = s.vcp.sessions := by
  cases o <;> simp [State.sendTo]

@[simp] theorem State.send_fields (s : State) (x : Session) (rep : Machine.Reply) :
    (s.send x rep).mcc = s.mcc ∧ (s.send x rep).dev = s.dev ∧ (s.send x rep).params = s.params ∧ (s.send x rep).power = s.power ∧
    (s.send x rep).boot = s.boot ∧ (s.send x rep).sec = s.sec ∧ (s.send x rep).fw = s.fw ∧ (s.send x rep).audio = s.audio ∧
    (s.send x rep).mere = s.mere ∧ (s.send x rep).spring = s.spring ∧ (s.send x rep).tarn = s.tarn ∧ (s.send x rep).ports = s.ports ∧
    (s.send x rep).conv = s.conv ∧ (s.send x rep).net = s.net ∧ (s.send x rep).cku = s.cku ∧ (s.send x rep).ev = s.ev ∧
    (s.send x rep).scene = s.scene ∧ (s.send x rep).fab = s.fab ∧ (s.send x rep).fault = s.fault ∧ (s.send x rep).twin = s.twin ∧
    (s.send x rep).legacy = s.legacy ∧ (s.send x rep).free = s.free ∧ (s.send x rep).draws = s.draws ∧ (s.send x rep).pending = s.pending := by
  simp [State.send]

@[simp] theorem State.send_vcp (s : State) (x : Session) (rep : Machine.Reply) :
    (s.send x rep).vcp.mbx = s.vcp.mbx ∧ (s.send x rep).vcp.owner = s.vcp.owner ∧ (s.send x rep).vcp.inbox = s.vcp.inbox ∧
    (s.send x rep).vcp.partials = s.vcp.partials ∧ (s.send x rep).vcp.fails = s.vcp.fails ∧
    (s.send x rep).vcp.blocked = s.vcp.blocked ∧ (s.send x rep).vcp.pushes = s.vcp.pushes ∧ (s.send x rep).vcp.held = s.vcp.held ∧
    (s.send x rep).vcp.authFail = s.vcp.authFail ∧ (s.send x rep).vcp.sessions = s.vcp.sessions := by
  simp [State.send]

@[simp] theorem State.reply_fields (s : State) (r : Req) (cmd : Nat) (a : Ans) :
    (s.reply r cmd a).mcc = s.mcc ∧ (s.reply r cmd a).dev = s.dev ∧ (s.reply r cmd a).params = s.params ∧
    (s.reply r cmd a).power = s.power ∧ (s.reply r cmd a).boot = s.boot ∧ (s.reply r cmd a).sec = s.sec ∧
    (s.reply r cmd a).fw = s.fw ∧ (s.reply r cmd a).audio = s.audio ∧ (s.reply r cmd a).mere = s.mere ∧
    (s.reply r cmd a).spring = s.spring ∧ (s.reply r cmd a).tarn = s.tarn ∧ (s.reply r cmd a).ports = s.ports ∧
    (s.reply r cmd a).conv = s.conv ∧ (s.reply r cmd a).net = s.net ∧ (s.reply r cmd a).cku = s.cku ∧ (s.reply r cmd a).ev = s.ev ∧
    (s.reply r cmd a).scene = s.scene ∧ (s.reply r cmd a).fab = s.fab ∧ (s.reply r cmd a).fault = s.fault ∧
    (s.reply r cmd a).twin = s.twin ∧ (s.reply r cmd a).legacy = s.legacy ∧ (s.reply r cmd a).free = s.free ∧ (s.reply r cmd a).draws = s.draws ∧
    (s.reply r cmd a).pending = s.pending := by
  simp only [State.reply]; split <;> simp

@[simp] theorem State.reply_vcp (s : State) (r : Req) (cmd : Nat) (a : Ans) :
    (s.reply r cmd a).vcp.mbx = s.vcp.mbx ∧ (s.reply r cmd a).vcp.owner = s.vcp.owner ∧ (s.reply r cmd a).vcp.inbox = s.vcp.inbox ∧
    (s.reply r cmd a).vcp.partials = s.vcp.partials ∧ (s.reply r cmd a).vcp.fails = s.vcp.fails ∧
    (s.reply r cmd a).vcp.blocked = s.vcp.blocked ∧ (s.reply r cmd a).vcp.pushes = s.vcp.pushes ∧
    (s.reply r cmd a).vcp.held = s.vcp.held ∧ (s.reply r cmd a).vcp.authFail = s.vcp.authFail := by
  simp only [State.reply]; split <;> simp

@[simp] theorem State.unbox_fields (s : State) (r : Req) :
    (s.unbox r).mcc = s.mcc ∧ (s.unbox r).dev = s.dev ∧ (s.unbox r).params = s.params ∧ (s.unbox r).power = s.power ∧
    (s.unbox r).boot = s.boot ∧ (s.unbox r).sec = s.sec ∧ (s.unbox r).fw = s.fw ∧ (s.unbox r).audio = s.audio ∧
    (s.unbox r).mere = s.mere ∧ (s.unbox r).spring = s.spring ∧ (s.unbox r).tarn = s.tarn ∧ (s.unbox r).ports = s.ports ∧
    (s.unbox r).conv = s.conv ∧ (s.unbox r).net = s.net ∧ (s.unbox r).cku = s.cku ∧ (s.unbox r).ev = s.ev ∧
    (s.unbox r).scene = s.scene ∧ (s.unbox r).fab = s.fab ∧ (s.unbox r).fault = s.fault ∧ (s.unbox r).twin = s.twin ∧
    (s.unbox r).legacy = s.legacy ∧ (s.unbox r).free = s.free ∧ (s.unbox r).draws = s.draws ∧ (s.unbox r).pending = s.pending := by
  simp [State.unbox]

@[simp] theorem State.unbox_vcp (s : State) (r : Req) :
    (s.unbox r).vcp.last = s.vcp.last ∧ (s.unbox r).vcp.mbx = s.vcp.mbx ∧ (s.unbox r).vcp.owner = s.vcp.owner ∧
    (s.unbox r).vcp.partials = s.vcp.partials ∧ (s.unbox r).vcp.fails = s.vcp.fails ∧ (s.unbox r).vcp.blocked = s.vcp.blocked ∧
    (s.unbox r).vcp.channels = s.vcp.channels ∧ (s.unbox r).vcp.pushes = s.vcp.pushes ∧ (s.unbox r).vcp.held = s.vcp.held ∧
    (s.unbox r).vcp.authFail = s.vcp.authFail ∧ (s.unbox r).vcp.sessions = s.vcp.sessions := by
  simp [State.unbox]


/-- What a change of the event registers leaves in them. -/
theorem State.setEv_ev (s : State) (f : EvG → EvG) :
    (s.setEv f).ev = { f s.ev with msi := msiKept (s.ev.msi ++ EvG.rises s.ev (f s.ev) s.cap.legacy) } := rfl

/-- What an occurrence leaves in the event registers and the sessions depends on nothing but them, the MCC and the legacy flag. -/
theorem State.raiseTo_congr (s t : State) (only : Session → Bool) (ev : Ev) (part obj val : Nat) (c : Option (List Nat))
    (he : t.ev = s.ev) (hv : t.vcp.sessions = s.vcp.sessions) (hm : t.mcc = s.mcc) (hc : t.cap.legacy = s.cap.legacy) :
    (t.raiseTo only ev part obj val c).ev = (s.raiseTo only ev part obj val c).ev ∧
    (t.raiseTo only ev part obj val c).vcp.sessions = (s.raiseTo only ev part obj val c).vcp.sessions := by
  simp only [State.cap, State.fam, State.prof, State.shape, State.word] at hc
  simp only [State.raiseTo, he, hm, State.setEv_fields, hv]
  split_ifs <;>
    simp only [State.setEv_ev, State.setEv_fields, he, hc, State.cap, State.fam, State.prof, State.shape, State.word, and_self]

/-- An occurrence raised after changes elsewhere tells what it tells in the state before them. -/
theorem State.raise_told (s u : State) (ev : Ev) (part obj val : Nat) (he : u.ev = s.ev) (hv : u.vcp.sessions = s.vcp.sessions)
    (hm : u.mcc = s.mcc) (hc : u.cap.legacy = s.cap.legacy) : s.told (u.raise ev part obj val) ev part obj val :=
  State.raiseTo_congr s u _ ev part obj val none he hv hm hc

/-- The same with a detail entry. -/
theorem State.raiseD_told (s u : State) (ev : Ev) (part obj : Nat) (c : List Nat) (he : u.ev = s.ev)
    (hv : u.vcp.sessions = s.vcp.sessions) (hm : u.mcc = s.mcc) (hc : u.cap.legacy = s.cap.legacy) :
    s.toldD (u.raiseD ev part obj c) ev part obj c :=
  State.raiseTo_congr s u _ ev part obj 0 (some c) he hv hm hc

/-! ### Frames -/

/-- A frame, part by part. -/
theorem State.frame_iff (s t : State) (l : List Part) : s.frame t l ↔
    (Part.mcc ∈ l ∨ Part.mcc.same s t) ∧ (Part.dev ∈ l ∨ Part.dev.same s t) ∧ (Part.params ∈ l ∨ Part.params.same s t) ∧
    (Part.power ∈ l ∨ Part.power.same s t) ∧ (Part.boot ∈ l ∨ Part.boot.same s t) ∧ (Part.sec ∈ l ∨ Part.sec.same s t) ∧
    (Part.fw ∈ l ∨ Part.fw.same s t) ∧ (Part.flash ∈ l ∨ Part.flash.same s t) ∧ (Part.audio ∈ l ∨ Part.audio.same s t) ∧
    (Part.mere ∈ l ∨ Part.mere.same s t) ∧ (Part.spring ∈ l ∨ Part.spring.same s t) ∧ (Part.tarn ∈ l ∨ Part.tarn.same s t) ∧
    (Part.ports ∈ l ∨ Part.ports.same s t) ∧ (Part.conv ∈ l ∨ Part.conv.same s t) ∧ (Part.net ∈ l ∨ Part.net.same s t) ∧
    (Part.cku ∈ l ∨ Part.cku.same s t) ∧ (Part.sessions ∈ l ∨ Part.sessions.same s t) ∧
    (Part.mailbox ∈ l ∨ Part.mailbox.same s t) ∧ (Part.vcp ∈ l ∨ Part.vcp.same s t) ∧ (Part.ev ∈ l ∨ Part.ev.same s t) ∧
    (Part.scene ∈ l ∨ Part.scene.same s t) ∧ (Part.mstore ∈ l ∨ Part.mstore.same s t) ∧ (Part.fab ∈ l ∨ Part.fab.same s t) ∧
    (Part.memories ∈ l ∨ Part.memories.same s t) ∧ (Part.fault ∈ l ∨ Part.fault.same s t) ∧
    (Part.twin ∈ l ∨ Part.twin.same s t) ∧ (Part.legacy ∈ l ∨ Part.legacy.same s t) ∧ (Part.free ∈ l ∨ Part.free.same s t) ∧
    (Part.draws ∈ l ∨ Part.draws.same s t) ∧
    (Part.pending ∈ l ∨ Part.pending.same s t) := by
  constructor
  · intro h
    refine ⟨?_, ?_, ?_, ?_, ?_, ?_, ?_, ?_, ?_, ?_, ?_, ?_, ?_, ?_, ?_, ?_, ?_, ?_, ?_, ?_, ?_, ?_, ?_, ?_, ?_, ?_, ?_, ?_, ?_, ?_⟩ <;> exact or_iff_not_imp_left.2 (h _)
  · rintro ⟨h0, h1, h2, h3, h4, h5, h6, h7, h8, h9, h10, h11, h12, h13, h14, h15, h16, h17, h18, h19, h20, h21, h22, h23, h24, h25, h26, h27, h28, h29⟩ p hp
    cases p <;> simp_all

/-- A change made of two changes touches what either touches. -/
theorem State.frame_trans {s t u : State} {a b : List Part} (h : s.frame t a) (k : t.frame u b) : s.frame u (a ++ b) := by
  intro p hp
  have h1 := h p (fun m => hp (List.mem_append_left _ m))
  have h2 := k p (fun m => hp (List.mem_append_right _ m))
  cases p <;> simp_all [Part.same]

/-- No change touches nothing. -/
theorem State.frame_refl (s : State) (l : List Part) : s.frame s l := by
  intro p _
  cases p <;> simp [Part.same]

end Sys2Proof.Machine
end

