-- ==== Sys2Proof/Laws/Serve.lean ====
section
/-! SUPPORT. Sys2Proof/Laws/Serve.lean: what serving a request and replying to it do (R304, R314, R319). -/
namespace Sys2Proof.Machine

/-- An admitted request runs its command's action in the state that has taken it, and its answer leaves. -/
theorem State.serve_admits {s : State} {r : Req} {need : Nat} {x : Session} (h : s.admits r need x) (cmd : Nat)
    (act : Session → State → State × Option Ans) :
    s.serve r cmd need act = match act (x.accept r.seq) (s.admitted r) with
      | (u, some a) => u.reply r cmd a
      | (u, none) => u := by
  obtain ⟨h1, ht, h2, ⟨h3, h4⟩, h5, h6, h7⟩ := h
  have e : (s.unbox r).session? r.sid = s.session? r.sid := rfl
  have n1 : ¬ (0xFFFFFFFF < r.seq ∨ r.seq = 0) := by omega
  have n2 : ¬ (16 ≤ x.progress.length) := by omega
  have n3 : ¬ (need < x.role) := by omega
  simp only [State.serve, h1, ht, Bool.not_true, Bool.or_self, Bool.false_eq_true, if_false, e, h2, n1, h5, n2, n3, State.admitted, State.unbox_fields]
  all_goals rfl

/-- Taking a request changes its session's entry and the queue of whole requests. -/
theorem State.admitted_frame (s : State) (r : Req) : s.frame (s.admitted r) replyParts := by
  simp [State.frame_iff, Part.same, replyParts, State.admitted]

@[simp] theorem State.admitted_fields (s : State) (r : Req) :
    (s.admitted r).mcc = s.mcc ∧ (s.admitted r).dev = s.dev ∧ (s.admitted r).params = s.params ∧ (s.admitted r).power = s.power ∧
    (s.admitted r).boot = s.boot ∧ (s.admitted r).sec = s.sec ∧ (s.admitted r).fw = s.fw ∧ (s.admitted r).audio = s.audio ∧
    (s.admitted r).mere = s.mere ∧ (s.admitted r).spring = s.spring ∧ (s.admitted r).tarn = s.tarn ∧ (s.admitted r).ports = s.ports ∧
    (s.admitted r).conv = s.conv ∧ (s.admitted r).net = s.net ∧ (s.admitted r).cku = s.cku ∧ (s.admitted r).ev = s.ev ∧
    (s.admitted r).scene = s.scene ∧ (s.admitted r).fab = s.fab ∧ (s.admitted r).fault = s.fault ∧ (s.admitted r).twin = s.twin ∧
    (s.admitted r).legacy = s.legacy ∧ (s.admitted r).free = s.free ∧ (s.admitted r).draws = s.draws ∧ (s.admitted r).pending = s.pending := by
  simp [State.admitted]

@[simp] theorem State.admitted_vcp (s : State) (r : Req) :
    (s.admitted r).vcp.last = s.vcp.last ∧ (s.admitted r).vcp.mbx = s.vcp.mbx ∧ (s.admitted r).vcp.owner = s.vcp.owner ∧
    (s.admitted r).vcp.partials = s.vcp.partials ∧ (s.admitted r).vcp.fails = s.vcp.fails ∧
    (s.admitted r).vcp.blocked = s.vcp.blocked ∧ (s.admitted r).vcp.channels = s.vcp.channels ∧
    (s.admitted r).vcp.pushes = s.vcp.pushes ∧ (s.admitted r).vcp.held = s.vcp.held ∧
    (s.admitted r).vcp.authFail = s.vcp.authFail := by
  simp [State.admitted]

/-- A request's session keeps its number, role, mask, keys and queue when it takes the request. -/
@[simp] theorem Session.accept_fields (x : Session) (n : Nat) :
    (x.accept n).sid = x.sid ∧ (x.accept n).role = x.role ∧ (x.accept n).mask = x.mask ∧ (x.accept n).ks = x.ks ∧
    (x.accept n).queue = x.queue ∧ (x.accept n).cred = x.cred ∧ (x.accept n).origin = x.origin ∧ (x.accept n).meters = x.meters := by
  simp [Session.accept]

/-- A session found by its number has it. -/
theorem State.session?_sid {s : State} {i : Nat} {x : Session} (h : s.session? i = some x) : x.sid = i := by
  simpa using List.find?_some h

/-- A stage set found by its id has it. -/
theorem State.stageSet?_id {s : State} {i : Nat} {x : StageSet} (h : s.stageSet? i = some x) : x.id = i := by
  simpa using List.find?_some h

/-- A reply leaves as the latest reply. -/
theorem State.reply_answers (u : State) (r : Req) (cmd : Nat) (a : Ans) :
    (u.reply r cmd a).answers r cmd a.fits.status a.fits.detail a.fits.items := by
  simp only [State.reply, State.answers]
  split
  · simp only [State.send, State.sendTo]; split <;> simp
  · simp

/-- Replying changes the session's entry and the reply machinery only. -/
theorem State.reply_frame (u : State) (r : Req) (cmd : Nat) (a : Ans) : u.frame (u.reply r cmd a) replyParts := by
  simp [State.frame_iff, Part.same, replyParts]

/-- An answer without items fits. -/
@[simp] theorem Ans.fits_nil (e d : Nat) : (Ans.mk e d []).fits = ⟨e, d, []⟩ := by
  simp [Ans.fits, itemsSize, replyMax, statusSize]

/-- An answer whose items fit. -/
theorem Ans.fits_of {e d : Nat} {l : List Item} (h : itemsFit l) : (Ans.mk e d l).fits = ⟨e, d, l⟩ := by
  have h' : itemsSize l ≤ replyMax - statusSize := h
  simp only [Ans.fits, h', if_true]

/-- An action that answers at once without changing anything: a read, or a refusal. -/
theorem State.serve_same {s : State} {r : Req} {need : Nat} {x : Session} (h : s.admits r need x) (cmd : Nat)
    (act : Session → State → State × Option Ans) (a : Ans) (ha : act (x.accept r.seq) (s.admitted r) = (s.admitted r, some a)) :
    (s.serve r cmd need act).answers r cmd a.fits.status a.fits.detail a.fits.items ∧
      s.frame (s.serve r cmd need act) replyParts := by
  rw [State.serve_admits h, ha]
  have f := State.frame_trans (State.admitted_frame s r) (State.reply_frame (s.admitted r) r cmd a)
  exact ⟨State.reply_answers _ _ _ _, fun p hp => f p (by simpa using hp)⟩

/-- A read whose answer fits. -/
theorem State.serveRead_reads {s : State} {r : Req} {need : Nat} {x : Session} (h : s.admits r need x) (cmd : Nat) (items : List Item)
    (f : Session → State → Option Ans) (hf : f (x.accept r.seq) (s.admitted r) = Ans.good items) (hi : itemsFit items) :
    (s.serveRead r cmd need f).answers r cmd 0 0 items ∧ s.frame (s.serveRead r cmd need f) replyParts := by
  have e := State.serve_same h cmd (fun x s => (s, f x s)) ⟨0, 0, items⟩ (by simp [hf, Ans.good, Err.ok])
  rw [Ans.fits_of hi] at e
  exact e

/-- Reading an engine after writing one. -/
theorem State.eng_setEng (s : State) (e j : Nat) (x : Engine) (h : e < 17) : (s.setEng e x).eng j = if j = e then x else s.eng j := by
  unfold State.eng State.setEng
  by_cases hj : j = e
  · subst hj; simp [State.setTarn, Vector.getElem?_setIfInBounds, h]
  · simp [State.setTarn, Vector.getElem?_setIfInBounds, hj, Ne.symm hj]

/-- A stage of a transition stored: the group that holds it changes, and no other. -/
theorem State.setStage_frame (s : State) (h : Nat) (st : Stage) : s.frame (s.setStage h st) [.audio, .mere, .spring, .conv, .legacy] := by
  unfold State.setStage
  split <;> simp [State.frame_iff, Part.same, State.setSpringStage, State.updDec, State.setLegStage]
  all_goals (repeat' split) <;> simp [State.frame_iff, Part.same, State.updOut]

end Sys2Proof.Machine
end

