-- ==== Sys2Proof/Laws/Sets.lean ====
section
/-! SUPPORT. Sys2Proof/Laws/Sets.lean: stage sets read back after a change of one of them. -/
namespace Sys2Proof.Machine

/-- The lookup in a list of sets of which one was changed. -/
theorem find_updSet (l : List StageSet) (id j : Nat) (f : StageSet → StageSet) (hf : ∀ x, x.id = id → (f x).id = id) :
    (l.map (fun x => if x.id = id then f x else x)).find? (fun x => decide (x.id = j)) =
      if j = id then (l.find? (fun x => decide (x.id = id))).map f else l.find? (fun x => decide (x.id = j)) := by
  induction l with
  | nil => simp
  | cons a l ih =>
    simp only [List.map_cons, List.find?_cons]
    by_cases h1 : a.id = id
    · simp only [h1, if_true, hf a h1]
      by_cases hj : j = id
      · simp [hj]
      · simp [Ne.symm hj, ih, hj]
    · simp only [h1, if_false]
      by_cases hj : j = id
      · subst hj; simp [h1, ih]
      · simp only [hj, if_false] at ih ⊢
        rw [ih]

/-- A set read after a change of one set. -/
theorem State.stageSet?_updSet (s : State) (id j : Nat) (f : StageSet → StageSet) (hf : ∀ x, x.id = id → (f x).id = id) :
    (s.updSet id f).stageSet? j = if j = id then (s.stageSet? id).map f else s.stageSet? j := by
  simp only [State.stageSet?, State.updSet, State.setScene_fields]
  exact find_updSet _ _ _ _ hf

@[simp] theorem State.updSet_fields (s : State) (id : Nat) (f : StageSet → StageSet) :
    (s.updSet id f).scene = { s.scene with sets := s.scene.sets.map (fun x => if x.id = id then f x else x) } ∧
      (s.updSet id f).mcc = s.mcc ∧ (s.updSet id f).vcp = s.vcp ∧ (s.updSet id f).boot = s.boot ∧ (s.updSet id f).ev = s.ev ∧
      (s.updSet id f).mere = s.mere ∧ (s.updSet id f).twin = s.twin := by
  simp [State.updSet]

@[simp] theorem State.stageSet?_reply (u : State) (r : Req) (cmd : Nat) (a : Ans) (j : Nat) :
    (u.reply r cmd a).stageSet? j = u.stageSet? j := by simp [State.stageSet?]

@[simp] theorem State.stageSet?_admitted (s : State) (r : Req) (id : Nat) : (s.admitted r).stageSet? id = s.stageSet? id := by
  simp [State.stageSet?]

@[simp] theorem State.audioServed_admitted (s : State) (r : Req) : (s.admitted r).audioServed = s.audioServed := by
  simp [State.audioServed]

/-- A set that was opened now. -/
theorem State.stageSet?_openSet (s : State) (sid : Nat) (a : Attrs) :
    (s.openSet sid a).1.stageSet? (s.openSet sid a).2 = some (StageSet.fresh (s.openSet sid a).2 sid a) := by
  simp only [State.openSet, State.stageSet?, State.setScene_fields, List.find?_append]
  rw [List.find?_eq_none.2 (by intro x hx; simp at hx ⊢; exact decide_eq_false hx.2)]
  simp [StageSet.fresh]

/-- The other sets stay when one is opened. -/
theorem State.stageSet?_openSet_other (s : State) (sid j : Nat) (a : Attrs) (h : j ≠ (s.openSet sid a).2) :
    (s.openSet sid a).1.stageSet? j = s.stageSet? j := by
  simp only [State.openSet] at h ⊢
  simp only [State.stageSet?, State.setScene_fields, List.find?_append, List.find?_filter]
  have e : ∀ x : StageSet, (!decide (x.id = freeId s.scene.sets 33 s.scene.nextId) && decide (x.id = j)) = decide (x.id = j) := by
    intro x; by_cases hx : x.id = j
    · simp [hx, decide_eq_false h]
    · simp [hx]
  have e2 : decide ((StageSet.fresh (freeId s.scene.sets 33 s.scene.nextId) sid a).id = j) = false := by
    exact decide_eq_false (fun h' => h h'.symm)
  rw [List.find?_cons_of_neg (by simpa using e2)]
  simp [e]

/-- Rewriting the staged plane touches the matrix only. -/
theorem State.stagePlane_frame (s : State) (l : List Added) : s.frame (s.stagePlane l) [.mere] := by
  simp [State.stagePlane, State.frame_iff, Part.same]

@[simp] theorem State.stagePlane_fields (s : State) (l : List Added) :
    (s.stagePlane l).scene = s.scene ∧ (s.stagePlane l).vcp = s.vcp ∧ (s.stagePlane l).boot = s.boot ∧ (s.stagePlane l).ev = s.ev ∧
      (s.stagePlane l).mcc = s.mcc ∧ (s.stagePlane l).twin = s.twin := by
  simp [State.stagePlane]

/-- Writing a set's contents into the staged plane touches the matrix only. -/
theorem State.writePlane_frame (s : State) (id : Nat) : s.frame (s.writePlane id) [.mere] := by
  unfold State.writePlane
  split
  · exact State.frame_refl _ _
  · exact State.stagePlane_frame _ _

@[simp] theorem State.writePlane_fields (s : State) (id : Nat) :
    (s.writePlane id).scene = s.scene ∧ (s.writePlane id).vcp = s.vcp ∧ (s.writePlane id).boot = s.boot ∧ (s.writePlane id).ev = s.ev ∧
      (s.writePlane id).mcc = s.mcc ∧ (s.writePlane id).twin = s.twin := by
  unfold State.writePlane
  split <;> simp

@[simp] theorem State.stageSet?_writePlane (s : State) (id j : Nat) : (s.writePlane id).stageSet? j = s.stageSet? j := by
  simp [State.stageSet?]

/-- A set read after the plane passed to one. -/
theorem State.stageSet?_givePlane (s : State) (id j : Nat) : (s.givePlane id).stageSet? j =
    if j = id then (s.stageSet? id).map (fun x => { x with planeIn := true, waiting := false }) else s.stageSet? j := by
  unfold State.givePlane
  rw [State.stageSet?_writePlane, State.stageSet?_updSet _ _ _ _ (by simp)]
  simp [State.stageSet?]

/-- The plane passing to a set touches the matrix and the scene engine. -/
theorem State.givePlane_frame (s : State) (id : Nat) : s.frame (s.givePlane id) [.scene, .mere] := by
  have h : s.frame ((s.setScene (fun g => { g with holder := some id })).updSet id (fun x => { x with planeIn := true, waiting := false }))
      [.scene] := by simp [State.frame_iff, Part.same, State.updSet]
  exact State.frame_trans h (State.writePlane_frame _ id)

end Sys2Proof.Machine
end

