-- ==== Sys2Proof/Laws/Tarn.lean ====
section
/-! SUPPORT. Sys2Proof/Laws/Tarn.lean: what serving the waiting service requests, and what one instruction on an engine, can change. -/
namespace Sys2Proof.Machine

/-- Serving one service request changes an engine's service cycles, its debug halt and its waiting requests, and nothing else. -/
theorem State.serveCall_eq (s : State) (x : Engine) (q : Call) :
    ∃ n d l, s.serveCall x q = { x with service := n, debug := d, calls := l } := by
  unfold State.serveCall State.handled
  split
  · split <;> exact ⟨_, _, _, rfl⟩
  · split
    · split
      · split <;> exact ⟨_, _, _, rfl⟩
      · exact ⟨_, _, _, rfl⟩
    · exact ⟨_, _, _, rfl⟩

/-- Serving the waiting service requests changes the same three fields only (R186, R189). -/
theorem State.serveCalls_eq (s : State) (x : Engine) :
    ∃ n d l, s.serveCalls x = { x with service := n, debug := d, calls := l } := by
  have run : ∀ (qs : List Call) (y : Engine), ∃ n d l, qs.foldl s.serveCall y = { y with service := n, debug := d, calls := l } := by
    intro qs
    induction qs with
    | nil => exact fun y => ⟨y.service, y.debug, y.calls, rfl⟩
    | cons q qs ih =>
      intro y
      obtain ⟨n, d, l, h⟩ := s.serveCall_eq y q
      obtain ⟨n', d', l', h'⟩ := ih (s.serveCall y q)
      exact ⟨n', d', l', by rw [List.foldl_cons, h', h]⟩
  obtain ⟨n, d, l, h⟩ := run x.calls { x with calls := [] }
  exact ⟨n, d, l, h⟩

/-- With no request waiting nothing is served. -/
theorem State.serveCalls_none (s : State) (x : Engine) (h : x.calls = []) : s.serveCalls x = x := by
  unfold State.serveCalls
  rw [h]
  cases x
  subst h
  rfl

@[simp] theorem State.serveCalls_bank (s : State) (x : Engine) : Tarn.bank (s.serveCalls x) = Tarn.bank x := by
  obtain ⟨n, d, l, h⟩ := s.serveCalls_eq x
  rw [h]
  rfl

/-- What an issued instruction with a result and no bounds violation leaves: the engine of that result, its waiting requests served. -/
theorem State.runOn_some (s : State) (e : Nat) (pcOf : Engine → Nat) (f : Engine → Option Tarn.Out) (o : Tarn.Out) (he : e < 17)
    (ht : s.tarnOn = true) (hi : Tarn.canIssue (s.eng e) = true) (h : f (s.eng e) = some o) (ho : o.oob = []) :
    s.runOn e pcOf f = s.setEng e (s.serveCalls o.e) := by
  unfold State.runOn State.bounds
  rw [if_neg (by simp [he, ht, hi]), h]
  simp only [ho, List.foldl_nil]

/-- What an instruction that is illegal where it stands leaves (R174). -/
theorem State.runOn_none (s : State) (e : Nat) (pcOf : Engine → Nat) (f : Engine → Option Tarn.Out) (he : e < 17)
    (ht : s.tarnOn = true) (hi : Tarn.canIssue (s.eng e) = true) (h : f (s.eng e) = none) :
    s.runOn e pcOf f = s.illegal e (pcOf (Tarn.ready (s.eng e))) := by
  unfold State.runOn
  rw [if_neg (by simp [he, ht, hi]), h]

end Sys2Proof.Machine
end

