-- ==== Sys2Proof/Tests/Slice0.lean ====
section
/-! SUPPORT. Sys2Proof/Tests/Slice0.lean: ill-formed commands that Instr.wf refuses, and for every statement of
Sys2Proof/Certificates/Slice0/Obligations.lean concrete states and operands that meet its hypotheses, clause by clause. -/
namespace Sys2Proof.Tests

open Sys2Proof.Machine

/-! ### Small states -/

/-- A device in RUN, every power domain on, at MCC 1000, a block boundary of PR1. -/
def up : State := { State.reset with
  dev := .run, mcc := 1000
  power := { PowerG.reset with resetN := true, holdMcc := false, domains := 0xFFF } }

/-- A session of the device role over UDP, with number 1. -/
def ses : Session where
  sid := 1
  cred := 0
  role := 0
  mask := 0xFFFF
  takeover := true
  recovery := false
  origin := .udp 1 2
  enc := false
  keepMs := 0
  ks := [1]
  ke := []
  salt := []
  high := 0
  seen := []
  progress := []
  replies := []
  pushSeq := 0
  evMask := 2 ^ 256 - 1
  interval := 10
  since := 0
  ends := 0
  nextEv := 1
  queue := []
  full := false
  lost := 0
  meters := []
  ring := []
  heard := 0

/-- The first request of that session. -/
def ask : Req := { sid := 1, seq := 1 }

/-- A device in RUN that serves the session. -/
def serving : State := { up with vcp := { VcpG.reset with sessions := [ses] } }

/-- The straps of native mode, booting from flash. -/
def native : Straps := { mode := 0, boot := 0, twinEn := false, pairId := false }

theorem serving_admits (need : Nat) : serving.admits ask need ses :=
  ⟨by decide, by decide, by decide, by decide, by decide, by decide, Nat.zero_le need⟩

/-- A request of a state that holds the session is admitted for every role. -/
theorem admits_of (s : State) (need : Nat) (h : s.serves = true) (hs : s.session? 1 = some ses) (hi : s.vcp.inbox = [] := by rfl) :
    s.admits ask need ses := ⟨h, by simp [State.turn, hi], hs, by decide, by decide, by decide, Nat.zero_le need⟩

/-- With no message waiting every command is what its request asks for. -/
theorem asks_of (s : State) (r : Req) (c : Instr) (hi : s.vcp.inbox = [] := by rfl) : s.asks r c = true := by simp [State.asks, hi]

/-! ### Ill-formed commands: each check of Sys2Proof/WellFormed.lean refuses what it is there for -/

/-- Every command of a list is ill-formed. -/
def refused (l : List Instr) : Bool := l.all (fun i => !i.wf)

theorem test_illformed_straps_and_images : refused
    [.resetNRise { mode := 4, boot := 0, twinEn := false, pairId := false },
     .stbyNHighWake { mode := 0, boot := 4, twinEn := false, pairId := false },
     .imageHeaderRead (some [256]), .imageSectionsRead [[0], [300]], .pcieImageChunk [1, 256],
     .twinImageReceived (some [256])] = true := by decide

theorem test_illformed_paths_and_matrix : refused
    [.patchRevert 1024, .commitApplied (2 ^ 32), .pdSwitchDone 12, .zcStep (2 ^ 32) 0, .zcTimeout 0 (2 ^ 64), .zcRampEnd (2 ^ 32) 0,
     .xfadeEnd 0 (2 ^ 64), .nodeGroupZeroCrossing 16384 0, .nodeGroupTimeout 0 (2 ^ 64), .nodeRampEnd 16384 0,
     .tapHandoverSwitch 4096 0 0, .tapHandoverSwitch 0 4096 0, .mereSegmentDetection 256 true, .nodeCorrected 4096 0,
     .nodeRestored 0 4096 0, .nodeRestored 0 0 4, .mereScrubPass [4096 * 4096] 0, .mereScrubPass [] 262145, .commitScheduled (2 ^ 32), .cfBankWrite (2 ^ 32), .cueFired 16,
     .sceneReadDone (2 ^ 32)] = true := by decide

theorem test_illformed_spring_and_converters : refused
    [.springPeriod [(2 ^ 32, true)], .springSourceHandover 16 0, .springSourceHandover 0 64, .springOutputHandover 16 0,
     .springSourceClockLoss (2 ^ 32), .springOutputClockReturn (2 ^ 32), .springUnitRetire 16, .srcLock (2 ^ 32) 0, .srcUnlock (2 ^ 32) true,
     .decInputSwitch 64, .decSilenceEnd 64, .decsync ask (.mcc (2 ^ 64)), .decsync { sid := 0, seq := 1 } .next,
     .decsync { sid := 9, seq := 1 } .next, .decsync { sid := 1, seq := 2 ^ 32 } .next] = true := by decide

/-- ALU operands without moves. -/
def aluF (dst src1 src2 shift : Nat) : AluF := { dst := dst, src1 := src1, src2 := src2, shift := shift, mv := none }
/-- A move into D0 over an address register. -/
def mvF (reg an mode : Nat) : PMove := { store := false, reg := reg, an := an, mode := mode }
/-- ALU operands with moves. -/
def aluM (x y : Option PMove) : AluF := { aluF 0 0 0 0 with mv := some { x := x, y := y } }

theorem test_illformed_tarn_arithmetic : refused
    ((aluCommands.map (fun c => c.2 17 (aluF 0 0 0 0))) ++ (aluCommands.map (fun c => c.2 0 (aluF 12 0 0 0))) ++
     [.add 0 (aluF 0 12 0 0), .add 0 (aluF 0 0 12 0), .add 0 (aluF 0 0 0 64), .add 0 (aluM (some (mvF 12 0 0)) none),
      .add 0 (aluM none (some (mvF 0 8 0))), .add 0 (aluM (some (mvF 0 0 5)) none), .add 0 (aluM (some (mvF 0 3 0)) (some (mvF 1 3 0)))] ++
     (macCommands.map (fun c => c.2 17 { quad := false, acc := 0, dx := 0, dy := 0, mv := none })) ++
     [.mac 0 { quad := false, acc := 4, dx := 0, dy := 0, mv := none }, .mac 0 { quad := false, acc := 0, dx := 8, dy := 0, mv := none },
      .msu 0 { quad := false, acc := 0, dx := 0, dy := 8, mv := none }, .mpy 0 { quad := true, acc := 0, dx := 1, dy := 0, mv := none },
      .mpy 0 { quad := true, acc := 0, dx := 0, dy := 1, mv := none },
      .mac 0 { quad := false, acc := 0, dx := 0, dy := 0, mv := some { x := some (mvF 12 0 0), y := none } }]) = true := by decide

theorem test_illformed_tarn_moves_and_control : refused
    ([.move 0 32 0, .move 0 0 32, .loadStore 0 { y := false, store := false, reg := 32, an := 0, mode := 0, addr := 0 },
      .loadStore 0 { y := false, store := false, reg := 0, an := 8, mode := 0, addr := 0 },
      .loadStore 0 { y := false, store := false, reg := 0, an := 0, mode := 7, addr := 0 },
      .loadStore 0 { y := false, store := false, reg := 0, an := 0, mode := 5, addr := 32768 },
      .loadStore 0 { y := false, store := false, reg := 0, an := 0, mode := 0, addr := 1 },
      .aguOperation 0 { op := 4, kind := 0, index := 0, d := 0, imm := 0 }, .aguOperation 0 { op := 0, kind := 4, index := 0, d := 0, imm := 0 },
      .aguOperation 0 { op := 0, kind := 0, index := 8, d := 0, imm := 0 }, .aguOperation 0 { op := 2, kind := 0, index := 0, d := 8, imm := 0 },
      .aguOperation 0 { op := 0, kind := 0, index := 0, d := 0, imm := 65536 }, .aguOperation 0 { op := 1, kind := 1, index := 0, d := 0, imm := 0 },
      .aguOperation 0 { op := 2, kind := 0, index := 0, d := 0, imm := 1 }, .shortImmediate 0 8 0, .shortImmediate 0 0 (2 ^ 24),
      .longImmediate 0 12 0, .longImmediate 0 0 (2 ^ 48), .branch 0 14 0, .branch 0 0 16384, .call 0 14 0, .call 0 0 16384, .ret 0 14,
      .endTask 0 14, .rep 0 (.imm 0), .rep 0 (.imm 4097), .rep 0 (.reg 8), .loop 0 (.imm 1025) 0, .loop 0 (.imm 1) 16384] ++
     (nonlinearCommands.flatMap (fun c => [c.2 17 0 0, c.2 0 12 0, c.2 0 0 12])) ++
     [.dispatchInterrupt 17, .dispatchReturn 17, .serviceInterrupt 17 true, .taskOverrun 17, .illegalInstruction 17, .nop 17, .move 17 0 0,
      .shortImmediate 17 0 0, .longImmediate 17 0 0, .branch 17 0 0, .call 17 0 0, .ret 17 0, .endTask 17 0, .rep 17 (.imm 1),
      .loop 17 (.imm 1) 0, .endl 17, .lpush 17, .lpop 17, .tarnRetire 17]) = true := by decide

/-- A read of one beat at address 0, arrived at cycle 0. -/
def readTxn : Txn where
  master := 0
  unit := 0
  qos := 0
  block := false
  arrived := 0
  addr := 0
  write := false
  beats := [0]
  enables := [0]
  locked := false
  more := false
  parity := 0
  promoted := false

theorem test_illformed_faults_and_fabric : refused
    [.tarnDetection 17 0 0 false false, .tarnDetection 0 (2 ^ 32) 0 false false, .tarnDetection 0 0 (2 ^ 32) false false,
     .poisonedBlockRead (2 ^ 32) 0 0, .ccRollback (2 ^ 40), .ccRestart (2 ^ 32), .tempWarn (2 ^ 63), .tempWarn (-2 ^ 63 - 1),
     .maintRequest ask (2 ^ 32) 0 false, .fabricGrant 37 0 [], .fabricGrant 0 (2 ^ 64) [],
     .fabricGrant 0 0 [{ readTxn with master := 24 }], .fabricGrant 0 0 [{ readTxn with qos := 16 }],
     .fabricGrant 0 0 [{ readTxn with addr := 2 ^ 40 }], .fabricGrant 0 0 [{ readTxn with beats := [2 ^ 256] }],
     .fabricGrant 0 0 [{ readTxn with enables := [2 ^ 32] }], .fabricGrant 0 0 [{ readTxn with unit := 256 }],
     .fabricGrant 0 0 [{ readTxn with master := 22, beats := [2 ^ 128] }], .fabricGrant 0 0 [{ readTxn with parity := 3 }],
     .qosPromotion 37 0, .masterResetDrain 24, .poolScrubPass [.poolMirrored 32], .poolScrubPass [.poolBoth 32], .poolScrubPass [.poolPlain 32],
     .dramPatrolPass [.dramCorrected (2 ^ 40)], .dramPatrolPass [.dramDouble (2 ^ 40)], .mstoreCorrected (2 ^ 40), .mstoreScrubPass [2 ^ 32],
     .eventCountPublish 65536 0 true true, .crossingClockStopped 65536 .mere, .crossingClockStopped 0 (.tarn 17),
     .crossingResetIndication 65536, .resetGroupRequest (.lone 65536), .resetGroupRequest (.part 65536)] = true := by decide

/-- An ARP request for the address 0. -/
def arpFrame : NetFrame where
  len := 64
  fcs := true
  tagged := false
  etype := 0x0806
  proto := 0
  src := 0
  dst := 0
  udp := 0
  msg := 1

theorem test_illformed_ports_network_and_clocks : refused
    [.sapFrame 16 false [] 0 0 0, .sapFrame 0 false [2 ^ 32] 0 0 0, .sapFrame 0 false [] (2 ^ 63) 0 0, .sapFrame 0 false [] 0 (2 ^ 32) 0,
     .sapFrame 0 false [] 0 0 (2 ^ 32), .sapClockStop 16 false 0, .sapClockStop 0 false (2 ^ 32),
     .sapRateMeasured 16 false 0 0, .sapRateMeasured 0 false (2 ^ 32) 0, .sapStopDone 16 false, .sapMaskShadowWrite 16 false,
     .sapLayout 16 false, .madiFrame 8 false [] 0 0, .madiFrame 0 false [2 ^ 32] 0 0, .madiFrame 0 false [] (2 ^ 32) 0,
     .madiFrame 0 false [] 0 (2 ^ 32), .madiLock 8 0, .madiLock 0 (2 ^ 32), .madiStop 8 0, .madiStop 0 (2 ^ 32), .hspPlug (2 ^ 32) 0 0 0,
     .hspPlug 0 (2 ^ 32) 0 0, .hspPlug 0 0 (2 ^ 32) 0, .hspPlug 0 0 0 (2 ^ 32), .hspButtonPress (2 ^ 32), .netLinkDown 4, .netLinkUp 4,
     .netFrameReceive 4 arpFrame 0, .netFrameReceive 0 arpFrame (2 ^ 64), .netFrameReceive 0 { arpFrame with len := 65536 } 0,
     .netFrameReceive 0 { arpFrame with etype := 65536 } 0, .netFrameReceive 0 { arpFrame with proto := 256 } 0,
     .netFrameReceive 0 { arpFrame with src := 2 ^ 32 } 0, .netFrameReceive 0 { arpFrame with dst := 2 ^ 32 } 0,
     .netFrameReceive 0 { arpFrame with udp := 65536 } 0, .netFrameReceive 0 { arpFrame with msg := 256 } 0, .ptpOffsetMeasurement (2 ^ 63) 0, .phcTimerPulse 16, .phcCapture 16 true, .mccUnaligned (2 ^ 63),
     .mccRealigned (2 ^ 63), .streamPacketReceive 256 0 0 0 0 [], .streamPacketReceive 0 2 0 0 0 [], .streamPacketReceive 0 0 65536 0 0 [],
     .streamPacketReceive 0 0 0 (2 ^ 32) 0 [], .streamPacketReceive 0 0 0 0 (2 ^ 32) [], .streamPacketReceive 0 0 0 0 0 [256],
     .streamLegMiss 256 0 0, .streamLegMiss 0 2 0, .streamPacketTransmit 256, .streamTxStopDone 256, .streamRxRelease 256, .refLost 8,
     .refEvaluation [(8, 0, 0)], .ref4SlewDone (2 ^ 63), .ckuSteer ask (2 ^ 63), .ckuCalDone (some (2 ^ 63)), .clkoutFreqChange 5] = true := by
  decide

theorem test_illformed_control : refused
    [.vcpFragment (.mbx 8) [], .vcpFragment (.udp (2 ^ 32) 0) [], .vcpFragment (.udp 0 65536) [], .vcpFragment (.udp 0 0) [256],
     .reassemblyTimeout (.mbx 8) 0 0, .authBlockExpiry (.mbx 8), .sessionOpen (.mbx 0) (2 ^ 32) 0 0 0 [] none,
     .sessionOpen (.mbx 0) 0 0 0 0 [256] none, .sessionOpen (.mbx 0) 0 0 0 0 [] (some (2 ^ 32)), .keepaliveExpiry (2 ^ 32),
     .partitionClaim ask (2 ^ 32) false, .stageOpen ask (some { Attrs.dflt with cfLen := 65536 }),
     .stageOpen ask (some { Attrs.dflt with dxLen := 65536 }), .stageOpen ask (some { Attrs.dflt with label := [256] }),
     .stageAdd ask 0 [{ h := 2 ^ 32, v := 0 }], .stageAdd ask 0 [{ h := 0, v := 2 ^ 32 }],
     .stageRow ask 0 { form := 256, gain := false, tap := false, dest := 0, src := 0, nd := 0, ns := 0, data := [] },
     .stageColumn ask 0 { form := 0, gain := false, tap := false, dest := 65536, src := 0, nd := 0, ns := 0, data := [] },
     .stageRect ask 0 { form := 0, gain := false, tap := false, dest := 0, src := 65536, nd := 0, ns := 0, data := [] },
     .stageFill ask 0 { form := 0, gain := false, tap := false, dest := 0, src := 0, nd := 65536, ns := 0, data := [] },
     .stageRow ask 0 { form := 0, gain := false, tap := false, dest := 0, src := 0, nd := 0, ns := 65536, data := [] },
     .stageRow ask 0 { form := 0, gain := false, tap := false, dest := 0, src := 0, nd := 0, ns := 0, data := [(0, 256)] },
     .stageRemove ask 0 [2 ^ 32], .stageCosign ask 0 [256] [], .commit ask 0 (.mcc (2 ^ 64)), .pan ask 0 0 0 0 0 (2 ^ 63) 0,
     .sceneSave ask 0 0 [256], .cueLoad ask 0 [{ what := .scene 65536 0, time := .mcc 0 }], .cueLoad ask 0 [{ what := .scene 0 65536, time := .mcc 0 }],
     .cueLoad ask 0 [{ what := .set 65536, time := .mcc 0 }], .cueLoad ask 0 [{ what := .set 0, time := .mcc (2 ^ 64) }],
     .cueLoad ask 0 [{ what := .set 0, time := .phc (2 ^ 64) 0 }], .cueLoad ask 0 [{ what := .set 0, time := .phc 0 (2 ^ 32) }],
     .paramRead ask [2 ^ 32], .meterPeriodEnd 16, .streamSdp ask 0 (some [256]), .eventMask ask (2 ^ 256) 1, .phcSet ask (2 ^ 64) 0,
     .moduleLoad ask [256], .fwWrite ask 0 0 [256], .credProvision ask [256], .lifecycleSet ask (2 ^ 32) [], .mbxReqWrite 8 0, .mbxReply 8,
     .mbxEvrWrite 8 0, .evStatClear 8 0, .registerWrite (2 ^ 32) 0, .spiRegisterWrite 0 [2 ^ 32], .spiMailboxWrite 0 [256],
     .unknownCommand ask (2 ^ 32), .tamperTrip (2 ^ 32)] = true := by decide

/-- A heartbeat of an ACTIVE peer. -/
def beat : Heartbeat := { role := 1, run := true, boot := false, mcc := 1000, gen := 0, fault := 0, digests := [] }

theorem test_illformed_twin_and_legacy : refused
    [.leaseRenewal (2 ^ 64), .leaseAck (2 ^ 64), .twinHeartbeat true { beat with role := 5 }, .twinHeartbeat true { beat with mcc := 2 ^ 64 },
     .twinHeartbeat true { beat with gen := 2 ^ 64 }, .twinHeartbeat true { beat with fault := 2 ^ 32 },
     .twinHeartbeat true { beat with digests := [2 ^ 32] }, .inputRecord (2 ^ 64) [], .inputRecord 0 [.sapLoss 16 0 0 0],
     .inputRecord 0 [.sapLoss 0 2 0 0], .inputRecord 0 [.sapResume 16 0 false 0], .inputRecord 0 [.madiLoss 8 0 0],
     .inputRecord 0 [.madiResume 8 false 0], .inputRecord 0 [.sapSlip 0 2 false], .inputRecord 0 [.madiRepeat 0 64 0],
     .inputRecord 0 [.ratio 1024 0], .inputRecord 0 [.packet 256 0 0 0 []], .inputRecord 0 [.packet 0 0 0 0 [256]],
     .inputRecord 0 [.decsync (2 ^ 64)], .inputRecord 0 [.mic [2 ^ 48]], .inputRecord 0 [.hsp 5 0], .inputRecord 0 [.hsp 0 8],
     .edgeOffsetExceeded (2 ^ 63), .twinForward (2 ^ 64) .mccAlign, .twinForward 0 (.stage 65536 Attrs.dflt []), .twinForward 0 (.cosign 0 16),
     .twinForward 0 (.commit 0 (2 ^ 64)), .twinForward 0 (.cancel 65536), .twinForward 0 (.own 16 0), .twinForward 0 (.decsync (2 ^ 64)),
     .twinForward 0 (.phcSet (2 ^ 48) 0), .twinForward 0 (.legacy 0 (2 ^ 24)), .twinForward 0 (.mstore (2 ^ 25) []),
     .twinForward 0 (.moduleLoad [256]), .twinForward 0 (.cueLoad 16 []), .twinForward 0 (.cueArm 16), .twinForward 0 (.cueDisarm 16),
     .twinForward 0 (.session { ses with sid := 9 }), .twinForward 0 (.sessionEnd 9), .twinForward 0 (.swap (2 ^ 64)),
     .twinForward 0 (.config [{ h := 2 ^ 32, v := 0 }] [] 0), .twinHandover (2 ^ 64), .resyncStepDone (2 ^ 64) 0, .nonconvStateCopy 64 [] [],
     .nonconvStateCopy 0 [2 ^ 48] [], .legacyWrite 65536 0, .legacyWrite 0 (2 ^ 24), .legacyRead 65536, .legacyBurstWrite 65536 [] false,
     .legacyBurstWrite 0 [2 ^ 24] false, .legacyBurstRead 65536 1, .legacyParamWrite 0 (2 ^ 24), .legacyRateWrite 2,
     .legacyStatusClear (2 ^ 32), .tamperSourceCleared (2 ^ 32)] = true := by decide

/-! ### Rails, reset and boot -/

/-- A state in BOOT whose loader reads slot A. -/
def loading : State := { State.reset with dev := .boot, boot := { BootG.reset with stage := 0x02, chosen := true } }

theorem witness_ResetAndBootStart :
    ({ State.reset with dev := .off } : State).dev = .off ∧ up.dev ≠ .off ∧
    (State.reset.dev = .reset ∧ State.reset.power.resetN = false ∧ State.reset.power.mainRails = true) ∧
    (let s : State := { State.reset with power := { PowerG.reset with resetN := true, mainRails := false } }
     s.dev = .reset ∧ s.power.resetN = true ∧ s.power.mainRails = false) ∧
    ({ native with mode := 3 } : Straps).reserved = true ∧
    (let s : State := { loading with boot := { BootG.reset with stage := 0x01 } }
     s.dev = .boot ∧ s.boot.stage = 0x01) ∧
    (let s : State := { loading with power := { loading.power with straps := { native with mode := 3 } } }
     s.dev = .boot ∧ s.boot.stage = 0x02 ∧ s.power.straps.reserved = true) := by decide

/-- The clause of an accepted header needs a signature under a key that the model does not know (log entry 52). -/
theorem witness_BootLoaderReadsHeaders :
    (loading.dev = .boot ∧ loading.boot.stage = 0x02 ∧ loading.power.straps.reserved = false ∧ loading.boot.feed = .slot false ∧
      loading.boot.chosen = true) ∧
    (loading.headerError (loading.slotRead false none) ≠ 0 ∧ (loading.fw.slot 0).known = false ∧ loading.boot.fallback = false ∧ loading.boot.dram = none) ∧
    (let s : State := { loading with boot := { loading.boot with fallback := true } }
     s.headerError (s.slotRead false none) ≠ 0 ∧ s.boot.fallback = true) := by decide

/-- A header as accepted. -/
def image0 : Image where
  generation := 1
  fwVersion := 1
  secVersion := 0
  bytes := 8192
  signer := 0
  xin := 0
  family := 0
  profile := 0
  tamperEn := 0
  runTimeout := 0
  sections := []

/-- A header without the magic fails condition 2. -/
theorem arrival_refused (s : State) (h : List Nat) (hl : 4096 ≤ h.length) (hm : imgW h 0 ≠ 0x57454C4C) : s.arrivalError h ≠ 0 := by
  have hf : s.headerForm h = false := by
    unfold State.headerForm
    simp [hm]
  unfold State.arrivalError State.headerError State.headerTest
  simp [hf, Nat.not_lt.mpr hl]

/-- Its first 4096 bytes arrive, all 0. -/
theorem zeros_refused (s : State) : s.arrivalError (List.replicate 4096 0) ≠ 0 := by
  refine arrival_refused s _ (Nat.le_of_eq List.length_replicate.symm) ?_
  have : imgW (List.replicate 4096 0) 0 = Fmt.ofBE (List.replicate 4 0) := by
    unfold imgW Fmt.slice
    rw [List.drop_zero, List.take_replicate]
    rfl
  rw [this]
  decide

/-- The clauses of an accepted image, and of sections that hold, need a signature under a key that the model does not know (log entry 52). -/
theorem witness_ImagesAreAcceptedOrRefused :
    (let s : State := { loading with boot := { loading.boot with header := some image0 } }
     s.dev = .boot ∧ s.boot.feed = .slot false ∧ s.boot.header = some image0 ∧ s.sectionsError image0 (s.slotSections false image0 []) ≠ 0 ∧ s.boot.fallback = false) ∧
    (let s : State := { loading with boot := { loading.boot with header := some image0, fallback := true } }
     s.boot.feed = .slot false ∧ s.boot.header = some image0 ∧ s.sectionsError image0 (s.slotSections false image0 []) ≠ 0 ∧ s.boot.fallback = true) ∧
    (let s : State := { loading with boot := { loading.boot with waitPcie := true, stage := 0x0F } }
     s.boot.waitPcie = true ∧ s.boot.stage = 0x0F ∧ [0] ≠ [] ∧ s.arrivalError (s.boot.fed ++ [0].take 98304) = 0 ∧ s.imageError s.boot.fed ≠ 0) ∧
    (let s : State := { loading with boot := { loading.boot with waitPcie := true, stage := 0x0F, fed := List.replicate 4095 0 } }
     s.boot.waitPcie = true ∧ s.boot.stage = 0x0F ∧ [0] ≠ [] ∧ s.arrivalError (s.boot.fed ++ [0].take 98304) ≠ 0) ∧
    (let s : State := { loading with boot := { loading.boot with stage := 0x10 } }
     s.boot.stage = 0x10 ∧ s.imageError [] ≠ 0) := by
  refine ⟨by decide, by decide, by decide, ⟨rfl, rfl, by decide, ?_⟩, by decide⟩
  rw [show List.replicate 4095 0 ++ [0].take 98304 = List.replicate 4096 0 from List.replicate_succ'.symm]
  exact zeros_refused _

/-- A state in BOOT with the image applied and no start scene. -/
def applied : State := { up with dev := .boot, boot := { BootG.reset with stage := 0x07, dram := some true } }

theorem witness_StartSceneIsCheckedAndScheduled :
    (let s : State := { applied with boot := { applied.boot with stage := 0x05 } }
     s.dev = .boot ∧ s.boot.stage = 0x05) ∧
    (let s : State := { applied with boot := { applied.boot with stage := 0x06 } }
     s.dev = .boot ∧ s.boot.stage = 0x06) ∧
    applied.dev = .boot ∧ applied.boot.stage = 0x07 ∧ applied.boot.dram.isSome = true ∧
    commitAt applied.mcc applied.B .next = .inl 1016 := by decide

/-- A chip of a pair without a role. -/
def roleless : State := { up with dev := .quiet, power := { up.power with straps := { native with twinEn := true } } }

theorem witness_QuietRunAndStandby :
    (let s : State := { applied with boot := { applied.boot with stage := 0x08 } }
     s.dev = .boot ∧ s.boot.stage = 0x08 ∧ s.startPending = false ∧ s.power.straps.twinEn = false ∧ s.twin.hasRole = false) ∧
    (let s : State := { up with dev := .quiet, cku := { CkuG.reset with st := .locked } }
     s.dev = .quiet ∧ s.power.stbyLow = false ∧ s.mayRun = true ∧ s.runTimeout ≠ 0xFFFFFFFF) ∧
    (roleless.twin.hasRole = false ∧ roleless.live = true ∧ roleless.power.straps.twinEn = true ∧ roleless.twin.peer = none) ∧
    (up.live = true ∧ up.power.stbyLow = false) ∧
    (let s : State := { up with power := { up.power with stbyLow := true } }
     s.live = true ∧ s.power.stbyLow = true ∧ (true || s.allSilent) = true) ∧
    (let s : State := { up with dev := .standby }
     s.dev = .standby ∧ s.cku.twinFollow = false) ∧
    applied.dev = .boot := by decide

/-- A strip 0 with failover 2 on side B, with a live side A that has been out of loss since sample 0. -/
def onSideB : State := { up with
  mcc := 200010
  params := [(mkH 0x05 0 0, some 0x01000000), (mkH 0x05 0 2, some 1), (mkH 0x05 0 3, some 2)]
  ports := { PortG.reset with sap := [(0, { PortDir.reset with running := true })] }
  audio := { AudioG.reset with failover := [(0, { both := false, since := some 0 })] } }

/-- An empty stage set with a state. -/
def setIn (st : SetSt) (c : Option Nat) : StageSet := { StageSet.fresh 5 1 Attrs.dflt with st := st, commit := c }

/-- A legacy set that commits at sample 1000. -/
def legSet : LegSet := { v := 976, c := 1000, order := 0, writes := [], load := false, soft := false, rate := none }

theorem witness_CommitsSwitchesAndReverts :
    (let s : State := { up with dev := .quiet, scene := { SceG.reset with changing := true } }
     s.scene.changing = true ∧ s.dev ≠ .run) ∧
    (let s : State := { up with scene := { SceG.reset with changing := true } }
     s.scene.changing = true ∧ s.dev = .run) ∧
    (let s := onSideB
     200000 + s.B + 2 = s.mcc ∧ s.mcc % s.B = 2 ∧ s.live = true ∧ 0 < s.cap.strips ∧ s.audio.taken ≤ 200000 ∧
      s.valAt (mkH 0x05 0 3) 200000 = 2 ∧ s.valAt (mkH 0x05 0 2) 200000 = 1 ∧ s.valAt (mkH 0x05 0 0) 200000 ≠ 0 ∧
      s.refLoss (s.valAt (mkH 0x05 0 0) 200000) = false ∧
      (Cells.get { both := false, since := none } s.audio.failover 0).since = some 0 ∧ 0 + 2 * s.fs ≤ s.mcc ∧ s.selectMoves 0 200000 = false) ∧
    (let s : State := { onSideB with audio := { onSideB.audio with
       changes := [{ c := 200000, h := mkH 0x05 0 2, old := 0, new := 1, cf := 0, dx := 0 }] } }
     s.selectMoves 0 200000 = true ∧ s.valAt (mkH 0x05 0 2) 200000 = 1 ∧ s.refLoss (s.valAt (mkH 0x05 0 0) 200000) = false) ∧
    (let s : State := { up with scene := { SceG.reset with sets := [setIn .scheduled (some 1000)] } }
     s.live = true ∧ s.commitDue 5 = some (setIn .scheduled (some 1000))) ∧
    (let s : State := { up with legacy := { LegG.reset with sets := [legSet] } }
     s.live = true ∧ s.legDue = some legSet) ∧
    (let s : State := { up with
       params := [(mkH 0x22 0 0, some 0)]
       fault := { FaultG.reset with pdPending := [(5, 990, true), (7, 990, true), (0, 990, false), (1, 990, false)] } }
     s.fault.pdPending.find? (fun q => q.1 = 5) = some (5, 990, true) ∧ 5 ≠ 7 ∧
      s.fault.pdPending.find? (fun q => q.1 = 7) = some (7, 990, true) ∧ s.at 0x22 0 0 = 0 ∧
      s.fault.pdPending.find? (fun q => q.1 = 0) = some (0, 990, false) ∧
      s.fault.pdPending.find? (fun q => q.1 = 1) = some (1, 990, false)) := by decide

/-! ### The frame tick and the transitions -/

theorem witness_FrameTickRunsTheBlockPath :
    ({ up with mcc := 1002 } : State).atFrameTick = true ∧ up.atFrameTick = false ∧
    ({ up with vcp := { VcpG.reset with summaries := [ask] } } : State).vcp.summaries = [ask] := by decide

/-- A state at MCC 10000 whose strip 0 has a given fader stage. -/
def fading (z : Zc) : State := { up with
  mcc := 10000, audio := { AudioG.reset with strips := [(0, { ChainRt.reset with fader := z })] } }

/-- A state whose strip 0 crossfades its high-pass filter and its delay from sample 9000 on. -/
def crossing : State :=
  let x : Xf := { cur := [0], run := some { new := [1, 10000, 2], start := 9000, len := 64 }, pend := none }
  { up with
    mcc := 10000
    audio := { AudioG.reset with strips := [(0, { ChainRt.reset with delay := x, hpf := { Cf.at [0] with xf := x } })] } }

theorem witness_StagesMoveToTheirTargets :
    (let z : Zc := { gain := 5, tgt := 9, tp := some 8000, ramp := none, prev := 0 }
     let s := fading z
     s.reached 0x01000078 10000 = true ∧ s.stage 0x01000078 = some (.zc z) ∧ z.tp = some 8000 ∧ 8000 ≤ 10000 ∧
      8000 + (s.zcTimes 0x01000078 10000).1 ≤ 10000) ∧
    (let z : Zc := { gain := 5, tgt := 9, tp := none, ramp := some (9744, 256), prev := 0 }
     let s := fading z
     s.reached 0x01000078 10000 = true ∧ s.stage 0x01000078 = some (.zc z) ∧ z.ramp = some (9744, 256) ∧ 9744 + 256 ≤ 10000) ∧
    (let x : Xf := { cur := [0], run := some { new := [1, 10000, 2], start := 9000, len := 64 }, pend := none }
     hCls 0x01000002 ≠ 0x0B ∧ crossing.reached 0x01000002 10000 = true ∧ crossing.stage 0x01000002 = some (.xf x) ∧
      x.run = some { new := [1, 10000, 2], start := 9000, len := 64 } ∧ 9000 + 64 < 10000 ∧
      crossing.stage 0x01000008 = some (.cf { Cf.at [0] with xf := x }) ∧ hCls 0x01000008 = 1 ∧
      (bankOf crossing.fs (hField 0x01000008)).isSome = true) := by decide

theorem witness_RampEndsOnItsTarget : 0 < 1 ∧ 0 < 256 ∧ 255 < 256 := by decide

/-- A Mere that has computed the stamps up to 20000, with given nodes and groups. -/
def nodesAt (n : Cells Node) (g : Cells Group) : State := { up with
  mcc := 20034, audio := { AudioG.reset with taken := 20008 }, mere := { MereG.reset with step := { nodes := n, groups := g } } }

/-- A node on its way to a gain of 7. -/
def moving (st : NodeSt) : Node := { Node.reset with tgt := 7, st := st }

theorem witness_NodeGroupsStepTimeOutAndRamp :
    (let s := nodesAt [(0, moving .pending), (4096, moving .queued)] [(2, { tp := some 8000, ramp := none })]
     10000 < s.mereStamp ∧ (s.groupAt 2).canCross 10000 = true ∧ s.nodesWf = true ∧ s.nodeGroup 10000 0 = 2 ∧ s.nodeGroup 10000 1000 ≠ 2 ∧ (s.node 0).waits = true ∧ (s.node 1).waits = false ∧
      (s.groupAt 2).tp = some 8000 ∧ 8000 + s.valAt (mkH 0x0A 0 1) 10000 ≤ 10000 ∧ (s.groupAt 2).ramp = none ∧
      (s.node 0).st = .pending ∧ (s.node 0).hold = false) ∧
    (let s := nodesAt [(0, moving .ramp), (4096, moving .pending)] [(2, { tp := some 8000, ramp := some (9999, 256) })]
     10000 < s.mereStamp ∧ s.nodesWf = true ∧ (s.groupAt 2).tp = some 8000 ∧ 8000 + s.valAt (mkH 0x0A 0 1) 10000 ≤ 10000 ∧
      (s.groupAt 2).ramp = some (9999, 256) ∧ 9999 < 10000 ∧ s.nodeGroup 10000 4096 = 2 ∧ (s.node 4096).st = .pending ∧ (s.node 0).st = .ramp) ∧
    (let s := nodesAt [(0, moving .ramp), (4096, moving .queued)] [(2, { tp := none, ramp := some (9744, 256) })]
     10000 < s.mereStamp ∧ s.nodesWf = true ∧ (s.groupAt 2).ramp = some (9744, 256) ∧ 9744 + 256 ≤ 10000 ∧ s.nodeGroup 10000 0 = 2 ∧
      (s.node 0).st = .ramp ∧ s.nodeGroup 10000 4096 = 2 ∧ (s.node 4096).st = .queued) ∧
    (let s := nodesAt [(0, { Node.reset with tgt := 7, ntap := 3 })] []
     s.nodesWf = true ∧ (s.node 0).tap ≠ (s.node 0).ntap ∧ (s.node 0).st = .idle ∧ (s.node 0).cur = 0 ∧ (s.node 0).tgt ≠ 0) := by decide

/-! ### Fault continuity -/

theorem witness_MereCorrectsAndFieldsAreRestored :
    (up.mereOn = true ∧ up.mere.laneMap.contains 127 = true ∧ up.mere.spareLane.isSome = true) ∧
    (up.nodeIn 0 0 = true ∧ up.nodeIn 511 1535 = true ∧ up.nodesWf = true ∧ (up.node (nodeKey 511 1535)).st = .idle) ∧
    ((∀ k ∈ [0, nodeKey 511 1535], up.nodeIn (keyDst k) (keySrc k) = true) ∧ up.mere.corrected ≤ 0xFFFFFFFF) ∧
    (∀ st ∈ [NodeSt.ramp, .pending, .queued], let s := nodesAt [(0, moving st)] []
     s.mereOn = true ∧ s.nodeIn 0 0 = true ∧ s.nodesWf = true ∧ (s.node (nodeKey 0 0)).st = st ∧ st ≠ .idle) := by decide

/-- A frame task of slot 3. -/
def task0 : Task where
  inst := 3
  base := 0
  len := 10
  entry := 0
  frame := 0
  wins := []
  cost := 100
  cycles := 0

/-- A state whose engine 0 is as given, the others as after reset. -/
def engine0 (x : Engine) : State := { up with tarn := { TarnG.reset with engines := TarnG.reset.engines.set 0 x } }

theorem witness_TarnDetectionsAreSettled :
    ((16 < 17 ∧ up.tarnOn = true ∧ 4 < 5 ∧ (up.eng 0).st = .active) ∧ (up.eng 0).cur = none ∧
      Cells.get 0 up.fault.recomputed 0 ≠ up.blockNo + 1) ∧
    (let s : State := { up with fault := { FaultG.reset with recomputed := [(0, 125)] } }
     (s.eng 0).st = .active ∧ (s.eng 0).cur = none ∧ Cells.get 0 s.fault.recomputed 0 = s.blockNo + 1 ∧ s.swapping = none ∧
      s.spareFree 0 = true) ∧
    (let e := engine0 { Engine.reset with cur := some task0 }
     let s : State := { e with tarn := { e.tarn with slots := [(3, { SlotRt.reset with cause := some (4, 77) })] } }
     s.tarnOn = true ∧ (s.eng 0).st = .active ∧ (s.eng 0).cur = some task0 ∧ (s.slotRt task0.inst).cause = some (4, 77)) := by decide

theorem witness_EnginesRetireAndPoisonReadsAsZero :
    (let s : State := { up with fault := { FaultG.reset with detect := [(0, [124, 123, 122])] } }
     s.tarnOn = true ∧ (s.eng 0).st = .active ∧ (s.eng 0).queue = [] ∧ (s.eng 0).cur = none ∧
      Sys2Proof.Machine.reached s.blockNo (s.detections 0) = true ∧ s.swapping = none ∧ s.spare? = some 16 ∧ (16 : Nat) ≠ 0) ∧
    (up.tarnOn = true ∧ up.spare? = some 16 ∧ up.fault.tarn.pct = 100 ∧ up.fault.holder = none ∧ up.twin.role = .solo) := by decide

theorem witness_ControlCoresRollBackAndRestart :
    (up.coresRun = true ∧ up.fault.interval = false ∧ (up.fault.restartAt.filter (up.within 60)).length < 2 ∧ 0 < up.fs) ∧
    (let s : State := { up with fault := { FaultG.reset with interval := true } }
     s.coresRun = true ∧ (s.fault.restartAt.filter (s.within 60)).length < 2 ∧ s.fault.interval = true) ∧
    (let s : State := { up with fault := { FaultG.reset with restartAt := [900, 800] } }
     s.coresRun = true ∧ 2 ≤ (s.fault.restartAt.filter (s.within 60)).length ∧ 0 < s.fs ∧ s.twin.role = .solo) ∧
    (let s : State := { up with fault := { FaultG.reset with stalled := true } }
     s.fault.stalled = true ∧ s.fw.pending = none ∧ s.vcp.held = [] ∧ s.net.owed = [] ∧ ∀ c, (s.channel c).wait = none) :=
  ⟨by decide, by decide, by decide, by decide, by decide, by decide, by decide, fun _ => rfl⟩

/-- A state whose clocks are throttled to a percentage, with or without a report in the block period. -/
def throttledTo (k : Nat) : State := { up with
  fault := { FaultG.reset with tarn := { pct := k, report := false }, mere := { pct := k, report := false } } }

/-- A session of the device role, with the maintenance token held by another activity. -/
def held : State := { serving with fault := { FaultG.reset with holder := some { code := 3, target := 1, sid := 1 } } }

theorem witness_ThrottlingAndMaintenance :
    ((∀ m : Bool, (if m then up.mereOn else up.tarnOn) = true ∧ (up.fault.throttle m).pct = 100) ∧
     (∀ m : Bool, ((throttledTo 75).fault.throttle m).pct < 95 ∧ ((throttledTo 75).fault.throttle m).report = false) ∧
     (∀ m : Bool, ((throttledTo 95).fault.throttle m).pct = 95 ∧ ((throttledTo 95).fault.throttle m).report = false) ∧
     up.fault.warm = false) ∧
    (tempLimit < 111 ∧ (95 : Int) + 5 ≤ tempLimit) ∧
    (serving.admits ask 0 ses ∧ 29 < 30 ∧ serving.fault.holder = none ∧ serving.fault.queue = []) ∧
    (held.admits ask 0 ses ∧ held.fault.holder.isSome = true ∧ held.fault.queue.length < 8) ∧
    serving.admits ask 2 ses ∧
    (let s : State := { up with fault := { FaultG.reset with queue := [{ code := 3, target := 1, sid := 1 }] } }
     s.fault.holder = none ∧ s.fault.queue = { code := 3, target := 1, sid := 1 } :: []) ∧
    held.fault.holder = some { code := 3, target := 1, sid := 1 } := by
  refine ⟨by decide, ?_, ⟨serving_admits 0, by decide⟩, ⟨admits_of _ _ (by decide) (by decide), by decide⟩, serving_admits 2,
    by decide, by decide⟩
  unfold tempLimit
  split <;> decide

theorem witness_CrossingsAreFencedAndResume :
    (let s : State := { up with fault := { FaultG.reset with stalled := true } }
     65535 < 65536 ∧ 0x1305 < 65536 ∧ crossingPort 0x1305 = some 5 ∧ (s.fab.crossing 0x1305).fence = none ∧
      (s.fab.crossing 65535).fence = none ∧ s.serves = false ∧ Cells.wf Crossing.reset s.fab.crossings = true) ∧
    (let x : Crossing := { Crossing.reset with fence := some (.lone 4) }
     let s : State := { up with fab := { FabG.reset with crossings := [(7, x)] } }
     Cells.wf Crossing.reset s.fab.crossings = true ∧
      s.fab.crossings.filter (fun c => c.2.fence = some (.lone 4)) = [(7, s.fab.crossing 7)]) := by decide

/-! ### The spring mixer, the converters, DECSYNC -/

theorem witness_SpringPeriodComputesOneSample :
    (up.live = true ∧ Fmt.bit up.power.domains 5 = true) ∧
    (let s : State := { up with power := { up.power with domains := 0xFDF } }
     s.live = true ∧ Fmt.bit s.power.domains 5 = false) := by decide

/-- A spring mixer as given. -/
def springs (g : SpringG) : State := { up with spring := g }

theorem witness_SpringHandoversAndLoss :
    (let s := springs { SpringG.reset with step := { nodes := [(1023, { springNode0 with ntap := 5 })], groups := [] } }
     let x := Cells.get springNode0 s.spring.step.nodes (15 * 64 + 63)
     Cells.wf springNode0 s.spring.step.nodes = true ∧ x.tap ≠ x.ntap ∧ x.st = .idle ∧ x.cur = 0) ∧
    (15 < 16 ∧ Cells.wf SpringMix.reset up.spring.mixes = true) ∧
    (springs { SpringG.reset with stopped := [7] }).spring.stopped.contains 7 = true ∧
    (up.springLoss 0x02000000 = true ∧ (up.spring.src 0x02000000).lost = false) ∧
    (let s := springs { SpringG.reset with n := 5000, detect := [(11, [5000, 4000, 904])] }
     11 < 12 ∧ s.spring.retired.contains 11 = false ∧
      3 ≤ ((Cells.get [] s.spring.detect 11).filter (fun k => decide (s.spring.n ≤ k + 4096))).length ∧ s.spring.retired.length < 3) ∧
    (let s := springs { SpringG.reset with n := 5000, detect := [(11, [5000, 4000, 904])], retired := [0, 1, 2] }
     s.spring.retired.contains 11 = false ∧
      3 ≤ ((Cells.get [] s.spring.detect 11).filter (fun k => decide (s.spring.n ≤ k + 4096))).length ∧
      3 ≤ s.spring.retired.length) := by decide

/-- Converters as given. -/
def convs (g : ConvG) : State := { up with conv := g }

theorem witness_ConvertersLockAndSwitch :
    (let s := convs { ConvG.reset with src := [(0, { SrcCh.reset with user := 0x01000000, acq := true })] }
     let x := Cells.get SrcCh.reset s.conv.src 0
     x.user ≠ 0 ∧ x.fixed = false ∧ x.acq = true) ∧
    (let s := convs { ConvG.reset with src := [(0, { SrcCh.reset with user := 0x01000000, locked := true })] }
     let x := Cells.get SrcCh.reset s.conv.src 0
     x.user ≠ 0 ∧ x.fixed = false ∧ x.locked = true) ∧
    (let s := convs { ConvG.reset with dec := [(63, { DecCh.reset with want := some 3 })] }
     63 < 64 ∧ (s.decCh 63).want = some 3 ∧ ((s.decAdvance 63 s.mcc).decCh 63).out8.silent s.spring.n = true ∧
      ((s.decAdvance 63 s.mcc).decCh 63).outE.silent s.mcc = true) ∧
    (let s := convs { ConvG.reset with dec := [(63, { DecCh.reset with silence := some 0 })] }
     (s.decCh 63).silence = some 0 ∧ 0 ≤ s.spring.n) := by decide

/-- A DECSYNC scheduled for a sample. -/
def syncAt (c : Nat) (pin : Nat) : State := { convs { ConvG.reset with sched := some c } with params := [(mkH 0x25 0 0, some pin)] }

theorem witness_DecsyncRunsItsCourse :
    (serving.admits ask 0 ses ∧ serving.conv.sched = none) ∧
    ((syncAt 1032 1).conv.sched = some 1032 ∧ (syncAt 1032 1).conv.fading = false ∧ 1032 ≤ (syncAt 1032 1).mcc + 32) ∧
    ((syncAt 1000 1).conv.sched = some 1000 ∧ 1000 ≤ (syncAt 1000 1).mcc) ∧
    ((syncAt 1032 2).at 0x25 0 0 = 2 ∧ (syncAt 1032 2).conv.sched.isSome = true) ∧
    (let s : State := { up with params := [(mkH 0x25 0 0, some 2)] }
     s.at 0x25 0 0 = 2 ∧ s.conv.sched = none ∧ s.conv.hold = none ∧ s.obeys = false) ∧
    (let s := convs { ConvG.reset with hold := some 0 }
     s.conv.hold = some 0 ∧ 0 ≤ s.spring.n) := by
  refine ⟨⟨serving_admits 0, ?_⟩, ?_⟩ <;> decide

/-! ### The Tarn engines -/

/-- Engine 0 as given issues, with no REP armed. -/
theorem canRun_engine0 (x : Engine) (h : Tarn.canIssue x = true) (hr : Tarn.ready x = x) (hp : x.rep = none)
    (hc : Tarn.ending x = true ∨ ∀ t ∈ x.cur, t.cycles + 7 ≤ t.cost) : (engine0 x).canRun 0 x :=
  ⟨by decide, (by decide : up.tarnOn = true), h, hr.symm, hp, hc⟩

/-- Engine 0 of a state after reset issues. -/
theorem canRun_reset : (engine0 Engine.reset).canRun 0 Engine.reset := canRun_engine0 _ (by decide) (by decide) (by decide) (by decide)

/-- An engine in a frame task whose window is X words 0 to 9, writable. -/
def windowed : Engine := { Engine.reset with cur := some { task0 with wins := [{ y := false, lo := 0, hi := 9, wr := true }] } }

/-- An X load into D3 through A0 and a Y store of ACC0 through A7. -/
def moves : Moves := { x := some { store := false, reg := 3, an := 0, mode := 1 }, y := some { store := true, reg := 8, an := 7, mode := 4 } }

theorem witness_AluWritesItsResultAndFlags :
    (0x00, Instr.add) ∈ aluCommands ∧ (engine0 Engine.reset).canRun 0 Engine.reset ∧ (aluF 11 11 11 63).mv = none ∧
    Tarn.movesOk moves = true ∧ 11 < 12 ∧ 63 < 64 ∧ (Engine.reset.slots = none ∧ Engine.reset.view = []) ∧
    Tarn.outside windowed true moves.y = true :=
  ⟨List.mem_cons_self, canRun_reset, by decide⟩

theorem witness_AddAndSubSaturate : Tarn.srSat srReset = true := by decide

/-- MAC operands without moves. -/
def macF (quad : Bool) (acc dx dy : Nat) : MacF := { quad := quad, acc := acc, dx := dx, dy := dy, mv := none }

theorem witness_MacAccumulatesRoundedProducts :
    (0, Instr.mac) ∈ macCommands ∧ (engine0 Engine.reset).canRun 0 Engine.reset ∧
    Tarn.movesOk moves = true ∧ (let f := macF false 3 7 7; f.mv = none ∧ f.acc < 4 ∧ f.dx < 8 ∧ f.dy < 8 ∧ (f.quad = true → f.dx = 0 ∧ f.dy = 0) ∧ f.quad = false) ∧
    (∀ k : Fin 4, let f := macF true k 0 0; f.acc < 4 ∧ (f.quad = true → f.dx = 0 ∧ f.dy = 0) ∧ f.quad = true) :=
  ⟨List.mem_cons_self, canRun_reset, by decide⟩

/-- D0 of a cleared bank is 0, which meets the range clauses of LOG2, RECIP and RSQRT; those of EXP2 by the second part. -/
theorem witness_MovesAndNonlinearResults :
    (engine0 Engine.reset).canRun 0 Engine.reset ∧ (Engine.reset.slots = none ∧ Engine.reset.view = []) ∧
    Tarn.allowed Engine.reset false (Tarn.aguSeen Engine.reset 0 7 % 2 ^ 15) false = true ∧
    Tarn.allowed Engine.reset true (Tarn.aguSeen Engine.reset 0 7 % 2 ^ 15) false = true ∧
    (0, Instr.log2) ∈ nonlinearCommands ∧ (Tarn.rdD (Tarn.bank Engine.reset) 7).toInt = 0 ∧
    (7 * 2 ^ 40 ≤ (0x070000000000#48).toInt ∧ (0xD00000000000#48).toInt < -(40 * 2 ^ 40)) :=
  ⟨canRun_reset, by decide, by decide, by decide, List.mem_cons_self, by decide, by decide⟩

theorem witness_StoresStayInsideTheWindows :
    (engine0 windowed).canRun 0 windowed ∧
    (Tarn.allowed windowed false (Tarn.aguSeen windowed 0 7 % 2 ^ 15) true = true ∧ Cells.wf 0 windowed.xMem = true) ∧
    Tarn.allowed windowed true (Tarn.aguSeen windowed 0 7 % 2 ^ 15) true = false ∧
    Tarn.allowed windowed true (Tarn.aguSeen windowed 0 7 % 2 ^ 15) false = false :=
  ⟨canRun_engine0 _ (by decide) (by decide) (by decide) (by decide), by decide, by decide, by decide⟩

/-- An engine with a return address on its control stack. -/
def called : Engine := { Engine.reset with bg := { Bank.reset with cstk := [5#14] } }

/-- An engine in a frame task at the depth of 8. -/
def full : Engine := { Engine.reset with cur := some task0, inTask := true, tk := { Bank.reset with cstk := List.replicate 8 5#14 } }

theorem witness_ControlFlowHasTwoDelaySlots :
    ((engine0 Engine.reset).canRun 0 Engine.reset ∧ Engine.reset.slots = none) ∧
    (Tarn.inCode Engine.reset 16383 = true ∧ Tarn.cond 0 (Tarn.bank Engine.reset).sr = some true) ∧
    (Tarn.inCode Engine.reset 16383 = true ∧ Tarn.cond 1 (Tarn.bank Engine.reset).sr = some false ∧ Engine.reset.view = []) ∧
    (Tarn.bank Engine.reset).cstk.length < 8 ∧
    ((engine0 called).canRun 0 called ∧ called.slots = none ∧ Tarn.cond 0 (Tarn.bank called).sr = some true ∧
      Tarn.cond 1 (Tarn.bank called).sr = some false ∧ called.view = [] ∧ (Tarn.bank called).cstk = 5#14 :: []) ∧
    ((engine0 full).canRun 0 full ∧ full.slots = none ∧ full.cur = some task0 ∧ 8 ≤ (Tarn.bank full).cstk.length) ∧
    ((engine0 windowed).canRun 0 windowed ∧ windowed.slots = none ∧ windowed.cur.isSome = true ∧ (Tarn.bank windowed).cstk = []) :=
  ⟨⟨canRun_reset, by decide⟩, by decide, by decide, by decide,
    ⟨canRun_engine0 _ (by decide) (by decide) (by decide) (by decide), by decide⟩,
    ⟨canRun_engine0 _ (by decide) (by decide) (by decide) (by decide), by decide⟩,
    ⟨canRun_engine0 _ (by decide) (by decide) (by decide) (by decide), by decide⟩⟩

/-- An engine in one loop from address 8 to 9. -/
def looping : Engine := { Engine.reset with loops := [{ lc := 2#16, ls := 8#14, le := 9#14 }] }

/-- An engine with a REP of 3 armed. -/
def repeating : Engine := { Engine.reset with rep := some 3 }

/-- The same in a frame task that has 2 cycles left. -/
def shortOf : Engine := { repeating with cur := some { task0 with cycles := 98 } }

/-- That engine when they are spent. -/
def spent3 : Engine := { repeating with cur := some { task0 with cycles := 100 } }

theorem witness_LoopsAndRepeatsRun :
    ((engine0 Engine.reset).canRun 0 Engine.reset ∧ Engine.reset.slots = none) ∧
    (Engine.reset.loops.length < 4 ∧ Engine.reset.pc + 2 ≤ 16383 ∧ Engine.reset.lpend = []) ∧
    (Tarn.rdD (Tarn.bank Engine.reset) 7).toNat % 65536 = 0 ∧
    ((engine0 looping).canRun 0 looping ∧ looping.slots = none ∧ looping.loops = ⟨2#16, 8#14, 9#14⟩ :: [] ∧ looping.lpend = [] ∧
      ∀ o ∈ looping.view.tail.head?, o.le.toNat ≠ looping.pc) ∧
    (let f := fun e : Engine => (some { e := e, oob := [] } : Tarn.Res)
     Tarn.ready repeating = repeating ∧ repeating.rep = some 3 ∧ Tarn.room repeating 1 1 3 = 3 ∧
      Tarn.times f 3 (Tarn.charge repeating 1 3) = some { e := repeating, oob := [] } ∧ repeating.slots = none) ∧
    (let f := fun e : Engine => (some { e := e, oob := [] } : Tarn.Res)
     Tarn.ready shortOf = shortOf ∧ shortOf.rep = some 3 ∧ Tarn.room shortOf 1 1 3 = 2 ∧
      Tarn.times f 2 (Tarn.charge shortOf 1 2) = some { e := spent3, oob := [] } ∧ spent3.rep.isSome = true) :=
  ⟨⟨canRun_reset, by decide⟩, by decide, by decide,
    ⟨canRun_engine0 _ (by decide) (by decide) (by decide) (by decide), by decide, by decide, by decide, by decide⟩,
    ⟨by decide, by decide, by decide, rfl, by decide⟩, by decide, by decide, by decide, rfl, by decide⟩

/-- An engine in its dispatch stub. -/
def stubbed : Engine := { Engine.reset with stub := true, inTask := true, service := 720 }

/-- An engine whose task has used up its cost. -/
def spent : Engine := { Engine.reset with cur := some { task0 with cycles := 100 } }

theorem witness_EngineInterruptsAndStops :
    (16 < 17 ∧ up.tarnOn = true ∧ (up.eng 16).st ≠ .retired ∧ (up.eng 16).debug = false ∧ (up.eng 16).inTask = false ∧
      (up.eng 16).slots = none ∧ (up.eng 16).rep = none) ∧
    (let s := engine0 stubbed
     s.tarnOn = true ∧ (s.eng 0).st ≠ .retired ∧ (s.eng 0).stub = true ∧ (s.eng 0).cur = none ∧ (s.eng 0).queue = [] ∧ (s.eng 0).calls = [] ∧
      (s.eng 0).loops = [] ∧ (s.eng 0).slots = none ∧ (s.eng 0).rep = none ∧ (s.eng 0).service + 240 ≤ 960) ∧
    ((up.eng 16).calls = [] ∧ (up.eng 16).st = .spare ∧ (up.eng 16).loops = []) ∧
    (let s := engine0 full
     (s.eng 0).calls = [] ∧ (s.eng 0).inTask = true ∧ (s.eng 0).stub = false) ∧
    (let s := engine0 spent
     s.tarnOn = true ∧ (s.eng 0).st ≠ .retired ∧ (s.eng 0).halt = none ∧ (s.eng 0).cur = some { task0 with cycles := 100 } ∧ 100 ≤ 100 ∧
      Tarn.ending (s.eng 0) = false) ∧
    ((engine0 windowed).canRun 0 windowed ∧ windowed.cur.isSome = true) :=
  ⟨by decide, by decide, by decide, by decide, by decide, canRun_engine0 _ (by decide) (by decide) (by decide) (by decide), by decide⟩

theorem witness_TarnDecodeOfEncode :
    ((Instr.nop 16).wf = true ∧ Tarn.encode (.nop 16) = some (16, [0])) ∧
    (let i := Instr.longImmediate 16 11 (2 ^ 48 - 1)
     i.wf = true ∧ (Tarn.encode i).any (fun q => decide (q.1 = 16) && decide (q.2.length = 2)) = true) := by decide

/-! ### A datagram that its session's key authenticates -/

theorem shaRound_length (v : List Nat) (k : Nat) : (Crypto.shaRound v k).length = v.length := by
  unfold Crypto.shaRound
  split
  · simp only [List.length_cons, List.length_nil]
  · rfl

theorem shaBlock_length (h blk : List Nat) : (Crypto.shaBlock h blk).length = h.length := by
  have run : ∀ (l v : List Nat), (l.foldl Crypto.shaRound v).length = v.length := by
    intro l
    induction l with
    | nil => exact fun _ => rfl
    | cons k l ih => exact fun v => (ih _).trans (shaRound_length v k)
  unfold Crypto.shaBlock
  simp [run]

/-- A hash has 32 bytes. -/
theorem sha256_length (m : List Nat) : (Crypto.sha256 m).length = 32 := by
  have run : ∀ (l : List (List Nat)) (h : List Nat), (l.foldl Crypto.shaBlock h).length = h.length := by
    intro l
    induction l with
    | nil => exact fun _ => rfl
    | cons b l ih => exact fun h => (ih _).trans (shaBlock_length h b)
  have four : ∀ l : List Nat, (l.flatMap (Fmt.toBE 4)).length = 4 * l.length := by
    intro l
    induction l with
    | nil => rfl
    | cons x l ih => simp [Fmt.toBE]; omega
  unfold Crypto.sha256
  simp only [four, run]
  simp [Crypto.shaH0, Crypto.primes64]

theorem tagOf_length (key msg : List Nat) : (tagOf key msg).length = 16 := by
  unfold tagOf Crypto.hmac
  simp [sha256_length]

/-- The header of a PING of session 1. -/
def pingHdr : Header where
  sid := 1
  seq := 1
  cmd := 3
  len := 0
  reply := false
  err := false
  push := false
  enc := false
  frag := 0
  more := false

/-- A PING with some tag. -/
def tagged (t : List Nat) : List Nat := [0x56, 0x58, 1, 1, 0, 0, 0, 1, 0, 3, 0, 0, 0, 0, 0, 0] ++ t

theorem tagged_opens (t : List Nat) (h : t.length = 16) (ht : tagOf [1] (tagged []) = t) :
    Header.parse (tagged t) = some pingHdr ∧ openMsg false [1] [] [] pingHdr (tagged t) = some [] ∧ headerError (tagged t) pingHdr = 0 := by
  have hl : (tagged t).length = 32 := by simp [tagged, h]
  have h0 : Fmt.slice (tagged t) 0 2 = [0x56, 0x58] := rfl
  have h4 : Fmt.slice (tagged t) 4 4 = [0, 0, 0, 1] := rfl
  have h8 : Fmt.slice (tagged t) 8 2 = [0, 3] := rfl
  have h10 : Fmt.slice (tagged t) 10 2 = [0, 0] := rfl
  have h12 : Fmt.slice (tagged t) 12 4 = [0, 0, 0, 0] := rfl
  have g2 : (tagged t).getD 2 0 = 1 := rfl
  have g3 : (tagged t).getD 3 0 = 1 := rfl
  refine ⟨?_, ?_, ?_⟩
  · unfold Header.parse
    simp only [hl, h0, h4, h8, h10, h12, g3]
    decide
  · have hk : (tagged t).take 16 = tagged [] := rfl
    have hd : (tagged t).drop 16 = t := rfl
    unfold openMsg
    have hb : Fmt.slice (tagged t) 16 (32 - 32) = [] := rfl
    simp only [hl, hb, show 32 - 16 = 16 from rfl, hk, hd, ht]
    simp [pingHdr]
  · unfold headerError
    simp only [hl, h12, g2]
    decide

/-- The PING as a host that holds the session's key sends it. -/
def pingMsg : List Nat := tagged (tagOf [1] (tagged []))

/-- That device with the link of port 0 up, the bytes of some ns of the limit of R254 taken. -/
def linked (paid : Nat) : State := { serving with net := { NetG.reset with link := [0], paid := [(0, paid)] } }

/-- The clause of a whole authenticated datagram is met by that PING. -/
theorem witness_authenticated : Header.parse pingMsg = some pingHdr ∧ openMsg ses.enc ses.ks ses.ke ses.salt pingHdr pingMsg = some [] ∧
    headerError pingMsg pingHdr = 0 ∧ pingHdr.sid ≠ 0 ∧ serving.session? pingHdr.sid = some ses ∧ ses.origin.transport = 0 ∧
    pingHdr.more = false ∧ pingHdr.frag = 0 ∧ badBody [] = false ∧ (askOf { sid := 1, seq := 1 } pingHdr.cmd []).isSome = true ∧
    (linked 0).session? pingHdr.sid = some ses ∧ (linked 0).live = true ∧ (linked 0).netOn = true ∧ (linked 0).serves = true ∧
    (linked 0).portFrom 1 = some 0 ∧ (linked 0).ctlFree 0 0 = true ∧ (linked 0).vcp.blocked.contains (Origin.udp 1 0) = false :=
  let h := tagged_opens _ (tagOf_length _ _) rfl
  ⟨h.1, h.2.1, h.2.2, by decide⟩

/-! ### Sessions, requests, events and the direct registers -/

/-- A device in RUN that serves one session, as given. -/
def withSes (x : Session) : State := { up with vcp := { VcpG.reset with sessions := [x] } }

/-- Its first request is admitted. -/
theorem withSes_admits (x : Session) (need : Nat) (h : (withSes x).session? 1 = some x) (hf : x.seqCase 1 = .fresh) (hp : x.progress.length < 16)
    (hr : x.role ≤ need) : (withSes x).admits ask need x :=
  ⟨(by decide : up.serves = true), rfl, h, by decide, hf, hp, hr⟩

/-- A recorded message: session, number, command, body. -/
def waiting (sid seq cmd : Nat) (body : List Nat) : Message := { origin := .udp 1 2, sid := sid, seq := seq, cmd := cmd, body := body }

/-- The items of R306 and R308 as the tables of spec/12 lay them out: a SET and a NODES item of a row run from destination 0x0102 and source 3,
with gain and tap, of two nodes; ATTRIBUTES with next possible, cf_len 64 and dx_len 256; PARTITIONS 0x8002 with force; a tap byte above 3 is
malformed. -/
theorem test_items_are_read :
    askOf ask 0x0103 ([0, 3, 0, 4, 0, 7, 0, 0] ++ [0, 6, 0, 22, 1, 3, 0, 0, 1, 2, 0, 3, 0, 1, 0, 2, 8, 0, 0, 0, 2, 0, 0, 0, 5, 1, 0, 0]) =
      some (some (.stageRow ask 7 { form := 1, gain := true, tap := true, dest := 0x0102, src := 3, nd := 1, ns := 2,
                                    data := [(0x08000000, 2), (5, 1)] })) ∧
    askOf ask 0x0101 ([0, 13, 0, 40, 1, 0, 0, 0, 0, 64, 1, 0] ++ List.replicate 32 0) =
      some (some (.stageOpen ask (some { nextPossible := true, noWait := false, cfLen := 64, dxLen := 256, label := List.replicate 32 0 }))) ∧
    askOf ask 0x0005 [0, 14, 0, 4, 0x80, 2, 1, 0] = some (some (.partitionClaim ask 0x8002 true)) ∧
    nodesItem [1, 3, 0, 0, 1, 2, 0, 3, 0, 1, 0, 1, 8, 0, 0, 0, 4] = none := by decide

/-- A command that its message does not ask for has no effect; the one it asks for is what it asks. -/
theorem test_message_names_its_command :
    let s : State := { serving with vcp := { serving.vcp with inbox := [waiting 1 1 0x0005 [0, 14, 0, 4, 0, 2, 0, 0]] } }
    s.asks ask (.partitionClaim ask 2 false) = true ∧ s.asks ask (.partitionClaim ask 4 false) = false := by decide

/-- A reply sent before. -/
def rep1 : Reply := { sid := 1, seq := 1, cmd := 0x0003, status := 0, detail := 0, items := [] }

theorem witness_RequestsAreAdmittedOrRefused :
    (up.serves = true ∧ up.session? 1 = none) ∧
    (let x := { ses with progress := List.replicate 16 9 }
     (withSes x).serves = true ∧ (withSes x).session? 1 = some x ∧ 0 < ask.seq ∧ ask.seq ≤ 0xFFFFFFFF ∧ x.seqCase ask.seq = .fresh ∧
      16 ≤ x.progress.length) ∧
    (let x := { ses with role := 2 }
     (withSes x).session? 1 = some x ∧ x.seqCase ask.seq = .fresh ∧ x.progress.length < 16 ∧ 1 < x.role) ∧
    (serving.session? 1 = some ses ∧ ses.seqCase ask.seq = .fresh ∧ ses.progress.length < 16 ∧ ses.role ≤ 0) ∧
    (let x := { ses with high := 1, seen := [1], replies := [rep1] }
     (withSes x).session? 1 = some x ∧ x.seqCase ask.seq = .replay rep1) ∧
    (serving.turn ask = true ∧ serving.sourceOf ask ses = .udp 1 2 ∧
      ({ serving with vcp := { serving.vcp with inbox := [waiting 2 1 3 [], waiting 1 1 3 []] } } : State).turn ask = false) := by decide

/-- A state whose control cores restart. -/
def restarting : State := { serving with fault := { FaultG.reset with stalled := true } }

/-- The clause of a whole authenticated datagram is met by `witness_authenticated`. -/
theorem witness_SessionsOpenAndEnd :
    (up.serves = true ∧ up.secretOf 0 = some (List.replicate 32 0) ∧ up.credOf 0 = some (0, 0xFFFE, false) ∧
      up.openError (.mbx 0) 0 0 none 0 = 0 ∧ up.openTurn (.mbx 0) 1 0 0 0 [] none = true) ∧
    (serving.admits ask 3 ses ∧ serving.scene.sets = []) ∧
    (serving.session? 1 = some ses ∧ ses.origin.transport = 0 ∧ ∀ c ∈ serving.fab.bursts, ∀ b ∈ c.2, b.txn.master ≠ 22) ∧
    (let s : State := { linked 0 with fault := restarting.fault }
     up.scene.sets = [] ∧ s.live = true ∧ s.netOn = true ∧ s.serves = false ∧ s.vcp.held.length < 256 ∧ s.portFrom 1 = some 0 ∧
      s.ctlFree 0 0 = true ∧ (linked 1).portFrom 1 = some 0 ∧ (linked 1).ctlFree 0 0 = false) :=
  ⟨by decide, ⟨serving_admits 3, by decide⟩, by decide, by decide⟩

/-- A record of a session queue, not delivered. -/
def rec1 : QRec where
  seq := 1
  id := 3
  count := 1
  part := 0
  detail := false
  mcc := 900
  arg := 0
  delivered := false
  pushed := none

/-- A session over mailbox channel 6. -/
def sesMbx : Session := { ses with origin := .mbx 6, queue := [rec1] }

theorem witness_PartitionsAndEventQueues :
    (serving.admits ask 1 ses ∧ serving.audioServed = true ∧ (serving.admitted ask).claimError ses 0x8002 false = 0 ∧
      Cells.wf 0 serving.vcp.owner = true ∧ ∀ p ∈ maskParts 0x8002, serving.owner p = 0 ∨ serving.owner p = ask.sid) ∧
    (let s : State := { serving with vcp := { serving.vcp with owner := [(1, 1), (15, 1)] } }
     s.admits ask 1 ses ∧ s.audioServed = true ∧ Fmt.bit 0x8002 0 = false ∧ (∀ p ∈ maskParts 0x8002, s.owner p = ask.sid) ∧
      Cells.wf 0 s.vcp.owner = true) ∧
    (serving.admits ask 3 ses ∧ 1 ≤ 1000 ∧ 1000 ≤ 1000 ∧ ses.lost = 0) ∧
    (let x := { ses with queue := [rec1] }
     (withSes x).live = true ∧ (withSes x).session? 1 = some x ∧ x.origin = .udp 1 2 ∧
      (withSes x).intervalDue x = true ∧ x.lost = 0 ∧ x.queue.filter (withSes x).pushDue ≠ []) ∧
    ((withSes sesMbx).live = true ∧ (withSes sesMbx).session? 1 = some sesMbx ∧ sesMbx.origin = .mbx 6 ∧ 6 < 7 ∧
      (withSes sesMbx).intervalDue sesMbx = true ∧ sesMbx.lost = 0) ∧
    (let x := { ses with lost := 7 }
     (withSes x).session? 1 = some x ∧ x.seqCase 1 = .fresh ∧ x.progress.length < 16 ∧ x.lost ≠ 0 ∧
      (x.queue.filter (fun q => decide (0 < q.seq))).length < 1024) ∧
    (let x := { ses with since := up.mcc }
     (withSes x).session? 1 = some x ∧ (withSes x).intervalDue x = false) :=
  ⟨⟨serving_admits 1, by decide⟩, ⟨admits_of _ _ (by decide) (by decide), by decide⟩, ⟨serving_admits 3, by decide⟩, by decide, by decide, by decide,
    by decide⟩

theorem witness_ReadsAnswerAndChangeNothing :
    serving.admits ask 3 ses ∧ serving.admits ask 2 ses ∧ serving.admits ask 1 ses ∧
    (let s : State := { serving with ev := { EvG.reset with detail := [(1, (257, [5]))] } }
     s.admits ask 3 ses ∧ Cells.get (65536, []) s.ev.detail (257 % 256) = (257, [5]) ∧ itemsFit [.words [5]]) ∧
    ((serving.admitted ask).readError (ses.accept ask.seq) (mkH 0x05 0 0) = 0) ∧
    (511 < serving.cap.dests ∧ 1535 < serving.cap.sources ∧
      (∀ n ∈ [0, outEntries - 1], n < outEntries ∧ ses.receives (serving.ownerOf (mkH 0x06 n 0)) = true)) ∧
    (∀ i ∈ [0x0100, 0x010F, mkH 1 0 0x7E, mkH 0x10 15 0x10, 0x0400, 0x0437, 0x0447], (serving.counter i).isSome = true ∧
      (satHandle i = true → ses.receives (serving.ownerOf i) = true)) ∧
    (let x := { ses with role := 2, mask := 0 }
     (withSes x).session? 1 = some x ∧ x.role ≤ 2 ∧ x.receives ((withSes x).nodeOwner 0 0) = false ∧ ses.receives (serving.nodeOwner 0 0) = true) ∧
    255 < 256 :=
  ⟨serving_admits 3, serving_admits 2, serving_admits 1, ⟨admits_of _ _ (by decide) (by decide), by decide, by unfold itemsFit; decide⟩,
    by decide, by decide, by decide, by decide, by decide⟩

/-- A meter point of strip 0. -/
def point0 : Nat := 1 * 65536 * 8 + 5

theorem witness_MetersModulesAndFirmware :
    (serving.admits ask 2 ses ∧ [point0].length ≤ 1024 ∧
      ∀ k ∈ [point0], serving.meterIs k = true ∧ ses.receives (serving.meterPart k) = true) ∧
    (let x := { ses with meters := [point0] }
     (withSes x).live = true ∧ (withSes x).vcp.sessions = [x] ∧ x.receives ((withSes x).meterPart point0) = true ∧ x.meters ≠ [] ∧
      ∀ k ∈ x.meters, (withSes x).meterPart k = (withSes x).meterPart point0) ∧
    (serving.admits ask 1 ses ∧ serving.audioServed = true) ∧
    (let f : FlashSlot := { FlashSlot.reset with erased := true }
     let s : State := { serving with fw := { FwG.reset with slotB := f } }
     let g : FlashSlot := { f with data := f.data.writeAll f.size [0, 7], size := f.size + [0, 7].length, staged := none }
     s.admits ask 0 ses ∧ 1 < 2 ∧ s.fw.inUse ≠ some 1 ∧ (s.fw.slot 1) = f ∧ f.erased = true ∧ f.size + [0, 7].length ≤ 0x02000000 ∧
      g.complete f.size = false) ∧
    (let s : State := { serving with fw := { FwG.reset with slotB := { FlashSlot.reset with staged := some 0 } } }
     s.admits ask 0 ses ∧ (s.fw.slot 1).staged = some 0 ∧ s.fault.holder = none ∧ s.fault.queue = []) :=
  ⟨⟨serving_admits 2, by decide, by decide⟩, by decide, ⟨serving_admits 1, by decide⟩, ⟨admits_of _ _ (by decide) (by decide), by decide⟩,
    ⟨admits_of _ _ (by decide) (by decide), by decide⟩⟩

/-- The security group as given, on a device that serves. -/
def secured (g : SecG) : State := { serving with sec := g }

theorem witness_LifeCycleTamperAndProvisioning :
    (serving.admits ask 0 ses ∧ serving.sec.life = .blank ∧ (List.replicate 64 1).length = 64) ∧
    (let s := secured { SecG.reset with life := .provisioned }
     s.admits ask 0 ses ∧ s.sec.life = .provisioned) ∧
    (let s := secured { SecG.reset with life := .deployed }
     s.tamperOn 3 = true ∧ s.sec.tripped.contains 3 = false) ∧
    (secured { SecG.reset with wiping := true }).sec.wiping = true ∧
    (let s : State := { secured { SecG.reset with life := .deployed } with boot := { BootG.reset with image := some image0 } }
     s.boot.image = some image0 ∧ s.sec.life = .deployed ∧ s.dev = .run) ∧
    (serving.admits ask 2 ses ∧ (ses.role = 0 ∨ ses.recovery = true)) :=
  ⟨⟨serving_admits 0, by decide, by decide⟩, ⟨admits_of _ _ (by decide) (by decide), by decide⟩, by decide, by decide, by decide,
    ⟨serving_admits 2, by decide⟩⟩

/-- Mailbox channel 7 as given, on a device that serves. -/
def channel7 (x : Channel) : State := { serving with vcp := { serving.vcp with channels := [(7, x)] } }

theorem witness_MailboxRegistersAndSpiFrames :
    (let s := channel7 { Channel.reset with busy := true }
     s.regsOn = true ∧ 7 < 8 ∧ s.boot.waitPcie = false ∧ (s.channel 7).busy = true) ∧
    (restarting.regsOn = true ∧ restarting.boot.waitPcie = false ∧ (restarting.channel 7).busy = false ∧ restarting.serves = false) ∧
    (let s := channel7 { Channel.reset with busy := true, reply := some [1, 2, 3] }
     s.regsOn = true ∧ (s.channel 7).busy = true ∧ (s.channel 7).reply = some [1, 2, 3] ∧ [1, 2, 3].length ≤ 0x8000 ∧ s.vcp.mbx.wf = true) ∧
    Cells.wf Channel.reset (channel7 { Channel.reset with busy := true }).vcp.channels = true ∧
    (serving.spiOn = true ∧ 7 * 0x20000 ≤ 0xFFFFE ∧ 0xFFFFE < 0x100000 ∧ 0xFFFFE + [1, 2].length ≤ 0x100000 ∧ serving.vcp.mbx.wf = true) ∧
    7 * 0x20000 - 2 + [1, 2].length ≤ 7 * 0x20000 ∧ (2 ^ 20 - 1 + 1 ≤ 2 ^ 20 ∧ 0 < 1) ∧ spiFrame 0 = none ∧
    (let x := { sesMbx with ring := [1] }
     (withSes x).regsOn = true ∧ Cells.wf Channel.reset (withSes x).vcp.channels = true ∧ (withSes x).sessionOn 6 = some x ∧
      (withSes x).session? x.sid = some x ∧ x.lost = 0) := by decide

/-! ### Stage sets, commits, scenes, cue lists -/

/-- A device that serves, with stage sets as given. -/
def withSets (l : List StageSet) : State := { serving with scene := { SceG.reset with sets := l } }

/-- Its requests for those sets are admitted. -/
theorem withSets_admits (l : List StageSet) (id : Nat) (x : StageSet) (h : (withSets l).stageSet? id = some x) (hs : x.sid = 1) :
    (withSets l).admitsSet ask id ses x := ⟨admits_of _ 1 (by decide : serving.serves = true) (by decide : serving.session? 1 = some ses), (by decide : serving.audioServed = true), h, hs⟩

/-- The NODES items of one node, a row, a column, a rectangle and a fill. -/
def oneNode (form : Nat) : Nodes where
  form := form
  gain := true
  tap := false
  dest := 511
  src := 1535
  nd := 1
  ns := 1
  data := [(0x08000000, 0)]

/-- A set with many entries, more than the stage area holds. -/
def overfull : StageSet := { setIn .open none with added := [.form 4 (4 * 2 ^ 20) []] }

theorem witness_StageSetsAreFilled :
    (serving.admits ask 1 ses ∧ serving.audioServed = true ∧ (Option.getD none Attrs.dflt).ok = true ∧
      (serving.scene.sets.filter StageSet.live).length < 32 ∧
      ((serving.scene.sets.filter StageSet.live).filter (fun x => decide (x.sid = ask.sid))).length < 4) ∧
    ((withSets [setIn .open none]).admitsSet ask 5 ses (setIn .open none) ∧ (setIn .open none).editable = true ∧
      (withSets [setIn .open none]).areaUsed + (([{ h := 0x01000000, v := 1 }].map (withSets [setIn .open none]).addedOf).map Added.cost).foldl
        (· + ·) 0 ≤ stageArea) ∧
    ((withSets [overfull]).admitsSet ask 5 ses overfull ∧ overfull.editable = true ∧
      stageArea < (withSets [overfull]).areaUsed + (([{ h := 0x01000000, v := 1 }].map (withSets [overfull]).addedOf).map Added.cost).foldl
        (· + ·) 0) ∧
    ((withSets [setIn .scheduled (some 2000)]).admitsSet ask 5 ses (setIn .scheduled (some 2000)) ∧
      (setIn .scheduled (some 2000)).editable = false) ∧
    (∀ f ∈ formCommands, ∀ k ∈ f.2.2, (oneNode k).ok = true ∧ (oneNode k).dest + (oneNode k).nd ≤ serving.cap.dests ∧
      (oneNode k).src + (oneNode k).ns ≤ serving.cap.sources) ∧
    (3 ≤ 3 ∧ (-1000 : Int) ≤ -1000 ∧ (1000 : Int) ≤ 1000 ∧ (6165 : Int) ≤ 6165 ∧ 1535 < serving.cap.sources ∧ 511 < serving.cap.dests) := by
  refine ⟨⟨serving_admits 1, ?_⟩, ⟨withSets_admits _ _ _ (by decide) (by decide), ?_⟩,
    ⟨withSets_admits _ _ _ (by decide) (by decide), ?_⟩, ⟨withSets_admits _ _ _ (by decide) (by decide), ?_⟩, ?_, ?_⟩ <;> decide

/-- A set that waits for the staged plane. -/
def waitingSet : StageSet := { setIn .open none with waiting := true }

/-- A set being checked, whose request is not answered yet. -/
def checkingSet : StageSet := { setIn .checking none with reply := some ask }

/-- A checked set of session 2 that touches strip 0. -/
def foreign : StageSet := { setIn .checked none with sid := 2, added := [.entry { h := mkH 0x01 0 0x78, v := 0 }] }

/-- A device that serves, where session 1 owns the partition of strip 0. -/
def owning : State := { withSets [foreign] with
  vcp := { serving.vcp with owner := [(2, 1)] }
  params := [(mkH 0x01 0 0x7F, some 2)] }

theorem foldl_add_eq (k : Nat) : ∀ (l : List Nat) (a : Nat), (∀ n ∈ l, n = k) → l.foldl (· + ·) a = a + k * l.length := by
  intro l
  induction l with
  | nil => intro a _; simp
  | cons n l ih =>
    intro a h
    rw [List.foldl_cons, ih _ (fun m hm => h m (List.mem_cons_of_mem _ hm)), h n List.mem_cons_self, List.length_cons, Nat.mul_add]
    omega

/-- A check has at most 32 findings, which fit one reply. -/
theorem check_fits (s : State) (x : StageSet) (c : Option Nat) : itemsFit (findAns (s.check x c)).items := by
  have hl : (s.check x c).length ≤ 32 := List.length_take_le _ _
  have h : itemsSize (findAns (s.check x c)).items = 0 + 16 * (s.check x c).length := by
    unfold itemsSize findAns
    rw [foldl_add_eq 16 _ 0 (by simp [Item.size])]
    simp
  unfold itemsFit replyMax statusSize
  omega

/-- The partitions of the set `foreign` for which session 1 co-signs. -/
theorem foreign_mine : ((owning.admitted ask).needCosign foreign ((owning.admitted ask).bodyOf foreign.added) (owning.admitted ask)).filter
    (fun p => decide ((owning.admitted ask).owner p = ask.sid)) = [2] := by decide

/-- The clause about an armed cue's scene is met by `witness_SceneCueTakesThePlane`. -/
theorem witness_StageSetsAreCheckedAndCosigned :
    (let s := withSets [waitingSet]
     s.stageSet? 5 = some waitingSet ∧ s.scene.holder = none ∧ s.nextNodeCue = none ∧ waitingSet.waiting = true ∧ waitingSet.live = true ∧
      ∀ y ∈ s.scene.sets, y.waiting = true → y.live = true → 5 ≤ y.id) ∧
    ((withSets [setIn .open none]).admitsSet ask 5 ses (setIn .open none) ∧ (setIn .open none).st = .open ∧
      (withSets [setIn .open none]).scene.checkQ.length < 16) ∧
    (let s : State := { withSets [checkingSet] with scene := { SceG.reset with sets := [checkingSet], checkQ := [5] } }
     s.stageSet? 5 = some checkingSet ∧ s.scene.checkQ = 5 :: [] ∧ checkingSet.reading = none ∧ checkingSet.want = none ∧
      checkingSet.reply = some ask ∧ itemsFit (findAns (s.check checkingSet none)).items) ∧
    (let s := withSets [setIn .checked none]
     s.admits ask 1 ses ∧ s.audioServed = true ∧ (setIn .checked none).st = .checked ∧ s.admits ask 2 ses ∧
      ((s.admitted ask).needCosign (setIn .checked none) ((s.admitted ask).bodyOf (setIn .checked none).added) (s.admitted ask)).filter
        (fun p => decide ((s.admitted ask).owner p = ask.sid)) = []) ∧
    (owning.stageSet? 5 = some foreign ∧ owning.admits ask 1 ses ∧ owning.audioServed = true ∧ foreign.st = .checked ∧
      ((owning.admitted ask).needCosign foreign ((owning.admitted ask).bodyOf foreign.added) (owning.admitted ask)).filter
        (fun p => decide ((owning.admitted ask).owner p = ask.sid)) ≠ [] ∧
      (∃ digest mac, digest = (owning.admitted ask).contentDigest foreign ∧ mac = Crypto.hmac ses.ks digest) ∧
      (∃ digest mac, ¬ (digest = (owning.admitted ask).contentDigest foreign ∧ mac = Crypto.hmac ses.ks digest))) ∧
    (∀ st ∈ [SetSt.open, .checking, .checked, .scheduled, .committed, .discarded],
      (withSets [setIn st none]).stageSet? 5 = some (setIn st none) ∧ (setIn st none).sid = 1) := by
  refine ⟨by decide, ⟨withSets_admits _ _ _ (by decide) (by decide), by decide, by decide⟩,
    ⟨by decide, by decide, by decide, by decide, by decide, check_fits _ _ _⟩,
    ⟨admits_of _ 1 (by decide) (by decide), by decide, by decide, admits_of _ 2 (by decide) (by decide), by decide⟩,
    ⟨by decide, admits_of _ 1 (by decide) (by decide), by decide, by decide, by rw [foreign_mine]; decide, ⟨_, _, rfl, rfl⟩, ?_⟩, by decide⟩
  exact ⟨0 :: (owning.admitted ask).contentDigest foreign, [], fun h => by simpa using congrArg List.length h.1⟩

/-- A checked set that changes the shape, eight samples after a node gain changed. -/
def reshaping : StageSet := { setIn .checked none with added := [.entry { h := 0x0A000000, v := 1 }] }

/-- The device that holds it. -/
def reshapes : State := { withSets [reshaping] with mere := { MereG.reset with lastC := some 1008 } }

/-- A set with one node entry. -/
def nodeSet (id : Nat) : StageSet := { setIn .checked none with id := id, added := [.node { h := 0x03000000, v := 0 } 0 2] }

/-- A device whose cue list 15 is armed with set 6, which has a node entry, at sample 1020. -/
def hindering : State := { withSets [nodeSet 5, nodeSet 6] with
  vcp := { serving.vcp with owner := [(1, 1)] }
  scene := { SceG.reset with
    sets := [nodeSet 5, nodeSet 6]
    cues := [(15, { st := .armed, cues := [{ what := .set 6, time := .mcc 1020 }], mcc := [1020], next := 0 })] } }

theorem witness_CommitsAreScheduled :
    (let x := setIn .checked none
     let s := withSets [x]
     s.admitsSet ask 5 ses x ∧ x.st = .checked ∧ x.waiting = false ∧ (s.admitted ask).scene.changing = false ∧
      (s.admitted ask).cosignedAll x = true ∧ x.want = none ∧ s.twin.role ≠ .active ∧ s.mcc + 2 * s.B ≤ 1016 ∧ 1016 ≤ s.mcc + 2 ^ 40 ∧
      Fmt.cdiv (s.mcc + 2 * s.B) s.B * s.B = 1016 ∧ (x.hasNodes && (s.admitted ask).hindersCue x.id 1016) = false ∧
      ((s.admitted ask).chkOf x (some 1016)).late 1016 = [] ∧ 1015 < s.mcc + 2 * s.B ∧ s.mcc + 2 ^ 40 < 1000 + 2 ^ 40 + 1) ∧
    (let x := reshaping
     let s := reshapes
     s.admitsSet ask 5 ses x ∧ x.st = .checked ∧ x.waiting = false ∧ (s.admitted ask).scene.changing = false ∧
      (s.admitted ask).cosignedAll x = true ∧ x.want = none ∧ s.twin.role ≠ .active ∧ s.mcc + 2 * s.B ≤ 1016 ∧
      (x.hasNodes && (s.admitted ask).hindersCue x.id 1016) = false ∧ ((s.admitted ask).chkOf x (some 1016)).late 1016 ≠ [] ∧
      itemsFit (findAns (((s.admitted ask).chkOf x (some 1016)).late 1016)).items) ∧
    (let x := nodeSet 5
     let s := hindering
     s.admitsSet ask 5 ses x ∧ x.st = .checked ∧ x.waiting = false ∧ (s.admitted ask).scene.changing = false ∧
      (s.admitted ask).cosignedAll x = true ∧ x.want = none ∧ s.twin.role ≠ .active ∧ s.mcc + 2 * s.B ≤ 1016 ∧
      ¬ (x.hasNodes && (s.admitted ask).hindersCue x.id 1016) = false) ∧
    (let x := { setIn .checked none with want := some When.next }
     let s := withSets [x]
     s.stageSet? 5 = some x ∧ x.st = .checked ∧ x.waiting = false ∧ s.scene.changing = false ∧ s.cosignedAll x = true ∧
      x.want = some .next ∧ commitAt s.mcc s.B .next = .inl 1016 ∧ (x.hasNodes && s.hindersCue x.id 1016) = false ∧
      (s.chkOf x (some 1016)).late 1016 = []) :=
  ⟨⟨withSets_admits _ _ _ (by decide) (by decide), by decide⟩,
    ⟨⟨admits_of _ 1 (by decide) (by decide), by decide⟩, by decide, by decide, by decide, by decide, by decide, by decide, by decide,
      by decide, by decide, by unfold itemsFit; decide⟩,
    ⟨⟨admits_of _ 1 (by decide) (by decide), by decide⟩, by decide⟩, by decide⟩

theorem witness_CancelUntilTwoBlocksBefore :
    (let x := setIn .scheduled (some 1017)
     let s := withSets [x]
     s.admitsSet ask 5 ses x ∧ x.st = .scheduled ∧ x.commit = some 1017 ∧ s.mcc + 2 * s.B < 1017) ∧
    (let x := setIn .scheduled (some 1016)
     let s := withSets [x]
     s.admitsSet ask 5 ses x ∧ x.st = .scheduled ∧ x.commit = some 1016 ∧ 1016 ≤ s.mcc + 2 * s.B) ∧
    (let x := setIn .scheduled (some 1000)
     (withSets [x]).admitsSet ask 5 ses x ∧ x.st = .scheduled ∧ x.commit = some 1000 ∧ (withSets [x]).live = true ∧ (5 : Nat) ≠ 0 ∧
      (withSets [x]).commitDue 5 = some x) :=
  ⟨⟨withSets_admits _ _ _ (by decide) (by decide), by decide, by decide, by decide⟩,
    ⟨withSets_admits _ _ _ (by decide) (by decide), by decide, by decide, by decide⟩,
    ⟨withSets_admits _ _ _ (by decide) (by decide), by decide, by decide, by decide, by decide, by decide⟩⟩

theorem witness_StageSetLimits :
    (let live := serving.scene.sets.filter (fun x => decide (x.st ≠ .committed) && decide (x.st ≠ .discarded))
     serving.admits ask 1 ses ∧ serving.audioServed = true ∧ live.length < 32 ∧ (live.filter (fun x => decide (x.sid = ask.sid))).length < 4) ∧
    (let s := withSets (List.replicate 4 (setIn .open none))
     let live := s.scene.sets.filter (fun x => decide (x.st ≠ .committed) && decide (x.st ≠ .discarded))
     s.admits ask 1 ses ∧ s.audioServed = true ∧ 4 ≤ (live.filter (fun x => decide (x.sid = ask.sid))).length) ∧
    (let s := withSets (List.replicate 32 { setIn .open none with sid := 2 })
     let live := s.scene.sets.filter (fun x => decide (x.st ≠ .committed) && decide (x.st ≠ .discarded))
     s.admits ask 1 ses ∧ s.audioServed = true ∧ 32 ≤ live.length) :=
  ⟨⟨serving_admits 1, by decide, by decide, by decide⟩, ⟨admits_of _ 1 (by decide) (by decide), by decide, by decide⟩,
    ⟨admits_of _ 1 (by decide) (by decide), by decide, by decide⟩⟩

/-! ### The scene store -/

theorem ofBE_toBE4 (n : Nat) (h : n < 2 ^ 32) : Fmt.ofBE ((Fmt.toBE 4 n).map (· % 256)) = n := by
  simp [Fmt.ofBE, Fmt.toBE]
  omega

theorem crcBit_lt (c : Nat) (h : c < 2 ^ 32) : Crypto.crcBit c < 2 ^ 32 := by
  unfold Crypto.crcBit
  split
  · exact Nat.xor_lt_two_pow (by omega) (by omega)
  · omega

theorem crcByte_lt (c b : Nat) (h : c < 2 ^ 32) : Crypto.crcByte c b < 2 ^ 32 := by
  have run : ∀ (l : List Nat) (c : Nat), c < 2 ^ 32 → l.foldl (fun a _ => Crypto.crcBit a) c < 2 ^ 32 := by
    intro l
    induction l with
    | nil => exact fun _ h => h
    | cons _ l ih => exact fun c h => ih _ (crcBit_lt c h)
  exact run _ _ (Nat.xor_lt_two_pow h (by omega))

/-- A CRC has 32 bits. -/
theorem crc32_lt (l : List Nat) : Crypto.crc32 l < 2 ^ 32 := by
  have run : ∀ (l : List Nat) (c : Nat), c < 2 ^ 32 → l.foldl Crypto.crcByte c < 2 ^ 32 := by
    intro l
    induction l with
    | nil => exact fun _ h => h
    | cons b l ih => exact fun c h => ih _ (crcByte_lt c b h)
  exact Nat.xor_lt_two_pow (run _ _ (by omega)) (by omega)

/-- A 32-bit number written as four bytes reads back. -/
theorem read_word (m : Memory) (a n : Nat) (h : n < 2 ^ 32) : Fmt.ofBE ((m.writeAll a (Fmt.toBE 4 n)).readAll a 4) = n := by
  have e : (m.writeAll a (Fmt.toBE 4 n)).readAll a 4 = (Fmt.toBE 4 n).map (· % 256) := by
    have hl : (Fmt.toBE 4 n).length = 4 := by simp [Fmt.toBE]
    refine List.ext_getElem (by simp [Memory.readAll, hl]) fun i h1 h2 => ?_
    simp only [Memory.readAll, List.getElem_map, List.getElem_range]
    exact Memory.read_writeAll_same _ _ _ _ (by simpa [Memory.readAll, hl] using h1)
  rw [e, ofBE_toBE4 n h]

/-- A run of bytes outside the bytes written reads as before. -/
theorem readAll_outside (m : Memory) (a b n : Nat) (v : List Nat) (h : b + n ≤ a ∨ a + v.length ≤ b) :
    (m.writeAll a v).readAll b n = m.readAll b n :=
  List.map_congr_left fun i hi => Memory.read_writeAll_other _ _ _ _ (by have := List.mem_range.mp hi; omega)

/-- A directory copy with number 1 whose entry 0 is in use for partition 1, its map page 0, before its CRC is written; and page 0 of zeros
with its CRC still to come. -/
def dirCells : Memory := [(7, 1#8), (96, 1#8), (99, 1#8)]

/-- The same with both CRCs. -/
def store1 : Memory :=
  (dirCells.writeAll 8 (Fmt.toBE 4 (dirCrc dirCells 0))).writeAll (0x400000 + 4088) (Fmt.toBE 4 (Crypto.crc32 (dirCells.readAll 0x400000 4088)))

theorem toBE4_length (n : Nat) : (Fmt.toBE 4 n).length = 4 := by simp [Fmt.toBE]

theorem store1_low (b n : Nat) (h : b + n ≤ 8 ∨ 12 ≤ b) (h' : b + n ≤ 0x400000 + 4088) : store1.readAll b n = dirCells.readAll b n := by
  unfold store1
  rw [readAll_outside _ _ _ _ _ (.inl h'), readAll_outside _ _ _ _ _ (by rw [toBE4_length]; omega)]

theorem dirCrc_lt (m : Memory) (k : Nat) : dirCrc m k < 2 ^ 32 := crc32_lt _

/-- The first copy is in force where it is valid and its number is not the lower one. -/
theorem dirCopy_first (m : Memory) (h : dirValid m 0 = true) (hs : ¬ dirSeq m 0 < dirSeq m 1) : dirCopy m = some 0 := by
  unfold dirCopy
  rw [h]
  cases dirValid m 1 <;> simp [hs]

theorem dirEnt_of (m : Memory) (k id : Nat) (h : dirCopy m = some k) :
    dirEnt m id = DirEnt.ofBytes (m.readAll (dirBase k + 64 + 64 * id) 64) := by
  unfold dirEnt
  rw [h]

theorem dirBase_zero : dirBase 0 = 0 := Nat.zero_mul _
theorem dirBase_one : dirBase 1 = 0x20000 := Nat.one_mul _

theorem store1_valid : dirValid store1 0 = true := by
  have h1 : store1.readAll 8 4 = (dirCells.writeAll 8 (Fmt.toBE 4 (dirCrc dirCells 0))).readAll 8 4 :=
    readAll_outside _ _ _ _ _ (.inl (by omega))
  have h2 : dirCrc store1 0 = dirCrc dirCells 0 := by
    unfold dirCrc
    rw [dirBase_zero, store1_low 0 8 (by omega) (by omega), store1_low (0 + 12) _ (by omega) (by omega)]
  unfold dirValid
  rw [dirBase_zero, Nat.zero_add, h1, h2, read_word _ _ _ (dirCrc_lt _ _)]
  simp

theorem store1_copy : dirCopy store1 = some 0 := by
  have h1 : dirSeq store1 1 = 0 := by
    unfold dirSeq
    rw [dirBase_one, store1_low 0x20000 8 (by omega) (by omega)]
    decide
  refine dirCopy_first _ store1_valid ?_
  rw [h1]
  exact Nat.not_lt_zero _

/-- Entry 0 of that store. -/
def entry0 : DirEnt := { DirEnt.free with part := 1, used := true }

theorem store1_entry : dirEnt store1 0 = entry0 := by
  rw [dirEnt_of _ _ _ store1_copy, dirBase_zero, store1_low _ _ (by omega) (by omega)]
  decide

theorem store1_page : pageRead store1 0 = some (dirCells.readAll 0x400000 4088) := by
  have hc : store1.readAll 0x400000 4088 = dirCells.readAll 0x400000 4088 := store1_low _ _ (by omega) (by omega)
  unfold pageRead
  rw [show pageBase 0 = 0x400000 from rfl, show pageBytes = 4088 from rfl, hc, show store1.readAll (0x400000 + 4088) 4 =
    ((dirCells.writeAll 8 (Fmt.toBE 4 (dirCrc dirCells 0))).writeAll (0x400000 + 4088)
      (Fmt.toBE 4 (Crypto.crc32 (dirCells.readAll 0x400000 4088)))).readAll (0x400000 + 4088) 4 from rfl, read_word _ _ _ (crc32_lt _)]
  simp

/-- Scene 0 of that store reads back: an empty record of partition 1. -/
theorem store1_scene : sceneRead store1 0 = .good entry0 [] := by
  have hm : mapPages (dirCells.readAll 0x400000 4088) = [] := by
    have : Fmt.slice (dirCells.readAll 0x400000 4088) 0 4 = dirCells.readAll 0x400000 4 := by
      simp only [Fmt.slice, Memory.readAll, List.drop_zero, ← List.map_take, List.take_range]
      rfl
    unfold mapPages
    rw [this]
    decide
  unfold sceneRead
  simp only [store1_entry, show entry0.map = 0 from rfl, store1_page, hm]
  decide

theorem readAll_empty (a n : Nat) : Memory.readAll [] a n = List.replicate n 0 :=
  List.eq_replicate_iff.mpr ⟨by simp [Memory.readAll], fun b hb => by
    obtain ⟨i, -, rfl⟩ := List.mem_map.mp hb
    exact Memory.read_nil _⟩

theorem dirEnt_none (m : Memory) (id : Nat) (h : dirCopy m = none) : dirEnt m id = DirEnt.free := by
  unfold dirEnt
  rw [h]

/-- An empty store has no scene, whichever copies pass their CRC. -/
theorem dirEnt_empty (id : Nat) : (dirEnt [] id).used = false := by
  rcases h : dirCopy [] with _ | k
  · rw [dirEnt_none _ _ h]
    rfl
  · rw [dirEnt_of _ _ _ h, readAll_empty]
    decide

theorem usedPages_empty : usedPages [] = [] := by
  have : dirList [] = [] := by
    unfold dirList
    rw [List.filter_eq_nil_iff]
    intro e he
    obtain ⟨i, -, rfl⟩ := List.mem_map.mp he
    simp [dirEnt_empty]
  unfold usedPages
  rw [this]
  rfl

theorem insertPage_length (p : Nat × Nat) (l : List (Nat × Nat)) : (insertPage p l).length = l.length + 1 := by
  induction l with
  | nil => rfl
  | cons q l ih =>
    unfold insertPage
    split <;> simp [ih]

/-- In an empty store every page is free. -/
theorem freePages_empty : (freePages []).length = 7168 := by
  have run : ∀ l : List Nat, (l.foldr (fun p l => insertPage (pageWear [] p, p) l) []).length = l.length := by
    intro l
    induction l with
    | nil => rfl
    | cons p l ih => rw [List.foldr_cons, insertPage_length, ih, List.length_cons]
  unfold freePages
  rw [usedPages_empty, List.length_map, run]
  simp [scenePages]

/-- A scene being saved by the request. -/
def saving1 (n : Nat) : Saving := { part := 1, prof := 0, shape := 0, scene := 0, label := [], record := List.replicate n 0, gen := 0, req := ask }

theorem saving1_length (n : Nat) : (saving1 n).record.length = n := List.length_replicate

/-- A record of more than 2040 pages does not fit. -/
theorem record_long (m : Memory) (r : List Nat) (h : 2040 < Fmt.cdiv r.length pageBytes) : recordWrite m r = none := by
  unfold recordWrite
  rw [if_pos (.inr h)]

theorem saving1_long : recordWrite [] (saving1 8343608).record = none := record_long _ _ (by rw [saving1_length]; decide)

theorem saving1_short : (recordWrite [] (saving1 1).record).isSome = true := by
  have : Fmt.cdiv (saving1 1).record.length pageBytes = 1 := by rw [saving1_length]; decide
  unfold recordWrite
  simp only [this, List.length_take, freePages_empty]
  rw [if_neg (by omega)]
  rfl

/-- A device that serves, where session 1 owns partition 1, with the scene engine as given. -/
def scenes (g : SceG) : State := { serving with scene := g, vcp := { serving.vcp with owner := [(1, 1)] } }

theorem scenes_admits (g : SceG) (need : Nat) : (scenes g).admits ask need ses :=
  admits_of _ _ (by decide : serving.serves = true) (by decide : serving.session? 1 = some ses)

theorem scenes_store (g : SceG) : (scenes g).scene.mstore = g.mstore := rfl

theorem scenes_set (g : SceG) (x : StageSet) (h : g.sets = [x]) (hi : x.id = 5) : (scenes g).stageSet? 5 = some x := by
  show g.sets.find? (fun y => decide (y.id = 5)) = some x
  rw [h]
  simp [hi]

/-- A set whose recall of scene 0 is being read. -/
def readingSet : StageSet := { setIn .open none with reading := some (0, 0, ask) }

/-- One cue: stage set 5 at sample 2000. -/
def cue5 : Cue := { what := .set 5, time := .mcc 2000 }

/-- Cue list 15 in a state, with that cue. -/
def listed (st : CueSt) : SceG :=
  { SceG.reset with
    sets := [setIn .checked none]
    cues := [(15, { st := st, cues := [cue5], mcc := if st = .armed then [2000] else [], next := 0 })] }

/-- What the clauses about a store with scene 0 ask, of any such store. -/
def storeClauses (m : Memory) : Prop :=
  (let s := scenes { SceG.reset with mstore := m }
   s.admits ask 1 ses ∧ s.admits ask 2 ses ∧ s.audioServed = true ∧ (dirEnt s.scene.mstore 0).used = true ∧
    s.mayScene ses (dirEnt s.scene.mstore 0).part = true) ∧
  (let s : State := { scenes { SceG.reset with mstore := m, sets := [setIn .open none] } with vcp := { serving.vcp with owner := [(1, 2)] } }
   s.admitsSet ask 5 ses (setIn .open none) ∧ (dirEnt s.scene.mstore 0).used = true ∧ s.mayScene ses (dirEnt s.scene.mstore 0).part = false) ∧
  (let s := scenes { SceG.reset with mstore := m, sets := [setIn .open none] }
   s.admitsSet ask 5 ses (setIn .open none) ∧ (setIn .open none).st = .open ∧ (setIn .open none).reading = none ∧ 63 < 64 ∧
    (dirEnt s.scene.mstore 0).used = true ∧ s.mayScene ses (dirEnt s.scene.mstore 0).part = true) ∧
  (let s := scenes { SceG.reset with mstore := m, sets := [readingSet] }
   s.stageSet? 5 = some readingSet ∧ readingSet.reading = some (0, 0, ask) ∧ sceneRead s.scene.mstore 0 = .good entry0 [] ∧
    s.areaUsed + ((s.recallOf 0 0).map Added.cost).foldl (· + ·) 0 ≤ stageArea)

theorem storeClauses_of (m : Memory) (he : dirEnt m 0 = entry0) (hs : sceneRead m 0 = .good entry0 []) : storeClauses m := by
  have hu : (dirEnt m 0).used = true := congrArg DirEnt.used he
  have adm : (scenes { SceG.reset with mstore := m, sets := [setIn .open none] }).admitsSet ask 5 ses (setIn .open none) :=
    ⟨scenes_admits _ 1, (by decide : serving.audioServed = true), scenes_set _ _ rfl rfl, rfl⟩
  refine ⟨⟨scenes_admits _ 1, scenes_admits _ 2, (by decide : serving.audioServed = true), hu, ?_⟩, ⟨adm, hu, ?_⟩,
    ⟨adm, rfl, rfl, by decide, hu, ?_⟩, ⟨scenes_set _ _ rfl rfl, rfl, hs, ?_⟩⟩
  · show (scenes { SceG.reset with mstore := m }).mayScene ses (dirEnt m 0).part = true
    rw [he]
    rfl
  · show ({ scenes SceG.reset with vcp := { serving.vcp with owner := [(1, 2)] } } : State).mayScene ses (dirEnt m 0).part = false
    rw [he]
    rfl
  · show (scenes { SceG.reset with mstore := m }).mayScene ses (dirEnt m 0).part = true
    rw [he]
    rfl
  · unfold State.recallOf
    show _ + (List.map Added.cost (match sceneRead m 0 with
      | .good e r => [.recall e.part 0 _ (recordParams r) (recordNodes r)]
      | _ => [])).foldl (· + ·) 0 ≤ _
    rw [hs]
    show _ + (0 + Added.cost (.recall _ 0 _ (recordParams []) _)) ≤ _
    rw [show recordParams [] = [] by decide]
    show 0 + (0 + 0) ≤ _
    decide

/-- Cue list 15 armed with scene 0 of a store at sample 2000. -/
def sceneCue (m : Memory) (scope : Nat) : State := { scenes { SceG.reset with
    mstore := m
    sets := [setIn .checked none]
    cues := [(15, { st := .armed, cues := [{ what := .scene 0 scope, time := .mcc 2000 }], mcc := [2000], next := 0 })] } with mcc := 2000 }

theorem sceneCue_adds (m : Memory) (scope : Nat) (hs : sceneRead m 0 = .good entry0 []) :
    ((sceneCue m scope).cueAdds (.scene 0 scope)).any Added.hasNodes = inScope scope 3 := by
  unfold State.cueAdds State.recallOf
  rw [show (sceneCue m scope).scene.mstore = m from rfl]
  simp [hs, Added.hasNodes]

/-- With node entries in its scope the scene is the next to take the free plane. -/
theorem sceneCue_next (m : Memory) (hs : sceneRead m 0 = .good entry0 []) : (sceneCue m 1).nextNodeCue = some (.scene 0 1) := by
  have hc : (sceneCue m 1).nodeCues = [(.scene 0 1, 2000)] := by
    unfold State.nodeCues
    rw [show (sceneCue m 1).scene.cues.filter (fun l => decide (l.2.st = .armed)) = (sceneCue m 1).scene.cues from by
      show List.filter _ [_] = _
      rfl]
    show (List.map _ (List.filter _ [(({ what := .scene 0 1, time := .mcc 2000 } : Cue), 2000)])) ++ [] = _
    rw [List.filter_cons_of_pos (by rw [sceneCue_adds m 1 hs]; decide)]
    rfl
  unfold State.nextNodeCue
  rw [hc]
  rfl

theorem witness_SceneCueTakesThePlane :
    (sceneCue store1 1).stageSet? 5 = some (setIn .checked none) ∧ (sceneCue store1 1).scene.holder = none ∧
    (sceneCue store1 1).nextNodeCue = some (.scene 0 1) := ⟨rfl, rfl, sceneCue_next _ store1_scene⟩

theorem witness_ScenesAndCueLists :
    ((scenes SceG.reset).admits ask 1 ses ∧ (scenes SceG.reset).audioServed = true ∧ 0 < 1 ∧ 1 < 16 ∧ 1023 < 1024 ∧
      (scenes SceG.reset).owner 1 = ask.sid ∧ (dirEnt (scenes SceG.reset).scene.mstore 1023).used = false) ∧
    ((scenes { SceG.reset with saving := [saving1 1] }).scene.saving = saving1 1 :: [] ∧ (saving1 1).req = ask ∧
      recordWrite [] (saving1 (8343608)).record = none ∧ (recordWrite [] (saving1 1).record).isSome = true) ∧
    storeClauses store1 ∧
    (let s := scenes (listed .loaded)
     s.admits ask 1 ses ∧ s.audioServed = true ∧ 15 < 16 ∧ (s.cueList 15).st ≠ .armed ∧ [cue5].length ≤ 256 ∧ [cue5].all cueOk = true ∧
      Cells.wf CueList.reset s.scene.cues = true ∧ (s.cueList 15).st = .loaded) ∧
    (let s := scenes { SceG.reset with cues := [(15, { st := .loaded, cues := [], mcc := [], next := 0 })] }
     s.admits ask 1 ses ∧ (s.cueList 15).st = .loaded ∧
      (s.admitted ask).armAll ask.sid 15 [] ((s.admitted ask).timedCues (s.cueList 15)) = none) ∧
    (let s := scenes (listed .armed)
     s.admits ask 1 ses ∧ s.audioServed = true ∧ (s.cueList 15).st = .armed ∧ Cells.wf CueList.reset s.scene.cues = true ∧ s.scene.units = none) ∧
    (let s : State := { scenes (listed .armed) with mcc := 2000 }
     (s.cueList 15).st = .armed ∧ (s.cueList 15).left = (⟨.set 5, .mcc 2000⟩, 2000) :: [] ∧ 2000 ≤ s.mcc ∧
      s.stageSet? 5 = some (setIn .checked none) ∧ (setIn .checked none).st = .checked ∧ (setIn .checked none).waiting = false ∧
      s.scene.units = none) ∧
    (∀ scope ∈ [1, 8], let s := sceneCue store1 scope
     (s.cueList 15).st = .armed ∧ (s.cueList 15).left = (⟨.scene 0 scope, .mcc 2000⟩, 2000) :: [] ∧ 2000 ≤ s.mcc) ∧
    ((sceneCue store1 1).cueAdds (.scene 0 1)).any Added.hasNodes = true ∧
    ((sceneCue store1 8).cueAdds (.scene 0 8)).any Added.hasNodes = false := by
  exact ⟨⟨scenes_admits _ 1, by decide, by decide, by decide, by decide, by decide, dirEnt_empty 1023⟩,
    ⟨by decide, by decide, saving1_long, saving1_short⟩, storeClauses_of _ store1_entry store1_scene,
    ⟨scenes_admits _ 1, by decide⟩, ⟨scenes_admits _ 1, by decide⟩, ⟨scenes_admits _ 1, by decide⟩, by decide,
    fun scope _ => ⟨rfl, rfl, Nat.le_refl 2000⟩, (sceneCue_adds _ 1 store1_scene).trans (by decide), (sceneCue_adds _ 8 store1_scene).trans (by decide)⟩

/-! ### Ports -/

/-- Receive and transmit directions of SAP 15 as given, at the engine rate, with a clock code (0 the master of the engine clock). -/
def sapWith (clock : Nat) (d : PortDir) : State := { up with
  ports := { PortG.reset with sap := [(30, d), (31, d)] }
  params := [(mkH 0x20 15 2, some 0), (mkH 0x20 15 7, some clock), (mkH 0x20 15 0x12, some 0), (mkH 0x20 15 0x17, some clock)] }

/-- A running direction whose next frame is stamped with the MCC. -/
def runDir : PortDir := { PortDir.reset with running := true, nextStamp := some 1000, mask := 3 }

theorem witness_SapDirectionsRun :
    (15 < 16 ∧ Fmt.bit up.power.domains 3 = true) ∧
    (let s := sapWith 0 { PortDir.reset with starting := true }
     ∀ tx : Bool, (s.sapCfg 15 tx).master = true ∧ (s.sapDir 15 tx).active = true ∧ (s.sapDir 15 tx).running = false) ∧
    (let s := sapWith 0 runDir
     (s.sapCfg 15 false).master = true ∧ (s.sapCfg 15 true).master = true ∧ (s.sapDir 15 false).running = true ∧ (s.sapCfg 15 false).kind = .engine ∧ (s.sapCfg 15 false).clock = 0 ∧
      (s.sapDir 15 false).nextStamp = some s.mcc ∧ s.mcc < 2 ^ 64 ∧ Cells.wf SlotSt.reset (s.sapDir 15 false).slots = true ∧
      Cells.wf 0 s.audio.rx = true ∧ (s.sapDir 15 true).running = true ∧ (s.sapCfg 15 true).kind = .engine ∧ (s.sapCfg 15 true).clock = 0) ∧
    (let s := sapWith 1 runDir
     ∀ tx : Bool, let c := s.sapCfg 15 tx
      (s.sapDir 15 tx).running = true ∧ c.master = false ∧ s.obeys = false ∧ c.kind = .engine ∧
      2 * s.amclk ≤ (2 * s.amclk / c.rate) * c.rate ∧ 1 * c.rate < 2 * s.amclk ∧
      s.sapClean c (s.amclk / c.rate) (c.slots * c.slotBits) = true ∧ s.sapClean c (2 * s.amclk / c.rate) (c.slots * c.slotBits) = false ∧
      s.sapClean c (s.amclk / c.rate) 1 = false) ∧
    (let s := sapWith 1 { PortDir.reset with starting := true, measuring := true, meas := 64 }
     ∀ tx : Bool, (s.sapDir 15 tx).running = false ∧ (s.sapDir 15 tx).measuring = true ∧ 64 ≤ (s.sapDir 15 tx).meas ∧
      (s.sapCfg 15 tx).master = false ∧ s.obeys = false ∧ (s.sapDir 15 tx).shadow = none ∧ (s.sapCfg 15 tx).clock ≠ 3 ∧
      (s.sapDir 15 tx).mismatch = false ∧ rateMatches s.amclk (64 * s.amclk / (s.sapCfg 15 tx).rate) (s.sapCfg 15 tx).rate = true ∧
      rateMatches s.amclk (128 * s.amclk / (s.sapCfg 15 tx).rate) (s.sapCfg 15 tx).rate = false) ∧
    (let s := sapWith 0 { runDir with wanted := some 1 }
     ∀ tx : Bool, let d1 := (s.sapIdle 15 tx s.mcc).sapDir 15 tx
      d1.wanted = some 1 ∧ ∀ k ∈ maskSlots d1.mask 64, Fmt.bit 1 k = true ∨ (d1.slot k).silent (d1.now (s.sapCfg 15 tx).kind s.mcc) = true) ∧
    (let s := sapWith 0 { runDir with shadow := some (1, 1) }
     ∀ tx : Bool, (s.sapDir 15 tx).shadow = some (1, 1) ∧ 1 ≤ 1 ∧ (s.sapDir 15 tx).running = true) ∧
    (let s := sapWith 0 { runDir with stopping := some 2 }
     ∀ tx : Bool, let d1 := (s.sapIdle 15 tx s.mcc).sapDir 15 tx
      d1.stopping = some 2 ∧ 2 ≤ 2 ∧ d1.again = false) := by
  decide

/-- Both directions of MADI 7 as given, connected directly. -/
def madiWith (d : PortDir) : State := { up with
  ports := { PortG.reset with madi := [(14, d), (15, d)] }
  params := [(mkH 0x21 7 2, some 1), (mkH 0x21 7 4, some up.fs)] }

/-- Two subframes, the first with the channel marker. -/
def madiTwo : List Nat := [1, 0]

theorem witness_MadiPortsRun :
    (7 < 8 ∧ Fmt.bit up.power.domains 3 = true) ∧
    (let s := madiWith { PortDir.reset with starting := true, meas := 64 }
     (s.madiDir 7 false).active = true ∧ (s.madiDir 7 false).running = false ∧ 64 ≤ (s.madiDir 7 false).meas ∧ s.obeys = false ∧
      rateMatches s.amclk (64 * s.amclk / s.at 0x21 7 4) (s.at 0x21 7 4) = true ∧
      s.madiClean 7 madiTwo 2 (s.amclk / s.fs) = true ∧ s.madiClean 7 madiTwo 3 (s.amclk / s.fs) = false ∧
      2 * s.amclk ≤ (2 * s.amclk) * s.at 0x21 7 4 ∧ 1 * s.at 0x21 7 4 < 2 * s.amclk) ∧
    (let s := madiWith runDir
     (s.madiDir 7 false).running = true ∧ (s.madiDir 7 false).stopping = none ∧ s.madiDirect 7 = true ∧
      (s.madiDir 7 false).nextStamp = some 1000 ∧ 1000 < 2 ^ 64 ∧ Cells.wf SlotSt.reset (s.madiDir 7 false).slots = true ∧
      Cells.wf 0 s.audio.rx = true ∧ s.obeys = false ∧
      s.madiClean 7 madiTwo 2 (s.amclk / s.fs) = true ∧ s.madiClean 7 madiTwo 3 (s.amclk / s.fs) = false) ∧
    (let s := madiWith runDir
     (s.madiDir 7 true).active = true ∧ (s.madiDir 7 true).stopping = none ∧ s.madiDiv 7 = 1 ∧ Cells.wf 0 s.ports.block = true) := by decide

/-- The headset port as given, detecting, with button repeats. -/
def headset (g : HspG) : State := { up with
  ports := { PortG.reset with hsp := g }
  params := [(mkH 0x22 0 0, some 1), (mkH 0x22 0 4, some 1)] }

theorem witness_HeadsetPortFollowsTheAccessory :
    (let s := headset HspG.reset
     s.on 0x22 0 0 = true ∧ s.ports.hsp.inserted = false ∧ Fmt.bit s.power.domains 7 = true) ∧
    (let s := headset { HspG.reset with inserted := true }
     s.on 0x22 0 0 = true ∧ s.ports.hsp.inserted = true ∧ s.ports.hsp.leaving = none ∧ s.ports.hsp.type = 0 ∧
      Fmt.bit s.power.domains 7 = true) ∧
    (let s := headset { HspG.reset with inserted := true, type := 2, bias := true }
     s.ports.hsp.leaving = none ∧ s.ports.hsp.bias = true ∧ s.ports.hsp.touch = false ∧ s.on 0x22 0 0 = true ∧
      s.ports.hsp.inserted = true) ∧
    (let s := headset { HspG.reset with inserted := true, type := 2, bias := true, leaving := some 1000 }
     s.ports.hsp.leaving = some 1000 ∧ 1000 ≤ s.mcc ∧ ({ s with mcc := 999 } : State).mcc < 1000) ∧
    (let s := headset { HspG.reset with inserted := true, type := 2, bias := true, touch := true }
     buttonOf 899 = some 2 ∧ s.ports.hsp.touch = true ∧ s.ports.hsp.pressed = none) ∧
    (let s := headset { HspG.reset with inserted := true, type := 2, bias := true, touch := true, pressed := some 2 }
     s.ports.hsp.pressed = some 2 ∧ s.on 0x22 0 4 = true ∧ s.ports.hsp.touch = true) := by decide

/-! ### Network, time of day and streams -/

/-- The network as given, with parameters. -/
def nets (g : NetG) (p : Cells (Option Nat)) : State := { serving with net := g, params := p }

theorem nets_admits (g : NetG) (p : Cells (Option Nat)) (need : Nat) : (nets g p).admits ask need ses :=
  admits_of _ _ (by decide : serving.serves = true) (by decide : serving.session? 1 = some ses)

/-- PTP runs, as a follower. -/
def ptpOn : Cells (Option Nat) := [(mkH 0x33 0 0, some 1), (mkH 0x33 0 3, some 0), (mkH 0x33 0 0x0A, some 100)]

/-- A network whose MCC renumbering has been asked for, on the steered clock, at a block boundary, 8 samples behind the media count. -/
def renumbering : State :=
  let s := nets { NetG.reset with align := true, phc := { NetG.reset.phc with t := 1018 * phcSecond / up.fs, rem := 1018 * phcSecond % up.fs } } []
  { s with mcc := 1002, cku := { CkuG.reset with sel := 4, st := .locked } }

/-- A UDP frame for the address 0 and a port. -/
def udpFrame (port : Nat) : NetFrame := { arpFrame with etype := 0x0800, proto := 17, udp := port, msg := 0x0B }

/-- Port 3 up, stream 0 enabled on it for UDP port 5004, PTP on its alternate port, with the limit of R254 used up to a time. -/
def listening (paid : Nat) : State :=
  nets { NetG.reset with link := [3], alt := true, paid := [(6, paid)] }
    [(mkH 0x33 0 7, some 3), (mkH 0x35 0 0, some 1), (mkH 0x35 0 8, some 0), (mkH 0x35 0 9, some 5004), (mkH 0x35 0 0xA, some 0),
     (mkH 0x35 0 0xB, some 3)]

theorem witness_FramesAreClassified :
    (let s := listening 0
     s.linkUp 3 = true ∧ s.classify 3 { arpFrame with fcs := false } = .badFcs ∧ s.classify 3 { arpFrame with len := 1519 } = .other ∧
      s.classify 3 (udpFrame 5004) = .stream ∧ s.classify 3 (udpFrame 319) = .ptpEvent ∧ s.classify 3 (udpFrame 320) = .ptpGeneral ∧
      (udpFrame 320).msg % 16 = 0xB ∧ s.net.alt = true ∧ 3 = s.at 0x33 0 7 ∧
      ¬ ({ udpFrame 320 with msg := 0 } : NetFrame).msg % 16 = 0xB ∧
      s.classify 3 arpFrame = .arp ∧ arpFrame.dst = s.at 0x30 3 2 ∧ arpFrame.msg = 1 ∧ s.classify 3 (udpFrame 4870) = .vcp ∧
      s.classify 3 { udpFrame 0 with proto := 1, msg := 8 } = .icmp ∧ s.classify 3 { udpFrame 0 with proto := 2, msg := 0x11 } = .igmp ∧
      s.ctlFree 3 0 = true) ∧
    (let s := listening (2 ^ 60)
     s.linkUp 3 = true ∧ s.classify 3 arpFrame = .arp ∧ s.ctlFree 3 0 = false) ∧
    nextFrame false 0 [{ kind := .arp, bytes := 88 }, { kind := .audio 0 0, bytes := 100 }] = some { kind := .audio 0 0, bytes := 100 } := by
  decide

/-- The clauses about received frames are met by `witness_FramesAreClassified`. -/
theorem witness_LinksAndTimeOfDay :
    (nets { NetG.reset with link := [3] } []).linkUp 3 = true ∧
    (let s := nets { NetG.reset with ptpSt := 3 } ptpOn
     s.netOn = true ∧ s.on 0x33 0 0 = true ∧ s.net.ptpSt = 3) ∧
    (let s : State := { nets NetG.reset [] with power := { up.power with domains := 0xFFD } }
     s.admits ask 0 ses ∧ s.audioServed = true ∧ s.netOn = false) ∧
    (nets NetG.reset []).netOn = true ∧
    (let s := nets NetG.reset [(mkH 0x30 3 0, some 1)]
     3 < 4 ∧ s.netOn = true ∧ s.on 0x30 3 0 = true ∧ s.linkUp 3 = false) ∧
    (let s := nets { NetG.reset with ptpSt := 2, phc := { NetG.reset.phc with within := 15 } } ptpOn
     s.netOn = true ∧ s.on 0x33 0 0 = true ∧ s.at 0x33 0 3 ≠ 1 ∧ (s.net.ptpSt = 1 ∨ s.net.ptpSt = 2) ∧ 100000 < (100001 : Int).natAbs ∧
      (100 : Int).natAbs ≤ 100000 ∧ (100 : Int).natAbs ≤ s.at 0x33 0 0x0A ∧ 15 ≤ s.net.phc.within) ∧
    (let s := nets NetG.reset [(mkH 0x32 7 0, some 0), (mkH 0x32 7 1, some 0), (mkH 0x32 7 2, some 0), (mkH 0x32 7 3, some 0)]
     7 < 8 ∧ s.netOn = true ∧ s.at 0x32 7 0 ≠ 0xFF ∧
      s.at 0x32 7 1 * 1000000000 + s.at 0x32 7 2 + Cells.get 0 s.net.timers 7 * s.at 0x32 7 3 ≤ s.phcNs) ∧
    (let s := nets NetG.reset [(mkH 0x32 15 0, some 0), (mkH 0x32 15 5, some 2)]
     8 ≤ 15 ∧ 15 < 16 ∧ s.netOn = true ∧ s.at 0x32 15 0 ≠ 0xFF ∧ s.at 0x32 15 5 = 2 ∧ Cells.wf 0 s.net.capture = true) ∧
    ((nets NetG.reset []).admits ask 0 ses ∧ (nets NetG.reset []).audioServed = true ∧ 2 ^ 48 - 1 < 2 ^ 48 ∧ 999999999 < 1000000000 ∧
      (∀ x ∈ (nets NetG.reset []).scene.sets, x.st ≠ .scheduled) ∧ ∀ c ∈ (nets NetG.reset []).scene.cues, c.2.st ≠ .armed) ∧
    (let s := renumbering
     s.slewUnit ≠ 1 ∧ s.cku.sel = 4 ∧ s.cku.st = .locked ∧ s.mcc % s.B = 2 ∧ s.slewLeft s.B = 0 ∧ 0 ≤ (s.mcc : Int) + s.delta) ∧
    (let s := nets { NetG.reset with mcc := 2 } []
     s.net.mcc = 2 ∧ (s.cku.sel ≠ 4 ∨ 50 < (51 : Int).natAbs)) ∧
    (let s : State := { renumbering with mcc := 1018 }
     s.net.mcc = 0 ∧ s.cku.sel = 4 ∧ (50 : Int).natAbs ≤ 50 ∧ s.delta = 0) := by
  refine ⟨by decide, by decide, ⟨admits_of _ 0 (by decide) (by decide), by decide⟩, by decide, by decide, by decide, by decide, by decide,
    ⟨nets_admits _ _ 0, by decide⟩, by decide, by decide, by decide⟩

/-- Streams 255 as given, one channel of 24-bit samples at the engine rate, with its receive leg on a port that is up. -/
def streams (x : RxStream) (y : TxStream) : State := { up with
  net := { NetG.reset with link := [0], rx := [(255, x)], tx := [(255, y)] }
  params := [(mkH 0x35 255 3, some 1), (mkH 0x35 255 0x0B, some 0), (mkH 0x35 255 0x0F, some 0), (mkH 0x36 255 3, some 1)] }

/-- A running receive stream that has taken nothing. -/
def rxRun : RxStream := { RxStream.reset with running := true, legA := true }

/-- A copy that came on leg B at sample 0. -/
def copyB : Copy := { seq := 7, leg := 1, mcc := 0, ns := 0, data := [], both := false }

theorem witness_StreamsCarryPackets :
    (let s := streams rxRun TxStream.reset
     let P := s.streamP 0x35 255
     let bytes := s.at 0x35 255 1 + 2
     let now := s.streamNow (s.at 0x35 255 2)
     (255 < 256 ∧ 1 < 2 ∧ (s.rxStream 255).running = true ∧ s.linkUp (s.legPort 0x35 255 1) = true ∧
      (∃ data : List Nat, data.length = s.at 0x35 255 3 * P * bytes) ∧ (∀ c ∈ (s.rxStream 255).copies, c.seq ≠ 7)) ∧
     (let k := lift32 now 0 + s.linkOffset 255
      tickOf s.B (s.engineStamp (s.at 0x35 255 2) k) ≤ s.mcc) ∧
     (let k := lift32 now 5000 + s.linkOffset 255
      let tick := tickOf s.B (s.engineStamp (s.at 0x35 255 2) k)
      ¬ (tick ≤ s.mcc ∨ (tick - s.mcc) * 1000000000 < (s.leadNs + 0) * s.fs) ∧ now + s.linkOffset 255 + P + 2 * s.B < k) ∧
     (let k := lift32 now 1000 + s.linkOffset 255
      let tick := tickOf s.B (s.engineStamp (s.at 0x35 255 2) k)
      ¬ (tick ≤ s.mcc ∨ (tick - s.mcc) * 1000000000 < (s.leadNs + 0) * s.fs) ∧ k ≤ now + s.linkOffset 255 + P + 2 * s.B ∧ s.obeys = false ∧
       k + P ≤ 2 ^ 64 ∧ Cells.wf 0 s.audio.rx = true ∧ s.path (s.at 0x35 255 2) = .direct)) ∧
    (let s := streams { rxRun with copies := [copyB], runA := 15 } TxStream.reset
     (s.rxStream 255).copies.find? (fun c => c.seq = 7 && !c.both && c.leg != 0) = some copyB ∧ (s.rxStream 255).running = true ∧
      s.legPort 0x35 255 0 ≠ 0xFF ∧ (s.at 0x35 255 7 * 1000 : Nat) ≤ s.since copyB 0 ∧ (s.rxStream 255).legA = true ∧
      16 ≤ (s.rxStream 255).runA + 1) ∧
    (let s := streams RxStream.reset { TxStream.reset with running := true, next := 200 }
     (s.txStream 255).running = true ∧ 0 < s.streamP 0x36 255 ∧
      (s.txStream 255).next + s.streamP 0x36 255 + 1 ≤ s.streamNow (s.at 0x36 255 2)) ∧
    (let s := streams { RxStream.reset with stopping := true } { TxStream.reset with running := true, stopping := true }
     (s.txStream 255).stopping = true ∧ (s.txStream 255).slots.all (fun c => c.2.silent (s.txStream 255).next) = true ∧
      Cells.wf TxStream.reset s.net.tx = true ∧ (s.rxStream 255).stopping = true ∧
      (s.rxStream 255).slots.all (fun c => c.2.silent s.mcc) = true ∧ Cells.wf RxStream.reset s.net.rx = true) := by
  refine ⟨⟨⟨by decide, by decide, by decide, by decide, ⟨_, List.length_replicate (a := 0)⟩, by decide⟩, by decide, by decide, by decide⟩, ?_, ?_, ?_⟩ <;>
    decide

/-! ### Clock references -/

/-- The clock unit as given, in a selection mode. -/
def clocks (g : CkuG) (mode : Nat) : State := { serving with cku := g, params := [(mkH 0x41 0 0, some mode)] }

theorem clocks_admits (g : CkuG) (mode need : Nat) : (clocks g mode).admits ask need ses :=
  admits_of _ _ (by decide : serving.serves = true) (by decide : serving.session? 1 = some ses)

/-- A qualified reference. -/
def good : RefSlot := { RefSlot.reset with st := .qualified }

theorem witness_ClockUnitFollowsItsReferences :
    (∀ mode ∈ [0, 1], let s := clocks { CkuG.reset with refs := [(7, good)] } mode
     7 < 8 ∧ (s.cku.ref 7).st ≠ .disabled ∧ (s.cku.ref 7).st ≠ .lost ∧ s.dev ≠ .off ∧ s.at 0x41 0 0 = mode ∧ s.cku.twinFollow = false) ∧
    (let s := clocks { CkuG.reset with st := .acquiring, sel := 7, inN := 48000 } 0
     s.cku.st = .acquiring ∧ s.cku.sel ≠ 0xFF ∧ s.fs ≤ s.cku.inN) ∧
    ((clocks { CkuG.reset with inN := 47999 } 0).cku.inN < (clocks { CkuG.reset with inN := 47999 } 0).fs) ∧
    (let s := clocks { CkuG.reset with st := .locked, sel := 7, bw := 6, bwN := 480, outN := 4800 } 0
     s.cku.st = .locked ∧ s.at 0x40 s.cku.sel 9 < s.cku.bw ∧ 10000 * s.fs ≤ s.cku.bwN * 10 ^ s.cku.bw ∧ s.fs ≤ 10 * s.cku.outN ∧
      s.cku.twinFollow = false) ∧
    (let s := clocks { CkuG.reset with st := .holdover, holdN := 1 } 0
     s.cku.st = .holdover ∧ s.cku.holdRem = 0 ∧ 0 < s.cku.holdN) ∧
    ((clocks { CkuG.reset with st := .glide } 0).cku.st = .glide ∧ (clocks { CkuG.reset with st := .glide } 0).cku.target = none) ∧
    (let s : State := { renumbering with mcc := 1018, net := { renumbering.net with
       mcc := 1, phc := { renumbering.net.phc with t := renumbering.net.phc.t - 50 * 2 ^ 32 } } }
     s.cku.sel = 4 ∧ s.net.mcc = 1 ∧ (-50 : Int).natAbs ≤ 50 ∧ s.edgeNs = -50 ∧ s.delta = 0) ∧
    (let s : State := { renumbering with net := { renumbering.net with mcc := 1 } }
     s.cku.sel = 4 ∧ s.net.mcc = 1 ∧ s.slewUnit ≠ 1 ∧ s.edgeNs = 0 ∧ s.delta ≠ 0) ∧
    (let s := clocks CkuG.reset 1
     s.admits ask 0 ses ∧ s.audioServed = true ∧ s.at 0x41 0 0 = 1 ∧ (-500000000 : Int).natAbs ≤ 500000000) ∧
    (let s := clocks { CkuG.reset with refs := [(7, good)], st := .locked, sel := 7 } 0
     s.admits ask 0 ses ∧ s.cku.st = .locked ∧ (s.cku.ref s.cku.sel).st = .qualified ∧ s.fault.holder = none ∧ s.fault.queue = []) ∧
    ((clocks { CkuG.reset with cal := some 7 } 0).cku.cal = some 7) ∧
    (4 < 5 ∧ up.dev = .run ∧ Cells.wf ClkOut.reset up.cku.outs = true ∧ up.at 0x42 4 0 ≠ (up.cku.out 4).freq ∧
      clkRise (max (up.clkPeriod 4 0) (up.clkPeriod 4 (up.at 0x42 4 0))) (up.at 0x42 4 1) (up.mcc * up.halves) < (up.mcc + 1) * up.halves ∧
      (up.setOut 4 { ClkOut.reset with freq := 1 }).at 0x42 4 0 = ((up.setOut 4 { ClkOut.reset with freq := 1 }).cku.out 4).freq) :=
  ⟨by decide, by decide, by decide, by decide, by decide, by decide, by decide, by decide, ⟨clocks_admits _ _ 0, by decide⟩, ⟨clocks_admits _ _ 0, by decide⟩,
    by decide, by decide⟩

/-! ### Fabric and memories -/

/-- A transaction of one beat. -/
def txn (master addr : Nat) (write : Bool) : Txn := { readTxn with master := master, addr := addr, write := write, enables := [1] }

theorem witness_FabricAndMemoriesServe :
    (let x := txn 18 (27 * 0x80000) true
     Fmt.bit up.power.domains 11 = true ∧ up.fab.lock 27 = none ∧ up.fab.busy 27 0 = false ∧ Cells.get 0 up.fab.resets 18 ≤ x.arrived ∧
      Cells.get [] up.fab.waiting 27 = [] ∧ up.decodeTxn x = 27 ∧ x.arrived ≤ 0 ∧ Cells.get [] up.fab.held x.queue = [] ∧ up.fab.room x = true ∧
      Cells.wf [] up.fab.waiting = true ∧ 27 < 28 ∧ x.write = true ∧ up.fab.pool.wf = true ∧ up.fab.now ≤ 0 ∧ up.fab.bursts = []) ∧
    (∀ par ∈ [0, 1], let x := { txn 18 0 false with parity := par }
     up.fab.lock 0 = none ∧ up.fab.busy 0 0 = false ∧ Cells.get [] up.fab.waiting 0 = [] ∧ up.decodeTxn x = 0 ∧ x.arrived ≤ 0 ∧
      Cells.get [] up.fab.held x.queue = [] ∧ up.fab.room x = true ∧ x.write = false ∧ up.fab.flips = [] ∧ x.parity = par ∧
      mirrored 0 x.issued = false ∧ mirrored 20 x.issued = true) ∧
    (let x := txn 18 0x30000000 false
     up.fab.lock 36 = none ∧ up.fab.busy 36 0 = false ∧ Cells.get [] up.fab.waiting 36 = [] ∧ up.decodeTxn x = 36 ∧ x.arrived ≤ 0 ∧
      Cells.get [] up.fab.held x.queue = [] ∧ up.fab.room x = true) ∧
    (let x : Txn := { txn 18 0 false with beats := List.replicate 16 0 }
     let s : State := { up with fab := { FabG.reset with waiting := [(0, List.replicate 64 x)] } }
     Fmt.bit s.power.domains 11 = true ∧ Cells.get 0 s.fab.resets x.master ≤ x.arrived ∧ Cells.get [] s.fab.waiting 5 = [] ∧ s.fab.room x = false) ∧
    (let q := [txn 18 0 false, txn 3 32 true]
     let s : State := { up with fab := { FabG.reset with waiting := [(27, q)] } }
     Fmt.bit s.power.domains 11 = true ∧ s.fab.lock 27 = none ∧ s.fab.busy 27 0 = false ∧ Cells.get [] s.fab.waiting 27 = q ∧ q ≠ [] ∧
      (∀ x ∈ q, x.arrived ≤ 0) ∧ (∀ x ∈ q, Cells.get [] s.fab.held x.queue = []) ∧ Cells.wf [] s.fab.waiting = true) ∧
    (let b : Burst := { txn := txn 18 0 true, start := 7, old := [0] }
     let s : State := { up with fab := { FabG.reset with bursts := [(0, some b)] } }
     Fmt.bit s.power.domains 11 = true ∧ s.fab.busy 0 7 = true ∧ b.txn.master = 18) ∧
    (let s : State := { up with fab := { FabG.reset with locks := [(0, { n := 1, start := 0 })], waiting := [(3, [txn 2 0 false])] } }
     s.fab.lock 3 ≠ none ∧ ∀ x ∈ Cells.get [] s.fab.waiting 3, x.master ≠ 18) ∧
    (Fmt.bit up.power.domains 0 = true ∧ 0x1FFFFFF < 0x2000000) ∧
    (65535 < 65536 ∧ (up.fab.crossing 65535).fence = none ∧ Cells.wf Crossing.reset up.fab.crossings = true ∧
      (up.fab.crossing 65535).pending + 255 ≤ 255) := by
  decide

/-- R375: two 128-bit beats of M22 make one beat of 256; a read at an address in an upper half gives that half first. -/
theorem test_width_converter :
    ({ txn 22 0 true with beats := [5, 7], enables := [1, 3] } : Txn).packed.beats = [5 + 2 ^ 128 * 7] ∧
    ({ txn 22 0 true with beats := [5, 7], enables := [1, 3] } : Txn).packed.enables = [1 + 2 ^ 16 * 3] ∧
    ({ txn 22 16 false with beats := [0] } : Txn).native [5 + 2 ^ 128 * 7] = [7] := by decide

/-- R377: bits 0 and 12 are of parity bits 0 and 1, bits 252 and 253 both of bit 21. -/
theorem test_line_parity : lineParity 1 = 1 ∧ lineParity (2 ^ 12) = 2 ∧ lineParity (2 ^ 252) = 2 ^ 21 ∧ lineParity (3 * 2 ^ 252) = 0 := by decide

/-! ### Twin pairs -/

/-- A chip of a pair in RUN, as given. -/
def twins (g : TwinG) : State := { serving with
  power := { up.power with straps := { native with twinEn := true } }
  twin := { g with hasRole := true } }

theorem twins_admits (g : TwinG) (need : Nat) : (twins g).admits ask need ses :=
  admits_of _ _ (by decide : serving.serves = true) (by decide : serving.session? 1 = some ses)

theorem witness_LeaseAndRolesFollowThePeer :
    (let s := twins { TwinG.reset with role := .active }
     s.twinUp = true ∧ s.twin.hasRole = true ∧ s.twin.role = .active ∧ s.dev = .run ∧ { beat with role := 2 }.role ≤ 2 ∧
      Fmt.bit s.twin.paths 1 = false) ∧
    (∀ k ∈ [3, 4], let hb := { beat with role := k, run := false }
     (hb.role = 3 ∨ hb.role = 4) ∧ hb.boot = false ∧ hb.run = false ∧ (twins { TwinG.reset with role := .active }).twin.instepAt ≤ hb.mcc) ∧
    (let s := twins { TwinG.reset with role := .active, paths := 3 }
     s.twin.role ≠ .standby ∧ Fmt.bit s.twin.paths 0 = true) ∧
    (let s := twins { TwinG.reset with role := .standby }
     s.twin.role = .standby ∧ s.twinUp = true ∧ s.power.straps.twinEn = true ∧ s.twin.hasRole = true ∧ s.twin.renewed + 7 ≤ s.mcc) ∧
    (let s := twins { TwinG.reset with role := .standby, renewed := 994 }
     s.twin.role = .standby ∧ s.mcc < s.twin.renewed + 7) ∧
    (let s := twins { TwinG.reset with role := .active, acked := 994 }
     s.twinUp = true ∧ s.twin.role = .active ∧ 1000 = s.mcc ∧ s.twin.acked + 6 ≤ s.mcc) ∧
    (let s := twins { TwinG.reset with role := .active, acked := 995 }
     s.twin.role = .active ∧ s.mcc < s.twin.acked + 6) ∧
    (let s := twins { TwinG.reset with role := .active, handover := some 1000 }
     s.twin.role = .active ∧ s.twin.handover = some 1000 ∧ 1000 ≤ s.mcc) ∧
    (let s := twins { TwinG.reset with role := .active, paths := 3, peer := some { beat with role := 2 } }
     s.admits ask 0 ses ∧ s.twin.role = .active ∧ s.twin.peerRole = 2 ∧ s.twin.handover = none ∧ s.twin.swap = none ∧ 1016 % s.B = 0 ∧
      s.mcc + 2 * s.B ≤ 1016 ∧ s.twin.swapReq = none) ∧
    (let s := twins { TwinG.reset with role := .active, swap := some 1000, swapReq := some ask }
     s.twin.swap = some 1000 ∧ 1000 ≤ s.mcc ∧ s.twin.role = .active ∧ s.twin.swapReq = some ask) := by
  refine ⟨by decide, by decide, by decide, by decide, by decide, by decide, by decide, by decide, ⟨twins_admits _ 0, by decide⟩, by decide⟩

/-- A chip of a pair, at an MCC. -/
def twinsAt (m : Nat) (g : TwinG) : State := { twins g with mcc := m }

/-- A heartbeat of the block before, with 32 digests of 1. -/
def digestBeat : Heartbeat := { beat with digests := List.replicate 32 1 }

/-- A standby whose own digests of that block are 0. -/
def differing (run : Nat) : State :=
  twins { TwinG.reset with role := .standby, paths := 3, own := [(124, List.replicate 32 0)], mismRun := run }

theorem witness_RecordsAndRejoining :
    (let s : State := { twins { TwinG.reset with peer := some { beat with boot := true } } with
       boot := { BootG.reset with image := some image0 } }
     s.twinUp = true ∧ s.twin.peer.any (·.boot) = true ∧ s.boot.image.isSome = true ∧ s.twin.image = false) ∧
    (let s := twins { TwinG.reset with role := .standby }
     s.twin.role = .standby ∧ (500 : Int).natAbs ≤ 500 ∧ 500 < (-501 : Int).natAbs) ∧
    (let s := twinsAt 1001 { TwinG.reset with role := .standby }
     s.twinUp = true ∧ s.twin.role = .standby ∧ 1002 % s.B = 2 ∧ s.mcc < 1002 ∧ 1002 ≤ s.mcc + s.B ∧ s.mcc % s.B = 1 ∧
      ∀ x, s.twin.record = some x → x.tick ≠ s.mcc + 1) ∧
    (∀ run ∈ [0, 3], let s := differing run
     s.twinUp = true ∧ s.twin.hasRole = true ∧ s.dev = .run ∧ s.twin.role = .standby ∧ Fmt.bit s.twin.paths 0 = true ∧ digestBeat.digests ≠ [] ∧
      (let blk := digestBeat.mcc / s.B - 1
       let own := Cells.get [] s.twin.own blk
       own ≠ [] ∧ digestDiff own digestBeat.digests ≠ 0 ∧
        ((blk :: s.twin.mismHist).filter (fun b => decide (blk < b + 1024))).length < 16 ∧ s.twin.mismRun = run)) ∧
    (let s := twinsAt 1001 { TwinG.reset with role := .active }
     s.twinUp = true ∧ s.twin.role = .active ∧ s.mcc % s.B = 1) ∧
    (let s := twins { TwinG.reset with role := .standby }
     s.twinUp = true ∧ s.twin.role = .standby ∧ s.mcc < 1001 ∧ 1000 ≤ s.mcc) ∧
    ((twinsAt 1002 { TwinG.reset with resync := 1 }).twin.role = .solo ∧ (twinsAt 1002 { TwinG.reset with resync := 1 }).twin.resync = 1) ∧
    (let s := twinsAt 1002 { TwinG.reset with resync := 2 }
     s.twin.resync = 2 ∧ s.twin.role = .solo ∧ s.mcc % s.B = 2) ∧
    (let s := twinsAt 1002 { TwinG.reset with role := .joining, resync := 2 }
     s.twin.resync = 2 ∧ s.twin.role = .joining ∧ s.mcc % s.B = 2 ∧ 2002 % s.B = 2) ∧
    (let s := twinsAt 1002 { TwinG.reset with resync := 4, joinAt := 900, window := 102 }
     s.twin.role = .solo ∧ s.twin.resync = 4 ∧ s.twin.joinAt + s.twin.window ≤ s.mcc) ∧
    ((twins { TwinG.reset with resync := 5, nonconv := [3] }).twin.resync = 5 ∧
      (twins { TwinG.reset with resync := 5, nonconv := [3] }).twin.nonconv = 3 :: []) ∧
    (let s := twinsAt (3600 * 96000) { TwinG.reset with resync := 4 }
     4 ≤ s.twin.resync ∧ s.twin.joinAt + s.at 0x50 0 0x21 * s.fs ≤ s.mcc ∧ s.maintOn 6 = false) := by
  refine ⟨by decide, by decide, ⟨by decide, by decide, by decide, by decide, by decide, by decide, fun x h => by cases h⟩, by decide, by decide,
    by decide, by decide, by decide, by decide, by decide, by decide, by decide⟩

/-! ### The legacy partition -/

/-- A device in legacy-only mode, as given. -/
def legacies (g : LegG) : State := { up with legacy := g, power := { up.power with straps := { native with mode := 1 } } }

theorem witness_LegacyRegistersAndSets :
    (∀ en : Bool, let s := legacies { LegG.reset with shadowEn := en }
     s.legOn = true ∧ 0x1001 < 65536 ∧ 2 ^ 24 - 1 < 2 ^ 24 ∧ legParamMask 0x1001 ≠ 0 ∧ s.legExists 0x1001 = true ∧
      Cells.wf 0 s.legacy.live = true ∧ s.legacy.shadowEn = en) ∧
    (65535 < 65536 ∧ legUnmapped 65535 = true ∧ (legacies LegG.reset).legacy.errSec = none ∧ legUnmapped 0x7F03 = false ∧
      (legacies LegG.reset).legacy.pending = none) ∧
    (let s := legacies { LegG.reset with pending := some 992 }
     s.legOn = true ∧ s.legacy.pending = some 992 ∧ s.legacy.latched = false ∧ 992 + 8 ≤ s.mcc) ∧
    ((legacies LegG.reset).power.straps.mode = 1 ∧ 1 % 2 ≠ (legacies LegG.reset).legRate) := by decide

/-! ### Steps, events, memories -/

theorem witness_StepRunsTheFrontCommand : ({ up with pending := [.frameTick, .load] } : State).pending = .frameTick :: [.load] := rfl

theorem witness_EmptyQueuePassesASample :
    (up.pending = [] ∧ up.twin.forward = [] ∧ up.dev ≠ .off ∧ up.net.link = [] ∧ up.ports.hsp.leaving = none) ∧
    (let s : State := { up with ports := { PortG.reset with hsp := { HspG.reset with inserted := true, leaving := some 1001 } } }
     s.pending = [] ∧ s.twin.forward = [] ∧ s.ports.hsp.leaving = some 1001 ∧ s.power.holdMcc = false ∧ 1001 ≤ s.mcc + 1) ∧
    (let s : State := { State.reset with dev := .off }
     s.pending = [] ∧ s.twin.forward = [] ∧ s.dev = .off) ∧
    (∀ n ∈ [0x01, 0x05, 0x06], let s : State := { State.reset with dev := .boot, boot := { BootG.reset with stage := n } }
     s.pending = [] ∧ s.twin.forward = [] ∧ s.dev = .boot ∧ s.boot.stage ∈ [0x01, 0x05, 0x06]) := by decide

theorem witness_OccurrencesReachTheSessions :
    serving.vcp.sessions[0]? = some ses ∧ (serving.raise .mbxReply 0 7 0).vcp.sessions.length = 1 ∧
    Fmt.bit ses.evMask Ev.mbxReply.id = true ∧ ses.receives 0 = true ∧ ses.full = false ∧ ses.queue.length < 1023 ∧
    (∀ k ∈ ses.queue, k.delivered = false → k.id = Ev.mbxReply.id → k.arg % 65536 ≠ 7 % 65536) ∧
    Fmt.bit { ses with evMask := 0 }.evMask Ev.mbxReply.id = false := by decide

theorem witness_EveryStepKeepsMemoriesCanonical : ({ up with pending := [.frameTick] } : State).memWf = true := by decide

end Sys2Proof.Tests
end

section
/-! PROOFS. What commits, the end of a reconfiguration, the return of a failover and the switches of power domains do: frames of the shared
operations (raising, unmuting, closing a set, draining, clearing, the evaluation of the clock unit), and O6. -/

namespace Sys2Proof.Machine.Fmt

/-- A bit read after one was set. -/
theorem bit_setBit_true (w i j : Nat) : bit (setBit w i true) j = (decide (i = j) || bit w j) := by
  by_cases h : bit w i = true
  · rw [setBit, if_pos h]
    by_cases e : i = j
    · subst e; simp [h]
    · simp [e]
  · have hw : w / 2 ^ i % 2 = 0 := by simp [bit] at h; omega
    rw [setBit, if_neg h, if_pos rfl]
    simp only [bit]
    rcases lt_trichotomy i j with e | e | e
    · have hd : (w + 2 ^ i) / 2 ^ (i + 1) = w / 2 ^ (i + 1) := by
        rw [pow_succ, ← Nat.div_div_eq_div_mul, ← Nat.div_div_eq_div_mul, Nat.add_div_right _ (by positivity)]
        omega
      obtain ⟨k, rfl⟩ := Nat.exists_eq_add_of_lt e
      rw [show i + k + 1 = (i + 1) + k by omega, pow_add, ← Nat.div_div_eq_div_mul, hd, Nat.div_div_eq_div_mul]
      simp; omega
    · subst e
      rw [Nat.add_div_right _ (by positivity)]
      simp; omega
    · have := Nat.testBit_two_pow_add_gt e w
      rw [add_comm, Nat.testBit_eq_decide_div_mod_eq, Nat.testBit_eq_decide_div_mod_eq] at this
      rw [this]; simp; omega

end Sys2Proof.Machine.Fmt

namespace Sys2Proof.Machine

open Fmt

/-! ### Frames of changes made one after the other -/

/-- Two changes within the same parts make a change within them. -/
theorem State.frame_next {s t u : State} {l : List Part} (h : s.frame t l) (k : t.frame u l) : s.frame u l :=
  fun p hp => State.frame_trans h k p (by simpa using hp)

/-- A frame may name more parts than the change touches. -/
theorem State.frame_mono {s t : State} {a b : List Part} (h : s.frame t a) (hab : a ⊆ b) : s.frame t b :=
  fun p hp => h p (fun m => hp (hab m))

/-- A fold whose every step stays within some parts stays within them. -/
theorem State.frame_foldl {α : Type} {l : List Part} {f : State → α → State} (hf : ∀ (s : State) a, s.frame (f s a) l) (xs : List α) (s : State) :
    s.frame (xs.foldl f s) l :=
  xs.foldlRecOn (motive := fun t => s.frame t l) f (s.frame_refl l) (fun t h a _ => State.frame_next h (hf t a))

/-- A change that touches neither the scene engine nor MSTORE leaves their group. -/
theorem State.scene_of_frame {s t : State} {l : List Part} (h : s.frame t l) (hs : .scene ∉ l) (hm : .mstore ∉ l) : t.scene = s.scene := by
  have h1 : { t.scene with mstore := [] } = { s.scene with mstore := [] } := h .scene hs
  have h2 : t.scene.mstore = s.scene.mstore := h .mstore hm
  calc t.scene = { { t.scene with mstore := [] } with mstore := t.scene.mstore } := rfl
    _ = s.scene := by rw [h1, h2]

/-- The legacy flag is the straps'. -/
theorem State.legacy_of_straps {s t : State} (h : t.power.straps = s.power.straps) : t.cap.legacy = s.cap.legacy := by
  change (decide (t.power.straps.mode = 1) || decide (t.power.straps.mode = 2)) = _
  rw [h]
  rfl

/-! ### Occurrences (R328–R334) -/

/-- An occurrence touches the event registers and the session queues. -/
theorem State.raiseTo_frame (s : State) (only : Session → Bool) (ev : Ev) (part obj val : Nat) (c : Option (List Nat)) :
    s.frame (s.raiseTo only ev part obj val c) [.ev, .sessions] := by
  simp only [State.raiseTo]
  split_ifs <;> simp [State.frame_iff, Part.same]

theorem State.raise_frame (s : State) (ev : Ev) (part obj val : Nat) : s.frame (s.raise ev part obj val) [.ev, .sessions] :=
  s.raiseTo_frame _ ev part obj val none

theorem State.raiseD_frame (s : State) (ev : Ev) (part obj : Nat) (c : List Nat) : s.frame (s.raiseD ev part obj c) [.ev, .sessions] :=
  s.raiseTo_frame _ ev part obj 0 (some c)

/-- EV_STAT after an occurrence: the event's own bit is set, and that of the queue overflow where a queue has overflowed. -/
theorem State.raiseTo_stat (s : State) (only : Session → Bool) (ev : Ev) (part obj val : Nat) (c : Option (List Nat)) :
    (s.raiseTo only ev part obj val c).ev.stat = setBit s.ev.stat ev.id true ∨
      (s.raiseTo only ev part obj val c).ev.stat = setBit (setBit s.ev.stat ev.id true) Ev.queueOverflow.id true := by
  unfold State.raiseTo
  extract_lets
  split
  · right; cases c <;> rfl
  · left; cases c <;> rfl

/-- An occurrence sets its event's bit and leaves every bit that was set. -/
theorem State.raiseTo_marks (s : State) (only : Session → Bool) (ev e : Ev) (part obj val : Nat) (c : Option (List Nat))
    (h : e = ev ∨ s.marks e) : (s.raiseTo only ev part obj val c).marks e := by
  have hb : bit (setBit s.ev.stat ev.id true) e.id = true := by
    rw [bit_setBit_true]
    rcases h with rfl | h
    · simp
    · simp only [State.marks] at h; simp [h]
  unfold State.marks
  rcases s.raiseTo_stat only ev part obj val c with hs | hs <;> rw [hs]
  · exact hb
  · rw [bit_setBit_true, hb, Bool.or_true]

theorem State.raise_marks (s : State) (ev : Ev) (part obj val : Nat) : (s.raise ev part obj val).marks ev :=
  s.raiseTo_marks _ ev ev part obj val none (.inl rfl)

theorem State.raiseD_marks (s : State) (ev : Ev) (part obj : Nat) (c : List Nat) : (s.raiseD ev part obj c).marks ev :=
  s.raiseTo_marks _ ev ev part obj 0 (some c) (.inl rfl)

/-! ### Outputs unmute (R3, R353) -/

/-- Unmuting every output touches the stages of outputs, spring mixes and legacy slots. -/
theorem State.unmuteAll_frame (s : State) : s.frame s.unmuteAll [.audio, .spring, .legacy] := by
  have outs : ∀ u : State, u.frame u.unmuteOutputs [.audio, .spring, .legacy] := fun u =>
    State.frame_foldl (fun v n => by simp [State.frame_iff, Part.same, State.unmuteOutput]) _ u
  have springs : ∀ u : State, u.frame u.unmuteSprings [.audio, .spring, .legacy] := fun u => by
    simp [State.frame_iff, Part.same, State.unmuteSprings]
  have legacy : ∀ u : State, u.frame u.unmuteLegacy [.audio, .spring, .legacy] := fun u => by
    unfold State.unmuteLegacy
    split
    · exact State.frame_foldl (fun v n => by simp [State.frame_iff, Part.same, State.unmuteLegSlot]) _ u
    · exact u.frame_refl _
  exact State.frame_next (State.frame_next (outs s) (springs _)) (legacy _)

/-! ### The input patch selects a side (R41, R43) -/

/-- A selection that the input patch makes itself is a change of the committed words and of what is on its way. -/
theorem State.autoSelect_frame (s : State) (n b new : Nat) : s.frame (s.autoSelect n b new) [.audio, .params] := by
  unfold State.autoSelect
  extract_lets
  split <;> simp [State.frame_iff, Part.same, State.setVal]

/-- It is on its way from the side in force at its stamp to the new side. -/
theorem State.autoSelect_change (s : State) (n b new : Nat) : ∃ c ∈ (s.autoSelect n b new).audio.changes,
    c.h = mkH 0x05 n 2 ∧ c.c = b ∧ c.old = s.valAt (mkH 0x05 n 2) b ∧ c.new = new := by
  unfold State.autoSelect
  extract_lets h ch
  refine ⟨ch, ?_, rfl, rfl, rfl, rfl⟩
  split <;> simp

/-! ### A commit closes its set (R126, R96, R110) -/

/-- The plane of a set that is over is not its own any more. -/
theorem State.freePlane_holder (s : State) (set : Nat) : (s.freePlane set).scene.holder ≠ some set := by
  unfold State.freePlane
  split
  · simp
  · assumption

theorem State.closeSet_holder (s : State) (set c : Nat) (parts : List Nat) : (s.closeSet set c parts).scene.holder ≠ some set := by
  simpa [State.closeSet, SceG.changedAt] using s.freePlane_holder set

/-- A set that has closed is COMMITTED and holds nothing. -/
theorem State.closeSet_sets (s : State) (set c : Nat) (parts : List Nat) (y : StageSet) (hy : y ∈ (s.closeSet set c parts).scene.sets)
    (hid : y.id = set) : y.st = .committed ∧ y.added = [] := by
  simp only [State.closeSet, State.setScene_fields, List.mem_map] at hy
  obtain ⟨x, -, rfl⟩ := hy
  split at hid <;> rename_i hx
  · simp [hx]
  · exact absurd hid hx

theorem State.commitSet_marks (s : State) (added : List Added) (cf dx c set : Nat) :
    (s.commitSet added cf dx c set).marks .commitApplied := State.raiseD_marks _ _ _ _ _

/-- The contents of a set at its commit sample: its records close last. -/
theorem State.takeSet_closes (s : State) (added : List Added) (cf dx c set : Nat) :
    ∃ u parts, s.takeSet added cf dx c set = State.closeSet u set c parts := ⟨_, _, rfl⟩

/-- A commit raises its event over the scene engine that the set's contents leave. -/
theorem State.commitSet_scene (s : State) (added : List Added) (cf dx c set : Nat) :
    (s.commitSet added cf dx c set).scene = (s.takeSet added cf dx c set).scene := by
  simp only [State.commitSet, State.raiseD_fields]

theorem State.commitSet_holder (s : State) (added : List Added) (cf dx c set : Nat) :
    (s.commitSet added cf dx c set).scene.holder ≠ some set := by
  obtain ⟨u, parts, h⟩ := s.takeSet_closes added cf dx c set
  rw [State.commitSet_scene, h]
  exact u.closeSet_holder set c parts

theorem State.commitSet_sets (s : State) (added : List Added) (cf dx c set : Nat) (y : StageSet)
    (hy : y ∈ (s.commitSet added cf dx c set).scene.sets) (hid : y.id = set) : y.st = .committed ∧ y.added = [] := by
  obtain ⟨u, parts, h⟩ := s.takeSet_closes added cf dx c set
  rw [State.commitSet_scene, h] at hy
  exact u.closeSet_sets set c parts y hy hid

/-- The wipe of a SOFT_RESET leaves EV_STAT. -/
theorem State.legWipe_marks {s : State} {e : Ev} (h : s.marks e) : s.legWipe.marks e := h

/-- The end of a load leaves every bit of EV_STAT that was set. -/
theorem State.legLoaded_marks {s : State} {e : Ev} (h : s.marks e) (c : Nat) : (s.legLoaded c).marks e :=
  State.raiseTo_marks _ _ _ _ 15 0 0 (some (two c)) (.inr h)

/-- The legacy set that is due takes effect with EV_COMMIT_APPLIED (R464, R465). -/
theorem State.legCommit_marks (s : State) (x : LegSet) : (s.legCommit x).marks .commitApplied := by
  unfold State.legCommit
  extract_lets _ _ _ _ s3 s4 s5
  have h4 : s4.marks .commitApplied := s3.raiseD_marks _ _ _ _
  clear_value s4
  have h5 : s5.marks .commitApplied := by
    simp only [s5]
    split
    · exact State.legWipe_marks h4
    · exact h4
  clear_value s5
  split
  · exact State.commitSet_marks _ _ _ _ _ _
  · split
    · exact State.legLoaded_marks h5 _
    · exact h5

/-- A set that is due is one of the sets, SCHEDULED, and its sample has come. -/
theorem State.commitDue_some {s : State} {id : Nat} {x : StageSet} (h : s.commitDue id = some x) :
    x.id = id ∧ x ∈ s.scene.sets ∧ x.st = .scheduled ∧ ∃ c, x.commit = some c ∧ c ≤ s.mcc := by
  simp only [State.commitDue, Option.filter_eq_some_iff] at h
  obtain ⟨hf, -⟩ := h
  have hid := List.find?_some hf
  have hm := List.mem_of_find?_eq_some hf
  simp only [List.mem_filter, Bool.and_eq_true, decide_eq_true_eq, Option.any_eq_true] at hm hid
  obtain ⟨hx, hs, hc⟩ := hm
  exact ⟨hid, hx, hs, hc⟩

/-! ### The headset port (R230) -/

/-- The headphones' exits are the headset port's own. -/
theorem State.phonesAdvance_frame (s : State) (n : Nat) : s.frame (s.phonesAdvance n) [.ports, .audio, .free] :=
  State.frame_foldl (fun u _ => by simp [State.frame_iff, Part.same, State.setHsp]) _ s

/-- The microphone's samples go to its port channel, and may take free values. -/
theorem State.micAdvance_frame (s : State) (n : Nat) : s.frame (s.micAdvance n) [.ports, .audio, .free] := by
  refine State.frame_foldl (fun u _ => ?_) _ s
  dsimp only
  split <;> simp [State.frame_iff, Part.same, State.setHsp, State.putRx, State.takeFree]

theorem State.hspDetect_frame (s : State) (on : Bool) : s.frame (s.hspDetect on) [.ports, .audio, .free] := by
  have h := State.frame_next (s.phonesAdvance_frame s.mcc) ((s.phonesAdvance s.mcc).micAdvance_frame s.mcc)
  refine State.frame_next h ?_
  unfold State.hspDetect
  extract_lets s1
  split <;> simp [s1, State.frame_iff, Part.same, State.setHsp]

/-- With no detection the port is one of type 1 with its drivers on. -/
theorem State.hspDetect_off (s : State) :
    (s.hspDetect false).ports.hsp.type = 1 ∧ (s.hspDetect false).ports.hsp.drivers = true := ⟨rfl, rfl⟩

/-- The headset port powered: where R230 treats it as type 1, its own parts change; else nothing does. -/
theorem State.hspPowered_frame (s : State) (d : Nat) : s.frame (s.hspPowered d) [.ports, .audio, .free] := by
  unfold State.hspPowered
  split
  · exact s.hspDetect_frame false
  · exact s.frame_refl _

theorem State.hspPowered_other {s : State} {d : Nat} (h : d ≠ 7 ∨ s.at 0x22 0 0 ≠ 0) : s.hspPowered d = s := by
  rw [State.hspPowered, if_neg (by omega)]

theorem State.hspPowered_typeOne {s : State} (h : s.at 0x22 0 0 = 0) :
    (s.hspPowered 7).ports.hsp.type = 1 ∧ (s.hspPowered 7).ports.hsp.drivers = true := by
  rw [State.hspPowered, if_pos ⟨rfl, h⟩]
  exact s.hspDetect_off

/-! ### A power domain switches (R376, R394, R418) -/

/-- R418: a committed switch of a domain has completed: it waits no more, and the domain's bit has the committed value. -/
def State.switched (s : State) (d : Nat) (on : Bool) : State :=
  { s with
    fault := { s.fault with pdPending := s.fault.pdPending.filter (fun q => q.1 ≠ d) }
    power := { s.power with domains := setBit s.power.domains d on } }

theorem State.switched_frame (s : State) (d : Nat) (on : Bool) : s.frame (s.switched d on) [.fault, .power] := by
  simp [State.switched, State.frame_iff, Part.same]

theorem State.cutBurst_frame (s : State) (target : Nat) (b : Burst) : s.frame (s.cutBurst target b) [.fab, .memories, .mailbox] := by
  unfold State.cutBurst
  extract_lets
  split_ifs
  · exact s.frame_refl _
  · split
    · simp only [State.setMemAt]
      split_ifs <;> simp [State.frame_iff, Part.same]
    · exact s.frame_refl _
  · simp [State.frame_iff, Part.same]

/-- Draining a master touches the fabric and the memories that its bursts write. -/
theorem State.drain_frame (s : State) (m : Nat) : s.frame (s.drain m) [.fab, .memories, .mailbox] := by
  unfold State.drain
  extract_lets own s1
  have h1 : s.frame s1 [.fab, .memories, .mailbox] := by simp [s1, State.frame_iff, Part.same, State.flushPort]
  refine State.frame_next h1 (State.frame_foldl (fun u c => ?_) own s1)
  split
  · exact u.cutBurst_frame _ _
  · exact u.frame_refl _

theorem State.drainDomain_frame (s : State) (d : Nat) : s.frame (s.drainDomain d) [.fab, .memories, .mailbox] := by
  unfold State.drainDomain
  split_ifs
  · exact s.drain_frame 21
  · exact s.drain_frame 23
  · exact s.frame_refl _

/-- A domain's contents, as the parts that hold them. -/
theorem State.clearDomain_frame (s : State) (d : Nat) :
    s.frame (s.clearDomain d) [.memories, .net, .audio, .ports, .conv, .spring, .twin] := by
  unfold State.clearDomain
  split <;> simp [State.frame_iff, Part.same]

/-! ### What an evaluation of the clock unit can touch (R281, R285–R299) -/

/-- What a change of the clock unit's reference leaves alone: every part but the clock unit, the ports' origins and the events, of the network
everything but mcc.status, of the faults everything but the maintenance token's holder. -/
structure State.Retuned (s t : State) : Prop where
  frame : s.frame t [.cku, .net, .fault, .ports, .ev, .sessions]
  net : ∃ m, t.net = { s.net with mcc := m }
  fault : ∃ h, t.fault = { s.fault with holder := h }

namespace State.Retuned

variable {s t u : State}

theorem refl (s : State) : s.Retuned s := ⟨s.frame_refl _, ⟨_, rfl⟩, ⟨_, rfl⟩⟩

theorem trans (h : s.Retuned t) (k : t.Retuned u) : s.Retuned u := by
  obtain ⟨hf, ⟨m, hn⟩, ⟨a, hh⟩⟩ := h
  obtain ⟨kf, ⟨n, kn⟩, ⟨b, kh⟩⟩ := k
  exact ⟨State.frame_next hf kf, ⟨n, by rw [kn, hn]⟩, ⟨b, by rw [kh, hh]⟩⟩

theorem ite {p : Prop} [Decidable p] (h : s.Retuned t) (k : s.Retuned u) : s.Retuned (if p then t else u) := by
  split
  · exact h
  · exact k

theorem foldl {α : Type} {f : State → α → State} (hf : ∀ (u : State) a, u.Retuned (f u a)) (xs : List α) (h : s.Retuned t) :
    s.Retuned (xs.foldl f t) :=
  xs.foldlRecOn (motive := fun v => s.Retuned v) f h (fun v hv a _ => hv.trans (hf v a))

/-- A change of the clock unit, the ports and the events only. -/
theorem of_frame (h : s.frame t [.cku, .ports, .ev, .sessions]) : s.Retuned t :=
  ⟨State.frame_mono h (by decide), ⟨s.net.mcc, h .net (by decide)⟩, ⟨s.fault.holder, h .fault (by decide)⟩⟩

theorem setCku (h : s.Retuned t) (f : CkuG → CkuG) : s.Retuned (t.setCku f) :=
  h.trans (of_frame (by simp [State.frame_iff, Part.same]))

theorem setMccStatus (h : s.Retuned t) (f : NetG → Nat) : s.Retuned (t.setNet (fun n => { n with mcc := f n })) :=
  h.trans ⟨by simp [State.frame_iff, Part.same], ⟨f t.net, rfl⟩, ⟨_, rfl⟩⟩

theorem raise (h : s.Retuned t) (ev : Ev) (part obj val : Nat) : s.Retuned (t.raise ev part obj val) :=
  h.trans (of_frame (State.frame_mono (t.raise_frame ev part obj val) (by decide)))

theorem raiseD (h : s.Retuned t) (ev : Ev) (part obj : Nat) (c : List Nat) : s.Retuned (t.raiseD ev part obj c) :=
  h.trans (of_frame (State.frame_mono (t.raiseD_frame ev part obj c) (by decide)))

theorem freeToken (h : s.Retuned t) : s.Retuned (t.setFault (fun f => { f with holder := none })) :=
  h.trans ⟨by simp [State.frame_iff, Part.same], ⟨_, rfl⟩, ⟨none, rfl⟩⟩

theorem maintEnd (h : s.Retuned t) : s.Retuned t.maintEnd := by
  unfold State.maintEnd
  split
  · exact h
  · exact h.freeToken.raise _ _ _ _

theorem calAbort (h : s.Retuned t) : s.Retuned t.calAbort := by
  unfold State.calAbort
  split
  · exact h
  · have h1 := (h.setCku (fun c => { c with cal := none })).raise .ckuCal 0 0 2
    exact h1.maintEnd.ite h1

theorem unalign (h : s.Retuned t) : s.Retuned t.unalign :=
  h.ite ((h.setMccStatus _).raise _ _ _ _)

theorem takeUp (h : s.Retuned t) (k : Nat) : s.Retuned (t.takeUp k) :=
  ((h.setCku _).setMccStatus _).ite (h.setCku _)

theorem sapOrigins (h : s.Retuned t) : s.Retuned t.sapOrigins := by
  have sap : ∀ (u : State) (i : Nat), u.Retuned (u.sapOrigin (i / 2) (decide (i % 2 = 1))) := fun u i => by
    unfold State.sapOrigin
    extract_lets d c d1 s1
    have h1 : u.Retuned s1 := of_frame (by simp [s1, State.setSap, State.frame_iff, Part.same])
    exact ((h1.raise _ _ _ _).ite h1).ite (refl u)
  have madi : ∀ (u : State) (p : Nat), u.Retuned (u.madiOrigin p) := fun u p => by
    unfold State.madiOrigin
    extract_lets d origin
    exact (of_frame (by simp [State.setMadi, State.frame_iff, Part.same])).ite (refl u)
  exact foldl madi _ (foldl sap _ h)

theorem enterHoldover (h : s.Retuned t) : s.Retuned t.enterHoldover := by
  unfold State.enterHoldover
  extract_lets f s1
  have h1 : s.Retuned s1 := (h.setCku _).raise _ _ _ _
  exact (h.setCku _).ite (((h1.setCku _).raise _ _ _ _).ite h1)

theorem switchTo (h : s.Retuned t) (new cause : Nat) : s.Retuned (t.switchTo new cause) := by
  unfold State.switchTo
  extract_lets old s1 s2 s3 s4
  have h2 : s.Retuned s2 := (h.calAbort.setCku _).raiseD _ _ _ _
  have h3 : s.Retuned s3 := h2.unalign.ite h2
  have h4 : s.Retuned s4 := h3.ite (h3.takeUp new)
  exact h.ite h4.sapOrigins

theorem disagreements (h : s.Retuned t) : s.Retuned t.disagreements := by
  unfold State.disagreements
  extract_lets eq pairs
  refine h.ite (foldl (fun u p => ?_) pairs h)
  exact ((refl u).setCku _).ite ((refl u).ite (((refl u).setCku _).raise _ _ _ _))

theorem evaluate (h : s.Retuned t) : s.Retuned t.evaluate := by
  unfold State.evaluate
  extract_lets new s1 s2
  have h1 : s.Retuned s1 := h.switchTo _ _
  have h2 : s.Retuned s2 := h1.enterHoldover.ite h1
  exact h.ite (h2.disagreements.setCku _)

theorem loseRef (h : s.Retuned t) (k : Nat) : s.Retuned (t.loseRef k) := by
  unfold State.loseRef
  split
  · exact h
  · exact h
  · exact (h.setCku _).raise _ _ _ _

theorem netDown (h : s.Retuned t) : s.Retuned t.netDown := by
  unfold State.netDown
  split
  · exact h
  · exact h
  · exact h
  · exact (h.loseRef 4).evaluate

end State.Retuned

/-! ### The commands -/

theorem State.setScene_changing_frame (s : State) : s.frame (s.setScene (fun g => { g with changing := false })) [.scene] := by
  simp [State.frame_iff, Part.same]

/-- PROFILE_RECONFIG_DONE in a change: the state without it, its outputs unmuted in RUN (R3, R128). -/
theorem execProfileReconfigDone_changing {s : State} (h : s.scene.changing = true) :
    exec .profileReconfigDone s = .next (if s.dev = .run then (s.setScene (fun g => { g with changing := false })).unmuteAll
      else s.setScene (fun g => { g with changing := false })) := by
  show execProfileReconfigDone s = _
  rw [execProfileReconfigDone, if_pos h]

/-- PATCH_REVERT where R42's conditions hold: the entry selects side A with EV_PATCH_FAILOVER, unless a commit moves it (R43). -/
theorem execPatchRevert_due {s : State} {n b x : Nat} (hb : b + s.B + 2 = s.mcc) (hm : s.mcc % s.B = 2) (hl : s.live = true)
    (hn : n < s.cap.strips) (ht : s.audio.taken ≤ b) (h3 : s.valAt (mkH 0x05 n 3) b = 2) (h2 : s.valAt (mkH 0x05 n 2) b = 1)
    (h0 : s.valAt (mkH 0x05 n 0) b ≠ 0) (hr : s.refLoss (s.valAt (mkH 0x05 n 0) b) = false)
    (hs : (Cells.get { both := false, since := none } s.audio.failover n).since = some x) (hx : x + 2 * s.fs ≤ s.mcc) :
    exec (.patchRevert n) s = .next (if s.selectMoves n b then s
      else (s.autoSelect n b 0).raiseD .patchFailover (s.stripOwner n) n (3 :: two b)) := by
  have e : s.mcc - s.B - 2 = b := by omega
  show execPatchRevert n s = _
  simp only [execPatchRevert, e]
  rw [if_pos]
  refine ⟨hl, hn, hm, by omega, ht, h3, h2, h0, by simp [hr], by simp [hs, hx]⟩

/-- COMMIT_APPLIED of the stage set that is due. -/
theorem execCommitApplied_set {s : State} {id : Nat} {x : StageSet} (hl : s.live = true) (hid : id ≠ 0) (h : s.commitDue id = some x) :
    exec (.commitApplied id) s = .next (s.commitSet x.added x.attrs.cfLen x.attrs.dxLen (x.commit.getD s.mcc) x.id) := by
  show execCommitApplied id s = _
  simp only [execCommitApplied, hl, hid, h, Bool.not_true, Bool.false_and, Bool.false_eq_true, if_false]
  rfl

/-- COMMIT_APPLIED of the legacy set that is due. -/
theorem execCommitApplied_legacy {s : State} {x : LegSet} (hl : s.live = true) (h : s.legDue = some x) :
    exec (.commitApplied 0) s = .next (s.legCommit x) := by
  show execCommitApplied 0 s = _
  simp only [execCommitApplied, hl, h, Bool.not_true, Bool.false_and, Bool.false_eq_true, if_false, if_true]

/-- PD_SWITCH_DONE of a committed switch-on: the headset port is powered, EV_PD_SWITCH tells the value (R230, R418). -/
theorem execPdSwitchDone_on {s : State} {d c : Nat} (h : s.fault.pdPending.find? (fun q => q.1 = d) = some (d, c, true)) :
    exec (.pdSwitchDone d) s = .next (((s.switched d true).hspPowered d).raise .pdSwitch 0 d 1) := by
  show execPdSwitchDone d s = _
  simp only [execPdSwitchDone, h]
  rfl

/-- PD_SWITCH_DONE of a committed switch-off: the domain's masters are drained, its contents cleared, and REF4 follows PD_NET (R394, R418). -/
theorem execPdSwitchDone_off {s : State} {d c : Nat} (h : s.fault.pdPending.find? (fun q => q.1 = d) = some (d, c, false)) :
    exec (.pdSwitchDone d) s =
      .next ((((s.switched d false).drainDomain d).clearDomain d).netDown.raise .pdSwitch 0 d 0) := by
  show execPdSwitchDone d s = _
  simp only [execPdSwitchDone, h]
  rfl

/-- R418: a switch-on that completes. -/
theorem switchOn_done {s : State} {d c : Nat} (h : s.fault.pdPending.find? (fun q => q.1 = d) = some (d, c, true)) :
    ∃ t, exec (.pdSwitchDone d) s = .next t ∧ t.power = (s.switched d true).power ∧ t.fault = (s.switched d true).fault ∧
      s.told t .pdSwitch 0 d 1 ∧
      (d ≠ 7 ∨ s.at 0x22 0 0 ≠ 0 → s.frame t [.fault, .power, .ev, .sessions]) ∧
      (d = 7 → s.at 0x22 0 0 = 0 → t.ports.hsp.type = 1 ∧ t.ports.hsp.drivers = true ∧
        s.frame t [.fault, .power, .ev, .sessions, .ports, .audio, .free]) := by
  have hat : (s.switched d true).at 0x22 0 0 = s.at 0x22 0 0 := rfl
  have hw := s.switched_frame d true
  have hf := (s.switched d true).hspPowered_frame d
  have hp : ((s.switched d true).hspPowered d).power = (s.switched d true).power := hf .power (by decide)
  have hq : ((s.switched d true).hspPowered d).fault = (s.switched d true).fault := hf .fault (by decide)
  have hr := State.raise_frame ((s.switched d true).hspPowered d) .pdSwitch 0 d 1
  refine ⟨((s.switched d true).hspPowered d).raise .pdSwitch 0 d 1, execPdSwitchDone_on h, by simpa using hp, by simpa using hq,
    ?_, ?_, ?_⟩
  · exact State.raise_told _ _ _ _ _ _ (hf .ev (by decide)) (hf .sessions (by decide)) (hf .mcc (by decide))
      (State.legacy_of_straps (by rw [hp]; rfl))
  · intro h7
    rw [State.hspPowered_other (by rwa [hat])] at hr ⊢
    exact State.frame_trans hw hr
  · rintro rfl h0
    obtain ⟨ht, hd⟩ := (s.switched 7 true).hspPowered_typeOne (by rwa [hat])
    exact ⟨by simpa using ht, by simpa using hd, State.frame_mono (State.frame_trans (State.frame_trans hw hf) hr) (by decide)⟩

/-- R376, R394, R418: a switch-off that completes. -/
theorem switchOff_done {s : State} {d c : Nat} (h : s.fault.pdPending.find? (fun q => q.1 = d) = some (d, c, false)) :
    ∃ t, exec (.pdSwitchDone d) s = .next t ∧
      t = (State.clearDomain ((s.switched d false).drainDomain d) d).netDown.raise .pdSwitch 0 d 0 ∧
      t.power = (s.switched d false).power ∧ t.fault.pdPending = (s.switched d false).fault.pdPending ∧ t.marks .pdSwitch ∧
      (d = 0 → t.fab.dram = []) ∧ (d = 1 → t.net.queue = [] ∧ t.net.phc = NetG.reset.phc) := by
  have hc : (s.switched d false).frame (State.clearDomain ((s.switched d false).drainDomain d) d)
      ([.fab, .memories, .mailbox] ++ [.memories, .net, .audio, .ports, .conv, .spring, .twin]) :=
    State.frame_trans (State.drainDomain_frame _ d) (State.clearDomain_frame _ d)
  have hpower : (State.clearDomain ((s.switched d false).drainDomain d) d).power = (s.switched d false).power := hc .power (by decide)
  have hfault : (State.clearDomain ((s.switched d false).drainDomain d) d).fault = (s.switched d false).fault := hc .fault (by decide)
  have hdram : d = 0 → (State.clearDomain ((s.switched d false).drainDomain d) d).fab.dram = [] := by rintro rfl; rfl
  have hnet : d = 1 → (State.clearDomain ((s.switched d false).drainDomain d) d).net = NetG.reset := by rintro rfl; rfl
  refine ⟨_, execPdSwitchDone_off h, rfl, ?_⟩
  simp only [State.raise_fields]
  generalize State.clearDomain ((s.switched d false).drainDomain d) d = u at hpower hfault hdram hnet
  obtain ⟨hf, ⟨m, hn⟩, ⟨k, hh⟩⟩ := State.Retuned.netDown (.refl u)
  obtain ⟨-, -, hmem⟩ := hf .memories (by decide)
  have hpow : u.netDown.power = u.power := hf .power (by decide)
  refine ⟨by rw [hpow, hpower], by rw [hh, hfault], State.raise_marks _ _ _ _ _, fun h0 => by rw [hmem, hdram h0], fun h1 => ?_⟩
  rw [hn, hnet h1]
  exact ⟨rfl, rfl⟩

/-- R3, R128: a change of profile or rate ends: outside RUN the outputs stay as they are. -/
theorem profileReconfigDone_quiet {s : State} (h : s.scene.changing = true) (hd : s.dev ≠ .run) :
    ∃ t, exec .profileReconfigDone s = .next t ∧ t.scene = { s.scene with changing := false } ∧ s.frame t [.scene] := by
  refine ⟨_, execProfileReconfigDone_changing h, ?_⟩
  rw [if_neg hd]
  exact ⟨by simp, s.setScene_changing_frame⟩

/-- R3, R128: in RUN the outputs unmute. -/
theorem profileReconfigDone_run {s : State} (h : s.scene.changing = true) (hd : s.dev = .run) :
    ∃ t, exec .profileReconfigDone s = .next t ∧ t = (s.setScene (fun g => { g with changing := false })).unmuteAll ∧
      t.scene = { s.scene with changing := false } ∧ s.frame t [.scene, .audio, .spring, .legacy] := by
  have hu := State.unmuteAll_frame (s.setScene (fun g => { g with changing := false }))
  refine ⟨_, execProfileReconfigDone_changing h, ?_⟩
  rw [if_pos hd]
  refine ⟨rfl, ?_, State.frame_trans s.setScene_changing_frame hu⟩
  rw [State.scene_of_frame hu (by decide) (by decide)]
  simp

/-- R42: an entry on side B returns to side A on the stamp b: what is on its way, what is told, what else stays. -/
theorem State.autoSelect_reverts {s : State} {n b : Nat} (h2 : s.valAt (mkH 0x05 n 2) b = 1) (content : List Nat) :
    let t := (s.autoSelect n b 0).raiseD .patchFailover (s.stripOwner n) n content
    (∃ c ∈ t.audio.changes, c.h = mkH 0x05 n 2 ∧ c.c = b ∧ c.old = 1 ∧ c.new = 0) ∧
      s.toldD t .patchFailover (s.stripOwner n) n content ∧ s.frame t [.audio, .params, .ev, .sessions] := by
  have hf := s.autoSelect_frame n b 0
  have hp : (s.autoSelect n b 0).power = s.power := hf .power (by decide)
  obtain ⟨c, hc, hh, hb, hold, hnew⟩ := s.autoSelect_change n b 0
  refine ⟨⟨c, by simpa using hc, hh, hb, by rw [hold, h2], hnew⟩, ?_, State.frame_trans hf (State.raiseD_frame _ _ _ _ _)⟩
  exact State.raiseD_told _ _ _ _ _ _ (hf .ev (by decide)) (hf .sessions (by decide)) (hf .mcc (by decide))
    (State.legacy_of_straps (by rw [hp]))

/-- Settles O6: each command by what it does in the state the clause names, its parts by their frames. -/
theorem commitsSwitchesAndReverts : Obligations.CommitsSwitchesAndReverts := by
  unfold Obligations.CommitsSwitchesAndReverts
  refine ⟨fun s h => ⟨profileReconfigDone_quiet h, profileReconfigDone_run h⟩, ?_, fun s id hl => ⟨?_, ?_, ?_⟩, ?_⟩
  · intro s n b x hb hm hl hn ht h3 h2 h0 hr hs hx
    have he := execPatchRevert_due hb hm hl hn ht h3 h2 h0 hr hs hx
    refine ⟨fun hsel => by rw [he, if_pos hsel], fun hsel => ?_⟩
    rw [if_neg (by simp [hsel])] at he
    exact ⟨_, he, s.autoSelect_reverts h2 _⟩
  · intro x hid hx
    obtain ⟨rfl, -, -, -⟩ := State.commitDue_some hx
    exact ⟨_, execCommitApplied_set hl hid hx, rfl, s.commitSet_sets _ _ _ _ _, s.commitSet_holder _ _ _ _ _,
      s.commitSet_marks _ _ _ _ _⟩
  · exact fun x hx => ⟨_, execCommitApplied_legacy hl hx, rfl, s.legCommit_marks x⟩
  · exact fun x hx => State.commitDue_some hx
  · intro s d c on h
    constructor
    · rintro rfl
      exact switchOn_done h
    · rintro rfl
      exact switchOff_done h

end Sys2Proof.Machine
end

section
/-! PROOFS. Reset and the start of the boot (R17, R337–R348, R481–R483): what a reset leaves and keeps, the first two orders of the boot; O1, O57. -/

namespace Sys2Proof.Machine

open Fmt

/-! ### The state right after reset (log entry 1) -/

/-- Right after reset the committed word of a field outside the matrix is its default (R17). -/
theorem State.val_reset {h : Nat} {f : Field} (h3 : hCls h ≠ 3) (h4 : hCls h ≠ 4) (hf : State.reset.field h = some f) :
    State.reset.val h = f.dfltWord := by
  have hw : ∀ d, State.reset.word h d = d := fun _ => rfl
  rw [State.val, if_neg h3, if_neg h4, hw, hf]
  rfl

/-- Right after reset every matrix node is off. -/
theorem State.node_reset (k : Nat) : State.reset.node k = Node.reset := rfl

/-- Settles O57: field by field; no word is listed, so every field reads as its default. -/
theorem resetStateHolds : Obligations.ResetStateHolds := by
  unfold Obligations.ResetStateHolds
  refine ⟨rfl, rfl, rfl, rfl, rfl, rfl, rfl, fun h f h3 h4 hf => State.val_reset h3 h4 hf, fun k => ?_, by decide⟩
  rw [State.node_reset]
  exact ⟨rfl, rfl⟩

/-! ### What a reset leaves and keeps (R17, R318, R481) -/

theorem State.resetAll_atReset (s : State) (wake : Bool) : (s.resetAll wake).atReset :=
  ⟨rfl, rfl, rfl, rfl, rfl, rfl, rfl, rfl, rfl, rfl, rfl, rfl⟩

theorem State.resetAll_keepsStores (s : State) (wake : Bool) : s.keepsStores (s.resetAll wake) :=
  ⟨rfl, rfl, rfl, rfl, rfl, rfl⟩

/-- R17, R481, R482: the standby set comes into range. -/
theorem powerOnStandbySet_resets {s : State} (h : s.dev = .off) : ∃ t, exec .powerOnStandbySet s = .next t ∧ t.dev = .reset ∧
    t.mcc = 0 ∧ t.power.standbySet = true ∧ t.power.holdMcc = true ∧ t.power.domains = 0 ∧ t.params = [] ∧ t.atReset ∧
    s.keepsStores t := by
  refine ⟨{ s.resetAll false with mcc := 0, power := { (s.resetAll false).power with standbySet := true } }, ?_, rfl, rfl, rfl, rfl,
    rfl, rfl, s.resetAll_atReset false, s.resetAll_keepsStores false⟩
  show execPowerOnStandbySet s = _
  rw [execPowerOnStandbySet, if_neg (not_not.2 h)]

/-- R481: the standby set is lost, and the secure bank with it. -/
theorem standbySetLost_resets (s : State) : ∃ t, exec .standbySetLost s = .next t ∧ t.dev = .off ∧ t.mcc = 0 ∧
    t.power.standbySet = false ∧ t.sec.creds = [] ∧ t.sec.modKeys = [] ∧ t.params = [] ∧ t.atReset ∧ s.keepsStores t :=
  ⟨_, rfl, rfl, rfl, rfl, rfl, rfl, rfl, s.resetAll_atReset false, s.resetAll_keepsStores false⟩

/-- R481: a rail outside the standby set leaves its range. -/
theorem mainRailOutOfRange_resets {s : State} (h : s.dev ≠ .off) : ∃ t, exec .mainRailOutOfRange s = .next t ∧ t.dev = .reset ∧
    t.mcc = s.mcc ∧ t.power.holdMcc = true ∧ t.power.mainRails = false ∧ t.power.resetN = s.power.resetN ∧
    t.sec.creds = s.sec.creds ∧ t.params = [] ∧ t.atReset ∧ s.keepsStores t := by
  refine ⟨(s.resetAll false).setPower (fun p => { p with mainRails := false }), ?_, rfl, rfl, rfl, rfl, rfl, rfl, rfl,
    s.resetAll_atReset false, s.resetAll_keepsStores false⟩
  show execMainRailOutOfRange s = _
  rw [execMainRailOutOfRange, if_neg h]

/-- R17: RESET_N goes low. -/
theorem resetNLow_resets {s : State} (h : s.dev ≠ .off) : ∃ t, exec .resetNLow s = .next t ∧ t.dev = .reset ∧ t.mcc = s.mcc ∧
    t.power.holdMcc = true ∧ t.power.resetN = false ∧ t.power.mainRails = s.power.mainRails ∧ t.sec.creds = s.sec.creds ∧
    t.params = [] ∧ t.atReset ∧ s.keepsStores t := by
  refine ⟨(s.resetAll false).setPower (fun p => { p with resetN := false }), ?_, rfl, rfl, rfl, rfl, rfl, rfl, rfl,
    s.resetAll_atReset false, s.resetAll_keepsStores false⟩
  show execResetNLow s = _
  rw [execResetNLow, if_neg h]

/-! ### Order 1: the boot begins (R2, R337, R339, R348, R483) -/

/-- The boot's start, after a change of the power group alone, touches the device state, the power group and the boot group. -/
theorem State.startBoot_setPower_frame (s : State) (f : PowerG → PowerG) : s.frame (s.setPower f).startBoot [.dev, .power, .boot] := by
  simp [State.frame_iff, Part.same, State.startBoot]

/-- A reserved strap value ends the boot with error 0x0C (R339). -/
theorem State.startBoot_error {s : State} (h : s.power.straps.reserved = true) : s.startBoot.boot.error = 0x0C := by
  simp only [State.startBoot, State.setBoot_fields, h, if_true]

/-- RESET_N rises with every rail in range. -/
theorem resetNRise_boots {s : State} {x : Straps} (hd : s.dev = .reset) (hn : s.power.resetN = false) (hr : s.power.mainRails = true) :
    ∃ t, exec (.resetNRise x) s = .next t ∧ t.dev = .boot ∧ t.power.resetN = true ∧ t.power.straps = x ∧ t.power.holdMcc = false ∧
      t.power.domains = 0 ∧ t.mcc = s.mcc ∧ t.boot.stage = 0x01 ∧ (x.reserved = true → t.boot.error = 0x0C) ∧
      s.frame t [.dev, .power, .boot] := by
  refine ⟨(s.setPower (fun p => { p with resetN := true, straps := x })).startBoot, ?_, rfl, rfl, rfl, rfl, rfl, rfl, rfl,
    fun h => State.startBoot_error h, s.startBoot_setPower_frame _⟩
  show execResetNRise x s = _
  simp only [execResetNRise, hn, hd, hr, Bool.false_eq_true, ne_eq, not_true_eq_false, if_true, if_false]

/-- The last rail comes into range after RESET_N has risen. -/
theorem mainRailsInRange_boots {s : State} (hd : s.dev = .reset) (hn : s.power.resetN = true) (hr : s.power.mainRails = false) :
    ∃ t, exec .mainRailsInRange s = .next t ∧ t.dev = .boot ∧ t.power.mainRails = true ∧ t.power.straps = s.power.straps ∧
      t.power.holdMcc = false ∧ t.mcc = s.mcc ∧ t.boot.stage = 0x01 ∧ s.frame t [.dev, .power, .boot] := by
  refine ⟨(s.setPower (fun p => { p with mainRails := true })).startBoot, ?_, rfl, rfl, rfl, rfl, rfl, rfl,
    s.startBoot_setPower_frame _⟩
  show execMainRailsInRange s = _
  rw [execMainRailsInRange, if_pos ⟨hd, by simp [hr], hn⟩]

/-! ### Order 2 follows by itself (R338, R339, R343, R348; log entry 200) -/

/-- What feeds the loader, by the strap (R338). -/
theorem State.feedOf_eq (s : State) : s.feedOf =
    if s.power.straps.boot = 2 then .pcie else if s.power.straps.boot = 3 then .twin else .slot (decide (s.boot.pref = some 1)) := by
  unfold State.feedOf
  split
  · next h => rw [h]; rfl
  · next h => rw [h]; rfl
  · next h2 h3 => rw [if_neg h2, if_neg h3]

/-- Order 2 sets the stage of the source; with a reserved strap value the boot stays at 0x02. -/
theorem State.orderTwo_stage (s : State) : s.orderTwo.boot.stage =
    if s.power.straps.reserved then 0x02 else if s.power.straps.boot = 2 then 0x0F else if s.power.straps.boot = 3 then 0x10 else 0x02 := by
  simp only [State.orderTwo, State.setBoot_fields, State.setPower_fields, State.feedOf_eq]
  split_ifs <;> simp_all

theorem State.orderTwo_domains (s : State) : s.orderTwo.power.domains =
    2 ^ 8 + 2 ^ 11 + (if s.power.straps.boot = 3 ∧ s.power.straps.reserved = false then 2 ^ 6 else 0) := by
  simp only [State.orderTwo, State.setBoot_fields, State.setPower_fields, State.feedOf_eq]
  split_ifs <;> simp_all

theorem State.orderTwo_error (s : State) : s.orderTwo.boot.error = s.boot.error := by
  simp only [State.orderTwo, State.setBoot_fields, State.setPower_fields]
  split <;> rfl

theorem State.orderTwo_frame (s : State) : s.frame s.orderTwo [.power, .boot] := by
  simp [State.frame_iff, Part.same, State.orderTwo]

theorem State.bootReady_stageOne {s : State} (hd : s.dev = .boot) (h : s.boot.stage = 0x01) : s.bootReady = s.orderTwo := by
  rw [State.bootReady, if_neg (not_not.2 hd), h]
  rfl

/-- At a stage that waits for a command nothing follows by itself. -/
theorem State.bootReady_waits {s : State} (h : ¬ (s.dev = .boot ∧ s.boot.stage ∈ [0x01, 0x05, 0x06])) : s.bootReady = s := by
  unfold State.bootReady
  split
  · rfl
  · next hd =>
    have hst : s.boot.stage ∉ [0x01, 0x05, 0x06] := fun m => h ⟨not_not.1 hd, m⟩
    simp only [List.mem_cons, List.not_mem_nil, or_false, not_or] at hst
    obtain ⟨h1, h5, h6⟩ := hst
    split
    · next e => exact absurd e h1
    · next e => exact absurd e h5
    · next e => exact absurd e h6
    · rfl

/-- Order 2 leaves a stage that waits for the loader's commands. -/
theorem State.bootReady_orderTwo (s : State) : s.orderTwo.bootReady = s.orderTwo := by
  refine State.bootReady_waits (fun h => ?_)
  obtain ⟨-, hm⟩ := h
  rw [State.orderTwo_stage] at hm
  split_ifs at hm <;> simp at hm

/-- Settles O1: each event by the state it leads to, order 2 by its equations; a command of the loader begins with `State.bootReady`, which
order 2 has already done. -/
theorem resetAndBootStart : Obligations.ResetAndBootStart := by
  unfold Obligations.ResetAndBootStart
  refine ⟨fun s => ⟨powerOnStandbySet_resets, standbySetLost_resets s, mainRailOutOfRange_resets, resetNLow_resets⟩,
    fun s x hd => ⟨resetNRise_boots hd, mainRailsInRange_boots hd⟩, fun s hd h1 => ?_, fun s h hd h2 hx => ?_⟩
  · rw [State.bootReady_stageOne hd h1]
    have again : s.orderTwo.bootReady = s.bootReady := by rw [s.bootReady_orderTwo, State.bootReady_stageOne hd h1]
    refine ⟨s.orderTwo_stage, s.orderTwo_domains, s.orderTwo_error, s.orderTwo_frame, fun h => ?_, fun ok => ?_, fun b => ?_, fun b => ?_⟩
    · show execImageHeaderRead h s = execImageHeaderRead h s.orderTwo
      rw [execImageHeaderRead, execImageHeaderRead, again]
    · show execDramTrainingDone ok s = execDramTrainingDone ok s.orderTwo
      rw [execDramTrainingDone, execDramTrainingDone, again]
    · show execPcieImageChunk b s = execPcieImageChunk b s.orderTwo
      rw [execPcieImageChunk, execPcieImageChunk, again]
    · show execTwinImageReceived b s = execTwinImageReceived b s.orderTwo
      unfold execTwinImageReceived
      rw [again]
  · have hs : s.bootReady = s := State.bootReady_waits (by simp [h2])
    show execImageHeaderRead h s = _
    simp only [execImageHeaderRead, hs, hx, or_true, if_true]

end Sys2Proof.Machine
end

section
/-! PROOFS. The commands that read (R321–R330, R382): what taking a request leaves of what is read; O33. -/

namespace Sys2Proof.Machine

open Fmt

/-! ### A request taken changes nothing that is read -/

/-- A session that has taken a request receives what it received. -/
theorem Session.receives_accept (x : Session) (n part : Nat) : (x.accept n).receives part = x.receives part := rfl

theorem State.ownerOf_admitted (s : State) (r : Req) (h : Nat) : (s.admitted r).ownerOf h = s.ownerOf h := rfl

theorem State.nodeOwner_admitted (s : State) (r : Req) (d src : Nat) : (s.admitted r).nodeOwner d src = s.nodeOwner d src := rfl

theorem State.cap_admitted (s : State) (r : Req) : (s.admitted r).cap = s.cap := rfl

/-- The fields of a SAP direction. -/
theorem State.sapCfg_admitted (s : State) (r : Req) (p : Nat) (tx : Bool) : (s.admitted r).sapCfg p tx = s.sapCfg p tx := by
  have hw : (s.admitted r).sapW = s.sapW := rfl
  have hg : ∀ g, (s.admitted r).sapCfgBy g p tx = s.sapCfgBy g p tx := fun _ => rfl
  rw [State.sapCfg, hw, hg, State.sapCfg]

theorem State.sapRead_admitted (s : State) (r : Req) (p f : Nat) : (s.admitted r).sapRead p f = s.sapRead p f := by
  have hro : ∀ tx g, (s.admitted r).sapRo p tx g = s.sapRo p tx g := fun tx g => by
    unfold State.sapRo
    rw [State.sapCfg_admitted]
    rfl
  have hleg : ∀ tx g, (s.admitted r).sapLegacy p tx g = s.sapLegacy p tx g := fun tx g => by
    unfold State.sapLegacy
    rw [State.sapCfg_admitted]
    rfl
  unfold State.sapRead
  simp only [hro, hleg]
  rfl

/-- What a read of a handle returns (R322). -/
theorem State.readVal_admitted (s : State) (r : Req) (h : Nat) : (s.admitted r).readVal h = s.readVal h := by
  have hval : (s.admitted r).val h = s.val h := rfl
  have hgain : (s.admitted r).isDbGain h = s.isDbGain h := rfl
  have hnode : ∀ k, (s.admitted r).nodeTarget k = s.nodeTarget k := fun _ => rfl
  have htap : ∀ k, (s.admitted r).tapWord k = s.tapWord k := fun _ => rfl
  have hsrc : ∀ n, (s.admitted r).srcMap n = s.srcMap n := fun _ => rfl
  have hdst : ∀ n, (s.admitted r).dstMap n = s.dstMap n := fun _ => rfl
  have hro : ∀ c n f, (s.admitted r).roVal c n f = s.roVal c n f := fun _ _ _ => rfl
  unfold State.readVal
  simp only [hval, hgain, hnode, htap, hsrc, hdst, hro, State.sapRead_admitted]

theorem State.counter_admitted (s : State) (r : Req) (i : Nat) : (s.admitted r).counter i = s.counter i := by
  have hfault : (s.admitted r).faultCounters = s.faultCounters := rfl
  have hfield : (s.admitted r).field i = s.field i := rfl
  unfold State.counter
  rw [hfault, hfield, State.readVal_admitted]
  rfl

theorem State.summaries_admitted (s : State) (r : Req) : (s.admitted r).vcp.summaries = s.vcp.summaries := rfl

/-! ### Requests that change nothing -/

/-- A request that is refused with an error. -/
theorem State.serveRead_refuses {s : State} {r : Req} {need : Nat} {x : Session} (h : s.admits r need x) (cmd e : Nat)
    (f : Session → State → Option Ans) (hf : f (x.accept r.seq) (s.admitted r) = Ans.fail e) :
    (s.serveRead r cmd need f).answers r cmd e 0 [] ∧ s.frame (s.serveRead r cmd need f) replyParts := by
  have k := State.serve_same h cmd (fun x s => (s, f x s)) ⟨e, 0, []⟩ (by simp [hf, Ans.fail])
  rw [Ans.fits_nil] at k
  exact k

/-- A command that is one read of the state. -/
theorem State.reads_of_serveRead {s : State} {r : Req} {need cmd : Nat} {x : Session} {c : Instr} {f : Session → State → Option Ans}
    {items : List Item} (h : s.admits r need x) (hc : exec c s = .next (s.serveRead r cmd need f))
    (hf : f (x.accept r.seq) (s.admitted r) = Ans.good items) : s.reads c r cmd items :=
  fun _ hi => ⟨_, hc, State.serveRead_reads h cmd items f hf hi⟩

/-- A command that is one read of the state, refused. -/
theorem State.refuses_of_serveRead {s : State} {r : Req} {need cmd e : Nat} {x : Session} {c : Instr} {f : Session → State → Option Ans}
    (h : s.admits r need x) (hc : exec c s = .next (s.serveRead r cmd need f))
    (hf : f (x.accept r.seq) (s.admitted r) = Ans.fail e) : s.refuses c r cmd e :=
  fun _ => ⟨_, hc, State.serveRead_refuses h cmd e f hf⟩

/-! ### The reads -/

section
variable {s : State} {r : Req} {x : Session}

/-- R326: SUMMARY joins the requests that wait for the frame tick. -/
theorem summary_waits (h : s.admits r 3 x) : ∃ t, exec (.summary r) s = .next t ∧ t.vcp.summaries = s.vcp.summaries ++ [r] ∧
    t.vcp.last = s.vcp.last ∧ s.frame t replyParts := by
  refine ⟨(s.admitted r).setVcp (fun v => { v with summaries := v.summaries ++ [r] }), ?_, ?_, ?_, ?_⟩
  · show execSummary r s = _
    rw [execSummary, State.serve_admits h]
  · simp [State.summaries_admitted]
  · simp
  · refine State.frame_next (s.admitted_frame r) ?_
    simp [State.frame_iff, Part.same, replyParts]

/-- R328, R330: the detail entry of an index, while its slot still holds it. -/
theorem eventDetail_reads (h : s.admits r 3 x) {i : Nat} {words : List Nat}
    (hi : Cells.get (65536, []) s.ev.detail (i % 256) = (i, words)) : s.reads (.eventDetail r i) r 0x0404 [.words words] :=
  State.reads_of_serveRead h rfl (by simp [hi])

/-- R322: the committed value of one handle. -/
theorem paramRead_reads (h : s.admits r 2 x) {hd : Nat} (he : (s.admitted r).readError (x.accept r.seq) hd = 0) :
    s.reads (.paramRead r [hd]) r 0x0301 [.entries [{ h := hd, v := (s.admitted r).readVal hd }]] := by
  refine State.reads_of_serveRead h rfl ?_
  simp [he, readFit, replyMax, statusSize]

/-- R81: the record of one node of the shape in force, for a session that receives its destination's partition (R316). -/
theorem matrixRead_reads (h : s.admits r 2 x) {d k : Nat} (hd : d < s.cap.dests) (hk : k < s.cap.sources)
    (hx : x.receives (s.nodeOwner d k) = true) :
    s.reads (.matrixRead r d k 1 1 0) r 0x0302 [.words ((s.admitted r).nodeRecord (nodeKey d k))] := by
  have hin : ¬ (s.cap.dests < d + 1 ∨ s.cap.sources < k + 1) := by omega
  refine State.reads_of_serveRead h rfl ?_
  simp only [State.cap_admitted, State.nodeOwner_admitted, Session.receives_accept, hin, if_false]
  simp [hx, nodesPerReply, replyMax, statusSize]

/-- R316: a node of a partition that the session does not receive. -/
theorem matrixRead_refuses (h : s.admits r 2 x) {d k : Nat} (hd : d < s.cap.dests) (hk : k < s.cap.sources)
    (hx : x.receives (s.nodeOwner d k) = false) : s.refuses (.matrixRead r d k 1 1 0) r 0x0302 Err.owner := by
  have hin : ¬ (s.cap.dests < d + 1 ∨ s.cap.sources < k + 1) := by omega
  refine State.refuses_of_serveRead h rfl ?_
  simp only [State.cap_admitted, State.nodeOwner_admitted, Session.receives_accept, hin, if_false]
  simp [hx]

/-- R35: the path latencies of output patch entries that exist and whose partitions the session receives. -/
theorem latencyRead_reads (h : s.admits r 2 x) {outs : List Nat}
    (ho : ∀ n ∈ outs, n < outEntries ∧ x.receives (s.ownerOf (mkH 0x06 n 0)) = true) :
    s.reads (.latencyRead r outs) r 0x0303 [.words (outs.map (s.admitted r).pathLat)] := by
  have hn : ¬ outs.any (fun n => decide (outEntries ≤ n)) = true := by
    simpa using fun n m => (ho n m).1
  have hw : ¬ outs.any (fun n => !x.receives (s.ownerOf (mkH 0x06 n 0))) = true := by
    simpa using fun n m => (ho n m).2
  refine State.reads_of_serveRead h rfl ?_
  simp only [State.ownerOf_admitted, Session.receives_accept, hn, hw, Bool.false_eq_true, if_false]

/-- R382: counters that exist, the saturation counters among them of partitions that the session receives. -/
theorem counterRead_reads (h : s.admits r 2 x) {ids : List Nat}
    (hi : ∀ i ∈ ids, (s.counter i).isSome = true ∧ (satHandle i = true → x.receives (s.ownerOf i) = true)) :
    s.reads (.counterRead r ids) r 0x0304 [.words (ids.map (fun i => (s.counter i).getD 0))] := by
  have hn : ¬ ids.any (fun i => (s.counter i).isNone) = true := by
    simpa [Option.ne_none_iff_isSome] using fun i m => (hi i m).1
  have hw : ¬ ids.any (fun i => satHandle i && !x.receives (s.ownerOf i)) = true := by
    simpa using fun i m => (hi i m).2
  refine State.reads_of_serveRead h rfl ?_
  simp only [State.counter_admitted, State.ownerOf_admitted, Session.receives_accept, hn, hw, Bool.false_eq_true, if_false]

/-- R265: the description of a transmit stream. -/
theorem streamSdp_reads (h : s.admits r 1 x) {i : Nat} (hi : i < 256) :
    s.reads (.streamSdp r i none) r 0x0307 [.blob ((s.admitted r).sdpOut i)] := by
  intro _ hfit
  have hok := State.serve_same h 0x0307 (fun x s => if 256 ≤ i then (s, Ans.fail Err.handle) else (s, Ans.good [.blob (s.sdpOut i)]))
    ⟨0, 0, [.blob ((s.admitted r).sdpOut i)]⟩ (if_neg (Nat.not_le.2 hi))
  rw [Ans.fits_of hfit] at hok
  exact ⟨_, rfl, hok⟩

end

/-- Settles O33: each read answers from the state that has taken the request, which differs in nothing that is read. -/
theorem readsAnswerAndChangeNothing : Obligations.ReadsAnswerAndChangeNothing := by
  unfold Obligations.ReadsAnswerAndChangeNothing
  intro s r x need h
  refine ⟨?_, ?_, ?_, ?_, ?_, ?_, ?_, ?_, ?_, ?_, ?_⟩ <;> rintro rfl
  · exact State.reads_of_serveRead h rfl (by simp)
  · exact summary_waits h
  · exact fun c => State.refuses_of_serveRead h rfl rfl
  · exact fun i words hi => eventDetail_reads h hi
  · exact fun hd he => paramRead_reads h he
  · exact fun d k hd hk => ⟨matrixRead_reads h hd hk, matrixRead_refuses h hd hk⟩
  · exact fun outs ho => latencyRead_reads h ho
  · exact fun ids hi => counterRead_reads h hi
  · exact fun i hi => streamSdp_reads h hi
  · exact State.reads_of_serveRead h rfl (by simp)
  · exact State.reads_of_serveRead h rfl (by simp)

end Sys2Proof.Machine
end

section
/-! PROOFS. The frame tick (R24–R29) and SUMMARY (R326): the length of the SUMMARY bytes, the reply to a waiting request, the order of the
stages; O7. -/

namespace Sys2Proof.Machine.Fmt

theorem length_toBE (n x : Nat) : (toBE n x).length = n := by
  induction n with
  | zero => rfl
  | succ n ih => rw [toBE, List.length_cons, ih]

end Sys2Proof.Machine.Fmt

namespace Sys2Proof.Machine.Crypto

/-- A round of SHA-256 keeps the number of working variables. -/
theorem length_shaRound (v : List Nat) (w : Nat) : (shaRound v w).length = v.length := by
  unfold shaRound
  split
  · simp only [List.length_cons, List.length_nil]
  · rfl

/-- A block of SHA-256 keeps the number of words of the hash value. -/
theorem length_shaBlock (h blk : List Nat) : (shaBlock h blk).length = h.length := by
  have rounds : ∀ ws : List Nat, (ws.foldl shaRound h).length = h.length := fun ws =>
    ws.foldlRecOn (motive := fun v => v.length = h.length) shaRound rfl (fun v hv w _ => (length_shaRound v w).trans hv)
  simp only [shaBlock, List.length_zipWith, rounds, Nat.min_self]

/-- SHA-256 has 32 bytes. -/
theorem length_sha256 (m : List Nat) : (sha256 m).length = 32 := by
  have blocks : ∀ bs : List (List Nat), (bs.foldl shaBlock shaH0).length = 8 := fun bs =>
    bs.foldlRecOn (motive := fun h => h.length = 8) shaBlock (by simp [shaH0, primes64]) (fun h hh b _ => (length_shaBlock h b).trans hh)
  simp [sha256, List.length_flatMap, Fmt.length_toBE, blocks]

end Sys2Proof.Machine.Crypto

namespace Sys2Proof.Machine

open Fmt

/-! ### SUMMARY (R326) -/

theorem length_padTo (n : Nat) (l : List Nat) : (padTo n l).length = n := by
  simp only [padTo, List.length_append, List.length_take, List.length_replicate]
  omega

/-- SUMMARY has 4096 bytes: 0xFE0 of fields, then their hash. -/
theorem State.summary_length (s : State) : s.summary.length = 4096 := by
  simp only [State.summary, List.length_append, length_padTo, Crypto.length_sha256]

theorem State.summary_fits (s : State) : itemsFit [.blob s.summary] := by
  simp [itemsFit, itemsSize, Item.size, s.summary_length, cdiv, replyMax, statusSize]

theorem State.sendTo_summaries (s : State) (o : Origin) (k : Keys) (rep : Machine.Reply) :
    (s.sendTo o k rep).vcp.summaries = s.vcp.summaries := by
  cases o <;> rfl

/-- The SUMMARY requests that wait are not among what a reply changes. -/
theorem State.reply_summaries (s : State) (r : Req) (cmd : Nat) (a : Ans) : (s.reply r cmd a).vcp.summaries = s.vcp.summaries := by
  unfold State.reply
  extract_lets a1 rep s1
  split
  · simp only [State.send, State.forget_vcp, State.sendTo_summaries]
    rfl
  · rfl

/-- One SUMMARY request that waits gets its reply. -/
theorem State.answerSummaries_one {s : State} {r : Req} (h : s.vcp.summaries = [r]) : s.answerSummaries =
    (s.setVcp (fun v => { v with summaries := [] })).reply r 0x0004 { status := Err.ok, items := [.blob s.summary] } := by
  rw [State.answerSummaries, h, List.foldl_cons, List.foldl_nil]

/-- R326: its reply carries the 4096 bytes; nothing but the reply machinery changes. -/
theorem State.answerSummaries_answers {s : State} {r : Req} (h : s.vcp.summaries = [r]) :
    s.answerSummaries.answers r 0x0004 0 0 [.blob s.summary] ∧ s.answerSummaries.vcp.summaries = [] ∧
      s.frame s.answerSummaries replyParts := by
  have answers := State.reply_answers (s.setVcp (fun v => { v with summaries := [] })) r 0x0004
    { status := Err.ok, items := [.blob s.summary] }
  rw [Ans.fits_of s.summary_fits] at answers
  have taken : s.frame (s.setVcp (fun v => { v with summaries := [] })) replyParts := by
    simp [State.frame_iff, Part.same, replyParts]
  rw [State.answerSummaries_one h]
  refine ⟨answers, ?_, State.frame_next taken (State.reply_frame _ _ _ _)⟩
  rw [State.reply_summaries]
  rfl

/-! ### The tick's stages (R24–R29) -/

theorem atTick_of_le {k d : Nat} (h : d ≤ k) (f : State → State) (s : State) : atTick k d f s = f s := if_pos h

/-- Settles O7: the tick as `execFrameTick` composes it; from the fifth tick on every stage has its block. -/
theorem frameTickRunsTheBlockPath : Obligations.FrameTickRunsTheBlockPath := by
  unfold Obligations.FrameTickRunsTheBlockPath
  intro s
  refine ⟨fun h => ⟨_, if_pos h, rfl⟩, s.summary_length, fun r h => State.answerSummaries_answers h, fun h => ?_, fun k hk => ?_⟩
  · show execFrameTick s = _
    rw [execFrameTick, h]
    rfl
  · have h1 : 1 ≤ k := by omega
    have h2 : 2 ≤ k := by omega
    have h3 : 3 ≤ k := by omega
    simp only [State.pathTick, atTick_of_le h1, atTick_of_le h2, atTick_of_le h3, atTick_of_le hk]

end Sys2Proof.Machine
end

section
/-! PROOFS. One engine sample (R17, R24; log entry 6): what the clocks, the NET ports, the headset port and the orders of the boot that follow by
themselves touch; O56. -/

namespace Sys2Proof.Machine

open Fmt

/-! ### Frames of changes of one group, within any parts that name it -/

section
variable {l : List Part} (s : State)

theorem State.setCku_frame (f : CkuG → CkuG) (h : .cku ∈ l) : s.frame (s.setCku f) l :=
  State.frame_mono (a := [.cku]) (by simp [State.frame_iff, Part.same]) (by simpa using h)

theorem State.setNet_frame (f : NetG → NetG) (h : .net ∈ l) : s.frame (s.setNet f) l :=
  State.frame_mono (a := [.net]) (by simp [State.frame_iff, Part.same]) (by simpa using h)

theorem State.setConv_frame (f : ConvG → ConvG) (h : .conv ∈ l) : s.frame (s.setConv f) l :=
  State.frame_mono (a := [.conv]) (by simp [State.frame_iff, Part.same]) (by simpa using h)

theorem State.setTarn_frame (f : TarnG → TarnG) (h : .tarn ∈ l) : s.frame (s.setTarn f) l :=
  State.frame_mono (a := [.tarn]) (by simp [State.frame_iff, Part.same]) (by simpa using h)

theorem State.setBoot_frame (f : BootG → BootG) (h : .boot ∈ l) : s.frame (s.setBoot f) l :=
  State.frame_mono (a := [.boot]) (by simp [State.frame_iff, Part.same]) (by simpa using h)

theorem State.setHsp_frame (f : HspG → HspG) (h : .ports ∈ l) : s.frame (s.setHsp f) l :=
  State.frame_mono (a := [.ports]) (by simp [State.frame_iff, Part.same, State.setHsp]) (by simpa using h)

theorem State.setSap_frame (p : Nat) (tx : Bool) (d : PortDir) (h : .ports ∈ l) : s.frame (s.setSap p tx d) l :=
  State.frame_mono (a := [.ports]) (by simp [State.frame_iff, Part.same, State.setSap]) (by simpa using h)

theorem State.setMadi_frame (p : Nat) (tx : Bool) (d : PortDir) (h : .ports ∈ l) : s.frame (s.setMadi p tx d) l :=
  State.frame_mono (a := [.ports]) (by simp [State.frame_iff, Part.same, State.setMadi]) (by simpa using h)

theorem State.setVal_frame (h w : Nat) (hl : .params ∈ l) : s.frame (s.setVal h w) l :=
  State.frame_mono (a := [.params]) (by simp [State.frame_iff, Part.same, State.setVal]) (by simpa using hl)

end

/-- A choice between two changes within some parts stays within them. -/
theorem State.frame_ite {s t u : State} {l : List Part} {p : Prop} [Decidable p] (h : s.frame t l) (k : s.frame u l) :
    s.frame (if p then t else u) l := by
  split
  · exact h
  · exact k

/-! ### The clocks pass a sample -/

theorem State.clkDelay_frame (s : State) (k : Nat) : s.frame (s.clkDelay k) [.cku] :=
  State.frame_ite (s.frame_refl _) (s.setCku_frame _ (by decide))

/-- A committed delay of an output leaves the clock unit's link to the twin. -/
theorem State.clkDelay_twinFollow (s : State) (k : Nat) : (s.clkDelay k).cku.twinFollow = s.cku.twinFollow := by
  unfold State.clkDelay
  extract_lets o new edge
  split <;> rfl

theorem State.followed_frame (s : State) : s.frame s.followed.2 [.cku, .draws] := by
  unfold State.followed
  split
  · simp [State.frame_iff, Part.same, State.draw]
  · exact s.frame_refl _

/-- Only a clock unit that follows its twin takes a free value. -/
theorem State.followed_draws {s : State} (h : s.cku.twinFollow = false) : s.followed.2.draws = s.draws := by
  rw [State.followed, h]
  rfl

/-- The loop changes the clock unit, after it has read what it follows. -/
theorem State.loopTick_eq (s : State) : s.loopTick = s ∨ ∃ f g, s.loopTick = (s.followed.2.setCku f).setCku g := by
  unfold State.loopTick
  split
  · exact .inl rfl
  · exact .inr ⟨_, _, rfl⟩

theorem State.loopTick_frame (s : State) : s.frame s.loopTick [.cku, .draws] := by
  rcases s.loopTick_eq with h | ⟨f, g, h⟩ <;> rw [h]
  · exact s.frame_refl _
  · exact State.frame_next (State.frame_next s.followed_frame (State.setCku_frame _ f (by decide))) (State.setCku_frame _ g (by decide))

theorem State.loopTick_draws {s : State} (h : s.cku.twinFollow = false) : s.loopTick.draws = s.draws := by
  rcases s.loopTick_eq with e | ⟨f, g, e⟩ <;> rw [e]
  simpa using State.followed_draws h

theorem State.ckuTick_frame (s : State) : s.frame s.ckuTick [.cku, .draws] :=
  have delays := State.frame_foldl State.clkDelay_frame (List.range 5) s
  State.frame_next (State.frame_next (State.frame_mono delays (by decide)) (State.loopTick_frame _)) (State.setCku_frame _ _ (by decide))

theorem State.ckuTick_draws {s : State} (h : s.cku.twinFollow = false) : s.ckuTick.draws = s.draws := by
  have delays := State.frame_foldl State.clkDelay_frame (List.range 5) s
  have follow : ((List.range 5).foldl State.clkDelay s).cku.twinFollow = false :=
    (List.range 5).foldlRecOn (motive := fun u => u.cku.twinFollow = false) State.clkDelay h
      (fun u hu k _ => (u.clkDelay_twinFollow k).trans hu)
  calc s.ckuTick.draws = ((List.range 5).foldl State.clkDelay s).loopTick.draws := by simp [State.ckuTick]
    _ = ((List.range 5).foldl State.clkDelay s).draws := State.loopTick_draws follow
    _ = s.draws := delays .draws (by decide)

theorem State.phcTick_frame (s : State) : s.frame s.phcTick [.cku, .net] := by
  unfold State.phcTick
  extract_lets lead adj lim slew n s1
  have h1 : s.frame s1 [.cku, .net] := s.setNet_frame _ (by decide)
  exact State.frame_ite (s.frame_refl _) (State.frame_ite (State.frame_next h1 (s1.setCku_frame _ (by decide))) h1)

/-- The PHC leaves the links as they are. -/
theorem State.phcTick_link (s : State) : s.phcTick.net.link = s.net.link := by
  unfold State.phcTick
  split_ifs <;> rfl

@[simp] theorem PowerG.second_fields (p : PowerG) (fs : Nat) : (p.second fs).holdMcc = p.holdMcc ∧ (p.second fs).domains = p.domains ∧
    (p.second fs).straps = p.straps := by
  unfold PowerG.second
  split_ifs <;> exact ⟨rfl, rfl, rfl⟩

/-- In OFF a sample moves nothing. -/
theorem tick_off {s : State} (h : s.dev = .off) : tick s = s := if_pos h

/-- Else the clock unit and the PHC run, the uptime counts, and the MCC counts unless it is held. -/
theorem tick_on {s : State} (h : s.dev ≠ .off) : tick s = { s.ckuTick.phcTick with
    power := s.power.second s.fs, mcc := if s.power.holdMcc then s.mcc else s.mcc + 1 } := by
  have hc := State.frame_trans s.ckuTick_frame s.ckuTick.phcTick_frame
  have hp : s.ckuTick.phcTick.power = s.power := hc .power (by decide)
  have hm : s.ckuTick.phcTick.mcc = s.mcc := hc .mcc (by decide)
  rw [tick, if_neg h]
  dsimp only
  rw [hp, hm, (PowerG.second_fields _ _).1]
  split <;> rfl

theorem tick_mcc (s : State) : (tick s).mcc = if s.dev = .off ∨ s.power.holdMcc = true then s.mcc else s.mcc + 1 := by
  by_cases h : s.dev = .off
  · rw [tick_off h, if_pos (.inl h)]
  · simp only [tick_on h, h, false_or]

theorem tick_frame (s : State) : s.frame (tick s) [.mcc, .cku, .net, .power, .draws] := by
  by_cases h : s.dev = .off
  · rw [tick_off h]
    exact s.frame_refl _
  · have hc := State.frame_mono (State.frame_trans s.ckuTick_frame s.ckuTick.phcTick_frame) (b := [.mcc, .cku, .net, .power, .draws]) (by decide)
    rw [tick_on h]
    exact State.frame_next hc (by simp [State.frame_iff, Part.same])

theorem tick_power (s : State) : (tick s).power.domains = s.power.domains ∧ (tick s).power.straps = s.power.straps := by
  by_cases h : s.dev = .off
  · simp [tick_off h]
  · simp [tick_on h]

theorem tick_link (s : State) : (tick s).net.link = s.net.link := by
  by_cases h : s.dev = .off
  · rw [tick_off h]
  · have hn : s.ckuTick.net = s.net := s.ckuTick_frame .net (by decide)
    rw [tick_on h]
    exact s.ckuTick.phcTick_link.trans (by rw [hn])

/-- A sample takes free values only where the clock unit follows its twin. -/
theorem tick_draws {s : State} (h : s.cku.twinFollow = false) : (tick s).draws = s.draws := by
  by_cases hd : s.dev = .off
  · rw [tick_off hd]
  · have hp : s.ckuTick.phcTick.draws = s.ckuTick.draws := s.ckuTick.phcTick_frame .draws (by decide)
    rw [tick_on hd]
    exact hp.trans (State.ckuTick_draws h)

/-! ### The NET ports send (R254) -/

theorem State.enqueue_frame {l : List Part} (s : State) (n : Nat) (k : TxKind) (bytes : Nat) (h : .net ∈ l) :
    s.frame (s.enqueue n k bytes) l :=
  State.frame_ite (s.setNet_frame _ h) (s.frame_refl _)

theorem State.startFrame_frame (s : State) (n : Nat) (f : TxFrame) (left : Nat) : s.frame (s.startFrame n f left) [.net] := by
  unfold State.startFrame
  extract_lets t oneStep kind s1 s2
  have h1 : s.frame s1 [.net] := s.setNet_frame _ (by decide)
  have h2 : s.frame s2 [.net] := State.frame_ite (State.frame_next h1 (s1.setNet_frame _ (by decide))) h1
  split
  · exact State.frame_ite h2 (State.frame_next h2 (s2.enqueue_frame _ _ _ (by decide)))
  · exact h2

theorem State.drainPort_frame (s : State) (n k room : Nat) : s.frame (s.drainPort n k room) [.net] := by
  induction k generalizing s room with
  | zero => exact s.frame_refl _
  | succ k ih =>
    unfold State.drainPort
    extract_lets busy s1
    have h1 : s.frame s1 [.net] := s.setNet_frame _ (by decide)
    refine State.frame_ite (s.setNet_frame _ (by decide)) ?_
    split
    · exact h1
    · exact State.frame_next (State.frame_next h1 (s1.startFrame_frame _ _ _)) (ih _ _)

theorem State.ptpSend_frame (s : State) (before : Nat) : s.frame (s.ptpSend before) [.net, .vcp, .draws] := by
  have put : ∀ (u : State) (on : Bool) (k : TxKind), s.frame u [.net, .vcp, .draws] →
      s.frame (if on then u.enqueue u.ptpPort k (ptpBytes k) else u) [.net, .vcp, .draws] := fun u on k h =>
    State.frame_ite (State.frame_next h (u.enqueue_frame _ _ _ (by decide))) h
  have drawn : s.frame s.draw.2 [.net, .vcp, .draws] := by simp [State.frame_iff, Part.same, State.draw]
  unfold State.ptpSend
  refine State.frame_ite (s.frame_refl _) (put _ _ _ (put _ _ _ (State.frame_ite (put _ true _ drawn) (s.frame_refl _))))

theorem State.vcpRoute_frame (s : State) : s.frame s.vcpRoute [.net, .vcp, .draws] := by
  unfold State.vcpRoute
  extract_lets s1
  have h1 : s.frame s1 [.net, .vcp, .draws] := State.frame_foldl (fun u d => by
    split
    · exact u.enqueue_frame _ _ _ (by decide)
    · exact u.frame_refl _) s.vcp.out s
  have emptied : ∀ u : State, u.frame { u with vcp := { u.vcp with out := [] } } [.net, .vcp, .draws] := fun u => by
    simp [State.frame_iff, Part.same]
  exact State.frame_next h1 (emptied s1)

theorem State.netSend_frame (s : State) (before : Nat) : s.frame (s.netSend before) [.net, .vcp, .draws] := by
  have routed := State.frame_next (s.ptpSend_frame before) (s.ptpSend before).vcpRoute_frame
  have drained : ∀ (ns : List Nat) (u : State), u.frame (ns.foldl (fun v n =>
      v.drainPort n (2 * (Cells.get [] v.net.queue n).length + 1) (v.lineRate n)) u) [.net, .vcp, .draws] :=
    State.frame_foldl (fun v n => State.frame_mono (v.drainPort_frame n _ _) (by decide))
  exact State.frame_ite (s.frame_refl _) (State.frame_next routed (drained _ _))

/-- With no link up nothing is sent. -/
theorem State.netSend_idle {s : State} (h : s.netOn = false ∨ s.net.link = []) (before : Nat) : s.netSend before = s := by
  rw [State.netSend, if_pos]
  rcases h with h | h <;> simp [h]

/-! ### Forwarded changes and a removed plug -/

theorem State.forwardDue_none {s : State} (h : s.twin.forward = []) : s.forwardDue = s := by
  simp [State.forwardDue, h]

theorem State.note_frame (s : State) (i : InItem) : s.frame (s.note i) [.twin] := by
  unfold State.note
  extract_lets here
  exact State.frame_ite (by simp [State.frame_iff, Part.same]) (s.frame_refl _)

theorem State.hspGone_none {s : State} (h : s.ports.hsp.leaving = none) : s.hspGone = s := by
  simp only [State.hspGone, h]

/-- R234: the end of a removed plug's fade tells it after a change of the port's own parts. -/
theorem State.hspGone_eq {s : State} {n : Nat} (h : s.ports.hsp.leaving = some n) (hn : n ≤ s.mcc) : ∃ f : HspG → HspG,
    (∀ g, (f g).leaving = none ∧ (f g).type = 0) ∧
      s.hspGone = ((((s.phonesAdvance n).micAdvance n).setHsp f).raise .hspUnplug s.hspOwner 0 0).hspNote := by
  simp only [State.hspGone, h, Nat.not_lt.2 hn, if_false]
  exact ⟨_, fun g => ⟨rfl, rfl⟩, rfl⟩

theorem State.hspGone_frame (s : State) : s.frame s.hspGone [.ports, .audio, .free, .ev, .sessions, .twin] := by
  unfold State.hspGone
  split
  · exact s.frame_refl _
  · next n _ =>
    extract_lets s1
    have h1 := State.frame_next (s.phonesAdvance_frame n) ((s.phonesAdvance n).micAdvance_frame n)
    exact State.frame_ite (s.frame_refl _) (State.frame_mono (State.frame_trans (State.frame_trans (State.frame_next h1
      (s1.setHsp_frame _ (by decide))) (State.raise_frame _ _ _ _ _)) (State.note_frame _ _)) (by decide))

/-- The port has no accessory then. -/
theorem State.hspGone_leaves {s : State} {n : Nat} (h : s.ports.hsp.leaving = some n) (hn : n ≤ s.mcc) :
    s.hspGone.ports.hsp.leaving = none ∧ s.hspGone.ports.hsp.type = 0 := by
  obtain ⟨f, hf, e⟩ := State.hspGone_eq h hn
  have hp : s.hspGone.ports = (((s.phonesAdvance n).micAdvance n).setHsp f).ports := by
    rw [e]
    exact (State.note_frame _ _ .ports (by decide)).trans (by simp)
  rw [hp]
  exact hf _

end Sys2Proof.Machine
end

section
/-! PROOFS. What the orders of the boot that follow by themselves touch (R348): order 7's port set-up, command by command; O56. -/

namespace Sys2Proof.Machine

open Fmt

/-- What putting a port set-up in force can touch (R348, order 7): the words, the ports and what hangs on them, the network and its clock. -/
def portSetup : List Part := [.params, .ports, .audio, .conv, .net, .cku, .fault, .free, .ev, .sessions]

/-! ### Decimators (R244–R247) -/

theorem State.updDec_frame (s : State) (i : Nat) (f : DecCh → DecCh) : s.frame (s.updDec i f) portSetup := s.setConv_frame _ (by decide)

theorem State.decAdvance_frame (s : State) (i upTo : Nat) : s.frame (s.decAdvance i upTo) portSetup := by
  have sample : ∀ (u : State) (ref n : Nat) (v : Int), u.frame (u.takeFree.2.putRx ref n v) portSetup := fun u ref n v => by
    simp [State.frame_iff, Part.same, portSetup, State.takeFree, State.putRx]
  exact State.frame_ite (s.frame_refl _)
    (State.frame_foldl (fun u j => State.frame_next (sample u _ _ _) (State.updDec_frame _ i _)) _ s)

/-- Both together, as every change of a decimator channel makes them. -/
theorem State.decAdvance_updDec_frame (s : State) (i upTo : Nat) (f : DecCh → DecCh) :
    s.frame ((s.decAdvance i upTo).updDec i f) portSetup :=
  State.frame_next (s.decAdvance_frame i upTo) (State.updDec_frame _ i f)

theorem State.decUnmute_frame (s : State) (i : Nat) : s.frame (s.decUnmute i) portSetup :=
  State.frame_ite (s.frame_refl _) (s.decAdvance_updDec_frame i _ _)

theorem State.decInput_frame (s : State) (i w : Nat) : s.frame (s.decInput i w) portSetup :=
  State.frame_ite (s.updDec_frame i _) (s.decAdvance_updDec_frame i _ _)

theorem State.decEnable_frame (s : State) (i : Nat) (e8 on : Bool) : s.frame (s.decEnable i e8 on) portSetup :=
  State.frame_ite (State.frame_ite (s.decAdvance_frame i _) (s.decAdvance_updDec_frame i _ _)) (s.decAdvance_updDec_frame i _ _)

/-! ### SAP and MADI directions (R214–R218, R224) -/

theorem State.sapOrigin_frame (s : State) (p : Nat) (tx : Bool) : s.frame (s.sapOrigin p tx) portSetup := by
  unfold State.sapOrigin
  extract_lets d c d1 s1
  have h1 : s.frame s1 portSetup := s.setSap_frame _ _ _ (by decide)
  exact State.frame_ite (State.frame_ite (State.frame_next h1 (State.frame_mono (s1.raise_frame _ _ _ _) (by decide))) h1) (s.frame_refl _)

theorem State.sapStart_frame (s : State) (p : Nat) (tx : Bool) : s.frame (s.sapStart p tx) portSetup := by
  have origin : ∀ d, s.frame ((s.setSap p tx d).sapOrigin p tx) portSetup := fun d =>
    State.frame_next (s.setSap_frame _ _ _ (by decide)) (State.sapOrigin_frame _ _ _)
  exact State.frame_ite (State.frame_next (origin _) (State.frame_foldl State.decUnmute_frame _ _)) (origin _)

theorem State.sapOff_frame (s : State) (p : Nat) (tx : Bool) : s.frame (s.sapOff p tx) portSetup := by
  have h1 : s.frame (s.setSap p tx (s.sapDir p tx).off) portSetup := s.setSap_frame _ _ _ (by decide)
  exact State.frame_ite h1 (State.frame_next h1 (State.frame_foldl (fun u i => u.decAdvance_updDec_frame i _ _) _ _))

theorem State.sapEnable_frame (s : State) (p : Nat) (tx on : Bool) : s.frame (s.sapEnable p tx on) portSetup := by
  have set : ∀ d, s.frame (s.setSap p tx d) portSetup := fun d => s.setSap_frame _ _ _ (by decide)
  exact State.frame_ite (State.frame_ite (set _) (State.frame_ite (s.frame_refl _) (s.sapStart_frame p tx)))
    (State.frame_ite (s.frame_refl _) (State.frame_ite (s.sapOff_frame p tx) (State.frame_ite (set _) (set _))))

theorem State.sapMask_frame (s : State) (p : Nat) (tx : Bool) (m : Nat) : s.frame (s.sapMask p tx m) portSetup :=
  State.frame_ite (s.frame_refl _) (s.setSap_frame _ _ _ (by decide))

theorem State.madiStart_frame (s : State) (p : Nat) (tx : Bool) : s.frame (s.madiStart p tx) portSetup := by
  unfold State.madiStart
  extract_lets d chans off d1 ports s1 s2
  have h1 : s.frame s1 portSetup :=
    State.frame_ite (s.frame_refl _) (by simp [State.frame_iff, Part.same, portSetup])
  have h2 : s.frame s2 portSetup := State.frame_next h1 (s1.setMadi_frame _ _ _ (by decide))
  exact State.frame_ite h2 (State.frame_next h2 (State.frame_ite (s2.setMadi_frame _ _ _ (by decide)) (s2.frame_refl _)))

theorem State.madiEnable_frame (s : State) (p : Nat) (tx on : Bool) : s.frame (s.madiEnable p tx on) portSetup := by
  have set : ∀ d, s.frame (s.setMadi p tx d) portSetup := fun d => s.setMadi_frame _ _ _ (by decide)
  exact State.frame_ite (State.frame_ite (set _) (State.frame_ite (s.frame_refl _) (s.madiStart_frame p tx)))
    (State.frame_ite (s.frame_refl _) (State.frame_ite (set _) (State.frame_ite (set _) (set _))))

/-! ### The headset port (R230–R232) -/

theorem State.hspRange_frame (s : State) (r : Nat) : s.frame (s.hspRange r) portSetup :=
  State.frame_next (State.frame_mono (s.phonesAdvance_frame _) (by decide)) (State.setHsp_frame _ _ (by decide))

/-! ### PTP and streams (R259, R260, R270, R274) -/

theorem State.ptpUnlock_frame (s : State) : s.frame s.ptpUnlock portSetup := by
  unfold State.ptpUnlock
  extract_lets locked s1
  have h1 : s.frame s1 portSetup := s.setNet_frame _ (by decide)
  have retuned := ((State.Retuned.refl (s1.raise .ptpUnlock 0 0 0)).loseRef 4).evaluate
  exact State.frame_ite (State.frame_next (State.frame_next h1 (State.frame_mono (s1.raise_frame _ _ _ _) (by decide)))
    (State.frame_mono retuned.frame (by decide))) h1

theorem State.rxEnable_frame (s : State) (i c : Nat) (on : Bool) : s.frame (s.rxEnable i c on) portSetup :=
  State.frame_ite (State.frame_next (s.setConv_frame _ (by decide)) (State.setNet_frame _ _ (by decide))) (s.setNet_frame _ (by decide))

theorem State.restagger_frame (s : State) : s.frame s.restagger portSetup := s.setNet_frame _ (by decide)

theorem State.txEnable_frame (s : State) (i c : Nat) (on : Bool) : s.frame (s.txEnable i c on) portSetup := by
  unfold State.txEnable
  extract_lets P x0 legs stream s1
  have h1 : s.frame s1 portSetup := State.frame_ite
    (State.frame_next (s.setConv_frame _ (by decide)) (State.setNet_frame _ _ (by decide))) (s.setNet_frame _ (by decide))
  exact State.frame_next h1 s1.restagger_frame

theorem State.timerStart_frame (s : State) (i : Nat) : s.frame (s.timerStart i) portSetup := s.setNet_frame _ (by decide)

/-! ### The port set-up in force (R348, order 7) -/

theorem State.putEntries_frame (s : State) (es : List Entry) : s.frame (s.putEntries es) portSetup :=
  State.frame_foldl (fun u e => u.setVal_frame _ _ (by decide)) es s

theorem Cmt.toPorts_frame (k : Cmt) (s : State) : s.frame (k.toPorts s) portSetup := by
  unfold Cmt.toPorts
  extract_lets s1 s2 s3
  have h1 : s.frame s1 portSetup := State.frame_foldl (fun u e => by
    dsimp only
    split
    · exact State.frame_ite (u.sapEnable_frame _ _ _) (u.frame_refl _)
    · exact State.frame_ite (u.sapMask_frame _ _ _) (u.frame_refl _)
    · exact u.frame_refl _) _ s
  have h2 : s1.frame s2 portSetup := State.frame_foldl (fun u e => by
    split
    · exact u.madiEnable_frame _ _ _
    · exact u.madiEnable_frame _ _ _
    · exact u.frame_refl _) _ s1
  have h3 : s2.frame s3 portSetup := State.frame_foldl (fun u e => by
    split
    · exact State.frame_mono (u.hspDetect_frame _) (by decide)
    · exact u.hspRange_frame _
    · exact State.frame_mono (u.micAdvance_frame _) (by decide)
    · exact u.setHsp_frame _ (by decide)
    · exact u.frame_refl _) _ s2
  refine State.frame_next (State.frame_next (State.frame_next h1 h2) h3) (State.frame_foldl (fun u e => ?_) _ s3)
  split
  · exact u.decInput_frame _ _
  · exact u.decEnable_frame _ _ _
  · exact u.decEnable_frame _ _ _
  · exact u.updDec_frame _ _
  · exact u.frame_refl _

theorem Cmt.ptpValues_frame (k : Cmt) (s : State) : s.frame (k.ptpValues s) portSetup :=
  State.frame_ite (State.frame_foldl (fun u q => State.frame_ite (u.frame_refl _) (u.setVal_frame _ _ (by decide))) _ s) (s.frame_refl _)

theorem Cmt.toNet_frame (k : Cmt) (s0 : State) : s0.frame (k.toNet s0) portSetup := by
  have lost : ∀ (u : State) (n : Nat), u.frame (u.linkLost n) portSetup := fun u n =>
    State.frame_next (u.setNet_frame _ (by decide)) (State.frame_mono (State.raise_frame _ _ _ _ _) (by decide))
  have net : ∀ (u : State) (f : NetG → NetG), u.frame (u.setNet f) portSetup := fun u f => u.setNet_frame f (by decide)
  have relisten : ∀ (u : State) (f : NetG → NetG), u.frame (u.ptpUnlock.setNet f) portSetup := fun u f =>
    State.frame_next u.ptpUnlock_frame (net _ f)
  unfold Cmt.toNet
  extract_lets s s1 s2 timers s3 s4
  have h0 : s0.frame s portSetup := k.ptpValues_frame s0
  have h1 : s.frame s1 portSetup := State.frame_foldl (fun u e => State.frame_ite (lost u _) (u.frame_refl _)) _ s
  have h2 : s1.frame s2 portSetup := State.frame_foldl (fun u e => by
    split
    · exact State.frame_ite (net u _) (relisten u _)
    · exact State.frame_ite (u.frame_refl _) (relisten u _)
    · exact State.frame_ite (u.frame_refl _) (relisten u _)
    · exact u.frame_refl _) _ s1
  have h3 : s2.frame s3 portSetup := State.frame_foldl State.timerStart_frame timers s2
  have h4 : s3.frame s4 portSetup := State.frame_foldl (fun u e => State.frame_ite (u.rxEnable_frame _ _ _) (u.frame_refl _)) _ s3
  refine State.frame_next (State.frame_next (State.frame_next (State.frame_next (State.frame_next h0 h1) h2) h3) h4)
    (State.frame_foldl (fun u e => ?_) _ s4)
  exact State.frame_ite (u.txEnable_frame _ _ _) (State.frame_ite (net u _) (u.frame_refl _))

theorem State.applyPorts_frame (s : State) (sec : List Nat) : s.frame (s.applyPorts sec) portSetup := by
  unfold State.applyPorts
  extract_lets es k dc s1
  have h1 : s.frame s1 portSetup := State.frame_next (State.frame_next (s.putEntries_frame es) (k.toPorts_frame _))
    (State.frame_foldl (fun u e => u.updDec_frame _ _) dc _)
  exact State.frame_next (State.frame_next h1 (k.toNet_frame s1)) (State.setConv_frame _ _ (by decide))

/-! ### The orders that follow by themselves (R348) -/

theorem State.loadLibrary_frame (s : State) (i : Image) (secs : List (List Nat)) : s.frame (s.loadLibrary i secs) [.tarn] :=
  State.frame_foldl (fun u img => by simp [State.frame_iff, Part.same, State.addModule]) _ s

theorem State.legacyEngines_frame (s : State) : s.frame s.legacyEngines [.tarn] :=
  State.frame_ite (State.frame_foldl (fun u _ => u.setTarn_frame _ (by decide)) _ s) (s.frame_refl _)

theorem State.orderLibrary_frame (s : State) : s.frame s.orderLibrary [.tarn, .boot] := by
  unfold State.orderLibrary
  refine State.frame_next ?_ (State.setBoot_frame _ _ (by decide))
  split
  · next i _ =>
    exact State.frame_mono (State.frame_next (s.loadLibrary_frame i _) (State.legacyEngines_frame _)) (by decide)
  · exact s.frame_refl _

theorem State.orderPorts_frame (s : State) : s.frame s.orderPorts (portSetup ++ [.boot]) := by
  unfold State.orderPorts
  extract_lets s1
  have h1 : s.frame s1 portSetup := s.applyPorts_frame _
  refine State.frame_next (State.frame_next (State.frame_mono h1 (by decide)) ?_) (State.setBoot_frame _ _ (by decide))
  exact State.frame_mono (a := [.audio]) (by simp [State.frame_iff, Part.same]) (by decide)

/-- The orders that follow by themselves leave the MCC. -/
theorem State.bootReady_mcc (s : State) : s.bootReady.mcc = s.mcc := by
  unfold State.bootReady
  split
  · rfl
  · split
    · exact s.orderTwo_frame .mcc (by decide)
    · exact s.orderLibrary_frame .mcc (by decide)
    · exact s.orderPorts_frame .mcc (by decide)
    · rfl

theorem State.orderLibrary_stage (s : State) : s.orderLibrary.boot.stage = 0x06 := by
  simp only [State.orderLibrary, State.setBoot_fields]

theorem State.orderPorts_stage (s : State) : s.orderPorts.boot.stage = 0x07 := by
  simp only [State.orderPorts, State.setBoot_fields]

/-- The stage they reach depends on the boot group and the straps only. -/
theorem State.bootReady_stage_congr {s u : State} (hd : u.dev = s.dev) (hb : u.boot = s.boot) (hs : u.power.straps = s.power.straps) :
    u.bootReady.boot.stage = s.bootReady.boot.stage := by
  unfold State.bootReady
  rw [hd, hb]
  split
  · rw [hb]
  · split
    · rw [State.orderTwo_stage, State.orderTwo_stage, hs]
    · rw [State.orderLibrary_stage, State.orderLibrary_stage]
    · rw [State.orderPorts_stage, State.orderPorts_stage]
    · rw [hb]

/-! ### One engine sample -/

/-- A sample before the order of the boot that follows by itself. -/
def State.sampled (s : State) : State := (((tick s).netSend s.net.phc.t).forwardDue).hspGone

theorem passSample_eq (s : State) : passSample s = s.sampled.bootReady := rfl

theorem step_empty {s : State} (h : s.pending = []) : step s = .next s.sampled.bootReady := by
  rw [step, h, passSample_eq]

/-- With no forwarded change waiting a sample ticks, sends, and ends a removed plug's fade. -/
theorem State.sampled_eq {s : State} (hf : s.twin.forward = []) : s.sampled = ((tick s).netSend s.net.phc.t).hspGone := by
  have ht : ((tick s).netSend s.net.phc.t).twin = s.twin :=
    (State.netSend_frame _ _ .twin (by decide)).trans (tick_frame s .twin (by decide))
  rw [State.sampled, State.forwardDue_none (by rw [ht, hf])]

/-- With nothing to send and no removed plug either it ticks only. -/
theorem State.sampled_quiet {s : State} (hf : s.twin.forward = []) (hn : s.netOn = false ∨ s.net.link = [])
    (hp : s.ports.hsp.leaving = none) : s.sampled = tick s := by
  have hnet : (tick s).netOn = false ∨ (tick s).net.link = [] := by
    rw [State.netOn, (tick_power s).1, tick_link]
    exact hn
  have hports : (tick s).ports = s.ports := tick_frame s .ports (by decide)
  rw [State.sampled_eq hf, State.netSend_idle hnet, State.hspGone_none (by rw [hports, hp])]

section
variable {s : State} (hf : s.twin.forward = [])
include hf

theorem State.sampled_frame :
    s.frame s.sampled [.mcc, .cku, .net, .power, .vcp, .ports, .audio, .free, .draws, .ev, .sessions, .twin] := by
  rw [State.sampled_eq hf]
  exact State.frame_mono (State.frame_trans (State.frame_trans (tick_frame s) ((tick s).netSend_frame _)) (State.hspGone_frame _)) (by decide)

theorem State.sampled_mcc : s.sampled.mcc = if s.dev = .off ∨ s.power.holdMcc = true then s.mcc else s.mcc + 1 := by
  rw [State.sampled_eq hf, ← tick_mcc s]
  exact (State.hspGone_frame _ .mcc (by decide)).trans (State.netSend_frame _ _ .mcc (by decide))

theorem State.sampled_straps : s.sampled.power.straps = s.power.straps := by
  have hp : s.sampled.power = (tick s).power := by
    rw [State.sampled_eq hf]
    exact (State.hspGone_frame _ .power (by decide)).trans (State.netSend_frame _ _ .power (by decide))
  rw [hp, (tick_power s).2]

/-- A removed plug's fade that is over (R234). -/
theorem State.sampled_leaves {n : Nat} (h : s.ports.hsp.leaving = some n) (hn : n ≤ s.sampled.mcc) :
    s.sampled.ports.hsp.leaving = none ∧ s.sampled.ports.hsp.type = 0 := by
  have hports : ((tick s).netSend s.net.phc.t).ports = s.ports :=
    (State.netSend_frame _ _ .ports (by decide)).trans (tick_frame s .ports (by decide))
  rw [State.sampled_eq hf] at hn ⊢
  have hm := State.hspGone_frame ((tick s).netSend s.net.phc.t) .mcc (by decide)
  exact State.hspGone_leaves (by rw [hports, h]) (hn.trans (Nat.le_of_eq hm))

/-- Where no order of the boot follows by itself, none does after the sample. -/
theorem State.sampled_waits (h : ¬ (s.dev = .boot ∧ s.boot.stage ∈ [0x01, 0x05, 0x06])) : s.sampled.bootReady = s.sampled := by
  have hd : s.sampled.dev = s.dev := State.sampled_frame hf .dev (by decide)
  have hb : s.sampled.boot = s.boot := State.sampled_frame hf .boot (by decide)
  exact State.bootReady_waits (by rwa [hd, hb])

end

/-- Settles O56: the sample by what ticks, what is sent and what a removed plug leaves, then the order of the boot that follows. -/
theorem emptyQueuePassesASample : Obligations.EmptyQueuePassesASample := by
  unfold Obligations.EmptyQueuePassesASample
  intro s hp hf
  rw [step_empty hp]
  refine ⟨fun hw hn hl => ⟨_, rfl, ?_⟩, fun hw => ⟨_, rfl, ?_⟩, fun hgo => ⟨_, rfl, ?_⟩⟩
  · rw [State.sampled_waits hf hw, State.sampled_quiet hf hn hl]
    refine ⟨tick_off, fun hd => ?_, tick_draws, tick_frame s⟩
    simp only [tick_mcc, hd, false_or]
  · rw [State.sampled_waits hf hw]
    exact ⟨State.sampled_mcc hf, fun n h hn => State.sampled_leaves hf h hn, State.sampled_frame hf⟩
  · obtain ⟨hd, -⟩ := hgo
    refine ⟨?_, State.bootReady_stage_congr (State.sampled_frame hf .dev (by decide)) (State.sampled_frame hf .boot (by decide))
      (State.sampled_straps hf)⟩
    simp [State.bootReady_mcc, State.sampled_mcc hf, hd]

end Sys2Proof.Machine
end

section
/-! PROOFS. Stages on their way to their targets (R44, R45, R47, R130): zero-crossing stages step, time out and end their ramps, crossfades end,
and the SCE writes the bank that a coefficient crossfade moves to; O8. -/

namespace Sys2Proof.Machine

/-! ### A stage moved on a sample that its rate has reached -/

section
variable {s : State} {h n : Nat}

theorem State.moveStage_reached {st : Stage} (hr : s.reached h n = true) (hst : s.stage h = some st) (f : Stage → Stage) :
    s.moveStage h n f = s.setStage h (f st) := by
  rw [State.moveStage, if_pos hr, hst]

/-- The stage of a strip or a bus lies in the audio path. -/
theorem State.setStage_frame_audio (hc : hCls h = 1 ∨ hCls h = 2) (st : Stage) : s.frame (s.setStage h st) [.audio] := by
  rcases hc with hc | hc <;> simp [State.setStage, hc, State.frame_iff, Part.same]

/-! ### Zero-crossing stages (R44) -/

section
variable {z : Zc} (hr : s.reached h n = true) (hst : s.stage h = some (.zc z))
include hr hst

/-- ZC_STEP of a pending stage. -/
theorem execZcStep_pending {p : Nat} (ht : z.tp = some p) (hp : p ≤ n) : exec (.zcStep h n) s = .next (s.setStage h (.zc z.step)) := by
  show execZcStep h n s = _
  rw [execZcStep, State.moveStage_reached hr hst]
  simp [ht, hp]

/-- ZC_TIMEOUT of a stage that has waited T_zc samples. -/
theorem execZcTimeout_due {p : Nat} (ht : z.tp = some p) (hp : p + (s.zcTimes h n).1 ≤ n) :
    exec (.zcTimeout h n) s = .next (s.setStage h (.zc (z.timeout n (s.zcTimes h n).2))) := by
  show execZcTimeout h n s = _
  rw [execZcTimeout, State.moveStage_reached hr hst]
  simp [ht, hp]

/-- ZC_RAMP_END of a ramp. -/
theorem execZcRampEnd_stage : exec (.zcRampEnd h n) s = .next (s.setStage h (.zc (z.endRamp n))) := by
  show execZcRampEnd h n s = _
  rw [execZcRampEnd, State.moveStage_reached hr hst]

end

/-- A ramp that has run is over. -/
theorem Zc.endRamp_run {z : Zc} {tr L : Nat} (hz : z.ramp = some (tr, L)) (hn : tr + L ≤ n) :
    z.endRamp n = { z with gain := z.tgt, ramp := none } := by
  simp only [Zc.endRamp, hz, hn, if_true]

/-! ### Crossfades (R45, R47, R130) -/

/-- A crossfade that completed before sample n is over, and a pending change starts on that sample. -/
theorem Xf.advance_run {x : Xf} {r : XfRun} (hx : x.run = some r) (hn : r.start + r.len < n) :
    x.advance n = { cur := r.new, run := x.pend.map (fun p => ⟨p.1, n, p.2⟩), pend := none } := by
  simp only [Xf.advance, hx, hn, if_true]

/-- XFADE_END outside the effect slots. -/
theorem execXfadeEnd_xf {x : Xf} (hc : hCls h ≠ 0x0B) (hr : s.reached h n = true) (hst : s.stage h = some (.xf x)) :
    exec (.xfadeEnd h n) s = .next (s.setStage h (.xf (x.advance n))) := by
  show execXfadeEnd h n s = _
  rw [execXfadeEnd, if_neg hc, State.moveStage_reached hr hst]

/-- CF_BANK_WRITE while a strip's or a bus's coefficient crossfade runs. -/
theorem execCfBankWrite_run {f : Cf} {r : XfRun} {fields : List Nat} {design : List Nat → List Coef} (hc : hCls h = 1 ∨ hCls h = 2)
    (hst : s.stage h = some (.cf f)) (hb : bankOf s.fs (hField h) = some (fields, design)) (hx : f.xf.run = some r) :
    exec (.cfBankWrite h) s = .next (s.setStage h (.cf { f with idle := some (r.new, design r.new) })) := by
  have hslot : hCls h ≠ 0x0B := by omega
  have hchain : ¬ (hCls h ≠ 1 ∧ hCls h ≠ 2) := by omega
  show execCfBankWrite h s = _
  simp only [execCfBankWrite, hslot, hst, hb, hchain, hx, if_false]

end

/-- Settles O8: each command by the stage it leaves in place of the one it found. -/
theorem stagesMoveToTheirTargets : Obligations.StagesMoveToTheirTargets := by
  unfold Obligations.StagesMoveToTheirTargets
  refine ⟨fun s h n z hr hst => ⟨?_, ?_, ?_⟩, fun s h n hc => ⟨?_, ?_⟩⟩
  · exact fun p ht hp => ⟨_, execZcStep_pending hr hst ht hp, rfl, s.setStage_frame h _⟩
  · exact fun p ht hp => ⟨_, execZcTimeout_due hr hst ht hp, rfl, s.setStage_frame h _⟩
  · intro tr L hz hn
    exact ⟨_, execZcRampEnd_stage hr hst, by rw [Zc.endRamp_run hz hn], s.setStage_frame h _⟩
  · intro x r hr hst hx hn
    exact ⟨_, execXfadeEnd_xf hc hr hst, by rw [Xf.advance_run hx hn], s.setStage_frame h _⟩
  · intro f r fields design hchain hst hb hx
    exact ⟨_, execCfBankWrite_run hchain hst hb hx, rfl, State.setStage_frame_audio hchain _⟩

end Sys2Proof.Machine
end

section
/-! PROOFS. Requests that change something (R304, R314): the state that the command's action leaves, its reply, what both touch, the
session's entry. -/

namespace Sys2Proof.Machine

/-! ### A session's entry read back -/

/-- The session looked up after one was changed. -/
theorem State.session?_updSession (s : State) (i j : Nat) (f : Session → Session) (hf : ∀ x, (f x).sid = x.sid) :
    (s.updSession i f).session? j = if j = i then (s.session? j).map f else s.session? j := by
  have hid : ∀ x, (if x.sid = i then f x else x).sid = x.sid := fun x => by split <;> simp [hf]
  have hmap : (s.updSession i f).session? j = (s.session? j).map (fun x => if x.sid = i then f x else x) := by
    simp only [State.session?, State.updSession, List.find?_map]
    congr 1
    exact List.find?_congr (fun x _ => by simp [hid])
  rw [hmap]
  cases hx : s.session? j with
  | none => split <;> rfl
  | some x =>
    rw [Option.map_some, Option.map_some, State.session?_sid hx]
    split <;> rfl

/-- A session's entry changed: the session table only. -/
theorem State.updSession_frame (s : State) (i : Nat) (f : Session → Session) : s.frame (s.updSession i f) [.sessions] := by
  simp [State.frame_iff, Part.same, State.updSession]

/-- The session of an admitted request has its entry in the state that has taken the request. -/
theorem State.session?_admitted {s : State} {r : Req} {need : Nat} {x : Session} (h : s.admits r need x) :
    (s.admitted r).session? r.sid = some { x.accept r.seq with heard := s.mcc } := by
  obtain ⟨-, -, hx, -⟩ := h
  have hu : (s.unbox r).session? r.sid = some x := hx
  rw [State.admitted, State.session?_updSession _ _ _ _ (by exact fun _ => rfl), if_pos rfl, hu]
  rfl

/-- A reply changes its session's entry in the replies kept and the requests in progress only (R314). -/
theorem State.session?_reply {u : State} {r : Req} {x : Session} (hx : u.session? r.sid = some x) (cmd : Nat) (a : Ans) :
    ∃ l, (u.reply r cmd a).session? r.sid = some { x with replies := l, progress := x.progress.filter (· ≠ r.seq) } := by
  have sent : ∀ (v : State) (w : Session) (rep : Machine.Reply), (v.send w rep).session? r.sid = v.session? r.sid := fun v w rep => by
    simp [State.session?]
  unfold State.reply
  extract_lets a1 rep s1
  have h1 : s1.session? r.sid = some { x with replies := (rep :: x.replies).take 16, progress := x.progress.filter (· ≠ r.seq) } := by
    simp only [s1]
    rw [State.session?_updSession _ _ _ _ (by exact fun _ => rfl), if_pos rfl, hx]
    rfl
  rw [h1]
  exact ⟨_, (sent _ _ _).trans h1⟩

/-! ### From a request to its reply -/

section
variable {s u : State} {r : Req} {need cmd : Nat} {x : Session} {act : Session → State → State × Option Ans}

/-- An admitted request comes from the session whose number it carries. -/
theorem State.admits_sid (h : s.admits r need x) : x.sid = r.sid := by
  obtain ⟨-, -, hx, -⟩ := h
  exact State.session?_sid hx

/-- An admitted request whose action answers at once. -/
theorem State.serve_answered {a : Ans} (h : s.admits r need x) (ha : act (x.accept r.seq) (s.admitted r) = (u, some a)) :
    s.serve r cmd need act = u.reply r cmd a := by
  rw [State.serve_admits h, ha]

/-- An admitted request that its action refuses. -/
theorem State.serve_refused {e : Nat} (h : s.admits r need x) (ha : act (x.accept r.seq) (s.admitted r) = (s.admitted r, Ans.fail e)) :
    (s.serve r cmd need act).answers r cmd e 0 [] ∧ s.frame (s.serve r cmd need act) replyParts := by
  have k := State.serve_same h cmd act ⟨e, 0, []⟩ ha
  rwa [Ans.fits_nil] at k

/-- On a chip that serves audio commands such a command is served like any other (R433). -/
theorem State.serveAudio_served (ha : s.audioServed = true) (h : s.admits r 1 x) :
    s.serveAudio r cmd act = s.serve r cmd 1 act := by
  have hu : (s.admitted r).audioServed = true := by rw [State.audioServed_admitted, ha]
  rw [State.serveAudio, State.serve_admits h, State.serve_admits h, if_pos hu]

/-- A reply with items that fit. -/
theorem State.reply_answers_items {e d : Nat} {l : List Item} (hl : itemsFit l) : (u.reply r cmd ⟨e, d, l⟩).answers r cmd e d l := by
  have h := u.reply_answers r cmd ⟨e, d, l⟩
  rwa [Ans.fits_of hl] at h

/-- A reply without items. -/
theorem State.reply_answers_nil (e d : Nat) : (u.reply r cmd ⟨e, d, []⟩).answers r cmd e d [] := by
  have h := u.reply_answers r cmd ⟨e, d, []⟩
  rwa [Ans.fits_nil] at h

/-- From taking a request to its reply: what its action touches, the session table and the reply machinery. -/
theorem State.request_frame {l : List Part} (hl : replyParts ⊆ l) (hu : (s.admitted r).frame u l) (a : Ans) : s.frame (u.reply r cmd a) l :=
  State.frame_next (State.frame_next (State.frame_mono (s.admitted_frame r) hl) hu) (State.frame_mono (u.reply_frame r cmd a) hl)

end

/-- A command that its request asks for. -/
theorem State.ifAsked_asked {s t : State} {r : Req} {i : Instr} (h : s.asks r i = true) : s.ifAsked r i t = .next t := by
  rw [State.ifAsked, if_pos h]

end Sys2Proof.Machine
end

section
/-! PROOFS. Stage sets that are opened and filled (R97, R106–R110, R308): a set that changes is OPEN, seeks the plane for its node entries, and
takes additions as a whole or not at all; O37. -/

namespace Sys2Proof.Machine

/-! ### A request for a set -/

section
variable {s : State} {r : Req} {id : Nat} {q : Session} {x : StageSet}

/-- A session finds the set that it opened. -/
theorem State.withSet_own (h : s.admitsSet r id q x) (f : StageSet → State × Option Ans) :
    (s.admitted r).withSet (q.accept r.seq) id f = f x := by
  obtain ⟨hq, -, hx, hsid⟩ := h
  have hown : (s.admitted r).mayUse (q.accept r.seq) x = true := by
    simp [State.mayUse, hsid, State.admits_sid hq]
  rw [State.withSet, State.stageSet?_admitted, hx]
  exact if_pos hown

end

/-! ### A set that changes is OPEN (R111, R121) -/

/-- The reply to a request that waited for a set touches the session table and the reply machinery. -/
theorem State.dropReply_frame (s : State) (x : StageSet) : s.frame (s.dropReply x) replyParts := by
  unfold State.dropReply
  split
  · exact s.reply_frame _ _ _
  · exact s.frame_refl _

@[simp] theorem State.dropReply_scene (s : State) (x : StageSet) : (s.dropReply x).scene = s.scene :=
  State.scene_of_frame (s.dropReply_frame x) (by decide) (by decide)

/-- One stage set changed: the scene engine only. -/
theorem State.updSet_frame (s : State) (id : Nat) (f : StageSet → StageSet) : s.frame (s.updSet id f) [.scene] := by
  simp [State.frame_iff, Part.same, State.updSet]

/-- What is left of a set after a change: OPEN, with no co-signature, no queued commit, no request that waits for it. -/
def StageSet.loosened (x : StageSet) : StageSet := { x with st := .open, cosigned := [], want := none, reply := none }

/-- A set that changes, then changed by `f`. -/
theorem State.stageSet?_loosen_updSet {s : State} {x : StageSet} (hx : s.stageSet? x.id = some x) (f : StageSet → StageSet)
    (hf : ∀ y, (f y).id = y.id) (j : Nat) :
    ((s.loosen x).updSet x.id f).stageSet? j = if j = x.id then some (f x.loosened) else s.stageSet? j := by
  have hd : ∀ k, (s.dropReply x).stageSet? k = s.stageSet? k := fun k => by simp [State.stageSet?]
  have hl : ∀ k, (s.loosen x).stageSet? k = if k = x.id then some x.loosened else s.stageSet? k := fun k => by
    rw [State.loosen, State.stageSet?_updSet _ _ _ _ (by exact fun _ h => h), hd, hd, hx]
    rfl
  rw [State.stageSet?_updSet _ _ _ _ (by exact fun y h => (hf y).trans h), hl, hl, if_pos rfl]
  split <;> rfl

theorem State.loosen_updSet_frame (s : State) (x : StageSet) (f : StageSet → StageSet) :
    s.frame ((s.loosen x).updSet x.id f) [.scene, .sessions, .vcp] :=
  State.frame_next (State.frame_next (State.frame_mono (s.dropReply_frame x) (by decide)) (State.frame_mono (State.updSet_frame _ _ _) (by decide)))
    (State.frame_mono (State.updSet_frame _ _ _) (by decide))

/-! ### The plane for a set's node entries (R110) -/

theorem State.seekPlane_frame (s : State) (id : Nat) : s.frame (s.seekPlane id) [.scene, .mere] := by
  unfold State.seekPlane
  split
  · exact s.frame_refl _
  · exact State.frame_ite (State.frame_mono (s.writePlane_frame id) (by decide)) (State.frame_ite (s.frame_refl _)
      (State.frame_ite (s.givePlane_frame id) (State.frame_mono (s.updSet_frame id _) (by decide))))

theorem State.givePlane_holder (s : State) (id : Nat) : (s.givePlane id).scene.holder = some id := by
  simp [State.givePlane]

/-- A set that seeks the plane for its node entries waits for it or holds it. -/
theorem State.seekPlane_set {s : State} {id : Nat} {x : StageSet} (hx : s.stageSet? id = some x) (hn : x.hasNodes = true) :
    ∃ p w, (s.seekPlane id).stageSet? id = some { x with planeIn := p, waiting := w } ∧
      (w = true ∨ (s.seekPlane id).scene.holder = some id) := by
  simp only [State.seekPlane, hx, hn, Bool.not_true, Bool.false_eq_true, if_false]
  split
  · next hh => exact ⟨x.planeIn, x.waiting, by rw [State.stageSet?_writePlane, hx], .inr (by simpa using hh)⟩
  · split
    · exact ⟨true, false, by rw [State.stageSet?_givePlane, if_pos rfl, hx]; rfl, .inr (s.givePlane_holder id)⟩
    · exact ⟨false, true, by rw [State.stageSet?_updSet _ _ _ _ (by exact fun _ h => h), if_pos rfl, hx]; rfl, .inl rfl⟩

/-- The other sets stay. -/
theorem State.seekPlane_other (s : State) {id j : Nat} (hj : j ≠ id) : (s.seekPlane id).stageSet? j = s.stageSet? j := by
  unfold State.seekPlane
  split
  · rfl
  · split_ifs
    · exact s.stageSet?_writePlane id j
    · rfl
    · rw [State.stageSet?_givePlane, if_neg hj]
    · rw [State.stageSet?_updSet _ _ _ _ (by exact fun _ h => h), if_neg hj]

/-! ### Additions (R108–R110) -/

/-- Additions that have joined a set: it changes, and seeks the plane where they carry node entries. -/
def State.joined (s : State) (x : StageSet) (l : List Added) : State :=
  let s1 := (s.loosen x).updSet x.id (fun y => { y with added := y.added ++ l })
  if l.any Added.hasNodes then s1.seekPlane x.id else s1

/-- Bytes of the stage area in use with additions joined. -/
def State.areaWith (s : State) (l : List Added) : Nat := s.areaUsed + (l.map Added.cost).foldl (· + ·) 0

section
variable {s : State} {x : StageSet} {l : List Added}

theorem State.addTo_closed (he : x.editable = false) : s.addTo x l = (s, Ans.fail Err.state) := by
  simp [State.addTo, he]

theorem State.addTo_full (he : x.editable = true) (hl : stageArea < s.areaWith l) : s.addTo x l = (s, Ans.fail Err.capacity) := by
  rw [State.areaWith] at hl
  simp [State.addTo, he, hl]

theorem State.addTo_room (he : x.editable = true) (hl : s.areaWith l ≤ stageArea) : s.addTo x l = (s.joined x l, Ans.good []) := by
  rw [State.areaWith] at hl
  simp [State.addTo, State.joined, he, Nat.not_lt.2 hl]

theorem State.joined_frame (s : State) (x : StageSet) (l : List Added) : s.frame (s.joined x l) [.scene, .mere, .sessions, .vcp] := by
  have h1 := State.frame_mono (b := [.scene, .mere, .sessions, .vcp]) (s.loosen_updSet_frame x (fun y => { y with added := y.added ++ l }))
    (by decide)
  exact State.frame_ite (State.frame_next h1 (State.frame_mono (State.seekPlane_frame _ _) (by decide))) h1

theorem State.joined_other (hx : s.stageSet? x.id = some x) {j : Nat} (hj : j ≠ x.id) : (s.joined x l).stageSet? j = s.stageSet? j := by
  have h1 := State.stageSet?_loosen_updSet hx (fun y => { y with added := y.added ++ l }) (fun _ => rfl) j
  rw [if_neg hj] at h1
  unfold State.joined
  split
  · rw [State.seekPlane_other _ hj, h1]
  · exact h1

/-- The set with the additions: OPEN; node entries among them wait for the plane or hold it. -/
theorem State.joined_set (hx : s.stageSet? x.id = some x) :
    ∃ y, (s.joined x l).stageSet? x.id = some y ∧ y.st = .open ∧ y.cosigned = [] ∧ y.want = none ∧ y.added = x.added ++ l ∧
      (l.any Added.hasNodes = true → y.waiting = true ∨ (s.joined x l).scene.holder = some x.id) := by
  have h1 := State.stageSet?_loosen_updSet hx (fun y => { y with added := y.added ++ l }) (fun _ => rfl) x.id
  rw [if_pos rfl] at h1
  unfold State.joined
  split
  · next hn =>
    obtain ⟨p, w, hy, hw⟩ := State.seekPlane_set h1 (by simp [StageSet.hasNodes, hn])
    exact ⟨_, hy, rfl, rfl, rfl, rfl, fun _ => hw⟩
  · next hn => exact ⟨_, h1, rfl, rfl, rfl, rfl, fun h => absurd h hn⟩

end

/-! ### The commands that add -/

section
variable {s : State} {r : Req} {id cmd : Nat} {q : Session} {x : StageSet} {c : Instr} {l : List Added}

/-- A command whose action, where its request asks for it, is to add to a set. -/
theorem State.stages_of_addTo (h : s.admitsSet r id q x) {act : Session → State → State × Option Ans}
    (hc : s.asks r c = true → exec c s = .next (s.serveAudio r cmd act))
    (ha : act (q.accept r.seq) (s.admitted r) = (s.admitted r).addTo x l) : s.stages c r cmd id x l := by
  obtain ⟨hq, hserved, hx, -⟩ := h
  obtain rfl : x.id = id := State.stageSet?_id hx
  have hu : (s.admitted r).stageSet? x.id = some x := by rw [State.stageSet?_admitted, hx]
  have harea : (s.admitted r).areaWith l = s.areaWith l := by simp [State.areaWith, State.areaUsed]
  refine ⟨fun hask he hl => ?_, fun he hl hask => ?_, fun he hask => ?_⟩ <;> rw [hc hask, State.serveAudio_served hserved hq]
  · rw [State.addTo_room he (harea.trans_le hl)] at ha
    obtain ⟨y, hy, hst, hcos, hwant, hadd, hplane⟩ := State.joined_set (l := l) hu
    refine ⟨_, y, rfl, ?_⟩
    rw [State.serve_answered hq ha]
    refine ⟨State.reply_answers_nil _ _, by rw [State.stageSet?_reply, hy], hst, hcos, hwant, hadd, by simpa using hplane, fun j hj => ?_,
      State.request_frame (by decide) (State.joined_frame _ _ _) _⟩
    rw [State.stageSet?_reply, State.joined_other hu hj, State.stageSet?_admitted]
  · rw [State.addTo_full he (hl.trans_eq harea.symm)] at ha
    exact ⟨_, rfl, State.serve_refused hq ha⟩
  · rw [State.addTo_closed he] at ha
    exact ⟨_, rfl, State.serve_refused hq ha⟩

/-- STAGE_ADD. -/
theorem stageAdd_stages (h : s.admitsSet r id q x) (es : List Entry) :
    s.stages (.stageAdd r id es) r 0x0102 id x (es.map s.addedOf) :=
  State.stages_of_addTo h (fun ha => State.ifAsked_asked ha) (State.withSet_own h _)

/-- R97, R308: a staging command of node forms, with a well-formed item of a form that it carries, within the shape in force. -/
theorem State.stageForm_stages (h : s.admitsSet r id q x) {forms : List Nat} {n : Nodes}
    (hc : s.asks r c = true → exec c s = .next (s.stageForm r cmd id forms n)) (hf : forms.contains n.form = true) (hok : n.ok = true)
    (hd : n.dest + n.nd ≤ s.cap.dests) (hs : n.src + n.ns ≤ s.cap.sources) : s.stages c r cmd id x [s.formOf n] := by
  have hin : ¬ ((s.admitted r).cap.dests < n.dest + n.nd ∨ (s.admitted r).cap.sources < n.src + n.ns) := by
    rw [State.cap_admitted]
    omega
  refine State.stages_of_addTo h hc ?_
  rw [State.withSet_own h, if_neg (by simp [-List.contains_eq_mem, hf, hok]), if_neg hin]
  rfl

/-- Each of the four commands stages the forms that it carries. -/
theorem formCommands_exec {f : Nat × (Req → Nat → Nodes → Instr) × List Nat} (hf : f ∈ formCommands) (n : Nodes)
    (ha : s.asks r (f.2.1 r id n) = true) : exec (f.2.1 r id n) s = .next (s.stageForm r f.1 id f.2.2 n) := by
  simp only [formCommands, List.mem_cons, List.not_mem_nil, or_false] at hf
  rcases hf with rfl | rfl | rfl | rfl <;> exact State.ifAsked_asked ha

/-- PAN within its ranges (R56). -/
theorem pan_stages (h : s.admitsSet r id q x) {src left right law : Nat} {pos level : Int} (hlaw : law ≤ 3) (hlow : -1000 ≤ pos)
    (hhigh : pos ≤ 1000) (hlevel : level ≤ 6165) (hsrc : src < 4096) (hleft : left < 4096) (hright : right < 4096) :
    s.stages (.pan r id src left right law pos level) r 0x010E id x
      [s.addedOf { h := hGain left src, v := Fmt.wrapU 32 (panGains law pos level).1 },
       s.addedOf { h := hGain right src, v := Fmt.wrapU 32 (panGains law pos level).2 }] := by
  have hrange : ¬ (3 < law ∨ pos < -1000 ∨ 1000 < pos ∨ 6165 < level) := by omega
  have hhandle : ¬ (4096 ≤ src ∨ 4096 ≤ left ∨ 4096 ≤ right) := by omega
  refine State.stages_of_addTo h (fun _ => rfl) ?_
  rw [State.withSet_own h, if_neg hrange, if_neg hhandle]
  generalize panGains law pos level = gains
  rfl

end

/-! ### STAGE_OPEN (R106, R107, R307) -/

theorem State.openSet_frame (s : State) (sid : Nat) (a : Attrs) : s.frame (s.openSet sid a).1 [.scene] := by
  simp [State.frame_iff, Part.same, State.openSet]

/-- Within the limits of R107 a set opens. -/
theorem stageOpen_opens {s : State} {r : Req} {q : Session} {attrs : Option Attrs} (hq : s.admits r 1 q) (ha : s.audioServed = true)
    (hask : s.asks r (.stageOpen r attrs) = true) (hok : (attrs.getD Attrs.dflt).ok = true)
    (h32 : (s.scene.sets.filter StageSet.live).length < 32)
    (h4 : ((s.scene.sets.filter StageSet.live).filter (fun x => decide (x.sid = r.sid))).length < 4) :
    ∃ t id, exec (.stageOpen r attrs) s = .next t ∧ t.answers r 0x0101 0 0 [.set id] ∧
      s.setBecomes t id (StageSet.fresh id r.sid (attrs.getD Attrs.dflt).full) ∧ s.frame t [.scene, .sessions, .vcp] := by
  have hsid := State.admits_sid hq
  have hroom : ¬ (32 ≤ (s.scene.sets.filter StageSet.live).length ∨
      4 ≤ ((s.scene.sets.filter StageSet.live).filter (fun x => decide (x.sid = r.sid))).length) := by omega
  have he : exec (.stageOpen r attrs) s = .next (((s.admitted r).openSet r.sid (attrs.getD Attrs.dflt).full).1.reply r 0x0101
      ⟨Err.ok, 0, [.set ((s.admitted r).openSet r.sid (attrs.getD Attrs.dflt).full).2]⟩) := by
    show execStageOpen r attrs s = _
    rw [execStageOpen, State.ifAsked_asked hask, State.serveAudio_served ha hq, State.serve_answered hq]
    simp only [hok, Session.accept_fields, hsid, State.admitted_fields, hroom, Bool.not_true, Bool.false_eq_true, if_false]
    rfl
  refine ⟨_, _, he, State.reply_answers_items (by simp [itemsFit, itemsSize, Item.size, replyMax, statusSize]), ⟨?_, fun j hj => ?_⟩,
    State.request_frame (by decide) (State.frame_mono (State.openSet_frame _ _ _) (by decide)) _⟩
  · rw [State.stageSet?_reply, State.stageSet?_openSet]
  · rw [State.stageSet?_reply, State.stageSet?_openSet_other _ _ _ _ hj, State.stageSet?_admitted]

/-! ### STAGE_REMOVE (R109) -/

/-- A change of a set's contents by STAGE_REMOVE: the plane follows where the set holds it. -/
def State.withContents (s : State) (x : StageSet) (l : List Added) : State :=
  let s1 := (s.loosen x).updSet x.id (fun y => { y with added := l })
  if s.scene.holder = some x.id then s1.writePlane x.id else s1

theorem State.withContents_frame (s : State) (x : StageSet) (l : List Added) :
    s.frame (s.withContents x l) [.scene, .mere, .sessions, .vcp] := by
  have h1 := State.frame_mono (b := [.scene, .mere, .sessions, .vcp]) (s.loosen_updSet_frame x (fun y => { y with added := l })) (by decide)
  exact State.frame_ite (State.frame_next h1 (State.frame_mono (State.writePlane_frame _ _) (by decide))) h1

theorem State.stageSet?_withContents {s : State} {x : StageSet} (hx : s.stageSet? x.id = some x) (l : List Added) (j : Nat) :
    (s.withContents x l).stageSet? j = if j = x.id then some { x.loosened with added := l } else s.stageSet? j := by
  have h1 := State.stageSet?_loosen_updSet hx (fun y => { y with added := l }) (fun _ => rfl) j
  unfold State.withContents
  split
  · rw [State.stageSet?_writePlane, h1]
  · exact h1

/-- Whether an addition stays as it is when handles leave its set. -/
def Added.stays (hs : List Nat) : Added → Bool
  | .entry e => !hs.contains e.h
  | .node e _ _ => !hs.contains e.h
  | _ => true

/-- Whether handles leave an addition only by a later one (log entry 47). -/
def Added.deep : Added → Bool
  | .form _ _ _ => true
  | .recall _ _ _ _ _ => true
  | _ => false

/-- A set's contents without some handles. -/
def StageSet.without (x : StageSet) (hs : List Nat) : List Added :=
  x.added.filter (Added.stays hs) ++ if x.added.any Added.deep then [.drop hs] else []

/-- Its plain entries are those whose handles stay. -/
theorem StageSet.entry_mem_without (x : StageSet) (hs : List Nat) (e : Entry) :
    Added.entry e ∈ x.without hs ↔ Added.entry e ∈ x.added ∧ hs.contains e.h = false := by
  have hdrop : Added.entry e ∉ (if x.added.any Added.deep then [Added.drop hs] else []) := by split <;> simp
  have hstays : Added.stays hs (.entry e) = !hs.contains e.h := rfl
  rw [StageSet.without, List.mem_append, List.mem_filter, or_iff_left hdrop, hstays, Bool.not_eq_true']

/-- STAGE_REMOVE of an editable set. -/
theorem execStageRemove_editable {s : State} {r : Req} {id : Nat} {q : Session} {x : StageSet} (h : s.admitsSet r id q x)
    (he : x.editable = true) (hs : List Nat) :
    exec (.stageRemove r id hs) s = .next (((s.admitted r).withContents x (x.without hs)).reply r 0x0107 ⟨Err.ok, 0, []⟩) := by
  have hown := State.withSet_own h
  obtain ⟨hq, hserved, hx, -⟩ := h
  obtain rfl : x.id = id := State.stageSet?_id hx
  show execStageRemove r x.id hs s = _
  rw [execStageRemove, State.serveAudio_served hserved hq, State.serve_answered hq]
  rw [hown, if_neg (by simp [he])]
  rfl

/-- The set without the handles. -/
theorem stageRemove_removes {s : State} {r : Req} {id : Nat} {q : Session} {x : StageSet} (h : s.admitsSet r id q x)
    (hs : List Nat) (he : x.editable = true) :
    ∃ t y, exec (.stageRemove r id hs) s = .next t ∧ t.answers r 0x0107 0 0 [] ∧ s.setBecomes t id y ∧ y.st = .open ∧ y.cosigned = [] ∧
      (∀ e, Added.entry e ∈ y.added ↔ Added.entry e ∈ x.added ∧ hs.contains e.h = false) ∧
      s.frame t [.scene, .mere, .sessions, .vcp] := by
  have hexec := execStageRemove_editable h he hs
  obtain ⟨-, -, hx, -⟩ := h
  obtain rfl : x.id = id := State.stageSet?_id hx
  have hset := State.stageSet?_withContents (s := s.admitted r) (by rw [State.stageSet?_admitted, hx]) (x.without hs)
  refine ⟨_, { x.loosened with added := x.without hs }, hexec, State.reply_answers_nil _ _, ⟨?_, fun j hj => ?_⟩, rfl, rfl,
    x.entry_mem_without hs, State.request_frame (by decide) (State.withContents_frame _ _ _) _⟩
  · rw [State.stageSet?_reply, hset, if_pos rfl]
  · rw [State.stageSet?_reply, hset, if_neg hj, State.stageSet?_admitted]

/-- Settles O37: opening by the state it leaves, every command that adds by what additions do, removing by the contents that stay. -/
theorem stageSetsAreFilled : Obligations.StageSetsAreFilled := by
  unfold Obligations.StageSetsAreFilled
  refine fun s r q => ⟨fun attrs => stageOpen_opens, fun id x h => ⟨stageAdd_stages h, ?_, ?_, stageRemove_removes h⟩⟩
  · exact fun f hf n hform hok hd hs => State.stageForm_stages h (formCommands_exec hf n) hform hok hd hs
  · exact fun src left right law pos level => pan_stages h

end Sys2Proof.Machine
end

section
/-! PROOFS. Meters (R73, R324), modules (R194, R204) and live firmware update (R365, R366, R419): what each command leaves, in the order of the
layers it works on; O34. -/

namespace Sys2Proof.Machine

/-! ### METER_SUBSCRIBE (R324) -/

theorem State.meterIs_admitted (s : State) (r : Req) (k : Nat) : (s.admitted r).meterIs k = s.meterIs k := rfl

theorem State.meterPart_admitted (s : State) (r : Req) (k : Nat) : (s.admitted r).meterPart k = s.meterPart k := by
  unfold State.meterPart
  generalize meterOf k = m
  exact State.ownerOf_admitted s r _

/-- METER_SUBSCRIBE for points that exist in partitions that the session receives. -/
theorem execMeterSubscribe_sets {s : State} {r : Req} {x : Session} (h : s.admits r 2 x) {points : List Nat} (hn : points.length ≤ 1024)
    (hp : ∀ k ∈ points, s.meterIs k = true ∧ x.receives (s.meterPart k) = true) :
    exec (.meterSubscribe r points) s = .next (((s.admitted r).updSession r.sid (fun y => { y with meters := points })).reply r 0x0305
      ⟨Err.ok, 0, []⟩) := by
  have his : ¬ points.any (fun k => !s.meterIs k) = true := by
    simpa using fun k m => (hp k m).1
  have hrec : ¬ points.any (fun k => !x.receives (s.meterPart k)) = true := by
    simpa using fun k m => (hp k m).2
  show execMeterSubscribe r points s = _
  rw [execMeterSubscribe, State.serve_answered h]
  simp only [State.meterIs_admitted, State.meterPart_admitted, Session.receives_accept, Session.accept_fields, State.admits_sid h]
  rw [if_neg (Nat.not_lt.2 hn), if_neg his, if_neg hrec]
  rfl

theorem meterSubscribe_sets {s : State} {r : Req} {x : Session} (h : s.admits r 2 x) {points : List Nat} (hn : points.length ≤ 1024)
    (hp : ∀ k ∈ points, s.meterIs k = true ∧ x.receives (s.meterPart k) = true) :
    ∃ t y, exec (.meterSubscribe r points) s = .next t ∧ t.answers r 0x0305 0 0 [] ∧ t.session? r.sid = some y ∧ y.meters = points ∧
      s.frame t replyParts := by
  have hset : ((s.admitted r).updSession r.sid (fun y => { y with meters := points })).session? r.sid =
      some { x.accept r.seq with heard := s.mcc, meters := points } := by
    rw [State.session?_updSession _ _ _ _ (by exact fun _ => rfl), if_pos rfl, State.session?_admitted h]
    rfl
  obtain ⟨l, hy⟩ := State.session?_reply hset 0x0305 ⟨Err.ok, 0, []⟩
  exact ⟨_, _, execMeterSubscribe_sets h hn hp, State.reply_answers_nil _ _, hy, rfl,
    State.request_frame (fun _ => id) (State.frame_mono (State.updSession_frame _ _ _) (by decide)) _⟩

/-! ### METER_PERIOD_END (R73, R316, R324) -/

/-- The pushes of a delivery are what it says, and touch the reply machinery only. -/
theorem State.sendPushes_pushes (s : State) (l : List Push) : (s.sendPushes l).vcp.pushes = l := by
  unfold State.sendPushes
  extract_lets s1
  refine l.foldlRecOn (motive := fun t : State => t.vcp.pushes = l) _ rfl (fun t ht p _ => ?_)
  split
  · simpa using ht
  · exact ht

theorem State.sendPushes_frame (s : State) (l : List Push) : s.frame (s.sendPushes l) [.vcp] := by
  have first : s.frame { s with vcp := { s.vcp with pushes := l } } [.vcp] := by simp [State.frame_iff, Part.same]
  refine State.frame_next first (State.frame_foldl (fun u p => ?_) l _)
  split
  · simp [State.frame_iff, Part.same]
  · exact u.frame_refl _

/-- R73: the next meter period of a partition starts. -/
def State.metersRestarted (s : State) (mine : Nat → Bool) : State :=
  s.setAudio (fun a => { a with meters := a.meters.filter (fun c => !mine c.1) })

theorem State.metersRestarted_frame (s : State) (mine : Nat → Bool) : s.frame (s.metersRestarted mine) [.audio] := by
  simp [State.metersRestarted, State.frame_iff, Part.same]

/-- METER_PERIOD_END with one session, which receives the partition and has subscribed to points of it only. -/
theorem execMeterPeriodEnd_one {s : State} {x : Session} {part : Nat} (hl : s.live = true) (hs : s.vcp.sessions = [x])
    (hx : x.receives part = true) (hne : x.meters ≠ []) (hm : ∀ k ∈ x.meters, s.meterPart k = part) :
    exec (.meterPeriodEnd part) s = .next (((s.updSession x.sid (fun y => { y with pushSeq := y.pushSeq + 1 })).sendPushes
      [{ sid := x.sid, seq := x.pushSeq + 1, cmd := 0x0306, items := [.words (x.meters.flatMap s.meterRead)] }]).metersRestarted
        (fun k => decide (s.meterPart k = part))) := by
  have hall : x.meters.filter (fun k => decide (s.meterPart k = part)) = x.meters :=
    List.filter_eq_self.2 (fun k hk => decide_eq_true (hm k hk))
  have hany : x.meters.any (fun k => decide (s.meterPart k = part)) = true := by
    obtain ⟨k, hk⟩ := List.exists_mem_of_ne_nil _ hne
    exact List.any_eq_true.2 ⟨k, hk, decide_eq_true (hm k hk)⟩
  show execMeterPeriodEnd part s = _
  simp only [execMeterPeriodEnd, hl, hs, hx, hany, hall, List.filter_cons, List.filter_nil, List.map_cons, List.map_nil, List.foldl_cons,
    List.foldl_nil, List.isEmpty_cons, Bool.and_self, Bool.not_true, Bool.false_eq_true, if_true, if_false]
  rfl

theorem meterPeriodEnd_pushes {s : State} {x : Session} {part : Nat} (hl : s.live = true) (hs : s.vcp.sessions = [x])
    (hx : x.receives part = true) (hne : x.meters ≠ []) (hm : ∀ k ∈ x.meters, s.meterPart k = part) :
    ∃ t, exec (.meterPeriodEnd part) s = .next t ∧
      t.vcp.pushes = [{ sid := x.sid, seq := x.pushSeq + 1, cmd := 0x0306, items := [.words (x.meters.flatMap s.meterRead)] }] ∧
      (∀ c ∈ t.audio.meters, s.meterPart c.1 ≠ part) ∧ s.frame t [.sessions, .vcp, .audio] := by
  refine ⟨_, execMeterPeriodEnd_one hl hs hx hne hm, ?_, ?_, ?_⟩
  · simp only [State.metersRestarted, State.setAudio_fields, State.sendPushes_pushes]
  · intro c hc
    simp only [State.metersRestarted, State.setAudio_fields, List.mem_filter] at hc
    simpa using hc.2
  · exact State.frame_trans (State.frame_trans (s.updSession_frame _ _) (State.sendPushes_frame _ _))
      (State.metersRestarted_frame _ _)

/-! ### MODULE_LOAD (R194, R204) -/

section
variable {s : State} {r : Req} {x : Session} {image : List Nat} (h : s.admits r 1 x) (ha : s.audioServed = true)
include h ha

/-- An image that does not load: the reply says why. -/
theorem moduleLoad_refused (he : (s.admitted r).moduleError image ≠ 0) :
    ∃ t, exec (.moduleLoad r image) s = .next t ∧ t.answers r 0x0601 ((s.admitted r).moduleError image) 0 [] ∧ s.frame t replyParts := by
  refine ⟨s.serveAudio r 0x0601 _, rfl, ?_⟩
  rw [State.serveAudio_served ha h]
  exact State.serve_refused h (if_pos he)

/-- An image that loads. -/
theorem moduleLoad_loads (he : (s.admitted r).moduleError image = 0) :
    ∃ t, exec (.moduleLoad r image) s = .next t ∧ t.answers r 0x0601 0 0 [] ∧
      t.tarn.modules = ((s.admitted r).loadModule image).tarn.modules := by
  refine ⟨s.serveAudio r 0x0601 _, rfl, ?_⟩
  rw [State.serveAudio_served ha h, State.serve_answered h (if_neg (not_not.2 he))]
  exact ⟨State.reply_answers_nil _ _, by simp only [State.reply_fields]⟩

end

/-! ### FW_WRITE (R365) -/

/-- A flash slot read after one was replaced. -/
theorem State.slot_setSlot (s : State) {n m : Nat} (hn : n < 2) (hm : m < 2) (f : FlashSlot) :
    (s.setSlot n f).fw.slot m = if m = n then f else s.fw.slot m := by
  unfold State.setSlot FwG.slot
  interval_cases n <;> interval_cases m <;> rfl

theorem State.setSlot_frame (s : State) (n : Nat) (f : FlashSlot) : s.frame (s.setSlot n f) [.flash] := by
  unfold State.setSlot
  split <;> simp [State.frame_iff, Part.same]

/-- A slot with bytes appended. -/
def FlashSlot.append (f : FlashSlot) (bytes : List Nat) : FlashSlot :=
  { f with data := f.data.writeAll f.size bytes, size := f.size + bytes.length, staged := none }

section
variable {s : State} {r : Req} {x : Session} {n : Nat}

/-- FW_WRITE at the end of what an erased slot holds, which does not complete the image. -/
theorem execFwWrite_appends {bytes : List Nat} (h : s.admits r 0 x) (hn : n < 2) (hu : s.fw.inUse ≠ some n) (he : (s.fw.slot n).erased = true)
    (hl : (s.fw.slot n).size + bytes.length ≤ slotBytes) (hc : ((s.fw.slot n).append bytes).complete (s.fw.slot n).size = false) :
    exec (.fwWrite r n (s.fw.slot n).size bytes) s =
      .next (((s.admitted r).setSlot n ((s.fw.slot n).append bytes)).reply r 0x0605 ⟨Err.ok, 0, []⟩) := by
  have hroom : ¬ ((s.fw.slot n).size ≠ (s.fw.slot n).size ∨ slotBytes < (s.fw.slot n).size + bytes.length) := by omega
  show execFwWrite r n (s.fw.slot n).size bytes s = _
  rw [execFwWrite, State.serve_answered h]
  simp only [State.admitted_fields]
  rw [if_pos he, if_neg (Nat.not_le.2 hn), if_neg hu, if_neg hroom]
  exact if_neg (Bool.eq_false_iff.1 hc)

theorem fwWrite_appends {bytes : List Nat} (h : s.admits r 0 x) (hn : n < 2) (hu : s.fw.inUse ≠ some n) (he : (s.fw.slot n).erased = true)
    (hl : (s.fw.slot n).size + bytes.length ≤ slotBytes) (hc : ((s.fw.slot n).append bytes).complete (s.fw.slot n).size = false) :
    ∃ t, exec (.fwWrite r n (s.fw.slot n).size bytes) s = .next t ∧ t.answers r 0x0605 0 0 [] ∧
      t.fw.slot n = (s.fw.slot n).append bytes ∧ t.fw.slot (1 - n) = s.fw.slot (1 - n) ∧
      (∀ a, a < (s.fw.slot n).size ∨ (s.fw.slot n).size + bytes.length ≤ a → (t.fw.slot n).data.read a = (s.fw.slot n).data.read a) ∧
      s.frame t [.sessions, .vcp, .flash] := by
  have hother : 1 - n ≠ n ∧ 1 - n < 2 := by omega
  refine ⟨_, execFwWrite_appends h hn hu he hl hc, State.reply_answers_nil _ _, ?_, ?_, fun a hout => ?_,
    State.request_frame (by decide) (State.frame_mono (State.setSlot_frame _ _ _) (by decide)) _⟩
  · simp only [State.reply_fields, State.slot_setSlot _ hn hn, if_true]
  · simp only [State.reply_fields, State.slot_setSlot _ hn hother.2, hother.1, State.admitted_fields, if_false]
  · simp only [State.reply_fields, State.slot_setSlot _ hn hn, if_true]
    exact Memory.read_writeAll_other _ _ _ _ hout

/-! ### FW_SWITCH (R366, R419) -/

/-- R419: the free token passes at once. -/
theorem State.maintAsk_free (hh : s.fault.holder = none) (hq : s.fault.queue = []) (m : Maint) (noWait : Bool) :
    s.maintAsk m noWait = (s.maintStart m, Err.ok) := by
  simp [State.maintAsk, hh, hq]

/-- Its holder is the activity, and EV_MAINT_START tells it. -/
theorem State.maintStart_starts (s : State) (m : Maint) : (s.maintStart m).fault.holder = some m ∧
    (s.maintStart m).ev = (s.raise .maintStart 0 m.code m.target).ev ∧ s.frame (s.maintStart m) [.fault, .ev, .sessions] := by
  have set : s.frame (s.setFault (fun f => { f with holder := some m })) [.fault] := by simp [State.frame_iff, Part.same]
  refine ⟨by simp [State.maintStart], ?_, State.frame_trans set (State.raise_frame _ _ _ _ _)⟩
  exact (State.raise_told s _ .maintStart 0 m.code m.target (by simp) (by simp) (by simp) (State.legacy_of_straps (by simp))).1

/-- R366: a granted slot switch without defer writes the boot preference and starts the restart. -/
theorem State.fwSwitchBegin_now (s : State) (n : Nat) : (s.fwSwitchBegin n false).boot.pref = some n ∧
    (s.fwSwitchBegin n false).fw.pending = some n ∧ s.frame (s.fwSwitchBegin n false) [.boot, .fw, .flash] :=
  ⟨rfl, rfl, by simp [State.fwSwitchBegin, State.frame_iff, Part.same]⟩

/-- The activity of a slot switch without defer. -/
def Maint.fwSwitch (n sid : Nat) : Maint := { code := 5, target := n, sid := sid }

/-- FW_SWITCH to a staged slot with the token free. -/
theorem execFwSwitch_free (h : s.admits r 0 x) (hn : n < 2) (hst : (s.fw.slot n).staged = some 0) (hh : s.fault.holder = none)
    (hq : s.fault.queue = []) :
    exec (.fwSwitch r n false) s =
      .next ((((s.admitted r).maintStart (.fwSwitch n r.sid)).fwSwitchBegin n false).reply r 0x0606 ⟨Err.ok, 0, []⟩) := by
  have hmod : n % 256 = n := Nat.mod_eq_of_lt (by omega)
  have hbit : Fmt.bit n 8 = false := by simp [Fmt.bit]; omega
  have hgo : ((s.admitted r).maintStart (.fwSwitch n r.sid)).maintOn 5 = true ∧ (s.admitted r).fault.holder.isNone = true := by
    simp [State.maintOn, (State.maintStart_starts _ _).1, Maint.fwSwitch, hh]
  have hbegin : ((s.admitted r).maintStart (.fwSwitch n r.sid)).maintBegin =
      ((s.admitted r).maintStart (.fwSwitch n r.sid)).fwSwitchBegin n false := by
    rw [State.maintBegin, (State.maintStart_starts _ _).1]
    rfl
  show execFwSwitch r n false s = _
  rw [execFwSwitch, State.serve_answered h]
  simp only [hmod, hbit, Session.accept_fields, State.admits_sid h]
  rw [if_neg (Nat.not_le.2 hn), if_neg (by simp [hst]), State.maintAsk_free (by simpa using hh) (by simpa using hq), ← hbegin]
  exact congrArg (fun u => (u, Ans.good [])) (if_pos hgo)

theorem fwSwitch_begins (h : s.admits r 0 x) (hn : n < 2) (hst : (s.fw.slot n).staged = some 0) (hh : s.fault.holder = none)
    (hq : s.fault.queue = []) :
    ∃ t, exec (.fwSwitch r n false) s = .next t ∧ t.answers r 0x0606 0 0 [] ∧ t.boot.pref = some n ∧ t.fw.pending = some n ∧
      t.fault.holder = some { code := 5, target := n, sid := r.sid } ∧ t.ev = ((s.admitted r).raise .maintStart 0 5 n).ev ∧
      s.frame t [.sessions, .vcp, .ev, .fault, .boot, .fw, .flash] := by
  obtain ⟨hholder, hev, hstart⟩ := (s.admitted r).maintStart_starts (.fwSwitch n r.sid)
  obtain ⟨hpref, hpending, hbegin⟩ := ((s.admitted r).maintStart (.fwSwitch n r.sid)).fwSwitchBegin_now n
  have hfault : (State.fwSwitchBegin _ n false).fault = _ := hbegin .fault (by decide)
  have hevents : (State.fwSwitchBegin _ n false).ev = _ := hbegin .ev (by decide)
  refine ⟨_, execFwSwitch_free h hn hst hh hq, State.reply_answers_nil _ _, ?_, ?_, ?_, ?_, ?_⟩
  · simpa only [State.reply_fields] using hpref
  · simpa only [State.reply_fields] using hpending
  · simp only [State.reply_fields, hfault]
    exact hholder
  · simp only [State.reply_fields, hevents]
    exact hev
  · exact State.request_frame (by decide) (State.frame_mono (State.frame_trans hstart hbegin) (by decide)) _

end

/-- Settles O34: meters, modules, the flash slot and the slot switch, each by what its command leaves. -/
theorem metersModulesAndFirmware : Obligations.MetersModulesAndFirmware := by
  unfold Obligations.MetersModulesAndFirmware
  refine fun s r x => ⟨fun points h => meterSubscribe_sets h, fun part => meterPeriodEnd_pushes, fun image h ha => ?_,
    fun n bytes h hn hu he hl hc => fwWrite_appends h hn hu he hl hc, fun n => fwSwitch_begins⟩
  by_cases he : (s.admitted r).moduleError image = 0
  · obtain ⟨t, ht, hans, hmod⟩ := moduleLoad_loads h ha he
    exact ⟨t, ht, fun hne => absurd he hne, fun _ => ⟨hans, hmod⟩⟩
  · obtain ⟨t, ht, hans, hframe⟩ := moduleLoad_refused h ha he
    exact ⟨t, ht, fun _ => ⟨hans, hframe⟩, fun h0 => absurd h0 he⟩

end Sys2Proof.Machine
end

section
/-! PROOFS. The node matrix on its way to its targets (R86–R92, R501): ramps, the stepping of node groups, tap handovers; O9 and O10. -/

namespace Sys2Proof.Machine

open Fmt

/-! ### Ramps (R88) -/

/-- A part k of L of a way upward, truncated, lies between none of it and all of it. -/
theorem tdiv_part_of_way {d k L : Int} (hd : 0 ≤ d) (hL : 0 < L) (hk : 0 ≤ k) (hkL : k ≤ L) :
    0 ≤ (d * k).tdiv L ∧ (d * k).tdiv L ≤ d :=
  ⟨Int.tdiv_nonneg (mul_nonneg hd hk) hL.le,
    calc (d * k).tdiv L ≤ (d * L).tdiv L := Int.tdiv_le_tdiv hL (mul_le_mul_of_nonneg_left hkL hd)
      _ = d := Int.mul_tdiv_cancel d hL.ne'⟩

section
variable (g t : Int) (tr L : Nat)

/-- The gain on sample tr + i. -/
theorem rampGain_at (i : Nat) : rampGain g t tr L (tr + i) = g + ((t - g) * ((i : Int) + 1)).tdiv L := by
  rw [rampGain, trunc0, show ((tr + i : Nat) : Int) - tr + 1 = i + 1 by push_cast; ring]

/-- The last sample of a ramp has its target. -/
theorem rampGain_last (hL : 0 < L) : rampGain g t tr L (tr + (L - 1)) = t := by
  rw [rampGain_at, show ((L - 1 : Nat) : Int) + 1 = L by omega, Int.mul_tdiv_cancel _ (by omega)]
  ring

/-- No sample of a ramp lies outside the gains that it leads between. -/
theorem rampGain_between {i : Nat} (hi : i < L) : min g t ≤ rampGain g t tr L (tr + i) ∧ rampGain g t tr L (tr + i) ≤ max g t := by
  have hL : (0 : Int) < L := by omega
  have hk : 0 ≤ (i : Int) + 1 := by omega
  have hkL : (i : Int) + 1 ≤ L := by omega
  rw [rampGain_at]
  rcases le_total g t with hgt | htg
  · obtain ⟨low, high⟩ := tdiv_part_of_way (sub_nonneg.2 hgt) hL hk hkL
    omega
  · obtain ⟨low, high⟩ := tdiv_part_of_way (sub_nonneg.2 htg) hL hk hkL
    have hneg : ((t - g) * ((i : Int) + 1)).tdiv L = -((g - t) * ((i : Int) + 1)).tdiv L := by
      rw [← Int.neg_tdiv, ← neg_mul, neg_sub]
    omega

end

/-- Settles O9: the parts of the way, all of it on the last sample and never more than that. -/
theorem rampEndsOnItsTarget : Obligations.RampEndsOnItsTarget := by
  unfold Obligations.RampEndsOnItsTarget
  exact fun g t tr L i hL => ⟨rampGain_last g t tr L hL, fun _ => rampGain_at g t tr L i, fun hi => rampGain_between g t tr L hi⟩

/-! ### Node records and groups as the stepping reads them (R81, R86) -/

/-- A node record as the stepping reads it. -/
def StepG.node (e : StepEnv) (m : StepG) (k : Nat) : Node := Cells.get e.zero m.nodes k

/-- Node k steps in group g and passes a test. -/
def StepG.listed (e : StepEnv) (m : StepG) (g : Nat) (p : Node → Bool) (k : Nat) : Prop :=
  e.gk k (m.node e k) = g ∧ p (m.node e k) = true

/-- Whether a node is in a state. -/
def Node.isIn (st : NodeSt) (x : Node) : Bool := decide (x.st = st)

/-- Whether a timeout of its group moves a node: one that its lost field holds waits for a zero crossing (R89, R105). -/
def Node.timesOut (x : Node) : Bool := decide (x.st = .pending) && !x.hold

@[simp] theorem Node.isIn_iff (st : NodeSt) (x : Node) : x.isIn st = true ↔ x.st = st := by simp [Node.isIn]

@[simp] theorem Node.timesOut_iff (x : Node) : x.timesOut = true ↔ x.st = .pending ∧ x.hold = false := by simp [Node.timesOut]

@[simp] theorem Node.waits_iff (x : Node) : x.waits = true ↔ x.st = .pending ∨ x.st = .queued := by simp [Node.waits]

/-- What every stepping of the Mere reads: unlisted nodes are those at reset, and a node's group depends on its tap in use (R81, R86). -/
structure StepEnv.ByTap (e : StepEnv) : Prop where
  zero : e.zero = Node.reset
  gk : ∀ {k : Nat} {x y : Node}, x.tap = y.tap → e.gk k x = e.gk k y

theorem State.eventEnv_byTap (s : State) (n : Nat) : (s.eventEnv n).ByTap :=
  ⟨rfl, fun h => by simp only [State.eventEnv, State.stepEnv, h]⟩

section
variable {e : StepEnv} {m : StepG} {g k n : Nat} {p : Node → Bool}

@[simp] theorem StepG.node_setGroup (j : Nat) (x : Group) : (m.setGroup j x).node e k = m.node e k := rfl

/-- A node read after one was written. -/
theorem StepG.node_setNode (j : Nat) (x : Node) : (m.setNode e j x).node e k = if k = j then x else m.node e k :=
  Cells.get_put _ _ _ _ _

@[simp] theorem StepG.group_mapNodes (ks : List Nat) (f : Node → Node) (i : Nat) : (m.mapNodes e ks f).group i = m.group i := by
  simp only [StepG.group, StepG.mapNodes_groups]

/-- Closing what no node is in any more leaves the other groups. -/
theorem StepG.group_tidy_other {i : Nat} (h : i ≠ g) : (m.tidy e g).group i = m.group i := by
  simp only [StepG.tidy, StepG.group_setGroup, h, if_false]

section
variable (he : e.ByTap) (hw : Cells.wf e.zero m.nodes = true)
include he hw

theorem StepG.mem_inGroup_iff (hp : p Node.reset = false) : k ∈ m.inGroup e g p ↔ m.listed e g p k :=
  StepG.mem_inGroup e m g p hw (he.zero ▸ hp) k

/-- A change of the nodes that a group lists reaches those. -/
theorem StepG.node_mapNodes_listed (hp : p Node.reset = false) (f : Node → Node) (h : m.listed e g p k) :
    (m.mapNodes e (m.inGroup e g p) f).node e k = f (m.node e k) := by
  rw [StepG.node, StepG.get_mapNodes _ _ _ _ (StepG.nodup_inGroup e m g p hw), if_pos ((StepG.mem_inGroup_iff he hw hp).2 h)]
  rfl

/-- It reaches no other. -/
theorem StepG.node_mapNodes_unlisted (hp : p Node.reset = false) (f : Node → Node) (h : ¬ m.listed e g p k) :
    (m.mapNodes e (m.inGroup e g p) f).node e k = m.node e k := by
  rw [StepG.node, StepG.get_mapNodes _ _ _ _ (StepG.nodup_inGroup e m g p hw), if_neg (mt (StepG.mem_inGroup_iff he hw hp).1 h)]
  rfl

/-- R501: a pending period that no node is in is over. -/
theorem StepG.tidy_tp_none (h : ∀ k, ¬ m.listed e g (Node.isIn .pending) k) : ((m.tidy e g).group g).tp = none := by
  have hnil : m.inGroup e g (Node.isIn .pending) = [] :=
    List.eq_nil_iff_forall_not_mem.2 fun k hk => h k ((StepG.mem_inGroup_iff he hw rfl).1 hk)
  have htest : (m.inGroup e g fun x => decide (x.st = .pending)).isEmpty = true := List.isEmpty_iff.2 hnil
  simp only [StepG.tidy, StepG.group_setGroup, htest, if_true]

/-- R501: a ramp that a node is in goes on. -/
theorem StepG.tidy_ramp (h : m.listed e g (Node.isIn .ramp) k) : ((m.tidy e g).group g).ramp = (m.group g).ramp := by
  have hne : m.inGroup e g (Node.isIn .ramp) ≠ [] := List.ne_nil_of_mem ((StepG.mem_inGroup_iff he hw rfl).2 h)
  have htest : (m.inGroup e g fun x => decide (x.st = .ramp)).isEmpty = false := List.isEmpty_eq_false_iff.2 hne
  simp only [StepG.tidy, StepG.group_setGroup, htest, if_true, Bool.false_eq_true, if_false]

/-- R501: a ramp written together with a change of nodes goes on, where a node of the group is in it after the change. -/
theorem StepG.tidy_moved_ramp {ks : List Nat} {f : Node → Node} (x : Group) (h : (m.mapNodes e ks f).listed e g (Node.isIn .ramp) k) :
    ((((m.mapNodes e ks f).setGroup g x).tidy e g).group g).ramp = x.ramp := by
  rw [StepG.tidy_ramp (m := (m.mapNodes e ks f).setGroup g x) he (StepG.wf_mapNodes e m ks f hw) h, StepG.group_setGroup, if_pos rfl]

/-! ### Zero crossings (R86, R87) -/

/-- A zero crossing steps the waiting nodes of the group. -/
theorem StepG.node_crossing_listed (h : m.listed e g Node.waits k) : (m.crossing e g).node e k = (m.node e k).step :=
  StepG.node_mapNodes_listed he hw rfl _ h

theorem StepG.node_crossing_unlisted (h : ¬ m.listed e g Node.waits k) : (m.crossing e g).node e k = m.node e k :=
  StepG.node_mapNodes_unlisted he hw rfl _ h

/-- It leaves no node of the group pending, so that the pending period is over. -/
theorem StepG.crossing_tp_none : ((m.crossing e g).group g).tp = none := by
  refine StepG.tidy_tp_none he (StepG.wf_mapNodes e m _ _ hw) fun k ⟨hg, hst⟩ => ?_
  by_cases h : m.listed e g Node.waits k
  · rw [StepG.node_mapNodes_listed he hw rfl _ h] at hst
    cases hst
  · rw [StepG.node_mapNodes_unlisted he hw rfl _ h] at hg hst
    exact h ⟨hg, by simp_all⟩

omit he hw in
theorem StepG.group_crossing_other {j : Nat} (hj : j ≠ g) : (m.crossing e g).group j = m.group j := by
  rw [StepG.crossing, StepG.group_tidy_other hj, StepG.group_mapNodes]

/-! ### Timeouts (R89, R90) -/

/-- The nodes that a timeout moves ramp, or queue behind a ramp that began on an earlier sample. -/
def Group.lateSt (x : Group) (n : Nat) : NodeSt := if x.ramp.all (fun r => decide (r.1 = n)) then .ramp else .queued

/-- The group after a timeout: its pending period is over, and a ramp runs in it. -/
def Group.late (x : Group) (n L : Nat) : Group := { tp := none, ramp := some (x.ramp.getD (n, L)) }

section
variable {t : Nat} (htp : (m.group g).tp = some t) (hn : t + e.tzc ≤ n)
include htp hn

omit he hw in
/-- A group that has waited T_zc samples, with no node that became pending on this one. -/
theorem StepG.timeout_eq : m.timeout e n [] g = if m.inGroup e g Node.timesOut = [] then m else
    ((m.mapNodes e (m.inGroup e g Node.timesOut) fun x => { x with st := (m.group g).lateSt n }).setGroup g
      ((m.group g).late n e.lramp)).tidy e g := by
  have hdue : (m.inGroup e g fun x => decide (x.st = .pending) && !x.hold) = m.inGroup e g Node.timesOut := rfl
  simp only [StepG.timeout, htp, Nat.not_lt.2 hn, hdue, List.filter_nil, List.contains_nil, Bool.not_false, List.filter_true,
    List.isEmpty_iff, List.isEmpty_nil, if_true, if_false]
  split_ifs
  · rfl
  · cases hr : (m.group g).ramp with
    | none => simp [Group.lateSt, Group.late, hr]
    | some r => simp [Group.lateSt, Group.late, hr]

/-- A timeout moves the nodes that it is for. -/
theorem StepG.node_timeout_listed (h : m.listed e g Node.timesOut k) :
    (m.timeout e n [] g).node e k = { m.node e k with st := (m.group g).lateSt n } := by
  rw [StepG.timeout_eq htp hn, if_neg (List.ne_nil_of_mem ((StepG.mem_inGroup_iff he hw rfl).2 h))]
  exact StepG.node_mapNodes_listed he hw rfl _ h

theorem StepG.node_timeout_unlisted (h : ¬ m.listed e g Node.timesOut k) : (m.timeout e n [] g).node e k = m.node e k := by
  rw [StepG.timeout_eq htp hn]
  split_ifs
  · rfl
  · exact StepG.node_mapNodes_unlisted he hw rfl _ h

/-- R90: where no ramp runs, the nodes of a timeout start one. -/
theorem StepG.timeout_ramps (hr : (m.group g).ramp = none) (h : m.listed e g Node.timesOut k) :
    (m.timeout e n [] g).node e k = { m.node e k with st := .ramp } ∧ ((m.timeout e n [] g).group g).ramp = some (n, e.lramp) := by
  have hst : (m.group g).lateSt n = .ramp := by rw [Group.lateSt, hr]; rfl
  have hk := StepG.node_mapNodes_listed he hw rfl (fun x => { x with st := .ramp }) h
  refine ⟨hst ▸ StepG.node_timeout_listed he hw htp hn h, ?_⟩
  rw [StepG.timeout_eq htp hn, if_neg (List.ne_nil_of_mem ((StepG.mem_inGroup_iff he hw rfl).2 h)), hst,
    StepG.tidy_moved_ramp (k := k) he hw _ ⟨?_, ?_⟩, Group.late, hr, Option.getD_none]
  · exact hk ▸ h.1 ▸ he.gk rfl
  · rw [hk]; rfl

/-- R90: behind a ramp they queue. -/
theorem StepG.timeout_queues {tr L : Nat} (hr : (m.group g).ramp = some (tr, L)) (htr : tr < n) (h : m.listed e g Node.timesOut k) :
    (m.timeout e n [] g).node e k = { m.node e k with st := .queued } := by
  have hst : (m.group g).lateSt n = .queued := by simp [Group.lateSt, hr, htr.ne]
  exact hst ▸ StepG.node_timeout_listed he hw htp hn h

/-- R90: a ramp that runs goes on. -/
theorem StepG.timeout_keeps_ramp {r : Nat × Nat} (hr : (m.group g).ramp = some r) (h : m.listed e g (Node.isIn .ramp) k) :
    ((m.timeout e n [] g).group g).ramp = some r := by
  have hk : ¬ m.listed e g Node.timesOut k := fun hl => by simp_all [StepG.listed]
  rw [StepG.timeout_eq htp hn]
  split_ifs
  · exact hr
  · rw [StepG.tidy_moved_ramp (k := k) he hw, Group.late, hr, Option.getD_some]
    rw [StepG.listed, StepG.node_mapNodes_unlisted he hw rfl _ hk]
    exact h

end

/-! ### Ends of ramps (R88–R90) -/

omit he hw in
/-- A ramp that has run: its nodes step, and the group has none. -/
theorem StepG.endRamp_run {tr L : Nat} (hr : (m.group g).ramp = some (tr, L)) (hn : tr + L ≤ n) :
    m.endRamp e n g = (m.mapNodes e (m.inGroup e g (Node.isIn .ramp)) Node.step).setGroup g { m.group g with ramp := none } := by
  simp only [StepG.endRamp, hr, hn, if_true]
  rfl

omit he hw in
/-- Queued nodes where no ramp runs. -/
theorem StepG.startQueued_idle (hr : (m.group g).ramp = none) : m.startQueued e n g = if m.inGroup e g (Node.isIn .queued) = [] then m else
    (m.mapNodes e (m.inGroup e g (Node.isIn .queued)) fun x => { x with st := .ramp }).setGroup g
      { m.group g with ramp := some (n, e.lramp) } := by
  have hq : (m.inGroup e g fun x => decide (x.st = .queued)) = m.inGroup e g (Node.isIn .queued) := rfl
  simp only [StepG.startQueued, hr, hq, Option.isNone_none, List.isEmpty_iff, true_and, ite_not]

/-- R90: queued nodes start the next ramp. -/
theorem StepG.startQueued_listed (hr : (m.group g).ramp = none) (h : m.listed e g (Node.isIn .queued) k) :
    (m.startQueued e n g).node e k = { m.node e k with st := .ramp } ∧
      ((m.startQueued e n g).group g).ramp = some (n, e.lramp) := by
  rw [StepG.startQueued_idle hr, if_neg (List.ne_nil_of_mem ((StepG.mem_inGroup_iff he hw rfl).2 h)), StepG.group_setGroup, if_pos rfl]
  exact ⟨StepG.node_mapNodes_listed he hw rfl _ h, rfl⟩

theorem StepG.startQueued_unlisted (hr : (m.group g).ramp = none) (h : ¬ m.listed e g (Node.isIn .queued) k) :
    (m.startQueued e n g).node e k = m.node e k := by
  rw [StepG.startQueued_idle hr]
  split_ifs
  · rfl
  · exact StepG.node_mapNodes_unlisted he hw rfl _ h

section
variable {tr L : Nat} (hr : (m.group g).ramp = some (tr, L)) (hn : tr + L ≤ n)
include hr hn

omit he in
theorem StepG.wf_endRamp : Cells.wf e.zero (m.endRamp e n g).nodes = true := by
  rw [StepG.endRamp_run hr hn]
  exact StepG.wf_mapNodes e m _ _ hw

omit he hw in
theorem StepG.endRamp_ramp_none : ((m.endRamp e n g).group g).ramp = none := by
  rw [StepG.endRamp_run hr hn, StepG.group_setGroup, if_pos rfl]

theorem StepG.node_endRamp_listed (h : m.listed e g (Node.isIn .ramp) k) : (m.endRamp e n g).node e k = (m.node e k).step := by
  rw [StepG.endRamp_run hr hn]
  exact StepG.node_mapNodes_listed he hw rfl _ h

theorem StepG.node_endRamp_unlisted (h : ¬ m.listed e g (Node.isIn .ramp) k) : (m.endRamp e n g).node e k = m.node e k := by
  rw [StepG.endRamp_run hr hn]
  exact StepG.node_mapNodes_unlisted he hw rfl _ h

/-- The end of a ramp leaves its nodes at their goals. -/
theorem StepG.node_rampEnd_ramp (h : m.listed e g (Node.isIn .ramp) k) :
    ((m.endRamp e n g).startQueued e n g).node e k = (m.node e k).step := by
  have hk := StepG.node_endRamp_listed he hw hr hn h
  have hidle : ¬ (m.endRamp e n g).listed e g (Node.isIn .queued) k := fun hl => by
    have hst := hl.2
    rw [hk] at hst
    cases hst
  rw [StepG.startQueued_unlisted he (StepG.wf_endRamp hw hr hn) (StepG.endRamp_ramp_none hr hn) hidle, hk]

/-- Its queued nodes start the next ramp. -/
theorem StepG.rampEnd_queued (h : m.listed e g (Node.isIn .queued) k) :
    ((m.endRamp e n g).startQueued e n g).node e k = { m.node e k with st := .ramp } ∧
      (((m.endRamp e n g).startQueued e n g).group g).ramp = some (n, e.lramp) := by
  have hk : (m.endRamp e n g).node e k = m.node e k :=
    StepG.node_endRamp_unlisted he hw hr hn fun hl => by simp_all [StepG.listed]
  rw [← hk]
  exact StepG.startQueued_listed he (StepG.wf_endRamp hw hr hn) (StepG.endRamp_ramp_none hr hn) (by rwa [StepG.listed, hk])

/-- The nodes of other groups stay. -/
theorem StepG.node_rampEnd_other (h : e.gk k (m.node e k) ≠ g) :
    ((m.endRamp e n g).startQueued e n g).node e k = m.node e k := by
  have hk : (m.endRamp e n g).node e k = m.node e k := StepG.node_endRamp_unlisted he hw hr hn fun hl => h hl.1
  rw [StepG.startQueued_unlisted he (StepG.wf_endRamp hw hr hn) (StepG.endRamp_ramp_none hr hn) fun hl => h (hk ▸ hl.1), hk]

end

end

/-! ### Tap handovers (R92) -/

section
variable (htap : (m.node e k).tap ≠ (m.node e k).ntap) (hst : (m.node e k).st = .idle) (hcur : (m.node e k).cur = 0)
include htap hst hcur

/-- A silent node takes its committed tap: it is idle where its target is 0, else pending. -/
theorem StepG.node_tapSwitch (j : Nat) : (m.tapSwitch e n k).1.node e j =
    if j = k then { m.node e k with tap := (m.node e k).ntap, st := if (m.node e k).tgt = 0 then .idle else .pending }
    else m.node e j := by
  rw [StepG.tapSwitch, ← StepG.node, if_pos ⟨htap, hst, hcur⟩]
  by_cases ht : (m.node e k).tgt = 0
  · rw [if_pos ht, if_pos ht, ← hst]
    exact StepG.node_setNode _ _
  · rw [if_neg ht, if_neg ht, StepG.node_setGroup]
    exact StepG.node_setNode _ _

/-- A silent node with a target waits in the group of its committed tap. -/
theorem StepG.tapSwitch_tp (ht : (m.node e k).tgt ≠ 0) (hg : e.gk k { m.node e k with tap := (m.node e k).ntap } = g) :
    ((m.tapSwitch e n k).1.group g).tp = some ((m.group g).tp.getD n) := by
  subst hg
  rw [StepG.tapSwitch, ← StepG.node, if_pos ⟨htap, hst, hcur⟩, if_neg ht, StepG.group_setGroup, if_pos rfl, Group.open]

end

end

/-! ### The commands (R86–R92) -/

/-- The state with the node memory and the group table stepped. -/
def State.stepped (s : State) (m : StepG) : State := s.setMere fun g => { g with step := m }

theorem State.stepped_frame (s : State) (m : StepG) : s.frame (s.stepped m) [.mere] := by simp [State.frame_iff, Part.same, State.stepped]

/-- A group lists no node of another group and none that fails the test. -/
theorem State.not_listed {s : State} {n g k : Nat} {p : Node → Bool} (h : s.nodeGroup n k ≠ g ∨ p (s.node k) = false) :
    ¬ s.mere.step.listed (s.eventEnv n) g p k :=
  fun ⟨hg, hp⟩ => h.elim (· hg) fun hf => Bool.false_ne_true (hf.symm.trans hp)

theorem State.wf_nodes {s : State} (h : s.nodesWf = true) : Cells.wf Node.reset s.mere.step.nodes = true := by
  rw [State.nodesWf, Bool.and_eq_true] at h
  exact h.1

theorem Node.timesOut_false {x : Node} (h : x.st ≠ .pending ∨ x.hold = true) : x.timesOut = false := by
  rcases h with h | h <;> simp [Node.timesOut, h]

section
variable {s : State} {g n : Nat} (hn : n < s.mereStamp)
include hn

theorem State.moveNodes_computed (f : StepEnv → StepG → StepG) : s.moveNodes n f = s.stepped (f (s.eventEnv n) s.mere.step) :=
  if_pos hn

theorem execNodeGroupZeroCrossing_computed (hc : (s.mere.step.group g).canCross n = true) :
    exec (.nodeGroupZeroCrossing g n) s = .next (s.stepped (s.mere.step.crossing (s.eventEnv n) g)) := by
  show execNodeGroupZeroCrossing g n s = _
  rw [execNodeGroupZeroCrossing, State.moveNodes_computed hn, if_pos hc]

theorem execNodeGroupTimeout_computed :
    exec (.nodeGroupTimeout g n) s = .next (s.stepped (s.mere.step.timeout (s.eventEnv n) n [] g)) := by
  show execNodeGroupTimeout g n s = _
  rw [execNodeGroupTimeout, State.moveNodes_computed hn]

theorem execNodeRampEnd_computed :
    exec (.nodeRampEnd g n) s = .next (s.stepped ((s.mere.step.endRamp (s.eventEnv n) n g).startQueued (s.eventEnv n) n g)) := by
  show execNodeRampEnd g n s = _
  rw [execNodeRampEnd, State.moveNodes_computed hn]

theorem execTapHandoverSwitch_computed (d x : Nat) :
    exec (.tapHandoverSwitch d x n) s = .next (s.stepped (s.mere.step.tapSwitch (s.eventEnv n) n (d * 4096 + x)).1) := by
  show execTapHandoverSwitch d x n s = _
  rw [execTapHandoverSwitch, State.moveNodes_computed hn]

end

/-- Settles O10: each command by the stepping it runs, node by node and for the group. -/
theorem nodeGroupsStepTimeOutAndRamp : Obligations.NodeGroupsStepTimeOutAndRamp := by
  unfold Obligations.NodeGroupsStepTimeOutAndRamp
  refine ⟨fun s g n hn hc hw => ?_, fun s g n hn hw => ?_⟩
  all_goals
    have he := s.eventEnv_byTap n
    have hw := State.wf_nodes hw
  · exact ⟨_, execNodeGroupZeroCrossing_computed hn hc, s.stepped_frame _, fun k hg hk => StepG.node_crossing_listed he hw ⟨hg, hk⟩,
      fun k hk => StepG.node_crossing_unlisted he hw (State.not_listed hk), StepG.crossing_tp_none he hw,
      fun j hj => StepG.group_crossing_other hj⟩
  refine ⟨fun p htp hp hr => ?_, fun p tr L htp hp hr htr => ?_, fun tr L hr hL => ?_, fun d x => ?_⟩
  · exact ⟨_, execNodeGroupTimeout_computed hn, s.stepped_frame _,
      fun k hg hst hh => StepG.timeout_ramps he hw htp hp hr ⟨hg, (Node.timesOut_iff _).2 ⟨hst, hh⟩⟩,
      fun k hk => StepG.node_timeout_unlisted he hw htp hp (State.not_listed (hk.imp_right Node.timesOut_false))⟩
  · exact ⟨_, execNodeGroupTimeout_computed hn, s.stepped_frame _,
      fun k hg hst hh => StepG.timeout_queues he hw htp hp hr htr ⟨hg, (Node.timesOut_iff _).2 ⟨hst, hh⟩⟩,
      fun k hk => StepG.node_timeout_unlisted he hw htp hp (State.not_listed (hk.imp_right Node.timesOut_false)),
      fun k hg hst => StepG.timeout_keeps_ramp he hw htp hp hr ⟨hg, (Node.isIn_iff _ _).2 hst⟩⟩
  · exact ⟨_, execNodeRampEnd_computed hn, s.stepped_frame _,
      fun k hg hst => StepG.node_rampEnd_ramp he hw hr hL ⟨hg, (Node.isIn_iff _ _).2 hst⟩,
      fun k hg hst => StepG.rampEnd_queued he hw hr hL ⟨hg, (Node.isIn_iff _ _).2 hst⟩,
      fun k hg => StepG.node_rampEnd_other he hw hr hL hg⟩
  · intro k htap hst hcur
    have hnode := StepG.node_tapSwitch (m := s.mere.step) (e := s.eventEnv n) (n := n) htap hst hcur
    have hk : (s.stepped (s.mere.step.tapSwitch (s.eventEnv n) n k).1).node k =
        { s.node k with tap := (s.node k).ntap, st := if (s.node k).tgt = 0 then .idle else .pending } := (hnode k).trans (if_pos rfl)
    refine ⟨_, execTapHandoverSwitch_computed hn d x, ?_⟩
    rw [hk]
    exact ⟨rfl, rfl, rfl, rfl, hcur, fun ht => StepG.tapSwitch_tp htap hst hcur ht (he.gk rfl),
      fun j hj => (hnode j).trans (if_neg hj), s.stepped_frame _⟩

end Sys2Proof.Machine
end

section
/-! PROOFS. Fault continuity of the Mere (R101–R105): recomputed segments, corrected records and tables, restored fields; O11. -/

namespace Sys2Proof.Machine

open Fmt

/-! ### Changes of the Mere that an event tells -/

theorem State.setMere_raise_mere (s : State) (f : MereG → MereG) (ev : Ev) (part obj val : Nat) :
    ((s.setMere f).raise ev part obj val).mere = f s.mere := by simp

/-- A change of the Mere, told by an event. -/
theorem State.setMere_told (s : State) (f : MereG → MereG) (ev : Ev) (part obj val : Nat) :
    s.told ((s.setMere f).raise ev part obj val) ev part obj val ∧
      s.frame ((s.setMere f).raise ev part obj val) [.mere, .ev, .sessions] := by
  refine ⟨State.raise_told s _ ev part obj val (by simp) (by simp) (by simp) rfl, ?_⟩
  exact State.frame_trans (a := [.mere]) (by simp [State.frame_iff, Part.same]) ((s.setMere f).raise_frame ev part obj val)

/-! ### Recomputed segments (R101–R103) -/

/-- A lane after a detection in block `blk`, with a spare lane free or not: it remembers the block, and is due to retire once it meets the
threshold while a spare is free. -/
def Lane.detected (x : Lane) (blk : Nat) (spare : Bool) : Lane :=
  let ds := (blk :: x.detections).filter (fun b => decide (blk < b + 16))
  { x with detections := ds, due := x.due || (spare && reached blk ds) }

theorem Lane.mem_detected (x : Lane) (blk : Nat) (spare : Bool) : blk ∈ (x.detected blk spare).detections := by
  simp [Lane.detected]

/-- The Mere after a segment of a lane is recomputed. -/
def MereG.recomputed (m : MereG) (lane blk : Nat) : MereG :=
  { m with lanes := Cells.put Lane.reset m.lanes lane ((m.lane lane).detected blk m.spareLane.isSome), recompute := satInc m.recompute 1 }

theorem MereG.lane_recomputed (m : MereG) (lane blk : Nat) :
    (m.recomputed lane blk).lane lane = (m.lane lane).detected blk m.spareLane.isSome := Cells.get_put_same _ _ _ _

theorem execMereSegmentDetection_spare {s : State} {lane : Nat} {fits : Bool} (hon : s.mereOn = true)
    (hl : s.mere.laneMap.contains lane = true) (hsp : s.mere.spareLane.isSome = true) :
    exec (.mereSegmentDetection lane fits) s =
      .next ((s.setMere fun m => m.recomputed lane s.blockNo).raise .mereRecompute 0 lane 0) := by
  have hno : s.mere.spareLane.isNone = false := by rw [Option.isNone_eq_false_iff]; exact hsp
  show execMereSegmentDetection lane fits s = _
  simp only [execMereSegmentDetection, hon, hl, hno, Bool.not_true, Bool.false_eq_true, false_or, if_false, false_and, and_false]
  rfl

/-! ### Corrected errors (R104) -/

theorem satInc_satInc (c a b : Nat) : satInc (satInc c a) b = satInc c (a + b) := by
  unfold satInc; split_ifs <;> omega

theorem satInc_zero {c : Nat} (h : c ≤ 0xFFFFFFFF) : satInc c 0 = c := by
  unfold satInc; split_ifs <;> omega

theorem satInc_le (c k : Nat) : satInc c k ≤ 0xFFFFFFFF := by
  unfold satInc; split_ifs <;> omega

theorem State.corrected_mere (s : State) (part d : Nat) :
    (s.corrected part d).mere = { s.mere with corrected := satInc s.mere.corrected 1 } := by
  simp [State.corrected]

theorem State.corrected_frame (s : State) (part d : Nat) : s.frame (s.corrected part d) [.mere, .ev, .sessions] :=
  (s.setMere_told _ .nodeCorrected part d 0).2

/-- Each correction of a run of them counts. -/
theorem State.corrections_mere {α : Type} (part dst : State → α → Nat) (xs : List α) (s : State)
    (hc : s.mere.corrected ≤ 0xFFFFFFFF) :
    (xs.foldl (fun u x => u.corrected (part u x) (dst u x)) s).mere =
      { s.mere with corrected := satInc s.mere.corrected xs.length } := by
  induction xs generalizing s with
  | nil => rw [List.foldl_nil, List.length_nil, satInc_zero hc]
  | cons x xs ih =>
    rw [List.foldl_cons, ih _ (by rw [State.corrected_mere]; exact satInc_le _ _), State.corrected_mere, List.length_cons,
      satInc_satInc, Nat.add_comm]

theorem execNodeCorrected_in {s : State} {d x : Nat} (hon : s.mereOn = true) (hin : s.nodeIn d x = true) :
    exec (.nodeCorrected d x) s = .next (s.corrected (s.nodeOwner d x) d) := if_pos ⟨hon, hin⟩

/-- MERE_SCRUB_PASS over records of nodes that the device has. -/
theorem mereScrubPass_counts {s : State} {nodes : List Nat} {tables : Nat} (hon : s.mereOn = true)
    (hn : ∀ k ∈ nodes, s.nodeIn (keyDst k) (keySrc k) = true) (hc : s.mere.corrected ≤ 0xFFFFFFFF) :
    ∃ t, exec (.mereScrubPass nodes tables) s = .next t ∧
      t.mere = { s.mere with scrubs := s.mere.scrubs + 1, corrected := satInc s.mere.corrected (nodes.length + tables) } ∧
      s.frame t [.mere, .ev, .sessions] := by
  have hexec : exec (.mereScrubPass nodes tables) s = execMereScrubPass nodes tables s := rfl
  rw [hexec, execMereScrubPass, if_pos hon, List.filter_eq_self.2 hn]
  have hrecords := State.corrections_mere (fun u k => u.nodeOwner (keyDst k) (keySrc k)) (fun _ k => keyDst k) nodes s hc
  have htables := State.corrections_mere (fun _ _ => 0) (fun _ _ => 0) (List.range tables) _
    ((congrArg MereG.corrected hrecords).trans_le (satInc_le _ _))
  refine ⟨_, rfl, ?_, ?_⟩
  · rw [(State.setMere_fields _ _).1, htables, hrecords, satInc_satInc, List.length_range]
  · have hset : ∀ u : State, u.frame (u.setMere fun m => { m with scrubs := m.scrubs + 1 }) [.mere, .ev, .sessions] := fun u => by
      simp [State.frame_iff, Part.same]
    exact State.frame_next (State.frame_next (State.frame_foldl (fun u k => u.corrected_frame _ _) nodes s)
      (State.frame_foldl (fun u _ => u.corrected_frame _ _) (List.range tables) _)) (hset _)

/-! ### Restored fields (R105) -/

/-- The gain that a node applied on the sample before the one that the Mere takes next. -/
def State.gainBefore (s : State) (k : Nat) : Int :=
  (s.node k).applied (s.groupAt (s.nodeGroup s.mereStamp k)) (s.mereStamp - 1)

/-- A node's record after a field of it was restored. -/
def State.restoredNode (s : State) (k field : Nat) : Node :=
  ((s.node k).restore (s.gainBefore k) field (Cells.get (0, 2) s.mere.image k) (s.stagedNode k)).1

theorem StepG.nodes_ite_setGroup {p : Prop} [Decidable p] (m : StepG) (g : Nat) (x : Group) :
    (if p then m.setGroup g x else m).nodes = m.nodes := by
  split_ifs <;> rfl

/-! Each field of `Node.restore` by itself: 0 the target, 1 the current gain, 2 the staged fields, 3 taps or state. -/

section
variable {x : Node} {prev : Int} {image : Int × Nat} {staged : Option (Int × Nat)}

theorem Node.restore_target_idle (h : x.st = .idle) :
    (x.restore prev 0 image staged).1 = { x with tgt := image.1, cur := image.1 } := by simp [Node.restore, h]

theorem Node.restore_target_ramp (h : x.st = .ramp) :
    (x.restore prev 0 image staged).1 = { x with cur := prev, tgt := image.1, st := .pending } := by simp [Node.restore, h]

theorem Node.restore_target_waiting (h : x.st = .pending ∨ x.st = .queued) :
    (x.restore prev 0 image staged).1 = { x with tgt := image.1 } := by
  rcases h with h | h <;> simp [Node.restore, h]

theorem Node.restore_gain_idle (h : x.st = .idle) : (x.restore prev 1 image staged).1 = { x with cur := x.tgt } := by
  simp [Node.restore, h]

theorem Node.restore_gain_moving (h : x.st ≠ .idle) :
    (x.restore prev 1 image staged).1 = { x with cur := 0, tap := x.ntap, st := .pending, hold := true } := by
  simp [Node.restore, h]

theorem Node.restore_staged :
    (x.restore prev 2 image staged).1 = { x with stg := (staged.map (·.1)).getD stgNone, stap := (staged.map (·.2)).getD 2 } := rfl

theorem Node.restore_tap_idle (h : x.st = .idle) :
    (x.restore prev 3 image staged).1 = { x with tap := image.2, ntap := image.2 } := by
  simp [Node.restore, h]

theorem Node.restore_tap_moving (h : x.st ≠ .idle) :
    (x.restore prev 3 image staged).1 = { x with tap := image.2, ntap := image.2, st := .pending, hold := true } := by
  simp [Node.restore, h]

end

/-- NODE_RESTORED writes the restored record, counts and tells. -/
theorem nodeRestored_restores {s : State} {d x field : Nat} (hon : s.mereOn = true) (hin : s.nodeIn d x = true) (hf : field < 4) :
    ∃ t, exec (.nodeRestored d x field) s = .next t ∧
      (∀ j, t.node j = if j = nodeKey d x then s.restoredNode (nodeKey d x) field else s.node j) ∧
      t.mere.restored = satInc s.mere.restored 1 ∧ s.told t .nodeRestored (s.nodeOwner d x) d 0 ∧ s.frame t [.mere, .ev, .sessions] := by
  have hexec : exec (.nodeRestored d x field) s = execNodeRestored d x field s := rfl
  rw [hexec, execNodeRestored, if_pos ⟨hon, hin, hf⟩]
  refine ⟨_, rfl, fun j => ?_, ?_, s.setMere_told _ .nodeRestored _ d 0⟩
  · rw [State.node, State.setMere_raise_mere, StepG.tidy_nodes, StepG.nodes_ite_setGroup]
    exact Cells.get_put _ _ _ _ _
  · rw [State.setMere_raise_mere]

/-- Settles O11: detections and corrections by what they count and tell, a restored field by the record it leaves. -/
theorem mereCorrectsAndFieldsAreRestored : Obligations.MereCorrectsAndFieldsAreRestored := by
  unfold Obligations.MereCorrectsAndFieldsAreRestored
  refine ⟨fun s hon => ⟨fun lane fits hl hsp => ?_, fun d x hin => ?_, fun nodes tables hn hc => mereScrubPass_counts hon hn hc⟩,
    fun s d x f hon hin hf _ => ?_⟩
  · obtain ⟨htold, hframe⟩ := s.setMere_told (fun m => m.recomputed lane s.blockNo) .mereRecompute 0 lane 0
    refine ⟨_, execMereSegmentDetection_spare hon hl hsp, ?_⟩
    rw [State.setMere_raise_mere, MereG.lane_recomputed]
    exact ⟨rfl, rfl, Lane.mem_detected _ _ _, rfl, htold, hframe⟩
  · exact ⟨_, execNodeCorrected_in hon hin, s.corrected_mere _ _, s.setMere_told _ .nodeCorrected _ d 0⟩
  · intro k img staged
    obtain ⟨t, ht, hnodes, hcount, htold, hframe⟩ := nodeRestored_restores hon hin hf
    have hk : t.node k = ((s.node k).restore (s.gainBefore k) f img staged).1 := (hnodes k).trans (if_pos rfl)
    refine ⟨t, ht, ?_, ?_, ?_, ?_, ?_, ?_, ?_, ?_, fun j hj => (hnodes j).trans (if_neg hj), hcount, htold, hframe⟩
    · rintro h rfl; exact hk.trans (Node.restore_target_idle h)
    · rintro h rfl; exact hk.trans (Node.restore_gain_idle h)
    · rintro h rfl; exact hk.trans (Node.restore_tap_idle h)
    · rintro h rfl; exact ⟨_, hk.trans (Node.restore_target_ramp h)⟩
    · rintro h rfl; exact hk.trans (Node.restore_target_waiting h)
    · rintro h rfl; exact hk.trans (Node.restore_gain_moving h)
    · rintro h rfl; exact hk.trans (Node.restore_tap_moving h)
    · rintro rfl; exact hk.trans (Node.restore_staged)

end Sys2Proof.Machine
end

section
/-! PROOFS. Stage sets on their way to a commit (R107, R125): requests for a session's own set, sets read back after the changes that the
scene engine makes, opening beyond the limits, and cancelling; O41, O40. -/

namespace Sys2Proof.Machine

/-! ### A request for a session's own set -/

section
variable {s u : State} {r : Req} {id cmd e : Nat} {q : Session} {x : StageSet} {a : Ans}
  {act : Session → State → StageSet → State × Option Ans}

/-- The set of a request for it. -/
theorem State.admitsSet_set (h : s.admitsSet r id q x) : s.stageSet? id = some x := by
  obtain ⟨-, -, hx, -⟩ := h
  exact hx

/-- A request for a set is a request of its session. -/
theorem State.admitsSet_admits (h : s.admitsSet r id q x) : s.admits r 1 q := And.left h

/-- On a chip that serves audio commands the action of a session's command runs on the set that it opened. -/
theorem State.serveAudio_own (h : s.admitsSet r id q x) : s.serveAudio r cmd (fun q s => s.withSet q id (act q s)) =
    s.serve r cmd 1 (fun q s => s.withSet q id (act q s)) := by
  obtain ⟨hq, hserved, -⟩ := h
  exact State.serveAudio_served hserved hq

/-- A command on the session's own set that is answered at once. -/
theorem State.ownSet_answered (h : s.admitsSet r id q x) (ha : act (q.accept r.seq) (s.admitted r) x = (u, some a)) :
    s.serveAudio r cmd (fun q s => s.withSet q id (act q s)) = u.reply r cmd a := by
  rw [State.serveAudio_own h]
  exact State.serve_answered (State.admitsSet_admits h) ((State.withSet_own h _).trans ha)

/-- A command on the session's own set that is answered later. -/
theorem State.ownSet_waits (h : s.admitsSet r id q x) (ha : act (q.accept r.seq) (s.admitted r) x = (u, none)) :
    s.serveAudio r cmd (fun q s => s.withSet q id (act q s)) = u := by
  rw [State.serveAudio_own h, State.serve_admits (State.admitsSet_admits h), (State.withSet_own h _).trans ha]

/-- A command on the session's own set that is refused. -/
theorem State.ownSet_refused (h : s.admitsSet r id q x) (ha : act (q.accept r.seq) (s.admitted r) x = (s.admitted r, Ans.fail e)) :
    (s.serveAudio r cmd (fun q s => s.withSet q id (act q s))).answers r cmd e 0 [] ∧
      s.frame (s.serveAudio r cmd (fun q s => s.withSet q id (act q s))) replyParts := by
  rw [State.serveAudio_own h]
  exact State.serve_refused (State.admitsSet_admits h) ((State.withSet_own h _).trans ha)

end

@[simp] theorem State.B_admitted (s : State) (r : Req) : (s.admitted r).B = s.B := rfl

/-! ### Sets read back -/

/-- A set read after a change of every set that keeps the ids. -/
theorem State.stageSet?_map {s t : State} {f : StageSet → StageSet} (hf : ∀ x, (f x).id = x.id) (h : t.scene.sets = s.scene.sets.map f)
    (j : Nat) : t.stageSet? j = (s.stageSet? j).map f := by
  rw [State.stageSet?, h, List.find?_map, State.stageSet?]
  congr 1
  exact List.find?_congr (fun x _ => by simp [hf])

/-- A set is read from the table of sets alone. -/
theorem State.stageSet?_congr {s t : State} (h : t.scene.sets = s.scene.sets) (j : Nat) : t.stageSet? j = s.stageSet? j := by
  rw [State.stageSet?, h, State.stageSet?]

@[simp] theorem State.stageSet?_freePlane (s : State) (i j : Nat) : (s.freePlane i).stageSet? j = s.stageSet? j := by
  refine State.stageSet?_congr ?_ j
  unfold State.freePlane
  split <;> simp

/-- A change of the scene engine that leaves MSTORE. -/
theorem State.setScene_frame {s : State} {f : SceG → SceG} (h : (f s.scene).mstore = s.scene.mstore) : s.frame (s.setScene f) [.scene] := by
  simp [State.frame_iff, Part.same, h]

/-- Freeing the plane touches the matrix and the scene engine. -/
theorem State.freePlane_frame (s : State) (i : Nat) : s.frame (s.freePlane i) [.scene, .mere] := by
  unfold State.freePlane
  split
  · simp [State.frame_iff, Part.same]
  · exact s.frame_refl _

/-- The holder of the plane after it was freed from a set. -/
theorem State.freePlane_holder_eq (s : State) (i : Nat) :
    (s.freePlane i).scene.holder = if s.scene.holder = some i then none else s.scene.holder := by
  unfold State.freePlane
  split <;> simp

/-- One set changed, and what follows leaves the sets as they then are. -/
theorem State.setBecomes_updSet {s t : State} {x : StageSet} {f : StageSet → StageSet} (hx : s.stageSet? x.id = some x)
    (hf : ∀ y, (f y).id = y.id) (ht : ∀ j, t.stageSet? j = (s.updSet x.id f).stageSet? j) : s.setBecomes t x.id (f x) := by
  have hu := fun j => s.stageSet?_updSet x.id j f (fun y h => (hf y).trans h)
  refine ⟨?_, fun j hj => ?_⟩
  · rw [ht, hu, if_pos rfl, hx, Option.map_some]
  · rw [ht, hu, if_neg hj]

/-- A set changed in two steps. -/
theorem State.setBecomes_trans {s t u : State} {id : Nat} {y z : StageSet} (h : s.setBecomes u id y) (k : u.setBecomes t id z) :
    s.setBecomes t id z :=
  ⟨k.1, fun j hj => (k.2 j hj).trans (h.2 j hj)⟩

/-- The state that has taken a request has the sets of the state before. -/
theorem State.setBecomes_of_admitted {s t : State} {r : Req} {id : Nat} {y : StageSet} (h : (s.admitted r).setBecomes t id y) :
    s.setBecomes t id y :=
  ⟨h.1, fun j hj => by rw [h.2 j hj, State.stageSet?_admitted]⟩

/-- One set changed, and the others note that their configuration changes at sample c (R124). -/
theorem State.setChangesAt_of_changedAt {s t u : State} {id c : Nat} {y : StageSet} (hu : s.setBecomes u id y)
    (ht : t.scene.sets = (u.scene.changedAt c id).sets) : s.setChangesAt t id c y := by
  obtain ⟨hy, hother⟩ := hu
  have hread := State.stageSet?_map (s := u) (t := t) (f := fun x => if x.id = id then x else
    { x with moved := some (x.moved.elim c (min c)) }) (fun x => by split <;> rfl) ht
  refine ⟨?_, fun j hj => ?_⟩
  · rw [hread, hy, Option.map_some, if_pos (State.stageSet?_id hy)]
  · rw [hread, hother j hj]
    cases hz : s.stageSet? j with
    | none => rfl
    | some z => rw [Option.map_some, Option.map_some, if_neg (fun h => hj ((State.stageSet?_id hz).symm.trans h))]

/-! ### The limits of R107 -/

/-- Beyond the limits no set opens. -/
theorem stageOpen_full {s : State} {r : Req} {q : Session} {attrs : Option Attrs} (hq : s.admits r 1 q) (ha : s.audioServed = true)
    (hok : (attrs.getD Attrs.dflt).ok = true)
    (hfull : 32 ≤ (s.scene.sets.filter StageSet.live).length ∨
      4 ≤ ((s.scene.sets.filter StageSet.live).filter (fun x => decide (x.sid = r.sid))).length) :
    s.refuses (.stageOpen r attrs) r 0x0101 Err.capacity := by
  intro hask
  refine ⟨_, State.ifAsked_asked hask, ?_⟩
  rw [State.serveAudio_served ha hq]
  refine State.serve_refused hq ?_
  simp only [hok, Session.accept_fields, State.admits_sid hq, State.admitted_fields, hfull, Bool.not_true, Bool.false_eq_true, if_false, if_true]

/-- Settles O41: below both limits a set opens, beyond either none does. -/
theorem stageSetLimits : Obligations.StageSetLimits := by
  unfold Obligations.StageSetLimits
  intro s r q hq ha
  have hok : ((none : Option Attrs).getD Attrs.dflt).ok = true := by decide
  refine ⟨fun hask h32 h4 => ?_, stageOpen_full hq ha hok⟩
  obtain ⟨t, id, hexec, hans, -⟩ := stageOpen_opens hq ha hask hok h32 h4
  exact ⟨t, id, hexec, hans⟩

/-! ### Cancelling (R125) -/

/-- A cancel before the sets note the change. -/
def State.uncommitted (s : State) (x : StageSet) : State :=
  (s.updSet x.id (fun y => { y with st := .checked, commit := none })).releasePlane x

section
variable {s : State} {x : StageSet}

theorem State.cancelSet_eq {c : Nat} (hc : x.commit = some c) :
    s.cancelSet x = (s.uncommitted x).setScene (fun g => g.changedAt c x.id) := by
  rw [State.cancelSet, hc]
  rfl

theorem State.releasePlane_frame (s : State) (x : StageSet) : s.frame (s.releasePlane x) [.scene, .mere] :=
  State.frame_ite (State.frame_next (s.freePlane_frame _) (State.frame_mono (State.updSet_frame _ _ _) (by decide))) (s.frame_refl _)

theorem State.releasePlane_holder (s : State) (x : StageSet) :
    (s.releasePlane x).scene.holder = if s.scene.holder = some x.id then none else s.scene.holder := by
  unfold State.releasePlane
  split
  · next h => simp [State.freePlane_holder_eq, h]
  · rfl

/-- A set whose plane is released changes in what it says of the plane only. -/
theorem State.releasePlane_set {y : StageSet} (hid : y.id = x.id) (hy : s.stageSet? y.id = some y) :
    ∃ p w, s.setBecomes (s.releasePlane x) y.id { y with planeIn := p, waiting := w } := by
  unfold State.releasePlane
  rw [← hid]
  split
  · have hfree : (s.freePlane y.id).stageSet? y.id = some y := by rw [State.stageSet?_freePlane, hy]
    have hset := State.setBecomes_updSet (f := fun y => { y with planeIn := false, waiting := y.hasNodes }) hfree (fun _ => rfl) (fun _ => rfl)
    exact ⟨_, _, State.setBecomes_trans ⟨hfree, fun j _ => s.stageSet?_freePlane y.id j⟩ hset⟩
  · exact ⟨y.planeIn, y.waiting, hy, fun _ _ => rfl⟩

theorem State.uncommitted_set (hx : s.stageSet? x.id = some x) :
    ∃ p w, s.setBecomes (s.uncommitted x) x.id { x with st := .checked, commit := none, planeIn := p, waiting := w } := by
  have h1 := State.setBecomes_updSet (f := fun y => { y with st := .checked, commit := none }) hx (fun _ => rfl) (fun _ => rfl)
  obtain ⟨p, w, h2⟩ := State.releasePlane_set (x := x) (y := { x with st := .checked, commit := none }) rfl h1.1
  exact ⟨p, w, State.setBecomes_trans h1 h2⟩

theorem State.uncommitted_frame (s : State) (x : StageSet) : s.frame (s.uncommitted x) [.scene, .mere] :=
  State.frame_next (State.frame_mono (State.updSet_frame _ _ _) (by decide)) (State.releasePlane_frame _ _)

theorem State.uncommitted_holder (s : State) (x : StageSet) :
    (s.uncommitted x).scene.holder = if s.scene.holder = some x.id then none else s.scene.holder := by
  rw [State.uncommitted, State.releasePlane_holder]
  simp

end

section
variable {s : State} {r : Req} {id c : Nat} {q : Session} {x : StageSet}

/-- STAGE_CANCEL early enough. -/
theorem stageCancel_early (h : s.admitsSet r id q x) (hst : x.st = .scheduled) (hc : x.commit = some c)
    (hask : s.asks r (.stageCancel r id) = true) (hearly : s.mcc + 2 * s.B < c) :
    exec (.stageCancel r id) s = .next (((s.admitted r).cancelSet x).reply r 0x010B ⟨Err.ok, 0, []⟩) := by
  show execStageCancel r id s = _
  rw [execStageCancel, State.ifAsked_asked hask]
  refine congrArg _ (State.ownSet_answered (act := fun _ s x => _) h ?_)
  simp only [hst, hc, State.admitted_fields, State.B_admitted, hearly, if_true]
  rfl

/-- STAGE_CANCEL too late. -/
theorem stageCancel_late (h : s.admitsSet r id q x) (hst : x.st = .scheduled) (hc : x.commit = some c) (hlate : c ≤ s.mcc + 2 * s.B) :
    s.refuses (.stageCancel r id) r 0x010B Err.late := by
  refine fun hask => ⟨_, State.ifAsked_asked hask, State.ownSet_refused (act := fun _ s x => _) h ?_⟩
  simp only [hst, hc, State.admitted_fields, State.B_admitted, Nat.not_lt.2 hlate, if_false]

/-- A request that is refused leaves the sets as they are, and so does one that its message does not ask for. -/
theorem State.ifAsked_refused_set {i : Instr} {t : State} {cmd e : Nat} (hi : exec i s = s.ifAsked r i t) (h : s.refuses i r cmd e) (j : Nat) :
    ∃ t, exec i s = .next t ∧ t.stageSet? j = s.stageSet? j := by
  by_cases hask : s.asks r i = true
  · obtain ⟨t, hexec, -, hframe⟩ := h hask
    exact ⟨t, hexec, State.stageSet?_congr (congrArg SceG.sets (State.scene_of_frame hframe (by decide) (by decide))) j⟩
  · exact ⟨s, by rw [hi, State.ifAsked, if_neg hask], rfl⟩

end

/-- Settles O40: the cancelled set by the state before the others note the change; a refused cancel leaves it to its commit. -/
theorem cancelUntilTwoBlocksBefore : Obligations.CancelUntilTwoBlocksBefore := by
  unfold Obligations.CancelUntilTwoBlocksBefore
  intro s r q id c x h hst hc
  have hx := State.admitsSet_set h
  obtain rfl : x.id = id := State.stageSet?_id hx
  have hadm : (s.admitted r).stageSet? x.id = some x := by rw [State.stageSet?_admitted, hx]
  obtain ⟨p, w, hset⟩ := State.uncommitted_set hadm
  refine ⟨fun hask hearly => ?_, fun hlate => ⟨stageCancel_late h hst hc hlate, ?_, fun u hl hid hdue => ?_⟩⟩
  · have hsets : ((s.admitted r).cancelSet x).scene.sets = (((s.admitted r).uncommitted x).scene.changedAt c x.id).sets := by
      simp [State.cancelSet_eq hc]
    have hholder : ((s.admitted r).cancelSet x).scene.holder = if s.scene.holder = some x.id then none else s.scene.holder := by
      simpa [State.cancelSet_eq hc, SceG.changedAt] using State.uncommitted_holder (s.admitted r) x
    have hframe : (s.admitted r).frame ((s.admitted r).cancelSet x) [.scene, .mere] := by
      rw [State.cancelSet_eq hc]
      exact State.frame_next (State.uncommitted_frame _ _) (State.frame_mono (State.setScene_frame rfl) (by decide))
    exact ⟨_, _, stageCancel_early h hst hc hask hearly, State.reply_answers_nil _ _,
      State.setChangesAt_of_changedAt (State.setBecomes_of_admitted hset) (by simpa using hsets), rfl, rfl, rfl, by simpa using hholder,
      State.request_frame (by decide) (State.frame_mono hframe (by decide)) _⟩
  · obtain ⟨t, hexec, ht⟩ := State.ifAsked_refused_set rfl (stageCancel_late h hst hc hlate) x.id
    exact ⟨t, hexec, ht.trans hx⟩
  · refine ⟨_, ?_, rfl, fun y hy hyid => (State.commitSet_sets _ _ _ _ _ _ y hy hyid).1, State.commitSet_marks _ _ _ _ _ _⟩
    rw [execCommitApplied_set hl hid hdue, hc]
    rfl

end Sys2Proof.Machine
end

section
/-! PROOFS. The staged plane passed on, checks, co-signatures, reports and discarding (R106, R110, R112, R118, R121, R132); O38. -/

namespace Sys2Proof.Machine

/-! ### The plane passed on (R110, R132) -/

section
variable {s : State} {id : Nat}

/-- The free plane is loaded with the next armed cue's scene. -/
theorem State.loadCue_scene {n scope : Nat} (hh : s.scene.holder = none) (hc : s.nextNodeCue = some (.scene n scope)) :
    s.loadCue = (s.setScene (fun g => { g with holder := some cueHolder })).stagePlane (s.cueAdds (.scene n scope)) := by
  simp only [State.loadCue, hh, hc, Option.isSome_none, Bool.false_eq_true, if_false]

/-- PLANE_READY with an armed cue that needs the plane. -/
theorem execPlaneReady_cue {w : CueWhat} (hh : s.scene.holder = none) (hc : s.nextNodeCue = some w) : exec .planeReady s = .next s.loadCue := by
  show execPlaneReady s = _
  simp only [execPlaneReady, hh, hc, Option.isNone_none, Option.isSome_some, and_self, if_true]

/-- The sets that wait for the plane. -/
theorem State.mem_planeQueue {j : Nat} : j ∈ s.planeQueue ↔ ∃ y ∈ s.scene.sets, y.waiting = true ∧ y.live = true ∧ y.id = j := by
  simp [State.planeQueue, and_assoc]

/-- PLANE_READY with no such cue: the waiting set with the lowest id. -/
theorem execPlaneReady_set (hh : s.scene.holder = none) (hc : s.nextNodeCue = none) (hid : id ∈ s.planeQueue)
    (hmin : ∀ j ∈ s.planeQueue, id ≤ j) : exec .planeReady s = .next ((s.givePlane id).raise .planeReady 0 id 0) := by
  have hlow : s.planeQueue.min? = some id := List.min?_eq_some_iff.2 ⟨hid, hmin⟩
  show execPlaneReady s = _
  simp only [execPlaneReady, hh, hc, Option.isSome_none, Bool.false_eq_true, and_false, if_false]
  cases hp : s.planeQueue with
  | nil => rw [hp] at hid; cases hid
  | cons i rest =>
    rw [hp, List.min?_cons', Option.some.injEq] at hlow
    simp only [hlow]

/-- An occurrence after changes elsewhere tells what it tells in the state before them. -/
theorem State.raise_told_of_frame {u : State} {l : List Part} (h : s.frame u l) (hl : ∀ p ∈ [Part.ev, .sessions, .mcc, .power], p ∉ l)
    (ev : Ev) (part obj val : Nat) : s.told (u.raise ev part obj val) ev part obj val :=
  State.raise_told s u ev part obj val (h .ev (hl _ (by decide))) (h .sessions (hl _ (by decide))) (h .mcc (hl _ (by decide)))
    (State.legacy_of_straps (congrArg PowerG.straps (h .power (hl _ (by decide)))))

theorem planeReady_cue {n scope : Nat} (hh : s.scene.holder = none) (hc : s.nextNodeCue = some (.scene n scope)) :
    ∃ t, exec .planeReady s = .next t ∧ t.scene = { s.scene with holder := some cueHolder } ∧ s.frame t [.scene, .mere] := by
  refine ⟨_, execPlaneReady_cue hh hc, ?_, ?_⟩ <;> rw [State.loadCue_scene hh hc]
  · simp
  · exact State.frame_trans (State.setScene_frame rfl) (State.stagePlane_frame _ _)

theorem planeReady_set {x : StageSet} (hx : s.stageSet? id = some x) (hh : s.scene.holder = none) (hc : s.nextNodeCue = none)
    (hw : x.waiting = true) (hlive : x.live = true) (hmin : ∀ y ∈ s.scene.sets, y.waiting = true → y.live = true → id ≤ y.id) :
    ∃ t, exec .planeReady s = .next t ∧ t.scene.holder = some id ∧ s.told t .planeReady 0 id 0 ∧
      s.frame t [.scene, .mere, .ev, .sessions] := by
  have hid : id ∈ s.planeQueue := State.mem_planeQueue.2 ⟨x, List.mem_of_find?_eq_some hx, hw, hlive, State.stageSet?_id hx⟩
  have hlow : ∀ j ∈ s.planeQueue, id ≤ j := by
    intro j hj
    obtain ⟨y, hy, hyw, hyl, rfl⟩ := State.mem_planeQueue.1 hj
    exact hmin y hy hyw hyl
  exact ⟨_, execPlaneReady_set hh hc hid hlow, by simpa using s.givePlane_holder id,
    State.raise_told_of_frame (s.givePlane_frame id) (by decide) _ _ _ _, State.frame_trans (s.givePlane_frame id) (State.raise_frame _ _ _ _ _)⟩

end

/-! ### Checks (R112, R118) -/

section
variable {s : State} {r : Req} {id : Nat} {q : Session} {x : StageSet}

/-- With room in the queue no request waits for it. -/
theorem State.waitsForQueue_room (hroom : s.scene.checkQ.length < 16) (p : StageSet → Bool) : s.waitsForQueue r id p = false := by
  have h : ¬ checkDepth ≤ s.scene.checkQ.length := Nat.not_le.2 hroom
  unfold State.waitsForQueue
  split
  · simp [h]
  · rfl

theorem State.queueCheck_frame (s : State) (x : StageSet) (w : Option When) (q : Option Req) : s.frame (s.queueCheck x w q) [.scene] :=
  State.frame_next (State.updSet_frame _ _ _) (State.setScene_frame rfl)

/-- STAGE_CHECK of an OPEN set. -/
theorem execStageCheck_open (h : s.admitsSet r id q x) (hask : s.asks r (.stageCheck r id) = true) (hst : x.st = .open)
    (hroom : s.scene.checkQ.length < 16) : exec (.stageCheck r id) s = .next ((s.admitted r).queueCheck x none (some r)) := by
  have hdepth : ¬ checkDepth ≤ s.scene.checkQ.length := Nat.not_le.2 hroom
  show execStageCheck r id s = _
  rw [execStageCheck, State.waitsForQueue_room hroom, if_neg Bool.false_ne_true, State.ifAsked_asked hask]
  refine congrArg _ (State.ownSet_waits (act := fun _ s x => _) h ?_)
  simp only [hst, ne_eq, not_true, if_false, State.admitted_fields, hdepth]

theorem stageCheck_queues (h : s.admitsSet r id q x) (hask : s.asks r (.stageCheck r id) = true) (hst : x.st = .open)
    (hroom : s.scene.checkQ.length < 16) : ∃ t, exec (.stageCheck r id) s = .next t ∧
      s.setBecomes t id { x with st := .checking, want := none, reply := some r, findings := [] } ∧
      t.scene.checkQ = s.scene.checkQ ++ [id] ∧ t.vcp.last = s.vcp.last ∧ s.frame t [.scene, .sessions, .vcp] := by
  have hexec := execStageCheck_open h hask hst hroom
  obtain ⟨-, -, hx, -⟩ := h
  obtain rfl : x.id = id := State.stageSet?_id hx
  have hset := State.setBecomes_updSet (s := s.admitted r) (t := (s.admitted r).queueCheck x none (some r))
    (f := fun y => { y with st := .checking, want := none, reply := some r, findings := [] }) ((s.stageSet?_admitted r _).trans hx)
    (fun _ => rfl) (State.stageSet?_congr (by simp [State.queueCheck]))
  refine ⟨_, hexec, State.setBecomes_of_admitted hset, by simp [State.queueCheck], by simp [State.queueCheck], ?_⟩
  exact State.frame_next (State.frame_mono (s.admitted_frame r) (by decide)) (State.frame_mono (State.queueCheck_frame _ _ _ _) (by decide))

/-- A set after a check with findings `f` that no missing co-signature holds back. -/
def StageSet.judged (y : StageSet) (f : List Finding) : StageSet :=
  { y with
    st := if f.isEmpty then .checked else .open
    findings := f
    moved := none
    want := if f.isEmpty then y.want else none
    reply := if f.isEmpty && y.want.isSome then y.reply else none }

/-- The end of the check of the first set in the queue. -/
def State.judged (s : State) (id : Nat) (rest : List Nat) (f : List Finding) : State :=
  (s.setScene (fun g => { g with checkQ := rest })).updSet id (fun y => y.judged f)

/-- CHECK_DONE of a set whose check was asked for alone. -/
theorem execCheckDone_asked {rest : List Nat} (hq : s.scene.checkQ = id :: rest) (hx : s.stageSet? id = some x) (hr : x.reading = none)
    (hw : x.want = none) (hp : x.reply = some r) : exec .checkDone s = .next (((s.judged id rest (s.check x none)).raise .checkDone 0 id
      (((s.check x none).head?.map (·.err)).getD 0)).reply r 0x0108 (findAns (s.check x none))) := by
  show execCheckDone s = _
  simp only [execCheckDone, hq, hx, hr, hw, hp, Option.isSome_none, Bool.and_false, Bool.false_eq_true, if_false, List.isEmpty_nil,
    Bool.and_true]
  rfl

theorem State.judged_frame (s : State) (id : Nat) (rest : List Nat) (f : List Finding) : s.frame (s.judged id rest f) [.scene] :=
  State.frame_next (State.setScene_frame rfl) (State.updSet_frame _ _ _)

theorem checkDone_answers {rest : List Nat} (hx : s.stageSet? id = some x) (hq : s.scene.checkQ = id :: rest) (hr : x.reading = none)
    (hw : x.want = none) (hp : x.reply = some r) (hfit : itemsFit (findAns (s.check x none)).items) :
    ∃ t y, exec .checkDone s = .next t ∧ s.setBecomes t id y ∧ y.st = (if s.check x none = [] then .checked else .open) ∧
      y.findings = s.check x none ∧ y.added = x.added ∧ t.scene.checkQ = rest ∧
      t.answers r 0x0108 (findAns (s.check x none)).status 0 (findAns (s.check x none)).items ∧
      t.ev = (s.raise .checkDone 0 id (((s.check x none).head?.map (·.err)).getD 0)).ev ∧ s.frame t [.scene, .ev, .sessions, .vcp] := by
  have hexec := execCheckDone_asked hq hx hr hw hp
  obtain rfl : x.id = id := State.stageSet?_id hx
  generalize s.check x none = f at hexec hfit ⊢
  have hset := State.setBecomes_updSet (s := s.setScene (fun g => { g with checkQ := rest }))
    (t := ((s.judged x.id rest f).raise .checkDone 0 x.id ((f.head?.map (·.err)).getD 0)).reply r 0x0108 (findAns f))
    (f := fun y => y.judged f) hx (fun _ => rfl) (State.stageSet?_congr (by simp [State.judged]))
  have htold := State.raise_told_of_frame (s.judged_frame x.id rest f) (by decide) .checkDone 0 x.id ((f.head?.map (·.err)).getD 0)
  refine ⟨_, x.judged f, hexec, hset, by simp [StageSet.judged], rfl, rfl, by simp [State.judged], State.reply_answers_items hfit, ?_, ?_⟩
  · rw [← htold.1, (State.reply_frame _ _ _ _ .ev (by decide) : _ = _)]
  · exact State.frame_next (State.frame_mono (State.frame_trans (s.judged_frame _ _ _) (State.raise_frame _ _ _ _ _)) (by decide))
      (State.frame_mono (State.reply_frame _ _ _ _) (by decide))

end

/-! ### Co-signatures (R121) -/

section
variable {s : State} {r : Req} {id : Nat} {q : Session} {x : StageSet} {digest mac : List Nat}

/-- The partitions that a set still needs a co-signature for and that the session of a request owns. -/
def State.cosigns (u : State) (r : Req) (x : StageSet) : List Nat :=
  (u.needCosign x (u.bodyOf x.added) u).filter (fun p => decide (u.owner p = r.sid))

/-- A correct co-signature: the digest of the contents, and its code under the session's key. -/
def State.signs (u : State) (q : Session) (x : StageSet) (digest mac : List Nat) : Prop :=
  digest = u.contentDigest x ∧ mac = Crypto.hmac q.ks digest

/-- What STAGE_COSIGN of a CHECKED set does. -/
theorem execStageCosign_checked (hq : s.admits r 1 q) (ha : s.audioServed = true) (hx : s.stageSet? id = some x) (hst : x.st = .checked) :
    ∃ act, exec (.stageCosign r id digest mac) s = .next (s.serve r 0x0109 1 act) ∧ act (q.accept r.seq) (s.admitted r) =
      let u := s.admitted r
      if (u.cosigns r x).isEmpty then (u, Ans.fail Err.owner)
      else if digest = u.contentDigest x ∧ mac = Crypto.hmac q.ks digest then
        (u.updSet id (fun y => { y with cosigned := y.cosigned ++ u.cosigns r x }), Ans.good [])
      else (u, Ans.fail Err.cosign) := by
  refine ⟨_, (congrArg Host.Outcome.next (State.serveAudio_served ha hq) : execStageCosign r id digest mac s = _), ?_⟩
  have hu : (s.admitted r).stageSet? id = some x := by rw [State.stageSet?_admitted, hx]
  simp only [hu, hst, ne_eq, not_true, if_false, Session.accept_fields, State.admits_sid hq]
  rfl

theorem stageCosign_answers (hq : s.admits r 1 q) (ha : s.audioServed = true) (hx : s.stageSet? id = some x) (hst : x.st = .checked) :
    ((s.admitted r).cosigns r x = [] → s.refuses (.stageCosign r id digest mac) r 0x0109 Err.owner) ∧
    ((s.admitted r).cosigns r x ≠ [] → (s.admitted r).signs q x digest mac → ∃ t, exec (.stageCosign r id digest mac) s = .next t ∧
      t.answers r 0x0109 0 0 [] ∧ s.setBecomes t id { x with cosigned := x.cosigned ++ (s.admitted r).cosigns r x } ∧
      s.frame t [.scene, .sessions, .vcp]) ∧
    ((s.admitted r).cosigns r x ≠ [] → ¬ (s.admitted r).signs q x digest mac →
      s.refuses (.stageCosign r id digest mac) r 0x0109 Err.cosign) := by
  obtain ⟨act, hexec, hact⟩ := execStageCosign_checked (digest := digest) (mac := mac) hq ha hx hst
  obtain rfl : x.id = id := State.stageSet?_id hx
  refine ⟨fun hm _ => ⟨_, hexec, State.serve_refused hq ?_⟩, fun hm hs => ?_, fun hm hs _ => ⟨_, hexec, State.serve_refused hq ?_⟩⟩
  · rw [hact]
    exact if_pos (List.isEmpty_iff.2 hm)
  · have hgood := hact.trans ((if_neg (by simpa using hm)).trans (if_pos hs))
    have hset := State.setBecomes_updSet (s := s.admitted r) (f := fun y => { y with cosigned := y.cosigned ++ (s.admitted r).cosigns r x })
      ((s.stageSet?_admitted r _).trans hx) (fun _ => rfl) (State.stageSet?_reply _ r 0x0109 ⟨Err.ok, 0, []⟩)
    rw [State.serve_answered hq hgood] at hexec
    exact ⟨_, hexec, State.reply_answers_nil _ _, State.setBecomes_of_admitted hset,
      State.request_frame (by decide) (State.frame_mono (State.updSet_frame _ _ _) (by decide)) _⟩
  · rw [hact]
    exact (if_neg (by simpa using hm)).trans (if_neg hs)

end

/-! ### Reports and discarding (R106, R112) -/

section
variable {s : State} {r : Req} {id : Nat} {q : Session} {x : StageSet}

/-- STAGE_REPORT. -/
theorem stageReport_reads (hq : s.admits r 2 q) (hx : s.stageSet? id = some x) : s.reads (.stageReport r id) r 0x010D
    ([.set id, .words [x.st.code], .mcc (x.commit.getD 0)] ++ x.findings.map Item.finding) := by
  refine fun hask hfit => ⟨_, State.ifAsked_asked hask, State.serveRead_reads hq _ _ _ ?_ hfit⟩
  simp only [State.stageSet?_admitted, hx]

/-- The requests that wait for a discarded set are answered. -/
def State.dropRequests (s : State) (x : StageSet) : State :=
  (match x.reading with
    | some (_, _, q) => s.reply q 0x0202 { status := Err.state }
    | none => s).dropReply x

theorem State.dropRequests_frame (s : State) (x : StageSet) : s.frame (s.dropRequests x) replyParts := by
  refine State.frame_next ?_ (State.dropReply_frame _ x)
  split
  · exact s.reply_frame _ _ _
  · exact s.frame_refl _

/-- What is left of a discarded set. -/
def StageSet.discarded (y : StageSet) : StageSet :=
  { y with st := .discarded, added := [], want := none, reply := none, reading := none, waiting := false, planeIn := false, cosigned := [] }

theorem State.discardSet_eq (s : State) (x : StageSet) : s.discardSet x = (((s.dropRequests x).freePlane x.id).updSet x.id
    StageSet.discarded).setScene (fun g => { g with checkQ := g.checkQ.filter (fun i => decide (i ≠ x.id)) }) := rfl

theorem State.discardSet_frame (s : State) (x : StageSet) : s.frame (s.discardSet x) [.scene, .mere, .sessions, .vcp] := by
  rw [State.discardSet_eq]
  exact State.frame_mono (State.frame_trans (State.frame_trans (State.frame_trans (s.dropRequests_frame x) (State.freePlane_frame _ _))
    (State.updSet_frame _ _ _)) (State.setScene_frame rfl)) (by decide)

theorem State.discardSet_holder (s : State) (x : StageSet) : (s.discardSet x).scene.holder ≠ some x.id := by
  simpa [State.discardSet_eq] using (s.dropRequests x).freePlane_holder x.id

theorem State.discardSet_checkQ (s : State) (x : StageSet) : x.id ∉ (s.discardSet x).scene.checkQ := by
  simp [State.discardSet_eq]

theorem State.discardSet_set (hx : s.stageSet? x.id = some x) : s.setBecomes (s.discardSet x) x.id x.discarded := by
  have hsame : ∀ j, ((s.dropRequests x).freePlane x.id).stageSet? j = s.stageSet? j := fun j => by
    rw [State.stageSet?_freePlane]
    exact State.stageSet?_congr (congrArg SceG.sets (State.scene_of_frame (s.dropRequests_frame x) (by decide) (by decide))) j
  have hset := State.setBecomes_updSet (f := StageSet.discarded) ((hsame x.id).trans hx) (fun _ => rfl)
    (State.stageSet?_congr (t := s.discardSet x) (by simp [State.discardSet_eq]))
  exact State.setBecomes_trans ⟨(hsame x.id).trans hx, fun j _ => hsame j⟩ hset

/-- STAGE_DISCARD of a set that is not SCHEDULED. -/
theorem stageDiscard_discards (h : s.admitsSet r id q x) (hask : s.asks r (.stageDiscard r id) = true)
    (hst : x.st = .open ∨ x.st = .checking ∨ x.st = .checked) :
    ∃ t y, exec (.stageDiscard r id) s = .next t ∧ t.answers r 0x010C 0 0 [] ∧ s.setBecomes t id y ∧ y.st = .discarded ∧ y.added = [] ∧
      t.scene.holder ≠ some id ∧ id ∉ t.scene.checkQ ∧ s.frame t [.scene, .mere, .sessions, .vcp] := by
  have hexec : exec (.stageDiscard r id) s = .next (((s.admitted r).discardSet x).reply r 0x010C ⟨Err.ok, 0, []⟩) :=
    (State.ifAsked_asked hask).trans (congrArg _ (State.ownSet_answered (act := fun _ s x => _) h (if_pos hst)))
  obtain ⟨-, -, hx, -⟩ := h
  obtain rfl : x.id = id := State.stageSet?_id hx
  have hset := State.discardSet_set ((s.stageSet?_admitted r _).trans hx)
  refine ⟨_, x.discarded, hexec, State.reply_answers_nil _ _, ⟨?_, fun j hj => ?_⟩, rfl, rfl, ?_, ?_,
    State.request_frame (by decide) (State.discardSet_frame _ _) _⟩
  · rw [State.stageSet?_reply, hset.1]
  · rw [State.stageSet?_reply, hset.2 j hj, State.stageSet?_admitted]
  · simpa using State.discardSet_holder (s.admitted r) x
  · simpa using State.discardSet_checkQ (s.admitted r) x

theorem stageDiscard_refused (h : s.admitsSet r id q x) (hst : x.st = .scheduled ∨ x.st = .committed ∨ x.st = .discarded) :
    s.refuses (.stageDiscard r id) r 0x010C Err.state := by
  have hno : ¬ (x.st = .open ∨ x.st = .checking ∨ x.st = .checked) := by rcases hst with hst | hst | hst <;> simp [hst]
  exact fun hask => ⟨_, State.ifAsked_asked hask, State.ownSet_refused (act := fun _ s x => _) h (if_neg hno)⟩

end

/-- Settles O38: each command by the lemma on what it leaves of the set. -/
theorem stageSetsAreCheckedAndCosigned : Obligations.StageSetsAreCheckedAndCosigned := by
  unfold Obligations.StageSetsAreCheckedAndCosigned
  intro s r q id x hx
  refine ⟨fun hh n scope => planeReady_cue hh, fun hh => planeReady_set hx hh, stageCheck_queues, fun rest hq => checkDone_answers hx hq,
    fun digest mac hq ha => stageCosign_answers hq ha hx, fun hq => stageReport_reads hq hx,
    fun h => ⟨stageDiscard_discards h, stageDiscard_refused h⟩⟩

end Sys2Proof.Machine
end

section
/-! PROOFS. Commits scheduled, sent back or refused by what the commit sample decides (R111, R122, R124, R132); O39. -/

namespace Sys2Proof.Machine

/-! ### Scheduling -/

section
variable {s : State} {x : StageSet} {w : When} {c e : Nat}

/-- A set whose commit came to nothing. -/
def StageSet.unwanted (x : StageSet) : StageSet := { x with want := none, reply := none }

/-- A set whose commit sample brought findings. -/
def StageSet.sentBack (x : StageSet) (f : List Finding) : StageSet :=
  { x with st := .open, cosigned := [], want := none, reply := none, findings := f }

/-- A set scheduled for c, the n-th. -/
def StageSet.scheduledAt (x : StageSet) (c n : Nat) : StageSet :=
  { x with st := .scheduled, commit := some c, want := none, reply := none, order := n }

/-- No commit sample can be given. -/
theorem State.scheduleNow_inr (hw : commitAt s.mcc s.B w = .inr e) :
    s.scheduleNow x w = (s.updSet x.id StageSet.unwanted, { status := e }) := by
  rw [State.scheduleNow, hw]
  rfl

section
variable (hw : commitAt s.mcc s.B w = .inl c)
include hw

/-- An armed cue needs the plane. -/
theorem State.scheduleNow_hindered (hh : ¬ (x.hasNodes && s.hindersCue x.id c) = false) :
    s.scheduleNow x w = (s.updSet x.id StageSet.unwanted, { status := Err.late }) := by
  rw [State.scheduleNow, hw]
  exact if_pos (Bool.not_eq_false _ ▸ hh)

/-- The commit sample decides against the set (R80, R199). -/
theorem State.scheduleNow_late (hh : (x.hasNodes && s.hindersCue x.id c) = false) (hf : (s.chkOf x (some c)).late c ≠ []) :
    s.scheduleNow x w = (s.updSet x.id (fun y => y.sentBack ((s.chkOf x (some c)).late c)), findAns ((s.chkOf x (some c)).late c)) := by
  rw [State.scheduleNow, hw]
  exact (if_neg (by simp [hh])).trans (if_pos hf)

/-- Nothing stands against the commit sample. -/
theorem State.scheduleNow_free (hh : (x.hasNodes && s.hindersCue x.id c) = false) (hf : (s.chkOf x (some c)).late c = []) :
    s.scheduleNow x w = (s.schedule x.id c, { status := Err.ok, items := [.mcc c] }) := by
  rw [State.scheduleNow, hw]
  exact (if_neg (by simp [hh])).trans (if_neg (by simp [hf]))

end

theorem State.schedule_frame (s : State) (id c : Nat) : s.frame (s.schedule id c) [.scene] :=
  State.frame_next (State.updSet_frame _ _ _) (State.setScene_frame rfl)

/-- The set scheduled, and the others noting that their configuration changes at c. -/
theorem State.schedule_set {t : State} (hx : s.stageSet? x.id = some x) (ht : t.scene.sets = (s.schedule x.id c).scene.sets) :
    s.setChangesAt t x.id c (x.scheduledAt c s.scene.orders) := by
  have hset := State.setBecomes_updSet (f := fun y => y.scheduledAt c s.scene.orders) hx (fun _ => rfl) (fun _ => rfl)
  exact State.setChangesAt_of_changedAt hset (ht.trans (by simp [State.schedule, SceG.changedAt, StageSet.scheduledAt]))

end

/-- The next possible sample, and one asked for in time (R122). -/
theorem commitAt_inl {m B c : Nat} {w : When} (hn : w = .next → c = Fmt.cdiv (m + 2 * B) B * B)
    (hw : w = .next ∨ (w = .mcc c ∧ m + 2 * B ≤ c ∧ c ≤ m + 2 ^ 40)) : commitAt m B w = .inl c := by
  rcases hw with rfl | ⟨rfl, h2, h40⟩
  · rw [hn rfl]; rfl
  · exact (if_neg (Nat.not_lt.2 h2)).trans (if_neg (Nat.not_lt.2 h40))

/-- A sample too close or too far away (R122). -/
theorem commitAt_inr {m B c : Nat} (h : c < m + 2 * B ∨ m + 2 ^ 40 < c) :
    commitAt m B (.mcc c) = .inr (if c < m + 2 * B then Err.late else Err.range) := by
  by_cases h2 : c < m + 2 * B
  · exact (if_pos h2).trans (by rw [if_pos h2])
  · exact (if_neg h2).trans ((if_pos (h.resolve_left h2)).trans (by rw [if_neg h2]))

/-! ### COMMIT of a CHECKED set -/

/-- A CHECKED set that its commit finds with nothing in the way (R122): not waiting for the plane, no change of profile or rate running,
every co-signature there, no commit waiting. -/
def State.ready (s : State) (x : StageSet) : Prop :=
  x.st = .checked ∧ x.waiting = false ∧ s.scene.changing = false ∧ s.cosignedAll x = true

section
variable {s : State} {r : Req} {id c : Nat} {q : Session} {x : StageSet} {w : When}

theorem State.commitReq_ready (h : s.ready x) (hwant : x.want = none) (hrole : s.twin.role ≠ .active) :
    s.commitReq r x w = ((s.scheduleNow x w).1, some (s.scheduleNow x w).2) := by
  obtain ⟨hst, hwait, hch, hcos⟩ := h
  simp only [State.commitReq, hst, hwait, hch, hcos, hwant, hrole, Option.isSome_none, Bool.not_true, Bool.false_eq_true, if_false]

/-- A CHECKED set's commit does not wait for the check queue. -/
theorem State.waitsForQueue_checked (hx : s.stageSet? id = some x) (hst : x.st = .checked) :
    s.waitsForQueue r id StageSet.checkFirst = false := by
  simp [State.waitsForQueue, hx, StageSet.checkFirst, hst]

/-- COMMIT of a set that is ready is answered by its scheduling. -/
theorem execCommit_ready (h : s.admitsSet r id q x) (hask : s.asks r (.commit r id w) = true) (hnow : (s.admitted r).ready x)
    (hwant : x.want = none) (hrole : s.twin.role ≠ .active) : exec (.commit r id w) s =
      .next (((s.admitted r).scheduleNow x w).1.reply r 0x010A ((s.admitted r).scheduleNow x w).2) := by
  show execCommit r id w s = _
  have hst : x.st = .checked := And.left hnow
  rw [execCommit, State.waitsForQueue_checked (State.admitsSet_set h) hst, if_neg Bool.false_ne_true, State.ifAsked_asked hask]
  exact congrArg _ (State.ownSet_answered (act := fun _ s x => s.commitReq r x w) h (State.commitReq_ready hnow hwant (by simpa using hrole)))

section
variable (h : s.admitsSet r id q x) (hask : s.asks r (.commit r id w) = true) (hnow : (s.admitted r).ready x)
  (hwant : x.want = none) (hrole : s.twin.role ≠ .active)
include h hask hnow hwant hrole

/-- A ready set that its commit sample changes, but does not schedule. -/
theorem commit_changes {f : StageSet → StageSet} {a : Ans} (hf : ∀ y, (f y).id = y.id)
    (hs : (s.admitted r).scheduleNow x w = ((s.admitted r).updSet x.id f, a)) (ha : itemsFit a.items) (hd : a.detail = 0) :
    ∃ t, exec (.commit r id w) s = .next t ∧ t.answers r 0x010A a.status 0 a.items ∧ s.setBecomes t id (f x) ∧
      s.frame t [.scene, .sessions, .vcp] := by
  have hexec := execCommit_ready h hask hnow hwant hrole
  rw [hs] at hexec
  obtain ⟨-, -, hx, -⟩ := h
  obtain rfl : x.id = id := State.stageSet?_id hx
  obtain ⟨e, d, l⟩ := a
  obtain rfl : d = 0 := hd
  have hset := State.setBecomes_updSet (s := s.admitted r) (f := f) ((s.stageSet?_admitted r _).trans hx) hf
    (State.stageSet?_reply _ r 0x010A ⟨e, 0, l⟩)
  exact ⟨_, hexec, State.reply_answers_items ha, State.setBecomes_of_admitted hset,
    State.request_frame (by decide) (State.frame_mono (State.updSet_frame _ _ _) (by decide)) _⟩

theorem commit_schedules (hw : commitAt s.mcc s.B w = .inl c) (hh : (x.hasNodes && (s.admitted r).hindersCue x.id c) = false)
    (hf : ((s.admitted r).chkOf x (some c)).late c = []) :
    ∃ t y, exec (.commit r id w) s = .next t ∧ t.answers r 0x010A 0 0 [.mcc c] ∧ s.setChangesAt t id c y ∧ y.st = .scheduled ∧
      y.commit = some c ∧ y.added = x.added ∧ s.frame t [.scene, .sessions, .vcp] := by
  have hexec := execCommit_ready h hask hnow hwant hrole
  rw [State.scheduleNow_free (by simpa using hw) hh hf] at hexec
  obtain ⟨-, -, hx, -⟩ := h
  obtain rfl : x.id = id := State.stageSet?_id hx
  obtain ⟨hset, hother⟩ := State.schedule_set (c := c) (t := ((s.admitted r).schedule x.id c).reply r 0x010A ⟨Err.ok, 0, [.mcc c]⟩)
    ((s.stageSet?_admitted r _).trans hx) (by simp)
  refine ⟨_, _, hexec, State.reply_answers_items (by simp [itemsFit, itemsSize, Item.size, replyMax, statusSize]),
    ⟨hset, fun j hj => ?_⟩, rfl, rfl, rfl, State.request_frame (by decide) (State.frame_mono (State.schedule_frame _ _ _) (by decide)) _⟩
  rw [hother j hj, State.stageSet?_admitted]

theorem commit_sentBack (hw : commitAt s.mcc s.B w = .inl c) (hh : (x.hasNodes && (s.admitted r).hindersCue x.id c) = false)
    (hf : ((s.admitted r).chkOf x (some c)).late c ≠ [])
    (hfit : itemsFit (findAns (((s.admitted r).chkOf x (some c)).late c)).items) :
    ∃ t y, exec (.commit r id w) s = .next t ∧
      t.answers r 0x010A (findAns (((s.admitted r).chkOf x (some c)).late c)).status 0
        (findAns (((s.admitted r).chkOf x (some c)).late c)).items ∧ s.setBecomes t id y ∧ y.st = .open ∧
      y.findings = ((s.admitted r).chkOf x (some c)).late c ∧ y.added = x.added ∧ s.frame t [.scene, .sessions, .vcp] := by
  obtain ⟨t, hexec, hans, hset, hframe⟩ := commit_changes h hask hnow hwant hrole (by exact fun _ => rfl)
    (State.scheduleNow_late (by simpa using hw) hh hf) hfit rfl
  exact ⟨t, _, hexec, hans, hset, rfl, rfl, rfl, hframe⟩

/-- A commit that comes to nothing leaves the set CHECKED. -/
theorem commit_fails {e : Nat} (hs : (s.admitted r).scheduleNow x w = ((s.admitted r).updSet x.id StageSet.unwanted, { status := e })) :
    ∃ t y, exec (.commit r id w) s = .next t ∧ t.answers r 0x010A e 0 [] ∧ s.setBecomes t id y ∧ y.st = .checked ∧
      y.commit = x.commit ∧ y.added = x.added ∧ s.frame t [.scene, .sessions, .vcp] := by
  obtain ⟨t, hexec, hans, hset, hframe⟩ := commit_changes h hask hnow hwant hrole (by exact fun _ => rfl) hs
    (by simp [itemsFit, itemsSize]) rfl
  exact ⟨t, _, hexec, hans, hset, hnow.1, rfl, rfl, hframe⟩

end

/-! ### A commit that waited (R122) -/

/-- The reply to a request that waited for its set, where one did. -/
def State.replyWaiting (s : State) (p : Option Req) (a : Ans) : State :=
  match p with
  | some q => s.reply q 0x010A a
  | none => s

theorem State.replyWaiting_frame (s : State) (p : Option Req) (a : Ans) : s.frame (s.replyWaiting p a) replyParts := by
  cases p
  · exact s.frame_refl _
  · exact s.reply_frame _ _ _

/-- COMMIT_SCHEDULED of a set that nothing stands against: its event, and the reply where one is due. -/
theorem execCommitScheduled_free (hx : s.stageSet? id = some x) (hnow : s.ready x) (hwant : x.want = some w)
    (hw : commitAt s.mcc s.B w = .inl c) (hh : (x.hasNodes && s.hindersCue x.id c) = false) (hf : (s.chkOf x (some c)).late c = []) :
    exec (.commitScheduled id) s = .next (((s.schedule x.id c).raiseD .commitScheduled 0 id (id :: two c)).replyWaiting x.reply
      { status := Err.ok, items := [.mcc c] }) := by
  obtain ⟨hst, hwait, hch, hcos⟩ := hnow
  show execCommitScheduled id s = _
  simp only [execCommitScheduled, hx, hwant, hst, hwait, hch, hcos, State.scheduleNow_free hw hh hf, ne_eq, not_true, Bool.not_true,
    Bool.false_eq_true, or_self, if_false]
  rfl

theorem commitScheduled_schedules (hx : s.stageSet? id = some x) (hnow : s.ready x) (hwant : x.want = some w)
    (hw : commitAt s.mcc s.B w = .inl c) (hh : (x.hasNodes && s.hindersCue x.id c) = false) (hf : (s.chkOf x (some c)).late c = []) :
    ∃ t y, exec (.commitScheduled id) s = .next t ∧ s.setChangesAt t id c y ∧ y.st = .scheduled ∧ y.commit = some c ∧ y.added = x.added ∧
      t.ev = (s.raiseD .commitScheduled 0 id (id :: two c)).ev ∧ (x.reply = some r → t.answers r 0x010A 0 0 [.mcc c]) ∧
      s.frame t [.scene, .ev, .sessions, .vcp] := by
  have hexec := execCommitScheduled_free hx hnow hwant hw hh hf
  obtain rfl : x.id = id := State.stageSet?_id hx
  have hsch := s.schedule_frame x.id c
  have htold := State.raiseD_told s (s.schedule x.id c) .commitScheduled 0 x.id (x.id :: two c) (hsch .ev (by decide))
    (hsch .sessions (by decide)) (hsch .mcc (by decide)) (State.legacy_of_straps (congrArg PowerG.straps (hsch .power (by decide))))
  have hreply := State.replyWaiting_frame ((s.schedule x.id c).raiseD .commitScheduled 0 x.id (x.id :: two c)) x.reply
    { status := Err.ok, items := [.mcc c] }
  have hscene := State.scene_of_frame hreply (by decide) (by decide)
  refine ⟨_, _, hexec, State.schedule_set hx (by simp [hscene]), rfl, rfl, rfl, ?_, fun hp => ?_, ?_⟩
  · exact (hreply .ev (by decide)).trans htold.1
  · rw [hp]
    exact State.reply_answers_items (by simp [itemsFit, itemsSize, Item.size, replyMax, statusSize])
  · exact State.frame_mono (State.frame_trans (State.frame_trans hsch (State.raiseD_frame _ _ _ _ _)) hreply) (by decide)

end

/-- Settles O39: what scheduling a set does, case by case, in the answer to COMMIT and in COMMIT_SCHEDULED. -/
theorem commitsAreScheduled : Obligations.CommitsAreScheduled := by
  unfold Obligations.CommitsAreScheduled
  intro s r q id x
  refine ⟨fun w c h hask hnow hwant hrole hn hw => ?_, fun c h hask hnow hwant hrole hc => ?_, fun w c hx hnow hwant hw hh hf => ?_⟩
  · have hat := commitAt_inl hn hw
    refine ⟨commit_schedules h hask hnow hwant hrole hat, commit_sentBack h hask hnow hwant hrole hat, fun hh => ?_⟩
    exact commit_fails h hask hnow hwant hrole (State.scheduleNow_hindered (by simpa using hat) hh)
  · exact commit_fails h hask hnow hwant hrole (State.scheduleNow_inr (by simpa using commitAt_inr hc))
  · exact commitScheduled_schedules hx hnow hwant hw hh hf

end Sys2Proof.Machine
end

section
/-! PROOFS. The scene store's commands, recalls and cue lists (R131–R138): requests answered or kept waiting, the plane loaded for the next
cue, and what firing commits; O42. -/

namespace Sys2Proof.Machine

/-! ### Requests on a chip that serves audio commands -/

section
variable {s u : State} {r : Req} {q : Session} {cmd : Nat} {a : Ans} {act : Session → State → State × Option Ans}

/-- A command answered at once. -/
theorem State.serveAudio_answered (hq : s.admits r 1 q) (ha : s.audioServed = true) (hact : act (q.accept r.seq) (s.admitted r) = (u, some a)) :
    s.serveAudio r cmd act = u.reply r cmd a :=
  (State.serveAudio_served ha hq).trans (State.serve_answered hq hact)

/-- A command answered later. -/
theorem State.serveAudio_waits (hq : s.admits r 1 q) (ha : s.audioServed = true) (hact : act (q.accept r.seq) (s.admitted r) = (u, none)) :
    s.serveAudio r cmd act = u := by
  rw [State.serveAudio_served ha hq, State.serve_admits hq, hact]

/-- From taking a request to an action that is answered later. -/
theorem State.waiting_frame {l : List Part} (hl : replyParts ⊆ l) (hu : (s.admitted r).frame u l) : s.frame u l :=
  State.frame_next (State.frame_mono (s.admitted_frame r) hl) hu

/-- Taking a request leaves what decides who may write scenes. -/
theorem State.mayScene_accept (part : Nat) : (s.admitted r).mayScene (q.accept r.seq) part = s.mayScene q part := by
  simp only [State.mayScene, State.owner, State.admitted_vcp, Session.accept_fields]
  rfl

end

/-! ### An occurrence after a reply -/

/-- A session that has kept a reply: nothing that its event queue depends on. -/
def Session.answered (x : Session) (l : List Machine.Reply) (p : List Nat) : Session := { x with replies := l, progress := p }

theorem Session.enqueue_answered (x : Session) (l : List Machine.Reply) (p : List Nat) (id part : Nat) (detail : Bool) (mcc arg : Nat) :
    (x.answered l p).enqueue id part detail mcc arg = (x.enqueue id part detail mcc arg).answered l p := by
  rw [Session.enqueue, Session.enqueue]
  simp only [apply_ite (fun y => Session.answered y l p)]
  rfl

/-- Which sessions overflow does not depend on the replies that they keep. -/
theorem offer_full_answered {g : Session → Session} (hg : ∀ x, ∃ l p, g x = x.answered l p) (id part : Nat) (detail : Bool) (mcc arg : Nat)
    (l : List Session) : (offer (fun _ => true) id part detail mcc arg (l.map g)).map (·.full) =
      (offer (fun _ => true) id part detail mcc arg l).map (·.full) := by
  simp only [offer, List.map_map]
  refine List.map_congr_left (fun x _ => ?_)
  obtain ⟨a, b, hx⟩ := hg x
  simp only [Function.comp, hx, Session.enqueue_answered]
  show (if (true && Fmt.bit x.evMask id && x.receives part) = true then _ else _ : Session).full = _
  split <;> rfl

/-- An occurrence leaves in the event registers what it leaves there before the sessions kept their replies. -/
theorem State.raise_ev_answered {s u : State} {g : Session → Session} (hg : ∀ x, ∃ l p, g x = x.answered l p)
    (hv : u.vcp.sessions = s.vcp.sessions.map g) {l : List Part} (hf : s.frame u l) (hl : ∀ p ∈ [Part.ev, .mcc, .power], p ∉ l)
    (ev : Ev) (part obj val : Nat) : (u.raise ev part obj val).ev = (s.raise ev part obj val).ev := by
  have he : u.ev = s.ev := hf .ev (hl _ (by decide))
  have hm : u.mcc = s.mcc := hf .mcc (hl _ (by decide))
  have hc : u.cap.legacy = s.cap.legacy := State.legacy_of_straps (congrArg PowerG.straps (hf .power (hl _ (by decide))))
  have hbefore : (s.vcp.sessions.map g).map (·.full) = s.vcp.sessions.map (·.full) := by
    rw [List.map_map]
    refine List.map_congr_left (fun x _ => ?_)
    obtain ⟨a, b, hx⟩ := hg x
    simp only [Function.comp, hx]
    rfl
  simp only [State.cap, State.fam, State.prof, State.shape, State.word] at hc
  simp only [State.raise, State.raiseTo, hm, State.setEv_fields, hv, offer_full_answered hg, hbefore]
  split_ifs <;> simp only [State.setEv_ev, he, hc, State.cap, State.fam, State.prof, State.shape, State.word]

/-- A reply is kept by its session. -/
theorem State.reply_sessions (u : State) (r : Req) (cmd : Nat) (a : Ans) : ∃ g : Session → Session,
    (∀ x, ∃ l p, g x = x.answered l p) ∧ (u.reply r cmd a).vcp.sessions = u.vcp.sessions.map g := by
  refine ⟨fun x => if x.sid = r.sid then x.answered ((⟨r.sid, r.seq, cmd, a.fits.status, a.fits.detail, a.fits.items⟩ :: x.replies).take 16)
    (x.progress.filter (· ≠ r.seq)) else x, fun x => ?_, ?_⟩
  · by_cases h : x.sid = r.sid
    · exact ⟨_, _, if_pos h⟩
    · exact ⟨x.replies, x.progress, if_neg h⟩
  · simp only [State.reply]
    split <;> simp [State.updSession, Session.answered]

/-! ### The scene store (R134–R137) -/

section
variable {s : State} {r : Req} {q : Session}

/-- A change of MSTORE. -/
theorem State.setStore_frame (s : State) (m : Memory) : s.frame (s.setStore m) [.mstore] := by
  simp [State.frame_iff, Part.same, State.setStore]

/-- What SCENE_SAVE puts by for SCENE_SAVE_DONE. -/
def State.savingOf (u : State) (r : Req) (part n : Nat) (label : List Nat) : Saving :=
  { part := part, prof := u.prof, shape := u.shape, scene := n, label := label.take 32, record := u.sceneOf part, gen := u.scene.gen, req := r }

theorem sceneSave_saves {part n : Nat} {label : List Nat} (hq : s.admits r 1 q) (ha : s.audioServed = true) (h0 : 0 < part) (h16 : part < 16)
    (hn : n < 1024) (hown : s.owner part = r.sid) (hfree : (dirEnt s.scene.mstore n).used = false) :
    ∃ t, exec (.sceneSave r part n label) s = .next t ∧
      t.scene.saving = s.scene.saving ++ [(s.admitted r).savingOf r part n label] ∧ t.vcp.last = s.vcp.last ∧
      s.frame t [.scene, .sessions, .vcp] := by
  have hmay : (s.admitted r).mayScene (q.accept r.seq) part = true := by
    rw [State.mayScene_accept, State.mayScene, if_neg (by omega), hown, State.admits_sid hq]
    exact decide_eq_true rfl
  have hact := State.serveAudio_waits (cmd := 0x0201) hq ha (act := fun q s =>
    let e := dirEnt s.scene.mstore n
    if 16 ≤ part ∨ 1024 ≤ n then (s, Ans.fail Err.range)
    else if !s.mayScene q part || (e.used && !s.mayScene q e.part) then (s, Ans.fail Err.owner)
    else (s.setScene (fun g => { g with saving := g.saving ++ [{ s.savingOf r part n label with gen := g.gen }] }), none))
    ((if_neg (by omega)).trans (if_neg (by simp [hmay, hfree])))
  refine ⟨_, congrArg Host.Outcome.next hact, by simp [State.savingOf], by simp, ?_⟩
  exact State.waiting_frame (by decide) (State.frame_mono (State.setScene_frame rfl) (by decide))

/-- A save that is written leaves the queue of saves. -/
def State.saved (s : State) (rest : List Saving) : State := s.setScene (fun g => { g with saving := rest })

theorem State.saved_frame (s : State) (rest : List Saving) : s.frame (s.saved rest) [.scene] := State.setScene_frame rfl

/-- The directory entry of a save whose map page is `page`. -/
def Saving.entry (v : Saving) (page : Nat) : DirEnt :=
  { label := v.label, part := v.part, prof := v.prof, shape := v.shape, used := true, size := v.record.length
    crc := Crypto.crc32 v.record, map := page, gen := v.gen }

/-- SCENE_SAVE_DONE with no room for the record. -/
theorem execSceneSaveDone_full {v : Saving} {rest : List Saving} (hv : s.scene.saving = v :: rest)
    (hw : recordWrite s.scene.mstore v.record = none) :
    exec .sceneSaveDone s = .next ((s.saved rest).reply v.req 0x0201 { status := Err.capacity }) := by
  show execSceneSaveDone s = _
  simp only [execSceneSaveDone, hv, hw]
  rfl

/-- SCENE_SAVE_DONE of a record that was written. -/
theorem execSceneSaveDone_written {v : Saving} {rest : List Saving} {m : Memory} {page : Nat} (hv : s.scene.saving = v :: rest)
    (hw : recordWrite s.scene.mstore v.record = some (m, page)) : exec .sceneSaveDone s =
      .next ((((s.saved rest).setStore (dirWrite m v.scene (v.entry page))).reply v.req 0x0201 { status := Err.ok }).raise .sceneSaved
        v.part v.scene 0) := by
  show execSceneSaveDone s = _
  simp only [execSceneSaveDone, hv, hw]
  rfl

theorem sceneSaveDone_ends {v : Saving} {rest : List Saving} (hv : s.scene.saving = v :: rest) (hr : v.req = r) :
    ∃ t, exec .sceneSaveDone s = .next t ∧ t.scene.saving = rest ∧
      (recordWrite s.scene.mstore v.record = none → t.answers r 0x0201 Err.capacity 0 [] ∧ s.frame t [.scene, .sessions, .vcp]) ∧
      (∀ m page, recordWrite s.scene.mstore v.record = some (m, page) → t.answers r 0x0201 0 0 [] ∧
        t.scene.mstore = dirWrite m v.scene (v.entry page) ∧
        t.ev = (s.raise .sceneSaved v.part v.scene 0).ev ∧ s.frame t [.scene, .mstore, .ev, .sessions, .vcp]) := by
  subst hr
  cases hw : recordWrite s.scene.mstore v.record with
  | none =>
    refine ⟨_, execSceneSaveDone_full hv hw, by simp [State.saved], fun _ => ⟨State.reply_answers_nil _ _, ?_⟩, fun _ _ h => (by cases h)⟩
    exact State.frame_mono (State.frame_trans (s.saved_frame rest) (State.reply_frame _ _ _ _)) (by decide)
  | some p =>
    obtain ⟨m, page⟩ := p
    have hstored := State.frame_trans (s.saved_frame rest) (State.setStore_frame (s.saved rest) (dirWrite m v.scene (v.entry page)))
    have hdone := State.frame_trans hstored (State.reply_frame _ v.req 0x0201 { status := Err.ok })
    obtain ⟨g, hg, hsess⟩ := State.reply_sessions ((s.saved rest).setStore (dirWrite m v.scene (v.entry page))) v.req 0x0201
      { status := Err.ok }
    refine ⟨_, execSceneSaveDone_written hv hw, by simp [State.saved, State.setStore], fun h => (by cases h), fun m' page' h => ?_⟩
    cases h
    have hlast := congrArg VcpG.last (State.raise_frame (((s.saved rest).setStore (dirWrite m v.scene (v.entry page))).reply v.req 0x0201
      { status := Err.ok }) .sceneSaved v.part v.scene 0 .vcp (by decide))
    exact ⟨hlast.trans (State.reply_answers_nil _ _), by simp [State.setStore], State.raise_ev_answered (s := s) hg hsess hdone (by decide) _ _ _ _,
      State.frame_mono (State.frame_trans hdone (State.raise_frame _ _ _ _ _)) (by decide)⟩

/-- A list read from its start that fits is whole. -/
theorem pageItems_whole {l : List Item} (h : itemsFit l) : pageItems 0 l = l := if_pos h

theorem sceneList_reads (hq : s.admits r 2 q) : s.reads (.sceneList r 0) r 0x0203
    (((dirList s.scene.mstore).filter (fun e => q.receives e.2.part)).map (fun e => .blob (Fmt.toBE 2 e.1 ++ e.2.bytes))) := by
  refine fun _ hfit => ⟨_, rfl, State.serveRead_reads hq _ _ _ ?_ hfit⟩
  simp only [State.admitted_fields, Session.receives_accept, Ans.paged, pageItems_whole hfit]

theorem sceneDelete_frees {n : Nat} (hq : s.admits r 1 q) (ha : s.audioServed = true) (hn : n < 1024)
    (hused : (dirEnt s.scene.mstore n).used = true) (hmay : s.mayScene q (dirEnt s.scene.mstore n).part = true) :
    ∃ t, exec (.sceneDelete r n) s = .next t ∧ t.answers r 0x0204 0 0 [] ∧
      t.scene.mstore = dirWrite s.scene.mstore n DirEnt.free ∧ s.frame t [.mstore, .sessions, .vcp] := by
  have hact := State.serveAudio_answered (cmd := 0x0204) hq ha (act := fun q s =>
    let e := dirEnt s.scene.mstore n
    if 1024 ≤ n ∨ !e.used then (s, Ans.fail Err.scene)
    else if !s.mayScene q e.part then (s, Ans.fail Err.owner)
    else (s.setStore (dirWrite s.scene.mstore n DirEnt.free), Ans.good []))
    ((if_neg (by simp [hused]; omega)).trans (if_neg (by rw [State.mayScene_accept]; simp [hmay])))
  refine ⟨_, congrArg Host.Outcome.next hact, State.reply_answers_nil _ _, by simp [State.setStore], ?_⟩
  exact State.request_frame (by decide) (State.frame_mono (State.setStore_frame _ _) (by decide)) _

end

/-! ### Recall (R138) -/

section
variable {s : State} {r : Req} {q : Session} {id n scope : Nat} {x : StageSet}

/-- What SCENE_RECALL does with a set. -/
def recallInto (r : Req) (id n scope : Nat) (q : Session) (s : State) (x : StageSet) : State × Option Ans :=
  if x.st ≠ .open then (s, Ans.fail Err.state)
  else if 64 ≤ scope then (s, Ans.fail Err.range)
  else if x.reading.isSome then (s, Ans.fail Err.busy)
  else if 1024 ≤ n ∨ !(dirEnt s.scene.mstore n).used then (s, Ans.fail Err.scene)
  else if !s.mayScene q (dirEnt s.scene.mstore n).part then (s, Ans.fail Err.owner)
  else (s.updSet id (fun y => { y with reading := some (n, scope, r) }), none)

theorem execSceneRecall_own : exec (.sceneRecall r id n scope) s = .next (s.serveAudio r 0x0202 (fun q s =>
    s.withSet q id (recallInto r id n scope q s))) := rfl

/-- SCENE_RECALL of a scene that is there, into an OPEN set that reads none. -/
theorem recallInto_open {u : State} (hst : x.st = .open) (hread : x.reading = none) (hscope : scope < 64) (hn : n < 1024)
    (hused : (dirEnt u.scene.mstore n).used = true) : recallInto r id n scope q u x =
      if u.mayScene q (dirEnt u.scene.mstore n).part = false then (u, Ans.fail Err.owner)
      else (u.updSet id (fun y => { y with reading := some (n, scope, r) }), none) := by
  have h64 : ¬ 64 ≤ scope := by omega
  have h1024 : ¬ 1024 ≤ n := by omega
  simp [recallInto, hst, hread, h64, h1024, hused]

theorem sceneRecall_asks (h : s.admitsSet r id q x) (hst : x.st = .open) (hread : x.reading = none) (hscope : scope < 64) (hn : n < 1024)
    (hused : (dirEnt s.scene.mstore n).used = true) :
    (s.mayScene q (dirEnt s.scene.mstore n).part = false → s.refuses (.sceneRecall r id n scope) r 0x0202 Err.owner) ∧
    (s.mayScene q (dirEnt s.scene.mstore n).part = true → ∃ t, exec (.sceneRecall r id n scope) s = .next t ∧
      s.setBecomes t id { x with reading := some (n, scope, r) } ∧ t.vcp.last = s.vcp.last ∧ s.frame t [.scene, .sessions, .vcp]) := by
  have hact := recallInto_open (r := r) (id := id) (q := q.accept r.seq) (u := s.admitted r) hst hread hscope hn (by simpa using hused)
  rw [State.mayScene_accept] at hact
  simp only [State.admitted_fields] at hact
  refine ⟨fun hmay _ => ⟨_, execSceneRecall_own, State.ownSet_refused h (hact.trans (if_pos hmay))⟩, fun hmay => ?_⟩
  have hexec := execSceneRecall_own (s := s) (r := r) (id := id) (n := n) (scope := scope)
  rw [State.ownSet_waits h (hact.trans (if_neg (by simp [hmay])))] at hexec
  have hx := State.admitsSet_set h
  obtain rfl : x.id = id := State.stageSet?_id hx
  have hset := State.setBecomes_updSet (s := s.admitted r) (f := fun y => { y with reading := some (n, scope, r) })
    ((s.stageSet?_admitted r _).trans hx) (fun _ => rfl) (fun _ => rfl)
  exact ⟨_, hexec, State.setBecomes_of_admitted hset, by simp,
    State.waiting_frame (by decide) (State.frame_mono (State.updSet_frame _ _ _) (by decide))⟩

/-- A set that seeks the plane changes in what it says of the plane only. -/
theorem State.seekPlane_becomes (hx : s.stageSet? id = some x) : ∃ p w, s.setBecomes (s.seekPlane id) id { x with planeIn := p, waiting := w } := by
  by_cases hn : x.hasNodes = true
  · obtain ⟨p, w, hset, -⟩ := State.seekPlane_set hx hn
    exact ⟨p, w, hset, fun j hj => s.seekPlane_other hj⟩
  · refine ⟨x.planeIn, x.waiting, ?_, fun j hj => s.seekPlane_other hj⟩
    simp only [State.seekPlane, hx, Bool.not_eq_true _ ▸ hn]
    split
    · rw [State.stageSet?_writePlane, hx]
    · exact hx

/-- The set of a read that is over, with the scene's records. -/
def StageSet.recalled (y : StageSet) (l : List Added) (e : DirEnt) : StageSet :=
  { y with reading := none, added := y.added ++ l, scenes := y.scenes ++ [(e.prof, e.shape)] }

/-- What SCENE_READ_DONE leaves before the set seeks the plane. -/
def State.recalled (s : State) (id : Nat) (l : List Added) (e : DirEnt) : State :=
  (s.updSet id (fun y => { y with reading := none })).updSet id (fun y => { y with
    added := y.added ++ l, scenes := y.scenes ++ [(e.prof, e.shape)] })

theorem execSceneReadDone_good {e : DirEnt} {rec : List Nat} (hx : s.stageSet? id = some x) (hread : x.reading = some (n, scope, r))
    (hgood : sceneRead s.scene.mstore n = .good e rec)
    (hroom : s.areaUsed + ((s.recallOf n scope).map Added.cost).foldl (· + ·) 0 ≤ stageArea) :
    exec (.sceneReadDone id) s = .next (((s.recalled id (s.recallOf n scope) e).seekPlane id).reply r 0x0202 { status := Err.ok }) := by
  show execSceneReadDone id s = _
  simp only [execSceneReadDone, hx, hread, hgood, Nat.not_lt.2 hroom, if_false]
  rfl

theorem State.recalled_set (hx : s.stageSet? x.id = some x) (l : List Added) (e : DirEnt) :
    s.setBecomes (s.recalled x.id l e) x.id (x.recalled l e) := by
  have h1 := State.setBecomes_updSet (f := fun y => { y with reading := none }) hx (fun _ => rfl) (fun _ => rfl)
  have h2 := State.setBecomes_updSet (x := { x with reading := none }) (f := fun y => { y with
    added := y.added ++ l, scenes := y.scenes ++ [(e.prof, e.shape)] }) h1.1 (fun _ => rfl) (fun _ => rfl)
  exact State.setBecomes_trans h1 h2

theorem sceneReadDone_recalls {e : DirEnt} {rec : List Nat} (hx : s.stageSet? id = some x) (hread : x.reading = some (n, scope, r))
    (hgood : sceneRead s.scene.mstore n = .good e rec)
    (hroom : s.areaUsed + ((s.recallOf n scope).map Added.cost).foldl (· + ·) 0 ≤ stageArea) :
    ∃ t y, exec (.sceneReadDone id) s = .next t ∧ s.setBecomes t id y ∧ y.added = x.added ++ s.recallOf n scope ∧
      y.scenes = x.scenes ++ [(e.prof, e.shape)] ∧ y.reading = none ∧ t.answers r 0x0202 0 0 [] ∧
      s.frame t [.scene, .mere, .sessions, .vcp] := by
  have hexec := execSceneReadDone_good hx hread hgood hroom
  obtain rfl : x.id = id := State.stageSet?_id hx
  generalize s.recallOf n scope = l at hexec
  have hset := State.recalled_set hx l e
  obtain ⟨p, w, hseek⟩ := State.seekPlane_becomes hset.1
  have hframe := State.frame_trans (State.frame_next ((State.updSet_frame s _ _)) (State.updSet_frame _ _ _))
    (State.seekPlane_frame (s.recalled x.id l e) x.id)
  refine ⟨_, { x.recalled l e with planeIn := p, waiting := w }, hexec, ?_, rfl, rfl, rfl, State.reply_answers_nil _ _,
    State.frame_mono (State.frame_trans hframe (State.reply_frame _ _ _ _)) (by decide)⟩
  exact State.setBecomes_trans hset ⟨(State.stageSet?_reply _ _ _ _ _).trans hseek.1, fun j hj =>
    (State.stageSet?_reply _ _ _ _ _).trans (hseek.2 j hj)⟩

end

/-! ### Cue lists (R131) -/

section
variable {s : State} {r : Req} {q : Session} {l : Nat}

/-- A cue list is read from the table of cue lists alone. -/
theorem State.cueList_congr {t : State} (h : t.scene.cues = s.scene.cues) (j : Nat) : t.cueList j = s.cueList j := by
  rw [State.cueList, h, State.cueList]

@[simp] theorem State.cueList_admitted (j : Nat) : (s.admitted r).cueList j = s.cueList j := State.cueList_congr (by simp) j

@[simp] theorem State.cueList_reply (cmd : Nat) (a : Ans) (j : Nat) : (s.reply r cmd a).cueList j = s.cueList j :=
  State.cueList_congr (by simp) j

/-- A cue list read after one was replaced. -/
theorem State.cueList_setCues (c : CueList) (j : Nat) : (s.setCues l c).cueList j = if j = l then c else s.cueList j := by
  simp [State.cueList, State.setCues, Cells.get_put]

theorem State.setCues_frame (s : State) (l : Nat) (c : CueList) : s.frame (s.setCues l c) [.scene] := State.setScene_frame rfl

/-- A list as CUE_LOAD leaves it. -/
def CueList.loaded (cues : List Cue) : CueList := { st := if cues = [] then .empty else .loaded, cues := cues, mcc := [], next := 0 }

theorem cueLoad_loads {cues : List Cue} (hq : s.admits r 1 q) (ha : s.audioServed = true) (hl : l < 16) (hst : (s.cueList l).st ≠ .armed)
    (hlen : cues.length ≤ 256) (hok : cues.all cueOk = true) : ∃ t, exec (.cueLoad r l cues) s = .next t ∧ t.answers r 0x0205 0 0 [] ∧
      t.cueList l = CueList.loaded cues ∧ (∀ j, j ≠ l → t.cueList j = s.cueList j) ∧ s.frame t [.scene, .sessions, .vcp] := by
  have hact := State.serveAudio_answered (cmd := 0x0205) hq ha (act := fun _ s =>
    if 16 ≤ l then (s, Ans.fail Err.notFound)
    else if (s.cueList l).st = .armed then (s, Ans.fail Err.state)
    else if 256 < cues.length then (s, Ans.fail Err.capacity)
    else if !cues.all cueOk then (s, Ans.fail Err.range)
    else (s.setCues l { st := if cues.isEmpty then .empty else .loaded, cues := cues, mcc := [], next := 0 }, Ans.good []))
    ((if_neg (by omega)).trans ((if_neg (by simpa using hst)).trans ((if_neg (by omega)).trans (if_neg (by rw [hok]; decide)))))
  refine ⟨_, congrArg Host.Outcome.next hact, State.reply_answers_nil _ _, ?_, fun j hj => ?_,
    State.request_frame (by decide) (State.frame_mono (State.setCues_frame _ _ _) (by decide)) _⟩
  · rw [State.cueList_reply, State.cueList_setCues, if_pos rfl]
    simp [CueList.loaded]
  · rw [State.cueList_reply, State.cueList_setCues, if_neg hj, State.cueList_admitted]

theorem cueRead_reads (hq : s.admits r 2 q) (hl : l < 16) : s.reads (.cueRead r l) r 0x0208
    (.words [(s.cueList l).st.code, (s.cueList l).next] ::
      ((s.cueList l).cues.map (fun c => .words (cueWords c)) ++ (s.cueList l).mcc.map Item.mcc)) := by
  refine State.reads_of_serveRead hq rfl ?_
  simp only [State.cueList_admitted, Nat.not_le.2 hl, if_false]

/-! ### The plane of the next cue (R132) -/

/-- Loading the plane for the next cue leaves the state, passes the plane to the cue's set, or writes the cue's scene into it. -/
theorem State.loadCue_cases (s : State) : s.loadCue = s ∨ s.scene.holder = none ∧ ((∃ id, s.loadCue = s.givePlane id) ∨
    ∃ w, s.loadCue = (s.setScene (fun g => { g with holder := some cueHolder })).stagePlane (s.cueAdds w)) := by
  unfold State.loadCue
  split
  · exact .inl rfl
  · next hh =>
    have hfree : s.scene.holder = none := by simpa using hh
    split
    · exact .inl rfl
    · exact .inr ⟨hfree, .inl ⟨_, rfl⟩⟩
    · exact .inr ⟨hfree, .inr ⟨_, rfl⟩⟩

theorem State.loadCue_frame (s : State) : s.frame s.loadCue [.scene, .mere] := by
  obtain h | ⟨-, ⟨id, h⟩ | ⟨w, h⟩⟩ := s.loadCue_cases <;> rw [h]
  · exact s.frame_refl _
  · exact s.givePlane_frame id
  · exact State.frame_trans (State.setScene_frame rfl) (State.stagePlane_frame _ _)

/-- A plane that is held stays. -/
theorem State.loadCue_held {h : Nat} (hh : s.scene.holder = some h) : s.loadCue = s := by
  obtain h | ⟨hn, -⟩ := s.loadCue_cases
  · exact h
  · rw [hh] at hn; cases hn

/-- Passing the plane changes the holder and what a set says of the plane. -/
theorem State.givePlane_scene (s : State) (id : Nat) : (s.givePlane id).scene = { s.scene with
    holder := some id, sets := s.scene.sets.map (fun x => if x.id = id then { x with planeIn := true, waiting := false } else x) } := by
  simp [State.givePlane]

/-- Loading the plane for the next cue changes the holder and what the sets say of the plane. -/
theorem State.loadCue_scene_eq (s : State) : ∃ h sets, s.loadCue.scene = { s.scene with holder := h, sets := sets } ∧
    ∀ y ∈ sets, ∃ z ∈ s.scene.sets, y.id = z.id ∧ y.st = z.st := by
  obtain h | ⟨-, ⟨id, h⟩ | ⟨w, h⟩⟩ := s.loadCue_cases <;> rw [h]
  · exact ⟨_, _, rfl, fun y hy => ⟨y, hy, rfl, rfl⟩⟩
  · refine ⟨_, _, s.givePlane_scene id, fun y hy => ?_⟩
    obtain ⟨z, hz, rfl⟩ := List.mem_map.1 hy
    exact ⟨z, hz, by split <;> rfl, by split <;> rfl⟩
  · exact ⟨some cueHolder, s.scene.sets, by simp, fun y hy => ⟨y, hy, rfl, rfl⟩⟩

@[simp] theorem State.loadCue_cues (s : State) : s.loadCue.scene.cues = s.scene.cues := by
  obtain ⟨h, sets, e, -⟩ := s.loadCue_scene_eq
  rw [e]

@[simp] theorem State.loadCue_units (s : State) : s.loadCue.scene.units = s.scene.units := by
  obtain ⟨h, sets, e, -⟩ := s.loadCue_scene_eq
  rw [e]

/-! ### Arming and disarming (R131, R132) -/

/-- The sets noting the samples at which an armed list changes what they were checked against (R124). -/
def SceG.changedAtAll (g : SceG) (cs : List Nat) : SceG := cs.foldl (fun g c => g.changedAt c 0) g

theorem SceG.changedAtAll_eq (g : SceG) (cs : List Nat) : ∃ sets, g.changedAtAll cs = { g with sets := sets } := by
  unfold SceG.changedAtAll
  induction cs generalizing g with
  | nil => exact ⟨g.sets, rfl⟩
  | cons c cs ih =>
    obtain ⟨sets, h⟩ := ih (g.changedAt c 0)
    exact ⟨sets, h⟩

/-- A list armed or disarmed, before the plane is loaded. -/
def State.retimed (s : State) (l : Nat) (c : CueList) (cs : List Nat) : State := (s.setCues l c).setScene (fun g => g.changedAtAll cs)

theorem State.retimed_scene (s : State) (l : Nat) (c : CueList) (cs : List Nat) :
    ∃ sets, (s.retimed l c cs).scene = { s.scene with cues := Cells.put CueList.reset s.scene.cues l c, sets := sets } := by
  obtain ⟨sets, h⟩ := SceG.changedAtAll_eq (s.setCues l c).scene cs
  refine ⟨sets, ?_⟩
  rw [State.retimed, (State.setScene_fields _ _).1, h]
  simp [State.setCues]

theorem State.retimed_frame (s : State) (l : Nat) (c : CueList) (cs : List Nat) : s.frame (s.retimed l c cs) [.scene] := by
  refine State.frame_next (s.setCues_frame l c) (State.setScene_frame ?_)
  obtain ⟨sets, h⟩ := SceG.changedAtAll_eq (s.setCues l c).scene cs
  rw [h]

/-- The list of a state whose table of lists is that of a list armed or disarmed. -/
theorem State.cueList_retimed {t : State} {c : CueList} {cs : List Nat} (h : t.scene.cues = (s.retimed l c cs).scene.cues) :
    t.cueList l = c := by
  obtain ⟨sets, e⟩ := s.retimed_scene l c cs
  rw [State.cueList, h, e, Cells.get_put_same]

/-- A list as arming leaves it. -/
def CueList.armed (m : List (Cue × Nat)) : CueList := { st := .armed, cues := m.map (·.1), mcc := m.map (·.2), next := 0 }

/-- A list that can be armed. -/
theorem State.armList_armed {sid : Nat} (h : s.armAll sid l [] (s.timedCues (s.cueList l)) = none) :
    s.armList sid l = ((s.retimed l (CueList.armed (s.timedCues (s.cueList l))) ((s.timedCues (s.cueList l)).map (·.2))).loadCue,
      { status := Err.ok }) := by
  rw [State.armList, h]
  rfl

theorem cueArm_arms (hq : s.admits r 1 q) (ha : s.audioServed = true) (hl : l < 16) (hst : (s.cueList l).st = .loaded)
    (harm : (s.admitted r).armAll r.sid l [] ((s.admitted r).timedCues (s.cueList l)) = none) :
    ∃ t, exec (.cueArm r l) s = .next t ∧ t.answers r 0x0206 0 0 [] ∧
      t.cueList l = CueList.armed ((s.admitted r).timedCues (s.cueList l)) ∧
      (∀ h, s.scene.holder = some h → t.scene.holder = some h) ∧ s.frame t [.scene, .mere, .sessions, .vcp] := by
  have harm' := State.armList_armed (s := s.admitted r) (sid := r.sid) (l := l) (by rw [State.cueList_admitted]; exact harm)
  rw [State.cueList_admitted] at harm'
  generalize (s.admitted r).timedCues (s.cueList l) = m at harm' ⊢
  have hact := State.serveAudio_answered (cmd := 0x0206) hq ha (act := fun q s =>
    if 16 ≤ l then (s, Ans.fail Err.notFound)
    else if (s.cueList l).st = .armed ∨ (s.cueList l).st = .empty then (s, Ans.fail Err.state)
    else let (s1, a) := s.armList q.sid l; (s1, some a))
    ((if_neg (by omega)).trans ((if_neg (by simp [hst])).trans (by rw [(Session.accept_fields _ _).1, State.admits_sid hq, harm'])))
  refine ⟨_, congrArg Host.Outcome.next hact, State.reply_answers_nil _ _, ?_, fun h hh => ?_, ?_⟩
  · exact State.cueList_retimed (s := s.admitted r) (cs := m.map (·.2)) (by simp)
  · obtain ⟨sets, e⟩ := (s.admitted r).retimed_scene l (CueList.armed m) (m.map (·.2))
    have hheld : ((s.admitted r).retimed l (CueList.armed m) (m.map (·.2))).scene.holder = some h := by simpa [e] using hh
    simp [State.loadCue_held hheld, hheld]
  · exact State.request_frame (by decide) (State.frame_mono (State.frame_trans (State.retimed_frame _ _ _ _) (State.loadCue_frame _))
      (by decide)) _

/-- With no commit of its units waiting nothing is left to take. -/
theorem State.flushUnits_none (h : s.scene.units = none) : s.flushUnits = s := by
  rw [State.flushUnits, h]

/-- A list as disarming leaves it. -/
def CueList.disarmed (c : CueList) : CueList := { c with st := .loaded, mcc := [], next := 0 }

/-- Disarming, with no commit of its units waiting. -/
theorem State.disarm_eq (h : s.scene.units = none) : s.disarm l =
    ((s.retimed l (s.cueList l).disarmed ((s.cueList l).left.map (·.2))).freePlane cueHolder).loadCue := by
  refine State.flushUnits_none ?_
  obtain ⟨sets, e⟩ := s.retimed_scene l (s.cueList l).disarmed ((s.cueList l).left.map (·.2))
  have hu : (s.retimed l (s.cueList l).disarmed ((s.cueList l).left.map (·.2))).scene.units = none := by rw [e]; exact h
  rw [State.loadCue_units]
  unfold State.freePlane
  split
  · exact hu
  · exact hu

/-- Freeing the plane leaves the cue lists. -/
@[simp] theorem State.freePlane_cues (s : State) (i : Nat) : (s.freePlane i).scene.cues = s.scene.cues := by
  unfold State.freePlane
  split <;> simp

theorem cueDisarm_disarms (hq : s.admits r 1 q) (ha : s.audioServed = true) (hl : l < 16) (hst : (s.cueList l).st = .armed)
    (hu : s.scene.units = none) : ∃ t, exec (.cueDisarm r l) s = .next t ∧ t.answers r 0x0207 0 0 [] ∧
      t.cueList l = (s.cueList l).disarmed ∧ s.frame t [.scene, .mere, .sessions, .vcp] := by
  have hdis := State.disarm_eq (s := s.admitted r) (l := l) (by simpa using hu)
  rw [State.cueList_admitted] at hdis
  have hact := State.serveAudio_answered (cmd := 0x0207) hq ha (act := fun _ s =>
    let c := s.cueList l
    if 16 ≤ l then (s, Ans.fail Err.notFound)
    else if c.st ≠ .armed then (s, Ans.fail Err.state)
    else (s.disarm l, Ans.good []))
    ((if_neg (by omega)).trans ((if_neg (by simp [hst])).trans (by rw [hdis]; rfl)))
  refine ⟨_, congrArg Host.Outcome.next hact, State.reply_answers_nil _ _, ?_, ?_⟩
  · exact State.cueList_retimed (s := s.admitted r) (cs := (s.cueList l).left.map (·.2)) (by simp)
  · exact State.request_frame (by decide) (State.frame_mono (State.frame_trans (State.frame_trans (State.retimed_frame _ _ _ _)
      (State.freePlane_frame _ _)) (State.loadCue_frame _)) (by decide)) _

/-! ### Firing (R132, R133) -/

/-- The list of a cue that has fired: its next cue is the one after. -/
def CueList.fired (c : CueList) (rest : List (Cue × Nat)) : CueList := { c with next := c.next + 1, st := if rest = [] then .done else .armed }

/-- What firing leaves before the commit: the list moved on, and its event. -/
def State.cueTold (s : State) (l : Nat) (rest : List (Cue × Nat)) : State :=
  (s.setCues l ((s.cueList l).fired rest)).raise .cueFired 0 l 0

/-- What a cue that fires at c commits. -/
def State.fire (s v : State) (w : CueWhat) (c : Nat) : State :=
  match w with
  | .scene _ _ =>
    let s4 := v.commitSet (s.cueAdds w) 64 256 c 0
    if (s.cueAdds w).any Added.hasNodes then (s4.freePlane cueHolder).loadCue else s4
  | .set id => match s.stageSet? id with
    | some x => if x.st = .checked ∧ !x.waiting then (v.commitSet x.added x.attrs.cfLen x.attrs.dxLen c id).loadCue else v.flushUnits
    | none => v.flushUnits

variable {w : CueWhat} {m c : Nat} {rest : List (Cue × Nat)}

/-- CUE_FIRED of an armed list whose next cue has an MCC value that has come. -/
theorem execCueFired_due (hst : (s.cueList l).st = .armed) (hleft : (s.cueList l).left = (⟨w, .mcc m⟩, c) :: rest) (hc : c ≤ s.mcc) :
    exec (.cueFired l) s = .next (s.fire (s.cueTold l rest) w c) := by
  have he : (if rest.isEmpty then CueSt.done else .armed) = if rest = [] then CueSt.done else .armed := by simp
  show execCueFired l s = _
  simp only [execCueFired, hst, hleft, Nat.not_lt.2 hc, if_false, Bool.false_eq_true, he]
  rfl

/-- The sets after the plane was loaded for the next cue, by id and state. -/
theorem State.loadCue_committed {u : State} {id : Nat} (h : ∀ z ∈ u.scene.sets, z.id = id → z.st = .committed) :
    ∀ y ∈ u.loadCue.scene.sets, y.id = id → y.st = .committed := by
  obtain ⟨p, sets, e, hsets⟩ := u.loadCue_scene_eq
  rw [e]
  intro y hy hid
  obtain ⟨z, hz, hzid, hzst⟩ := hsets y hy
  exact hzst.trans (h z hz (hzid.symm.trans hid))

/-- Loading or freeing the plane leaves the event registers. -/
theorem State.marks_of_frame {u t : State} {l : List Part} {e : Ev} (hf : u.frame t l) (hl : .ev ∉ l) (h : u.marks e) : t.marks e := by
  have hev : t.ev = u.ev := hf .ev hl
  rwa [State.marks, hev]

theorem State.fire_set {v : State} {id : Nat} {x : StageSet} (hx : s.stageSet? id = some x) (hst : x.st = .checked) (hw : x.waiting = false) :
    s.fire v (.set id) c = (v.commitSet x.added x.attrs.cfLen x.attrs.dxLen c id).loadCue := by
  simp [State.fire, hx, hst, hw]

theorem State.fire_set_not {v : State} {id : Nat} {x : StageSet} (hx : s.stageSet? id = some x) (h : x.st ≠ .checked ∨ x.waiting = true)
    (hu : v.scene.units = none) : s.fire v (.set id) c = v := by
  have hno : ¬ (x.st = .checked ∧ (!x.waiting) = true) := by
    rintro ⟨hst, hw⟩
    rcases h with h | h
    · exact h hst
    · simp [h] at hw
  simp only [State.fire, hx, hno, if_false, State.flushUnits_none hu]

theorem State.fire_scene {v : State} {n scope : Nat} : s.fire v (.scene n scope) c =
    if (s.cueAdds (.scene n scope)).any Added.hasNodes = true then
      ((v.commitSet (s.cueAdds (.scene n scope)) 64 256 c 0).freePlane cueHolder).loadCue
    else v.commitSet (s.cueAdds (.scene n scope)) 64 256 c 0 := rfl

theorem cueFired_commits (hst : (s.cueList l).st = .armed) (hleft : (s.cueList l).left = (⟨w, .mcc m⟩, c) :: rest) (hc : c ≤ s.mcc) :
    (∀ id x, w = .set id → s.stageSet? id = some x → x.st = .checked → x.waiting = false → ∃ t, exec (.cueFired l) s = .next t ∧
      t = ((s.cueTold l rest).commitSet x.added x.attrs.cfLen x.attrs.dxLen c id).loadCue ∧ t.marks .commitApplied ∧
      (∀ y ∈ t.scene.sets, y.id = id → y.st = .committed)) ∧
    (∀ id x, w = .set id → s.stageSet? id = some x → x.st ≠ .checked ∨ x.waiting = true → s.scene.units = none →
      ∃ t, exec (.cueFired l) s = .next t ∧ t = s.cueTold l rest) ∧
    (∀ n scope, w = .scene n scope → (s.cueAdds w).any Added.hasNodes = true → ∃ t, exec (.cueFired l) s = .next t ∧
      t = (((s.cueTold l rest).commitSet (s.cueAdds w) 64 256 c 0).freePlane cueHolder).loadCue ∧ t.marks .commitApplied) ∧
    (∀ n scope, w = .scene n scope → (s.cueAdds w).any Added.hasNodes = false → ∃ t, exec (.cueFired l) s = .next t ∧
      t = (s.cueTold l rest).commitSet (s.cueAdds w) 64 256 c 0 ∧ t.marks .commitApplied) := by
  have hexec := execCueFired_due hst hleft hc
  refine ⟨fun id x hw hx hck hwait => ?_, fun id x hw hx hno hu => ?_, fun n scope hw hn => ?_, fun n scope hw hn => ?_⟩ <;> subst hw
  · rw [State.fire_set hx hck hwait] at hexec
    exact ⟨_, hexec, rfl, State.marks_of_frame (State.loadCue_frame _) (by decide) (State.commitSet_marks _ _ _ _ _ _),
      State.loadCue_committed (fun z hz hid => (State.commitSet_sets _ _ _ _ _ _ z hz hid).1)⟩
  · rw [State.fire_set_not hx hno (by simpa [State.cueTold, State.setCues] using hu)] at hexec
    exact ⟨_, hexec, rfl⟩
  · rw [State.fire_scene, if_pos hn] at hexec
    exact ⟨_, hexec, rfl, State.marks_of_frame (State.frame_next (State.freePlane_frame _ _) (State.loadCue_frame _)) (by decide)
      (State.commitSet_marks _ _ _ _ _ _)⟩
  · rw [State.fire_scene, if_neg (by simp [hn])] at hexec
    exact ⟨_, hexec, rfl, State.commitSet_marks _ _ _ _ _ _⟩

end

/-- Settles O42: the store's commands, the recall, the cue lists and their firing, each by the lemma on what it leaves. -/
theorem scenesAndCueLists : Obligations.ScenesAndCueLists := by
  unfold Obligations.ScenesAndCueLists
  intro s r q
  refine ⟨fun part n label hq ha h0 h16 hn hown hfree => ?_, fun v rest hv hr => sceneSaveDone_ends hv hr, sceneList_reads,
    fun n => sceneDelete_frees, fun id x n scope => sceneRecall_asks, fun id x n scope e rec => sceneReadDone_recalls,
    fun l cues hq ha hl hst hlen hok _ => cueLoad_loads hq ha hl hst hlen hok, fun l hq ha hl hst harm _ => cueArm_arms hq ha hl hst harm,
    fun l hq ha hl hst _ hu => cueDisarm_disarms hq ha hl hst hu, fun l => cueRead_reads, fun l w m c rest => cueFired_commits⟩
  exact sceneSave_saves hq ha h0 h16 hn hown hfree

end Sys2Proof.Machine
end

section
/-! PROOFS. What leaves every addressed memory, the node memory and the group table: a rule per function of the model that writes none of them (its
commands apart); O59. -/
namespace Sys2Proof.Machine

/-! ### State literals, branches and folds

An update of a state's fields is a state literal to `simp`: it has the memories of the state whose groups it names, and each group with a
memory in it has a rule of its own, for a change of the group that leaves the memory. -/

@[simp ↓] theorem State.mk_memWf (s : State)
    (mcc dev params power boot sec audio spring tarn ports conv net cku ev fault twin legacy free draws pending) :
    State.memWf ⟨mcc, dev, params, power, boot, sec, s.fw, audio, s.mere, spring, tarn, ports, conv, net, cku, s.vcp, ev, s.scene, s.fab,
      fault, twin, legacy, free, draws, pending⟩ = s.memWf := by
  simp [State.memWf, State.memories, State.nodesWf]

@[simp ↓] theorem State.mk_memWf_vcp (s : State)
    (mcc dev params power boot sec audio spring tarn ports conv net cku ev fault twin legacy free draws pending) (v : VcpG) (h : v.mbx = s.vcp.mbx) :
    State.memWf ⟨mcc, dev, params, power, boot, sec, s.fw, audio, s.mere, spring, tarn, ports, conv, net, cku, v, ev, s.scene, s.fab,
      fault, twin, legacy, free, draws, pending⟩ = s.memWf := by
  simp [State.memWf, State.memories, State.nodesWf, h]

@[simp ↓] theorem State.mk_memWf_scene (s : State)
    (mcc dev params power boot sec audio spring tarn ports conv net cku ev fault twin legacy free draws pending) (g : SceG) (h : g.mstore = s.scene.mstore) :
    State.memWf ⟨mcc, dev, params, power, boot, sec, s.fw, audio, s.mere, spring, tarn, ports, conv, net, cku, s.vcp, ev, g, s.fab,
      fault, twin, legacy, free, draws, pending⟩ = s.memWf := by
  simp [State.memWf, State.memories, State.nodesWf, h]

@[simp ↓] theorem State.mk_memWf_fab (s : State)
    (mcc dev params power boot sec audio spring tarn ports conv net cku ev fault twin legacy free draws pending) (g : FabG)
    (h : g.pool = s.fab.pool ∧ g.staging = s.fab.staging ∧ g.dram = s.fab.dram) :
    State.memWf ⟨mcc, dev, params, power, boot, sec, s.fw, audio, s.mere, spring, tarn, ports, conv, net, cku, s.vcp, ev, s.scene, g,
      fault, twin, legacy, free, draws, pending⟩ = s.memWf := by
  obtain ⟨h1, h2, h3⟩ := h
  simp [State.memWf, State.memories, State.nodesWf, h1, h2, h3]

@[simp ↓] theorem State.mk_memWf_fw (s : State)
    (mcc dev params power boot sec audio spring tarn ports conv net cku ev fault twin legacy free draws pending) (g : FwG)
    (h : g.slotA.data = s.fw.slotA.data ∧ g.slotB.data = s.fw.slotB.data) :
    State.memWf ⟨mcc, dev, params, power, boot, sec, g, audio, s.mere, spring, tarn, ports, conv, net, cku, s.vcp, ev, s.scene, s.fab,
      fault, twin, legacy, free, draws, pending⟩ = s.memWf := by
  obtain ⟨h1, h2⟩ := h
  simp [State.memWf, State.memories, State.nodesWf, h1, h2]

@[simp ↓] theorem State.mk_memWf_mere (s : State)
    (mcc dev params power boot sec audio spring tarn ports conv net cku ev fault twin legacy free draws pending) (g : MereG) (h : g.step = s.mere.step) :
    State.memWf ⟨mcc, dev, params, power, boot, sec, s.fw, audio, g, spring, tarn, ports, conv, net, cku, s.vcp, ev, s.scene, s.fab,
      fault, twin, legacy, free, draws, pending⟩ = s.memWf := by
  simp [State.memWf, State.memories, State.nodesWf, h]

@[simp] theorem State.ite_memWf (p : Prop) [Decidable p] (a b : State) : (if p then a else b).memWf = if p then a.memWf else b.memWf :=
  apply_ite _ _ _ _

@[simp] theorem State.foldl_memWf {α : Type} (l : List α) (f : State → α → State) (hf : ∀ s a, (f s a).memWf = s.memWf) (s : State) :
    (l.foldl f s).memWf = s.memWf :=
  List.foldlRecOn l f (motive := fun t => t.memWf = s.memWf) rfl fun t ht a _ => (hf t a).trans ht

@[simp] theorem State.setScene_memWf (s : State) (f : SceG → SceG) (h : (f s.scene).mstore = s.scene.mstore) :
    (s.setScene f).memWf = s.memWf := by simp [State.setScene, h]

@[simp] theorem State.setVcp_memWf (s : State) (f : VcpG → VcpG) (h : (f s.vcp).mbx = s.vcp.mbx) :
    (s.setVcp f).memWf = s.memWf := by simp [State.setVcp, h]

@[simp] theorem State.setFab_memWf (s : State) (f : FabG → FabG)
    (h : (f s.fab).pool = s.fab.pool ∧ (f s.fab).staging = s.fab.staging ∧ (f s.fab).dram = s.fab.dram) :
    (s.setFab f).memWf = s.memWf := by simp [State.setFab, h]

@[simp] theorem State.setMere_memWf (s : State) (f : MereG → MereG) (h : (f s.mere).step = s.mere.step) :
    (s.setMere f).memWf = s.memWf := by simp [State.setMere, h]

/-- A fold that carries a value beside the state. -/
theorem State.foldl_fst_memWf {α β : Type} (l : List α) (f : State × β → α → State × β) (hf : ∀ a x, (f a x).1.memWf = a.1.memWf)
    (a : State × β) : (l.foldl f a).1.memWf = a.1.memWf :=
  List.foldlRecOn l f (motive := fun p => p.1.memWf = a.1.memWf) rfl fun p hp x _ => (hf p x).trans hp

theorem State.memWf_fst {β : Type} {e : State × β} {s : State} {b : β} (h : e = (s, b)) : s.memWf = e.1.memWf := by rw [h]

/-! ### The functions of the model, file by file -/

section
variable (s : State)

/-! #### Params -/

@[simp] theorem State.setVal_memWf (h w) : (s.setVal h w).memWf = s.memWf := by simp [State.setVal]

/-! #### Event -/

@[simp] theorem State.setEv_memWf (f) : (s.setEv f).memWf = s.memWf := by simp [State.setEv]

@[simp] theorem State.raiseTo_memWf (only ev part obj val content) : (s.raiseTo only ev part obj val content).memWf = s.memWf := by
  simp [State.raiseTo]

@[simp] theorem State.raise_memWf (ev part obj val) : (s.raise ev part obj val).memWf = s.memWf := by simp [State.raise]
@[simp] theorem State.raiseD_memWf (ev part obj content) : (s.raiseD ev part obj content).memWf = s.memWf := by simp [State.raiseD]
@[simp] theorem State.raises_memWf (ev l) : (s.raises ev l).memWf = s.memWf := by simp [State.raises]

/-! #### Slot -/

@[simp] theorem State.putRx_memWf (ref n v) : (s.putRx ref n v).memWf = s.memWf := by simp [State.putRx]
@[simp] theorem State.takeFree_memWf : s.takeFree.2.memWf = s.memWf := by simp [State.takeFree]
@[simp] theorem State.draw_memWf : s.draw.2.memWf = s.memWf := by simp [State.draw]

/-! #### Reply -/

@[simp] theorem State.updSession_memWf (sid f) : (s.updSession sid f).memWf = s.memWf := by simp [State.updSession]
@[simp] theorem State.updChannel_memWf (c f) : (s.updChannel c f).memWf = s.memWf := by simp [State.updChannel]

@[simp] theorem State.toUdp_memWf (o l) : (s.toUdp o l).memWf = s.memWf := by
  unfold State.toUdp
  split <;> simp

@[simp] theorem State.sendPushes_memWf (l) : (s.sendPushes l).memWf = s.memWf := by
  unfold State.sendPushes
  exact State.foldl_memWf _ _ (fun s p => by split <;> simp) _

@[simp] theorem State.sendTo_memWf (o k rep) : (s.sendTo o k rep).memWf = s.memWf := by
  unfold State.sendTo
  split <;> simp

@[simp] theorem State.forget_memWf (r) : (s.forget r).memWf = s.memWf := by simp [State.forget]
@[simp] theorem State.send_memWf (x rep) : (s.send x rep).memWf = s.memWf := by simp [State.send]

@[simp] theorem State.reply_memWf (r cmd a0) : (s.reply r cmd a0).memWf = s.memWf := by
  unfold State.reply
  dsimp only
  split <;> simp

@[simp] theorem State.unbox_memWf (r) : (s.unbox r).memWf = s.memWf := by simp [State.unbox]
@[simp] theorem State.park_memWf (r) : (s.park r).memWf = s.memWf := by simp [State.park]

@[simp] theorem State.freeChannel_memWf (o) : (s.freeChannel o).memWf = s.memWf := by
  unfold State.freeChannel
  split <;> simp

/-- What serving a request can do to the memories: nothing, or what its action does to a state that has them as they were. -/
theorem State.serve_memWf_cases (s : State) (r : Req) (cmd : Nat) (need : RoleReq) (act : Session → State → State × Option Ans) :
    (s.serve r cmd need act).memWf = s.memWf ∨ ∃ x t, t.memWf = s.memWf ∧ (s.serve r cmd need act).memWf = (act x t).1.memWf := by
  unfold State.serve
  split
  · exact .inl rfl
  · dsimp only
    split
    · exact .inl (by simp)
    next x _ =>
      split
      · exact .inl (by simp)
      · split
        · exact .inl (by split_ifs <;> simp)
        · exact .inl (by simp)
        · split
          · exact .inl (by simp)
          · split
            · exact .inl (by simp)
            · refine .inr ⟨x.accept r.seq, (s.unbox r).updSession r.sid (fun y => { y.accept r.seq with heard := (s.unbox r).mcc }), by simp, ?_⟩
              split
              next e => rw [State.reply_memWf, State.memWf_fst e]
              next e => rw [State.memWf_fst e]

theorem State.serve_memWf (s : State) (r : Req) (cmd : Nat) (need : RoleReq) (act : Session → State → State × Option Ans)
    (h : ∀ x t, (act x t).1.memWf = t.memWf) : (s.serve r cmd need act).memWf = s.memWf := by
  obtain e | ⟨x, t, e1, e2⟩ := s.serve_memWf_cases r cmd need act
  · exact e
  · rw [e2, h, e1]

theorem State.serve_keeps (s : State) (r : Req) (cmd : Nat) (need : RoleReq) (act : Session → State → State × Option Ans)
    (h : ∀ x t, t.memWf = true → (act x t).1.memWf = true) (hs : s.memWf = true) : (s.serve r cmd need act).memWf = true := by
  obtain e | ⟨x, t, e1, e2⟩ := s.serve_memWf_cases r cmd need act
  · rw [e, hs]
  · rw [e2]
    exact h x t (e1.trans hs)

theorem State.serveAudio_memWf (s : State) (r : Req) (cmd : Nat) (act : Session → State → State × Option Ans)
    (h : ∀ x t, (act x t).1.memWf = t.memWf) : (s.serveAudio r cmd act).memWf = s.memWf :=
  s.serve_memWf r cmd 1 _ (fun x t => by split_ifs <;> simp [h])

theorem State.serveAudio_keeps (s : State) (r : Req) (cmd : Nat) (act : Session → State → State × Option Ans)
    (h : ∀ x t, t.memWf = true → (act x t).1.memWf = true) (hs : s.memWf = true) : (s.serveAudio r cmd act).memWf = true :=
  s.serve_keeps r cmd 1 _ (fun x t ht => by
    split_ifs
    · exact h x t ht
    · exact ht) hs

@[simp] theorem State.serveRead_memWf (s : State) (r : Req) (cmd : Nat) (need : RoleReq) (f : Session → State → Option Ans) :
    (s.serveRead r cmd need f).memWf = s.memWf := s.serve_memWf r cmd need _ (fun _ _ => rfl)

/-! #### Maint -/

@[simp] theorem State.setFault_memWf (f) : (s.setFault f).memWf = s.memWf := by simp [State.setFault]
@[simp] theorem State.maintStart_memWf (m) : (s.maintStart m).memWf = s.memWf := by simp [State.maintStart]

@[simp] theorem State.maintEnd_memWf : s.maintEnd.memWf = s.memWf := by
  unfold State.maintEnd
  split <;> simp

@[simp] theorem State.maintAbort_memWf : s.maintAbort.memWf = s.memWf := by
  unfold State.maintAbort
  split <;> simp

@[simp] theorem State.maintAsk_memWf (m noWait) : (s.maintAsk m noWait).1.memWf = s.memWf := by
  unfold State.maintAsk
  split_ifs <;> simp

/-! #### PortBase -/

@[simp] theorem State.setSap_memWf (p tx d) : (s.setSap p tx d).memWf = s.memWf := by simp [State.setSap]
@[simp] theorem State.setMadi_memWf (p tx d) : (s.setMadi p tx d).memWf = s.memWf := by simp [State.setMadi]
@[simp] theorem State.sapOrigin_memWf (p tx) : (s.sapOrigin p tx).memWf = s.memWf := by simp [State.sapOrigin]
@[simp] theorem State.madiOrigin_memWf (p) : (s.madiOrigin p).memWf = s.memWf := by simp [State.madiOrigin]
@[simp] theorem State.sapOrigins_memWf : s.sapOrigins.memWf = s.memWf := by simp [State.sapOrigins]

/-! #### Cku -/

@[simp] theorem State.setCku_memWf (f) : (s.setCku f).memWf = s.memWf := by simp [State.setCku]
@[simp] theorem State.setNet_memWf (f) : (s.setNet f).memWf = s.memWf := by simp [State.setNet]
@[simp] theorem State.updRef_memWf (k f) : (s.updRef k f).memWf = s.memWf := by simp [State.updRef]

@[simp] theorem State.calAbort_memWf : s.calAbort.memWf = s.memWf := by
  unfold State.calAbort
  split <;> simp

@[simp] theorem State.unalign_memWf : s.unalign.memWf = s.memWf := by simp [State.unalign]
@[simp] theorem State.enterHoldover_memWf : s.enterHoldover.memWf = s.memWf := by simp [State.enterHoldover]
@[simp] theorem State.takeUp_memWf (k) : (s.takeUp k).memWf = s.memWf := by simp [State.takeUp]
@[simp] theorem State.switchTo_memWf (new cause) : (s.switchTo new cause).memWf = s.memWf := by simp [State.switchTo]
@[simp] theorem State.disagreements_memWf : s.disagreements.memWf = s.memWf := by simp [State.disagreements]
@[simp] theorem State.evaluate_memWf : s.evaluate.memWf = s.memWf := by simp [State.evaluate]

@[simp] theorem State.loseRef_memWf (k) : (s.loseRef k).memWf = s.memWf := by
  unfold State.loseRef
  split <;> simp

@[simp] theorem State.stepRef_memWf (k off) : (s.stepRef k off).memWf = s.memWf := by
  unfold State.stepRef
  dsimp only
  split
  · rfl
  · simp
  · split_ifs <;> simp
  · split_ifs <;> simp
  · split_ifs <;> simp
  · split_ifs <;> simp

@[simp] theorem State.driftWarn_memWf (k drift) : (s.driftWarn k drift).memWf = s.memWf := by simp [State.driftWarn]
@[simp] theorem State.measureRef_memWf (m) : (s.measureRef m).memWf = s.memWf := by simp [State.measureRef]

@[simp] theorem State.enableRefs_memWf : s.enableRefs.memWf = s.memWf := by
  unfold State.enableRefs
  refine State.foldl_memWf _ _ (fun s k => ?_) _
  dsimp only
  split <;> split_ifs <;> simp

@[simp] theorem State.netDown_memWf : s.netDown.memWf = s.memWf := by
  unfold State.netDown
  split <;> simp

@[simp] theorem State.portRefs_memWf : s.portRefs.memWf = s.memWf := by simp [State.portRefs]
@[simp] theorem State.setOut_memWf (k o) : (s.setOut k o).memWf = s.memWf := by simp [State.setOut]
@[simp] theorem State.clkDelay_memWf (k) : (s.clkDelay k).memWf = s.memWf := by simp [State.clkDelay]
@[simp] theorem State.ckuMode_memWf (old new) : (s.ckuMode old new).memWf = s.memWf := by simp [State.ckuMode]

@[simp] theorem State.ckuTrim_memWf : s.ckuTrim.memWf = s.memWf := by
  unfold State.ckuTrim
  split <;> simp

@[simp] theorem State.ckuRate_memWf : s.ckuRate.memWf = s.memWf := by
  unfold State.ckuRate
  split <;> simp

@[simp] theorem State.followed_memWf : s.followed.2.memWf = s.memWf := by
  unfold State.followed
  split <;> simp

@[simp] theorem State.loopTick_memWf : s.loopTick.memWf = s.memWf := by simp [State.loopTick]
@[simp] theorem State.ckuTick_memWf : s.ckuTick.memWf = s.memWf := by simp [State.ckuTick]

/-! #### NetQueue -/

@[simp] theorem State.linkLost_memWf (n) : (s.linkLost n).memWf = s.memWf := by simp [State.linkLost]
@[simp] theorem State.linkBack_memWf (n) : (s.linkBack n).memWf = s.memWf := by simp [State.linkBack]
@[simp] theorem State.enqueueAt_memWf (n k bytes due) : (s.enqueueAt n k bytes due).memWf = s.memWf := by simp [State.enqueueAt]
@[simp] theorem State.enqueue_memWf (n k bytes) : (s.enqueue n k bytes).memWf = s.memWf := by simp [State.enqueue]
@[simp] theorem State.firmwareSends_memWf (n k bytes) : (s.firmwareSends n k bytes).memWf = s.memWf := by simp [State.firmwareSends]
@[simp] theorem State.payOwed_memWf : s.payOwed.memWf = s.memWf := by simp [State.payOwed]
@[simp] theorem State.ctlPay_memWf (n dir bytes) : (s.ctlPay n dir bytes).memWf = s.memWf := by simp [State.ctlPay]

@[simp] theorem State.startFrame_memWf (n f left) : (s.startFrame n f left).memWf = s.memWf := by
  unfold State.startFrame
  split <;> simp

@[simp] theorem State.drainPort_memWf (s : State) (n k room : Nat) : (s.drainPort n k room).memWf = s.memWf := by
  induction k generalizing s room with
  | zero => rfl
  | succ k ih =>
    rw [State.drainPort]
    dsimp only
    split_ifs
    · simp
    · split <;> simp [ih]

@[simp] theorem State.vcpRoute_memWf : s.vcpRoute.memWf = s.memWf := by
  unfold State.vcpRoute
  exact State.foldl_memWf _ _ (fun s d => by split <;> simp) _

@[simp] theorem State.ptpSend_memWf (before) : (s.ptpSend before).memWf = s.memWf := by simp [State.ptpSend]

@[simp] theorem State.netSend_memWf (before) : (s.netSend before).memWf = s.memWf := by
  unfold State.netSend
  split_ifs
  · rfl
  · exact (State.foldl_memWf _ _ (fun s n => by simp) _).trans (by simp)

/-! #### Net -/

@[simp] theorem State.ptpUnlock_memWf : s.ptpUnlock.memWf = s.memWf := by simp [State.ptpUnlock]
@[simp] theorem State.dropFrame_memWf (n) : (s.dropFrame n).memWf = s.memWf := by simp [State.dropFrame]

@[simp] theorem State.answerFrame_memWf (n f k) : (s.answerFrame n f k).memWf = s.memWf := by
  unfold State.answerFrame
  split <;> simp

@[simp] theorem State.timerStart_memWf (i) : (s.timerStart i).memWf = s.memWf := by simp [State.timerStart]
@[simp] theorem State.timersStep_memWf (before) : (s.timersStep before).memWf = s.memWf := by simp [State.timersStep]
@[simp] theorem State.phcStep_memWf (t) : (s.phcStep t).memWf = s.memWf := by simp [State.phcStep]
@[simp] theorem State.phcTick_memWf : s.phcTick.memWf = s.memWf := by simp [State.phcTick]
@[simp] theorem State.askAlign_memWf : s.askAlign.memWf = s.memWf := by simp [State.askAlign]

/-! #### Src -/

@[simp] theorem State.setConv_memWf (f) : (s.setConv f).memWf = s.memWf := by simp [State.setConv]
@[simp] theorem State.updSrc_memWf (i f) : (s.updSrc i f).memWf = s.memWf := by simp [State.updSrc]

@[simp] theorem State.srcFeed_memWf (user v) : (s.srcFeed user v).memWf = s.memWf := by
  unfold State.srcFeed
  split <;> simp

@[simp] theorem State.srcValue_memWf (x width) : (s.srcValue x width).2.memWf = s.memWf := by
  unfold State.srcValue
  split <;> simp

@[simp] theorem State.srcOut_memWf (i n width) : (s.srcOut i n width).2.memWf = s.memWf := by simp [State.srcOut]
@[simp] theorem State.srcAdvance_memWf (i upTo) : (s.srcAdvance i upTo).memWf = s.memWf := by simp [State.srcAdvance]
@[simp] theorem State.srcsOfPort_memWf (port dir f) : (s.srcsOfPort port dir f).memWf = s.memWf := by simp [State.srcsOfPort]

@[simp] theorem State.srcTrack_memWf (user dir ratio) : (s.srcTrack user dir ratio).memWf = s.memWf := by
  unfold State.srcTrack
  split <;> simp

@[simp] theorem State.srcsOfStream_memWf (i dir f) : (s.srcsOfStream i dir f).memWf = s.memWf := by simp [State.srcsOfStream]
@[simp] theorem State.srcDrop_memWf (i dir) : (s.srcDrop i dir).memWf = s.memWf := by simp [State.srcDrop]

/-! #### Stream -/

@[simp] theorem State.updRx_memWf (i f) : (s.updRx i f).memWf = s.memWf := by simp [State.updRx]
@[simp] theorem State.updTx_memWf (i f) : (s.updTx i f).memWf = s.memWf := by simp [State.updTx]
@[simp] theorem State.note_memWf (i) : (s.note i).memWf = s.memWf := by simp [State.note]
@[simp] theorem State.hold_memWf (i) : (s.hold i).memWf = s.memWf := by simp [State.hold]

@[simp] theorem State.writePacket_memWf (i x payload) : (s.writePacket i x payload).memWf = s.memWf := by
  unfold State.writePacket
  split <;> simp

@[simp] theorem State.legBack_memWf (i leg) : (s.legBack i leg).memWf = s.memWf := by simp [State.legBack]

@[simp] theorem State.rewritePacket_memWf (i x payload) : (s.rewritePacket i x payload).memWf = s.memWf := by
  unfold State.rewritePacket
  split <;> simp

@[simp] theorem State.secondCopy_memWf (i leg x ns payload c) : (s.secondCopy i leg x ns payload c).memWf = s.memWf := by simp [State.secondCopy]
@[simp] theorem State.rxResume_memWf (i stamp) : (s.rxResume i stamp).memWf = s.memWf := by simp [State.rxResume]

@[simp] theorem State.netTrack_memWf (i dir rate chans mark) : (s.netTrack i dir rate chans mark).memWf = s.memWf := by
  unfold State.netTrack
  split <;> simp

@[simp] theorem State.takePacket_memWf (i x es payload) : (s.takePacket i x es payload).memWf = s.memWf := by simp [State.takePacket]
@[simp] theorem State.firstCopy_memWf (i leg seq x ns payload) : (s.firstCopy i leg seq x ns payload).memWf = s.memWf := by simp [State.firstCopy]
@[simp] theorem State.rxLose_memWf (i) : (s.rxLose i).memWf = s.memWf := by simp [State.rxLose]

@[simp] theorem State.streamOut_memWf (ref dir n width) : (s.streamOut ref dir n width).2.memWf = s.memWf := by
  unfold State.streamOut
  split <;> simp

@[simp] theorem State.rxSample_memWf (i ch n have_ direct) : (s.rxSample i ch n have_ direct).memWf = s.memWf := by
  unfold State.rxSample
  split_ifs <;> simp

@[simp] theorem State.rxBlock_memWf (i b) : (s.rxBlock i b).memWf = s.memWf := by simp [State.rxBlock]
@[simp] theorem State.rxEnable_memWf (i c on) : (s.rxEnable i c on).memWf = s.memWf := by simp [State.rxEnable]
@[simp] theorem State.restagger_memWf : s.restagger.memWf = s.memWf := by simp [State.restagger]
@[simp] theorem State.txEnable_memWf (i c on) : (s.txEnable i c on).memWf = s.memWf := by simp [State.txEnable]

@[simp] theorem State.txSample_memWf (i ch n bytes direct) : (s.txSample i ch n bytes direct).1.memWf = s.memWf := by
  unfold State.txSample
  split_ifs <;> simp

@[simp] theorem State.txPayload_memWf (i c) : (s.txPayload i c).1.memWf = s.memWf := by
  unfold State.txPayload
  exact State.foldl_fst_memWf _ _ (fun a j => State.foldl_fst_memWf _ _ (fun a ch => by simp) _) _

@[simp] theorem State.setLegs_memWf : s.setLegs.memWf = s.memWf := by simp [State.setLegs]

/-! #### TwinRole -/

@[simp] theorem State.setTwin_memWf (f) : (s.setTwin f).memWf = s.memWf := by simp [State.setTwin]
@[simp] theorem State.drivePins_memWf : s.drivePins.memWf = s.memWf := by simp [State.drivePins]
@[simp] theorem State.follow_memWf : s.follow.memWf = s.memWf := by simp [State.follow]
@[simp] theorem State.unfollow_memWf : s.unfollow.memWf = s.memWf := by simp [State.unfollow]
@[simp] theorem State.moveSessions_memWf (old new) : (s.moveSessions old new).memWf = s.memWf := by simp [State.moveSessions]

@[simp] theorem State.swapAnswer_memWf (q a) : (s.swapAnswer q a).memWf = s.memWf := by
  unfold State.swapAnswer
  split <;> simp

@[simp] theorem State.setRole_memWf (new cause) : (s.setRole new cause).memWf = s.memWf := by simp [State.setRole]
@[simp] theorem State.withdraw_memWf (cause) : (s.withdraw cause).memWf = s.memWf := by simp [State.withdraw]

@[simp] theorem State.outside_memWf : s.outside.memWf = s.memWf := by
  unfold State.outside
  split <;> simp

@[simp] theorem State.uncorrected_memWf : s.uncorrected.memWf = s.memWf := by simp [State.uncorrected]

/-! #### TarnRun -/

@[simp] theorem State.setTarn_memWf (f) : (s.setTarn f).memWf = s.memWf := by simp [State.setTarn]
@[simp] theorem State.setEng_memWf (e x) : (s.setEng e x).memWf = s.memWf := by simp [State.setEng]
@[simp] theorem State.bounds_memWf (e task l) : (s.bounds e task l).memWf = s.memWf := by simp [State.bounds]
@[simp] theorem State.illegal_memWf (e pc) : (s.illegal e pc).memWf = s.memWf := by simp [State.illegal]

@[simp] theorem State.runOn_memWf (e pcOf f) : (s.runOn e pcOf f).memWf = s.memWf := by
  unfold State.runOn
  (repeat' split) <;> simp

/-! #### Task -/

@[simp] theorem State.updSlot_memWf (n f) : (s.updSlot n f).memWf = s.memWf := by simp [State.updSlot]

@[simp] theorem State.collect_memWf (n) : (s.collect n).memWf = s.memWf := by
  unfold State.collect
  split <;> simp

@[simp] theorem State.setAudio_memWf (f) : (s.setAudio f).memWf = s.memWf := by simp [State.setAudio]
@[simp] theorem State.superseded_memWf (part obj k) : (s.superseded part obj k).memWf = s.memWf := by simp [State.superseded]

@[simp] theorem State.launch_memWf (n b) : (s.launch n b).memWf = s.memWf := by
  unfold State.launch
  split <;> simp

@[simp] theorem State.collectAll_memWf : s.collectAll.memWf = s.memWf := by simp [State.collectAll]
@[simp] theorem State.launchAll_memWf (b) : (s.launchAll b).memWf = s.memWf := by simp [State.launchAll]

/-! #### Audio -/

@[simp] theorem State.meterBlock_memWf (cls inst p l) : (s.meterBlock cls inst p l).memWf = s.memWf := by simp [State.meterBlock]
@[simp] theorem State.meterGrs_memWf (cls inst p l) : (s.meterGrs cls inst p l).memWf = s.memWf := by simp [State.meterGrs]

@[simp] theorem State.autoSelect_memWf (n b new) : (s.autoSelect n b new).memWf = s.memWf := by
  unfold State.autoSelect
  dsimp only
  split <;> simp

@[simp] theorem State.failover_memWf (b n) : (s.failover b n).memWf = s.memWf := by simp [State.failover]
@[simp] theorem State.inputPatch_memWf (b) : (s.inputPatch b).memWf = s.memWf := by simp [State.inputPatch]
@[simp] theorem State.sendInsert_memWf (x l) : (s.sendInsert x l).memWf = s.memWf := by simp [State.sendInsert]
@[simp] theorem State.putStrip_memWf (n a o g) : (s.putStrip n a o g).memWf = s.memWf := by simp [State.putStrip]
@[simp] theorem State.stripsTick_memWf (b) : (s.stripsTick b).memWf = s.memWf := by simp [State.stripsTick]
@[simp] theorem State.putBus_memWf (n a o g) : (s.putBus n a o g).memWf = s.memWf := by simp [State.putBus]
@[simp] theorem State.bussesTick_memWf (b) : (s.bussesTick b).memWf = s.memWf := by simp [State.bussesTick]

/-! #### Output -/

@[simp] theorem State.updOut_memWf (n f) : (s.updOut n f).memWf = s.memWf := by simp [State.updOut]
@[simp] theorem State.updOuts_memWf (f) : (s.updOuts f).memWf = s.memWf := by simp [State.updOuts]
@[simp] theorem State.muteOutputs_memWf : s.muteOutputs.memWf = s.memWf := by simp [State.muteOutputs]
@[simp] theorem State.seedDither_memWf (dev) : (s.seedDither dev).memWf = s.memWf := by simp [State.seedDither]
@[simp] theorem State.outEntry_memWf (b t n o0 xs gs) : (s.outEntry b t n o0 xs gs).memWf = s.memWf := by simp [State.outEntry]
@[simp] theorem State.outputTick_memWf (b t) : (s.outputTick b t).memWf = s.memWf := by simp [State.outputTick]
@[simp] theorem State.unmuteOutput_memWf (n) : (s.unmuteOutput n).memWf = s.memWf := by simp [State.unmuteOutput]
@[simp] theorem State.unmuteOutputs_memWf : s.unmuteOutputs.memWf = s.memWf := by simp [State.unmuteOutputs]

/-! #### LegPath -/

@[simp] theorem State.setLeg_memWf (f) : (s.setLeg f).memWf = s.memWf := by simp [State.setLeg]
@[simp] theorem State.legMeters_memWf (pk clipBit sat peaks) : (s.legMeters pk clipBit sat peaks).memWf = s.memWf := by simp [State.legMeters]
@[simp] theorem State.legChan_memWf (b c) : (s.legChan b c).memWf = s.memWf := by simp [State.legChan]
@[simp] theorem State.legBus_memWf (i b) : (s.legBus i b).memWf = s.memWf := by simp [State.legBus]

@[simp] theorem State.bridgeOut_memWf (b k) : (s.bridgeOut b k).memWf = s.memWf := by
  unfold State.bridgeOut
  exact (State.foldl_fst_memWf _ _ (fun a j => by simp) _)

@[simp] theorem State.legOut_memWf (b t k) : (s.legOut b t k).memWf = s.memWf := by
  unfold State.legOut
  simp only [State.setLeg_memWf]
  exact State.foldl_fst_memWf _ _ (fun a j => by simp) _

@[simp] theorem State.unmuteLegSlot_memWf (k) : (s.unmuteLegSlot k).memWf = s.memWf := by simp [State.unmuteLegSlot]
@[simp] theorem State.unmuteLegacy_memWf : s.unmuteLegacy.memWf = s.memWf := by simp [State.unmuteLegacy]
@[simp] theorem State.legChansTick_memWf (b) : (s.legChansTick b).memWf = s.memWf := by simp [State.legChansTick]
@[simp] theorem State.legBussesTick_memWf (b) : (s.legBussesTick b).memWf = s.memWf := by simp [State.legBussesTick]
@[simp] theorem State.legOutsTick_memWf (b t) : (s.legOutsTick b t).memWf = s.memWf := by simp [State.legOutsTick]

/-! #### Ports -/

@[simp] theorem State.rxRow_memWf (ref0 d n f) : (s.rxRow ref0 d n f).1.memWf = s.memWf := by
  unfold State.rxRow
  exact State.foldl_fst_memWf _ _ (fun a k => by simp) _

@[simp] theorem State.rxGap_memWf (ref0 d upTo) : (s.rxGap ref0 d upTo).1.memWf = s.memWf := by
  unfold State.rxGap
  exact State.foldl_fst_memWf _ _ (fun a k => by simp) _

@[simp] theorem State.srcIn_memWf (ref v) : (s.srcIn ref v).memWf = s.memWf := by
  unfold State.srcIn
  split <;> simp

@[simp] theorem State.idleTo_memWf (ref0 now d) : (s.idleTo ref0 now d).1.memWf = s.memWf := by
  unfold State.idleTo
  exact State.foldl_fst_memWf _ _ (fun a k => State.foldl_fst_memWf _ _ (fun a ch => by simp) _) _

@[simp] theorem State.updDec_memWf (i f) : (s.updDec i f).memWf = s.memWf := by simp [State.updDec]
@[simp] theorem State.decAdvance_memWf (i upTo) : (s.decAdvance i upTo).memWf = s.memWf := by simp [State.decAdvance]
@[simp] theorem State.decLose_memWf (p) : (s.decLose p).memWf = s.memWf := by simp [State.decLose]
@[simp] theorem State.decUnmute_memWf (i) : (s.decUnmute i).memWf = s.memWf := by simp [State.decUnmute]
@[simp] theorem State.decIdle_memWf : s.decIdle.memWf = s.memWf := by simp [State.decIdle]
@[simp] theorem State.decResume_memWf (p) : (s.decResume p).memWf = s.memWf := by simp [State.decResume]
@[simp] theorem State.sapStart_memWf (p tx) : (s.sapStart p tx).memWf = s.memWf := by simp [State.sapStart]
@[simp] theorem State.sapOff_memWf (p tx) : (s.sapOff p tx).memWf = s.memWf := by simp [State.sapOff]
@[simp] theorem State.sapEnable_memWf (p tx on) : (s.sapEnable p tx on).memWf = s.memWf := by simp [State.sapEnable]
@[simp] theorem State.sapMask_memWf (p tx m) : (s.sapMask p tx m).memWf = s.memWf := by simp [State.sapMask]

@[simp] theorem State.sapSlip_memWf (p tx d) : (s.sapSlip p tx d).1.memWf = s.memWf := by
  unfold State.sapSlip
  (repeat' split) <;> simp

@[simp] theorem State.springSlip_memWf (ref) : (s.springSlip ref).memWf = s.memWf := by simp [State.springSlip]
@[simp] theorem State.springPush_memWf (ref v) : (s.springPush ref v).memWf = s.memWf := by simp [State.springPush]
@[simp] theorem State.decSample_memWf (i x) : (s.decSample i x).memWf = s.memWf := by simp [State.decSample]

@[simp] theorem State.decFrame_memWf (p k slot x) : (s.decFrame p k slot x).memWf = s.memWf := by
  unfold State.decFrame
  refine State.foldl_memWf _ _ (fun s i => ?_) _
  split
  · simp
  · dsimp only
    split_ifs <;> simp
  · rfl

@[simp] theorem State.sapLose_memWf (p tx cause) : (s.sapLose p tx cause).memWf = s.memWf := by
  unfold State.sapLose
  simp only [State.portRefs_memWf]
  (repeat' split) <;> simp

@[simp] theorem State.sapFlag_memWf (p tx cause) : (s.sapFlag p tx cause).memWf = s.memWf := by simp [State.sapFlag]

@[simp] theorem State.sapPass_memWf (p k slot y) : (s.sapPass p k slot y).memWf = s.memWf := by
  unfold State.sapPass
  split <;> simp

@[simp] theorem State.sapRx_memWf (p c d n words) : (s.sapRx p c d n words).1.memWf = s.memWf := by
  unfold State.sapRx
  dsimp only
  split
  · simp
  · exact State.foldl_fst_memWf _ _ (fun a k => by simp) _

@[simp] theorem State.sapRepeat_memWf (p c d) : (s.sapRepeat p c d).memWf = s.memWf := by simp [State.sapRepeat]
@[simp] theorem State.sapFill_memWf (p tx gap) : (s.sapFill p tx gap).memWf = s.memWf := by simp [State.sapFill]

@[simp] theorem State.sapTxValue_memWf (p k c n) : (s.sapTxValue p k c n).2.memWf = s.memWf := by
  unfold State.sapTxValue
  dsimp only
  split
  · rfl
  · split <;> simp
  · rfl

@[simp] theorem State.sapTx_memWf (p c d n) : (s.sapTx p c d n).1.memWf = s.memWf := by
  unfold State.sapTx
  exact State.foldl_fst_memWf _ _ (fun a k => by dsimp only; split_ifs <;> simp) _

@[simp] theorem State.sapSkip_memWf (p c d) : (s.sapSkip p c d).memWf = s.memWf := by simp [State.sapSkip]

@[simp] theorem State.sapPassFrame_memWf (p tx c d n words) : (s.sapPassFrame p tx c d n words).memWf = s.memWf := by
  unfold State.sapPassFrame
  split <;> simp

@[simp] theorem State.sapSlipped_memWf (p tx c d slip n words) : (s.sapSlipped p tx c d slip n words).memWf = s.memWf := by simp [State.sapSlipped]

@[simp] theorem State.sapGood_memWf (p tx words phase) : (s.sapGood p tx words phase).memWf = s.memWf := by
  unfold State.sapGood
  dsimp only
  split_ifs <;> simp

@[simp] theorem State.sapTrack_memWf (p tx c period) : (s.sapTrack p tx c period).memWf = s.memWf := by simp [State.sapTrack]
@[simp] theorem State.srcRefresh_memWf : s.srcRefresh.memWf = s.memWf := by simp [State.srcRefresh]
@[simp] theorem State.sapLayoutAt_memWf (p tx m) : (s.sapLayoutAt p tx m).memWf = s.memWf := by simp [State.sapLayoutAt]
@[simp] theorem State.sapIdle_memWf (p tx upTo) : (s.sapIdle p tx upTo).memWf = s.memWf := by simp [State.sapIdle]

@[simp] theorem State.sapRun_memWf (p tx muted) : (s.sapRun p tx muted).memWf = s.memWf := by
  unfold State.sapRun
  dsimp only
  split <;> split <;> simp

@[simp] theorem State.sapResume_memWf (p tx muted) : (s.sapResume p tx muted).memWf = s.memWf := by simp [State.sapResume]

/-! #### Madi -/

@[simp] theorem State.madiStart_memWf (p tx) : (s.madiStart p tx).memWf = s.memWf := by simp [State.madiStart]
@[simp] theorem State.madiEnable_memWf (p tx on) : (s.madiEnable p tx on).memWf = s.memWf := by simp [State.madiEnable]

@[simp] theorem State.madiStopped_memWf (p tx) : (s.madiStopped p tx).memWf = s.memWf := by
  unfold State.madiStopped
  dsimp only
  split
  · rfl
  · split_ifs <;> simp

@[simp] theorem State.madiIdle_memWf (p upTo) : (s.madiIdle p upTo).memWf = s.memWf := by simp [State.madiIdle]

@[simp] theorem State.madiLose_memWf (p cause) : (s.madiLose p cause).memWf = s.memWf := by
  unfold State.madiLose
  split <;> simp

@[simp] theorem State.madiFill_memWf (p gap) : (s.madiFill p gap).memWf = s.memWf := by simp [State.madiFill]
@[simp] theorem State.madiFlag_memWf (p cause) : (s.madiFlag p cause).memWf = s.memWf := by simp [State.madiFlag]
@[simp] theorem State.madiCount_memWf (p k) : (s.madiCount p k).memWf = s.memWf := by simp [State.madiCount]

@[simp] theorem State.madiRx_memWf (p ws) : (s.madiRx p ws).memWf = s.memWf := by
  unfold State.madiRx
  dsimp only
  split
  · rw [State.setMadi_memWf, State.rxRow_memWf, State.mk_memWf]
    exact (State.foldl_memWf _ _ (fun s k => by simp) _).trans (by simp)
  · rw [State.setMadi_memWf]
    exact (State.foldl_fst_memWf _ _ (fun a k => by simp) _).trans (by simp)

@[simp] theorem State.madiTxValue_memWf (p k direct) : (s.madiTxValue p k direct).2.memWf = s.memWf := by
  unfold State.madiTxValue
  dsimp only
  split_ifs
  · rfl
  · split <;> simp

@[simp] theorem State.madiTx_memWf (p) : (s.madiTx p).memWf = s.memWf := by
  unfold State.madiTx
  simp only [State.setMadi_memWf]
  exact (State.foldl_fst_memWf _ _ (fun a k => by split_ifs <;> simp) _)

@[simp] theorem State.madiTrack_memWf (p period) : (s.madiTrack p period).memWf = s.memWf := by simp [State.madiTrack]
@[simp] theorem State.madiRun_memWf (p muted) : (s.madiRun p muted).memWf = s.memWf := by simp [State.madiRun]
@[simp] theorem State.madiResume_memWf (p muted) : (s.madiResume p muted).memWf = s.memWf := by simp [State.madiResume]

/-! #### Conv -/

@[simp] theorem State.srcSlots_memWf (user dir) : (s.srcSlots user dir).memWf = s.memWf := by
  unfold State.srcSlots
  split <;> simp

@[simp] theorem State.decEnable_memWf (i e8 on) : (s.decEnable i e8 on).memWf = s.memWf := by simp [State.decEnable]
@[simp] theorem State.decInput_memWf (i w) : (s.decInput i w).memWf = s.memWf := by simp [State.decInput]
@[simp] theorem State.decFreeze_memWf (i on) : (s.decFreeze i on).memWf = s.memWf := by simp [State.decFreeze]
@[simp] theorem State.pinSync_memWf (c) : (s.pinSync c).memWf = s.memWf := by simp [State.pinSync]

/-! #### Body -/

@[simp] theorem State.compensate_memWf : s.compensate.memWf = s.memWf := by simp [State.compensate]
@[simp] theorem State.clearMatrix_memWf : s.clearMatrix.memWf = s.memWf := by simp [State.clearMatrix]
@[simp] theorem State.dropAbsent_memWf : s.dropAbsent.memWf = s.memWf := by simp [State.dropAbsent]

@[simp] theorem State.freshSlots_memWf (old s : State) (b : Body) : (old.freshSlots s b).memWf = s.memWf := by
  simp [State.freshSlots]

/-! #### Fabric -/

@[simp] theorem State.poolParity_memWf (bank cause) : (s.poolParity bank cause).memWf = s.memWf := by simp [State.poolParity]
@[simp] theorem State.goodLine_memWf (line) : (s.goodLine line).memWf = s.memWf := by simp [State.goodLine]
@[simp] theorem State.failLine_memWf (line) : (s.failLine line).memWf = s.memWf := by simp [State.failLine]

@[simp] theorem State.readLine_memWf (mir line) : (s.readLine mir line).1.memWf = s.memWf := by
  unfold State.readLine
  split_ifs <;> simp

@[simp] theorem State.dramFixed_memWf : s.dramFixed.memWf = s.memWf := by simp [State.dramFixed]
@[simp] theorem State.dramBad_memWf (n) : (s.dramBad n).memWf = s.memWf := by simp [State.dramBad]
@[simp] theorem State.join_memWf (t) : (s.join t).memWf = s.memWf := by simp [State.join]
@[simp] theorem State.offer_memWf (t) : (s.offer t).memWf = s.memWf := by simp [State.offer]

@[simp] theorem State.refill_memWf (s : State) (cycle : Nat) (l : List Txn) : (s.refill cycle l).memWf = s.memWf := by
  induction l generalizing s with
  | nil => rfl
  | cons t l ih =>
    rw [State.refill]
    split_ifs <;> simp [ih]

@[simp] theorem State.arrive_memWf (l) : (s.arrive l).memWf = s.memWf := by simp [State.arrive]
@[simp] theorem State.flushPort_memWf (m) : (s.flushPort m).memWf = s.memWf := by simp [State.flushPort]

@[simp] theorem State.found_memWf (o) : (s.found o).memWf = s.memWf := by
  unfold State.found
  split <;> simp

@[simp] theorem State.mramFixed_memWf : s.mramFixed.memWf = s.memWf := by simp [State.mramFixed]

@[simp] theorem State.flushCrossing_memWf (x) : (s.flushCrossing x).memWf = s.memWf := by
  unfold State.flushCrossing
  split <;> simp

/-! #### FaultC -/

@[simp] theorem State.detected_memWf (e) : (s.detected e).memWf = s.memWf := by simp [State.detected]

@[simp] theorem State.preempt_memWf : s.preempt.memWf = s.memWf := by
  unfold State.preempt
  split <;> simp

@[simp] theorem State.moveTasks_memWf (e p) : (s.moveTasks e p).memWf = s.memWf := by simp [State.moveTasks]
@[simp] theorem State.noSpare_memWf (e) : (s.noSpare e).memWf = s.memWf := by simp [State.noSpare]

@[simp] theorem State.dropTask_memWf (e again) : (s.dropTask e again).memWf = s.memWf := by
  unfold State.dropTask
  dsimp only
  split <;> simp

@[simp] theorem State.taskFailed_memWf (e n addr code) : (s.taskFailed e n addr code).memWf = s.memWf := by simp [State.taskFailed]
@[simp] theorem State.failInstance_memWf (e n addr code cause) : (s.failInstance e n addr code cause).memWf = s.memWf := by simp [State.failInstance]
@[simp] theorem State.settle_memWf (e again fits) : (s.settle e again fits).memWf = s.memWf := by simp [State.settle]
@[simp] theorem State.corrected_memWf (part d) : (s.corrected part d).memWf = s.memWf := by simp [State.corrected]

@[simp] theorem State.loseEngine_memWf (e) : (s.loseEngine e).memWf = s.memWf := by
  unfold State.loseEngine
  dsimp only
  split
  · rw [State.setEng_memWf]
  · rw [State.outside_memWf, State.setFault_memWf]
    split
    · rw [State.moveTasks_memWf, State.setEng_memWf]
      exact (State.foldl_memWf _ _ (fun s n => by split_ifs <;> simp) _).trans s.preempt_memWf
    · rw [State.noSpare_memWf, State.setEng_memWf, State.setEng_memWf]
      exact (State.foldl_memWf _ _ (fun s n => by split_ifs <;> simp) _).trans s.preempt_memWf

@[simp] theorem State.loseLinks_memWf : s.loseLinks.memWf = s.memWf := by simp [State.loseLinks]

@[simp] theorem State.loseTwin_memWf : s.loseTwin.memWf = s.memWf := by
  unfold State.loseTwin
  (repeat' split) <;> simp

@[simp] theorem State.xrst_memWf (x) : (s.xrst x).memWf = s.memWf := by simp [State.xrst]

/-! #### Hsp -/

@[simp] theorem State.setHsp_memWf (f) : (s.setHsp f).memWf = s.memWf := by simp [State.setHsp]

@[simp] theorem State.micAdvance_memWf (upTo) : (s.micAdvance upTo).memWf = s.memWf := by
  unfold State.micAdvance
  exact State.foldl_memWf _ _ (fun s k => by
    dsimp only
    split <;> simp) _

@[simp] theorem State.phonesAdvance_memWf (upTo) : (s.phonesAdvance upTo).memWf = s.memWf := by simp [State.phonesAdvance]
@[simp] theorem State.hspRange_memWf (r) : (s.hspRange r).memWf = s.memWf := by simp [State.hspRange]
@[simp] theorem State.hspDetect_memWf (on) : (s.hspDetect on).memWf = s.memWf := by simp [State.hspDetect]
@[simp] theorem State.hspBiasSet_memWf : s.hspBiasSet.memWf = s.memWf := by simp [State.hspBiasSet]
@[simp] theorem State.hspNote_memWf : s.hspNote.memWf = s.memWf := by simp [State.hspNote]

@[simp] theorem State.hspGone_memWf : s.hspGone.memWf = s.memWf := by
  unfold State.hspGone
  split <;> simp

/-! #### Upkeep -/

@[simp] theorem State.restart_memWf (cause) : (s.restart cause).memWf = s.memWf := by simp [State.restart]
@[simp] theorem State.setThrottle_memWf (mere t) : (s.setThrottle mere t).memWf = s.memWf := by simp [State.setThrottle]
@[simp] theorem State.pdCommit_memWf (d c on) : (s.pdCommit d c on).memWf = s.memWf := by simp [State.pdCommit]
@[simp] theorem State.hspPowered_memWf (d) : (s.hspPowered d).memWf = s.memWf := by simp [State.hspPowered]

/-! #### Vcp -/

@[simp] theorem State.authEvent_memWf (o) : (s.authEvent o).memWf = s.memWf := by
  unfold State.authEvent
  split <;> simp

@[simp] theorem State.authFails_memWf (o) : (s.authFails o).memWf = s.memWf := by simp [State.authFails]
@[simp] theorem State.openReply_memWf (o key rep) : (s.openReply o key rep).memWf = s.memWf := by simp [State.openReply]
@[simp] theorem State.openFail_memWf (o key seq e) : (s.openFail o key seq e).memWf = s.memWf := by simp [State.openFail]

@[simp] theorem State.deliver_memWf (o h err body) : (s.deliver o h err body).memWf = s.memWf := by
  have hf (t : State) (e : Nat) : (t.serve { sid := h.sid, seq := h.seq } h.cmd 3 (fun _ s => (s, Ans.fail e))).memWf = t.memWf :=
    t.serve_memWf _ _ _ _ (fun _ _ => rfl)
  simp [State.deliver, hf]

@[simp] theorem State.fragment_memWf (o h err body) : (s.fragment o h err body).memWf = s.memWf := by
  unfold State.fragment
  dsimp only
  split
  · rfl
  · split <;> simp

@[simp] theorem State.arriveOpen_memWf (o h b) : (s.arriveOpen o h b).memWf = s.memWf := by
  unfold State.arriveOpen
  dsimp only
  split
  · simp
  · split_ifs <;> simp

@[simp] theorem State.arriveIn_memWf (o h b) : (s.arriveIn o h b).memWf = s.memWf := by
  unfold State.arriveIn
  (repeat' split) <;> simp

@[simp] theorem State.hear_memWf (o b) : (s.hear o b).memWf = s.memWf := by
  unfold State.hear
  (repeat' split) <;> simp

@[simp] theorem State.datagram_memWf (o bytes) : (s.datagram o bytes).memWf = s.memWf := by simp [State.datagram]
@[simp] theorem State.mbxTake_memWf (c len) : (s.mbxTake c len).memWf = s.memWf := by simp [State.mbxTake]

@[simp] theorem State.release_memWf : s.release.memWf = s.memWf := by
  unfold State.release
  refine (State.foldl_memWf _ _ (fun s c => ?_) _).trans ?_
  · split <;> simp
  · exact (State.foldl_memWf _ _ (fun s c => by simp) _).trans (by simp)

/-! #### Reg -/

@[simp] theorem State.mbxReq_memWf (c len) : (s.mbxReq c len).memWf = s.memWf := by simp [State.mbxReq]
@[simp] theorem State.updQueue_memWf (sid f) : (s.updQueue sid f).memWf = s.memWf := by simp [State.updQueue]

@[simp] theorem State.mbxEvr_memWf (c v) : (s.mbxEvr c v).memWf = s.memWf := by
  unfold State.mbxEvr
  dsimp only
  split <;> simp

@[simp] theorem State.regRead_memWf (spi off) : (s.regRead spi off).2.memWf = s.memWf := by
  unfold State.regRead
  split <;> simp

@[simp] theorem State.evClear_memWf (k mask) : (s.evClear k mask).memWf = s.memWf := by simp [State.evClear]
@[simp] theorem State.irqMapWrite_memWf (k v) : (s.irqMapWrite k v).memWf = s.memWf := by simp [State.irqMapWrite]

@[simp] theorem State.mbxWrite_memWf (c k v) : (s.mbxWrite c k v).memWf = s.memWf := by
  unfold State.mbxWrite
  split <;> simp

@[simp] theorem State.regWrite_memWf (spi off v) : (s.regWrite spi off v).memWf = s.memWf := by
  unfold State.regWrite
  split <;> simp

@[simp] theorem State.spiIgnore_memWf (n) : (s.spiIgnore n).memWf = s.memWf := by simp [State.spiIgnore]

/-! #### Interp -/

@[simp] theorem State.setSpring_memWf (f) : (s.setSpring f).memWf = s.memWf := by simp [State.setSpring]
@[simp] theorem State.interpBlock_memWf (b n) : (s.interpBlock b n).memWf = s.memWf := by simp [State.interpBlock]
@[simp] theorem State.interpTick_memWf (b) : (s.interpTick b).memWf = s.memWf := by simp [State.interpTick]

/-! #### Spring -/

@[simp] theorem State.updSpringSrc_memWf (r f) : (s.updSpringSrc r f).memWf = s.memWf := by simp [State.updSpringSrc]
@[simp] theorem State.springWatch_memWf (ref) : (s.springWatch ref).memWf = s.memWf := by simp [State.springWatch]

@[simp] theorem State.springRead_memWf (ref) : (s.springRead ref).1.memWf = s.memWf := by
  unfold State.springRead
  split <;> simp

@[simp] theorem State.springMixParam_memWf (n m f cf) : (s.springMixParam n m f cf).memWf = s.memWf := by simp [State.springMixParam]
@[simp] theorem State.dcTake_memWf (n i cf) : (s.dcTake n i cf).memWf = s.memWf := by simp [State.dcTake]

@[simp] theorem State.springTake_memWf : s.springTake.1.memWf = s.memWf := by
  unfold State.springTake
  simp only [State.setSpring_memWf]
  exact State.foldl_memWf _ _ (fun s q => by split <;> simp) _

@[simp] theorem State.springOut_memWf (m n v w) : (s.springOut m n v w).1.memWf = s.memWf := by simp [State.springOut]
@[simp] theorem State.springSend_memWf (w) : (s.springSend w).memWf = s.memWf := by simp [State.springSend]
@[simp] theorem State.springMix_memWf (n m sum w) : (s.springMix n m sum w).1.memWf = s.memWf := by simp [State.springMix]
@[simp] theorem State.springDetect_memWf (q) : (s.springDetect q).memWf = s.memWf := by simp [State.springDetect]
@[simp] theorem State.muteSprings_memWf : s.muteSprings.memWf = s.memWf := by simp [State.muteSprings]
@[simp] theorem State.unmuteSprings_memWf : s.unmuteSprings.memWf = s.memWf := by simp [State.unmuteSprings]
@[simp] theorem State.muteLegacy_memWf : s.muteLegacy.memWf = s.memWf := by simp [State.muteLegacy]

@[simp] theorem State.muteAll_memWf : s.muteAll.memWf = s.memWf := by
  rw [State.muteAll, State.muteLegacy_memWf, State.muteSprings_memWf, State.muteOutputs_memWf]

@[simp] theorem State.seedSprings_memWf (dev) : (s.seedSprings dev).memWf = s.memWf := by simp [State.seedSprings]

/-! #### Commit -/

@[simp] theorem Cmt.toPath_memWf (k) : (Cmt.toPath k s).memWf = s.memWf := by simp [Cmt.toPath]
@[simp] theorem Cmt.toMere_memWf (k) : (Cmt.toMere k s).memWf = s.memWf := by simp [Cmt.toMere]
@[simp] theorem State.dropSlot_memWf (n) : (s.dropSlot n).memWf = s.memWf := by simp [State.dropSlot]
@[simp] theorem State.pack_memWf (e wait) : (s.pack e wait).memWf = s.memWf := by simp [State.pack]

@[simp] theorem State.loadSlot_memWf (n e wait) : (s.loadSlot n e wait).memWf = s.memWf := by
  unfold State.loadSlot
  split
  · rfl
  · dsimp only
    split <;> split_ifs <;> simp

@[simp] theorem State.loadSlots_memWf (eng : Nat → Nat) (l : List Nat) (s : State) : (State.loadSlots eng l s).memWf = s.memWf := by
  induction l generalizing s with
  | nil => rfl
  | cons n l ih => rw [State.loadSlots, ih, State.loadSlot_memWf]

@[simp] theorem Cmt.toSlots_memWf (k all) : (Cmt.toSlots k s all).memWf = s.memWf := by
  unfold Cmt.toSlots
  exact (State.foldl_memWf _ _ (fun s e => by simp) _).trans (by simp)

@[simp] theorem Cmt.toSprings_memWf (k) : (Cmt.toSprings k s).memWf = s.memWf := by simp [Cmt.toSprings]

@[simp] theorem Cmt.toPorts_memWf (k) : (Cmt.toPorts k s).memWf = s.memWf := by
  unfold Cmt.toPorts
  refine (State.foldl_memWf _ _ (fun s e => ?_) _).trans ((State.foldl_memWf _ _ (fun s e => ?_) _).trans
    ((State.foldl_memWf _ _ (fun s e => ?_) _).trans (State.foldl_memWf _ _ (fun s e => ?_) _)))
  · split <;> simp
  · split <;> simp
  · split <;> simp
  · dsimp only
    split <;> simp

@[simp] theorem Cmt.ptpValues_memWf (k) : (Cmt.ptpValues k s).memWf = s.memWf := by simp [Cmt.ptpValues]

@[simp] theorem Cmt.toNet_memWf (k) : (Cmt.toNet k s).memWf = s.memWf := by
  unfold Cmt.toNet
  refine (State.foldl_memWf _ _ (fun s e => ?_) _).trans ((State.foldl_memWf _ _ (fun s e => ?_) _).trans
    ((State.foldl_memWf _ _ (fun s e => ?_) _).trans ((State.foldl_memWf _ _ (fun s e => ?_) _).trans ((State.foldl_memWf _ _ (fun s e => ?_) _).trans ?_))))
  · simp
  · simp
  · simp
  · split <;> simp
  · simp
  · simp

@[simp] theorem Cmt.toClocks_memWf (k) : (Cmt.toClocks k s).memWf = s.memWf := by
  unfold Cmt.toClocks
  refine (State.foldl_memWf _ _ (fun s e => ?_) _).trans ((State.foldl_memWf _ _ (fun s e => ?_) _).trans
    ((State.foldl_memWf _ _ (fun s e => ?_) _).trans ?_))
  · simp
  · simp
  · split <;> simp
  · simp

@[simp] theorem State.bridgeEvents_memWf (s : State) (old : State) : (s.bridgeEvents old).memWf = s.memWf := by simp [State.bridgeEvents]
@[simp] theorem State.legTrim_memWf : s.legTrim.memWf = s.memWf := by simp [State.legTrim]
@[simp] theorem State.redesign_memWf : s.redesign.memWf = s.memWf := by simp [State.redesign]
@[simp] theorem State.reopen_memWf (s : State) (old : State) : (s.reopen old).memWf = s.memWf := by simp [State.reopen]
@[simp] theorem Cmt.runUnits_memWf (k) : (Cmt.runUnits k s).memWf = s.memWf := by simp [Cmt.runUnits]
@[simp] theorem Cmt.toUnits_memWf (k set) : (Cmt.toUnits k s set).memWf = s.memWf := by simp [Cmt.toUnits]

@[simp] theorem State.flushUnits_memWf : s.flushUnits.memWf = s.memWf := by
  unfold State.flushUnits
  split <;> simp

/-! #### Stage -/

@[simp] theorem State.updSet_memWf (id f) : (s.updSet id f).memWf = s.memWf := by simp [State.updSet]

@[simp] theorem State.dropReply_memWf (x) : (s.dropReply x).memWf = s.memWf := by
  unfold State.dropReply
  split <;> simp

@[simp] theorem State.loosen_memWf (x) : (s.loosen x).memWf = s.memWf := by simp [State.loosen]
@[simp] theorem State.openSet_memWf (sid a) : (s.openSet sid a).1.memWf = s.memWf := by simp [State.openSet]
@[simp] theorem State.queueCheck_memWf (x w q) : (s.queueCheck x w q).memWf = s.memWf := by simp [State.queueCheck]

@[simp] theorem State.schedule_memWf (id c) : (s.schedule id c).memWf = s.memWf := by
  simp [State.schedule, SceG.changedAt]

@[simp] theorem State.scheduleNow_memWf (x w) : (s.scheduleNow x w).1.memWf = s.memWf := by
  unfold State.scheduleNow
  (repeat' split) <;> simp

@[simp] theorem State.commitReq_memWf (r x w) : (s.commitReq r x w).1.memWf = s.memWf := by
  unfold State.commitReq
  dsimp only
  (repeat' split) <;> simp

/-! #### Scene -/

@[simp] theorem State.setCues_memWf (l c) : (s.setCues l c).memWf = s.memWf := by simp [State.setCues]

/-! #### Session -/

@[simp] theorem State.setOwner_memWf (p sid) : (s.setOwner p sid).memWf = s.memWf := by simp [State.setOwner]
@[simp] theorem State.claimOne_memWf (sid p) : (s.claimOne sid p).memWf = s.memWf := by simp [State.claimOne]
@[simp] theorem State.pushEvents_memWf (x) : (s.pushEvents x).memWf = s.memWf := by simp [State.pushEvents]

/-! #### Legacy -/

@[simp] theorem State.legError_memWf (k) : (s.legError k).memWf = s.memWf := by simp [State.legError]

@[simp] theorem State.legAccept_memWf (x) : (s.legAccept x).memWf = s.memWf := by
  simp [State.legAccept, SceG.changedAt]

@[simp] theorem State.legParam_memWf (a w) : (s.legParam a w).memWf = s.memWf := by simp [State.legParam]
@[simp] theorem State.legLoad_memWf : s.legLoad.memWf = s.memWf := by simp [State.legLoad]
@[simp] theorem State.legSoft_memWf : s.legSoft.memWf = s.memWf := by simp [State.legSoft]
@[simp] theorem State.legRateWrite_memWf (rate) : (s.legRateWrite rate).memWf = s.memWf := by simp [State.legRateWrite]
@[simp] theorem State.legClear_memWf (mask) : (s.legClear mask).memWf = s.memWf := by simp [State.legClear]

@[simp] theorem State.legWrite_memWf (a w) : (s.legWrite a w).memWf = s.memWf := by
  unfold State.legWrite
  (repeat' split) <;> simp

@[simp] theorem State.legBurst_memWf (a ws) : (s.legBurst a ws).memWf = s.memWf := by simp [State.legBurst]
@[simp] theorem State.legBurstRead_memWf (a n) : (s.legBurstRead a n).memWf = s.memWf := by simp [State.legBurstRead]
@[simp] theorem State.legNodes_memWf (as c) : (s.legNodes as c).memWf = s.memWf := by simp [State.legNodes]
@[simp] theorem State.legCommitWord_memWf (c a v) : (s.legCommitWord c a v).memWf = s.memWf := by simp [State.legCommitWord]
@[simp] theorem State.legPorts_memWf (old) : (s.legPorts old).memWf = s.memWf := by simp [State.legPorts]
@[simp] theorem State.legBridges_memWf (s : State) (old : State) : (s.legBridges old).memWf = s.memWf := by simp [State.legBridges]
@[simp] theorem State.legWipe_memWf : s.legWipe.memWf = s.memWf := by simp [State.legWipe]
@[simp] theorem State.legLoaded_memWf (c) : (s.legLoaded c).memWf = s.memWf := by simp [State.legLoaded]

/-! #### Reads -/

@[simp] theorem State.addModule_memWf (img) : (s.addModule img).memWf = s.memWf := by simp [State.addModule]
@[simp] theorem State.loadModule_memWf (img) : (s.loadModule img).memWf = s.memWf := by simp [State.loadModule]

/-! #### Summary -/

@[simp] theorem State.answerSummaries_memWf : s.answerSummaries.memWf = s.memWf := by simp [State.answerSummaries]

/-! #### Image -/

@[simp] theorem State.loadLibrary_memWf (i secs) : (s.loadLibrary i secs).memWf = s.memWf := by simp [State.loadLibrary]

/-! #### Grant -/

@[simp] theorem State.answer_memWf (t err poisoned data) : (s.answer t err poisoned data).memWf = s.memWf := by simp [State.answer]
@[simp] theorem State.decodeErr_memWf (t) : (s.decodeErr t).memWf = s.memWf := by simp [State.decodeErr]

@[simp] theorem State.access_memWf (spi write q) : (s.access spi write q).1.memWf = s.memWf := by
  unfold State.access
  split_ifs <;> simp

@[simp] theorem State.bridgeTransfer_memWf (t) : (s.bridgeTransfer t).memWf = s.memWf := by
  unfold State.bridgeTransfer
  simp only [State.answer_memWf]
  exact State.foldl_fst_memWf _ _ (fun a q => by simp) _

@[simp] theorem State.conflicts_memWf (target holder beats l) : (s.conflicts target holder beats l).memWf = s.memWf := by simp [State.conflicts]

@[simp] theorem State.waited_memWf (target l) : (s.waited target l).memWf = s.memWf := by
  unfold State.waited
  split <;> simp

/-! #### Frame -/

@[simp] theorem State.sendDests_memWf : s.sendDests.memWf = s.memWf := by simp [State.sendDests]
@[simp] theorem State.prune_memWf (k) : (s.prune k).memWf = s.memWf := by simp [State.prune]

/-! #### Steps -/

@[simp] theorem State.setSpringStage_memWf (m f st) : (s.setSpringStage m f st).memWf = s.memWf := by simp [State.setSpringStage]
@[simp] theorem State.setLegStage_memWf (a st) : (s.setLegStage a st).memWf = s.memWf := by simp [State.setLegStage]

@[simp] theorem State.setStage_memWf (h st) : (s.setStage h st).memWf = s.memWf := by
  unfold State.setStage
  (repeat' split) <;> simp

@[simp] theorem State.moveStage_memWf (h n f) : (s.moveStage h n f).memWf = s.memWf := by
  unfold State.moveStage
  (repeat' split) <;> simp

@[simp] theorem State.unmuteAll_memWf : s.unmuteAll.memWf = s.memWf := by
  rw [State.unmuteAll, State.unmuteLegacy_memWf, State.unmuteSprings_memWf, State.unmuteOutputs_memWf]

/-! #### Boot -/

@[simp] theorem State.setBoot_memWf (f) : (s.setBoot f).memWf = s.memWf := by simp [State.setBoot]
@[simp] theorem State.setPower_memWf (f) : (s.setPower f).memWf = s.memWf := by simp [State.setPower]
@[simp] theorem State.startBoot_memWf : s.startBoot.memWf = s.memWf := by simp [State.startBoot]
@[simp] theorem State.orderTwo_memWf : s.orderTwo.memWf = s.memWf := by simp [State.orderTwo]
@[simp] theorem State.putEntries_memWf (l) : (s.putEntries l).memWf = s.memWf := by simp [State.putEntries]
@[simp] theorem State.refreshRef_memWf (s : State) (old : State) (k : Nat) : (s.refreshRef old k).memWf = s.memWf := by simp [State.refreshRef]
@[simp] theorem State.applyClocks_memWf (sec) : (s.applyClocks sec).memWf = s.memWf := by simp [State.applyClocks]
@[simp] theorem State.applyPorts_memWf (sec) : (s.applyPorts sec).memWf = s.memWf := by simp [State.applyPorts]
@[simp] theorem State.legacyEngines_memWf : s.legacyEngines.memWf = s.memWf := by simp [State.legacyEngines]
@[simp] theorem State.drawSeed_memWf : s.drawSeed.memWf = s.memWf := by simp [State.drawSeed]

@[simp] theorem State.orderLibrary_memWf : s.orderLibrary.memWf = s.memWf := by
  unfold State.orderLibrary
  split <;> simp

@[simp] theorem State.orderPorts_memWf : s.orderPorts.memWf = s.memWf := by simp [State.orderPorts]

@[simp] theorem State.bootReady_memWf : s.bootReady.memWf = s.memWf := by
  unfold State.bootReady
  (repeat' split) <;> simp

@[simp] theorem State.waitImage_memWf (e) : (s.waitImage e).memWf = s.memWf := by simp [State.waitImage]
@[simp] theorem State.slotFails_memWf (b e) : (s.slotFails b e).memWf = s.memWf := by simp [State.slotFails]
@[simp] theorem State.slotHeader_memWf (b h) : (s.slotHeader b h).memWf = s.memWf := by simp [State.slotHeader]
@[simp] theorem State.pcieFails_memWf (e) : (s.pcieFails e).memWf = s.memWf := by simp [State.pcieFails]

@[simp] theorem State.firstRole_memWf : s.firstRole.memWf = s.memWf := by
  unfold State.firstRole
  (repeat' split) <;> simp

@[simp] theorem State.quietNow_memWf : s.quietNow.memWf = s.memWf := by
  unfold State.quietNow
  split <;> simp

@[simp] theorem State.fadeAll_memWf : s.fadeAll.memWf = s.memWf := by simp [State.fadeAll]

/-! #### Security -/

@[simp] theorem State.setSec_memWf (f) : (s.setSec f).memWf = s.memWf := by simp [State.setSec]
@[simp] theorem State.lifeTo_memWf (l f) : (s.lifeTo l f).memWf = s.memWf := by simp [State.lifeTo]

@[simp] theorem State.provision_memWf (blob) : (s.provision blob).1.memWf = s.memWf := by
  unfold State.provision
  dsimp only
  split
  · rfl
  · split
    · rfl
    · split_ifs <;> simp

/-! #### Shift -/

@[simp] theorem State.shiftSets_memWf (d tick) : (s.shiftSets d tick).memWf = s.memWf := by
  unfold State.shiftSets
  refine State.foldl_memWf _ _ (fun s x => ?_) _
  split
  · dsimp only
    split_ifs <;> simp
  · rfl

@[simp] theorem State.shiftCues_memWf (d) : (s.shiftCues d).memWf = s.memWf := by simp [State.shiftCues]

/-! #### Clock -/

@[simp] theorem tick_memWf : (tick s).memWf = s.memWf := by simp [tick]

/-! #### Twin -/

@[simp] theorem State.digestTick_memWf (t) : (s.digestTick t).memWf = s.memWf := by simp [State.digestTick]
@[simp] theorem State.standbyDiff_memWf (blk d) : (s.standbyDiff blk d).memWf = s.memWf := by simp [State.standbyDiff]
@[simp] theorem State.inStep_memWf : s.inStep.memWf = s.memWf := by simp [State.inStep]
@[simp] theorem State.joinDiff_memWf (d) : (s.joinDiff d).memWf = s.memWf := by simp [State.joinDiff]
@[simp] theorem State.compare_memWf (hb) : (s.compare hb).memWf = s.memWf := by simp [State.compare]
@[simp] theorem State.pathSet_memWf (k up) : (s.pathSet k up).memWf = s.memWf := by simp [State.pathSet]
@[simp] theorem State.peerLeft_memWf (hb) : (s.peerLeft hb).memWf = s.memWf := by simp [State.peerLeft]

@[simp] theorem State.leaveTick_memWf : s.leaveTick.memWf = s.memWf := by
  unfold State.leaveTick
  split <;> simp

@[simp] theorem State.dropResync_memWf : s.dropResync.memWf = s.memWf := by simp [State.dropResync]
@[simp] theorem State.takeHsp_memWf (type buttons) : (s.takeHsp type buttons).memWf = s.memWf := by simp [State.takeHsp]
@[simp] theorem State.takeMic_memWf (b samples) : (s.takeMic b samples).memWf = s.memWf := by simp [State.takeMic]

@[simp] theorem State.takeItem_memWf (s : State) (tick : Nat) (i : InItem) : (s.takeItem tick i).memWf = s.memWf := by
  cases i <;> simp only [State.takeItem]
  all_goals (repeat' split) <;> simp

@[simp] theorem State.leadTick_memWf : s.leadTick.memWf = s.memWf := by simp [State.leadTick]

@[simp] theorem State.copyStart_memWf (o) : (s.copyStart o).memWf = s.memWf := by
  unfold State.copyStart
  split <;> simp

@[simp] theorem State.mirrorTick_memWf : s.mirrorTick.memWf = s.memWf := by simp [State.mirrorTick]
@[simp] theorem State.windowStart_memWf (seed) : (s.windowStart seed).memWf = s.memWf := by simp [State.windowStart]

@[simp] theorem State.installCopy_memWf (slot x y) : (s.installCopy slot x y).memWf = s.memWf := by
  unfold State.installCopy
  split <;> simp

@[simp] theorem State.joinTick_memWf : s.joinTick.memWf = s.memWf := by simp [State.joinTick]

/-! #### Tick -/

@[simp] theorem State.fillInputs_memWf (b) : (State.fillInputs b s).memWf = s.memWf := by simp [State.fillInputs]

end

end Sys2Proof.Machine
end

section
/-! PROOFS. The commands that write no memory answer a next state with the memories as they were; O59. -/
namespace Sys2Proof.Machine

/-- The outcome is a next state whose memories are canonical. -/
def Safe (o : Host.Outcome State Fault Refusal) : Prop := ∃ t, o = .next t ∧ t.memWf = true

@[simp] theorem safe_next (t : State) : Safe (.next t) ↔ t.memWf = true :=
  ⟨fun ⟨_, e, h⟩ => by cases e; exact h, fun h => ⟨t, rfl, h⟩⟩

@[simp] theorem safe_ite (p : Prop) [Decidable p] (a b : Host.Outcome State Fault Refusal) :
    Safe (if p then a else b) ↔ if p then Safe a else Safe b := by
  split_ifs <;> rfl

theorem State.ifAsked_safe {s t : State} (r : Req) (i : Instr) (h : s.memWf = true) (ht : t.memWf = true) : Safe (s.ifAsked r i t) := by
  rw [State.ifAsked, safe_next]
  split_ifs
  · exact ht
  · exact h

theorem State.withSet_memWf (s : State) (q : Session) (id : Nat) (f : StageSet → State × Option Ans) (h : ∀ x, (f x).1.memWf = s.memWf) :
    (s.withSet q id f).1.memWf = s.memWf := by
  unfold State.withSet
  split
  · rfl
  · split_ifs
    · exact h _
    · rfl

theorem State.withSet_keeps {s : State} (q : Session) (id : Nat) (f : StageSet → State × Option Ans) (hs : s.memWf = true)
    (h : ∀ x, (f x).1.memWf = true) : (s.withSet q id f).1.memWf = true := by
  unfold State.withSet
  split
  · exact hs
  · split_ifs
    · exact h _
    · exact hs

theorem instr_safe (e : Nat) (f : Engine → Option Tarn.Out) {s : State} (h : s.memWf = true) : Safe (instr e f s) := by
  simp [instr, h]

theorem flow_safe (e : Nat) (f : Engine → Option Tarn.Out) {s : State} (h : s.memWf = true) : Safe (flow e f s) := by
  simp [flow, h]

theorem State.serve_safe {s : State} {r : Req} {cmd : Nat} {need : RoleReq} {act : Session → State → State × Option Ans} (h : s.memWf = true)
    (ha : ∀ x t, (act x t).1.memWf = t.memWf) : Safe (.next (s.serve r cmd need act)) :=
  (safe_next _).2 ((s.serve_memWf r cmd need act ha).trans h)

theorem State.serveAudio_safe {s : State} {r : Req} {cmd : Nat} {act : Session → State → State × Option Ans} (h : s.memWf = true)
    (ha : ∀ x t, (act x t).1.memWf = t.memWf) : Safe (.next (s.serveAudio r cmd act)) :=
  (safe_next _).2 ((s.serveAudio_memWf r cmd act ha).trans h)

theorem State.asked_serve_safe {s : State} {r r' : Req} {i : Instr} {cmd : Nat} {need : RoleReq} {act : Session → State → State × Option Ans}
    (h : s.memWf = true) (ha : ∀ x t, (act x t).1.memWf = t.memWf) : Safe (s.ifAsked r i (s.serve r' cmd need act)) :=
  s.ifAsked_safe r i h ((s.serve_memWf r' cmd need act ha).trans h)

theorem State.asked_serveAudio_safe {s : State} {r r' : Req} {i : Instr} {cmd : Nat} {act : Session → State → State × Option Ans}
    (h : s.memWf = true) (ha : ∀ x t, (act x t).1.memWf = t.memWf) : Safe (s.ifAsked r i (s.serveAudio r' cmd act)) :=
  s.ifAsked_safe r i h ((s.serveAudio_memWf r' cmd act ha).trans h)

/-! ### The commands, file by file -/

section
variable {s : State} (hs : s.memWf = true)
include hs

/-! #### Cku -/

theorem execRefLost_safe (k) : Safe (execRefLost k s) := by simp [execRefLost, hs]
theorem execRefEvaluation_safe (meas) : Safe (execRefEvaluation meas s) := by simp [execRefEvaluation, hs]
theorem execCkuLock_safe : Safe (execCkuLock s) := by simp [execCkuLock, hs]
theorem execCkuBwStep_safe : Safe (execCkuBwStep s) := by simp [execCkuBwStep, hs]
theorem execCkuUnlock_safe : Safe (execCkuUnlock s) := by simp [execCkuUnlock, hs]
theorem execCkuGlide_safe : Safe (execCkuGlide s) := by simp [execCkuGlide, hs]
theorem execCkuFreerun_safe : Safe (execCkuFreerun s) := by simp [execCkuFreerun, hs]
theorem execRef4SlewDone_safe (edge) : Safe (execRef4SlewDone edge s) := by simp [execRef4SlewDone, hs]

theorem execCkuSteer_safe (r target) : Safe (execCkuSteer r target s) := by
  refine State.serve_safe hs (fun x t => ?_)
  split_ifs <;> simp

theorem execCkuCalibrate_safe (r) : Safe (execCkuCalibrate r s) := by
  refine State.serve_safe hs (fun x t => ?_)
  dsimp only
  split_ifs <;> simp

theorem execClkoutFreqChange_safe (k) : Safe (execClkoutFreqChange k s) := by simp [execClkoutFreqChange, hs]

/-! #### Net -/

theorem execNetLinkDown_safe (n) : Safe (execNetLinkDown n s) := by simp [execNetLinkDown, hs]
theorem execNetLinkUp_safe (n) : Safe (execNetLinkUp n s) := by simp [execNetLinkUp, hs]

theorem execNetFrameReceive_safe (n f stamp) : Safe (execNetFrameReceive n f stamp s) := by
  unfold execNetFrameReceive
  dsimp only
  (repeat' split) <;> simp [hs]

theorem execPtpOffsetMeasurement_safe (offset leader) : Safe (execPtpOffsetMeasurement offset leader s) := by simp [execPtpOffsetMeasurement, hs]
theorem execAnnounceTimeout_safe : Safe (execAnnounceTimeout s) := by simp [execAnnounceTimeout, hs]
theorem execPhcTimerPulse_safe (i) : Safe (execPhcTimerPulse i s) := by simp [execPhcTimerPulse, hs]
theorem execPhcCapture_safe (i rising) : Safe (execPhcCapture i rising s) := by simp [execPhcCapture, hs]

theorem execPhcSet_safe (r sec ns) : Safe (execPhcSet r sec ns s) := by
  refine State.serve_safe hs (fun x t => ?_)
  split_ifs <;> simp

theorem execMccAlign_safe (r) : Safe (execMccAlign r s) := by
  refine State.serve_safe hs (fun x t => ?_)
  split_ifs <;> simp

theorem execMccUnaligned_safe (edge) : Safe (execMccUnaligned edge s) := by simp [execMccUnaligned, hs]
theorem execMccRealigned_safe (edge) : Safe (execMccRealigned edge s) := by simp [execMccRealigned, hs]

/-! #### Stream -/

theorem execStreamPacketReceive_safe (i leg seq ts ns payload) : Safe (execStreamPacketReceive i leg seq ts ns payload s) := by
  unfold execStreamPacketReceive
  dsimp only
  (repeat' split) <;> simp [hs]

theorem execStreamLegMiss_safe (i leg seq) : Safe (execStreamLegMiss i leg seq s) := by
  unfold execStreamLegMiss
  dsimp only
  (repeat' split) <;> simp [hs]

theorem execStreamRxRelease_safe (i) : Safe (execStreamRxRelease i s) := by simp [execStreamRxRelease, hs]
theorem execStreamPacketTransmit_safe (i) : Safe (execStreamPacketTransmit i s) := by simp [execStreamPacketTransmit, hs]
theorem execStreamTxStopDone_safe (i) : Safe (execStreamTxStopDone i s) := by simp [execStreamTxStopDone, hs]

/-! #### TarnRun -/

theorem execDispatchInterrupt_safe (e) : Safe (execDispatchInterrupt e s) := by simp [execDispatchInterrupt, hs]
theorem execDispatchReturn_safe (e) : Safe (execDispatchReturn e s) := by simp [execDispatchReturn, hs]
theorem execServiceInterrupt_safe (e debug) : Safe (execServiceInterrupt e debug s) := by simp [execServiceInterrupt, hs]
theorem execTaskOverrun_safe (e) : Safe (execTaskOverrun e s) := by simp [execTaskOverrun, hs]
theorem execIllegalInstruction_safe (e) : Safe (execIllegalInstruction e s) := by simp [execIllegalInstruction, hs]

/-! #### Ports -/

theorem execSapFrame_safe (port tx words phase period bclks) : Safe (execSapFrame port tx words phase period bclks s) := by simp [execSapFrame, hs]
theorem execSapClockStop_safe (port tx idle) : Safe (execSapClockStop port tx idle s) := by simp [execSapClockStop, hs]

theorem execSapMaskShadowWrite_safe (port tx) : Safe (execSapMaskShadowWrite port tx s) := by
  unfold execSapMaskShadowWrite
  dsimp only
  (repeat' split) <;> simp [hs]

theorem execSapLayout_safe (port tx) : Safe (execSapLayout port tx s) := by
  unfold execSapLayout
  dsimp only
  (repeat' split) <;> simp [hs]

theorem execSapRateMeasured_safe (port tx period bclks) : Safe (execSapRateMeasured port tx period bclks s) := by simp [execSapRateMeasured, hs]

/-! #### Madi -/

theorem execSapStopDone_safe (port tx) : Safe (execSapStopDone port tx s) := by
  unfold execSapStopDone
  dsimp only
  (repeat' split) <;> simp [hs]

theorem execMadiFrame_safe (port tx subframes violations period) : Safe (execMadiFrame port tx subframes violations period s) := by
  simp [execMadiFrame, hs]

theorem execMadiLock_safe (port period) : Safe (execMadiLock port period s) := by simp [execMadiLock, hs]
theorem execMadiStop_safe (port idle) : Safe (execMadiStop port idle s) := by simp [execMadiStop, hs]

/-! #### Conv -/

theorem execSrcLock_safe (i ratio) : Safe (execSrcLock i ratio s) := by simp [execSrcLock, hs]
theorem execSrcUnlock_safe (i outOfRange) : Safe (execSrcUnlock i outOfRange s) := by simp [execSrcUnlock, hs]

theorem execDecInputSwitch_safe (i) : Safe (execDecInputSwitch i s) := by
  unfold execDecInputSwitch
  dsimp only
  (repeat' split) <;> simp [hs]

theorem execDecSilenceEnd_safe (i) : Safe (execDecSilenceEnd i s) := by
  unfold execDecSilenceEnd
  split <;> simp [hs]

theorem execDecsync_safe (r w) : Safe (execDecsync r w s) := by
  refine State.asked_serve_safe hs (fun x t => ?_)
  dsimp only
  (repeat' split) <;> simp

theorem execDecsyncFadeStart_safe : Safe (execDecsyncFadeStart s) := by
  unfold execDecsyncFadeStart
  split <;> simp [hs]

theorem execDecsyncReset_safe : Safe (execDecsyncReset s) := by
  unfold execDecsyncReset
  split <;> simp [hs]

theorem execDecsyncPinEdge_safe : Safe (execDecsyncPinEdge s) := by simp [execDecsyncPinEdge, hs]

theorem execDecsyncHoldEnd_safe : Safe (execDecsyncHoldEnd s) := by
  unfold execDecsyncHoldEnd
  split <;> simp [hs]

/-! #### Fabric -/

theorem execQosPromotion_safe (target cycle) : Safe (execQosPromotion target cycle s) := by simp [execQosPromotion, hs]
theorem execPoolScrubPass_safe (found) : Safe (execPoolScrubPass found s) := by simp [execPoolScrubPass, hs]
theorem execDramPatrolPass_safe (found) : Safe (execDramPatrolPass found s) := by simp [execDramPatrolPass, hs]
theorem execMstoreCorrected_safe (addr) : Safe (execMstoreCorrected addr s) := by simp [execMstoreCorrected, hs]
theorem execMstoreScrubPass_safe (found) : Safe (execMstoreScrubPass found s) := by simp [execMstoreScrubPass, hs]

theorem execEventCountPublish_safe (x arrivals reflect take) : Safe (execEventCountPublish x arrivals reflect take s) := by
  simp [execEventCountPublish, hs]

/-! #### FaultC -/

theorem execTarnDetection_safe (e cause addr again fits) : Safe (execTarnDetection e cause addr again fits s) := by
  unfold execTarnDetection
  dsimp only
  (repeat' split) <;> simp [hs]

theorem execTarnRetire_safe (e) : Safe (execTarnRetire e s) := by
  unfold execTarnRetire
  dsimp only
  (repeat' split) <;> simp [hs]

theorem execSpareSelfTestPass_safe (ok) : Safe (execSpareSelfTestPass ok s) := by
  unfold execSpareSelfTestPass
  split <;> simp [hs]

theorem execTarnScrubPass_safe : Safe (execTarnScrubPass s) := by simp [execTarnScrubPass, hs]

theorem execPoisonedBlockRead_safe (buffer key index) : Safe (execPoisonedBlockRead buffer key index s) := by
  unfold execPoisonedBlockRead
  split <;> simp [hs]

theorem execNodeCorrected_safe (d src) : Safe (execNodeCorrected d src s) := by simp [execNodeCorrected, hs]
theorem execMereScrubPass_safe (nodes tables) : Safe (execMereScrubPass nodes tables s) := by simp [execMereScrubPass, hs]
theorem execCrossingResetIndication_safe (x) : Safe (execCrossingResetIndication x s) := by simp [execCrossingResetIndication, hs]

/-! #### Hsp -/

theorem execHspInsertion_safe : Safe (execHspInsertion s) := by simp [execHspInsertion, hs]
theorem execHspPlug_safe (tip ring1 ring2 sleeve) : Safe (execHspPlug tip ring1 ring2 sleeve s) := by simp [execHspPlug, hs]
theorem execHspButtonDown_safe : Safe (execHspButtonDown s) := by simp [execHspButtonDown, hs]

theorem execHspButtonPress_safe (mv) : Safe (execHspButtonPress mv s) := by
  unfold execHspButtonPress
  split <;> simp [hs]

theorem execHspButtonRepeat_safe : Safe (execHspButtonRepeat s) := by
  unfold execHspButtonRepeat
  split <;> simp [hs]

theorem execHspButtonRelease_safe : Safe (execHspButtonRelease s) := by
  unfold execHspButtonRelease
  dsimp only
  (repeat' split) <;> simp [hs]

theorem execHspUnplug_safe : Safe (execHspUnplug s) := by simp [execHspUnplug, hs]
theorem execHspMicGainStep_safe : Safe (execHspMicGainStep s) := by simp [execHspMicGainStep, hs]

/-! #### Upkeep -/

theorem execCcRollback_safe (addr) : Safe (execCcRollback addr s) := by simp [execCcRollback, hs]
theorem execCcCheckpoint_safe : Safe (execCcCheckpoint s) := by simp [execCcCheckpoint, hs]
theorem execCcRestart_safe (cause) : Safe (execCcRestart cause s) := by simp [execCcRestart, hs]
theorem execCcWatchdogExpiry_safe : Safe (execCcWatchdogExpiry s) := by simp [execCcWatchdogExpiry, hs]
theorem execDroopReport_safe (mere) : Safe (execDroopReport mere s) := by simp [execDroopReport, hs]
theorem execThrottleStep_safe (mere) : Safe (execThrottleStep mere s) := by simp [execThrottleStep, hs]
theorem execTempWarn_safe (celsius) : Safe (execTempWarn celsius s) := by simp [execTempWarn, hs]
theorem execMaintStatus_safe (r) : Safe (execMaintStatus r s) := by simp [execMaintStatus, hs]

theorem execMaintActivityEnd_safe (ok) : Safe (execMaintActivityEnd ok s) := by
  unfold execMaintActivityEnd
  (repeat' split) <;> simp [hs]

/-! #### Vcp -/

theorem execAuthBlockExpiry_safe (o) : Safe (execAuthBlockExpiry o s) := by simp [execAuthBlockExpiry, hs]

theorem execVcpFragment_safe (o bytes) : Safe (execVcpFragment o bytes s) := by
  unfold execVcpFragment
  (repeat' split) <;> simp [hs]

theorem execReassemblyTimeout_safe (o sid seq) : Safe (execReassemblyTimeout o sid seq s) := by simp [execReassemblyTimeout, hs]

/-! #### Reg -/

theorem execMbxReqWrite_safe (c len) : Safe (execMbxReqWrite c len s) := by simp [execMbxReqWrite, hs]
theorem execMbxEvrWrite_safe (c value) : Safe (execMbxEvrWrite c value s) := by simp [execMbxEvrWrite, hs]
theorem execMccLoRead_safe : Safe (execMccLoRead s) := by simp [execMccLoRead, hs]
theorem execGenLoRead_safe : Safe (execGenLoRead s) := by simp [execGenLoRead, hs]
theorem execEvStatClear_safe (k mask) : Safe (execEvStatClear k mask s) := by simp [execEvStatClear, hs]
theorem execRegisterWrite_safe (offset value) : Safe (execRegisterWrite offset value s) := by simp [execRegisterWrite, hs]
theorem execSpiRegisterWrite_safe (offset words) : Safe (execSpiRegisterWrite offset words s) := by simp [execSpiRegisterWrite, hs]
theorem execSpiRegisterRead_safe (offset n) : Safe (execSpiRegisterRead offset n s) := by simp [execSpiRegisterRead, hs]
theorem execSpiMailboxRead_safe (addr n) : Safe (execSpiMailboxRead addr n s) := by simp [execSpiMailboxRead, hs]

/-! #### Spring -/

theorem execSpringPeriod_safe (detections) : Safe (execSpringPeriod detections s) := by
  unfold execSpringPeriod
  dsimp only
  split
  · simp [hs]
  · split
    · simp [hs]
    · rw [safe_next, State.setSpring_memWf, State.foldl_memWf _ _ (fun s a => s.springDetect_memWf a), State.springSend_memWf,
        State.foldl_fst_memWf _ _ (fun a m => by simp), State.setSpring_memWf, State.foldl_fst_memWf _ _ (fun a r => by simp)]
      simp [hs]

theorem execSpringSourceHandover_safe (m i) : Safe (execSpringSourceHandover m i s) := by
  unfold execSpringSourceHandover
  split
  · exact (safe_next s).2 hs
  · exact (safe_next _).2 ((State.setSpring_memWf _ _).trans hs)

theorem execSpringOutputHandover_safe (m ref) : Safe (execSpringOutputHandover m ref s) := by simp [execSpringOutputHandover, hs]
theorem execSpringSourceClockLoss_safe (ref) : Safe (execSpringSourceClockLoss ref s) := by simp [execSpringSourceClockLoss, hs]
theorem execSpringOutputClockReturn_safe (ref) : Safe (execSpringOutputClockReturn ref s) := by simp [execSpringOutputClockReturn, hs]
theorem execSpringUnitRetire_safe (unit) : Safe (execSpringUnitRetire unit s) := by simp [execSpringUnitRetire, hs]

/-! #### Stage -/

theorem execStageOpen_safe (r attrs) : Safe (execStageOpen r attrs s) := by
  refine State.asked_serveAudio_safe hs (fun x t => ?_)
  dsimp only
  split_ifs <;> simp

theorem execStageCheck_safe (r id) : Safe (execStageCheck r id s) := by
  unfold execStageCheck
  split
  · simp [hs]
  · refine State.asked_serveAudio_safe hs (fun q t => State.withSet_memWf _ _ _ _ (fun x => ?_))
    split_ifs <;> simp

theorem execCheckDone_safe : Safe (execCheckDone s) := by
  unfold execCheckDone
  (repeat' split) <;> simp [hs]

theorem execStageCosign_safe (r id digest mac) : Safe (execStageCosign r id digest mac s) := by
  refine State.serveAudio_safe hs (fun x t => ?_)
  dsimp only
  (repeat' split) <;> simp

theorem execCommit_safe (r id w) : Safe (execCommit r id w s) := by
  unfold execCommit
  split
  · simp [hs]
  · refine State.asked_serveAudio_safe hs (fun q t => State.withSet_memWf _ _ _ _ (fun x => ?_))
    simp

theorem execCommitScheduled_safe (id) : Safe (execCommitScheduled id s) := by
  unfold execCommitScheduled
  dsimp only
  (repeat' split) <;> simp [hs]

theorem execStageReport_safe (r id) : Safe (execStageReport r id s) :=
  s.ifAsked_safe r _ hs ((s.serveRead_memWf r _ _ _).trans hs)

/-! #### Scene -/

theorem execSceneSave_safe (r part scene label) : Safe (execSceneSave r part scene label s) := by
  refine State.serveAudio_safe hs (fun x t => ?_)
  dsimp only
  split_ifs <;> simp

theorem execSceneList_safe (r start) : Safe (execSceneList r start s) := by simp [execSceneList, hs]

theorem execSceneRecall_safe (r id scene scope) : Safe (execSceneRecall r id scene scope s) := by
  refine State.serveAudio_safe hs (fun q t => State.withSet_memWf _ _ _ _ (fun x => ?_))
  split_ifs <;> simp

theorem execCueLoad_safe (r list cues) : Safe (execCueLoad r list cues s) := by
  refine State.serveAudio_safe hs (fun x t => ?_)
  split_ifs <;> simp

theorem execCueRead_safe (r list) : Safe (execCueRead r list s) := by simp [execCueRead, hs]

/-! #### Session -/

theorem execSessionOpen_safe (o seq cred role options nonce keepalive) : Safe (execSessionOpen o seq cred role options nonce keepalive s) := by
  unfold execSessionOpen
  dsimp only
  (repeat' split) <;> simp [hs]

theorem execPing_safe (r) : Safe (execPing r s) := by simp [execPing, hs]
theorem execUnknownCommand_safe (r code) : Safe (execUnknownCommand r code s) := by simp [execUnknownCommand, hs]

theorem execPartitionClaim_safe (r mask force) : Safe (execPartitionClaim r mask force s) := by
  refine State.asked_serveAudio_safe hs (fun x t => ?_)
  dsimp only
  split_ifs <;> simp

theorem execPartitionRelease_safe (r mask) : Safe (execPartitionRelease r mask s) := by
  refine State.asked_serveAudio_safe hs (fun x t => ?_)
  split_ifs <;> simp

theorem execEventRead_safe (r start) : Safe (execEventRead r start s) := by
  refine State.serve_safe hs (fun x t => ?_)
  simp

theorem execEventAck_safe (r upTo) : Safe (execEventAck r upTo s) := by
  refine State.serve_safe hs (fun x t => ?_)
  simp

theorem execEventMask_safe (r mask interval) : Safe (execEventMask r mask interval s) := by
  refine State.serve_safe hs (fun x t => ?_)
  split_ifs <;> simp

theorem execEventDetail_safe (r index) : Safe (execEventDetail r index s) := by simp [execEventDetail, hs]

/-! #### Legacy -/

theorem execLegacyWrite_safe (addr word) : Safe (execLegacyWrite addr word s) := by simp [execLegacyWrite, hs]
theorem execLegacyBurstWrite_safe (addr words cut) : Safe (execLegacyBurstWrite addr words cut s) := by simp [execLegacyBurstWrite, hs]
theorem execLegacyRead_safe (addr) : Safe (execLegacyRead addr s) := by simp [execLegacyRead, hs]
theorem execLegacyBurstRead_safe (addr n) : Safe (execLegacyBurstRead addr n s) := by simp [execLegacyBurstRead, hs]
theorem execLegacyParamWrite_safe (addr word) : Safe (execLegacyParamWrite addr word s) := by simp [execLegacyParamWrite, hs]
theorem execLoad_safe : Safe (execLoad s) := by simp [execLoad, hs]
theorem execSoftReset_safe : Safe (execSoftReset s) := by simp [execSoftReset, hs]
theorem execLegacyRateWrite_safe (rate) : Safe (execLegacyRateWrite rate s) := by simp [execLegacyRateWrite, hs]
theorem execLegacyStatusClear_safe (mask) : Safe (execLegacyStatusClear mask s) := by simp [execLegacyStatusClear, hs]

theorem execLoadLatch_safe : Safe (execLoadLatch s) := by
  unfold execLoadLatch
  split <;> simp [hs]

/-! #### Reads -/

theorem execParamRead_safe (r handles) : Safe (execParamRead r handles s) := by simp [execParamRead, hs]
theorem execMatrixRead_safe (r d src nd ns start) : Safe (execMatrixRead r d src nd ns start s) := by simp [execMatrixRead, hs]
theorem execLatencyRead_safe (r outs) : Safe (execLatencyRead r outs s) := by simp [execLatencyRead, hs]
theorem execCounterRead_safe (r ids) : Safe (execCounterRead r ids s) := by simp [execCounterRead, hs]

theorem execMeterSubscribe_safe (r points) : Safe (execMeterSubscribe r points s) := by
  refine State.serve_safe hs (fun x t => ?_)
  split_ifs <;> simp

theorem execMeterPeriodEnd_safe (part) : Safe (execMeterPeriodEnd part s) := by simp [execMeterPeriodEnd, hs]

theorem execModuleLoad_safe (r image) : Safe (execModuleLoad r image s) := by
  refine State.serveAudio_safe hs (fun x t => ?_)
  dsimp only
  split_ifs <;> simp

theorem execModuleList_safe (r) : Safe (execModuleList r s) := by simp [execModuleList, hs]

/-! #### Summary -/

theorem execSummary_safe (r) : Safe (execSummary r s) := by
  refine State.serve_safe hs (fun x t => ?_)
  simp

/-! #### Firmware -/

theorem execCcRestartDone_safe : Safe (execCcRestartDone s) := by
  unfold execCcRestartDone
  (repeat' split) <;> simp [hs]

/-! #### Steps -/

theorem execZcStep_safe (h n) : Safe (execZcStep h n s) := by simp [execZcStep, hs]
theorem execZcTimeout_safe (h n) : Safe (execZcTimeout h n s) := by simp [execZcTimeout, hs]
theorem execZcRampEnd_safe (h n) : Safe (execZcRampEnd h n s) := by simp [execZcRampEnd, hs]
theorem execXfadeEnd_safe (h n) : Safe (execXfadeEnd h n s) := by simp [execXfadeEnd, hs]

theorem execCfBankWrite_safe (h) : Safe (execCfBankWrite h s) := by
  unfold execCfBankWrite
  dsimp only
  (repeat' split) <;> simp [hs]

theorem execPatchRevert_safe (n) : Safe (execPatchRevert n s) := by simp [execPatchRevert, hs]
theorem execProfileReconfigDone_safe : Safe (execProfileReconfigDone s) := by simp [execProfileReconfigDone, hs]

/-! #### Boot -/

theorem execMainRailsInRange_safe : Safe (execMainRailsInRange s) := by simp [execMainRailsInRange, hs]
theorem execResetNRise_safe (straps) : Safe (execResetNRise straps s) := by simp [execResetNRise, hs]

theorem execImageHeaderRead_safe (header) : Safe (execImageHeaderRead header s) := by
  unfold execImageHeaderRead
  dsimp only
  (repeat' split) <;> simp [hs]

theorem execDramTrainingDone_safe (ok) : Safe (execDramTrainingDone ok s) := by simp [execDramTrainingDone, hs]
theorem execTwinFirstRoleTimeout_safe : Safe (execTwinFirstRoleTimeout s) := by simp [execTwinFirstRoleTimeout, hs]
theorem execStbyNLowHeld_safe : Safe (execStbyNLowHeld s) := by simp [execStbyNLowHeld, hs]

/-! #### Security -/

theorem execTamperTrip_safe (source) : Safe (execTamperTrip source s) := by simp [execTamperTrip, hs]
theorem execSbWiped_safe : Safe (execSbWiped s) := by simp [execSbWiped, hs]
theorem execTamperSourceCleared_safe (source) : Safe (execTamperSourceCleared source s) := by simp [execTamperSourceCleared, hs]

theorem execLifecycleSet_safe (r target blob) : Safe (execLifecycleSet r target blob s) := by
  refine State.serve_safe hs (fun x t => ?_)
  (repeat' split) <;> simp

theorem execSecVersionFloorRaise_safe : Safe (execSecVersionFloorRaise s) := by
  unfold execSecVersionFloorRaise
  split <;> simp [hs]

theorem execCredProvision_safe (r blob) : Safe (execCredProvision r blob s) := by
  refine State.serve_safe hs (fun x t => ?_)
  dsimp only
  split_ifs <;> simp

theorem execKeyInfo_safe (r) : Safe (execKeyInfo r s) := by simp [execKeyInfo, hs]

/-! #### Twin -/

theorem execTwinPathDown_safe (twl) : Safe (execTwinPathDown twl s) := by simp [execTwinPathDown, hs]
theorem execTwinImageSend_safe : Safe (execTwinImageSend s) := by simp [execTwinImageSend, hs]

theorem execPeerAliveStopped_safe : Safe (execPeerAliveStopped s) := by
  unfold execPeerAliveStopped
  (repeat' split) <;> simp [hs]

theorem execAmclkStopRelease_safe : Safe (execAmclkStopRelease s) := by simp [execAmclkStopRelease, hs]

theorem execLeaseRenewal_safe (n) : Safe (execLeaseRenewal n s) := by
  unfold execLeaseRenewal
  (repeat' split) <;> simp [hs]

theorem execLeaseAck_safe (n) : Safe (execLeaseAck n s) := by simp [execLeaseAck, hs]
theorem execLeaseFence_safe : Safe (execLeaseFence s) := by simp [execLeaseFence, hs]
theorem execLeaseGuardExpiry_safe : Safe (execLeaseGuardExpiry s) := by simp [execLeaseGuardExpiry, hs]

theorem execTwinHandover_safe (h) : Safe (execTwinHandover h s) := by
  unfold execTwinHandover
  (repeat' split) <;> simp [hs]

theorem execTwinSwap_safe (r w) : Safe (execTwinSwap r w s) := by
  refine State.serve_safe hs (fun x t => ?_)
  (repeat' split) <;> simp

theorem execTwinSwapAtH_safe : Safe (execTwinSwapAtH s) := by
  unfold execTwinSwapAtH
  (repeat' split) <;> simp [hs]

theorem execProcessingPllLossOfLock_safe : Safe (execProcessingPllLossOfLock s) := by simp [execProcessingPllLossOfLock, hs]
theorem execEdgeOffsetExceeded_safe (offset) : Safe (execEdgeOffsetExceeded offset s) := by simp [execEdgeOffsetExceeded, hs]
theorem execInputRecord_safe (tick items) : Safe (execInputRecord tick items s) := by simp [execInputRecord, hs]
theorem execInputRecordMissing_safe : Safe (execInputRecordMissing s) := by simp [execInputRecordMissing, hs]
theorem execInputRecordClose_safe : Safe (execInputRecordClose s) := by simp [execInputRecordClose, hs]
theorem execNonconvStateCopy_safe (slot x y) : Safe (execNonconvStateCopy slot x y s) := by simp [execNonconvStateCopy, hs]
theorem execJoinLimitExpiry_safe : Safe (execJoinLimitExpiry s) := by simp [execJoinLimitExpiry, hs]

end

end Sys2Proof.Machine
end

section
/-! PROOFS. The functions that write a memory, the node memory or the group table keep the canonical form; O59. -/
namespace Sys2Proof.Machine

/-! ### The stepping of the nodes keeps their canonical form -/

/-- The node memory and the group table of a stepping are in the canonical form. -/
def StepG.Wf (m : StepG) : Prop := Cells.wf Node.reset m.nodes = true ∧ Cells.wf Group.idle m.groups = true

theorem StepG.Wf.setGroup {m : StepG} (h : m.Wf) (g : Nat) (x : Group) : (m.setGroup g x).Wf := ⟨h.1, Cells.wf_put _ _ _ _ h.2⟩

theorem StepG.Wf.tidy {m : StepG} (e : StepEnv) (h : m.Wf) (g : Nat) : (m.tidy e g).Wf := StepG.Wf.setGroup h _ _

theorem StepG.Wf.foldl {α : Type} {l : List α} {f : StepG → α → StepG} (hf : ∀ m a, m.Wf → (f m a).Wf) {m : StepG} (h : m.Wf) :
    (l.foldl f m).Wf :=
  List.foldlRecOn l f (motive := StepG.Wf) h fun m hm a _ => hf m a hm

theorem StepG.Wf.foldl_fst {α β : Type} {l : List α} {f : StepG × β → α → StepG × β} (hf : ∀ p a, p.1.Wf → (f p a).1.Wf) {p : StepG × β}
    (h : p.1.Wf) : (l.foldl f p).1.Wf :=
  List.foldlRecOn l f (motive := fun p => p.1.Wf) h fun p hp a _ => hf p a hp

section
variable {e : StepEnv} (he : e.zero = Node.reset) {m : StepG} (h : m.Wf)
include he h

theorem StepG.Wf.setNode (k : Nat) (x : Node) : (m.setNode e k x).Wf := ⟨by
  rw [StepG.setNode, he]
  exact Cells.wf_put _ _ _ _ h.1, h.2⟩

theorem StepG.Wf.moved (ks : List Nat) (f : Node → Node) : (m.mapNodes e ks f).Wf :=
  StepG.Wf.foldl (fun _ _ hm => StepG.Wf.setNode he hm _ _) h

theorem StepG.Wf.endRamp (n g : Nat) : (m.endRamp e n g).Wf := by
  unfold StepG.endRamp
  dsimp only
  split
  · split
    · exact StepG.Wf.setGroup (StepG.Wf.moved he h _ _) _ _
    · exact h
  · exact h

theorem StepG.Wf.tapSwitch (n k : Nat) : (m.tapSwitch e n k).1.Wf := by
  unfold StepG.tapSwitch
  dsimp only
  split
  · split
    · exact StepG.Wf.setNode he h _ _
    · exact StepG.Wf.setGroup (StepG.Wf.setNode he h _ _) _ _
  · exact h

theorem StepG.Wf.commitNode (n k : Nat) (t : Int) (tap : Nat) : (m.commitNode e n k t tap).1.Wf := by
  unfold StepG.commitNode
  dsimp only
  refine StepG.Wf.tidy e ?_ _
  split
  · exact StepG.Wf.setGroup (StepG.Wf.setNode he h _ _) _ _
  · exact StepG.Wf.setNode he h _ _

theorem StepG.Wf.crossing (g : Nat) : (m.crossing e g).Wf := StepG.Wf.tidy e (StepG.Wf.moved he h _ _) g

theorem StepG.Wf.timeout (n : Nat) (fresh : List Nat) (g : Nat) : (m.timeout e n fresh g).Wf := by
  unfold StepG.timeout
  dsimp only
  split
  · exact h
  · split
    · exact h
    · split
      · split
        · exact h
        · exact StepG.Wf.setGroup h _ _
      · split
        · exact StepG.Wf.tidy e (StepG.Wf.setGroup (StepG.Wf.moved he h _ _) _ _) g
        · exact StepG.Wf.tidy e (StepG.Wf.setGroup (StepG.Wf.moved he h _ _) _ _) g

theorem StepG.Wf.startQueued (n g : Nat) : (m.startQueued e n g).Wf := by
  unfold StepG.startQueued
  dsimp only
  split
  · exact StepG.Wf.setGroup (StepG.Wf.moved he h _ _) _ _
  · exact h

theorem StepG.Wf.tapSwitches (n : Nat) : (m.tapSwitches e n).1.Wf := by
  unfold StepG.tapSwitches
  refine StepG.Wf.foldl_fst (fun p k hp => ?_) h
  exact StepG.Wf.tapSwitch he hp n k

theorem StepG.Wf.commits (n : Nat) (fresh : List Nat) (ns : List (Nat × Int × Nat)) : (m.commits e n fresh ns).1.Wf := by
  unfold StepG.commits
  refine StepG.Wf.foldl_fst (fun p q hp => ?_) h
  exact StepG.Wf.commitNode he hp n _ _ _

theorem StepG.Wf.sample (n : Nat) (ns : List (Nat × Int × Nat)) : (m.sample e n ns).Wf :=
  StepG.Wf.foldl (fun _ _ hm => StepG.Wf.timeout he (StepG.Wf.startQueued he hm _ _) _ _ _)
    (StepG.Wf.foldl (fun _ _ hm => by
      split
      · exact StepG.Wf.crossing he hm _
      · exact hm)
      (StepG.Wf.commits he (StepG.Wf.tapSwitches he (StepG.Wf.foldl (fun _ _ hm => StepG.Wf.endRamp he hm _ _) h) n) n _ ns))

theorem StepG.Wf.strict (q : Nat × Int × Nat) : (m.strict e q).Wf := StepG.Wf.tidy e (StepG.Wf.setNode he h _ _) _

end

theorem StepG.Wf.regroup {m : StepG} (h : m.Wf) (n : Nat) (four : Bool) : (m.regroup n four).Wf :=
  StepG.Wf.foldl (fun _ _ hm => StepG.Wf.setGroup hm _ _) h

theorem State.wf_mereSample (s : State) {e : StepEnv} (he : e.zero = Node.reset) (k : Nat) {m : StepG} (h : m.Wf) : (s.mereSample e k m).1.Wf := by
  refine StepG.Wf.sample he (StepG.Wf.foldl (fun _ _ hm => StepG.Wf.strict he hm _) (StepG.Wf.foldl (fun _ _ hm => StepG.Wf.regroup hm _ _) ?_)) _ _
  split
  · exact ⟨rfl, rfl⟩
  · exact h

/-! ### Setting a memory -/

theorem State.memWf_iff (s : State) : s.memWf = true ↔ (s.scene.mstore.wf = true ∧ s.vcp.mbx.wf = true ∧ s.fab.pool.wf = true ∧
    s.fab.staging.wf = true ∧ s.fab.dram.wf = true ∧ s.fw.slotA.data.wf = true ∧ s.fw.slotB.data.wf = true) ∧ s.mere.step.Wf := by
  simp [State.memWf, State.memories, State.nodesWf, StepG.Wf, and_assoc]

section
variable {s : State} (h : s.memWf = true)
include h

theorem State.wf_mstore : s.scene.mstore.wf = true := (s.memWf_iff.1 h).1.1

theorem State.wf_mbx : s.vcp.mbx.wf = true := (s.memWf_iff.1 h).1.2.1

theorem State.wf_fab : s.fab.pool.wf = true ∧ s.fab.staging.wf = true ∧ s.fab.dram.wf = true := by
  obtain ⟨⟨-, -, hp, hs, hd, -, -⟩, -⟩ := s.memWf_iff.1 h
  exact ⟨hp, hs, hd⟩

theorem State.wf_slots : s.fw.slotA.data.wf = true ∧ s.fw.slotB.data.wf = true := (s.memWf_iff.1 h).1.2.2.2.2.2

theorem State.wf_step : s.mere.step.Wf := (s.memWf_iff.1 h).2

theorem State.setScene_keeps (f : SceG → SceG) (hf : (f s.scene).mstore.wf = true) : (s.setScene f).memWf = true := by
  obtain ⟨⟨-, hr⟩, hn⟩ := s.memWf_iff.1 h
  exact (State.memWf_iff _).2 ⟨⟨hf, hr⟩, hn⟩

theorem State.setVcp_keeps (f : VcpG → VcpG) (hf : (f s.vcp).mbx.wf = true) : (s.setVcp f).memWf = true := by
  obtain ⟨⟨hm, -, hr⟩, hn⟩ := s.memWf_iff.1 h
  exact (State.memWf_iff _).2 ⟨⟨hm, hf, hr⟩, hn⟩

theorem State.setFab_keeps (f : FabG → FabG) (hf : (f s.fab).pool.wf = true ∧ (f s.fab).staging.wf = true ∧ (f s.fab).dram.wf = true) :
    (s.setFab f).memWf = true := by
  obtain ⟨⟨hm, hx, -, -, -, hr⟩, hn⟩ := s.memWf_iff.1 h
  obtain ⟨hp, hs, hd⟩ := hf
  exact (State.memWf_iff _).2 ⟨⟨hm, hx, hp, hs, hd, hr⟩, hn⟩

theorem State.setMere_keeps (f : MereG → MereG) (hf : (f s.mere).step.Wf) : (s.setMere f).memWf = true :=
  (State.memWf_iff _).2 ⟨(s.memWf_iff.1 h).1, hf⟩

theorem State.foldl_keeps {α : Type} {l : List α} {f : State → α → State} (hf : ∀ t a, t.memWf = true → (f t a).memWf = true) :
    (l.foldl f s).memWf = true :=
  List.foldlRecOn l f (motive := fun t => t.memWf = true) h fun t ht a _ => hf t a ht

end

/-! ### Memories and node memories written -/

theorem Cells.rising_filterMap {α β : Type} (f : Nat × α → Option (Nat × β)) (hf : ∀ c d, f c = some d → d.1 = c.1) (l : Cells α)
    (h : Cells.rising none l = true) : Cells.rising none (l.filterMap f) = true := by
  induction l with
  | nil => rfl
  | cons c l ih =>
    obtain ⟨hlt, hl⟩ := (Cells.rising_some_iff l c.1).1 h
    rw [List.filterMap_cons]
    split
    · exact ih hl
    next d hd =>
      refine (Cells.rising_some_iff _ d.1).2 ⟨fun x hx => ?_, ih hl⟩
      obtain ⟨y, hy, hyx⟩ := List.mem_filterMap.1 hx
      rw [hf c d hd, hf y x hyx]
      exact hlt y hy

theorem Cells.rising_mapVal {α : Type} (f : α → α) (l : Cells α) (h : Cells.rising none l = true) :
    Cells.rising none (Cells.mapVal f l) = true := by
  have e : Cells.mapVal f l = l.filterMap (fun c => some (c.1, f c.2)) := (congrFun List.filterMap_eq_map l).symm
  rw [e]
  exact Cells.rising_filterMap _ (fun c d hd => by cases hd; rfl) l h

theorem MereG.clearPlane_wf {m : MereG} (h : m.step.Wf) : m.clearPlane.step.Wf := by
  obtain ⟨hn, hg⟩ := h
  refine ⟨?_, hg⟩
  simp only [Cells.wf, Bool.and_eq_true] at hn ⊢
  constructor
  · refine Cells.rising_filterMap _ (fun c d hd => ?_) _ hn.1
    dsimp only at hd
    split_ifs at hd
    cases hd
    rfl
  · refine List.all_eq_true.2 fun x hx => decide_eq_true ?_
    obtain ⟨y, -, hyx⟩ := List.mem_filterMap.1 hx
    dsimp only at hyx
    split_ifs at hyx with hne
    cases hyx
    exact hne

theorem MereG.shift_wf (d blk : Int) {m : MereG} (h : m.step.Wf) : (m.shift d blk).step.Wf := by
  obtain ⟨hn, hg⟩ := h
  refine ⟨hn, ?_⟩
  simp only [Cells.wf, Bool.and_eq_true] at hg ⊢
  refine ⟨Cells.rising_mapVal (fun g : Group => { tp := g.tp.map (sh d), ramp := g.ramp.map (sh1 d) }) _ hg.1,
    List.all_eq_true.2 fun x hx => decide_eq_true fun he => ?_⟩
  obtain ⟨c, hc, rfl⟩ := List.mem_map.1 hx
  refine of_decide_eq_true (List.all_eq_true.1 hg.2 c hc) ?_
  obtain ⟨k, tp, ramp⟩ := c
  simpa [Group.idle] using he

theorem Cells.wf_foldl {α β : Type} [DecidableEq α] {d : α} {l : List β} {f : Cells α → β → Cells α}
    (hf : ∀ c b, Cells.wf d c = true → Cells.wf d (f c b) = true) {c : Cells α} (h : Cells.wf d c = true) : Cells.wf d (l.foldl f c) = true :=
  List.foldlRecOn l f (motive := fun c => Cells.wf d c = true) h fun c hc b _ => hf c b hc

theorem dirWrite_wf {m : Memory} (h : m.wf = true) (id : Nat) (e : DirEnt) : (dirWrite m id e).wf = true := by
  have hc : (m.clear (dirBase (dirTarget m)) 0x20000).wf = true := Memory.wf_clear m _ _ h
  rw [dirWrite]
  exact Memory.wf_writeAll _ _ _ (Memory.wf_writeAll _ _ _ (Memory.wf_writeAll _ _ _ hc))

theorem recordWrite_wf {m m' : Memory} {r : List Nat} {p : Nat} (h : m.wf = true) (e : recordWrite m r = some (m', p)) : m'.wf = true := by
  unfold recordWrite at e
  dsimp only at e
  split_ifs at e
  obtain ⟨rfl, -⟩ := Prod.mk.inj (Option.some.inj e)
  exact Memory.wf_writeAll _ _ _ (Cells.wf_foldl (fun _ _ hm => Memory.wf_writeAll _ _ _ hm) h)

/-! ### Functions that write no memory, whose callers do -/

@[simp] theorem State.fwSwitchBegin_memWf (s : State) (slot : Nat) (defer : Bool) : (s.fwSwitchBegin slot defer).memWf = s.memWf := by
  simp [State.fwSwitchBegin]

@[simp] theorem State.overlay_memWf (s : State) (b : Body) : (s.overlay b).memWf = s.memWf := by
  simp [State.overlay]

@[simp] theorem State.mereRetire_memWf (s : State) : s.mereRetire.memWf = s.memWf := by
  unfold State.mereRetire
  refine State.foldl_memWf _ _ (fun t lane => ?_) _
  dsimp only
  split
  · rfl
  · split <;> simp

@[simp] theorem State.maintBegin_memWf (s : State) : s.maintBegin.memWf = s.memWf := by
  unfold State.maintBegin
  (repeat' split) <;> simp

@[simp] theorem State.autoRejoin_memWf (s : State) (hb : Heartbeat) : (s.autoRejoin hb).memWf = s.memWf := by
  unfold State.autoRejoin
  split_ifs <;> simp

@[simp] theorem SceG.foldl_changedAt_mstore (l : List Nat) (g : SceG) : (l.foldl (fun g c => g.changedAt c 0) g).mstore = g.mstore := by
  induction l generalizing g with
  | nil => rfl
  | cons c l ih => rw [List.foldl_cons, ih, SceG.changedAt]

theorem FabG.lockAfter_memories (g : FabG) (target cycle : Nat) (t : Txn) : (g.lockAfter target cycle t).pool = g.pool ∧
    (g.lockAfter target cycle t).staging = g.staging ∧ (g.lockAfter target cycle t).dram = g.dram := by
  unfold FabG.lockAfter
  split_ifs <;> exact ⟨rfl, rfl, rfl⟩

/-! ### Functions that write a memory -/

section
variable {s : State} (h : s.memWf = true)
include h

theorem State.setStore_keeps {m : Memory} (hm : m.wf = true) : (s.setStore m).memWf = true := State.setScene_keeps h (fun g => { g with mstore := m }) hm

theorem State.mereTick_keeps (b : Nat) : (s.mereTick b).memWf = true := by
  unfold State.mereTick
  rw [State.foldl_memWf _ _ (fun t d => by simp), State.foldl_memWf _ _ (fun t q => by simp)]
  refine (State.memWf_iff _).2 ⟨(s.memWf_iff.1 h).1, ?_⟩
  refine StepG.Wf.foldl_fst (fun p j hp => ?_) (State.wf_step h)
  exact State.wf_mereSample s rfl _ hp

theorem State.memAt_wf {target base : Nat} {m : Memory} (e : s.memAt target = some (base, m)) : m.wf = true := by
  obtain ⟨hp, hs, hd⟩ := State.wf_fab h
  unfold State.memAt at e
  split_ifs at e
  · exact (Prod.mk.inj (Option.some.inj e)).2 ▸ State.wf_mbx h
  · exact (Prod.mk.inj (Option.some.inj e)).2 ▸ hp
  · exact (Prod.mk.inj (Option.some.inj e)).2 ▸ hs
  · exact (Prod.mk.inj (Option.some.inj e)).2 ▸ hd

theorem State.setMemAt_keeps (target : Nat) {m : Memory} (hm : m.wf = true) : (s.setMemAt target m).memWf = true := by
  obtain ⟨hp, hs, hd⟩ := State.wf_fab h
  unfold State.setMemAt
  split_ifs
  · exact State.setVcp_keeps h (fun v => { v with mbx := m }) hm
  · exact State.setFab_keeps h _ ⟨hm, hs, hd⟩
  · exact State.setFab_keeps h _ ⟨hp, hm, hd⟩
  · exact State.setFab_keeps h _ ⟨hp, hs, hm⟩
  · exact h

theorem State.cutBurst_keeps (target : Nat) (b : Burst) : (s.cutBurst target b).memWf = true := by
  unfold State.cutBurst
  dsimp only
  split
  · exact h
  · split
    · split
      next e => exact State.setMemAt_keeps h _ (wf_writeBurst _ _ _ _ (State.memAt_wf h e))
      · exact h
    · simp [h]

theorem State.drain_keeps (m : Nat) : (s.drain m).memWf = true := by
  unfold State.drain
  refine State.foldl_keeps (by simp [h]) (fun t c ht => ?_)
  split
  · exact State.cutBurst_keeps ht _ _
  · exact ht

theorem State.restartMere_keeps : s.restartMere.memWf = true := by
  unfold State.restartMere
  rw [State.outside_memWf, State.setAudio_memWf]
  exact State.setMere_keeps h _ ⟨Cells.wf_foldl (fun _ _ hc => Cells.wf_put _ _ _ _ hc) rfl, rfl⟩

theorem State.resetGroup_keeps (g : ResetName) : (s.resetGroup g).memWf = true := by
  unfold State.resetGroup
  refine State.foldl_keeps ?_ (fun t c ht => by simp [ht])
  split
  · split
    · simp [State.drain_keeps h]
    · exact h
  · exact State.restartMere_keeps (State.drain_keeps h 17)
  · simp [State.drain_keeps h]
  · simp [State.drain_keeps h]
  · exact h
  · exact h

theorem State.clearDomain_keeps (d : Nat) : (s.clearDomain d).memWf = true := by
  obtain ⟨hp, hs, -⟩ := State.wf_fab h
  unfold State.clearDomain
  split
  · exact State.setFab_keeps h _ ⟨hp, hs, rfl⟩
  all_goals simp [h]

theorem State.drainDomain_keeps (d : Nat) : (s.drainDomain d).memWf = true := by
  unfold State.drainDomain
  split_ifs
  · exact State.drain_keeps h 21
  · exact State.drain_keeps h 23
  · exact h

theorem State.clearPlane_keeps : (s.setMere MereG.clearPlane).memWf = true := State.setMere_keeps h _ (MereG.clearPlane_wf (State.wf_step h))

theorem State.rebuild_keeps : s.rebuild.memWf = true := by
  unfold State.rebuild
  rw [State.mk_memWf]
  exact State.setMere_keeps (by simp [h]) _ ⟨rfl, rfl⟩

theorem State.cancelAll_keeps (c set : Nat) : (s.cancelAll c set).memWf = true := by
  unfold State.cancelAll
  extract_lets cut gone armed s0 s1 s2 s3 s4
  have h0 : s0.memWf = true := by
    simp only [s0]
    split_ifs
    · exact State.clearPlane_keeps h
    · exact h
  clear_value s0
  simp [s4, s3, s2, s1, h0]

theorem Cmt.toProfile_keeps (k : Cmt) (set : Nat) : (k.toProfile s set).memWf = true := by
  unfold Cmt.toProfile
  extract_lets prof s1
  have h1 : s1.memWf = true := by
    simp only [s1, State.muteAll_memWf]
    split_ifs
    · simp [State.rebuild_keeps h]
    · simp [h]
  clear_value s1
  split
  · exact h
  · simp [State.cancelAll_keeps h1]

theorem State.freePlane_keeps (set : Nat) : (s.freePlane set).memWf = true := by
  unfold State.freePlane
  split_ifs
  · exact State.clearPlane_keeps (by simp [h])
  · exact h

theorem State.closeSet_keeps (set c : Nat) (parts : List Nat) : (s.closeSet set c parts).memWf = true := by
  unfold State.closeSet
  rw [State.setScene_memWf _ _ rfl, State.setTwin_memWf]
  exact State.freePlane_keeps h set

theorem State.takeSet_keeps (added : List Added) (cf dx c set : Nat) : (s.takeSet added cf dx c set).memWf = true := by
  unfold State.takeSet
  extract_lets b k w s1 s2 s4
  have h2 : s2.memWf = true := by simp [s2, s1, w, h]
  clear_value s2
  have h4 : s4.memWf = true := by
    simp only [s4, State.srcRefresh_memWf]
    exact Cmt.toProfile_keeps (by simp [h2]) k set
  clear_value s4
  exact State.closeSet_keeps (by simp [h4]) _ _ _

theorem State.commitSet_keeps (added : List Added) (cf dx c set : Nat) : (s.commitSet added cf dx c set).memWf = true := by
  simp [State.commitSet, State.takeSet_keeps h]

theorem State.stagePlane_keeps (l : List Added) : (s.stagePlane l).memWf = true := by
  have hc := State.clearPlane_keeps h
  obtain ⟨hw, hg⟩ := State.wf_step hc
  exact State.setMere_keeps hc _ ⟨Cells.wf_foldl (fun _ _ hm => Cells.wf_upd _ _ _ _ hm) hw, hg⟩

theorem State.writePlane_keeps (id : Nat) : (s.writePlane id).memWf = true := by
  unfold State.writePlane
  split
  · exact h
  · exact State.stagePlane_keeps h _

theorem State.givePlane_keeps (id : Nat) : (s.givePlane id).memWf = true := State.writePlane_keeps (by simp [h]) id

theorem State.loadCue_keeps : s.loadCue.memWf = true := by
  unfold State.loadCue
  split
  · exact h
  · split
    · exact h
    · exact State.givePlane_keeps h _
    · exact State.stagePlane_keeps (by simp [h]) _

theorem State.seekPlane_keeps (id : Nat) : (s.seekPlane id).memWf = true := by
  unfold State.seekPlane
  split
  · exact h
  · split_ifs
    · exact State.writePlane_keeps h id
    · exact h
    · exact State.givePlane_keeps h id
    · simp [h]

theorem State.addTo_keeps (x : StageSet) (l : List Added) : (s.addTo x l).1.memWf = true := by
  unfold State.addTo
  dsimp only
  split_ifs
  · exact h
  · exact h
  · exact State.seekPlane_keeps (by simp [h]) _
  · simp [h]

theorem State.stageForm_keeps (r : Req) (cmd id : Nat) (forms : List Nat) (n : Nodes) : (s.stageForm r cmd id forms n).memWf = true := by
  refine State.serveAudio_keeps s r cmd _ (fun q t ht => State.withSet_keeps q id _ ht fun x => ?_) h
  split_ifs
  · exact ht
  · exact ht
  · exact State.addTo_keeps ht _ _

theorem State.releasePlane_keeps (x : StageSet) : (s.releasePlane x).memWf = true := by
  unfold State.releasePlane
  split_ifs
  · simp [State.freePlane_keeps h]
  · exact h

theorem State.cancelSet_keeps (x : StageSet) : (s.cancelSet x).memWf = true := by
  unfold State.cancelSet
  rw [State.setScene_memWf _ _ rfl]
  exact State.releasePlane_keeps (by simp [h]) x

theorem State.discardSet_keeps (x : StageSet) : (s.discardSet x).memWf = true := by
  have hf : ∀ t : State, t.memWf = true → ((t.dropReply x).freePlane x.id).memWf = true := fun t ht => State.freePlane_keeps (by simp [ht]) x.id
  unfold State.discardSet
  dsimp only
  split
  · simp [hf, h]
  · simp [hf, h]

theorem State.armList_keeps (sid list : Nat) : (s.armList sid list).1.memWf = true := by
  unfold State.armList
  dsimp only
  split
  · exact h
  · refine State.loadCue_keeps ?_
    simp [h]

theorem State.disarm_keeps (list : Nat) : (s.disarm list).memWf = true := by
  unfold State.disarm
  rw [State.flushUnits_memWf]
  refine State.loadCue_keeps (State.freePlane_keeps ?_ _)
  simp [h]

theorem State.endSession_keeps (sid : Nat) : (s.endSession sid).memWf = true := by
  unfold State.endSession
  have hd : ∀ l : List StageSet, (l.foldl State.discardSet s).memWf = true := fun l => State.foldl_keeps h (fun t x ht => State.discardSet_keeps ht x)
  simp [hd]

theorem State.ringEvents_keeps (x : Session) (c : Nat) : (s.ringEvents x c).memWf = true := by
  unfold State.ringEvents
  extract_lets l w m s1
  have hm : m.wf = true := Cells.wf_foldl (fun _ _ hm => Memory.wf_writeAll _ _ _ hm) (State.wf_mbx h)
  clear_value m
  simp [s1, State.setVcp_keeps h (fun v => { v with mbx := m }) hm]

theorem State.legCommit_keeps (x : LegSet) : (s.legCommit x).memWf = true := by
  have hc : ∀ t : State, t.memWf = true → (t.closeSet 0 x.c [15]).memWf = true := fun t ht => State.closeSet_keeps ht _ _ _
  unfold State.legCommit
  dsimp only
  split
  · exact State.commitSet_keeps (by simp [h]) _ _ _ _ _
  · simp [hc, h]

theorem State.setSlot_keeps (n : Nat) {f : FlashSlot} (hf : f.data.wf = true) : (s.setSlot n f).memWf = true := by
  obtain ⟨⟨hm, hx, hp, hs, hd, ha, hb⟩, hn⟩ := s.memWf_iff.1 h
  unfold State.setSlot
  refine (State.memWf_iff _).2 ⟨⟨hm, hx, hp, hs, hd, ?_, ?_⟩, hn⟩ <;> dsimp only <;> split_ifs
  · exact hf
  · exact ha
  · exact hb
  · exact hf

theorem State.slot_wf (n : Nat) : (s.fw.slot n).data.wf = true := by
  obtain ⟨ha, hb⟩ := State.wf_slots h
  unfold FwG.slot
  split_ifs
  · exact ha
  · exact hb

theorem State.poolTransfer_keeps (bank : Nat) (t : Txn) : (s.poolTransfer bank t).memWf = true := by
  unfold State.poolTransfer
  dsimp only
  split
  · exact h
  next base mem e =>
    split
    · split
      · simp [h]
      · have hm := State.setMemAt_keeps h bank (wf_writeBurst mem (t.line - base) t.packed.beats t.packed.enables (State.memAt_wf h e))
        rw [State.answer_memWf, State.foldl_memWf _ _ (fun u l => by cases partnerLine l <;> simp)]
        exact hm
    · rw [State.answer_memWf, State.foldl_fst_memWf _ _ (fun a l => by simp)]
      cases partnerLine (t.line / 32) <;> simp [h]

theorem State.dramTransfer_keeps (t : Txn) : (s.dramTransfer t).memWf = true := by
  unfold State.dramTransfer
  extract_lets a retries s0 s1 d
  have h1 : s1.memWf = true := by simp [s1, s0, h]
  clear_value s1
  obtain ⟨hp, hs, hd⟩ := State.wf_fab h1
  split
  · rw [State.answer_memWf]
    exact State.setFab_keeps h1 _ ⟨hp, hs, wf_writeBurst _ _ _ _ hd⟩
  · split_ifs <;> simp [h1]

theorem State.transfer_keeps (target : Nat) (t : Txn) : (s.transfer target t).memWf = true := by
  obtain ⟨hp, hs, hd⟩ := State.wf_fab h
  unfold State.transfer
  split
  · exact State.poolTransfer_keeps h target t
  · split
    · split
      · rw [State.answer_memWf]
        exact State.setFab_keeps h _ ⟨hp, wf_writeBurst _ _ _ _ hs, hd⟩
      · simp [h]
    · split
      · exact State.dramTransfer_keeps h t
      · split <;> simp [h]

theorem State.perform_keeps (target cycle : Nat) (t : Txn) : (s.perform target cycle t).memWf = true := by
  unfold State.perform
  rw [State.setFab_memWf _ _ (FabG.lockAfter_memories _ target cycle t)]
  exact State.transfer_keeps h target t

theorem atTick_keeps (k d : Nat) {f : State → State} (hf : s.memWf = true → (f s).memWf = true) : (atTick k d f s).memWf = true := by
  unfold atTick
  split_ifs
  · exact hf h
  · exact h

theorem State.pathTick_keeps (fill : Nat → State → State) (hf : ∀ b t, (fill b t).memWf = t.memWf) (k : Nat) : (s.pathTick fill k).memWf = true := by
  unfold State.pathTick
  extract_lets B b s1 s2 s3 s4 s5 s6 s7
  have h2 : s2.memWf = true := atTick_keeps (by simp [s1, h]) k 5 (fun ht => by simp [ht])
  have h3 : s3.memWf = true := atTick_keeps h2 k 3 (fun ht => by simp [ht])
  have h4 : s4.memWf = true := atTick_keeps h3 k 5 (fun ht => by simp [ht])
  have h5 : s5.memWf = true := atTick_keeps h4 k 2 (fun ht => by
    rw [State.sendDests_memWf]
    exact State.mereTick_keeps ht _)
  have h6 : s6.memWf = true := atTick_keeps h5 k 1 (fun ht => by simp [hf, ht])
  have h7 : s7.memWf = true := atTick_keeps h6 k 2 (fun ht => by simp [ht])
  rw [State.prune_memWf]
  exact h7

theorem State.moveNodes_keeps (n : Nat) {f : StepEnv → StepG → StepG} (hf : ∀ e m, e.zero = Node.reset → m.Wf → (f e m).Wf) :
    (s.moveNodes n f).memWf = true := by
  unfold State.moveNodes
  split_ifs
  · exact State.setMere_keeps h _ (hf _ _ rfl (State.wf_step h))
  · exact h

theorem State.resetAll_keeps (wake : Bool) : (s.resetAll wake).memWf = true := by
  have hm := State.wf_mstore h
  have hf := State.wf_slots h
  exact (State.memWf_iff _).2 ⟨⟨hm, rfl, rfl, rfl, rfl, hf⟩, rfl, rfl⟩

theorem State.returnErase_keeps : s.returnErase.memWf = true := by
  unfold State.returnErase
  split_ifs
  · exact State.setStore_keeps h (Memory.wf_clear _ _ _ (State.wf_mstore h))
  · exact h

theorem State.applyImage_keeps (i : Image) (secs : List (List Nat)) (slot : Option Nat) : (s.applyImage i secs slot).memWf = true := by
  unfold State.applyImage
  exact State.returnErase_keeps (by simp [h])

theorem State.fedImage_keeps (bytes : List Nat) : (s.fedImage bytes).memWf = true := by
  unfold State.fedImage
  dsimp only
  split_ifs
  · simp [h]
  · exact State.applyImage_keeps h _ _ _

theorem State.armImageCues_keeps : s.armImageCues.memWf = true := by
  unfold State.armImageCues
  refine State.foldl_keeps h (fun t q ht => ?_)
  split_ifs
  · exact ht
  · exact State.armList_keeps (by simp [ht]) _ _

theorem State.runNow_keeps : s.runNow.memWf = true := by
  unfold State.runNow
  exact State.armImageCues_keeps (by simp [h])

theorem State.shiftAll_keeps (d : Int) : (s.shiftAll d).memWf = true := by
  obtain ⟨⟨hm, hx, hr⟩, hn⟩ := s.memWf_iff.1 h
  exact (State.memWf_iff _).2 ⟨⟨hm, hx, hr⟩, MereG.shift_wf d _ hn⟩

theorem State.takeConfig_keeps (entries : List Entry) (nodes : List (Nat × Int × Nat)) (gen : Nat) : (s.takeConfig entries nodes gen).memWf = true := by
  simp [State.takeConfig, State.takeSet_keeps h]

theorem State.takeStage_keeps (id : Nat) (attrs : Attrs) (added : List Added) : (s.takeStage id attrs added).memWf = true := 
  State.seekPlane_keeps (by simp [h]) id

theorem State.takeFwd_keeps (f : Fwd) : (s.takeFwd f).memWf = true := by
  unfold State.takeFwd
  cases f <;> dsimp only
  case stage => exact State.takeStage_keeps h _ _ _
  case cancel =>
    split
    · split_ifs
      · exact State.cancelSet_keeps h _
      · exact h
    · exact h
  case mstore => exact State.setStore_keeps h (Memory.wf_writeAll _ _ _ (State.wf_mstore h))
  case cueArm => exact State.armList_keeps h _ _
  case cueDisarm =>
    split_ifs
    · exact State.disarm_keeps h _
    · exact h
  case config => exact State.takeConfig_keeps h _ _ _
  all_goals simp [h]

theorem State.forwardDue_keeps : s.forwardDue.memWf = true := by
  unfold State.forwardDue
  dsimp only
  split
  · exact h
  · exact State.foldl_keeps (by simp [h]) (fun t q ht => State.takeFwd_keeps ht _)

theorem State.takeMcc_keeps (peer : Nat) : (s.takeMcc peer).memWf = true := by
  simp [State.takeMcc, State.shiftAll_keeps h]

theorem State.tickFirst_keeps : s.tickFirst.memWf = true := by
  simp [State.tickFirst, State.forwardDue_keeps h]

theorem passSample_keeps : (passSample s).memWf = true := by
  unfold passSample
  rw [State.bootReady_memWf, State.hspGone_memWf]
  exact State.forwardDue_keeps (by simp [h])

end

end Sys2Proof.Machine
end

section
/-! PROOFS. The commands that write a memory, and every step; O59. -/
namespace Sys2Proof.Machine

theorem State.serveSet_keeps {s : State} (hs : s.memWf = true) (r : Req) (cmd id : Nat) (f : Session → State → StageSet → State × Option Ans)
    (hf : ∀ q t x, t.memWf = true → (f q t x).1.memWf = true) : (s.serveAudio r cmd (fun q t => t.withSet q id (f q t))).memWf = true :=
  s.serveAudio_keeps r cmd _ (fun q t ht => State.withSet_keeps q id _ ht (fun x => hf q t x ht)) hs

section
variable {s : State} (hs : s.memWf = true)
include hs

theorem execCkuCalDone_safe (value : Option Int) : Safe (execCkuCalDone value s) := by
  have hm := State.setStore_keeps hs (Memory.wf_writeAll s.scene.mstore loCalAddr (Fmt.toBE 4 (Fmt.wrapU 32 (value.getD 0))) (State.wf_mstore hs))
  unfold execCkuCalDone
  split
  · simp [hs]
  · simp [hs]
  next v =>
    rw [State.setStore, Option.getD_some] at hm
    simp [hm]

theorem execMasterResetDrain_safe (m : Nat) : Safe (execMasterResetDrain m s) :=
  (safe_next _).2 (State.drain_keeps hs m)

theorem execMereSegmentDetection_safe (lane : Nat) (fits : Bool) : Safe (execMereSegmentDetection lane fits s) := by
  simp [execMereSegmentDetection, hs]

theorem execNodeRestored_safe (d src field : Nat) : Safe (execNodeRestored d src field s) := by
  unfold execNodeRestored
  split
  · dsimp only
    rw [safe_next, State.raise_memWf]
    refine State.setMere_keeps hs _ (StepG.Wf.tidy _ ?_ _)
    have hn := StepG.Wf.setNode (e := s.stepEnv [] s.mere.sig [] s.mereStamp s.mereStamp) rfl (State.wf_step hs)
    split
    · exact StepG.Wf.setGroup (hn _ _) _ _
    · exact hn _ _
  · exact (safe_next s).2 hs

theorem execResetGroupRequest_safe (g : ResetName) : Safe (execResetGroupRequest g s) := by
  unfold execResetGroupRequest
  split
  · exact (safe_next s).2 hs
  · exact (safe_next _).2 (State.resetGroup_keeps hs g)

theorem execCrossingClockStopped_safe (x : Nat) (far : ResetName) : Safe (execCrossingClockStopped x far s) := by
  unfold execCrossingClockStopped
  split
  · exact (safe_next s).2 hs
  · extract_lets s1
    have h1 : s1.memWf = true := by simp [s1, hs]
    clear_value s1
    split
    · exact (safe_next s1).2 h1
    · rw [safe_next]
      split_ifs
      · exact State.resetGroup_keeps h1 far
      · exact h1

theorem execMaintRequest_safe (r : Req) (code target : Nat) (noWait : Bool) : Safe (execMaintRequest r code target noWait s) := by
  refine State.serve_safe hs (fun x t => ?_)
  dsimp only
  split_ifs <;> simp

theorem execMaintGrant_safe : Safe (execMaintGrant s) := by
  unfold execMaintGrant
  split <;> simp [hs]

theorem execPdSwitchDone_safe (d : Nat) : Safe (execPdSwitchDone d s) := by
  unfold execPdSwitchDone
  split
  · exact (safe_next s).2 hs
  next on _ =>
    rw [safe_next, State.raise_memWf]
    split
    · simp [hs]
    · rw [State.netDown_memWf]
      exact State.clearDomain_keeps (State.drainDomain_keeps (by simp [hs]) d) d

theorem execMbxReply_safe (c : Nat) : Safe (execMbxReply c s) := by
  unfold execMbxReply
  split
  · rw [safe_next, State.raise_memWf]
    have h1 : (s.updChannel c (fun x => { x with busy := false, ready := true })).memWf = true := by simp [hs]
    refine State.setVcp_keeps (by simp [hs]) _ (Memory.wf_writeAll _ _ _ ?_)
    exact State.wf_mbx h1
  · exact (safe_next s).2 hs

theorem execSpiMailboxWrite_safe (addr : Nat) (bytes : List Nat) : Safe (execSpiMailboxWrite addr bytes s) := by
  unfold execSpiMailboxWrite
  rw [safe_next]
  split
  · exact hs
  · split
    · simp [hs]
    · refine State.foldl_keeps hs (fun t q ht => ?_)
      dsimp only
      split
      · exact State.setVcp_keeps ht _ (Memory.wf_write _ _ _ (State.wf_mbx ht))
      · exact ht

theorem execPlaneReady_safe : Safe (execPlaneReady s) := by
  unfold execPlaneReady
  split
  · exact (safe_next _).2 (State.loadCue_keeps hs)
  · split
    · rw [safe_next, State.raise_memWf]
      exact State.givePlane_keeps hs _
    · exact (safe_next s).2 hs

theorem execStageAdd_safe (r : Req) (id : Nat) (entries : List Entry) : Safe (execStageAdd r id entries s) :=
  s.ifAsked_safe r _ hs (State.serveSet_keeps hs r _ id _ fun _ _ _ ht => State.addTo_keeps ht _ _)

theorem execStageRow_safe (r : Req) (id : Nat) (n : Nodes) : Safe (execStageRow r id n s) :=
  s.ifAsked_safe r _ hs (State.stageForm_keeps hs r _ id _ n)

theorem execStageColumn_safe (r : Req) (id : Nat) (n : Nodes) : Safe (execStageColumn r id n s) :=
  s.ifAsked_safe r _ hs (State.stageForm_keeps hs r _ id _ n)

theorem execStageRect_safe (r : Req) (id : Nat) (n : Nodes) : Safe (execStageRect r id n s) :=
  s.ifAsked_safe r _ hs (State.stageForm_keeps hs r _ id _ n)

theorem execStageFill_safe (r : Req) (id : Nat) (n : Nodes) : Safe (execStageFill r id n s) :=
  s.ifAsked_safe r _ hs (State.stageForm_keeps hs r _ id _ n)

theorem execStageRemove_safe (r : Req) (id : Nat) (handles : List Nat) : Safe (execStageRemove r id handles s) := by
  refine (safe_next _).2 (State.serveSet_keeps hs r _ id _ fun q t x ht => ?_)
  split
  · exact ht
  · dsimp only
    split
    · exact State.writePlane_keeps (by simp [ht]) id
    · simp [ht]

theorem execPan_safe (r : Req) (id src left right law : Nat) (pos level : Int) :
    Safe (execPan r id src left right law pos level s) := by
  refine (safe_next _).2 (State.serveSet_keeps hs r _ id _ fun q t x ht => ?_)
  split
  · exact ht
  · split
    · exact ht
    · exact State.addTo_keeps ht _ _

theorem execStageCancel_safe (r : Req) (id : Nat) : Safe (execStageCancel r id s) := by
  refine s.ifAsked_safe r _ hs (State.serveSet_keeps hs r _ id _ fun q t x ht => ?_)
  split
  · split
    · exact State.cancelSet_keeps ht x
    · exact ht
  · exact ht

theorem execStageDiscard_safe (r : Req) (id : Nat) : Safe (execStageDiscard r id s) := by
  refine s.ifAsked_safe r _ hs (State.serveSet_keeps hs r _ id _ fun q t x ht => ?_)
  split
  · exact State.discardSet_keeps ht x
  · exact ht

theorem execSceneSaveDone_safe : Safe (execSceneSaveDone s) := by
  unfold execSceneSaveDone
  split
  · exact (safe_next s).2 hs
  · dsimp only
    split
    · simp [hs]
    next m page e =>
      rw [safe_next, State.raise_memWf, State.reply_memWf]
      exact State.setStore_keeps (by simp [hs]) (dirWrite_wf (recordWrite_wf (State.wf_mstore hs) e) _ _)

theorem execSceneDelete_safe (r : Req) (scene : Nat) : Safe (execSceneDelete r scene s) := by
  refine (safe_next _).2 (State.serveAudio_keeps s r _ _ (fun q t ht => ?_) hs)
  dsimp only
  split
  · exact ht
  · split
    · exact ht
    · exact State.setStore_keeps ht (dirWrite_wf (State.wf_mstore ht) _ _)

theorem execSceneReadDone_safe (id : Nat) : Safe (execSceneReadDone id s) := by
  unfold execSceneReadDone
  split
  · exact (safe_next s).2 hs
  · split
    · exact (safe_next s).2 hs
    · dsimp only
      split
      · simp [hs]
      · simp [hs]
      · split
        · simp [hs]
        · rw [safe_next, State.reply_memWf]
          exact State.seekPlane_keeps (by simp [hs]) id

theorem execCueArm_safe (r : Req) (list : Nat) : Safe (execCueArm r list s) := by
  refine (safe_next _).2 (State.serveAudio_keeps s r _ _ (fun q t ht => ?_) hs)
  split
  · exact ht
  · split
    · exact ht
    · exact State.armList_keeps ht q.sid list

theorem execCueDisarm_safe (r : Req) (list : Nat) : Safe (execCueDisarm r list s) := by
  refine (safe_next _).2 (State.serveAudio_keeps s r _ _ (fun q t ht => ?_) hs)
  dsimp only
  split
  · exact ht
  · split
    · exact ht
    · exact State.disarm_keeps ht list

theorem execCueFired_safe (list : Nat) : Safe (execCueFired list s) := by
  unfold execCueFired
  dsimp only
  split
  · split
    · exact (safe_next s).2 hs
    · rw [safe_next]
      split
      · split
        · exact State.loadCue_keeps (State.freePlane_keeps (State.commitSet_keeps (by simp [hs]) _ _ _ _ _) _)
        · exact State.commitSet_keeps (by simp [hs]) _ _ _ _ _
      · split
        · split
          · exact State.loadCue_keeps (State.commitSet_keeps (by simp [hs]) _ _ _ _ _)
          · simp [hs]
        · simp [hs]
  · exact (safe_next s).2 hs

theorem execSessionClose_safe (r : Req) : Safe (execSessionClose r s) :=
  (safe_next _).2 (State.serve_keeps s r _ _ _ (fun _ _ ht => State.endSession_keeps (by simp [ht]) _) hs)

theorem execKeepaliveExpiry_safe (sid : Nat) : Safe (execKeepaliveExpiry sid s) := by
  unfold execKeepaliveExpiry
  split
  · rw [safe_next]
    split
    · exact State.endSession_keeps hs sid
    · exact hs
  · exact (safe_next s).2 hs

theorem execPcieLinkReset_safe : Safe (execPcieLinkReset s) :=
  (safe_next _).2 (State.foldl_keeps (State.drain_keeps hs 22) (fun _ sid ht => State.endSession_keeps ht sid))

theorem execDeliveryIntervalEnd_safe (sid : Nat) : Safe (execDeliveryIntervalEnd sid s) := by
  unfold execDeliveryIntervalEnd
  split
  · exact (safe_next s).2 hs
  · split
    · exact (safe_next s).2 hs
    · dsimp only
      split
      · simp [hs]
      · rw [safe_next]
        split
        · exact State.ringEvents_keeps (by simp [hs]) _ _
        · simp [hs]

theorem execCommitApplied_safe (id : Nat) : Safe (execCommitApplied id s) := by
  unfold execCommitApplied
  split
  · exact (safe_next s).2 hs
  · split
    · rw [safe_next]
      split
      · exact State.legCommit_keeps hs _
      · exact hs
    · rw [safe_next]
      split
      · exact State.commitSet_keeps hs _ _ _ _ _
      · exact hs

theorem execStreamSdp_safe (r : Req) (sIx : Nat) (sdp : Option (List Nat)) : Safe (execStreamSdp r sIx sdp s) := by
  refine (safe_next _).2 (State.serve_keeps s r _ _ _ (fun q t ht => ?_) hs)
  split
  · exact ht
  · split
    · exact ht
    · split
      · exact ht
      · split
        · exact ht
        · exact State.addTo_keeps ht _ _

theorem execFwWrite_safe (r : Req) (slot offset : Nat) (bytes : List Nat) : Safe (execFwWrite r slot offset bytes s) := by
  refine (safe_next _).2 (State.serve_keeps s r _ _ _ (fun q t ht => ?_) hs)
  extract_lets f0 z f g s1 e
  have hf : f.data.wf = true := by
    simp only [f]
    split
    · exact State.slot_wf ht slot
    · rfl
  clear_value f
  have hg : g.data.wf = true := Memory.wf_writeAll _ _ _ hf
  have h1 : s1.memWf = true := State.setSlot_keeps ht slot hg
  split
  · exact ht
  · split
    · exact ht
    · split
      · exact ht
      · split
        · rw [State.raise_memWf]
          exact State.setSlot_keeps h1 slot hg
        · exact h1

theorem execFwSwitch_safe (r : Req) (slot : Nat) (noWait : Bool) : Safe (execFwSwitch r slot noWait s) := by
  refine State.serve_safe hs (fun x t => ?_)
  dsimp only
  split_ifs <;> simp

theorem execFabricGrant_safe (target cycle : Nat) (arrivals : List Txn) : Safe (execFabricGrant target cycle arrivals s) := by
  unfold execFabricGrant
  split
  · exact (safe_next s).2 hs
  · dsimp only
    split
    · simp [hs]
    · split
      · simp [hs, FabG.setLock]
      · exact (safe_next _).2 (State.perform_keeps (by simp [hs]) _ _ _)

theorem execNodeGroupZeroCrossing_safe (g n : Nat) : Safe (execNodeGroupZeroCrossing g n s) := by
  refine (safe_next _).2 (State.moveNodes_keeps hs n (fun e m he hm => ?_))
  split
  · exact StepG.Wf.crossing he hm g
  · exact hm

theorem execNodeGroupTimeout_safe (g n : Nat) : Safe (execNodeGroupTimeout g n s) :=
  (safe_next _).2 (State.moveNodes_keeps hs n (fun _ _ he hm => StepG.Wf.timeout he hm n [] g))

theorem execNodeRampEnd_safe (g n : Nat) : Safe (execNodeRampEnd g n s) :=
  (safe_next _).2 (State.moveNodes_keeps hs n (fun _ _ he hm => StepG.Wf.startQueued he (StepG.Wf.endRamp he hm n g) n g))

theorem execTapHandoverSwitch_safe (d src n : Nat) : Safe (execTapHandoverSwitch d src n s) :=
  (safe_next _).2 (State.moveNodes_keeps hs n (fun _ _ he hm => StepG.Wf.tapSwitch he hm n _))

theorem execPowerOnStandbySet_safe : Safe (execPowerOnStandbySet s) := by
  simp [execPowerOnStandbySet, State.resetAll_keeps hs, hs]

theorem execStandbySetLost_safe : Safe (execStandbySetLost s) := by
  simp [execStandbySetLost, State.resetAll_keeps hs]

theorem execMainRailOutOfRange_safe : Safe (execMainRailOutOfRange s) := by
  simp [execMainRailOutOfRange, State.resetAll_keeps hs, hs]

theorem execResetNLow_safe : Safe (execResetNLow s) := by
  simp [execResetNLow, State.resetAll_keeps hs, hs]

theorem execImageSectionsRead_safe (sections : List (List Nat)) : Safe (execImageSectionsRead sections s) := by
  unfold execImageSectionsRead
  split
  · dsimp only
    rw [safe_next]
    split
    · simp [hs]
    · exact State.applyImage_keeps hs _ _ _
  · exact (safe_next s).2 hs

theorem execPcieImageChunk_safe (bytes : List Nat) : Safe (execPcieImageChunk bytes s) := by
  unfold execPcieImageChunk
  dsimp only
  split
  · simp [hs]
  · split
    · rw [safe_next]
      split
      · simp [hs]
      · exact State.fedImage_keeps (by simp [hs]) _
    · simp [hs]

theorem execTwinImageReceived_safe (bytes : Option (List Nat)) : Safe (execTwinImageReceived bytes s) := by
  unfold execTwinImageReceived
  dsimp only
  split
  · simp [hs]
  · rw [safe_next]
    split
    · simp [hs]
    · exact State.fedImage_keeps (by simp [hs]) _

theorem execStartSceneCommit_safe : Safe (execStartSceneCommit s) := by
  have hg : ∀ (t : State) (id : Nat), t.memWf = true → (t.givePlane id).memWf = true := fun t id ht => State.givePlane_keeps ht id
  unfold execStartSceneCommit
  dsimp only
  split
  · simp [hs]
  · split
    · simp [hs]
    · split <;> simp [hs, hg]

theorem execEnterQuiet_safe : Safe (execEnterQuiet s) := by
  unfold execEnterQuiet
  split
  · exact (safe_next s).2 hs
  · rw [safe_next]
    split
    · exact State.runNow_keeps (by simp [hs])
    · simp [hs]

theorem execEnterRun_safe : Safe (execEnterRun s) := by
  simp [execEnterRun, State.runNow_keeps hs, hs]

theorem execRunTimeout_safe : Safe (execRunTimeout s) := by
  simp [execRunTimeout, State.runNow_keeps hs, hs]

theorem execEnterStandby_safe (bound : Bool) : Safe (execEnterStandby bound s) := by
  unfold execEnterStandby
  split
  · exact (safe_next s).2 hs
  · rw [safe_next, State.drivePins_memWf, State.netDown_memWf]
    obtain ⟨⟨hm, -, hr⟩, hn⟩ := (State.memWf_iff _).1 (State.resetAll_keeps hs true)
    exact (State.memWf_iff _).2 ⟨⟨hm, rfl, hr⟩, hn⟩

theorem execStbyNHighWake_safe (straps : Straps) : Safe (execStbyNHighWake straps s) := by
  have hr : (s.unfollow.resetAll true).memWf = true := State.resetAll_keeps (by simp [hs]) true
  unfold execStbyNHighWake
  split <;> simp [hs, hr]

theorem execMccRenumber_safe : Safe (execMccRenumber s) := by
  simp [execMccRenumber, State.shiftAll_keeps hs, hs]

theorem execTwinHeartbeat_safe (twl : Bool) (hb : Heartbeat) : Safe (execTwinHeartbeat twl hb s) := by
  simp [execTwinHeartbeat, hs]

theorem execTwinForward_safe (m : Nat) (f : Fwd) : Safe (execTwinForward m f s) := by
  have hf : ((s.copyStart f).takeFwd f).memWf = true := State.takeFwd_keeps (by simp [hs]) f
  simp [execTwinForward, hf, hs]

theorem execResyncStepDone_safe (peer seed : Nat) : Safe (execResyncStepDone peer seed s) := by
  simp [execResyncStepDone, State.takeMcc_keeps hs, hs]

theorem execFrameTick_safe : Safe (execFrameTick s) := by
  unfold execFrameTick
  split
  · dsimp only
    rw [safe_next, State.answerSummaries_memWf, State.mirrorTick_memWf, State.digestTick_memWf, State.phonesAdvance_memWf]
    exact State.pathTick_keeps (State.tickFirst_keeps hs) _ (fun b t => t.fillInputs_memWf b) _
  · exact (safe_next s).2 hs

end

/-- Every command. -/
theorem exec_safe {s : State} (hs : s.memWf = true) (c : Instr) : Safe (exec c s) := by
  cases c with
  | powerOnStandbySet => exact execPowerOnStandbySet_safe hs
  | mainRailsInRange => exact execMainRailsInRange_safe hs
  | mainRailOutOfRange => exact execMainRailOutOfRange_safe hs
  | standbySetLost => exact execStandbySetLost_safe hs
  | resetNLow => exact execResetNLow_safe hs
  | resetNRise straps => exact execResetNRise_safe hs straps
  | imageHeaderRead header => exact execImageHeaderRead_safe hs header
  | imageSectionsRead sections => exact execImageSectionsRead_safe hs sections
  | dramTrainingDone ok => exact execDramTrainingDone_safe hs ok
  | pcieImageChunk bytes => exact execPcieImageChunk_safe hs bytes
  | twinImageReceived bytes => exact execTwinImageReceived_safe hs bytes
  | twinImageSend => exact execTwinImageSend_safe hs
  | startSceneCommit => exact execStartSceneCommit_safe hs
  | enterQuiet => exact execEnterQuiet_safe hs
  | twinFirstRoleTimeout => exact execTwinFirstRoleTimeout_safe hs
  | enterRun => exact execEnterRun_safe hs
  | runTimeout => exact execRunTimeout_safe hs
  | stbyNLowHeld => exact execStbyNLowHeld_safe hs
  | enterStandby bound => exact execEnterStandby_safe hs bound
  | stbyNHighWake straps => exact execStbyNHighWake_safe hs straps
  | profileReconfigDone => exact execProfileReconfigDone_safe hs
  | frameTick => exact execFrameTick_safe hs
  | patchRevert n => exact execPatchRevert_safe hs n
  | commitApplied id => exact execCommitApplied_safe hs id
  | pdSwitchDone d => exact execPdSwitchDone_safe hs d
  | zcStep h n => exact execZcStep_safe hs h n
  | zcTimeout h n => exact execZcTimeout_safe hs h n
  | zcRampEnd h n => exact execZcRampEnd_safe hs h n
  | xfadeEnd h n => exact execXfadeEnd_safe hs h n
  | nodeGroupZeroCrossing g n => exact execNodeGroupZeroCrossing_safe hs g n
  | nodeGroupTimeout g n => exact execNodeGroupTimeout_safe hs g n
  | nodeRampEnd g n => exact execNodeRampEnd_safe hs g n
  | tapHandoverSwitch d sIx n => exact execTapHandoverSwitch_safe hs d sIx n
  | mereSegmentDetection lane fits => exact execMereSegmentDetection_safe hs lane fits
  | nodeCorrected d sIx => exact execNodeCorrected_safe hs d sIx
  | nodeRestored d sIx field => exact execNodeRestored_safe hs d sIx field
  | mereScrubPass nodes tables => exact execMereScrubPass_safe hs nodes tables
  | checkDone => exact execCheckDone_safe hs
  | planeReady => exact execPlaneReady_safe hs
  | commitScheduled id => exact execCommitScheduled_safe hs id
  | cfBankWrite h => exact execCfBankWrite_safe hs h
  | cueFired list => exact execCueFired_safe hs list
  | sceneSaveDone => rw [exec]; exact execSceneSaveDone_safe hs
  | sceneReadDone id => exact execSceneReadDone_safe hs id
  | springPeriod detections => exact execSpringPeriod_safe hs detections
  | springSourceHandover m iIx => exact execSpringSourceHandover_safe hs m iIx
  | springOutputHandover m ref => exact execSpringOutputHandover_safe hs m ref
  | springSourceClockLoss ref => exact execSpringSourceClockLoss_safe hs ref
  | springOutputClockReturn ref => exact execSpringOutputClockReturn_safe hs ref
  | springUnitRetire unit => exact execSpringUnitRetire_safe hs unit
  | dispatchInterrupt e => exact execDispatchInterrupt_safe hs e
  | dispatchReturn e => exact execDispatchReturn_safe hs e
  | serviceInterrupt e debug => exact execServiceInterrupt_safe hs e debug
  | taskOverrun e => exact execTaskOverrun_safe hs e
  | illegalInstruction e => exact execIllegalInstruction_safe hs e
  | nop _ => exact instr_safe _ _ hs
  | add _ _ => exact instr_safe _ _ hs
  | sub _ _ => exact instr_safe _ _ hs
  | neg _ _ => exact instr_safe _ _ hs
  | abs _ _ => exact instr_safe _ _ hs
  | andOp _ _ => exact instr_safe _ _ hs
  | orOp _ _ => exact instr_safe _ _ hs
  | xorOp _ _ => exact instr_safe _ _ hs
  | notOp _ _ => exact instr_safe _ _ hs
  | asl _ _ => exact instr_safe _ _ hs
  | asr _ _ => exact instr_safe _ _ hs
  | lsr _ _ => exact instr_safe _ _ hs
  | minOp _ _ => exact instr_safe _ _ hs
  | maxOp _ _ => exact instr_safe _ _ hs
  | cmp _ _ => exact instr_safe _ _ hs
  | tst _ _ => exact instr_safe _ _ hs
  | clr _ _ => exact instr_safe _ _ hs
  | rnd _ _ => exact instr_safe _ _ hs
  | sat _ _ => exact instr_safe _ _ hs
  | mac _ _ => exact instr_safe _ _ hs
  | msu _ _ => exact instr_safe _ _ hs
  | mpy _ _ => exact instr_safe _ _ hs
  | move _ _ _ => exact instr_safe _ _ hs
  | loadStore _ _ => exact instr_safe _ _ hs
  | aguOperation _ _ => exact instr_safe _ _ hs
  | shortImmediate _ _ _ => exact instr_safe _ _ hs
  | longImmediate _ _ _ => exact instr_safe _ _ hs
  | branch _ _ _ => exact flow_safe _ _ hs
  | call _ _ _ => exact flow_safe _ _ hs
  | ret _ _ => exact flow_safe _ _ hs
  | endTask _ _ => exact flow_safe _ _ hs
  | rep _ _ => exact flow_safe _ _ hs
  | loop _ _ _ => exact flow_safe _ _ hs
  | endl _ => exact flow_safe _ _ hs
  | lpush _ => exact flow_safe _ _ hs
  | lpop _ => exact flow_safe _ _ hs
  | log2 _ _ _ => exact instr_safe _ _ hs
  | exp2 _ _ _ => exact instr_safe _ _ hs
  | recip _ _ _ => exact instr_safe _ _ hs
  | rsqrt _ _ _ => exact instr_safe _ _ hs
  | tarnDetection e cause addr again fits => exact execTarnDetection_safe hs e cause addr again fits
  | tarnRetire e => exact execTarnRetire_safe hs e
  | spareSelfTestPass ok => exact execSpareSelfTestPass_safe hs ok
  | tarnScrubPass => exact execTarnScrubPass_safe hs
  | poisonedBlockRead buffer key index => exact execPoisonedBlockRead_safe hs buffer key index
  | ccRollback addr => exact execCcRollback_safe hs addr
  | ccCheckpoint => exact execCcCheckpoint_safe hs
  | ccRestart cause => exact execCcRestart_safe hs cause
  | ccWatchdogExpiry => exact execCcWatchdogExpiry_safe hs
  | ccRestartDone => exact execCcRestartDone_safe hs
  | droopReport mere => exact execDroopReport_safe hs mere
  | throttleStep mere => exact execThrottleStep_safe hs mere
  | tempWarn celsius => exact execTempWarn_safe hs celsius
  | maintRequest r code target noWait => exact execMaintRequest_safe hs r code target noWait
  | maintStatus r => exact execMaintStatus_safe hs r
  | maintGrant => exact execMaintGrant_safe hs
  | maintActivityEnd ok => exact execMaintActivityEnd_safe hs ok
  | sapFrame port tx words phase period bclks => exact execSapFrame_safe hs port tx words phase period bclks
  | sapClockStop port tx idle => exact execSapClockStop_safe hs port tx idle
  | sapRateMeasured port tx period bclks => exact execSapRateMeasured_safe hs port tx period bclks
  | sapStopDone port tx => exact execSapStopDone_safe hs port tx
  | sapMaskShadowWrite port tx => exact execSapMaskShadowWrite_safe hs port tx
  | sapLayout port tx => exact execSapLayout_safe hs port tx
  | madiFrame port tx subframes violations period => exact execMadiFrame_safe hs port tx subframes violations period
  | madiLock port period => exact execMadiLock_safe hs port period
  | madiStop port idle => exact execMadiStop_safe hs port idle
  | hspInsertion => exact execHspInsertion_safe hs
  | hspPlug tip ring1 ring2 sleeve => exact execHspPlug_safe hs tip ring1 ring2 sleeve
  | hspButtonDown => exact execHspButtonDown_safe hs
  | hspButtonPress mv => exact execHspButtonPress_safe hs mv
  | hspButtonRepeat => exact execHspButtonRepeat_safe hs
  | hspButtonRelease => exact execHspButtonRelease_safe hs
  | hspUnplug => exact execHspUnplug_safe hs
  | hspMicGainStep => exact execHspMicGainStep_safe hs
  | srcLock iIx ratio => exact execSrcLock_safe hs iIx ratio
  | srcUnlock iIx outOfRange => exact execSrcUnlock_safe hs iIx outOfRange
  | decInputSwitch iIx => exact execDecInputSwitch_safe hs iIx
  | decSilenceEnd iIx => exact execDecSilenceEnd_safe hs iIx
  | decsync r w => exact execDecsync_safe hs r w
  | decsyncFadeStart => exact execDecsyncFadeStart_safe hs
  | decsyncReset => exact execDecsyncReset_safe hs
  | decsyncPinEdge => exact execDecsyncPinEdge_safe hs
  | decsyncHoldEnd => exact execDecsyncHoldEnd_safe hs
  | netLinkDown n => exact execNetLinkDown_safe hs n
  | netLinkUp n => exact execNetLinkUp_safe hs n
  | netFrameReceive n frame stamp => exact execNetFrameReceive_safe hs n frame stamp
  | ptpOffsetMeasurement offset leader => exact execPtpOffsetMeasurement_safe hs offset leader
  | announceTimeout => exact execAnnounceTimeout_safe hs
  | phcTimerPulse iIx => exact execPhcTimerPulse_safe hs iIx
  | phcCapture iIx rising => exact execPhcCapture_safe hs iIx rising
  | mccRenumber => exact execMccRenumber_safe hs
  | mccUnaligned edge => exact execMccUnaligned_safe hs edge
  | mccRealigned edge => exact execMccRealigned_safe hs edge
  | streamPacketReceive sIx leg seq ts ns payload => exact execStreamPacketReceive_safe hs sIx leg seq ts ns payload
  | streamLegMiss sIx leg seq => exact execStreamLegMiss_safe hs sIx leg seq
  | streamPacketTransmit sIx => exact execStreamPacketTransmit_safe hs sIx
  | streamTxStopDone sIx => exact execStreamTxStopDone_safe hs sIx
  | streamRxRelease sIx => exact execStreamRxRelease_safe hs sIx
  | refLost k => exact execRefLost_safe hs k
  | refEvaluation meas => exact execRefEvaluation_safe hs meas
  | ckuLock => exact execCkuLock_safe hs
  | ckuBwStep => exact execCkuBwStep_safe hs
  | ckuUnlock => exact execCkuUnlock_safe hs
  | ckuGlide => exact execCkuGlide_safe hs
  | ckuFreerun => exact execCkuFreerun_safe hs
  | ref4SlewDone edge => exact execRef4SlewDone_safe hs edge
  | ckuSteer r target => exact execCkuSteer_safe hs r target
  | ckuCalibrate r => exact execCkuCalibrate_safe hs r
  | ckuCalDone value => exact execCkuCalDone_safe hs value
  | clkoutFreqChange k => exact execClkoutFreqChange_safe hs k
  | vcpFragment o bytes => exact execVcpFragment_safe hs o bytes
  | reassemblyTimeout o sid seq => exact execReassemblyTimeout_safe hs o sid seq
  | authBlockExpiry o => exact execAuthBlockExpiry_safe hs o
  | sessionOpen o seq cred role options nonce keepalive => exact execSessionOpen_safe hs o seq cred role options nonce keepalive
  | sessionClose r => exact execSessionClose_safe hs r
  | keepaliveExpiry sid => exact execKeepaliveExpiry_safe hs sid
  | pcieLinkReset => exact execPcieLinkReset_safe hs
  | ping r => exact execPing_safe hs r
  | summary r => exact execSummary_safe hs r
  | partitionClaim r mask force => exact execPartitionClaim_safe hs r mask force
  | partitionRelease r mask => exact execPartitionRelease_safe hs r mask
  | stageOpen r attrs => exact execStageOpen_safe hs r attrs
  | stageAdd r id entries => exact execStageAdd_safe hs r id entries
  | stageRow r id nodes => exact execStageRow_safe hs r id nodes
  | stageColumn r id nodes => exact execStageColumn_safe hs r id nodes
  | stageRect r id nodes => exact execStageRect_safe hs r id nodes
  | stageFill r id nodes => exact execStageFill_safe hs r id nodes
  | stageRemove r id handles => exact execStageRemove_safe hs r id handles
  | stageCheck r id => exact execStageCheck_safe hs r id
  | stageCosign r id digest mac => exact execStageCosign_safe hs r id digest mac
  | commit r id w => exact execCommit_safe hs r id w
  | stageCancel r id => exact execStageCancel_safe hs r id
  | stageDiscard r id => exact execStageDiscard_safe hs r id
  | stageReport r id => exact execStageReport_safe hs r id
  | pan r id src left right law pos level => exact execPan_safe hs r id src left right law pos level
  | sceneSave r part scene label => exact execSceneSave_safe hs r part scene label
  | sceneRecall r id scene scope => exact execSceneRecall_safe hs r id scene scope
  | sceneList r start => exact execSceneList_safe hs r start
  | sceneDelete r scene => exact execSceneDelete_safe hs r scene
  | cueLoad r list cues => exact execCueLoad_safe hs r list cues
  | cueArm r list => exact execCueArm_safe hs r list
  | cueDisarm r list => exact execCueDisarm_safe hs r list
  | cueRead r list => exact execCueRead_safe hs r list
  | paramRead r handles => exact execParamRead_safe hs r handles
  | matrixRead r d sIx nd ns start => exact execMatrixRead_safe hs r d sIx nd ns start
  | latencyRead r outs => exact execLatencyRead_safe hs r outs
  | counterRead r ids => exact execCounterRead_safe hs r ids
  | meterSubscribe r points => exact execMeterSubscribe_safe hs r points
  | meterPeriodEnd part => exact execMeterPeriodEnd_safe hs part
  | streamSdp r sIx sdp => exact execStreamSdp_safe hs r sIx sdp
  | eventRead r start => exact execEventRead_safe hs r start
  | eventAck r upTo => exact execEventAck_safe hs r upTo
  | eventMask r mask interval => exact execEventMask_safe hs r mask interval
  | eventDetail r index => exact execEventDetail_safe hs r index
  | deliveryIntervalEnd sid => exact execDeliveryIntervalEnd_safe hs sid
  | phcSet r sec ns => exact execPhcSet_safe hs r sec ns
  | mccAlign r => exact execMccAlign_safe hs r
  | moduleLoad r image => exact execModuleLoad_safe hs r image
  | moduleList r => exact execModuleList_safe hs r
  | fwWrite r slot offset bytes => exact execFwWrite_safe hs r slot offset bytes
  | fwSwitch r slot noWait => exact execFwSwitch_safe hs r slot noWait
  | twinSwap r w => exact execTwinSwap_safe hs r w
  | credProvision r blob => exact execCredProvision_safe hs r blob
  | lifecycleSet r target blob => exact execLifecycleSet_safe hs r target blob
  | keyInfo r => exact execKeyInfo_safe hs r
  | unknownCommand r code => exact execUnknownCommand_safe hs r code
  | secVersionFloorRaise => exact execSecVersionFloorRaise_safe hs
  | tamperTrip source => exact execTamperTrip_safe hs source
  | sbWiped => exact execSbWiped_safe hs
  | mbxReqWrite c len => exact execMbxReqWrite_safe hs c len
  | mbxReply c => exact execMbxReply_safe hs c
  | mbxEvrWrite c value => exact execMbxEvrWrite_safe hs c value
  | evStatClear k mask => exact execEvStatClear_safe hs k mask
  | mccLoRead => exact execMccLoRead_safe hs
  | genLoRead => exact execGenLoRead_safe hs
  | registerWrite offset value => exact execRegisterWrite_safe hs offset value
  | spiRegisterWrite offset words => exact execSpiRegisterWrite_safe hs offset words
  | spiRegisterRead offset n => exact execSpiRegisterRead_safe hs offset n
  | spiMailboxWrite addr bytes => exact execSpiMailboxWrite_safe hs addr bytes
  | spiMailboxRead addr n => exact execSpiMailboxRead_safe hs addr n
  | fabricGrant target cycle arrivals => exact execFabricGrant_safe hs target cycle arrivals
  | qosPromotion target cycle => exact execQosPromotion_safe hs target cycle
  | masterResetDrain m => exact execMasterResetDrain_safe hs m
  | poolScrubPass found => exact execPoolScrubPass_safe hs found
  | dramPatrolPass found => exact execDramPatrolPass_safe hs found
  | mstoreCorrected addr => exact execMstoreCorrected_safe hs addr
  | mstoreScrubPass found => exact execMstoreScrubPass_safe hs found
  | eventCountPublish x arrivals reflect take => exact execEventCountPublish_safe hs x arrivals reflect take
  | crossingClockStopped x far => exact execCrossingClockStopped_safe hs x far
  | crossingResetIndication x => exact execCrossingResetIndication_safe hs x
  | resetGroupRequest g => exact execResetGroupRequest_safe hs g
  | peerAliveStopped => exact execPeerAliveStopped_safe hs
  | amclkStopRelease => exact execAmclkStopRelease_safe hs
  | leaseRenewal n => exact execLeaseRenewal_safe hs n
  | leaseAck n => exact execLeaseAck_safe hs n
  | leaseFence => exact execLeaseFence_safe hs
  | leaseGuardExpiry => exact execLeaseGuardExpiry_safe hs
  | twinHeartbeat twl hb => exact execTwinHeartbeat_safe hs twl hb
  | twinPathDown twl => exact execTwinPathDown_safe hs twl
  | inputRecord tick items => exact execInputRecord_safe hs tick items
  | inputRecordMissing => exact execInputRecordMissing_safe hs
  | edgeOffsetExceeded offset => exact execEdgeOffsetExceeded_safe hs offset
  | twinForward m f => exact execTwinForward_safe hs m f
  | twinHandover h => exact execTwinHandover_safe hs h
  | twinSwapAtH => exact execTwinSwapAtH_safe hs
  | resyncStepDone mcc seed => exact execResyncStepDone_safe hs mcc seed
  | nonconvStateCopy slot x y => exact execNonconvStateCopy_safe hs slot x y
  | joinLimitExpiry => exact execJoinLimitExpiry_safe hs
  | legacyWrite addr word => exact execLegacyWrite_safe hs addr word
  | legacyRead addr => exact execLegacyRead_safe hs addr
  | legacyBurstWrite addr words cut => exact execLegacyBurstWrite_safe hs addr words cut
  | legacyBurstRead addr n => exact execLegacyBurstRead_safe hs addr n
  | legacyParamWrite addr word => exact execLegacyParamWrite_safe hs addr word
  | load => exact execLoad_safe hs
  | loadLatch => exact execLoadLatch_safe hs
  | softReset => exact execSoftReset_safe hs
  | legacyRateWrite rate => exact execLegacyRateWrite_safe hs rate
  | legacyStatusClear mask => exact execLegacyStatusClear_safe hs mask
  | tamperSourceCleared source => exact execTamperSourceCleared_safe hs source
  | processingPllLossOfLock => exact execProcessingPllLossOfLock_safe hs
  | inputRecordClose => exact execInputRecordClose_safe hs

/-- Settles O59: every function of the model leaves the memories as they are, or writes them by operations that keep the canonical form. -/
theorem everyStepKeepsMemoriesCanonical : Obligations.EveryStepKeepsMemoriesCanonical := by
  intro s hs
  unfold State.stepsSafely step
  split
  · exact ⟨_, rfl, passSample_keeps hs⟩
  next c _ _ => exact exec_safe (by simp [hs]) c

end Sys2Proof.Machine
end

section
/-! PROOFS. The spring mixer's handovers, clock loss and units (R149, R150, R152–R154): what each command leaves of the entries, the output
slots, the queues and the units; O18. -/

namespace Sys2Proof.Machine

/-! ### Changes of the spring mixer -/

theorem State.setSpring_frame (s : State) (f : SpringG → SpringG) : s.frame (s.setSpring f) [.spring] := by
  simp [State.frame_iff, Part.same]

/-- A change of the spring mixer, told by an event. -/
theorem State.setSpring_told (s : State) (f : SpringG → SpringG) (ev : Ev) (part obj val : Nat) :
    s.told ((s.setSpring f).raise ev part obj val) ev part obj val ∧
      s.frame ((s.setSpring f).raise ev part obj val) [.spring, .ev, .sessions] :=
  ⟨State.raise_told s _ ev part obj val (by simp) (by simp) (by simp) rfl,
    State.frame_trans (s.setSpring_frame f) ((s.setSpring f).raise_frame ev part obj val)⟩

theorem State.setSpring_raise_spring (s : State) (f : SpringG → SpringG) (ev : Ev) (part obj val : Nat) :
    ((s.setSpring f).raise ev part obj val).spring = f s.spring := by simp

/-! ### Handovers (R149, R150) -/

/-- What the stepping of an entry reads between two spring periods: the signals of the last one. -/
def State.springHandoverEnv (s : State) : StepEnv := springEnv s.springT s.springL s.spring.sig s.spring.sig

/-- The spring mixer after entry k has taken its committed source, where it is due to. -/
def State.sourceHandedOver (s : State) (k : Nat) : State :=
  s.setSpring (fun g => { g with step := (g.step.tapSwitch s.springHandoverEnv g.n k).1 })

theorem execSpringSourceHandover_in (s : State) {m i : Nat} (hm : m < 16) (hi : i < 64) :
    exec (.springSourceHandover m i) s = .next (s.sourceHandedOver (m * 64 + i)) :=
  if_neg (by omega)

/-- R149: an entry that applies 0 in a handover takes its committed source; every other entry is as it was. -/
theorem State.sourceHandedOver_node (s : State) (k j : Nat) :
    let x := Cells.get springNode0 s.spring.step.nodes k
    x.tap ≠ x.ntap → x.st = .idle → x.cur = 0 →
      Cells.get springNode0 (s.sourceHandedOver k).spring.step.nodes j =
        if j = k then { x with tap := x.ntap, st := if x.tgt = 0 then .idle else .pending }
        else Cells.get springNode0 s.spring.step.nodes j :=
  fun htap hst hcur => StepG.node_tapSwitch (e := s.springHandoverEnv) htap hst hcur j

/-- A mix after the output slots of a reference whose handover gain is pending have stepped to their targets. -/
def SpringMix.outputHandedOver (x : SpringMix) (ref : Nat) : SpringMix :=
  { x with slots := x.slots.map (fun c => if c.1 = ref ∧ c.2.tp.isSome then (c.1, c.2.step) else c) }

/-- The spring mixer after that handover in mix m. -/
def State.outputHandedOver (s : State) (m ref : Nat) : State :=
  s.setSpring (fun g => { g with mixes := Cells.upd SpringMix.reset g.mixes m (·.outputHandedOver ref) })

theorem execSpringOutputHandover_in (s : State) {m : Nat} (ref : Nat) (hm : m < 16) :
    exec (.springOutputHandover m ref) s = .next (s.outputHandedOver m ref) :=
  if_neg (by omega)

theorem State.outputHandedOver_mix (s : State) (m ref j : Nat) :
    (s.outputHandedOver m ref).spring.mix j = if j = m then (s.spring.mix m).outputHandedOver ref else s.spring.mix j :=
  Cells.get_upd SpringMix.reset s.spring.mixes m j (·.outputHandedOver ref)

/-! ### Clocks that stop and return (R152, R153) -/

/-- The spring mixer after an output's bit clock has returned: it sends on from the newest sample of its queue. -/
def State.outputClockReturned (s : State) (ref : Nat) : State :=
  s.setSpring (fun g => { g with
    stopped := g.stopped.filter (· ≠ ref), outQ := Cells.put [] g.outQ ref ((Cells.get [] g.outQ ref).take 1) })

theorem execSpringOutputClockReturn_stopped {s : State} {ref : Nat} (h : s.spring.stopped.contains ref = true) :
    exec (.springOutputClockReturn ref) s = .next (s.outputClockReturned ref) :=
  if_pos h

theorem State.outputClockReturned_outQ (s : State) (ref : Nat) :
    Cells.get [] (s.outputClockReturned ref).spring.outQ ref = (Cells.get [] s.spring.outQ ref).take 1 :=
  Cells.get_put_same _ _ _ _

theorem execSpringSourceClockLoss_new {s : State} {ref : Nat} (hloss : s.springLoss ref = true) (hl : (s.spring.src ref).lost = false) :
    exec (.springSourceClockLoss ref) s = .next (s.updSpringSrc ref SpringSrc.clockLoss) :=
  if_pos ⟨hloss, by rw [hl]; rfl⟩

/-- A source's queue read after it was changed. -/
theorem State.updSpringSrc_src (s : State) (ref : Nat) (f : SpringSrc → SpringSrc) :
    (s.updSpringSrc ref f).spring.src ref = f (s.spring.src ref) :=
  Cells.get_put_same _ _ _ _

/-! ### Units (R154) -/

/-- The detections of a unit within the last 4096 spring samples. -/
def SpringG.recentDetections (g : SpringG) (u : Nat) : List Nat :=
  (Cells.get [] g.detect u).filter (fun k => decide (g.n ≤ k + 4096))

/-- The spring mixer with the detections of a unit forgotten. -/
def SpringG.forgetDetections (g : SpringG) (u : Nat) : SpringG := { g with detect := Cells.put [] g.detect u [] }

/-- The spring mixer after unit u has retired. -/
def SpringG.retire (g : SpringG) (u : Nat) : SpringG := { g.forgetDetections u with retired := g.retired ++ [u] }

section
variable {s : State} {u : Nat} (hu : u < 12) (hin : s.spring.retired.contains u = false) (hd : 3 ≤ (s.spring.recentDetections u).length)
include hu hin hd

/-- A unit with three recent detections retires while a spare is left. -/
theorem execSpringUnitRetire_due : exec (.springUnitRetire u) s = .next (if s.spring.retired.length < 3
      then (s.setSpring (·.retire u)).raise .springUnitRetired 0 u 0
      else (s.setSpring (·.forgetDetections u)).raise .springSpareExhausted 0 u 0) := by
  have hdue : ¬ (12 ≤ u ∨ s.spring.retired.contains u = true ∨ (s.spring.recentDetections u).length < 3) := by
    rw [hin]; simp; omega
  exact if_neg hdue

theorem springUnitRetire_retires (hspare : s.spring.retired.length < 3) :
    ∃ t, exec (.springUnitRetire u) s = .next t ∧ t.spring.retired = s.spring.retired ++ [u] ∧
      s.told t .springUnitRetired 0 u 0 ∧ s.frame t [.spring, .ev, .sessions] := by
  refine ⟨_, execSpringUnitRetire_due hu hin hd, ?_⟩
  rw [if_pos hspare, State.setSpring_raise_spring]
  exact ⟨rfl, s.setSpring_told _ _ _ _ _⟩

theorem springUnitRetire_exhausted (hspare : 3 ≤ s.spring.retired.length) :
    ∃ t, exec (.springUnitRetire u) s = .next t ∧ t.spring.retired = s.spring.retired ∧
      s.told t .springSpareExhausted 0 u 0 ∧ s.frame t [.spring, .ev, .sessions] := by
  refine ⟨_, execSpringUnitRetire_due hu hin hd, ?_⟩
  rw [if_neg (Nat.not_lt.2 hspare), State.setSpring_raise_spring]
  exact ⟨rfl, s.setSpring_told _ _ _ _ _⟩

end

/-- Settles O18: each command by the spring mixer that it leaves. -/
theorem springHandoversAndLoss : Obligations.SpringHandoversAndLoss := by
  unfold Obligations.SpringHandoversAndLoss
  refine ⟨fun s => ⟨fun m i hm hi _ => ?_, fun m ref hm _ => ?_, fun ref h => ?_⟩, fun s => ⟨fun ref hloss hl => ?_, fun u hu hin hd => ?_⟩⟩
  · intro k x htap hst hcur
    have hnode := fun j => s.sourceHandedOver_node k j htap hst hcur
    refine ⟨_, execSpringSourceHandover_in s hm hi, ?_, fun j hj => (hnode j).trans (if_neg hj), s.setSpring_frame _⟩
    exact congrArg Node.tap ((hnode k).trans (if_pos rfl))
  · have hmix := s.outputHandedOver_mix m ref
    refine ⟨_, execSpringOutputHandover_in s ref hm, ?_, fun j hj => (hmix j).trans (if_neg hj), s.setSpring_frame _⟩
    exact congrArg SpringMix.slots ((hmix m).trans (if_pos rfl))
  · exact ⟨_, execSpringOutputClockReturn_stopped h, rfl, s.outputClockReturned_outQ ref, rfl, s.setSpring_frame _⟩
  · refine ⟨_, execSpringSourceClockLoss_new hloss hl, ?_⟩
    rw [State.updSpringSrc_src]
    exact ⟨rfl, rfl, rfl, s.setSpring_frame _⟩
  · exact ⟨springUnitRetire_retires hu hin hd, springUnitRetire_exhausted hu hin hd⟩

end Sys2Proof.Machine
end

section
/-! PROOFS. The words of the Tarn instruction set (R172, R173, R175–R177, R183): the decoder reads back every field that the encoder writes, class
by class; O29. -/

namespace Sys2Proof.Machine

open Fmt

/-! ### Bits and parallel moves (R170) -/

theorem b2n_lt_two (b : Bool) : b2n b < 2 := by cases b <;> decide

/-- A flag stored as a bit is read back. -/
theorem decide_b2n_eq_one (b : Bool) : decide (b2n b = 1) = b := by cases b <;> rfl

namespace Tarn

theorem decMove_encMove {m : Option PMove} (h : okOpt okMove m = true) : decMove (encMove m) = some m := by
  cases m with
  | none => rfl
  | some m =>
    replace h : okMove m = true := h
    have hok := h
    simp only [okMove, below, Bool.and_eq_true, decide_eq_true_eq] at h
    obtain ⟨⟨hr, ha⟩, hm⟩ := h
    have hb := b2n_lt_two m.store
    have hen : encMove (some m) / 2 ^ 11 % 2 ≠ 0 := by simp only [encMove]; omega
    have hst : encMove (some m) / 2 ^ 10 % 2 = b2n m.store := by simp only [encMove]; omega
    have hreg : encMove (some m) / 2 ^ 6 % 16 = m.reg := by simp only [encMove]; omega
    have han : encMove (some m) / 2 ^ 3 % 8 = m.an := by simp only [encMove]; omega
    have hmode : encMove (some m) % 8 = m.mode := by simp only [encMove]; omega
    simp only [decMove, if_neg hen, hst, decide_b2n_eq_one, hreg, han, hmode, hok, if_true]

theorem decMoves_encMove {mv : Moves} (h : okMoves mv = true) : decMoves (encMove mv.x) (encMove mv.y) = some mv := by
  have hok := h
  simp only [okMoves, Bool.and_eq_true] at h
  obtain ⟨⟨hx, hy⟩, -⟩ := h
  simp only [decMoves, decMove_encMove hx, decMove_encMove hy, hok, if_true]

/-! ### The ALU and the MAC units (classes 0x1, 0x2, 0x3, 0xC, 0xD) -/

/-- The fields of both moves are 12 bits wide. -/
theorem encMove_lt_of_okMoves {mv : Moves} (h : okMoves mv = true) : encMove mv.x < 2 ^ 12 ∧ encMove mv.y < 2 ^ 12 := by
  simp only [okMoves, Bool.and_eq_true] at h
  obtain ⟨⟨hx, hy⟩, -⟩ := h
  exact ⟨Laws.Words.encMove_lt hx, Laws.Words.encMove_lt hy⟩

theorem decode_encAlu {op w v : Nat} {f : AluF} (e : Nat) (ho : op < 32) (h : okAlu f = true)
    (hw : encAlu op f = [w] ∨ encAlu op f = [w, v]) : decode e w v = aluInstr e op f := by
  have hok := h
  obtain ⟨dst, src1, src2, shift, mv⟩ := f
  simp only [okAlu, below, Bool.and_eq_true, decide_eq_true_eq] at h
  obtain ⟨⟨⟨⟨hd, h1⟩, h2⟩, hsh⟩, hmv⟩ := h
  cases mv with
  | none =>
    simp only [encAlu, List.cons.injEq, and_true, reduceCtorEq, and_false, or_false] at hw
    have hcls : w / 2 ^ 28 = 0x1 := by omega
    have hdst : w / 2 ^ 19 % 16 = dst := by omega
    have hsrc1 : w / 2 ^ 15 % 16 = src1 := by omega
    have hsrc2 : w / 2 ^ 11 % 16 = src2 := by omega
    have hshift : w / 2 ^ 5 % 64 = shift := by omega
    have hop : w / 2 ^ 23 % 32 = op := by omega
    have hrest : w % 2 ^ 5 = 0 := by omega
    simp only [decode, hcls, decAlu, hdst, hsrc1, hsrc2, hshift, hop, hrest, hok, and_self, if_true]
  | some mv =>
    replace hmv : okMoves mv = true := hmv
    obtain ⟨hx, hy⟩ := encMove_lt_of_okMoves hmv
    simp only [encAlu, List.cons.injEq, and_true, reduceCtorEq, and_false, false_or] at hw
    obtain ⟨hw, hv⟩ := hw
    have hcls : w / 2 ^ 28 = 0xC := by omega
    have hmx : w % 2 ^ 12 = encMove mv.x := by omega
    have hmy : v / 2 ^ 20 = encMove mv.y := by omega
    have hdst : w / 2 ^ 19 % 16 = dst := by omega
    have hsrc1 : w / 2 ^ 15 % 16 = src1 := by omega
    have hsrc2 : v / 2 ^ 16 % 16 = src2 := by omega
    have hshift : v / 2 ^ 10 % 64 = shift := by omega
    have hop : w / 2 ^ 23 % 32 = op := by omega
    have hrest : w / 2 ^ 12 % 8 = 0 ∧ v % 2 ^ 10 = 0 := by omega
    simp only [decode, hcls, decAluMoves, hmx, hmy, decMoves_encMove hmv, hdst, hsrc1, hsrc2, hshift, hop, hrest, hok, and_self, if_true]

theorem decode_encMac {op w v : Nat} {f : MacF} (e : Nat) (ho : op < 4) (h : okMac f = true)
    (hw : encMac op f = [w] ∨ encMac op f = [w, v]) : decode e w v = macInstr e op f := by
  have hok := h
  obtain ⟨quad, acc, dx, dy, mv⟩ := f
  simp only [okMac, below, Bool.and_eq_true, decide_eq_true_eq] at h
  obtain ⟨⟨ha, hd⟩, hmv⟩ := h
  have hdx : dx < 8 ∧ dy < 8 := by
    split at hd <;> simp only [Bool.and_eq_true, decide_eq_true_eq] at hd <;> omega
  cases mv with
  | none =>
    simp only [encMac, List.cons.injEq, and_true, reduceCtorEq, and_false, or_false] at hw
    have hacc : w / 2 ^ 24 % 4 = acc := by split at hw <;> omega
    have hdx' : w / 2 ^ 21 % 8 = dx := by split at hw <;> omega
    have hdy' : w / 2 ^ 18 % 8 = dy := by split at hw <;> omega
    have hop : w / 2 ^ 26 % 4 = op := by split at hw <;> omega
    have hrest : w % 2 ^ 18 = 0 := by split at hw <;> omega
    have hcls : w / 2 ^ 28 = if quad then 0x3 else 0x2 := by split at hw <;> simp [*] <;> omega
    cases quad <;>
      simp only [decode, hcls, decMac, hacc, hdx', hdy', hop, hrest, hok, and_self, if_true, Bool.false_eq_true, if_false]
  | some mv =>
    replace hmv : okMoves mv = true := hmv
    obtain ⟨hx, hy⟩ := encMove_lt_of_okMoves hmv
    have hq := b2n_lt_two quad
    simp only [encMac, List.cons.injEq, and_true, reduceCtorEq, and_false, false_or] at hw
    obtain ⟨hw, hv⟩ := hw
    have hcls : w / 2 ^ 28 = 0xD := by omega
    have hmx : w % 2 ^ 12 = encMove mv.x := by omega
    have hmy : v / 2 ^ 20 = encMove mv.y := by omega
    have hquad : w / 2 ^ 27 % 2 = b2n quad := by omega
    have hacc : w / 2 ^ 23 % 4 = acc := by omega
    have hdx' : w / 2 ^ 20 % 8 = dx := by omega
    have hdy' : w / 2 ^ 17 % 8 = dy := by omega
    have hop : w / 2 ^ 25 % 4 = op := by omega
    have hrest : w / 2 ^ 12 % 32 = 0 ∧ v % 2 ^ 20 = 0 := by omega
    simp only [decode, hcls, decMacMoves, hmx, hmy, decMoves_encMove hmv, hquad, decide_b2n_eq_one, hacc, hdx', hdy', hop, hrest, hok, and_self,
      if_true]

/-! ### Loads and stores, AGU, branches, loops, the nonlinear unit (classes 0x5, 0x6, 0x8, 0x9, 0xA) -/

theorem decode_encLdSt {f : LdSt} (e v : Nat) (h : okLdSt f = true) : decode e (encLdSt f) v = some (.loadStore e f) := by
  have hok := h
  obtain ⟨y, store, reg, an, mode, addr⟩ := f
  simp only [okLdSt, below, Bool.and_eq_true, Bool.or_eq_true, decide_eq_true_eq] at h
  obtain ⟨⟨⟨⟨hr, ha⟩, hm⟩, had⟩, -⟩ := h
  have hy := b2n_lt_two y
  have hs := b2n_lt_two store
  generalize hw : encLdSt _ = w
  simp only [encLdSt] at hw
  have hcls : w / 2 ^ 28 = 0x5 := by omega
  have hy' : w / 2 ^ 27 % 2 = b2n y := by omega
  have hs' : w / 2 ^ 26 % 2 = b2n store := by omega
  have hreg : w / 2 ^ 21 % 32 = reg := by omega
  have han : w / 2 ^ 18 % 8 = an := by omega
  have hmode : w / 2 ^ 15 % 8 = mode := by omega
  have haddr : w % 2 ^ 15 = addr := by omega
  simp only [decode, hcls, decLdSt, hy', hs', decide_b2n_eq_one, hreg, han, hmode, haddr, hok, if_true]

theorem decode_encAgu {f : AguF} (e v : Nat) (h : okAgu f = true) : decode e (encAgu f) v = some (.aguOperation e f) := by
  have hok := h
  obtain ⟨op, kind, index, d, imm⟩ := f
  simp only [okAgu, below, Bool.and_eq_true, Bool.or_eq_true, decide_eq_true_eq] at h
  obtain ⟨⟨⟨⟨⟨⟨ho, hk⟩, hi⟩, hd⟩, him⟩, -⟩, -⟩ := h
  generalize hw : encAgu _ = w
  simp only [encAgu] at hw
  have hcls : w / 2 ^ 28 = 0x6 := by omega
  have hop : w / 2 ^ 26 % 4 = op := by omega
  have hkind : w / 2 ^ 24 % 4 = kind := by omega
  have hindex : w / 2 ^ 21 % 8 = index := by omega
  have hd' : w / 2 ^ 16 % 8 = d := by omega
  have himm : w % 2 ^ 16 = imm := by omega
  have hrest : w / 2 ^ 19 % 4 = 0 := by omega
  simp only [decode, hcls, decAgu, hop, hkind, hindex, hd', himm, hrest, hok, and_self, if_true]

/-- The instruction of class 0x8 of a kind; RET and END have no target. -/
def branchInstr (e kind c t : Nat) : Option Instr :=
  match kind with
  | 0 => some (.branch e c t)
  | 1 => some (.call e c t)
  | 2 => if t = 0 then some (.ret e c) else none
  | _ => if t = 0 then some (.endTask e c) else none

theorem decode_encBranch {kind c t : Nat} (e v : Nat) (hk : kind < 4) (hc : c < 14) (ht : t < 16384) :
    decode e (encBranch kind c t) v = branchInstr e kind c t := by
  generalize hw : encBranch kind c t = w
  simp only [encBranch] at hw
  have hcls : w / 2 ^ 28 = 0x8 := by omega
  have hc' : w / 2 ^ 24 % 16 = c := by omega
  have hk' : w / 2 ^ 22 % 4 = kind := by omega
  have ht' : w % 2 ^ 14 = t := by omega
  have hrest : ¬ (w / 2 ^ 14 % 2 ^ 8 ≠ 0 ∨ 14 ≤ c) := by omega
  simp only [decode, hcls, decBranch, hc', hk', ht', if_neg hrest]
  rfl

theorem decode_encRep {n : Count} (e v : Nat) (h : okCount 4096 n = true) : decode e (encRep n) v = some (.rep e n) := by
  generalize hw : encRep n = w
  cases n with
  | imm n =>
    simp only [okCount, Bool.and_eq_true, decide_eq_true_eq] at h
    simp only [encRep] at hw
    have hcls : w / 2 ^ 28 = 0x9 := by omega
    have hsub : w / 2 ^ 26 % 4 = 0 := by omega
    have hrest : ¬ w % 2 ^ 13 ≠ 0 := by omega
    have hreg : decide (w / 2 ^ 25 % 2 = 1) = false := decide_eq_false (by omega)
    have hn : w / 2 ^ 13 % 2 ^ 12 + 1 = n := by omega
    simp only [decode, hcls, decLoop, hsub, hrest, hreg, hn, Bool.false_eq_true, if_false]
  | reg d =>
    simp only [okCount, below, decide_eq_true_eq] at h
    simp only [encRep] at hw
    have hcls : w / 2 ^ 28 = 0x9 := by omega
    have hsub : w / 2 ^ 26 % 4 = 0 := by omega
    have hrest : ¬ w % 2 ^ 13 ≠ 0 := by omega
    have hreg : decide (w / 2 ^ 25 % 2 = 1) = true := decide_eq_true (by omega)
    have hfree : w / 2 ^ 16 % 2 ^ 9 = 0 := by omega
    have hd : w / 2 ^ 13 % 8 = d := by omega
    simp only [decode, hcls, decLoop, hsub, hrest, hreg, hfree, hd, if_true, if_false]

theorem decode_encLoop {n : Count} {le : Nat} (e v : Nat) (h : okCount 1024 n = true) (hle : le < 16384) :
    decode e (encLoop le n) v = some (.loop e n le) := by
  generalize hw : encLoop le n = w
  cases n with
  | imm n =>
    simp only [okCount, Bool.and_eq_true, decide_eq_true_eq] at h
    simp only [encLoop] at hw
    have hcls : w / 2 ^ 28 = 0x9 := by omega
    have hsub : w / 2 ^ 26 % 4 = 1 := by omega
    have hrest : ¬ w / 2 ^ 24 % 2 ≠ 0 := by omega
    have hreg : decide (w / 2 ^ 25 % 2 = 1) = false := decide_eq_false (by omega)
    have hn : w / 2 ^ 14 % 2 ^ 10 + 1 = n := by omega
    have hle' : w % 2 ^ 14 = le := by omega
    simp only [decode, hcls, decLoop, hsub, hrest, hreg, hn, hle', Bool.false_eq_true, if_false]
  | reg d =>
    simp only [okCount, below, decide_eq_true_eq] at h
    simp only [encLoop] at hw
    have hcls : w / 2 ^ 28 = 0x9 := by omega
    have hsub : w / 2 ^ 26 % 4 = 1 := by omega
    have hrest : ¬ w / 2 ^ 24 % 2 ≠ 0 := by omega
    have hreg : decide (w / 2 ^ 25 % 2 = 1) = true := decide_eq_true (by omega)
    have hfree : w / 2 ^ 17 % 2 ^ 7 = 0 := by omega
    have hd : w / 2 ^ 14 % 8 = d := by omega
    have hle' : w % 2 ^ 14 = le := by omega
    simp only [decode, hcls, decLoop, hsub, hrest, hreg, hfree, hd, hle', if_true, if_false]

theorem decode_encNl {op dst src : Nat} (e v : Nat) (ho : op < 4) (hd : dst < 12) (hs : src < 12) :
    decode e (encNl op dst src) v = nlInstr e op dst src := by
  generalize hw : encNl op dst src = w
  simp only [encNl] at hw
  have hcls : w / 2 ^ 28 = 0xA := by omega
  have hdst : w / 2 ^ 19 % 16 = dst := by omega
  have hsrc : w / 2 ^ 15 % 16 = src := by omega
  have hop : w / 2 ^ 25 % 8 = op := by omega
  have hrest : w / 2 ^ 23 % 4 = 0 ∧ w % 2 ^ 15 = 0 := by omega
  simp only [decode, hcls, decNl, hdst, hsrc, hop, hrest, hd, hs, and_self, if_true]

/-! ### MOVE and the immediates (classes 0x4, 0x7, 0xE) -/

theorem decode_move {dst src : Nat} (e v : Nat) (hd : dst < 32) (hs : src < 32) :
    decode e (0x4 * 2 ^ 28 + dst * 2 ^ 23 + src * 2 ^ 18) v = some (.move e dst src) := by
  generalize hw : 0x4 * 2 ^ 28 + dst * 2 ^ 23 + src * 2 ^ 18 = w
  have hcls : w / 2 ^ 28 = 0x4 := by omega
  have hdst : w / 2 ^ 23 % 32 = dst := by omega
  have hsrc : w / 2 ^ 18 % 32 = src := by omega
  have hrest : w % 2 ^ 18 = 0 := by omega
  simp only [decode, hcls, hdst, hsrc, hrest, if_true]

theorem decode_shortImmediate {d imm : Nat} (e v : Nat) (hd : d < 8) (hi : imm < 2 ^ 24) :
    decode e (0x7 * 2 ^ 28 + d * 2 ^ 25 + imm) v = some (.shortImmediate e d imm) := by
  generalize hw : 0x7 * 2 ^ 28 + d * 2 ^ 25 + imm = w
  have hcls : w / 2 ^ 28 = 0x7 := by omega
  have hd' : w / 2 ^ 25 % 8 = d := by omega
  have himm : w % 2 ^ 24 = imm := by omega
  have hrest : w / 2 ^ 24 % 2 = 0 := by omega
  simp only [decode, hcls, hd', himm, hrest, if_true]

theorem decode_longImmediate {reg imm : Nat} (e : Nat) (hr : reg < 12) (hi : imm < 2 ^ 48) :
    decode e (0xE * 2 ^ 28 + reg * 2 ^ 24 + imm / 2 ^ 32) (imm % 2 ^ 32) = some (.longImmediate e reg imm) := by
  generalize hw : 0xE * 2 ^ 28 + reg * 2 ^ 24 + imm / 2 ^ 32 = w
  have hcls : w / 2 ^ 28 = 0xE := by omega
  have hreg : w / 2 ^ 24 % 16 = reg := by omega
  have hhigh : w % 2 ^ 16 = imm / 2 ^ 32 := by omega
  have himm : imm / 2 ^ 32 * 2 ^ 32 + imm % 2 ^ 32 % 2 ^ 32 = imm := by rw [Nat.mod_mod, Nat.div_add_mod']
  have hrest : w / 2 ^ 16 % 2 ^ 8 = 0 := by omega
  simp only [decode, hcls, hreg, hhigh, himm, hrest, hr, and_self, if_true]

/-! ### Every instruction -/

/-- The words of an instruction, where it has any and is well-formed, decode to it. -/
def Decodes (i : Instr) : Prop :=
  ∀ e w v ws, i.wf = true → encode i = some (e, ws) → ws = [w] ∨ ws = [w, v] → decode e w v = some i

theorem Decodes.none {i : Instr} (h : encode i = .none) : Decodes i := by
  intro e w v ws _ he _
  rw [h] at he
  cases he

/-- An instruction of one word. -/
theorem Decodes.word {i : Instr} {e w : Nat} (h : encode i = some (e, [w])) (k : i.wf = true → ∀ v, decode e w v = some i) : Decodes i := by
  intro e' w' v ws hwf he hs
  rw [h] at he
  cases he
  simp only [List.cons.injEq, and_true, reduceCtorEq, and_false, or_false] at hs
  subst hs
  exact k hwf v

theorem Decodes.alu {i : Instr} {e op : Nat} {f : AluF} (h : encode i = some (e, encAlu op f)) (ho : op < 32) (hi : aluInstr e op f = some i)
    (k : i.wf = (below 17 e && okAlu f)) : Decodes i := by
  intro e' w v ws hwf he hs
  rw [h] at he
  cases he
  rw [k, Bool.and_eq_true] at hwf
  exact (decode_encAlu e ho hwf.2 hs).trans hi

theorem Decodes.mulacc {i : Instr} {e op : Nat} {f : MacF} (h : encode i = some (e, encMac op f)) (ho : op < 4) (hi : macInstr e op f = some i)
    (k : i.wf = (below 17 e && okMac f)) : Decodes i := by
  intro e' w v ws hwf he hs
  rw [h] at he
  cases he
  rw [k, Bool.and_eq_true] at hwf
  exact (decode_encMac e ho hwf.2 hs).trans hi

/-- BRANCH and CALL. -/
theorem Decodes.jump {i : Instr} {e kind c t : Nat} (h : encode i = some (e, [encBranch kind c t])) (hk : kind < 4)
    (hi : branchInstr e kind c t = some i) (k : i.wf = (below 17 e && below 14 c && below 16384 t)) : Decodes i := by
  refine Decodes.word h (fun w v => ?_)
  simp only [k, below, Bool.and_eq_true, decide_eq_true_eq] at w
  obtain ⟨⟨-, hc⟩, ht⟩ := w
  exact (decode_encBranch e v hk hc ht).trans hi

/-- RET and END. -/
theorem Decodes.leave {i : Instr} {e kind c : Nat} (h : encode i = some (e, [encBranch kind c 0])) (hk : kind < 4)
    (hi : branchInstr e kind c 0 = some i) (k : i.wf = (below 17 e && below 14 c)) : Decodes i := by
  refine Decodes.word h (fun w v => ?_)
  simp only [k, below, Bool.and_eq_true, decide_eq_true_eq] at w
  obtain ⟨-, hc⟩ := w
  exact (decode_encBranch e v hk hc (by decide)).trans hi

theorem Decodes.nonlinear {i : Instr} {e op dst src : Nat} (h : encode i = some (e, [encNl op dst src])) (ho : op < 4)
    (hi : nlInstr e op dst src = some i) (k : i.wf = (below 17 e && below 12 dst && below 12 src)) : Decodes i := by
  refine Decodes.word h (fun w v => ?_)
  simp only [k, below, Bool.and_eq_true, decide_eq_true_eq] at w
  obtain ⟨⟨-, hd⟩, hs⟩ := w
  exact (decode_encNl e v ho hd hs).trans hi

theorem Decodes.shortImmediate (e d imm : Nat) : Decodes (.shortImmediate e d imm) := by
  refine Decodes.word rfl (fun w v => ?_)
  simp only [Instr.wf, below, Bool.and_eq_true, decide_eq_true_eq] at w
  obtain ⟨⟨-, hd⟩, hi⟩ := w
  exact decode_shortImmediate e v hd hi

theorem Decodes.longImmediate (e reg imm : Nat) : Decodes (.longImmediate e reg imm) := by
  intro e' w v ws hwf he hs
  obtain ⟨rfl, rfl⟩ := Prod.mk.injEq .. ▸ Option.some.inj he
  simp only [Instr.wf, below, Bool.and_eq_true, decide_eq_true_eq] at hwf
  obtain ⟨⟨-, hr⟩, hi⟩ := hwf
  simp only [List.cons.injEq, and_true, reduceCtorEq, and_false, false_or] at hs
  obtain ⟨rfl, rfl⟩ := hs
  exact decode_longImmediate _ hr hi

theorem Decodes.move (e dst src : Nat) : Decodes (.move e dst src) := by
  refine Decodes.word rfl (fun w v => ?_)
  simp only [Instr.wf, below, Bool.and_eq_true, decide_eq_true_eq] at w
  obtain ⟨⟨-, hd⟩, hs⟩ := w
  exact decode_move e v hd hs

theorem Decodes.loop (e : Nat) (n : Count) (le : Nat) : Decodes (.loop e n le) := by
  refine Decodes.word rfl (fun w v => ?_)
  simp only [Instr.wf, Bool.and_eq_true] at w
  obtain ⟨⟨-, hn⟩, hle⟩ := w
  exact decode_encLoop e v hn (of_decide_eq_true hle)

theorem decodes_of_wf (i : Instr) : Decodes i := by
  cases i with
  | nop e => exact Decodes.word rfl (fun _ _ => rfl)
  | add e f => exact Decodes.alu rfl (by decide) rfl rfl
  | sub e f => exact Decodes.alu rfl (by decide) rfl rfl
  | neg e f => exact Decodes.alu rfl (by decide) rfl rfl
  | abs e f => exact Decodes.alu rfl (by decide) rfl rfl
  | andOp e f => exact Decodes.alu rfl (by decide) rfl rfl
  | orOp e f => exact Decodes.alu rfl (by decide) rfl rfl
  | xorOp e f => exact Decodes.alu rfl (by decide) rfl rfl
  | notOp e f => exact Decodes.alu rfl (by decide) rfl rfl
  | asl e f => exact Decodes.alu rfl (by decide) rfl rfl
  | asr e f => exact Decodes.alu rfl (by decide) rfl rfl
  | lsr e f => exact Decodes.alu rfl (by decide) rfl rfl
  | minOp e f => exact Decodes.alu rfl (by decide) rfl rfl
  | maxOp e f => exact Decodes.alu rfl (by decide) rfl rfl
  | cmp e f => exact Decodes.alu rfl (by decide) rfl rfl
  | tst e f => exact Decodes.alu rfl (by decide) rfl rfl
  | clr e f => exact Decodes.alu rfl (by decide) rfl rfl
  | rnd e f => exact Decodes.alu rfl (by decide) rfl rfl
  | sat e f => exact Decodes.alu rfl (by decide) rfl rfl
  | mac e f => exact Decodes.mulacc rfl (by decide) rfl rfl
  | msu e f => exact Decodes.mulacc rfl (by decide) rfl rfl
  | mpy e f => exact Decodes.mulacc rfl (by decide) rfl rfl
  | move e dst src => exact Decodes.move e dst src
  | loadStore e f => exact Decodes.word rfl (fun w v => decode_encLdSt e v (Bool.and_eq_true_iff.1 w).2)
  | aguOperation e f => exact Decodes.word rfl (fun w v => decode_encAgu e v (Bool.and_eq_true_iff.1 w).2)
  | shortImmediate e d imm => exact Decodes.shortImmediate e d imm
  | longImmediate e reg imm => exact Decodes.longImmediate e reg imm
  | branch e c t => exact Decodes.jump rfl (by decide) rfl rfl
  | call e c t => exact Decodes.jump rfl (by decide) rfl rfl
  | ret e c => exact Decodes.leave rfl (by decide) rfl rfl
  | endTask e c => exact Decodes.leave rfl (by decide) rfl rfl
  | rep e n => exact Decodes.word rfl (fun w v => decode_encRep e v (Bool.and_eq_true_iff.1 w).2)
  | loop e n le => exact Decodes.loop e n le
  | endl e => exact Decodes.word rfl (fun _ _ => rfl)
  | lpush e => exact Decodes.word rfl (fun _ _ => rfl)
  | lpop e => exact Decodes.word rfl (fun _ _ => rfl)
  | log2 e dst src => exact Decodes.nonlinear rfl (by decide) rfl rfl
  | exp2 e dst src => exact Decodes.nonlinear rfl (by decide) rfl rfl
  | recip e dst src => exact Decodes.nonlinear rfl (by decide) rfl rfl
  | rsqrt e dst src => exact Decodes.nonlinear rfl (by decide) rfl rfl
  | _ => exact Decodes.none rfl

end Tarn

/-- Settles O29: class by class, every field that the encoder writes is read back. -/
theorem tarnDecodeOfEncode : Obligations.TarnDecodeOfEncode := by
  unfold Obligations.TarnDecodeOfEncode
  exact fun i e w v ws => Tarn.decodes_of_wf i e w v ws

end Sys2Proof.Machine
end

section
/-! PROOFS. Every command answers a next state (R174, R321; log entry 138), branch by branch of its meaning; O60. -/

namespace Sys2Proof.Machine

/-- The outcome is a next state. -/
def Answers (o : Host.Outcome State Fault Refusal) : Prop := ∃ t, o = .next t

theorem answers_next (t : State) : Answers (.next t) := ⟨t, rfl⟩

theorem answers_ite {p : Prop} [Decidable p] {a b : Host.Outcome State Fault Refusal} (ha : Answers a) (hb : Answers b) :
    Answers (if p then a else b) := by
  split
  · exact ha
  · exact hb

/-- A meaning of one test. -/
theorem answers_test {p : Prop} [Decidable p] (a b : State) : Answers (if p then .next a else .next b) :=
  answers_ite (answers_next a) (answers_next b)

theorem execStartSceneCommit_answers (s : State) : Answers (execStartSceneCommit s) := by
  unfold execStartSceneCommit
  dsimp only
  split
  · exact answers_next _
  · split
    · exact answers_next _
    · split <;> exact answers_next _

theorem execSceneSaveDone_answers (s : State) : Answers (execSceneSaveDone s) := by
  unfold execSceneSaveDone
  split
  · exact answers_next _
  · dsimp only
    split <;> exact answers_next _

/-- Every command: most meanings are a next state or one test between two; the others branch further. -/
theorem exec_answers (i : Instr) (s : State) : Answers (exec i s) := by
  cases i with
  | standbySetLost | enterRun | runTimeout | zcStep | zcTimeout | zcRampEnd | nodeGroupZeroCrossing | nodeGroupTimeout | nodeRampEnd |
  tapHandoverSwitch | nop | add | sub | neg | abs | andOp | orOp | xorOp | notOp | asl | asr | lsr | minOp | maxOp | cmp | tst | clr |
  rnd | sat | mac | msu | mpy | move | loadStore | aguOperation | shortImmediate | longImmediate | branch | call | ret | endTask | rep
  | loop | endl | lpush | lpop | log2 | exp2 | recip | rsqrt | maintRequest | maintStatus | decsync | ckuSteer | ckuCalibrate |
  reassemblyTimeout | authBlockExpiry | sessionClose | pcieLinkReset | ping | summary | partitionClaim | partitionRelease | stageOpen |
  stageAdd | stageRow | stageColumn | stageRect | stageFill | stageRemove | stageCosign | stageCancel | stageDiscard | stageReport |
  pan | sceneSave | sceneRecall | sceneList | sceneDelete | cueLoad | cueArm | cueDisarm | cueRead | paramRead | matrixRead |
  latencyRead | counterRead | meterSubscribe | streamSdp | eventRead | eventAck | eventMask | eventDetail | phcSet | mccAlign |
  moduleLoad | moduleList | fwWrite | fwSwitch | twinSwap | credProvision | lifecycleSet | keyInfo | unknownCommand | mbxReqWrite |
  mbxEvrWrite | evStatClear | mccLoRead | genLoRead | registerWrite | spiRegisterWrite | spiRegisterRead | spiMailboxWrite |
  spiMailboxRead | qosPromotion | masterResetDrain | mstoreScrubPass | amclkStopRelease | twinPathDown | twinHandover | legacyWrite |
  legacyRead | legacyBurstWrite | legacyBurstRead | legacyParamWrite | load | softReset | legacyRateWrite | legacyStatusClear |
  tamperSourceCleared | processingPllLossOfLock =>
    exact answers_next _
  | powerOnStandbySet | mainRailsInRange | mainRailOutOfRange | resetNLow | dramTrainingDone | twinImageReceived | twinImageSend |
  enterQuiet | twinFirstRoleTimeout | stbyNLowHeld | enterStandby | profileReconfigDone | frameTick | patchRevert | xfadeEnd |
  nodeCorrected | nodeRestored | mereScrubPass | cfBankWrite | springSourceHandover | springOutputHandover | springSourceClockLoss |
  springOutputClockReturn | springUnitRetire | dispatchInterrupt | dispatchReturn | serviceInterrupt | taskOverrun | illegalInstruction
  | tarnScrubPass | ccRollback | ccCheckpoint | ccRestart | ccWatchdogExpiry | sapClockStop | hspInsertion | hspPlug | hspButtonDown |
  hspButtonRelease | hspUnplug | hspMicGainStep | srcLock | srcUnlock | netLinkDown | netLinkUp | phcTimerPulse | phcCapture |
  mccRenumber | mccUnaligned | mccRealigned | streamPacketTransmit | streamTxStopDone | streamRxRelease | refLost | refEvaluation |
  ckuLock | ckuBwStep | ckuUnlock | ckuGlide | ckuFreerun | clkoutFreqChange | stageCheck | commit | meterPeriodEnd | tamperTrip |
  sbWiped | poolScrubPass | dramPatrolPass | mstoreCorrected | eventCountPublish | crossingResetIndication | peerAliveStopped |
  leaseRenewal | leaseAck | leaseFence | leaseGuardExpiry | twinHeartbeat | inputRecord | inputRecordMissing | edgeOffsetExceeded |
  twinForward | nonconvStateCopy | joinLimitExpiry | inputRecordClose =>
    exact answers_test _ _
  | resetNRise | pcieImageChunk | commitApplied | mereSegmentDetection | springPeriod | droopReport | throttleStep | tempWarn |
  madiStop | decsyncPinEdge =>
    exact answers_ite (answers_next _) (answers_test _ _)
  | imageHeaderRead header =>
    show Answers (execImageHeaderRead header s)
    fun_cases execImageHeaderRead <;> exact answers_next _
  | imageSectionsRead sections =>
    show Answers (execImageSectionsRead sections s)
    fun_cases execImageSectionsRead <;> exact answers_next _
  | startSceneCommit => exact execStartSceneCommit_answers s
  | stbyNHighWake straps =>
    show Answers (execStbyNHighWake straps s)
    fun_cases execStbyNHighWake <;> exact answers_next _
  | pdSwitchDone d =>
    show Answers (execPdSwitchDone d s)
    fun_cases execPdSwitchDone <;> exact answers_next _
  | checkDone =>
    show Answers (execCheckDone s)
    fun_cases execCheckDone <;> exact answers_next _
  | planeReady =>
    show Answers (execPlaneReady s)
    fun_cases execPlaneReady <;> exact answers_next _
  | commitScheduled id =>
    show Answers (execCommitScheduled id s)
    fun_cases execCommitScheduled <;> exact answers_next _
  | cueFired list =>
    show Answers (execCueFired list s)
    fun_cases execCueFired <;> exact answers_next _
  | sceneSaveDone => exact execSceneSaveDone_answers s
  | sceneReadDone id =>
    show Answers (execSceneReadDone id s)
    fun_cases execSceneReadDone <;> exact answers_next _
  | tarnDetection e cause addr again fits =>
    show Answers (execTarnDetection e cause addr again fits s)
    fun_cases execTarnDetection <;> exact answers_next _
  | tarnRetire e =>
    show Answers (execTarnRetire e s)
    fun_cases execTarnRetire <;> exact answers_next _
  | spareSelfTestPass ok =>
    show Answers (execSpareSelfTestPass ok s)
    fun_cases execSpareSelfTestPass <;> exact answers_next _
  | poisonedBlockRead buffer key index =>
    show Answers (execPoisonedBlockRead buffer key index s)
    fun_cases execPoisonedBlockRead <;> exact answers_next _
  | ccRestartDone =>
    show Answers (execCcRestartDone s)
    fun_cases execCcRestartDone <;> exact answers_next _
  | maintGrant =>
    show Answers (execMaintGrant s)
    fun_cases execMaintGrant <;> exact answers_next _
  | maintActivityEnd ok =>
    show Answers (execMaintActivityEnd ok s)
    fun_cases execMaintActivityEnd <;> exact answers_next _
  | sapFrame port tx words phase period bclks =>
    show Answers (execSapFrame port tx words phase period bclks s)
    fun_cases execSapFrame <;> exact answers_next _
  | sapRateMeasured port tx period bclks =>
    show Answers (execSapRateMeasured port tx period bclks s)
    fun_cases execSapRateMeasured <;> exact answers_next _
  | sapStopDone port tx =>
    show Answers (execSapStopDone port tx s)
    fun_cases execSapStopDone <;> exact answers_next _
  | sapMaskShadowWrite port tx =>
    show Answers (execSapMaskShadowWrite port tx s)
    fun_cases execSapMaskShadowWrite <;> exact answers_next _
  | sapLayout port tx =>
    show Answers (execSapLayout port tx s)
    fun_cases execSapLayout <;> exact answers_next _
  | madiFrame port tx subframes violations period =>
    show Answers (execMadiFrame port tx subframes violations period s)
    fun_cases execMadiFrame <;> exact answers_next _
  | madiLock port period =>
    show Answers (execMadiLock port period s)
    fun_cases execMadiLock <;> exact answers_next _
  | hspButtonPress mv =>
    show Answers (execHspButtonPress mv s)
    fun_cases execHspButtonPress <;> exact answers_next _
  | hspButtonRepeat =>
    show Answers (execHspButtonRepeat s)
    fun_cases execHspButtonRepeat <;> exact answers_next _
  | decInputSwitch i =>
    show Answers (execDecInputSwitch i s)
    fun_cases execDecInputSwitch <;> exact answers_next _
  | decSilenceEnd i =>
    show Answers (execDecSilenceEnd i s)
    fun_cases execDecSilenceEnd <;> exact answers_next _
  | decsyncFadeStart =>
    show Answers (execDecsyncFadeStart s)
    fun_cases execDecsyncFadeStart <;> exact answers_next _
  | decsyncReset =>
    show Answers (execDecsyncReset s)
    fun_cases execDecsyncReset <;> exact answers_next _
  | decsyncHoldEnd =>
    show Answers (execDecsyncHoldEnd s)
    fun_cases execDecsyncHoldEnd <;> exact answers_next _
  | netFrameReceive n f stamp =>
    show Answers (execNetFrameReceive n f stamp s)
    fun_cases execNetFrameReceive <;> exact answers_next _
  | ptpOffsetMeasurement offset leader =>
    show Answers (execPtpOffsetMeasurement offset leader s)
    fun_cases execPtpOffsetMeasurement <;> exact answers_next _
  | announceTimeout =>
    show Answers (execAnnounceTimeout s)
    fun_cases execAnnounceTimeout <;> exact answers_next _
  | streamPacketReceive i leg seq ts ns payload =>
    show Answers (execStreamPacketReceive i leg seq ts ns payload s)
    fun_cases execStreamPacketReceive <;> exact answers_next _
  | streamLegMiss i leg seq =>
    show Answers (execStreamLegMiss i leg seq s)
    fun_cases execStreamLegMiss <;> exact answers_next _
  | ref4SlewDone edge =>
    show Answers (execRef4SlewDone edge s)
    fun_cases execRef4SlewDone <;> exact answers_next _
  | ckuCalDone value =>
    show Answers (execCkuCalDone value s)
    fun_cases execCkuCalDone <;> exact answers_next _
  | vcpFragment o bytes =>
    show Answers (execVcpFragment o bytes s)
    fun_cases execVcpFragment <;> exact answers_next _
  | sessionOpen o seq cred role options nonce keepalive =>
    show Answers (execSessionOpen o seq cred role options nonce keepalive s)
    fun_cases execSessionOpen <;> exact answers_next _
  | keepaliveExpiry sid =>
    show Answers (execKeepaliveExpiry sid s)
    fun_cases execKeepaliveExpiry <;> exact answers_next _
  | deliveryIntervalEnd sid =>
    show Answers (execDeliveryIntervalEnd sid s)
    fun_cases execDeliveryIntervalEnd <;> exact answers_next _
  | secVersionFloorRaise =>
    show Answers (execSecVersionFloorRaise s)
    fun_cases execSecVersionFloorRaise <;> exact answers_next _
  | mbxReply c =>
    show Answers (execMbxReply c s)
    fun_cases execMbxReply <;> exact answers_next _
  | fabricGrant target cycle arrivals =>
    show Answers (execFabricGrant target cycle arrivals s)
    fun_cases execFabricGrant <;> exact answers_next _
  | crossingClockStopped x far =>
    show Answers (execCrossingClockStopped x far s)
    fun_cases execCrossingClockStopped <;> exact answers_next _
  | resetGroupRequest g =>
    show Answers (execResetGroupRequest g s)
    fun_cases execResetGroupRequest <;> exact answers_next _
  | twinSwapAtH =>
    show Answers (execTwinSwapAtH s)
    fun_cases execTwinSwapAtH <;> exact answers_next _
  | resyncStepDone peer seed =>
    show Answers (execResyncStepDone peer seed s)
    fun_cases execResyncStepDone <;> exact answers_next _
  | loadLatch =>
    show Answers (execLoadLatch s)
    fun_cases execLoadLatch <;> exact answers_next _

/-- Settles O60: a command's meaning ends every branch in a next state. -/
theorem noCommandStops : Obligations.NoCommandStops := by
  unfold Obligations.NoCommandStops
  exact exec_answers

end Sys2Proof.Machine
end

section
/-! PROOFS. One instruction on a Tarn engine (spec/06): what the issue of an instruction, the next address and the cycle count leave of the
registers and memories, and what the command leaves of the state; the rules that the statements on engines rest on. -/

namespace Sys2Proof.Machine

open Fmt

namespace Tarn

/-! ### Banks (R160) -/

@[simp] theorem bank_setBank (e : Engine) (b : Bank) : bank (setBank e b) = b := by
  unfold setBank bank
  split <;> simp [*]

theorem setBank_bank (e : Engine) : setBank e (bank e) = e := by
  unfold setBank bank
  split <;> rfl

@[simp] theorem setBank_fields (e : Engine) (b : Bank) :
    (setBank e b).pMem = e.pMem ∧ (setBank e b).xMem = e.xMem ∧ (setBank e b).yMem = e.yMem ∧ (setBank e b).inTask = e.inTask ∧
    (setBank e b).pc = e.pc ∧ (setBank e b).loops = e.loops ∧ (setBank e b).view = e.view ∧ (setBank e b).lpend = e.lpend ∧
    (setBank e b).cache = e.cache ∧ (setBank e b).rep = e.rep ∧ (setBank e b).slots = e.slots ∧ (setBank e b).cur = e.cur := by
  unfold setBank
  split <;> simp

theorem rdD_wrD (b : Bank) (i j : Nat) (v : W48) (hj : j < 8) : rdD (wrD b i v) j = if j = i then v else rdD b j := by
  unfold rdD wrD
  rw [Vector.getElem?_setIfInBounds]
  by_cases h : i = j
  · subst h
    simp [hj]
  · simp [h, Ne.symm h]

theorem rdAcc_wrAcc (b : Bank) (i j : Nat) (v : W80) (hj : j < 4) : rdAcc (wrAcc b i v) j = if j = i then v else rdAcc b j := by
  unfold rdAcc wrAcc
  rw [Vector.getElem?_setIfInBounds]
  by_cases h : i = j
  · subst h
    simp [hj]
  · simp [h, Ne.symm h]

theorem rdA_wrA (b : Bank) (i j : Nat) (v : BitVec 15) (hj : j < 8) : rdA (wrA b i v) j = if j = i then v else rdA b j := by
  unfold rdA wrA
  rw [Vector.getElem?_setIfInBounds]
  by_cases h : i = j
  · subst h
    simp [hj]
  · simp [h, Ne.symm h]

/-! ### What an instruction's result is read from -/

/-- Engine z has the registers of y, but for its control stack, and the memories of y. -/
structure Keeps (y z : Engine) : Prop where
  d   : (bank z).d = (bank y).d
  acc : (bank z).acc = (bank y).acc
  a   : (bank z).a = (bank y).a
  m   : (bank z).m = (bank y).m
  b   : (bank z).b = (bank y).b
  l   : (bank z).l = (bank y).l
  sr  : (bank z).sr = (bank y).sr
  p   : z.pMem = y.pMem
  x   : z.xMem = y.xMem
  y   : z.yMem = y.yMem

theorem Keeps.of_bank {y z : Engine} (hb : bank z = bank y) (hp : z.pMem = y.pMem) (hx : z.xMem = y.xMem) (hy : z.yMem = y.yMem) :
    Keeps y z := by
  constructor <;> simp [*]

theorem Keeps.trans {w y z : Engine} (h : Keeps w y) (k : Keeps y z) : Keeps w z := by
  constructor <;> simp [h.1, h.2, h.3, h.4, h.5, h.6, h.7, h.8, h.9, h.10, k.1, k.2, k.3, k.4, k.5, k.6, k.7, k.8, k.9, k.10]

theorem Keeps.rdD {y z : Engine} (h : Keeps y z) (i : Nat) : Tarn.rdD (bank z) i = Tarn.rdD (bank y) i := by
  simp only [Tarn.rdD, h.d]

theorem Keeps.rdAcc {y z : Engine} (h : Keeps y z) (i : Nat) : Tarn.rdAcc (bank z) i = Tarn.rdAcc (bank y) i := by
  simp only [Tarn.rdAcc, h.acc]

theorem Keeps.rdA {y z : Engine} (h : Keeps y z) (i : Nat) : Tarn.rdA (bank z) i = Tarn.rdA (bank y) i := by
  simp only [Tarn.rdA, h.a]

/-! ### The cycle count (R173, R192) -/

/-- Charging cycles changes the running task's count and nothing else. -/
theorem charge_eq (x : Engine) (w cyc : Nat) : ∃ n, charge x w cyc = { x with cur := x.cur.map (fun t => { t with cycles := n }) } := by
  unfold charge
  cases h : x.cur with
  | none => exact ⟨0, by conv_rhs => rw [Option.map_none, ← h]⟩
  | some t => exact ⟨_, rfl⟩

section
variable (x : Engine) (w cyc : Nat)

@[simp] theorem charge_fields :
    (charge x w cyc).pMem = x.pMem ∧ (charge x w cyc).xMem = x.xMem ∧ (charge x w cyc).yMem = x.yMem ∧ (charge x w cyc).pc = x.pc ∧
    (charge x w cyc).loops = x.loops ∧ (charge x w cyc).view = x.view ∧ (charge x w cyc).lpend = x.lpend ∧ (charge x w cyc).rep = x.rep ∧
    (charge x w cyc).slots = x.slots ∧ (charge x w cyc).cur.isSome = x.cur.isSome := by
  obtain ⟨n, h⟩ := charge_eq x w cyc
  simp [h]

@[simp] theorem bank_charge : bank (charge x w cyc) = bank x := by
  obtain ⟨n, h⟩ := charge_eq x w cyc
  rw [h]
  rfl

@[simp] theorem accSeen_charge (i : Nat) : accSeen (charge x w cyc) i = accSeen x i := by
  obtain ⟨n, h⟩ := charge_eq x w cyc
  rw [h]
  rfl

@[simp] theorem aguSeen_charge (kind i : Nat) : aguSeen (charge x w cyc) kind i = aguSeen x kind i := by
  obtain ⟨n, h⟩ := charge_eq x w cyc
  rw [h]
  rfl

@[simp] theorem allowed_charge (sp : Bool) (a : Nat) (wr : Bool) : allowed (charge x w cyc) sp a wr = allowed x sp a wr := by
  obtain ⟨n, h⟩ := charge_eq x w cyc
  rw [h]
  unfold allowed
  cases x.cur <;> rfl

@[simp] theorem inCode_charge (t : Nat) : inCode (charge x w cyc) t = inCode x t := by
  obtain ⟨n, h⟩ := charge_eq x w cyc
  rw [h]
  unfold inCode
  cases x.cur <;> rfl

@[simp] theorem address_charge (an mode addr : Nat) (long : Bool) : address (charge x w cyc) an mode addr long = address x an mode addr long := by
  simp only [address, aguSeen_charge]

end

/-- Windows are those of the running task. -/
theorem allowed_congr {y z : Engine} (h : z.cur = y.cur) (sp : Bool) (a : Nat) (wr : Bool) : allowed z sp a wr = allowed y sp a wr := by
  unfold allowed
  rw [h]

/-- Forgetting the hazards (R184) leaves every other field. -/
@[simp] theorem clearHaz_fields (x : Engine) :
    (clearHaz x).pMem = x.pMem ∧ (clearHaz x).xMem = x.xMem ∧ (clearHaz x).yMem = x.yMem ∧ (clearHaz x).pc = x.pc ∧
    (clearHaz x).loops = x.loops ∧ (clearHaz x).view = x.view ∧ (clearHaz x).lpend = x.lpend ∧ (clearHaz x).rep = x.rep ∧
    (clearHaz x).slots = x.slots ∧ (clearHaz x).cur = x.cur ∧ bank (clearHaz x) = bank x :=
  ⟨rfl, rfl, rfl, rfl, rfl, rfl, rfl, rfl, rfl, rfl, rfl⟩

/-! ### The next address (R178–R180, R184, R185) -/

theorem ageLoops_eq (e : Engine) : ∃ v p, ageLoops e = { e with view := v, lpend := p } := ⟨_, _, rfl⟩

/-- With no write to a loop register on its way, the loop tests see what they saw. -/
theorem ageLoops_settled {e : Engine} (h : e.lpend = []) : ageLoops e = e := by
  cases e
  subst h
  rfl

theorem loopTest_eq (e : Engine) (pc w : Nat) :
    ∃ v l c p, (loopTest e pc w).1 = { e with view := v, loops := l, cache := c, lpend := p } := by
  unfold loopTest
  split
  · split_ifs <;> exact ⟨_, _, _, _, rfl⟩
  · exact ⟨_, _, _, _, rfl⟩

/-- No level ends here, or the level that does counts no passes: the test changes nothing. -/
theorem loopTest_still {e : Engine} {pc w : Nat} (h : ∀ t ∈ e.view.head?, t.lc = 0#16 ∨ ¬ (pc ≤ t.le.toNat ∧ t.le.toNat < pc + w)) :
    loopTest e pc w = (e, pc + w) := by
  unfold loopTest
  split
  next t vr l lr hv hl =>
    rw [hv] at h
    rcases h t rfl with h0 | ho
    · rw [h0]
      simp
    · rw [if_neg ho]
  · rfl

/-- Outside delay slots the next address is the loop test's. -/
theorem advance_sequential {e : Engine} (pc w : Nat) (h : e.slots = none) :
    ∃ v l c p n, advance e pc w = { e with view := v, loops := l, cache := c, lpend := p, pc := n } := by
  unfold advance
  obtain ⟨v, p, ha⟩ := ageLoops_eq e
  obtain ⟨v', l, c, p', hl⟩ := loopTest_eq (ageLoops e) pc w
  have hs : (ageLoops e).slots = none := h
  simp only [hs, hl]
  exact ⟨_, _, _, _, _, by rw [ha, ← h]⟩

theorem ageLoops_view_nil {e : Engine} (h : e.view = []) : (ageLoops e).view = [] := by
  unfold ageLoops
  rw [h]
  refine List.foldlRecOn (motive := fun v => v = []) _ _ rfl (fun v hv q _ => ?_)
  subst hv
  rw [if_neg (by simp)]

/-- Outside loops and delay slots the next address follows the words. -/
theorem advance_pc {e : Engine} (pc w : Nat) (hs : e.slots = none) (hv : e.view = []) : (advance e pc w).pc = pc + w := by
  have hs' : (ageLoops e).slots = none := hs
  have ht : loopTest (ageLoops e) pc w = (ageLoops e, pc + w) := loopTest_still (by simp [ageLoops_view_nil hv])
  simp only [advance, hs', ht]

/-- Going to the next address changes no register but the control stack, and no memory. -/
theorem advance_keeps (e : Engine) (pc w : Nat) : Keeps e (advance e pc w) := by
  obtain ⟨v, p, ha⟩ := ageLoops_eq e
  obtain ⟨v', l, c, p', hl⟩ := loopTest_eq (ageLoops e) pc w
  unfold advance
  dsimp only
  split
  · rw [hl, ha]
    exact Keeps.of_bank rfl rfl rfl rfl
  · rw [hl, ha]
    exact Keeps.of_bank rfl rfl rfl rfl
  · rw [ha]
    split_ifs
    · exact Keeps.of_bank rfl rfl rfl rfl
    · split
      · exact Keeps.of_bank rfl rfl rfl rfl
      · constructor <;> simp only [bank_setBank, setBank_fields] <;> rfl
      · exact Keeps.of_bank rfl rfl rfl rfl

/-! ### Issue (R177, R192) -/

theorem times_one {f : Engine → Res} {y : Engine} {o : Out} (h : f y = some o) : times f 1 y = some o := by
  simp [times, h]

/-- Where a running task has the cycles that any one instruction takes, or has executed END, one repetition has room. -/
theorem room_one {x : Engine} (w : Nat) (h : ending x = true ∨ ∀ t ∈ x.cur, t.cycles + 7 ≤ t.cost) : room x w 1 1 = 1 := by
  unfold room
  split
  · rfl
  next t ht =>
    split
    · rfl
    next he =>
      have hc := (h.resolve_left he) t ht
      have hp : penalty x w ≤ 1 := Laws.Words.b2n_le _
      omega

end Tarn

/-! ### The engine that issues -/

section
variable {s : State} {e : Nat} {x : Engine} (h : s.canRun e x)
include h

/-- The engine that issues outside a REP runs the effect once and goes to the next address. -/
theorem State.canRun.issue {w : Nat} {cls : Tarn.Cls} {f : Engine → Tarn.Res} {o : Tarn.Out} (hs : cls = .branch ∨ cls = .loop → x.slots = none)
    (hf : f (Tarn.charge x w 1) = some o) :
    Tarn.issue (s.eng e) w 1 cls f = some { o with e := Tarn.advance { o.e with rep := if cls = .loop then o.e.rep else none } x.pc w } := by
  obtain ⟨-, -, -, rfl, hr, hc⟩ := h
  have hm := Tarn.room_one w hc
  have hns : ¬ ((Tarn.ready (s.eng e)).slots.isSome = true ∧ (cls = .branch ∨ cls = .loop)) := fun ⟨h1, h2⟩ => by simp [hs h2] at h1
  simp only [Tarn.issue, hr, hns, Option.isSome_none, Bool.false_eq_true, false_and, or_self, if_false, Option.getD_none, hm, Nat.mul_one,
    Tarn.times_one hf, if_true]

/-- Outside delay slots and a REP an instruction of class 0x8 takes effect, and the delay slots begin. -/
theorem State.canRun.issueBranch {f : Engine → Option (Engine × After)} {r : Engine × After} (hs : x.slots = none)
    (hf : f (Tarn.charge (Tarn.clearHaz x) 1 1) = some r) :
    Tarn.issueBranch (s.eng e) f = some { e := Tarn.afterBranch r.1 x.pc r.2, oob := [] } := by
  obtain ⟨-, -, -, rfl, hr, -⟩ := h
  simp [Tarn.issueBranch, hr, hs, hf]

theorem State.canRun.issueBranch_none {f : Engine → Option (Engine × After)} (hs : x.slots = none)
    (hf : f (Tarn.charge (Tarn.clearHaz x) 1 1) = none) : Tarn.issueBranch (s.eng e) f = none := by
  obtain ⟨-, -, -, rfl, hr, -⟩ := h
  simp [Tarn.issueBranch, hr, hs, hf]

theorem State.canRun.issueLoop {f : Engine → Option (Engine × Option Nat)} {r : Engine × Option Nat} (hs : x.slots = none)
    (hf : f (Tarn.charge (Tarn.clearHaz x) 1 1) = some r) :
    Tarn.issueLoop (s.eng e) f = some { e := { (Tarn.ageLoops r.1) with pc := r.2.getD (x.pc + 1) }, oob := [] } := by
  obtain ⟨-, -, -, rfl, hr, -⟩ := h
  obtain ⟨y, n⟩ := r
  cases n <;> simp [Tarn.issueLoop, hr, hs, hf]

end

/-! ### The state around the engine -/

theorem State.setEng_frame (s : State) (e : Nat) (x : Engine) : s.frame (s.setEng e x) [.tarn] := s.setTarn_frame _ (by simp)

@[simp] theorem State.setEng_eng (s : State) {e : Nat} (x : Engine) (he : e < 17) : (s.setEng e x).eng e = x := by
  rw [State.eng_setEng s e e x he, if_pos rfl]

theorem State.setEng_onEngine (s : State) {e : Nat} (x : Engine) (he : e < 17) : s.onEngine (s.setEng e x) e :=
  ⟨s.setEng_frame e x, fun j hj => by rw [State.eng_setEng s e j x he, if_neg hj], rfl, rfl⟩

/-- A change of an engine that an event with a detail entry tells. -/
theorem State.setEng_toldD (s : State) {e : Nat} (x : Engine) (he : e < 17) (ev : Ev) (part obj : Nat) (c : List Nat) :
    ((s.setEng e x).raiseD ev part obj c).eng e = x ∧ s.toldD ((s.setEng e x).raiseD ev part obj c) ev part obj c ∧
      (∀ j, j ≠ e → ((s.setEng e x).raiseD ev part obj c).eng j = s.eng j) ∧
      s.frame ((s.setEng e x).raiseD ev part obj c) [.tarn, .ev, .sessions] := by
  have ht : ∀ j, ((s.setEng e x).raiseD ev part obj c).eng j = (s.setEng e x).eng j := fun j => by simp [State.eng]
  obtain ⟨hf, ho, -, -⟩ := s.setEng_onEngine x he
  exact ⟨(ht e).trans (s.setEng_eng x he), State.raiseD_told s _ ev part obj c rfl rfl rfl rfl, fun j hj => (ht j).trans (ho j hj),
    State.frame_trans hf (State.raiseD_frame _ ev part obj c)⟩

theorem State.bounds_frame (s : State) (e task : Nat) (l : List (Bool × Nat)) : s.frame (s.bounds e task l) [.ev, .sessions] :=
  State.frame_foldl (fun s _ => s.raiseD_frame _ _ _ _) l s

/-- An instruction that issues: the state with the engine its effect leaves, its waiting requests served, and its bounds violations told. -/
theorem State.canRun.runOn {s : State} {e : Nat} {x : Engine} (h : s.canRun e x) (pcOf : Engine → Nat) {f : Engine → Option Tarn.Out}
    {o : Tarn.Out} (hf : f (s.eng e) = some o) : s.runOn e pcOf f = (s.setEng e (s.serveCalls o.e)).bounds e x.task o.oob := by
  obtain ⟨he, ht, hi, rfl, -, -⟩ := h
  unfold State.runOn
  rw [if_neg (by simp [he, ht, hi]), hf]

/-- Serving requests leaves what an instruction works on. -/
@[simp] theorem State.serveCalls_fields (s : State) (x : Engine) :
    (s.serveCalls x).pMem = x.pMem ∧ (s.serveCalls x).xMem = x.xMem ∧ (s.serveCalls x).yMem = x.yMem ∧ (s.serveCalls x).pc = x.pc ∧
    (s.serveCalls x).loops = x.loops ∧ (s.serveCalls x).cache = x.cache ∧ (s.serveCalls x).rep = x.rep ∧ (s.serveCalls x).slots = x.slots ∧
    (s.serveCalls x).cur = x.cur ∧ (s.serveCalls x).inTask = x.inTask ∧ (s.serveCalls x).stub = x.stub ∧ (s.serveCalls x).bg = x.bg := by
  obtain ⟨n, d, l, h⟩ := s.serveCalls_eq x
  simp [h]

theorem State.serveCalls_keeps (s : State) (x : Engine) : Tarn.Keeps x (s.serveCalls x) := by
  apply Tarn.Keeps.of_bank <;> simp

section
variable {s : State} {e : Nat} {x : Engine} (h : s.canRun e x) (pcOf : Engine → Nat) {f : Engine → Option Tarn.Out} {o : Tarn.Out}
  (hf : f (s.eng e) = some o)
include h hf

/-- The engine that an issued instruction leaves. -/
theorem State.canRun.runOn_eng : (s.runOn e pcOf f).eng e = s.serveCalls o.e := by
  obtain ⟨he, -⟩ := id h
  have ht := (s.setEng e (s.serveCalls o.e)).bounds_frame e x.task o.oob .tarn (by decide)
  rw [h.runOn pcOf hf]
  exact (congrArg (fun g : TarnG => g.engines[e]?.getD Engine.reset) ht).trans (s.setEng_eng _ he)

/-- What an issued instruction leaves alone: every other engine, and every other part of the state but the events that tell violations. -/
theorem State.canRun.runOn_frame : s.frame (s.runOn e pcOf f) [.tarn, .ev, .sessions] ∧ (∀ j, j ≠ e → (s.runOn e pcOf f).eng j = s.eng j) ∧
    (s.runOn e pcOf f).tarn.modules = s.tarn.modules ∧ (s.runOn e pcOf f).tarn.slots = s.tarn.slots := by
  obtain ⟨he, -⟩ := id h
  have hb := (s.setEng e (s.serveCalls o.e)).bounds_frame e x.task o.oob
  have ht : _ = _ := hb .tarn (by decide)
  obtain ⟨hfr, ho, hm, hl⟩ := s.setEng_onEngine (s.serveCalls o.e) he
  rw [h.runOn pcOf hf]
  refine ⟨State.frame_trans hfr hb, fun j hj => ?_, ?_, ?_⟩
  · exact (congrArg (fun g : TarnG => g.engines[j]?.getD Engine.reset) ht).trans (ho j hj)
  · exact (congrArg TarnG.modules ht).trans hm
  · exact (congrArg TarnG.slots ht).trans hl

/-- An issued instruction without a bounds violation changes its engine only. -/
theorem State.canRun.runOn_onEngine (ho : o.oob = []) : s.onEngine (s.runOn e pcOf f) e := by
  rw [h.runOn pcOf hf, ho]
  exact s.setEng_onEngine _ h.1

end

end Sys2Proof.Machine
end

section
/-! PROOFS. Control flow of a Tarn engine (R174, R183, R185): what begins the delay slots, and what CALL and RET refuse; O26. -/

namespace Sys2Proof.Machine

namespace Tarn

/-- The delay slots begin; the branch not taken, outside loops, goes on like a taken one. -/
theorem afterBranch_eq (y : Engine) (pc : Nat) {a : After} (h : a = .fall → y.view = []) :
    ∃ v p, afterBranch y pc a = { y with view := v, lpend := p, slots := some (2, a), pc := pc + 1 } := by
  cases a with
  | fall =>
    have ht : loopTest (ageLoops y) pc 1 = (ageLoops y, pc + 1) := loopTest_still (by simp [ageLoops_view_nil (h rfl)])
    exact ⟨(ageLoops y).view, (ageLoops y).lpend, by simp only [afterBranch, ht]; rfl⟩
  | goto t => exact ⟨_, _, rfl⟩
  | call t => exact ⟨_, _, rfl⟩
  | endTask => exact ⟨_, _, rfl⟩

/-- An engine as an instruction of class 0x8 finds it: the hazards forgotten, a cycle charged. -/
def atBranch (x : Engine) : Engine := charge (clearHaz x) 1 1

/-- That engine with a control stack of its own. -/
def atBranchWith (x : Engine) (stack : List (BitVec 14)) : Engine := setBank (atBranch x) { bank x with cstk := stack }

@[simp] theorem atBranch_fields (x : Engine) :
    (atBranch x).xMem = x.xMem ∧ (atBranch x).yMem = x.yMem ∧ (atBranch x).pc = x.pc ∧ (atBranch x).loops = x.loops ∧
    (atBranch x).view = x.view ∧ (atBranch x).cur.isSome = x.cur.isSome := by
  simp [atBranch]

@[simp] theorem bank_atBranch (x : Engine) : bank (atBranch x) = bank x := bank_charge (clearHaz x) 1 1

@[simp] theorem inCode_atBranch (x : Engine) (t : Nat) : inCode (atBranch x) t = inCode x t :=
  inCode_charge (clearHaz x) 1 1 t

theorem atBranchWith_same (x : Engine) : atBranchWith x (bank x).cstk = atBranch x := by
  have hb : bank x = bank (atBranch x) := (bank_atBranch x).symm
  unfold atBranchWith
  rw [hb]
  exact setBank_bank _

section
variable {x : Engine} {c : Nat} {k : Bool} (hc : cond c (bank x).sr = some k)
include hc

theorem doBranch_eq {t : Nat} (ht : inCode x t = true) :
    doBranch c t (atBranch x) = some (atBranchWith x (bank x).cstk, if k then .goto t else .fall) := by
  simp [doBranch, hc, ht, atBranchWith_same]

theorem doCall_eq {t : Nat} (ht : inCode x t = true) (hd : (bank x).cstk.length < 8) : doCall c t (atBranch x) =
    some (atBranchWith x (if k then BitVec.ofNat 14 (x.pc + 3) :: (bank x).cstk else (bank x).cstk), if k then .call t else .fall) := by
  simp only [doCall, atBranch_fields, bank_atBranch, inCode_atBranch, hc, ht, not_true_eq_false, false_or, if_neg (Nat.not_le.2 hd)]
  cases k with
  | true => rfl
  | false => simp [atBranchWith_same]

theorem doRet_eq {a : BitVec 14} {rest : List (BitVec 14)} (hs : (bank x).cstk = a :: rest) :
    doRet c (atBranch x) = some (atBranchWith x (if k then rest else (bank x).cstk), if k then .goto a.toNat else .fall) := by
  simp only [doRet, bank_atBranch, hc, hs]
  cases k with
  | true => rfl
  | false => simp [← hs, atBranchWith_same]

theorem doEnd_eq : doEnd c (atBranch x) = some (atBranchWith x (bank x).cstk, if k then .endTask else .fall) := by
  simp [doEnd, hc, atBranchWith_same]

end

theorem doCall_full {x : Engine} (c t : Nat) (hd : 8 ≤ (bank x).cstk.length) : doCall c t (atBranch x) = none := by
  unfold doCall
  split
  · rfl
  · rw [bank_atBranch, if_pos (.inr hd)]

theorem doRet_empty {x : Engine} (c : Nat) (hs : (bank x).cstk = []) : doRet c (atBranch x) = none := by
  unfold doRet
  split
  · rfl
  · simp [hs]

end Tarn

/-- A command that takes effect after two delay slots: the engine is at the first of them, with the control stack given. -/
def State.goes (s : State) (e : Nat) (x : Engine) (i : Instr) (a : After) (stack : List (BitVec 14)) : Prop :=
  ∃ t, exec i s = .next t ∧ (t.eng e).slots = some (2, a) ∧ (t.eng e).pc = x.pc + 1 ∧
    Tarn.bank (t.eng e) = { Tarn.bank x with cstk := stack } ∧ (t.eng e).cur.isSome = x.cur.isSome ∧ (t.eng e).xMem = x.xMem ∧
    (t.eng e).yMem = x.yMem ∧ s.onEngine t e

section
variable {s : State} {e : Nat} {x : Engine} (h : s.canRun e x)
include h

/-- An instruction of class 0x8 that takes effect. -/
theorem State.canRun.flow_goes {i : Instr} {f : Engine → Option (Engine × After)} {a : After} {stack : List (BitVec 14)}
    (hi : exec i s = flow e (fun z => Tarn.issueBranch z f) s) (hs : x.slots = none)
    (hf : f (Tarn.atBranch x) = some (Tarn.atBranchWith x stack, a)) (ha : a = .fall → x.view = []) : s.goes e x i a stack := by
  have hr := h.issueBranch hs hf
  have he := fun pcOf => h.runOn_eng pcOf (f := fun z => Tarn.issueBranch z f) hr
  obtain ⟨v, p, hy⟩ := Tarn.afterBranch_eq (a := a) (Tarn.atBranchWith x stack) x.pc (fun hfall => by simp [Tarn.atBranchWith, ha hfall])
  refine ⟨_, hi, ?_, ?_, ?_, ?_, ?_, ?_, h.runOn_onEngine _ (f := fun z => Tarn.issueBranch z f) hr rfl⟩ <;>
    simp only [he, State.serveCalls_fields, State.serveCalls_bank, hy]
  · exact Tarn.bank_setBank _ _
  all_goals simp [Tarn.atBranchWith]

/-- An instruction that is illegal where a task runs it stops the task and is told (R174). -/
theorem State.canRun.illegal_told {k : Task} (hk : x.cur = some k) (pc : Nat) : (s.illegal e pc).eng e = { x with halt := some (.illegal, pc) } ∧
    s.toldD (s.illegal e pc) .tarnIllegal 0 e [e, k.inst, pc] ∧ (∀ j, j ≠ e → (s.illegal e pc).eng j = s.eng j) ∧
    s.frame (s.illegal e pc) [.tarn, .ev, .sessions] := by
  obtain ⟨he, -, -, rfl, -, -⟩ := h
  have ht : (Tarn.ready (s.eng e)).task = k.inst := by simp [Engine.task, hk]
  have hx := s.setEng_toldD { Tarn.ready (s.eng e) with halt := some (.illegal, pc) } he .tarnIllegal 0 e [e, k.inst, pc]
  simpa only [State.illegal, hk, Option.isSome_some, if_true, ht] using hx

/-- An instruction of class 0x8 that is illegal where a task runs it. -/
theorem State.canRun.flow_stops {f : Engine → Option (Engine × After)} {k : Task} (hs : x.slots = none) (hf : f (Tarn.atBranch x) = none)
    (hk : x.cur = some k) : ∃ t, flow e (fun z => Tarn.issueBranch z f) s = .next t ∧ t.eng e = { x with halt := some (.illegal, x.pc) } ∧
      s.toldD t .tarnIllegal 0 e [e, k.inst, x.pc] ∧ (∀ j, j ≠ e → t.eng j = s.eng j) ∧ s.frame t [.tarn, .ev, .sessions] := by
  have htold := h.illegal_told hk x.pc
  have hn := h.issueBranch_none hs hf
  obtain ⟨he, ht, hi, hx, hrep, -⟩ := h
  have hr := State.runOn_none s e (fun z => if z.rep.isSome then z.repAt else z.pc) (fun z => Tarn.issueBranch z f) he ht hi hn
  rw [← hx, hrep] at hr
  exact ⟨_, congrArg Host.Outcome.next hr, htold⟩

end

/-- Settles O26: each instruction by its effect, taken or not, and by what it refuses. -/
theorem controlFlowHasTwoDelaySlots : Obligations.ControlFlowHasTwoDelaySlots := by
  unfold Obligations.ControlFlowHasTwoDelaySlots
  intro s e c x h hs
  refine ⟨fun t ht => ⟨fun hc => ?_, fun ⟨hc, hv⟩ => ?_, fun hc hd => ?_, fun ⟨hc, hv⟩ hd => ?_⟩,
    fun a rest hr => ⟨fun hc => ?_, fun ⟨hc, hv⟩ => ?_⟩,
    fun hc => ?_, fun ⟨hc, hv⟩ => ?_, fun t hd k hk => ?_, fun hr k hk => ?_⟩
  · exact h.flow_goes rfl hs (Tarn.doBranch_eq hc ht) nofun
  · exact h.flow_goes rfl hs (Tarn.doBranch_eq hc ht) (fun _ => hv)
  · exact h.flow_goes rfl hs (Tarn.doCall_eq hc ht hd) nofun
  · exact h.flow_goes rfl hs (Tarn.doCall_eq hc ht hd) (fun _ => hv)
  · exact h.flow_goes rfl hs (Tarn.doRet_eq hc hr) nofun
  · exact h.flow_goes rfl hs (Tarn.doRet_eq hc hr) (fun _ => hv)
  · exact h.flow_goes rfl hs (Tarn.doEnd_eq hc) nofun
  · exact h.flow_goes rfl hs (Tarn.doEnd_eq hc) (fun _ => hv)
  · exact h.flow_stops hs (Tarn.doCall_full c t hd) hk
  · exact h.flow_stops hs (Tarn.doRet_empty c hr) hk

end Sys2Proof.Machine
end

section
/-! PROOFS. Repeats and loops of a Tarn engine (R177–R182, R192): what REP, LOOP, ENDL, LPUSH and LPOP leave, and an instruction repeated; O27. -/

namespace Sys2Proof.Machine

namespace Tarn

/-! ### An instruction after a REP (R177, R192) -/

theorem times_succ (f : Engine → Res) (k : Nat) (x : Engine) :
    times f (k + 1) x = (f x).bind (fun a => (times f k a.e).map (fun c => { c with oob := a.oob ++ c.oob })) := by
  rw [times]
  cases f x with
  | none => rfl
  | some a => cases h : times f k a.e <;> simp [h]

section
variable {x : Engine} {n : Nat} {f : Engine → Res} {o : Out} (hx : ready x = x) (hr : x.rep = some n)
include hx hr

/-- The instruction after a REP, taking effect as often as its task has cycles for. -/
theorem issue_repeated {m : Nat} (hm : room x 1 1 n = m) (ho : times f m (charge x 1 m) = some o) : issue x 1 1 .plain f =
    some (if m = n then { o with e := advance { o.e with rep := none } x.pc 1 } else { o with e := spend o.e (n - m) }) := by
  simp only [issue, hx, hr, reduceCtorEq, or_self, and_false, ne_eq, not_true_eq_false, if_false, Option.getD_some, hm, Nat.one_mul, ho]
  split <;> rfl

theorem issue_repeated_all (hm : room x 1 1 n = n) (ho : times f n (charge x 1 n) = some o) (hs : o.e.slots = none) :
    ∃ u, issue x 1 1 .plain f = some u ∧ bank u.e = bank o.e ∧ u.e.rep = none ∧ u.oob = o.oob := by
  obtain ⟨v, l, c, p, k, ha⟩ := advance_sequential (e := { o.e with rep := none }) x.pc 1 hs
  refine ⟨_, (issue_repeated hx hr hm ho).trans (congrArg some (if_pos rfl)), ?_, ?_, rfl⟩
  · rw [ha]
    rfl
  · rw [ha]

theorem issue_repeated_some {m : Nat} (hm : room x 1 1 n = m) (hlt : m < n) (ho : times f m (charge x 1 m) = some o)
    (hs : o.e.rep.isSome = true) : ∃ u, issue x 1 1 .plain f = some u ∧ bank u.e = bank o.e ∧ u.e.pc = o.e.pc ∧ u.e.rep = some (n - m) ∧
      (∀ k ∈ u.e.cur, k.cycles = k.cost) ∧ u.oob = o.oob := by
  refine ⟨_, (issue_repeated hx hr hm ho).trans (congrArg some (if_neg hlt.ne)), rfl, rfl, ?_, ?_, rfl⟩
  · simp [spend, hs]
  · intro k hk
    obtain ⟨t, -, rfl⟩ := Option.map_eq_some_iff.1 hk
    rfl

end

/-! ### The effects (R177–R181) -/

/-- Loop tests with no write on its way, at an instruction that ends no level that counts: only the address moves. -/
theorem advance_still {e : Engine} {pc w : Nat} (hs : e.slots = none) (hp : e.lpend = [])
    (hv : ∀ t ∈ e.view.head?, t.lc = 0#16 ∨ ¬ (pc ≤ t.le.toNat ∧ t.le.toNat < pc + w)) : advance e pc w = { e with pc := pc + w } := by
  simp only [advance, ageLoops_settled hp, hs, loopTest_still hv]

theorem doRep_imm {n : Nat} (z : Engine) (h1 : 1 ≤ n) (hn : n ≤ 4096) :
    doRep (.imm n) z = some { e := { clearHaz z with rep := some n, repAt := z.pc }, oob := [] } := by
  simp [doRep, countOf, h1, hn, Nat.not_lt.2 hn]

section
variable {z : Engine} {le : Nat} (hd : z.loops.length < 4) (hle : z.pc + 2 ≤ le) (ht : le < 16384)
include hd hle ht

theorem doLoop_imm {n : Nat} (h1 : 1 ≤ n) (hn : n ≤ 1024) :
    let l : Level := { lc := BitVec.ofNat 16 n, ls := BitVec.ofNat 14 (z.pc + 1), le := BitVec.ofNat 14 le }
    doLoop (.imm n) le z = some ({ setLoops (clearHaz z) (l :: z.loops) (l :: z.view) with
      cache := if le - z.pc ≤ 32 then some { base := z.pc + 1, len := le - z.pc, full := false, words := [] } else none }, none) := by
  have h0 : n ≠ 0 := Nat.one_le_iff_ne_zero.1 h1
  simp only [doLoop, h1, hn, hd, hle, ht, countOf, decide_true, Bool.and_self, and_self, if_true, h0, if_false]
  rfl

/-- A register count of 0 skips the body. -/
theorem doLoop_skip {d : Nat} (hd8 : d < 8) (h0 : (rdD (bank z) d).toNat % 65536 = 0) :
    doLoop (.reg d) le z = some ({ clearHaz z with cache := none }, some (le + 1)) := by
  simp [doLoop, countOf, hd8, h0, hd, hle, ht]

end

theorem doLpush_eq {z : Engine} (hd : z.loops.length < 4) : doLpush z =
    some { e := setLoops (clearHaz z) ({ lc := 0#16, ls := 0#14, le := 0#14 } :: z.loops) ({ lc := 0#16, ls := 0#14, le := 0#14 } :: z.view)
           oob := [] } := by
  simp [doLpush, hd]

theorem doPop_eq {z : Engine} {l : Level} {rest : List Level} (hl : z.loops = l :: rest) :
    doPop z = some { e := setLoops (clearHaz z) rest z.view.tail, oob := [] } := by
  simp [doPop, hl]

end Tarn

section
variable {s : State} {e : Nat} {x : Engine} (h : s.canRun e x) (hs : x.slots = none)
include h hs

theorem State.canRun.rep_arms {n : Nat} (h1 : 1 ≤ n) (hn : n ≤ 4096) : ∃ t, exec (.rep e (.imm n)) s = .next t ∧ (t.eng e).rep = some n ∧
    Tarn.bank (t.eng e) = Tarn.bank x ∧ s.onEngine t e := by
  have hi := h.issue (cls := .loop) (fun _ => hs) (Tarn.doRep_imm (Tarn.charge x 1 1) h1 hn)
  have he := fun pcOf => h.runOn_eng pcOf (f := fun z => Tarn.issue z 1 1 .loop (Tarn.doRep (.imm n))) hi
  obtain ⟨v, l, c, p, k, ha⟩ := Tarn.advance_sequential
    (e := { Tarn.clearHaz (Tarn.charge x 1 1) with rep := some n, repAt := (Tarn.charge x 1 1).pc }) x.pc 1 (by simpa using hs)
  simp only [if_true, ha] at he
  refine ⟨_, rfl, ?_, ?_, h.runOn_onEngine _ (f := fun z => Tarn.issue z 1 1 .loop (Tarn.doRep (.imm n))) hi rfl⟩
  · simp only [he, State.serveCalls_fields]
  · simp only [he, State.serveCalls_bank]
    exact Tarn.bank_charge x 1 1

/-- An instruction that changes the loop levels itself, where no level that counts ends at it. -/
theorem State.canRun.flow_levels {cls : Tarn.Cls} {f : Engine → Tarn.Res} {ls view : List Level} (hp : x.lpend = [])
    (hf : f (Tarn.charge x 1 1) = some { e := Tarn.setLoops (Tarn.clearHaz (Tarn.charge x 1 1)) ls view, oob := [] })
    (hv : ∀ t ∈ view.head?, t.lc = 0#16 ∨ t.le.toNat ≠ x.pc) : ∃ t, flow e (fun z => Tarn.issue z 1 1 cls f) s = .next t ∧
      (t.eng e).loops = ls ∧ (t.eng e).cache = none ∧ Tarn.bank (t.eng e) = Tarn.bank x ∧ s.onEngine t e := by
  have hi := h.issue (cls := cls) (fun _ => hs) hf
  have he := fun pcOf => h.runOn_eng pcOf (f := fun z => Tarn.issue z 1 1 cls f) hi
  have ha : ∀ r, Tarn.advance { Tarn.setLoops (Tarn.clearHaz (Tarn.charge x 1 1)) ls view with rep := r } x.pc 1 =
      { Tarn.setLoops (Tarn.clearHaz (Tarn.charge x 1 1)) ls view with rep := r, pc := x.pc + 1 } := fun r =>
    Tarn.advance_still (by simpa [Tarn.setLoops] using hs) (by simp [Tarn.setLoops, hp]) (fun t ht => (hv t ht).imp id (by omega))
  simp only [ha] at he
  refine ⟨_, rfl, ?_, ?_, ?_, h.runOn_onEngine _ (f := fun z => Tarn.issue z 1 1 cls f) hi rfl⟩
  all_goals simp only [he, State.serveCalls_fields, State.serveCalls_bank]
  · rfl
  · rfl
  · exact Tarn.bank_charge x 1 1

/-- A LOOP that takes effect: the levels and the cache of its effect, at the address it goes to. -/
theorem State.canRun.flow_loop {f : Engine → Option (Engine × Option Nat)} {y : Engine} {n : Option Nat} (hf : f (Tarn.atBranch x) = some (y, n))
    (hy : Tarn.bank y = Tarn.bank x) : ∃ t, flow e (fun z => Tarn.issueLoop z f) s = .next t ∧ (t.eng e).loops = y.loops ∧
      (t.eng e).pc = n.getD (x.pc + 1) ∧ (t.eng e).cache = y.cache ∧ Tarn.bank (t.eng e) = Tarn.bank x ∧ s.onEngine t e := by
  have hi := h.issueLoop hs hf
  have he := fun pcOf => h.runOn_eng pcOf (f := fun z => Tarn.issueLoop z f) hi
  refine ⟨_, rfl, ?_, ?_, ?_, ?_, h.runOn_onEngine _ (f := fun z => Tarn.issueLoop z f) hi rfl⟩
  all_goals simp only [he, State.serveCalls_fields, State.serveCalls_bank]
  · rfl
  · rfl
  · exact hy

end

/-- Settles O27: each instruction by the levels and the cache it leaves; a repeated one by the repetitions its task has cycles for. -/
theorem loopsAndRepeatsRun : Obligations.LoopsAndRepeatsRun := by
  unfold Obligations.LoopsAndRepeatsRun
  refine ⟨fun s e x h hs => ⟨fun n h1 hn => ?_, fun n le h1 hn hd hle ht => ?_, fun d le hd h0 hl hle ht => ?_, fun hd hp => ?_,
    fun l rest hl hp hv => ⟨?_, ?_⟩⟩, fun x n f hx hr => ⟨fun k => Tarn.times_succ f k x, fun o hm ho hs => Tarn.issue_repeated_all hx hr hm ho hs,
    fun o m hm hlt ho hs => Tarn.issue_repeated_some hx hr hm hlt ho hs⟩⟩
  · exact h.rep_arms hs h1 hn
  · obtain ⟨t, hx, hl, hpc, hc, hb, ho⟩ := h.flow_loop hs
      (Tarn.doLoop_imm (z := Tarn.atBranch x) (by simpa using hd) (by simpa using hle) ht h1 hn)
      (Tarn.bank_atBranch x)
    refine ⟨t, hx, ?_, hpc, hb, ?_, ho⟩
    · simpa [Tarn.setLoops] using hl
    · rw [hc]
      simp only [Tarn.atBranch_fields]
      split <;> simp [*]
  · obtain ⟨t, hx, hl, hpc, hc, hb, ho⟩ := h.flow_loop hs
      (Tarn.doLoop_skip (z := Tarn.atBranch x) (by simpa using hl) (by simpa using hle) ht hd (by simpa using h0))
      (Tarn.bank_atBranch x)
    exact ⟨t, hx, by simpa using hl, hpc, hc, hb, ho⟩
  · have hf := Tarn.doLpush_eq (z := Tarn.charge x 1 1) (by simpa using hd)
    simp only [Tarn.charge_fields] at hf
    exact h.flow_levels hs hp hf (by simp)
  · exact h.flow_levels hs hp (Tarn.doPop_eq (z := Tarn.charge x 1 1) (by simpa using hl)) (fun o ho => .inr (hv o (by simpa using ho)))
  · exact h.flow_levels hs hp (Tarn.doPop_eq (z := Tarn.charge x 1 1) (by simpa using hl)) (fun o ho => .inr (hv o (by simpa using ho)))

end Sys2Proof.Machine
end

section
/-! PROOFS. Interrupts and stops of a Tarn engine (R174, R186–R189, R192): the dispatch interrupt and its return, a service request where it may
be served or waits, the overrun and the word that no instruction has; O28. -/

namespace Sys2Proof.Machine

/-! ### A single service request (R186, R189) -/

/-- With no other request waiting, a request is served alone. -/
theorem State.serveCalls_single (s : State) {x : Engine} (hx : x.calls = []) (q : Call) :
    s.serveCalls { x with calls := x.calls ++ [q] } = s.serveCall x q := by
  cases x
  subst hx
  rfl

section
variable {s : State} {x : Engine}

theorem State.serveCall_resting (hr : x.resting = true) (q : Call) : s.serveCall x q = s.handled q.debug x := by
  simp [State.serveCall, hr]

/-- At a task boundary a mailbox request takes its cycles of the block's budget. -/
theorem State.serveCall_boundary (hr : x.resting = false) (hb : x.boundary = true) {c : Nat} (hs : x.service + c ≤ 960) :
    s.serveCall x { debug := false, cycles := c, late := false } = { x with service := x.service + c } := by
  simp [State.serveCall, hr, hb, hs, State.handled]

/-- Elsewhere a request waits behind those before it. -/
theorem State.serveCall_waits (hr : x.resting = false) (hb : x.boundary = false) (q : Call) :
    s.serveCall x q = { x with calls := x.calls ++ [q] } := by
  simp [State.serveCall, hr, hb]

/-- Debug halts a spare engine, or lets it go. -/
theorem State.handled_spare (hx : x.st = .spare) : s.handled true x = { x with debug := !x.debug } := by
  simp [State.handled, hx]

end

/-! ### The commands -/

section
variable {s : State} {e : Nat} (he : e < 17) (ht : s.tarnOn = true) (hst : (s.eng e).st ≠ .retired)
include he ht hst

theorem dispatchInterrupt_leaves (hd : (s.eng e).debug = false) (hi : (s.eng e).inTask = false) (hs : (s.eng e).slots = none)
    (hr : (s.eng e).rep = none) : ∃ t, exec (.dispatchInterrupt e) s = .next t ∧ (t.eng e).pc = 0x3F00 ∧ (t.eng e).saved = (s.eng e).pc ∧
      (t.eng e).stub = true ∧ (t.eng e).inTask = true ∧ (t.eng e).savedL = (s.eng e).loops ∧ (t.eng e).loops = [] ∧
      (t.eng e).bg = (s.eng e).bg ∧ s.onEngine t e := by
  have hx : exec (.dispatchInterrupt e) s = execDispatchInterrupt e s := rfl
  rw [hx, execDispatchInterrupt, if_pos ⟨he, ht, hst, by simp [hd], by simp [hi], hs, hr⟩]
  refine ⟨_, rfl, ?_⟩
  rw [s.setEng_eng _ he]
  exact ⟨rfl, rfl, rfl, rfl, rfl, rfl, rfl, s.setEng_onEngine _ he⟩

theorem dispatchReturn_leaves (hs : (s.eng e).stub = true) (hc : (s.eng e).cur = none) (hq : (s.eng e).queue = []) :
    ∃ t, exec (.dispatchReturn e) s = .next t ∧ (t.eng e).pc = (s.eng e).saved ∧ (t.eng e).loops = (s.eng e).savedL ∧
      (t.eng e).inTask = false ∧ (t.eng e).stub = false ∧ (t.eng e).bg = (s.eng e).bg ∧ s.onEngine t e := by
  have hx : exec (.dispatchReturn e) s = execDispatchReturn e s := rfl
  rw [hx, execDispatchReturn, if_pos ⟨he, ht, hst, hs, hc, hq⟩]
  refine ⟨_, rfl, ?_⟩
  rw [s.setEng_eng _ he]
  simp only [State.serveCalls_fields]
  exact ⟨trivial, trivial, trivial, trivial, trivial, s.setEng_onEngine _ he⟩

theorem taskOverrun_leaves {k : Task} (hh : (s.eng e).halt = none) (hk : (s.eng e).cur = some k) (hc : k.cost ≤ k.cycles)
    (hn : Tarn.ending (s.eng e) = false) : ∃ t, exec (.taskOverrun e) s = .next t ∧
      t.eng e = { s.eng e with halt := some (.overrun, (s.eng e).pc) } ∧ s.onEngine t e := by
  have hx : exec (.taskOverrun e) s = execTaskOverrun e s := rfl
  rw [hx, execTaskOverrun, if_pos ⟨he, ht, hst, hh, by simp [hk, hc], by simp [hn]⟩]
  exact ⟨_, rfl, s.setEng_eng _ he, s.setEng_onEngine _ he⟩

/-- A service request with no other waiting is served or waits, with a handler of at most 240 cycles. -/
theorem serviceInterrupt_serves (hc : (s.eng e).calls = []) (debug : Bool) : ∃ (t u : State) (c : Nat), c ≤ 240 ∧
    exec (.serviceInterrupt e debug) s = .next t ∧ t.eng e = u.serveCall (s.eng e) { debug := debug, cycles := c, late := false } ∧
    (∀ j, j ≠ e → t.eng j = s.eng j) ∧ t.tarn.modules = s.tarn.modules ∧ t.tarn.slots = s.tarn.slots ∧ s.frame t [.tarn, .draws] := by
  have hx : exec (.serviceInterrupt e debug) s = execServiceInterrupt e debug s := rfl
  have hd : s.frame s.draw.2 [.draws] := by simp [State.frame_iff, Part.same, State.draw]
  obtain ⟨hf, ho, hm, hl⟩ := s.draw.2.setEng_onEngine (s.draw.2.serveCalls { s.eng e with
    calls := (s.eng e).calls ++ [{ debug := debug, cycles := min 240 (Config.freeInt s.draw.1).natAbs, late := false }] }) he
  rw [hx, execServiceInterrupt, if_pos ⟨he, ht, hst⟩]
  refine ⟨_, s.draw.2, _, min_le_left 240 (Config.freeInt s.draw.1).natAbs, rfl, ?_, ho, hm, hl,
    State.frame_mono (State.frame_trans hd hf) (by decide)⟩
  exact (State.setEng_eng _ _ he).trans (State.serveCalls_single _ hc _)

end

theorem illegalInstruction_leaves {s : State} {e : Nat} {x : Engine} (h : s.canRun e x) {k : Task} (hk : x.cur = some k) :
    ∃ t, exec (.illegalInstruction e) s = .next t ∧ t.eng e = { x with halt := some (.illegal, x.pc) } ∧
      s.toldD t .tarnIllegal 0 e [e, k.inst, x.pc] ∧ (∀ j, j ≠ e → t.eng j = s.eng j) ∧ s.frame t [.tarn, .ev, .sessions] := by
  have htold := h.illegal_told hk x.pc
  obtain ⟨he, ht, hi, rfl, -, -⟩ := h
  exact ⟨_, if_pos ⟨he, ht, hi⟩, htold⟩

/-- Settles O28: each event by the engine it leaves; a service request by where the engine stands. -/
theorem engineInterruptsAndStops : Obligations.EngineInterruptsAndStops := by
  unfold Obligations.EngineInterruptsAndStops
  intro s e he ht hst
  refine ⟨dispatchInterrupt_leaves he ht hst, dispatchReturn_leaves he ht hst, fun hc debug => ?_,
    fun k hh hk hcost hn => taskOverrun_leaves he ht hst hh hk hcost hn, fun x k h hk => ?_⟩
  · obtain ⟨t, u, c, hc240, hx, heng, ho, hm, hl, hf⟩ := serviceInterrupt_serves he ht hst hc debug
    cases hi : (s.eng e).inTask with
    | false =>
      refine ⟨t, 0, by decide, hx, ho, hm, hl, hf, fun hdb _ _ hlo hs hr _ => ?_, fun hdb hsp _ hlo hs hr => ?_, nofun⟩
      all_goals
        subst hdb
        rw [heng, State.serveCall_resting (by simp [Engine.resting, hi, hlo, hs, hr])]
      · rfl
      · exact State.handled_spare hsp
    | true =>
      have hn : (s.eng e).resting = false := by simp [Engine.resting, hi]
      refine ⟨t, c, hc240, hx, ho, hm, hl, hf, fun hdb hst hcur hlo hs hr hb => ?_, nofun, fun _ hstub => ?_⟩
      · subst hdb
        rw [heng, State.serveCall_boundary hn (by simp [Engine.boundary, hst, hcur, hlo, hs, hr]) (by omega)]
      · rw [heng, State.serveCall_waits hn (by simp [Engine.boundary, hstub]), hc]
        rfl
  · exact illegalInstruction_leaves h hk

end Sys2Proof.Machine
end

section
/-! PROOFS. Loads, stores and parallel moves of a Tarn engine (R158, R171, R172): what each part of a move changes, and that an instruction part
with its moves leaves what `Tarn.MovesAfter` says. -/

namespace Sys2Proof.Machine

namespace Tarn

/-! ### Memories and windows (R157, R158) -/

/-- The memory of a space. -/
def memOf (e : Engine) (sp : Bool) : Mem := if sp then e.yMem else e.xMem

/-- Engines z and y agree on what no move writes. -/
structure SameRun (y z : Engine) : Prop where
  cur   : z.cur = y.cur
  slots : z.slots = y.slots
  view  : z.view = y.view
  p     : z.pMem = y.pMem

theorem SameRun.trans {w y z : Engine} (h : SameRun w y) (k : SameRun y z) : SameRun w z :=
  ⟨k.cur.trans h.cur, k.slots.trans h.slots, k.view.trans h.view, k.p.trans h.p⟩

section
variable (e : Engine) (sp : Bool) (a : Nat) (v : W48)

theorem store_bank : bank (store e sp a v).1 = bank e := by
  unfold store
  split_ifs <;> rfl

theorem store_same : SameRun e (store e sp a v).1 := by
  unfold store
  split_ifs <;> exact ⟨rfl, rfl, rfl, rfl⟩

theorem store_mem : memOf (store e sp a v).1 sp = if allowed e sp a true then Cells.put 0 (memOf e sp) a v.toNat else memOf e sp := by
  unfold store memOf
  cases sp <;> split_ifs <;> rfl

theorem store_other : memOf (store e sp a v).1 (!sp) = memOf e (!sp) := by
  unfold store
  by_cases h : allowed e sp a true = true
  · rw [if_pos h]
    cases sp <;> rfl
  · rw [if_neg h]

theorem store_oob : (store e sp a v).2 = if allowed e sp a true then [] else [(sp, a)] := by
  unfold store
  split_ifs <;> rfl

theorem load_oob : (load e sp a).2 = if allowed e sp a false then [] else [(sp, a)] := by
  unfold load
  split_ifs <;> rfl

end

/-- A violation sets SV and is told; no violation leaves everything. -/
theorem noteOob_nil (o : Out) : noteOob o [] = o := rfl

theorem noteOob_one (o : Out) (q : Bool × Nat) :
    noteOob o [q] = { e := setSr o.e (setFlag (bank o.e).sr bSV true), oob := o.oob ++ [q] } := rfl

theorem setFlag_twice (sr : Word) (i : Nat) : setFlag (setFlag sr i true) i true = setFlag sr i true := by
  simp only [setFlag, if_true, BitVec.or_assoc, BitVec.or_self]

theorem postMod_bank (e : Engine) (an : Nat) (v : Option (BitVec 15)) : bank (postMod e an v) = v.elim (bank e) (wrA (bank e) an) := by
  cases v with
  | none => rfl
  | some w => exact bank_setBank e _

theorem setBank_same (e : Engine) (b : Bank) : SameRun e (setBank e b) := ⟨by simp, by simp, by simp, by simp⟩

theorem setBank_mem (e : Engine) (b : Bank) (sp : Bool) : memOf (setBank e b) sp = memOf e sp := by simp [memOf]

theorem postMod_same (e : Engine) (an : Nat) (v : Option (BitVec 15)) : SameRun e (postMod e an v) := by
  cases v with
  | none => exact ⟨rfl, rfl, rfl, rfl⟩
  | some w => exact setBank_same e _

theorem postMod_mem (e : Engine) (an : Nat) (v : Option (BitVec 15)) (sp : Bool) : memOf (postMod e an v) sp = memOf e sp := by
  cases v with
  | none => rfl
  | some w => exact setBank_mem e _ sp

/-! ### One parallel move -/

/-- The address register after a move, none where its mode leaves it (R167, R168). -/
def postOf (x : Engine) (m : PMove) : Option (BitVec 15) := (address x m.an m.mode 0 false).bind (·.2)

/-- A short mode accesses the word that the address register names. -/
theorem address_short (x : Engine) {m : PMove} (hm : m.mode < 5) : address x m.an m.mode 0 false = some (moveAt x m, postOf x m) := by
  have h : ∃ p, address x m.an m.mode 0 false = some (moveAt x m, p) := by
    obtain ⟨store, reg, an, mode⟩ := m
    dsimp only at hm
    interval_cases mode <;> exact ⟨_, rfl⟩
  obtain ⟨p, hp⟩ := h
  rw [postOf, hp]
  rfl

/-- What a parallel move of space sp reads. -/
def readOf (x : Engine) (sp : Bool) (m : PMove) : MoveRd :=
  { m := m, y := sp, addr := moveAt x m, post := postOf x m, val := carried x sp m
    oob := if m.store then [] else (load x sp (moveAt x m)).2 }

theorem moveRead_eq (x : Engine) (sp : Bool) {m : PMove} (hm : m.mode < 5) : moveRead x sp m = some (readOf x sp m) := by
  simp only [moveRead, address_short x hm, readOf, carried]
  cases m.store <;> rfl

/-- The result of a part after a parallel move whose reads were taken in x. -/
def moved (x : Engine) (sp : Bool) (p : Option PMove) (o : Out) : Out := p.elim o (fun m => moveWrite o (readOf x sp m))

/-- Engine z is y after a parallel move of space sp whose reads were taken in x. -/
structure Moved (x : Engine) (sp : Bool) (p : Option PMove) (y z : Engine) : Prop where
  d     : ∀ i, i < 8 → rdD (bank z) i = if loadsReg p i then p.elim 0#48 (carried x sp) else rdD (bank y) i
  acc   : ∀ i, i < 4 → rdAcc (bank z) i = if loadsReg p (i + 8) then toAcc (p.elim 0#48 (carried x sp)) else rdAcc (bank y) i
  a     : ∀ i, i < 8 → rdA (bank z) i =
    p.elim (rdA (bank y) i) (fun m => if m.an = i then (postOf x m).getD (rdA (bank y) i) else rdA (bank y) i)
  m     : (bank z).m = (bank y).m
  b     : (bank z).b = (bank y).b
  l     : (bank z).l = (bank y).l
  sr    : (bank z).sr = if outside x sp p then setFlag (bank y).sr bSV true else (bank y).sr
  mem   : memOf y sp = memOf x sp → memOf z sp = afterMove x sp p
  other : memOf z (!sp) = memOf y (!sp)
  same  : SameRun y z

theorem moved_none (x : Engine) (sp : Bool) (y : Engine) : Moved x sp none y y where
  d _ _     := rfl
  acc _ _   := rfl
  a _ _     := rfl
  m         := rfl
  b         := rfl
  l         := rfl
  sr        := rfl
  mem h     := h
  other     := rfl
  same      := ⟨rfl, rfl, rfl, rfl⟩

theorem noteOob_oob (o : Out) (c : Bool) (q : Bool × Nat) :
    (noteOob o (if c then [] else [q])).oob = if c then o.oob else o.oob ++ [q] := by
  cases c <;> rfl

/-- SR with SV set where an access was not allowed. -/
def noted (c : Bool) (b : Bank) : Bank := if c then b else { b with sr := setFlag b.sr bSV true }

theorem bank_noteOob (o : Out) (c : Bool) (q : Bool × Nat) : bank (noteOob o (if c then [] else [q])).e = noted c (bank o.e) := by
  cases c
  · exact bank_setBank _ _
  · rfl

theorem noteOob_same (o : Out) (c : Bool) (q : Bool × Nat) : SameRun o.e (noteOob o (if c then [] else [q])).e := by
  cases c
  · exact setBank_same _ _
  · exact ⟨rfl, rfl, rfl, rfl⟩

theorem noteOob_mem (o : Out) (c : Bool) (q : Bool × Nat) (sp : Bool) : memOf (noteOob o (if c then [] else [q])).e sp = memOf o.e sp := by
  cases c
  · exact setBank_mem _ _ sp
  · rfl

/-- A parallel store: the post-modified engine writes the word read in x. -/
theorem moveWrite_store {x : Engine} (sp : Bool) {m : PMove} (hs : m.store = true) (o : Out) :
    moveWrite o (readOf x sp m) =
      let y := postMod o.e m.an (postOf x m)
      noteOob { e := (store y sp (moveAt x m) (carried x sp m)).1, oob := o.oob }
        (if allowed y sp (moveAt x m) true then [] else [(sp, moveAt x m)]) := by
  simp only [moveWrite, readOf, hs, if_true, store_oob]

/-- A parallel load: the post-modified engine takes the word read in x. -/
theorem moveWrite_load {x : Engine} (sp : Bool) {m : PMove} (hs : m.store = false) (o : Out) :
    moveWrite o (readOf x sp m) =
      let y := postMod o.e m.an (postOf x m)
      noteOob { e := setBank y (if m.reg < 8 then wrD (bank y) m.reg (carried x sp m) else wrAcc (bank y) (m.reg - 8) (toAcc (carried x sp m))),
                oob := o.oob } (if allowed x sp (moveAt x m) false then [] else [(sp, moveAt x m)]) := by
  simp only [moveWrite, readOf, hs, Bool.false_eq_true, if_false, load_oob]

theorem postMod_rdA (e : Engine) (an : Nat) (v : Option (BitVec 15)) (i : Nat) (hi : i < 8) :
    rdA (bank (postMod e an v)) i = if an = i then v.getD (rdA (bank e) i) else rdA (bank e) i := by
  rw [postMod_bank]
  cases v with
  | none => simp
  | some w => simp [rdA_wrA _ _ _ _ hi, eq_comm (a := i)]

/-- Post-modification changes address registers only. -/
theorem postMod_rest (e : Engine) (an : Nat) (v : Option (BitVec 15)) :
    (bank (postMod e an v)).d = (bank e).d ∧ (bank (postMod e an v)).acc = (bank e).acc ∧ (bank (postMod e an v)).m = (bank e).m ∧
    (bank (postMod e an v)).b = (bank e).b ∧ (bank (postMod e an v)).l = (bank e).l ∧ (bank (postMod e an v)).sr = (bank e).sr := by
  rw [postMod_bank]
  cases v <;> simp [wrA]

theorem noted_rest (c : Bool) (b : Bank) : (noted c b).d = b.d ∧ (noted c b).acc = b.acc ∧ (noted c b).a = b.a ∧ (noted c b).m = b.m ∧
    (noted c b).b = b.b ∧ (noted c b).l = b.l ∧ (noted c b).sr = if c then b.sr else setFlag b.sr bSV true := by
  cases c <;> simp [noted]

/-- A move post-modifies its address register, writes engine z, and notes a violation: what it changes, by what z is. -/
theorem moved_noted {x z : Engine} {sp : Bool} {m : PMove} {o : Out} {c : Bool} (hc : allowed x sp (moveAt x m) m.store = c)
    (hd : ∀ i, i < 8 → rdD (bank z) i = if loadsReg (some m) i then carried x sp m else rdD (bank o.e) i)
    (hacc : ∀ i, i < 4 → rdAcc (bank z) i = if loadsReg (some m) (i + 8) then toAcc (carried x sp m) else rdAcc (bank o.e) i)
    (hrest : let u := bank (postMod o.e m.an (postOf x m))
      (bank z).a = u.a ∧ (bank z).m = u.m ∧ (bank z).b = u.b ∧ (bank z).l = u.l ∧ (bank z).sr = u.sr)
    (hmem : memOf o.e sp = memOf x sp → memOf z sp = afterMove x sp (some m)) (hother : memOf z (!sp) = memOf o.e (!sp))
    (hsame : SameRun o.e z) :
    Moved x sp (some m) o.e (noteOob { e := z, oob := o.oob } (if c then [] else [(sp, moveAt x m)])).e := by
  have hbank : bank (noteOob { e := z, oob := o.oob } (if c then [] else [(sp, moveAt x m)])).e = noted c (bank z) := bank_noteOob _ _ _
  obtain ⟨nd, nacc, na, nm, nb, nl, nsr⟩ := noted_rest c (bank z)
  obtain ⟨za, zm, zb, zl, zsr⟩ := hrest
  obtain ⟨-, -, pm, pb, pl, psr⟩ := postMod_rest o.e m.an (postOf x m)
  constructor
  case d => intro i hi; rw [hbank, rdD, nd]; exact hd i hi
  case acc => intro i hi; rw [hbank, rdAcc, nacc]; exact hacc i hi
  case a => intro i hi; rw [hbank, rdA, na, za]; exact postMod_rdA o.e m.an (postOf x m) i hi
  case m => rw [hbank, nm, zm, pm]
  case b => rw [hbank, nb, zb, pb]
  case l => rw [hbank, nl, zl, pl]
  case sr => rw [hbank, nsr, zsr, psr, outside, Option.any_some, hc]; cases c <;> rfl
  case mem => intro h; rw [noteOob_mem]; exact hmem h
  case other => rw [noteOob_mem]; exact hother
  case same => exact hsame.trans (noteOob_same { e := z, oob := o.oob } _ _)

theorem moved_store {x : Engine} (sp : Bool) {m : PMove} (hs : m.store = true) {o : Out} (hc : o.e.cur = x.cur) :
    Moved x sp (some m) o.e (moveWrite o (readOf x sp m)).e := by
  have hsame : SameRun o.e (postMod o.e m.an (postOf x m)) := postMod_same o.e m.an (postOf x m)
  have hal : allowed (postMod o.e m.an (postOf x m)) sp (moveAt x m) true = allowed x sp (moveAt x m) true :=
    allowed_congr (hsame.cur.trans hc) _ _ _
  obtain ⟨pd, pacc, -⟩ := postMod_rest o.e m.an (postOf x m)
  rw [moveWrite_store sp hs]
  refine moved_noted (by rw [hs, hal]) (fun i _ => ?_) (fun i _ => ?_) ?_ (fun h => ?_) ?_ (hsame.trans (store_same _ _ _ _))
  · simp [store_bank, loadsReg, hs, rdD, pd]
  · simp [store_bank, loadsReg, hs, rdAcc, pacc]
  · simp [store_bank]
  · rw [store_mem, hal, postMod_mem, h]
    simp [afterMove, hs, memOf]
  · rw [store_other, postMod_mem]

/-- The data register or accumulator of a load. -/
def loadReg (b : Bank) (r : Nat) (v : W48) : Bank := if r < 8 then wrD b r v else wrAcc b (r - 8) (toAcc v)

theorem loadReg_rdD (b : Bank) (r : Nat) (v : W48) (i : Nat) (hi : i < 8) : rdD (loadReg b r v) i = if r = i then v else rdD b i := by
  unfold loadReg
  split_ifs with h h2 h2
  · rw [rdD_wrD _ _ _ _ hi, if_pos h2.symm]
  · rw [rdD_wrD _ _ _ _ hi, if_neg (Ne.symm h2)]
  · omega
  · rfl

theorem loadReg_rdAcc (b : Bank) {r : Nat} (v : W48) (i : Nat) (hi : i < 4) :
    rdAcc (loadReg b r v) i = if r = i + 8 then toAcc v else rdAcc b i := by
  unfold loadReg
  split_ifs with h h2 h2
  · omega
  · rfl
  · rw [rdAcc_wrAcc _ _ _ _ hi, if_pos (by omega)]
  · rw [rdAcc_wrAcc _ _ _ _ hi, if_neg (by omega)]

theorem loadReg_rest (b : Bank) (r : Nat) (v : W48) : (loadReg b r v).a = b.a ∧ (loadReg b r v).m = b.m ∧ (loadReg b r v).b = b.b ∧
    (loadReg b r v).l = b.l ∧ (loadReg b r v).sr = b.sr := by
  unfold loadReg
  split_ifs <;> exact ⟨rfl, rfl, rfl, rfl, rfl⟩

theorem moved_load {x : Engine} (sp : Bool) {m : PMove} (hs : m.store = false) (o : Out) :
    Moved x sp (some m) o.e (moveWrite o (readOf x sp m)).e := by
  obtain ⟨pd, pacc, -⟩ := postMod_rest o.e m.an (postOf x m)
  rw [moveWrite_load sp hs]
  dsimp only
  rw [← loadReg]
  refine moved_noted (by rw [hs]) (fun i hi => ?_) (fun i hi => ?_) ?_ (fun h => ?_) ?_
    ((postMod_same _ _ _).trans (setBank_same _ _))
  · rw [bank_setBank, loadReg_rdD _ _ _ i hi]
    simp [loadsReg, hs, rdD, pd]
  · rw [bank_setBank, loadReg_rdAcc _ _ i hi]
    simp [loadsReg, hs, rdAcc, pacc]
  · rw [bank_setBank]
    exact loadReg_rest _ _ _
  · rw [setBank_mem, postMod_mem, h]
    simp [afterMove, hs, memOf]
  · rw [setBank_mem, postMod_mem]

/-- What a parallel move changes (R171, R172, R158). -/
theorem moved_moved (x : Engine) (sp : Bool) (p : Option PMove) {o : Out} (hc : o.e.cur = x.cur) : Moved x sp p o.e (moved x sp p o).e := by
  cases p with
  | none => exact moved_none x sp o.e
  | some m =>
    cases hs : m.store with
    | true => exact moved_store sp hs hc
    | false => exact moved_load sp hs o

/-- A move tells a violation exactly where it reaches outside the windows. -/
theorem moved_oob (x : Engine) (sp : Bool) (p : Option PMove) {o : Out} (hc : o.e.cur = x.cur) :
    (moved x sp p o).oob = [] ↔ o.oob = [] ∧ outside x sp p = false := by
  cases p with
  | none => simp [moved, outside]
  | some m =>
    change (moveWrite o (readOf x sp m)).oob = [] ↔ o.oob = [] ∧ (!allowed x sp (moveAt x m) m.store) = false
    cases hs : m.store with
    | true =>
      have hal : allowed (postMod o.e m.an (postOf x m)) sp (moveAt x m) true = allowed x sp (moveAt x m) true :=
        allowed_congr ((postMod_same _ _ _).cur.trans hc) _ _ _
      rw [moveWrite_store sp hs]
      dsimp only
      rw [noteOob_oob, hal]
      cases allowed x sp (moveAt x m) true <;> simp
    | false =>
      rw [moveWrite_load sp hs]
      dsimp only
      rw [noteOob_oob]
      cases allowed x sp (moveAt x m) false <;> simp

end Tarn
end Sys2Proof.Machine
end

section
/-! PROOFS. An ALU or MAC part with its parallel moves (R171, R172): the moves of one instruction together, and the instruction on its engine. -/

namespace Sys2Proof.Machine

namespace Tarn

/-! ### A part with its moves -/

/-- Engine y is x after a part that leaves the data registers d, the accumulators acc and SR sr, and nothing else. -/
structure PartOf (x y : Engine) (d : Nat → W48) (acc : Nat → W80) (sr : Word) : Prop where
  d    : ∀ i, i < 8 → rdD (bank y) i = d i
  acc  : ∀ i, i < 4 → rdAcc (bank y) i = acc i
  sr   : (bank y).sr = sr
  a    : (bank y).a = (bank x).a
  m    : (bank y).m = (bank x).m
  b    : (bank y).b = (bank x).b
  l    : (bank y).l = (bank x).l
  mem  : ∀ sp, memOf y sp = memOf x sp
  same : SameRun x y

/-- The result of a part after its X move and its Y move. -/
def bothMoved (x : Engine) (mv : Moves) (o : Out) : Out := moved x true mv.y (moved x false mv.x o)

theorem movesOk_modes {mv : Moves} (h : movesOk mv = true) : (∀ m ∈ mv.x, m.mode < 5) ∧ ∀ m ∈ mv.y, m.mode < 5 := by
  obtain ⟨p, q⟩ := mv
  cases p <;> cases q <;> simp_all [movesOk]

/-- The reads of a legal move, where there is one. -/
theorem bind_moveRead (x : Engine) (sp : Bool) {p : Option PMove} (h : ∀ m ∈ p, m.mode < 5) : p.bind (moveRead x sp) = p.map (readOf x sp) := by
  cases p with
  | none => rfl
  | some m => exact moveRead_eq x sp (h m rfl)

theorem withMoves_eq {x y : Engine} {mv : Option Moves} {part : Engine → Option Engine} (hm : mv.all movesOk = true) (hp : part x = some y) :
    withMoves x mv part = some (bothMoved x (movesOf mv) { e := y, oob := [] }) := by
  cases mv with
  | none => simp only [withMoves, hp]; rfl
  | some m =>
    have hm' : movesOk m = true := hm
    obtain ⟨hx, hy⟩ := movesOk_modes hm'
    simp only [withMoves, hm', if_true, bind_moveRead x false hx, bind_moveRead x true hy, hp, bothMoved, movesOf, Option.getD_some]
    cases m.x <;> cases m.y <;> rfl

theorem bothMoved_movesAfter {x y : Engine} {d : Nat → W48} {acc : Nat → W80} {sr : Word} (h : PartOf x y d acc sr) (mv : Moves) :
    MovesAfter x (bothMoved x mv { e := y, oob := [] }).e mv d acc sr := by
  have hx : Moved x false mv.x y _ := moved_moved x false mv.x (o := { e := y, oob := [] }) h.same.cur
  have hy : Moved x true mv.y _ _ := moved_moved x true mv.y (hx.same.cur.trans h.same.cur)
  refine ⟨fun i hi => ?_, fun i hi => ?_, fun i hi => ?_, ?_, ?_, ?_, ?_, ?_, ?_, ?_⟩
  · rw [bothMoved, hy.d i hi, hx.d i hi, h.d i hi]
  · rw [bothMoved, hy.acc i hi, hx.acc i hi, h.acc i hi]
  · have ha : rdA (bank y) i = rdA (bank x) i := by rw [rdA, h.a]; rfl
    rw [bothMoved, hy.a i hi, hx.a i hi, ha]
    rfl
  · exact hy.m.trans (hx.m.trans h.m)
  · exact hy.b.trans (hx.b.trans h.b)
  · exact hy.l.trans (hx.l.trans h.l)
  · rw [bothMoved, hy.sr, hx.sr, h.sr]
    cases outside x false mv.x <;> cases outside x true mv.y <;> simp [setFlag_twice]
  · exact hy.other.trans (hx.mem (h.mem false))
  · exact hy.mem (hx.other.trans (h.mem true))
  · exact hy.same.p.trans (hx.same.p.trans h.same.p)

theorem bothMoved_same {x y : Engine} (h : SameRun x y) (mv : Moves) : SameRun x (bothMoved x mv { e := y, oob := [] }).e := by
  have hx : Moved x false mv.x y _ := moved_moved x false mv.x (o := { e := y, oob := [] }) h.cur
  have hy : Moved x true mv.y _ _ := moved_moved x true mv.y (hx.same.cur.trans h.cur)
  exact (h.trans hx.same).trans hy.same

theorem bothMoved_oob {x y : Engine} (h : SameRun x y) (mv : Moves) :
    (bothMoved x mv { e := y, oob := [] }).oob = [] ↔ (outside x false mv.x || outside x true mv.y) = false := by
  have hx : Moved x false mv.x y _ := moved_moved x false mv.x (o := { e := y, oob := [] }) h.cur
  rw [bothMoved, moved_oob x true mv.y (hx.same.cur.trans h.cur), moved_oob x false mv.x h.cur]
  simp

/-! ### What the moves read is there before the cycles are charged -/

section
variable (x : Engine) (w cyc : Nat) (sp : Bool)

theorem moveAt_charge (m : PMove) : moveAt (charge x w cyc) m = moveAt x m := by
  simp only [moveAt, aguSeen_charge]

theorem load_charge (a : Nat) : load (charge x w cyc) sp a = load x sp a := by
  simp only [load, allowed_charge, charge_fields]

theorem carried_charge : carried (charge x w cyc) sp = carried x sp := by
  funext m
  simp only [carried, bank_charge, accSeen_charge, load_charge, moveAt_charge]

theorem outside_charge (p : Option PMove) : outside (charge x w cyc) sp p = outside x sp p := by
  simp only [outside, moveAt_charge, allowed_charge]

theorem afterMove_charge (p : Option PMove) : afterMove (charge x w cyc) sp p = afterMove x sp p := by
  simp only [afterMove, charge_fields, moveAt_charge, allowed_charge, carried_charge]

theorem afterPost_charge (mv : Moves) (i : Nat) : afterPost (charge x w cyc) mv i = afterPost x mv i := by
  simp only [afterPost, bank_charge, address_charge]

theorem movesAfter_charge (z : Engine) (mv : Moves) (d : Nat → W48) (acc : Nat → W80) (sr : Word) :
    MovesAfter (charge x w cyc) z mv d acc sr ↔ MovesAfter x z mv d acc sr := by
  simp only [MovesAfter, bank_charge, carried_charge, outside_charge, afterMove_charge, afterPost_charge, charge_fields]

end

theorem MovesAfter.keeps {x y z : Engine} {mv : Moves} {d : Nat → W48} {acc : Nat → W80} {sr : Word} (h : MovesAfter x y mv d acc sr)
    (k : Keeps y z) : MovesAfter x z mv d acc sr := by
  simpa only [MovesAfter, k.rdD, k.rdAcc, k.rdA, k.m, k.b, k.l, k.sr, k.p, k.x, k.y] using h

end Tarn

/-- An instruction of an engine whose effect is a part with parallel moves, up to what the next instruction sees of the accumulators (R184):
what it leaves on the engine, its next address, and what it leaves of the state. -/
theorem State.canRun.movesAfter {s : State} {e : Nat} {x : Engine} (h : s.canRun e x) {mv : Option Moves} {f : Engine → Tarn.Res} {y : Engine}
    {old : List (Nat × W80)} {d : Nat → W48} {acc : Nat → W80} {sr : Word} (hp : Tarn.PartOf (Tarn.charge x (movesW mv) 1) y d acc sr)
    (hf : let o := Tarn.bothMoved (Tarn.charge x (movesW mv) 1) (movesOf mv) { e := y, oob := [] }
      f (Tarn.charge x (movesW mv) 1) = some { o with e := { o.e with accOld := old } }) :
    let t := s.runOn e (fun z => z.pc) (fun z => Tarn.issue z (movesW mv) 1 .plain f)
    Tarn.MovesAfter x (t.eng e) (movesOf mv) d acc sr ∧ (x.slots = none → x.view = [] → (t.eng e).pc = x.pc + movesW mv) ∧
      s.onEngineMoves t e x (movesOf mv) := by
  generalize ho : Tarn.bothMoved (Tarn.charge x (movesW mv) 1) (movesOf mv) { e := y, oob := [] } = o at hf
  have hma : Tarn.MovesAfter x o.e (movesOf mv) d acc sr :=
    (Tarn.movesAfter_charge ..).1 (ho ▸ Tarn.bothMoved_movesAfter hp (movesOf mv))
  have hsame : Tarn.SameRun (Tarn.charge x (movesW mv) 1) o.e := ho ▸ Tarn.bothMoved_same hp.same (movesOf mv)
  have hoob : o.oob = [] ↔ (Tarn.outside x false (movesOf mv).x || Tarn.outside x true (movesOf mv).y) = false := by
    have hb := ho ▸ Tarn.bothMoved_oob hp.same (movesOf mv)
    rwa [Tarn.outside_charge, Tarn.outside_charge] at hb
  have hi := h.issue (cls := .plain) (by simp) hf
  have heng := h.runOn_eng (fun z => z.pc) (f := fun z => Tarn.issue z (movesW mv) 1 .plain f) hi
  have hk : Tarn.Keeps o.e ((s.runOn e (fun z => z.pc) (fun z => Tarn.issue z (movesW mv) 1 .plain f)).eng e) := by
    have hrep : Tarn.Keeps o.e { o.e with accOld := old, rep := none } := .of_bank rfl rfl rfl rfl
    rw [heng]
    exact (hrep.trans (Tarn.advance_keeps _ x.pc (movesW mv))).trans (s.serveCalls_keeps _)
  obtain ⟨hfr, hother, hmod, hslots⟩ := h.runOn_frame (fun z => z.pc) (f := fun z => Tarn.issue z (movesW mv) 1 .plain f) hi
  refine ⟨hma.keeps hk, fun hsl hv => ?_, ?_, hother, hmod, hslots⟩
  · rw [heng, (s.serveCalls_fields _).2.2.2.1]
    exact Tarn.advance_pc _ _ (by simp [hsame.slots, hsl]) (by simp [hsame.view, hv])
  · split
    next => exact hfr
    next hn =>
      exact (h.runOn_onEngine (fun z => z.pc) (f := fun z => Tarn.issue z (movesW mv) 1 .plain f) hi (hoob.2 (Bool.eq_false_iff.2 hn))).1

end Sys2Proof.Machine
end

section
/-! PROOFS. The ALU on an engine (R164, R175): every operation has a result, and its part writes the destination and SR. -/

namespace Sys2Proof.Machine

namespace Tarn

/-- Each of the 18 operations has a result, and for a D register it leaves the accumulators. -/
theorem alu_some {op : Nat} (h : op < 18) (toD : Bool) (a b : W80) (c d : W48) (k : Nat) (sr : Word) :
    ∃ r, alu op toD a b c d k sr = some r ∧ (toD = true → r.acc = none) := by
  cases toD with
  | false => interval_cases op <;> exact ⟨_, rfl, nofun⟩
  | true => interval_cases op <;> exact ⟨_, rfl, fun _ => rfl⟩

/-- The bank with the result of an operation in dst, and its SR. -/
def aluBank (b : Bank) (dst : Nat) (r : AluR) : Bank :=
  let b1 := { b with sr := r.sr }
  let b2 := r.d.elim b1 (wrD b1 dst)
  r.acc.elim b2 (wrAcc b2 (dst - 8))

theorem aluBank_rdD (b : Bank) (dst : Nat) (r : AluR) (i : Nat) (hi : i < 8) :
    rdD (aluBank b dst r) i = if i = dst then r.d.getD (rdD b i) else rdD b i := by
  have hd : rdD (r.d.elim { b with sr := r.sr } (wrD { b with sr := r.sr } dst)) i = if i = dst then r.d.getD (rdD b i) else rdD b i := by
    cases r.d with
    | none => exact (ite_self _).symm
    | some v => exact rdD_wrD _ dst i v hi
  rw [← hd, aluBank]
  cases r.acc <;> rfl

theorem aluBank_rdAcc (b : Bank) (dst : Nat) (r : AluR) (h : dst < 8 → r.acc = none) (i : Nat) (hi : i < 4) :
    rdAcc (aluBank b dst r) i = if i + 8 = dst then r.acc.getD (rdAcc b i) else rdAcc b i := by
  have hb : rdAcc (r.d.elim { b with sr := r.sr } (wrD { b with sr := r.sr } dst)) i = rdAcc b i := by cases r.d <;> rfl
  rw [aluBank]
  cases hacc : r.acc with
  | none => exact hb.trans (ite_self _).symm
  | some v =>
    have hdst : 8 ≤ dst := Nat.le_of_not_lt fun hlt => by simp [h hlt] at hacc
    have hiff : i = dst - 8 ↔ i + 8 = dst := by omega
    simp only [Option.elim_some, Option.getD_some, rdAcc_wrAcc _ _ _ _ hi, hb, hiff]

theorem aluBank_rest (b : Bank) (dst : Nat) (r : AluR) : (aluBank b dst r).sr = r.sr ∧ (aluBank b dst r).a = b.a ∧
    (aluBank b dst r).m = b.m ∧ (aluBank b dst r).b = b.b ∧ (aluBank b dst r).l = b.l := by
  unfold aluBank
  cases r.d <;> cases r.acc <;> exact ⟨rfl, rfl, rfl, rfl, rfl⟩

/-- A bank written into an engine whose hazards are past is a part that changes no memory. -/
theorem partOf_setBank {x : Engine} {b : Bank} {d : Nat → W48} {acc : Nat → W80} {sr : Word} (hd : ∀ i, i < 8 → rdD b i = d i)
    (hacc : ∀ i, i < 4 → rdAcc b i = acc i) (hsr : b.sr = sr) (ha : b.a = (bank x).a) (hm : b.m = (bank x).m) (hb : b.b = (bank x).b)
    (hl : b.l = (bank x).l) : PartOf x (setBank (clearHaz x) b) d acc sr := by
  have hbank : bank (setBank (clearHaz x) b) = b := bank_setBank _ _
  exact {
    d i hi   := hbank.symm ▸ hd i hi
    acc i hi := hbank.symm ▸ hacc i hi
    sr       := hbank.symm ▸ hsr
    a        := hbank.symm ▸ ha
    m        := hbank.symm ▸ hm
    b        := hbank.symm ▸ hb
    l        := hbank.symm ▸ hl
    mem      := setBank_mem _ _
    same     := SameRun.trans (y := clearHaz x) ⟨rfl, rfl, rfl, rfl⟩ (setBank_same _ b) }

/-- An ALU instruction with its operands in range is its operation's part with the parallel moves. -/
theorem doAlu_eq {op : Nat} {f : AluF} {x : Engine} {r : AluR} (hm : f.mv.all movesOk = true) (hdst : f.dst < 12) (h1 : f.src1 < 12)
    (h2 : f.src2 < 12) (hk : f.shift < 64)
    (hr : alu op (decide (f.dst < 8)) (if f.src1 < 8 then toAcc (rdD (bank x) f.src1) else accSeen x (f.src1 - 8))
      (if f.src2 < 8 then toAcc (rdD (bank x) f.src2) else accSeen x (f.src2 - 8))
      (if f.src1 < 8 then rdD (bank x) f.src1 else accH (accSeen x (f.src1 - 8)))
      (if f.src2 < 8 then rdD (bank x) f.src2 else accH (accSeen x (f.src2 - 8))) f.shift (bank x).sr = some r) :
    doAlu op f x = some (bothMoved x (movesOf f.mv) { e := setBank (clearHaz x) (aluBank (bank x) f.dst r), oob := [] }) := by
  rw [doAlu, if_pos ⟨hdst, h1, h2, hk⟩]
  refine withMoves_eq hm ?_
  simp only [hr, Option.map_some, aluBank]
  cases r.d <;> cases r.acc <;> rfl

end Tarn

/-- The commands of the table run their operation on their engine. -/
theorem exec_aluCommand {op : Nat} {c : Nat → AluF → Instr} (h : (op, c) ∈ aluCommands) :
    op < 18 ∧ ∀ e f s, exec (c e f) s = instr e (aluOp op f) s := by
  unfold aluCommands at h
  fin_cases h <;> exact ⟨by decide, fun _ _ _ => rfl⟩

/-- Settles O21: the part writes dst and SR, and the moves follow it. -/
theorem aluWritesItsResultAndFlags : Obligations.AluWritesItsResultAndFlags := by
  intro s e op x f c hc h hm hdst h1 h2 hk b wide word
  obtain ⟨hop, hex⟩ := exec_aluCommand hc
  obtain ⟨r, hr, hacc⟩ := Tarn.alu_some hop (decide (f.dst < 8)) (wide f.src1) (wide f.src2) (word f.src1) (word f.src2) f.shift b.sr
  have hacc' : f.dst < 8 → r.acc = none := fun hlt => hacc (decide_eq_true hlt)
  obtain ⟨hsr, ha, hbm, hbb, hbl⟩ := Tarn.aluBank_rest b f.dst r
  have hp : Tarn.PartOf (Tarn.charge x (movesW f.mv) 1)
      (Tarn.setBank (Tarn.clearHaz (Tarn.charge x (movesW f.mv) 1)) (Tarn.aluBank b f.dst r)) _ _ r.sr :=
    Tarn.partOf_setBank (Tarn.aluBank_rdD b f.dst r) (Tarn.aluBank_rdAcc b f.dst r hacc') hsr (by rw [ha, Tarn.bank_charge])
      (by rw [hbm, Tarn.bank_charge]) (by rw [hbb, Tarn.bank_charge]) (by rw [hbl, Tarn.bank_charge])
  have hf := Tarn.doAlu_eq (op := op) (f := f) (x := Tarn.charge x (movesW f.mv) 1) (r := r) hm hdst h1 h2 hk
    (by simpa only [Tarn.bank_charge, Tarn.accSeen_charge] using hr)
  rw [Tarn.bank_charge] at hf
  obtain ⟨hma, hpc, hon⟩ := h.movesAfter hp hf
  exact ⟨_, r, hex e f s, hr, hma, hpc, hon⟩

end Sys2Proof.Machine
end

section
/-! PROOFS. The MAC units on an engine (R162, R163): what the units of an instruction write, by `MacF.unit`. -/

namespace Sys2Proof.Machine

namespace Tarn

/-- The exact sum that unit k brings to its accumulator. -/
def macSum (op : Nat) (b : Bank) (k : Nat) (q : Int × Nat × Nat) : Int :=
  let p := q.1 * prod64 (rdD b q.2.1).toInt (rdD b q.2.2).toInt
  if op = 0 then (rdAcc b k).toInt + p else if op = 1 then (rdAcc b k).toInt - p else p

/-- The units as `doMac` lists them: accumulator, the two data registers, and whether the operation is opposite. -/
def macUnits (f : MacF) : List (Nat × Nat × Nat × Bool) :=
  if f.quad then ((quadOperands f.acc).zipIdx).map fun q => (q.2, q.1.1, q.1.2.1, q.1.2.2) else [(f.acc, f.dx, f.dy, false)]

/-- The list of units is the unit table in the order of the accumulators. -/
theorem macUnits_eq {f : MacF} (h : f.acc < 4) :
    macUnits f = (List.range 4).filterMap fun k => (f.unit k).map fun q => (k, q.2.1, q.2.2, decide (q.1 = -1)) := by
  obtain ⟨quad, acc, dx, dy, mv⟩ := f
  dsimp only at h
  cases quad <;> interval_cases acc <;> rfl

theorem unit_sign {f : MacF} {k : Nat} {q : Int × Nat × Nat} (h : q ∈ f.unit k) : q.1 = 1 ∨ q.1 = -1 := by
  have hq : ∀ p ∈ [((1 : Int), 0, 4), (-1, 1, 5), (1, 0, 5), (1, 1, 4)], p.1 = 1 ∨ p.1 = -1 := by decide
  unfold MacF.unit at h
  split at h
  · split at h
    · cases h; exact .inl rfl
    · cases h; exact .inl rfl
    · cases h; exact .inl rfl
    · exact hq q (List.mem_of_getElem? h)
  · split at h
    · cases h; exact .inl rfl
    · cases h

theorem macUnit_eq (op : Nat) (b : Bank) (k : Nat) {q : Int × Nat × Nat} (h : q.1 = 1 ∨ q.1 = -1) :
    macUnit op (decide (q.1 = -1)) (rdAcc b k) (product (rdD b q.2.1) (rdD b q.2.2)) = narrow80 (macSum op b k q) := by
  have hs : (if q.1 = -1 then -product (rdD b q.2.1) (rdD b q.2.2) else product (rdD b q.2.1) (rdD b q.2.2)) =
      q.1 * prod64 (rdD b q.2.1).toInt (rdD b q.2.2).toInt := by
    rcases h with h | h <;> simp [h, product]
  simp only [macUnit, decide_eq_true_eq, hs, macSum]
  match op with
  | 0 => rfl
  | 1 => rfl
  | _ + 2 => simp

/-- The result of unit k, where the instruction has one. -/
def unitResult (op : Nat) (f : MacF) (b : Bank) (k : Nat) : Option (W80 × Bool) := (f.unit k).map fun q => narrow80 (macSum op b k q)

/-- The results of the units as `doMac` writes them. -/
theorem macUnits_map (op : Nat) {f : MacF} (b : Bank) (h : f.acc < 4) :
    ((macUnits f).map fun u => (u.1, macUnit op u.2.2.2 (rdAcc b u.1) (product (rdD b u.2.1) (rdD b u.2.2.1)))) =
      (List.range 4).filterMap fun k => (unitResult op f b k).map (Prod.mk k) := by
  rw [macUnits_eq h, List.map_filterMap]
  congr 1
  funext k
  rw [unitResult, Option.map_map, Option.map_map]
  exact Option.map_congr fun q hq => congrArg (Prod.mk k) (macUnit_eq op b k (unit_sign hq))

/-- The bank with the accumulators ks that have a result written. -/
def writeUnits (u : Nat → Option (W80 × Bool)) (ks : List Nat) (b : Bank) : Bank := ks.foldl (fun a k => (u k).elim a fun v => wrAcc a k v.1) b

theorem writeUnits_rdAcc (u : Nat → Option (W80 × Bool)) {i : Nat} (hi : i < 4) (ks : List Nat) (b : Bank) :
    rdAcc (writeUnits u ks b) i = if i ∈ ks then (u i).elim (rdAcc b i) (·.1) else rdAcc b i := by
  induction ks generalizing b with
  | nil => rfl
  | cons k ks ih =>
    have hk : rdAcc ((u k).elim b fun v => wrAcc b k v.1) i = if i = k then (u i).elim (rdAcc b i) (·.1) else rdAcc b i := by
      cases hu : u k with
      | none =>
        split
        next h => rw [h, hu]; rfl
        next => rfl
      | some v =>
        simp only [Option.elim_some, rdAcc_wrAcc _ _ _ _ hi]
        split
        next h => rw [h, hu]; rfl
        next => rfl
    rw [writeUnits, List.foldl_cons, ← writeUnits, ih, hk]
    by_cases h1 : i = k <;> by_cases h2 : i ∈ ks <;> cases hu : u i <;> simp [h1, h2]

theorem writeUnits_rest (u : Nat → Option (W80 × Bool)) (ks : List Nat) (b : Bank) : ∃ v, writeUnits u ks b = { b with acc := v } := by
  induction ks generalizing b with
  | nil => exact ⟨b.acc, rfl⟩
  | cons k ks ih =>
    obtain ⟨v, hv⟩ := ih ((u k).elim b fun v => wrAcc b k v.1)
    rw [writeUnits, List.foldl_cons, ← writeUnits, hv]
    cases u k <;> exact ⟨v, rfl⟩

theorem foldl_units (u : Nat → Option (W80 × Bool)) (ks : List Nat) (b : Bank) :
    (ks.filterMap fun k => (u k).map (Prod.mk k)).foldl (fun a r => wrAcc a r.1 r.2.1) b = writeUnits u ks b := by
  rw [List.foldl_filterMap, writeUnits]
  congr 1
  funext a k
  cases u k <;> rfl

theorem any_units (u : Nat → Option (W80 × Bool)) (ks : List Nat) :
    (ks.filterMap fun k => (u k).map (Prod.mk k)).any (fun r => r.2.2) = ks.any fun k => (u k).any (·.2) := by
  rw [List.any_filterMap]
  congr 1
  funext k
  cases u k <;> rfl

/-- A unit of the instruction reached a limit of ACC80 (R163). -/
def limited (op : Nat) (f : MacF) (b : Bank) : Bool := (List.range 4).any fun k => (unitResult op f b k).any (·.2)

/-- Bank b with D0–D2 of bank src in D1–D3 (quad pattern 2). -/
def shiftUp (src b : Bank) : Bank := wrD (wrD (wrD b 3 (rdD src 2)) 2 (rdD src 1)) 1 (rdD src 0)

theorem shiftUp_rdD (src b : Bank) (i : Nat) (hi : i < 8) : rdD (shiftUp src b) i = if 1 ≤ i ∧ i ≤ 3 then rdD src (i - 1) else rdD b i := by
  simp only [shiftUp, rdD_wrD _ _ _ _ hi]
  interval_cases i <;> rfl

/-- The bank after the units: accumulators, AV, the shift of pattern 2. -/
def macBank (op : Nat) (f : MacF) (b : Bank) : Bank :=
  let b1 := writeUnits (unitResult op f b) (List.range 4) b
  let b2 := if limited op f b then { b1 with sr := setFlag b1.sr bAV true } else b1
  if f.quad ∧ f.acc = 2 then shiftUp b b2 else b2

section
variable (op : Nat) (f : MacF) (b : Bank)

theorem macBank_rdD (i : Nat) (hi : i < 8) :
    rdD (macBank op f b) i = if f.quad = true ∧ f.acc = 2 ∧ 1 ≤ i ∧ i ≤ 3 then rdD b (i - 1) else rdD b i := by
  obtain ⟨v, hv⟩ := writeUnits_rest (unitResult op f b) (List.range 4) b
  have hd : ∀ j, rdD (if limited op f b then { { b with acc := v } with sr := setFlag b.sr bAV true } else { b with acc := v }) j = rdD b j :=
    fun j => by cases limited op f b <;> rfl
  simp only [macBank, hv]
  by_cases h : f.quad = true ∧ f.acc = 2
  · obtain ⟨hq, ha⟩ := h
    simp only [hq, ha, and_self, if_true, true_and, shiftUp_rdD b _ i hi, hd]
  · rw [if_neg h, hd, if_neg (fun hs => h ⟨hs.1, hs.2.1⟩)]

theorem macBank_rdAcc (i : Nat) (hi : i < 4) :
    rdAcc (macBank op f b) i = (f.unit i).elim (rdAcc b i) fun q => BitVec.ofInt 80 (Fmt.satS 80 (macSum op b i q)) := by
  have hacc : rdAcc (macBank op f b) i = rdAcc (writeUnits (unitResult op f b) (List.range 4) b) i := by
    unfold macBank
    dsimp only
    split_ifs <;> rfl
  rw [hacc, writeUnits_rdAcc _ hi, if_pos (List.mem_range.2 hi), unitResult]
  cases f.unit i <;> rfl

theorem macBank_rest : (macBank op f b).sr = (if limited op f b then setFlag b.sr bAV true else b.sr) ∧ (macBank op f b).a = b.a ∧
    (macBank op f b).m = b.m ∧ (macBank op f b).b = b.b ∧ (macBank op f b).l = b.l := by
  obtain ⟨v, hv⟩ := writeUnits_rest (unitResult op f b) (List.range 4) b
  simp only [macBank, hv]
  split_ifs <;> exact ⟨rfl, rfl, rfl, rfl, rfl⟩

end

/-- A MAC instruction with its operands in range is its units' part with the parallel moves; the next instruction sees old accumulators. -/
theorem doMac_eq (op : Nat) {f : MacF} {x : Engine} (hm : f.mv.all movesOk = true) (ha : f.acc < 4) (hx : f.dx < 8) (hy : f.dy < 8)
    (hq : f.quad = true → f.dx = 0 ∧ f.dy = 0) :
    ∃ old, let o := bothMoved x (movesOf f.mv) { e := setBank (clearHaz x) (macBank op f (bank x)), oob := [] }
      doMac op f x = some { o with e := { o.e with accOld := old } } := by
  have hres := macUnits_map op (bank x) ha
  rw [doMac, if_pos ⟨ha, hx, hy, hq⟩]
  dsimp only
  rw [macUnits] at hres
  rw [hres, foldl_units, any_units]
  exact ⟨_, congrArg (Option.map _)
    (withMoves_eq (x := x) (part := fun _ => some (setBank (clearHaz x) (macBank op f (bank x)))) hm rfl)⟩

end Tarn

/-- The commands of the table run their operation on their engine. -/
theorem exec_macCommand {op : Nat} {c : Nat → MacF → Instr} (h : (op, c) ∈ macCommands) :
    ∀ e f s, exec (c e f) s = instr e (macOp op f) s := by
  unfold macCommands at h
  fin_cases h <;> exact fun _ _ _ => rfl

/-- Settles O23: the units write their accumulators and AV, pattern 2 shifts D0–D2, and the moves follow. -/
theorem macAccumulatesRoundedProducts : Obligations.MacAccumulatesRoundedProducts := by
  intro s e op x f c hc h hm ha hx hy hq b sum limited
  have hlim : Tarn.limited op f b = limited := by
    simp only [Tarn.limited, Tarn.unitResult, Option.any_map]
    rfl
  obtain ⟨hsr, hra, hrm, hrb, hrl⟩ := Tarn.macBank_rest op f b
  obtain ⟨old, hf⟩ := Tarn.doMac_eq op (x := Tarn.charge x (movesW f.mv) 1) hm ha hx hy hq
  rw [Tarn.bank_charge] at hf
  have hp : Tarn.PartOf (Tarn.charge x (movesW f.mv) 1)
      (Tarn.setBank (Tarn.clearHaz (Tarn.charge x (movesW f.mv) 1)) (Tarn.macBank op f b)) _ _ (if limited then _ else _) :=
    Tarn.partOf_setBank (Tarn.macBank_rdD op f b) (Tarn.macBank_rdAcc op f b) (hlim ▸ hsr) (by rw [hra, Tarn.bank_charge])
      (by rw [hrm, Tarn.bank_charge]) (by rw [hrb, Tarn.bank_charge]) (by rw [hrl, Tarn.bank_charge])
  obtain ⟨hma, hpc, hon⟩ := h.movesAfter hp hf
  exact ⟨_, exec_macCommand hc e f s, hma, hpc, hon⟩

end Sys2Proof.Machine
end

section
/-! PROOFS. Loads and stores of one data register through an address register (R158). -/

namespace Sys2Proof.Machine

namespace Tarn

theorem raiseV_false (sr : Word) : raiseV sr false = sr := rfl

theorem setSr_self (e : Engine) : setSr e (bank e).sr = e := setBank_bank e

theorem Keeps.memOf {y z : Engine} (h : Keeps y z) (sp : Bool) : Tarn.memOf z sp = Tarn.memOf y sp := by
  simp only [Tarn.memOf, h.x, h.y]

theorem allowed_clearHaz (x : Engine) (sp : Bool) (a : Nat) (wr : Bool) : allowed (clearHaz x) sp a wr = allowed x sp a wr :=
  allowed_congr rfl sp a wr

theorem store_outside {x : Engine} {sp : Bool} {a : Nat} (h : allowed x sp a true = false) (v : W48) : store x sp a v = (x, [(sp, a)]) :=
  if_neg (by rw [h]; decide)

theorem load_outside {x : Engine} {sp : Bool} {a : Nat} (h : allowed x sp a false = false) : load x sp a = (0#48, [(sp, a)]) :=
  if_neg (by rw [h]; decide)

theorem flag_setFlag (sr : Word) : flag (setFlag sr bSV true) bSV = true := by
  simp [flag, setFlag, bSV]

/-- Class 0x5 through An as it is: the word An names. -/
theorem address_zero (x : Engine) (an : Nat) : address x an 0 0 true = some (aguSeen x 0 an % 2 ^ 15, none) := rfl

theorem read5_d (x : Engine) {d : Nat} (h : d < 8) : read5 x d = some (rdD (bank x) d, false) := if_pos h

theorem write5_d (x : Engine) {d : Nat} (h : d < 8) (v : W48) : write5 x d v = some (setBank x (wrD (bank x) d v)) := if_pos h

section
variable (x : Engine) (y : Bool) {d an : Nat} (hd : d < 8) (han : an < 8)
include hd han

theorem doLdSt_store : doLdSt { y := y, store := true, reg := d, an := an, mode := 0, addr := 0 } x =
    some (noteOob { e := (store (clearHaz x) y (aguSeen x 0 an % 2 ^ 15) (rdD (bank x) d)).1, oob := [] }
      (if allowed x y (aguSeen x 0 an % 2 ^ 15) true then [] else [(y, aguSeen x 0 an % 2 ^ 15)])) := by
  have hr : d < 32 := by omega
  have hoob := store_oob (clearHaz x) y (aguSeen x 0 an % 2 ^ 15) (rdD (bank x) d)
  rw [allowed_clearHaz] at hoob
  simp only [doLdSt, hr, han, address_zero, read5_d x hd, postMod, raiseV_false, setSr_self, hoob]
  rfl

theorem doLdSt_load : doLdSt { y := y, store := false, reg := d, an := an, mode := 0, addr := 0 } x =
    some (noteOob { e := setBank (clearHaz x) (wrD (bank (clearHaz x)) d (load x y (aguSeen x 0 an % 2 ^ 15)).1), oob := [] }
      (if allowed x y (aguSeen x 0 an % 2 ^ 15) false then [] else [(y, aguSeen x 0 an % 2 ^ 15)])) := by
  have hr : d < 32 := by omega
  simp only [doLdSt, hr, han, address_zero, load_oob, postMod, write5_d _ hd]
  rfl

end

end Tarn

/-- A load or store on its engine: the engine keeps what its effect leaves, and without a violation nothing else changes. -/
theorem State.canRun.loadStore {s : State} {e : Nat} {x : Engine} (h : s.canRun e x) {f : LdSt} {o : Tarn.Out}
    (hf : Tarn.doLdSt f (Tarn.charge x 1 1) = some o) : ∃ t, exec (.loadStore e f) s = .next t ∧ Tarn.Keeps o.e (t.eng e) ∧
      (o.oob = [] → s.onEngine t e) ∧
      ∀ q, o.oob = [q] → s.toldD t .tarnBounds 0 e [e, x.task, q.2] ∧ (∀ j, j ≠ e → t.eng j = s.eng j) ∧
        s.frame t [.tarn, .ev, .sessions] := by
  have hi := h.issue (cls := .plain) (by simp) hf
  have heng := h.runOn_eng (fun z => z.pc) (f := fun z => Tarn.issue z 1 1 .plain (Tarn.doLdSt f)) hi
  refine ⟨s.runOn e (fun z => z.pc) fun z => Tarn.issue z 1 1 .plain (Tarn.doLdSt f), rfl, ?_,
    fun ho => h.runOn_onEngine (fun z => z.pc) (f := fun z => Tarn.issue z 1 1 .plain (Tarn.doLdSt f)) hi ho, fun q hq => ?_⟩
  · have hrep : Tarn.Keeps o.e { o.e with rep := none } := .of_bank rfl rfl rfl rfl
    rw [heng]
    exact (hrep.trans (Tarn.advance_keeps _ x.pc 1)).trans (s.serveCalls_keeps _)
  · rw [h.runOn (fun z => z.pc) (f := fun z => Tarn.issue z 1 1 .plain (Tarn.doLdSt f)) hi]
    dsimp only
    rw [hq]
    exact (s.setEng_toldD _ h.1 .tarnBounds 0 e [e, x.task, q.2]).2

/-- Settles O25: the windows of the running task decide. -/
theorem storesStayInsideTheWindows : Obligations.StoresStayInsideTheWindows := by
  intro s e x y d an h hd han ad old other
  have hst := Tarn.doLdSt_store (Tarn.charge x 1 1) y hd han
  have hld := Tarn.doLdSt_load (Tarn.charge x 1 1) y hd han
  rw [Tarn.aguSeen_charge, Tarn.allowed_charge] at hst hld
  have hmem0 : ∀ k, Tarn.memOf (Tarn.clearHaz (Tarn.charge x 1 1)) k = Tarn.memOf x k := fun k => by simp [Tarn.memOf]
  refine ⟨fun hal _ => ?_, fun hal => ?_, fun hal => ?_⟩
  · rw [if_pos hal, Tarn.noteOob_nil] at hst
    obtain ⟨t, ht, hk, hon, -⟩ := h.loadStore hst
    have hmem : old (t.eng e) = Cells.put 0 (old x) ad (Tarn.rdD (Tarn.bank x) d).toNat := by
      refine (hk.memOf y).trans ?_
      rw [Tarn.store_mem, Tarn.allowed_clearHaz, Tarn.allowed_charge, if_pos hal, hmem0, Tarn.bank_charge]
      rfl
    have hother : other (t.eng e) = other x := by
      have := (hk.memOf (!y)).trans ((Tarn.store_other _ _ _ _).trans (hmem0 (!y)))
      cases y <;> exact this
    refine ⟨t, ht, ?_, fun k hk => ?_, hother, ?_, hon rfl⟩
    · rw [hmem, Cells.get_put_same]
    · rw [hmem, Cells.get_put_other _ _ _ _ _ hk]
    · rw [hk.d, Tarn.store_bank, (Tarn.clearHaz_fields _).2.2.2.2.2.2.2.2.2.2, Tarn.bank_charge]
  · have hout : Tarn.allowed (Tarn.clearHaz (Tarn.charge x 1 1)) y ad true = false := by rw [Tarn.allowed_clearHaz, Tarn.allowed_charge, hal]
    rw [if_neg (by rw [hal]; decide), Tarn.noteOob_one, Tarn.store_outside hout] at hst
    obtain ⟨t, ht, hk, -, htold⟩ := h.loadStore hst
    have hx := hk.x
    have hy := hk.y
    have hsr := hk.sr
    simp only [Tarn.setSr, Tarn.setBank_fields, Tarn.bank_setBank, Tarn.clearHaz_fields, Tarn.charge_fields] at hx hy hsr
    exact ⟨t, ht, hx, hy, by rw [hsr, Tarn.flag_setFlag], htold (y, ad) rfl⟩
  · rw [if_neg (by rw [hal]; decide), Tarn.noteOob_one, Tarn.load_outside ((Tarn.allowed_charge x 1 1 y ad false).trans hal)] at hld
    obtain ⟨t, ht, hk, -, htold⟩ := h.loadStore hld
    have hrd := hk.rdD d
    simp only [Tarn.setSr, Tarn.bank_setBank] at hrd
    exact ⟨t, ht, hrd.trans ((Tarn.rdD_wrD _ _ _ _ hd).trans (if_pos rfl)), htold (y, ad) rfl⟩

end Sys2Proof.Machine
end

section
/-! PROOFS. The headset port (R230–R234): what passing samples leave of it, what its events tell; O45. -/

namespace Sys2Proof.Machine

open Fmt

/-! ### An occurrence that enters the input record (R431) -/

/-- An event told is told after a change that touches neither the event registers nor the sessions. -/
theorem State.told_of_frame {s t u : State} {l : List Part} {ev : Ev} {part obj val : Nat} (h : s.told t ev part obj val) (hf : t.frame u l)
    (he : .ev ∉ l) (hv : .sessions ∉ l) : s.told u ev part obj val := by
  obtain ⟨h1, h2⟩ := h
  exact ⟨(hf .ev he).trans h1, (hf .sessions hv).trans h2⟩

/-- A change that an event tells and an input record takes: what is told, what else stays, and the ports as the change left them. -/
theorem State.raise_note {s u : State} {l : List Part} (h : s.frame u l) (hl : ∀ p ∈ [Part.ev, .sessions, .mcc, .power], p ∉ l)
    (ev : Ev) (part obj val : Nat) (i : InItem) : s.told ((u.raise ev part obj val).note i) ev part obj val ∧
      s.frame ((u.raise ev part obj val).note i) (l ++ [.ev, .sessions] ++ [.twin]) ∧ ((u.raise ev part obj val).note i).ports = u.ports :=
  have hn := (u.raise ev part obj val).note_frame i
  ⟨State.told_of_frame (State.raise_told_of_frame h hl ev part obj val) hn (by decide) (by decide),
    State.frame_trans (State.frame_trans h (u.raise_frame ev part obj val)) hn, (hn .ports (by decide)).trans (by simp)⟩

/-! ### Samples that pass -/

/-- The headset port but for its channels and how far they have come. -/
def HspG.plug (g : HspG) : HspG :=
  { g with phones := [], mic := SlotSt.reset, next := 0, outNext := 0, left := 0, right := 0, range := Zc.at 0 }

theorem State.phonesAdvance_plug (s : State) (n : Nat) : (s.phonesAdvance n).ports.hsp.plug = s.ports.hsp.plug :=
  List.foldlRecOn (motive := fun t : State => t.ports.hsp.plug = s.ports.hsp.plug) _ _ rfl (fun _ ht _ _ => ht)

theorem State.micAdvance_plug (s : State) (n : Nat) : (s.micAdvance n).ports.hsp.plug = s.ports.hsp.plug := by
  refine List.foldlRecOn (motive := fun t : State => t.ports.hsp.plug = s.ports.hsp.plug) _ _ rfl (fun t ht _ _ => ?_)
  dsimp only
  split <;> exact ht

/-- The headset port with its channels brought up to an exit. -/
def State.hspAt (s : State) (n : Nat) : State := (s.phonesAdvance n).micAdvance n

theorem State.hspAt_plug (s : State) (n : Nat) : (s.hspAt n).ports.hsp.plug = s.ports.hsp.plug :=
  ((s.phonesAdvance n).micAdvance_plug n).trans (s.phonesAdvance_plug n)

theorem State.hspAt_frame (s : State) (n : Nat) : s.frame (s.hspAt n) [.ports, .audio, .free] :=
  State.frame_next (s.phonesAdvance_frame n) ((s.phonesAdvance n).micAdvance_frame n)

theorem State.hspAt_kept (s : State) (n : Nat) : (s.hspAt n).ports.hsp.type = s.ports.hsp.type ∧
    (s.hspAt n).ports.hsp.drivers = s.ports.hsp.drivers ∧ (s.hspAt n).ports.hsp.bias = s.ports.hsp.bias :=
  have h := s.hspAt_plug n
  have ht := congrArg HspG.type h
  have hd := congrArg HspG.drivers h
  have hb := congrArg HspG.bias h
  ⟨ht, hd, hb⟩

theorem State.micAdvance_type (s : State) (n : Nat) : (s.micAdvance n).ports.hsp.type = s.ports.hsp.type :=
  have ht := congrArg HspG.type (s.micAdvance_plug n)
  ht

/-- A change of the port with its channels brought up to an exit. -/
theorem State.hspAt_setHsp_frame (s : State) (n : Nat) (f : HspG → HspG) : s.frame ((s.hspAt n).setHsp f) [.ports, .audio, .free] :=
  State.frame_next (s.hspAt_frame n) ((s.hspAt n).setHsp_frame f (by decide))

theorem State.micAdvance_setHsp_frame (s : State) (n : Nat) (f : HspG → HspG) : s.frame ((s.micAdvance n).setHsp f) [.ports, .audio, .free] :=
  State.frame_next (s.micAdvance_frame n) ((s.micAdvance n).setHsp_frame f (by decide))

/-! ### Insertion and measurement (R230, R231) -/

theorem hspInsertion_inserts {s : State} (hon : s.on 0x22 0 0 = true) (hi : s.ports.hsp.inserted = false) (hp : bit s.power.domains 7 = true) :
    ∃ t, exec .hspInsertion s = .next t ∧ t.ports.hsp.inserted = true ∧ t.ports.hsp.type = s.ports.hsp.type ∧
      s.frame t [.ports, .audio, .free] :=
  ⟨_, if_pos ⟨hon, by rw [hi]; rfl, hp⟩, rfl, (s.hspAt_kept s.mcc).1, s.hspAt_setHsp_frame _ _⟩

theorem hspPlug_classifies {s : State} (tip r1 r2 sl : Nat) (hon : s.on 0x22 0 0 = true) (hi : s.ports.hsp.inserted = true)
    (hl : s.ports.hsp.leaving = none) (ht : s.ports.hsp.type = 0) (hp : bit s.power.domains 7 = true) :
    ∃ t, exec (.hspPlug tip r1 r2 sl) s = .next t ∧ t.ports.hsp.type = hspClass tip r1 r2 sl ∧ t.ports.hsp.drivers = true ∧
      s.told t .hspPlug s.hspOwner 0 (hspClass tip r1 r2 sl) ∧ s.frame t [.ports, .audio, .free, .ev, .sessions, .twin] := by
  refine ⟨_, if_pos ⟨hon, hi, by rw [hl]; rfl, ht, hp⟩, ?_⟩
  obtain ⟨htold, hframe, hports⟩ := State.raise_note (State.frame_next (s.hspAt_setHsp_frame s.mcc _) (State.setHsp_frame _ _ (by decide)))
    (by decide) .hspPlug s.hspOwner 0 (hspClass tip r1 r2 sl) _
  exact ⟨congrArg (fun g : PortG => g.hsp.type) hports, congrArg (fun g : PortG => g.hsp.drivers) hports, htold, hframe⟩

/-! ### The button (R233) -/

theorem hspButtonDown_mutes {s : State} (hi : s.ports.hsp.inserted = true) (hl : s.ports.hsp.leaving = none) (hb : s.ports.hsp.bias = true)
    (ht : s.ports.hsp.touch = false) : ∃ t, exec .hspButtonDown s = .next t ∧ t.ports.hsp.touch = true ∧
      t.ports.hsp.type = s.ports.hsp.type ∧ s.frame t [.ports, .audio, .free] :=
  ⟨_, if_pos ⟨hi, by rw [hl]; rfl, hb, by rw [ht]; rfl⟩, rfl, s.micAdvance_type s.mcc, s.micAdvance_setHsp_frame _ _⟩

theorem hspButtonPress_presses {s : State} {mv b : Nat} (hb : buttonOf mv = some b) (ht : s.ports.hsp.touch = true)
    (hn : s.ports.hsp.pressed = none) : ∃ t, exec (.hspButtonPress mv) s = .next t ∧
      t.ports.hsp = { s.ports.hsp with pressed := some b, buttons := 2 ^ b, repeats := 0 } ∧ s.told t .hspButton s.hspOwner b 1 ∧
      s.frame t [.ports, .ev, .sessions, .twin] := by
  have hexec : exec (.hspButtonPress mv) s = .next (((s.setHsp (fun g => { g with pressed := some b, buttons := 2 ^ b, repeats := 0 })).raise
      .hspButton s.hspOwner b 1).hspNote) := by
    show execHspButtonPress mv s = _
    simp only [execHspButtonPress, hb]
    exact if_pos ⟨ht, by rw [hn]; rfl⟩
  obtain ⟨htold, hframe, hports⟩ := State.raise_note (s.setHsp_frame _ (l := [.ports]) (by decide)) (by decide) .hspButton s.hspOwner b 1 _
  exact ⟨_, hexec, congrArg PortG.hsp hports, htold, hframe⟩

theorem hspButtonRepeat_repeats {s : State} {b : Nat} (hb : s.ports.hsp.pressed = some b) (hon : s.on 0x22 0 4 = true) :
    ∃ t, exec .hspButtonRepeat s = .next t ∧ t.ports.hsp = { s.ports.hsp with repeats := s.ports.hsp.repeats + 1 } ∧
      s.told t .hspButton s.hspOwner b 2 ∧ s.frame t [.ports, .ev, .sessions] := by
  have hset := s.setHsp_frame (fun g => { g with repeats := g.repeats + 1 }) (l := [.ports]) (by decide)
  have hexec : exec .hspButtonRepeat s =
      .next ((s.setHsp (fun g => { g with repeats := g.repeats + 1 })).raise .hspButton s.hspOwner b 2) := by
    show execHspButtonRepeat s = _
    simp only [execHspButtonRepeat, hb, hon, if_true]
  have hports : ((s.setHsp (fun g => { g with repeats := g.repeats + 1 })).raise .hspButton s.hspOwner b 2).ports = _ :=
    State.raise_frame _ _ _ _ _ .ports (by decide)
  exact ⟨_, hexec, congrArg PortG.hsp hports, State.raise_told_of_frame hset (by decide) _ _ _ _,
    State.frame_trans hset (State.raise_frame _ _ _ _ _)⟩

theorem hspButtonRelease_releases {s : State} {b : Nat} (hb : s.ports.hsp.pressed = some b) (ht : s.ports.hsp.touch = true) :
    ∃ t, exec .hspButtonRelease s = .next t ∧ t.ports.hsp.pressed = none ∧ t.ports.hsp.touch = false ∧ t.ports.hsp.buttons = 0 ∧
      s.told t .hspButton s.hspOwner b 3 ∧ s.frame t [.ports, .audio, .free, .ev, .sessions, .twin] := by
  have hexec : exec .hspButtonRelease s = .next ((((s.micAdvance s.mcc).setHsp (fun g => { g with
      touch := false, pressed := none, buttons := 0, mic := { g.mic.start s.mcc with held := 0 } })).raise .hspButton s.hspOwner b 3).hspNote) := by
    show execHspButtonRelease s = _
    simp only [execHspButtonRelease, hb, ht, if_true]
  obtain ⟨htold, hframe, hports⟩ := State.raise_note (s.micAdvance_setHsp_frame s.mcc _) (by decide) .hspButton s.hspOwner b 3 _
  exact ⟨_, hexec, congrArg (fun g : PortG => g.hsp.pressed) hports, congrArg (fun g : PortG => g.hsp.touch) hports,
    congrArg (fun g : PortG => g.hsp.buttons) hports, htold, hframe⟩

/-! ### Removal (R234) -/

/-- The headset port from a removal at MCC n on: its channels fade, and a press ends. -/
def HspG.unplugged (g : HspG) (n : Nat) : HspG :=
  { g.eachPhone (fun x => if x.silent n then SlotSt.reset else x.fadeOut) with
    leaving := some (n + 32), pressed := none, touch := false, buttons := 0 }

theorem HspG.unplugged_fields (g : HspG) (n : Nat) : (g.unplugged n).leaving = some (n + 32) ∧ (g.unplugged n).type = g.type ∧
    (g.unplugged n).drivers = g.drivers ∧ (g.unplugged n).bias = g.bias ∧ (g.unplugged n).buttons = 0 ∧ (g.unplugged n).pressed = none :=
  ⟨rfl, rfl, rfl, rfl, rfl, rfl⟩

theorem execHspUnplug_in {s : State} (hon : s.on 0x22 0 0 = true) (hi : s.ports.hsp.inserted = true) (hl : s.ports.hsp.leaving = none) :
    exec .hspUnplug s = .next ((s.hspAt s.mcc).setHsp (·.unplugged s.mcc)) :=
  if_pos ⟨hon, hi, by rw [hl]; rfl⟩

theorem hspUnplug_fades {s : State} (hon : s.on 0x22 0 0 = true) (hi : s.ports.hsp.inserted = true) (hl : s.ports.hsp.leaving = none) :
    ∃ t, exec .hspUnplug s = .next t ∧ t.ports.hsp.leaving = some (s.mcc + 32) ∧ t.ports.hsp.type = s.ports.hsp.type ∧
      t.ports.hsp.drivers = s.ports.hsp.drivers ∧ t.ports.hsp.bias = s.ports.hsp.bias ∧ t.ports.hsp.buttons = 0 ∧
      t.ports.hsp.pressed = none ∧ s.frame t [.ports, .audio, .free] := by
  obtain ⟨htype, hdrivers, hbias⟩ := s.hspAt_kept s.mcc
  obtain ⟨fleaving, ftype, fdrivers, fbias, fbuttons, fpressed⟩ := (s.hspAt s.mcc).ports.hsp.unplugged_fields s.mcc
  exact ⟨_, execHspUnplug_in hon hi hl, fleaving, ftype.trans htype, fdrivers.trans hdrivers, fbias.trans hbias, fbuttons, fpressed,
    s.hspAt_setHsp_frame _ _⟩

theorem State.hspGone_early {s : State} {n : Nat} (h : s.ports.hsp.leaving = some n) (hn : s.mcc < n) : s.hspGone = s := by
  simp only [State.hspGone, h, hn, if_true]

theorem State.hspGone_over {s : State} {n : Nat} (h : s.ports.hsp.leaving = some n) (hn : n ≤ s.mcc) :
    s.hspGone.ports.hsp.leaving = none ∧ s.hspGone.ports.hsp.type = 0 ∧ s.hspGone.ports.hsp.inserted = false ∧
      s.hspGone.ports.hsp.drivers = false ∧ s.hspGone.ports.hsp.bias = false ∧ s.told s.hspGone .hspUnplug s.hspOwner 0 0 := by
  have heq : s.hspGone = (((s.hspAt n).setHsp (fun g => { g.eachPhone (fun _ => SlotSt.reset) with
      type := 0, inserted := false, leaving := none, mic := SlotSt.reset, drivers := false, bias := false })).raise
        .hspUnplug s.hspOwner 0 0).hspNote := by
    simp only [State.hspGone, h, Nat.not_lt.2 hn, if_false]
    rfl
  obtain ⟨htold, -, hports⟩ := State.raise_note (s.hspAt_setHsp_frame n _) (by decide) .hspUnplug s.hspOwner 0 0 _
  rw [heq, State.hspNote, hports]
  exact ⟨rfl, rfl, rfl, rfl, rfl, htold⟩

/-! ### The microphone gain (R232) -/

theorem hspMicGainStep_steps (s : State) : ∃ t, exec .hspMicGainStep s = .next t ∧
    t.ports.hsp.gainNow = (if s.ports.hsp.gainNow < s.at 0x22 0 2 then s.ports.hsp.gainNow + 1
      else if s.at 0x22 0 2 < s.ports.hsp.gainNow then s.ports.hsp.gainNow - 1 else s.ports.hsp.gainNow) ∧ s.frame t [.ports] := by
  by_cases h : s.ports.hsp.gainNow = s.at 0x22 0 2
  · exact ⟨s, if_pos h, by rw [h]; simp, s.frame_refl _⟩
  · refine ⟨_, if_neg h, ?_, s.setHsp_frame _ (by decide)⟩
    simp only [State.setHsp]
    split_ifs <;> omega

/-- Settles O45: each event of the accessory by the port it leaves. -/
theorem headsetPortFollowsTheAccessory : Obligations.HeadsetPortFollowsTheAccessory := by
  unfold Obligations.HeadsetPortFollowsTheAccessory
  refine fun s => ⟨hspInsertion_inserts, hspPlug_classifies, hspButtonDown_mutes, fun _ _ => hspButtonPress_presses,
    fun _ => hspButtonRepeat_repeats, fun _ => hspButtonRelease_releases, hspUnplug_fades, fun n h => ⟨State.hspGone_early h, fun hn => ?_⟩,
    hspMicGainStep_steps s⟩
  obtain ⟨hl, ht, hi, hd, hb, htold⟩ := State.hspGone_over h hn
  exact ⟨_, rfl, hl, ht, hi, hd, hb, htold, s.hspGone_frame⟩

end Sys2Proof.Machine
end

section
/-! PROOFS. What the ports share: converters and decimators behind them, the slots of a frame received or sent, references lost with a port
(R220, R235–R247, R281). -/

namespace Sys2Proof.Machine

open Fmt

/-! ### Frames -/

/-- The first part of a fold whose every step stays within some parts stays within them. -/
theorem State.frame_foldl_fst {α β : Type} {l : List Part} {f : State × β → α → State × β}
    (hf : ∀ (a : State × β) x, a.1.frame (f a x).1 l) (xs : List α) (a : State × β) : a.1.frame (xs.foldl f a).1 l :=
  xs.foldlRecOn (motive := fun b => a.1.frame b.1 l) f (State.frame_refl a.fst l) (fun b h x _ => State.frame_next h (hf b x))

theorem State.putRx_frame (s : State) (ref n : Nat) (v : Int) {l : List Part} (h : .audio ∈ l) : s.frame (s.putRx ref n v) l :=
  State.frame_mono (a := [.audio]) (by simp [State.frame_iff, Part.same, State.putRx]) (by simpa using h)

theorem State.setPorts_frame (s : State) (g : PortG) {l : List Part} (h : .ports ∈ l) : s.frame { s with ports := g } l :=
  State.frame_mono (a := [.ports]) (by simp [State.frame_iff, Part.same]) (by simpa using h)

theorem State.takeFree_frame (s : State) {l : List Part} (h : .free ∈ l) : s.frame s.takeFree.2 l :=
  State.frame_mono (a := [.free]) (by simp [State.frame_iff, Part.same, State.takeFree]) (by simpa using h)

theorem State.setSpring_frame_mem (s : State) (f : SpringG → SpringG) {l : List Part} (h : .spring ∈ l) : s.frame (s.setSpring f) l :=
  State.frame_mono (s.setSpring_frame f) (by simpa using h)

/-- A committed word is read from the words, the node image, the modules and the straps. -/
theorem State.at_of_frame {s t : State} {l : List Part} (h : s.frame t l) (hl : ∀ p ∈ [Part.params, .power, .mere, .tarn], p ∉ l)
    (cls n f : Nat) : t.at cls n f = s.at cls n f := by
  have hpar : t.params = s.params := h .params (hl _ (by decide))
  have hpow : t.power = s.power := h .power (hl _ (by decide))
  have hmere : t.mere = s.mere := h .mere (hl _ (by decide))
  have htarn : t.tarn = s.tarn := h .tarn (hl _ (by decide))
  simp only [State.at, State.val, State.word, State.field, State.cap, State.fam, State.prof, State.shape, hpar, hpow, hmere]
  have himg : t.slotImage = s.slotImage := by
    funext n
    simp only [State.slotImage, State.slotMod, State.word, State.modImage, hpar, htarn]
    rfl
  rw [himg]

/-! ### Rate converters and decimators behind a port (R235–R247) -/

/-- What samples that converters and decimators take or deliver can touch. -/
def convParts : List Part := [.audio, .conv, .free, .ev, .sessions]

theorem State.updSrc_frame (s : State) (i : Nat) (f : SrcCh → SrcCh) : s.frame (s.updSrc i f) convParts := s.setConv_frame _ (by decide)

theorem State.srcFeed_frame (s : State) (user : Nat) (v : Int) : s.frame (s.srcFeed user v) convParts := by
  unfold State.srcFeed
  split
  · exact s.frame_refl _
  · exact s.updSrc_frame _ _

theorem State.srcValue_frame (s : State) (x : SrcCh) (width : Nat) : s.frame (s.srcValue x width).2 convParts := by
  unfold State.srcValue
  split
  · exact s.takeFree_frame (by decide)
  · exact s.frame_refl _

theorem State.srcOut_frame (s : State) (i n width : Nat) : s.frame (s.srcOut i n width).2 convParts := by
  unfold State.srcOut
  extract_lets x0 s0
  have h0 : s.frame s0 convParts :=
    State.frame_ite (State.frame_next (s.updSrc_frame i _) (State.frame_mono (State.raise_frame _ _ _ _ _) (by decide))) (s.frame_refl _)
  exact State.frame_next (State.frame_next h0 (s0.srcValue_frame _ width)) (State.updSrc_frame _ i _)

theorem State.srcAdvance_frame (s : State) (i upTo : Nat) : s.frame (s.srcAdvance i upTo) convParts := by
  refine State.frame_ite (s.frame_refl _) (State.frame_foldl (fun u j => ?_) _ s)
  exact State.frame_next (State.frame_next (u.srcOut_frame i _ 48) (State.putRx_frame _ _ _ _ (by decide))) (State.updSrc_frame _ i _)

theorem State.srcIn_frame (s : State) (ref : Nat) (v : Int) : s.frame (s.srcIn ref v) convParts := by
  unfold State.srcIn
  split
  · exact s.frame_refl _
  · exact State.frame_next (s.srcAdvance_frame _ _) (State.srcFeed_frame _ _ _)

theorem State.srcsOfPort_frame (s : State) (port dir : Nat) (f : SrcCh → SrcCh) : s.frame (s.srcsOfPort port dir f) convParts :=
  State.frame_foldl (fun u (q : Nat × SrcCh) => State.frame_next (u.srcAdvance_frame q.1 u.mcc) (State.updSrc_frame _ q.1 f)) _ s

theorem State.srcRefresh_frame (s : State) : s.frame s.srcRefresh convParts := s.setConv_frame _ (by decide)

theorem State.updDec_frame_conv (s : State) (i : Nat) (f : DecCh → DecCh) : s.frame (s.updDec i f) convParts := s.setConv_frame _ (by decide)

/-- A decimator channel's samples below a stamp, and a change of it. -/
theorem State.decAdvance_updDec_frame_conv (s : State) (i upTo : Nat) (f : DecCh → DecCh) :
    s.frame ((s.decAdvance i upTo).updDec i f) convParts := by
  refine State.frame_next (State.frame_ite (s.frame_refl _) (State.frame_foldl (fun u j => ?_) _ s)) (State.updDec_frame_conv _ i f)
  exact State.frame_next (State.frame_next (u.takeFree_frame (by decide)) (State.putRx_frame _ _ _ _ (by decide))) (State.updDec_frame_conv _ i _)

theorem State.decLose_frame (s : State) (p : Nat) : s.frame (s.decLose p) convParts :=
  State.frame_foldl (fun u i => u.decAdvance_updDec_frame_conv i _ _) _ s

theorem State.decResume_frame (s : State) (p : Nat) : s.frame (s.decResume p) convParts :=
  State.frame_foldl (fun u i => State.frame_ite (u.frame_refl _) (u.decAdvance_updDec_frame_conv i _ _)) _ s

/-! ### Slots of a direction -/

theorem mem_maskSlots {m bound k : Nat} : k ∈ maskSlots m bound ↔ k < bound ∧ bit m k = true := by simp [maskSlots]

theorem nodup_maskSlots (m bound : Nat) : (maskSlots m bound).Nodup := List.nodup_range.filter _

/-- A direction but for its slots and the frames that it has got to. -/
def PortDir.still (d : PortDir) : PortDir := { d with slots := [], nextStamp := none, idle := 0 }

/-- What such a change leaves of a direction. -/
theorem PortDir.still_fields {d e : PortDir} (h : e.still = d.still) : e.fields = d.fields ∧ e.mask = d.mask ∧ e.losses = d.losses ∧
    e.running = d.running ∧ e.loss = d.loss ∧ e.shadow = d.shadow := by
  have hf := congrArg PortDir.fields h
  have hm := congrArg PortDir.mask h
  have hl := congrArg PortDir.losses h
  have hr := congrArg PortDir.running h
  have ho := congrArg PortDir.loss h
  have hs := congrArg PortDir.shadow h
  exact ⟨hf, hm, hl, hr, ho, hs⟩

theorem PortDir.still_stopping {d e : PortDir} (h : e.still = d.still) : e.stopping = d.stopping :=
  have ht := congrArg PortDir.stopping h
  ht

/-- A flag (R219): the direction is in loss, and counts it. -/
theorem PortDir.flag_fields (d : PortDir) (tx : Bool) : (d.flag tx).loss = true ∧ (d.flag tx).running = false ∧
    (d.flag tx).losses = satInc d.losses 1 := by
  cases tx <;> exact ⟨rfl, rfl, rfl⟩

/-- A slot written. -/
def PortDir.putSlot (d : PortDir) (k : Nat) (st : SlotSt) : PortDir := { d with slots := Cells.put SlotSt.reset d.slots k st }

theorem PortDir.slot_putSlot (d : PortDir) (k j : Nat) (st : SlotSt) : (d.putSlot k st).slot j = if j = k then st else d.slot j :=
  Cells.get_put _ _ _ _ _

/-! ### A frame received into the alignment buffers (R25, R220) -/

theorem smpKey_inj {r q n m : Nat} (hn : n < 2 ^ 64) (hm : m < 2 ^ 64) : smpKey r n = smpKey q m ↔ r = q ∧ n = m := by
  simp only [smpKey]
  omega

theorem State.rxAt_putRx (s : State) (ref n : Nat) (v : Int) (q m : Nat) :
    (s.putRx ref n v).rxAt q m = if smpKey q m = smpKey ref n then v else s.rxAt q m :=
  Cells.get_put _ _ _ _ _

section
variable (ref0 n : Nat) (f : Nat → SlotSt → SlotSt × Int)

/-- The sample of one slot, into the alignment buffer. -/
def rxSlot (a : State × PortDir) (k : Nat) : State × PortDir :=
  (a.1.putRx (ref0 + k) n (f k (a.2.slot k)).2, a.2.putSlot k (f k (a.2.slot k)).1)

theorem State.rxRow_eq (s : State) (d : PortDir) : s.rxRow ref0 d n f = (maskSlots d.mask 64).foldl (rxSlot ref0 n f) (s, d) := rfl

/-- Slots that samples do not name keep theirs. -/
theorem rxAt_foldl_rxSlot_other {ks : List Nat} {q m : Nat} (h : ∀ k ∈ ks, smpKey q m ≠ smpKey (ref0 + k) n) (a : State × PortDir) :
    (ks.foldl (rxSlot ref0 n f) a).1.rxAt q m = a.1.rxAt q m := by
  induction ks generalizing a with
  | nil => rfl
  | cons k ks ih =>
    rw [List.foldl_cons, ih (fun j hj => h j (List.mem_cons_of_mem _ hj)), rxSlot, State.rxAt_putRx, if_neg (h k List.mem_cons_self)]

/-- Each of different slots takes its own sample. -/
theorem rxAt_foldl_rxSlot {ks : List Nat} (hd : ks.Nodup) (hn : n < 2 ^ 64) {k : Nat} (hk : k ∈ ks) (a : State × PortDir) :
    (ks.foldl (rxSlot ref0 n f) a).1.rxAt (ref0 + k) n = (f k (a.2.slot k)).2 := by
  induction ks generalizing a with
  | nil => cases hk
  | cons j ks ih =>
    obtain ⟨hj, hks⟩ := List.nodup_cons.1 hd
    rw [List.foldl_cons]
    rcases List.mem_cons.1 hk with rfl | hk
    · rw [rxAt_foldl_rxSlot_other, rxSlot, State.rxAt_putRx, if_pos rfl]
      intro i hi he
      obtain ⟨e, -⟩ := (smpKey_inj hn hn).1 he
      obtain rfl : k = i := by omega
      exact hj hi
    · have hne : k ≠ j := fun e => hj (e ▸ hk)
      rw [ih hks hk, rxSlot, PortDir.slot_putSlot, if_neg hne]

variable (s : State) (d : PortDir)

theorem State.rxRow_frame : s.frame (s.rxRow ref0 d n f).1 [.audio] := by
  rw [State.rxRow_eq]
  exact State.frame_foldl_fst (fun a _ => a.1.putRx_frame _ _ _ (List.mem_singleton.2 rfl)) _ (s, d)

theorem State.rxRow_still : (s.rxRow ref0 d n f).2.still = d.still := by
  rw [State.rxRow_eq]
  exact List.foldlRecOn (motive := fun b : State × PortDir => b.2.still = d.still) _ (rxSlot ref0 n f) rfl (fun _ h _ _ => h)

/-- A slot of the mask has its sample at the stamp. -/
theorem State.rxRow_at (hn : n < 2 ^ 64) {k : Nat} (hk : k < 64) (hb : bit d.mask k = true) :
    (s.rxRow ref0 d n f).1.rxAt (ref0 + k) n = (f k (d.slot k)).2 := by
  rw [State.rxRow_eq]
  exact rxAt_foldl_rxSlot ref0 n f (nodup_maskSlots _ _) hn (mem_maskSlots.2 ⟨hk, hb⟩) (s, d)

/-- Every other sample stays. -/
theorem State.rxRow_other (hn : n < 2 ^ 64) {k m : Nat} (hm : m < 2 ^ 64) (h : m ≠ n ∨ 64 ≤ k ∨ bit d.mask k = false) :
    (s.rxRow ref0 d n f).1.rxAt (ref0 + k) m = s.rxAt (ref0 + k) m := by
  rw [State.rxRow_eq]
  refine rxAt_foldl_rxSlot_other ref0 n f (fun j hj he => ?_) (s, d)
  obtain ⟨hj, hb⟩ := mem_maskSlots.1 hj
  obtain ⟨e, rfl⟩ := (smpKey_inj hm hn).1 he
  obtain rfl : k = j := by omega
  rcases h with h | h | h
  · exact h rfl
  · omega
  · rw [hb] at h; cases h

end

section
variable (s : State) (ref0 : Nat) (d : PortDir)

theorem State.rxGap_frame (upTo : Nat) : s.frame (s.rxGap ref0 d upTo).1 [.audio] :=
  State.frame_foldl_fst (fun a _ => a.1.rxRow_frame _ _ _ _) _ (s, d)

theorem State.rxGap_still (upTo : Nat) : (s.rxGap ref0 d upTo).2.still = d.still :=
  List.foldlRecOn (motive := fun b : State × PortDir => b.2.still = d.still) _ _ rfl (fun b h _ _ => (State.rxRow_still _ _ _ b.1 b.2).trans h)

/-- With no stamp missing nothing changes. -/
theorem State.rxGap_none {n : Nat} (h : d.nextStamp = some n) : s.rxGap ref0 d n = (s, d) := by
  obtain ⟨⟩ := d
  subst h
  simp [State.rxGap]

theorem State.idleTo_frame (now : Nat) : s.frame (s.idleTo ref0 now d).1 convParts :=
  State.frame_foldl_fst (fun a _ => State.frame_foldl_fst (fun b _ => b.1.srcIn_frame _ _) _ a) _ (s, d)

theorem State.idleTo_still (now : Nat) : (s.idleTo ref0 now d).2.still = d.still :=
  List.foldlRecOn (motive := fun b : State × PortDir => b.2.still = d.still) _ _ rfl (fun _ h _ _ =>
    List.foldlRecOn (motive := fun b : State × PortDir => b.2.still = d.still) _ _ h (fun _ h' _ _ => h'))

end

/-! ### A frame sent (R213, R226) -/

section
variable (value : State → Nat → Int × State) (n tzc lramp : Nat) (on : Nat → Int → Nat) (off : Nat → Nat)

/-- One channel of a frame sent: one of the mask carries its value through its stage, any other what it carries with none. -/
def sendSlot (mask : Nat) (a : State × PortDir × List Nat) (k : Nat) : State × PortDir × List Nat :=
  if bit mask k then
    let v := value a.1 k
    let r := (a.2.1.slot k).sample v.1 n tzc lramp
    (v.2, a.2.1.putSlot k r.1, a.2.2 ++ [on k r.2])
  else (a.1, a.2.1, a.2.2 ++ [off k])

/-- The words of a frame from values that change nothing. -/
def PortDir.sent (d : PortDir) (v : Nat → Int) (channels : Nat) : List Nat :=
  (List.range channels).map (fun k => if bit d.mask k then on k ((d.slot k).sample (v k) n tzc lramp).2 else off k)

variable {value}

/-- Such a frame steps the stages of the direction and leaves the state. -/
theorem foldl_sendSlot {s : State} {v : Nat → Int} (hv : ∀ k, value s k = (v k, s)) (d : PortDir) (channels : Nat) :
    ∃ e : PortDir, (List.range channels).foldl (sendSlot value n tzc lramp on off d.mask) (s, d, []) =
        (s, e, d.sent n tzc lramp on off v channels) ∧ e.still = d.still ∧ e.nextStamp = d.nextStamp ∧
      ∀ k, channels ≤ k → e.slot k = d.slot k := by
  induction channels with
  | zero => exact ⟨d, rfl, rfl, rfl, fun _ _ => rfl⟩
  | succ c ih =>
    obtain ⟨e, he, hstill, hnext, hslot⟩ := ih
    rw [List.range_succ, List.foldl_append, he, List.foldl_cons, List.foldl_nil, PortDir.sent, PortDir.sent, List.range_succ, List.map_append,
      List.map_singleton]
    by_cases hb : bit d.mask c = true
    · simp only [sendSlot, hb, if_true, hv, hslot c (Nat.le_refl c)]
      refine ⟨_, rfl, hstill, hnext, fun k hk => ?_⟩
      rw [PortDir.slot_putSlot, if_neg (by omega), hslot k (by omega)]
    · rw [sendSlot, if_neg hb, if_neg hb]
      exact ⟨e, rfl, hstill, hnext, fun k hk => hslot k (by omega)⟩

end

/-! ### What an evaluation of the clock unit leaves of the references and the ports (R285–R299) -/

/-- Every port direction is as it was but for its status bit of R210. -/
def PortG.Alike (g h : PortG) : Prop :=
  (∀ k, ∃ o, Cells.get PortDir.reset h.sap k = { Cells.get PortDir.reset g.sap k with origin := o }) ∧
    ∀ k, ∃ o, Cells.get PortDir.reset h.madi k = { Cells.get PortDir.reset g.madi k with origin := o }

theorem PortG.Alike.of_eq {g h : PortG} (e : h = g) : g.Alike h := ⟨fun k => ⟨_, by rw [e]⟩, fun k => ⟨_, by rw [e]⟩⟩

theorem PortG.Alike.trans {g h i : PortG} (a : g.Alike h) (b : h.Alike i) : g.Alike i := by
  obtain ⟨as, am⟩ := a
  obtain ⟨bs, bm⟩ := b
  refine ⟨fun k => ?_, fun k => ?_⟩
  · obtain ⟨x, hx⟩ := as k
    obtain ⟨y, hy⟩ := bs k
    exact ⟨y, by rw [hy, hx]⟩
  · obtain ⟨x, hx⟩ := am k
    obtain ⟨y, hy⟩ := bm k
    exact ⟨y, by rw [hy, hx]⟩

/-- The references stay as they are, and the ports alike. -/
structure State.KeepsPorts (s t : State) : Prop where
  refs : t.cku.refs = s.cku.refs
  ports : s.ports.Alike t.ports

namespace State.KeepsPorts

variable {s t u : State}

theorem of_eq (hr : t.cku.refs = s.cku.refs) (hp : t.ports = s.ports) : s.KeepsPorts t := ⟨hr, .of_eq hp⟩

theorem refl (s : State) : s.KeepsPorts s := of_eq rfl rfl

theorem trans (h : s.KeepsPorts t) (k : t.KeepsPorts u) : s.KeepsPorts u := ⟨k.refs.trans h.refs, h.ports.trans k.ports⟩

theorem ite {p : Prop} [Decidable p] (h : s.KeepsPorts t) (k : s.KeepsPorts u) : s.KeepsPorts (if p then t else u) := by
  split
  · exact h
  · exact k

theorem foldl {α : Type} {f : State → α → State} (hf : ∀ (u : State) a, u.KeepsPorts (f u a)) (xs : List α) (h : s.KeepsPorts t) :
    s.KeepsPorts (xs.foldl f t) :=
  xs.foldlRecOn (motive := fun v => s.KeepsPorts v) f h (fun v hv a _ => hv.trans (hf v a))

theorem setCku (h : s.KeepsPorts t) (f : CkuG → CkuG) (hf : (f t.cku).refs = t.cku.refs) : s.KeepsPorts (t.setCku f) :=
  h.trans (of_eq hf rfl)

theorem of_frame (h : s.KeepsPorts t) {l : List Part} (hf : t.frame u l) (hc : .cku ∉ l) (hp : .ports ∉ l) : s.KeepsPorts u :=
  h.trans (of_eq (congrArg CkuG.refs (hf .cku hc)) (hf .ports hp))

theorem raise (h : s.KeepsPorts t) (ev : Ev) (part obj val : Nat) : s.KeepsPorts (t.raise ev part obj val) :=
  h.of_frame (t.raise_frame ev part obj val) (by decide) (by decide)

theorem setNet (h : s.KeepsPorts t) (f : NetG → NetG) : s.KeepsPorts (t.setNet f) := h.trans (of_eq rfl rfl)

theorem setFault (h : s.KeepsPorts t) (f : FaultG → FaultG) : s.KeepsPorts (t.setFault f) := h.trans (of_eq rfl rfl)

theorem maintEnd (h : s.KeepsPorts t) : s.KeepsPorts t.maintEnd := by
  unfold State.maintEnd
  split
  · exact h
  · exact (h.setFault _).raise _ _ _ _

theorem calAbort (h : s.KeepsPorts t) : s.KeepsPorts t.calAbort := by
  unfold State.calAbort
  split
  · exact h
  · have h1 := (h.setCku (fun c => { c with cal := none }) rfl).raise .ckuCal 0 0 2
    exact h1.maintEnd.ite h1

/-- R210: a direction that has learned of the selection. -/
theorem setSap_origin (h : s.KeepsPorts t) (p : Nat) (tx : Bool) (o : Bool) : s.KeepsPorts (t.setSap p tx { t.sapDir p tx with origin := o }) := by
  refine h.trans ⟨rfl, fun k => ?_, fun k => ⟨_, rfl⟩⟩
  simp only [State.setSap, Cells.get_put]
  split
  · next e => subst e; exact ⟨o, rfl⟩
  · exact ⟨_, rfl⟩

theorem setMadi_origin (h : s.KeepsPorts t) (p : Nat) (tx : Bool) (o : Bool) :
    s.KeepsPorts (t.setMadi p tx { t.madiDir p tx with origin := o }) := by
  refine h.trans ⟨rfl, fun k => ⟨_, rfl⟩, fun k => ?_⟩
  simp only [State.setMadi, Cells.get_put]
  split
  · next e => subst e; exact ⟨o, rfl⟩
  · exact ⟨_, rfl⟩

theorem sapOrigins (h : s.KeepsPorts t) : s.KeepsPorts t.sapOrigins := by
  have sap : ∀ (u : State) (i : Nat), u.KeepsPorts (u.sapOrigin (i / 2) (decide (i % 2 = 1))) := fun u i => by
    have h1 := (refl u).setSap_origin (i / 2) (decide (i % 2 = 1))
    exact (((h1 _).raise _ _ _ _).ite (h1 _)).ite (refl u)
  have madi : ∀ (u : State) (p : Nat), u.KeepsPorts (u.madiOrigin p) := fun u p => ((refl u).setMadi_origin p false _).ite (refl u)
  exact foldl madi _ (foldl sap _ h)

theorem takeUp (h : s.KeepsPorts t) (k : Nat) : s.KeepsPorts (t.takeUp k) :=
  ((h.setCku _ rfl).setNet _).ite (h.setCku _ rfl)

theorem switchTo (h : s.KeepsPorts t) (new cause : Nat) : s.KeepsPorts (t.switchTo new cause) := by
  unfold State.switchTo
  extract_lets old s1 s2 s3 s4
  have h2 : s.KeepsPorts s2 := (h.calAbort.setCku _ rfl).of_frame (s1.raiseD_frame _ _ _ _) (by decide) (by decide)
  have h3 : s.KeepsPorts s3 := (h2.ite ((h2.setNet _).raise _ _ _ _)).ite h2
  have h4 : s.KeepsPorts s4 := h3.ite (h3.takeUp new)
  exact h.ite h4.sapOrigins

theorem enterHoldover (h : s.KeepsPorts t) : s.KeepsPorts t.enterHoldover := by
  unfold State.enterHoldover
  extract_lets f s1
  have h1 : s.KeepsPorts s1 := (h.setCku _ rfl).raise _ _ _ _
  exact (h.setCku _ rfl).ite (((h1.setCku _ rfl).raise _ _ _ _).ite h1)

theorem disagreements (h : s.KeepsPorts t) : s.KeepsPorts t.disagreements := by
  unfold State.disagreements
  extract_lets eq pairs
  refine h.ite (foldl (fun u p => ?_) pairs h)
  exact ((refl u).setCku _ rfl).ite ((refl u).ite (((refl u).setCku _ rfl).raise _ _ _ _))

theorem evaluate (h : s.KeepsPorts t) : s.KeepsPorts t.evaluate := by
  unfold State.evaluate
  extract_lets new s1 s2
  have h1 : s.KeepsPorts s1 := h.switchTo _ _
  have h2 : s.KeepsPorts s2 := h1.enterHoldover.ite h1
  exact h.ite (h2.disagreements.setCku _ rfl)

end State.KeepsPorts

/-! ### A reference lost with its port (R281) -/

theorem State.loseRef_ports (s : State) (k : Nat) : (s.loseRef k).ports = s.ports := by
  unfold State.loseRef
  split <;> simp [State.updRef]

theorem State.updRef_ref (s : State) (k j : Nat) (f : RefSlot → RefSlot) :
    (s.updRef k f).cku.ref j = if j = k then f (s.cku.ref k) else s.cku.ref j := Cells.get_upd _ _ _ _ _

/-- A reference that is lost is lost; every other is as it was. -/
theorem State.loseRef_ref (s : State) (k j : Nat) : ((s.loseRef k).cku.ref j).st =
    if j = k ∧ (s.cku.ref k).st ≠ .disabled then .lost else (s.cku.ref j).st := by
  unfold State.loseRef
  split
  · next h => simp [h]
  · next h =>
    split
    · next hj => rw [hj.1, h]
    · rfl
  · next h _ =>
    have hd : (s.cku.ref k).st ≠ .disabled := h
    simp only [State.raise_fields, State.updRef_ref, apply_ite RefSlot.st, hd, ne_eq, not_false_eq_true, and_true]

/-- References lost one after the other. -/
theorem State.foldl_loseRef_ref (ks : List Nat) (s : State) (j : Nat) : ((ks.foldl State.loseRef s).cku.ref j).st =
    if j ∈ ks ∧ (s.cku.ref j).st ≠ .disabled then .lost else (s.cku.ref j).st := by
  induction ks generalizing s with
  | nil => simp
  | cons k ks ih =>
    rw [List.foldl_cons, ih, State.loseRef_ref]
    by_cases e : j = k
    · subst e
      by_cases hd : (s.cku.ref j).st = .disabled <;> simp [hd]
    · simp [e]

/-- Whether a slot that a port feeds may have edges depends on the ports' status and the committed port number. -/
theorem State.refAlive_alike {s t : State} (h : s.ports.Alike t.ports) (hat : t.at 0x40 7 3 = s.at 0x40 7 3) {k : Nat} (hk : k ∈ [5, 6, 7]) :
    t.refAlive k = s.refAlive k := by
  obtain ⟨hsap, hmadi⟩ := h
  obtain ⟨a, ha⟩ := hmadi 0
  obtain ⟨b, hb⟩ := hmadi 2
  obtain ⟨c, hc⟩ := hsap (2 * s.at 0x40 7 3)
  simp only [List.mem_cons, List.not_mem_nil, or_false] at hk
  rcases hk with rfl | rfl | rfl
  · simp only [State.refAlive, ha]
  · simp only [State.refAlive, hb]
  · simp only [State.refAlive, hat, hc]

section
variable (s : State)

/-- The slots that have lost their port since. -/
def State.deadRefs : List Nat :=
  ([5, 6, 7] : List Nat).filter (fun k => !s.refAlive k && decide ((s.cku.ref k).st ≠ .disabled) && decide ((s.cku.ref k).st ≠ .lost))

theorem State.portRefs_eq : s.portRefs = if s.deadRefs.isEmpty then s else (s.deadRefs.foldl State.loseRef s).evaluate := rfl

theorem State.foldl_loseRef_ports (ks : List Nat) : (ks.foldl State.loseRef s).ports = s.ports :=
  List.foldlRecOn (motive := fun t : State => t.ports = s.ports) ks State.loseRef rfl (fun t h k _ => (t.loseRef_ports k).trans h)

/-- Where no such slot is enabled nothing follows. -/
theorem State.portRefs_disabled {s : State} (h : ∀ k ∈ [5, 6, 7], (s.cku.ref k).st = .disabled) : s.portRefs = s := by
  rw [State.portRefs_eq, if_pos]
  exact List.isEmpty_iff.2 <| List.filter_eq_nil_iff.2 (fun k hk => by simp [h k hk])

theorem State.portRefs_ports : s.ports.Alike s.portRefs.ports := by
  rw [State.portRefs_eq]
  split
  · exact .of_eq rfl
  · exact (PortG.Alike.of_eq (s.foldl_loseRef_ports _)).trans (State.KeepsPorts.refl _).evaluate.ports

/-- An enabled slot whose port is out of service afterwards is lost. -/
theorem State.portRefs_lost {k : Nat} (hk : k ∈ [5, 6, 7]) (hd : (s.cku.ref k).st ≠ .disabled) (hal : s.portRefs.refAlive k = false) :
    (s.portRefs.cku.ref k).st = .lost := by
  have hstep := State.Retuned.foldl (fun u i => (State.Retuned.refl u).loseRef i) s.deadRefs (.refl s)
  have hat : s.portRefs.at 0x40 7 3 = s.at 0x40 7 3 := by
    rw [State.portRefs_eq]
    split
    · rfl
    · exact State.at_of_frame hstep.evaluate.frame (by decide) _ _ _
  rw [State.refAlive_alike s.portRefs_ports hat hk] at hal
  have hdead : (s.cku.ref k).st ≠ .lost → k ∈ s.deadRefs := fun hl => List.mem_filter.2 ⟨hk, by simp [hal, hd, hl]⟩
  rw [State.portRefs_eq]
  split
  · next he =>
    by_contra hl
    have := hdead hl
    rw [List.isEmpty_iff.1 he] at this
    cases this
  · have hrefs : (s.deadRefs.foldl State.loseRef s).evaluate.cku.refs = _ := (State.KeepsPorts.refl _).evaluate.refs
    rw [CkuG.ref, hrefs, ← CkuG.ref, State.foldl_loseRef_ref]
    by_cases hl : (s.cku.ref k).st = .lost
    · rw [hl, ite_self]
    · rw [if_pos ⟨hdead hl, hd⟩]

/-- The same after the loss has entered the input record, for a loss that leaves the clock unit. -/
theorem State.portRefs_note_lost {u : State} {l : List Part} (h : s.frame u l) (hl : .cku ∉ l) (i : InItem) {k : Nat} (hk : k ∈ [5, 6, 7])
    (hd : (s.cku.ref k).st ≠ .disabled) (hal : (u.portRefs.note i).refAlive k = false) : ((u.portRefs.note i).cku.ref k).st = .lost := by
  have hn := u.portRefs.note_frame i
  have hcku : u.cku = s.cku := h .cku hl
  rw [State.refAlive_alike (.of_eq (hn .ports (by decide))) (State.at_of_frame hn (by decide) _ _ _) hk] at hal
  have hcku' : (u.portRefs.note i).cku = u.portRefs.cku := hn .cku (by decide)
  rw [hcku']
  exact u.portRefs_lost hk (by rwa [hcku]) hal

/-- Where no port serves as a reference the record is all that follows. -/
theorem State.portRefs_note_frame {u : State} {l : List Part} (h : s.frame u l) (hl : .cku ∉ l) (i : InItem)
    (hd : ∀ k ∈ [5, 6, 7], (s.cku.ref k).st = .disabled) : u.frame (u.portRefs.note i) [.twin] := by
  have hcku : u.cku = s.cku := h .cku hl
  rw [State.portRefs_disabled (by rwa [hcku])]
  exact u.note_frame i

end

/-! ### Flags of a chip that takes its own decisions (R431) -/

/-- Whether the lead's decisions are taken instead is said by the straps and the twin's state. -/
theorem State.obeys_of_frame {s t : State} {l : List Part} (h : s.frame t l) (hl : ∀ p ∈ [Part.power, .twin], p ∉ l) : t.obeys = s.obeys := by
  have hp : t.power = s.power := h .power (hl _ (by decide))
  have ht : t.twin = s.twin := h .twin (hl _ (by decide))
  rw [State.obeys, State.paired, hp, ht, State.obeys, State.paired]

end Sys2Proof.Machine
end

section
/-! PROOFS. The serial audio ports (R207–R223): frames measured, received and sent, loss and resume, masks and stops; O43. -/

namespace Sys2Proof.Machine

open Fmt

/-! ### A direction read back -/

section
variable (s : State) (p : Nat) (tx : Bool) (d : PortDir)

@[simp] theorem State.sapDir_setSap : (s.setSap p tx d).sapDir p tx = d := Cells.get_put_same _ _ _ _

/-- A direction's configuration follows the fields that it started with. -/
theorem State.sapCfg_setSap {d : PortDir} (h : d.fields = (s.sapDir p tx).fields) (q : Nat) (ty : Bool) :
    (s.setSap p tx d).sapCfg q ty = s.sapCfg q ty := by
  have hdir : ∀ r tz, ((s.setSap p tx d).sapDir r tz).fields = (s.sapDir r tz).fields := fun r tz => by
    have he : (s.setSap p tx d).sapDir r tz = if sapKey r tz = sapKey p tx then d else s.sapDir r tz := Cells.get_put _ _ _ _ _
    rw [he]
    split
    · next e => rw [h, State.sapDir, State.sapDir, e]
    · rfl
  have hw : (s.setSap p tx d).sapW = s.sapW := by
    funext r tz f
    simp only [State.sapW, hdir]
    rfl
  rw [State.sapCfg, hw]
  rfl

end

theorem State.sapDir_of_frame {s t : State} {l : List Part} (h : s.frame t l) (hl : .ports ∉ l) (p : Nat) (tx : Bool) :
    t.sapDir p tx = s.sapDir p tx := by
  have hp : t.ports = s.ports := h .ports hl
  rw [State.sapDir, hp, State.sapDir]

theorem State.sapOwner_of_frame {s t : State} {l : List Part} (h : s.frame t l) (hl : ∀ p ∈ [Part.params, .power, .mere, .tarn], p ∉ l)
    (p : Nat) : t.sapOwner p = s.sapOwner p := by
  have hc : t.cap.legacy = s.cap.legacy := State.legacy_of_straps (congrArg PowerG.straps (h .power (hl _ (by decide))))
  rw [State.sapOwner, State.sapOwner, State.legSap, State.legSap, hc, State.at_of_frame h hl]

theorem PortDir.active_of_running {d : PortDir} (h : d.running = true) : d.active = true := by simp [PortDir.active, h]

/-- Counting a frame of a stop leaves what the frame carried. -/
theorem PortDir.stopStep_fields (d : PortDir) (n : Nat) : (d.stopStep n).nextStamp = d.nextStamp ∧ (d.stopStep n).tx = d.tx ∧
    (d.stopStep n).hiz = d.hiz := by
  unfold PortDir.stopStep
  split
  · exact ⟨rfl, rfl, rfl⟩
  · split_ifs <;> exact ⟨rfl, rfl, rfl⟩

/-! ### SAP_FRAME -/

/-- A master's frame is never a glitch. -/
theorem State.sapFrame_good {s : State} {c : SapCfg} {period bclks : Nat} (h : c.master = true ∨ s.sapClean c period bclks = true) :
    (!c.master && !s.sapClean c period bclks) = false := by
  rcases h with h | h <;> simp [h]

section
variable {s : State} {p : Nat} {tx : Bool} (hp : p < 16) (hdom : bit s.power.domains 3 = true) (ws : List Nat) (ph : Int) {period bclks : Nat}
include hp hdom

/-- A frame that keeps its period measures a direction that does not run (R221). -/
theorem sapFrame_measures (hc : (s.sapCfg p tx).master = true ∨ s.sapClean (s.sapCfg p tx) period bclks = true)
    (ha : (s.sapDir p tx).active = true) (hr : (s.sapDir p tx).running = false) :
    ∃ t, exec (.sapFrame p tx ws ph period bclks) s = .next t ∧
      t.sapDir p tx = { (s.sapDir p tx).count with
        measuring := true, meas := (s.sapDir p tx).meas + 1, tx := (s.sapDir p tx).tx.map (fun _ => 0)
        hiz := if tx then s.sapHiz p (s.sapCfg p tx) (s.sapDir p tx).mask else 0 } ∧ s.frame t [.ports] := by
  have hgood := State.sapFrame_good hc
  refine ⟨_, ?_, State.sapDir_setSap s p tx _, s.setSap_frame _ _ _ (by decide)⟩
  show execSapFrame p tx ws ph period bclks s = _
  simp only [execSapFrame, hgood, ha, hr, hdom, Nat.not_le.2 hp, Bool.not_true, Bool.false_eq_true, or_self, if_false]

/-- A good frame of a running direction (R211–R213). -/
theorem execSapFrame_good (hc : (s.sapCfg p tx).master = true ∨ s.sapClean (s.sapCfg p tx) period bclks = true)
    (hr : (s.sapDir p tx).running = true) : exec (.sapFrame p tx ws ph period bclks) s =
      .next ((s.sapTrack p tx (s.sapCfg p tx) period).sapGood p tx ws ph) := by
  have hgood := State.sapFrame_good hc
  have ha := PortDir.active_of_running hr
  show execSapFrame p tx ws ph period bclks s = _
  simp only [execSapFrame, hgood, ha, hr, hdom, Nat.not_le.2 hp, Bool.not_true, Bool.false_eq_true, or_self, if_false, if_true]

/-- A running slave's glitch is a flag (R219). -/
theorem execSapFrame_glitch (hm : (s.sapCfg p tx).master = false) (hc : s.sapClean (s.sapCfg p tx) period bclks = false)
    (hr : (s.sapDir p tx).running = true) : exec (.sapFrame p tx ws ph period bclks) s =
      .next (((s.setSap p tx (s.sapDir p tx).count).sapFill p tx period).sapFlag p tx 2) := by
  have ha := PortDir.active_of_running hr
  show execSapFrame p tx ws ph period bclks s = _
  simp only [execSapFrame, hm, hc, ha, hr, hdom, Nat.not_le.2 hp, Bool.not_true, Bool.not_false, Bool.and_self, Bool.false_eq_true, or_self,
    true_or, if_false, if_true]

end

section
variable {s : State} {p : Nat} {tx : Bool} {c : SapCfg} {d : PortDir}

theorem State.sapTrack_engine (h : c.kind = .engine) (period : Nat) : s.sapTrack p tx c period = s := if_pos (.inl (by simp [h]))

/-- A master's frame carries the sample that the MCC counts (R212). -/
theorem State.sapGood_master (h : (s.sapCfg p tx).clock = 0) (ws : List Nat) (ph : Int) :
    s.sapGood p tx ws ph = s.sapPassFrame p tx (s.sapCfg p tx) (s.sapDir p tx).count s.mcc ws := by
  simp [State.sapGood, SapCfg.tracks, h]

theorem State.sapZc_engine (s : State) : s.sapZc .engine = (s.tzc, s.lramp) := rfl

/-- What a slot receives of a frame (R213). -/
def sapHears (c : SapCfg) (ws : List Nat) (n tzc lramp k : Nat) (st : SlotSt) : SlotSt × Int :=
  st.sample (s32ToE48 (sapWord c.wordBits (ws.getD k 0))) n tzc lramp

/-- A receive frame at the engine rate, with no stamp missing before it. -/
theorem State.sapRx_engine (h : c.kind = .engine) {n : Nat} (hn : d.nextStamp = some n) (ws : List Nat) :
    s.sapRx p c d n ws = ((s.rxRow (sapRef0 .engine p) d n (sapHears c ws n s.tzc s.lramp)).1,
      { (s.rxRow (sapRef0 .engine p) d n (sapHears c ws n s.tzc s.lramp)).2 with nextStamp := some (n + 1) }) := by
  simp only [State.sapRx, h, State.sapZc_engine, State.rxGap_none s _ d hn]
  rfl

/-- The S32 value that a transmit slot is given at the engine rate (R212). -/
def State.exitValue (s : State) (p n k : Nat) : Int := toS 32 (wrapU 32 (s.portAt (sapRef0 .engine p + k) (n - 3)))

theorem State.sapTx_eq (n : Nat) : s.sapTx p c d n =
    (let r := (List.range c.slots).foldl (sendSlot (fun u k => u.sapTxValue p k c n) n (s.sapZc c.kind).1 (s.sapZc c.kind).2
      (fun _ => sapBits c.wordBits) (fun _ => 0) d.mask) (s, d, [])
    (r.1, { r.2.1 with tx := r.2.2, hiz := s.sapHiz p c d.mask })) := rfl

/-- A transmit frame at the engine rate: its words, and nothing but the direction changed. -/
theorem State.sapTx_engine (h : c.kind = .engine) (n : Nat) : ∃ e : PortDir, s.sapTx p c d n = (s, { e with
    tx := d.sent n s.tzc s.lramp (fun _ => sapBits c.wordBits) (fun _ => 0) (s.exitValue p n) c.slots, hiz := s.sapHiz p c d.mask }) := by
  have hv : ∀ k, s.sapTxValue p k c n = (s.exitValue p n k, s) := fun k => by simp only [State.sapTxValue, h]; rfl
  obtain ⟨e, he, -⟩ := foldl_sendSlot (value := fun u k => u.sapTxValue p k c n) n s.tzc s.lramp (fun _ => sapBits c.wordBits) (fun _ => 0) hv
    d c.slots
  refine ⟨e, ?_⟩
  rw [State.sapTx_eq, h, State.sapZc_engine, he]

/-- The direction that a frame leaves. -/
theorem State.sapPassFrame_rx (h : c.kind = .engine) {n : Nat} (hn : d.nextStamp = some n) (ws : List Nat) :
    ∃ e : PortDir, s.sapPassFrame p false c d n ws = (s.rxRow (sapRef0 .engine p) d n (sapHears c ws n s.tzc s.lramp)).1.setSap p false e ∧
      e.nextStamp = some (n + 1) := by
  have hm : d.slotNo c.kind n = n := by simp [PortDir.slotNo, h]
  simp only [State.sapPassFrame, hm, Bool.false_eq_true, if_false, State.sapRx_engine h hn]
  exact ⟨_, rfl, (PortDir.stopStep_fields _ _).1⟩

theorem State.sapPassFrame_tx (h : c.kind = .engine) (n : Nat) (ws : List Nat) : ∃ e : PortDir,
    s.sapPassFrame p true c d n ws = s.setSap p true e ∧ e.nextStamp = some (n + 1) ∧ e.hiz = s.sapHiz p c d.mask ∧
      e.tx = d.sent n s.tzc s.lramp (fun _ => sapBits c.wordBits) (fun _ => 0) (s.exitValue p n) c.slots := by
  have hm : d.slotNo c.kind n = n := by simp [PortDir.slotNo, h]
  obtain ⟨e, he⟩ := State.sapTx_engine (s := s) (p := p) (d := d) h n
  simp only [State.sapPassFrame, hm, if_true, he]
  obtain ⟨h1, h2, h3⟩ := PortDir.stopStep_fields { e with
    tx := d.sent n s.tzc s.lramp (fun _ => sapBits c.wordBits) (fun _ => 0) (s.exitValue p n) c.slots, hiz := s.sapHiz p c d.mask
    nextStamp := some (n + 1) } n
  exact ⟨_, rfl, h1, h3, h2⟩

end

section
variable {s : State} {p : Nat} (hp : p < 16) (hdom : bit s.power.domains 3 = true) (ws : List Nat) (ph : Int) {period bclks : Nat}
include hp hdom

/-- A master receiver's frame: the words of its mask's slots through their stages, at its stamp (R212, R213). -/
theorem sapFrame_receives (hc : (s.sapCfg p false).master = true ∨ s.sapClean (s.sapCfg p false) period bclks = true)
    (hr : (s.sapDir p false).running = true) (hk : (s.sapCfg p false).kind = .engine) (h0 : (s.sapCfg p false).clock = 0)
    (hn : (s.sapDir p false).nextStamp = some s.mcc) (hlt : s.mcc < 2 ^ 64) :
    ∃ t, exec (.sapFrame p false ws ph period bclks) s = .next t ∧
      (∀ k, k < 64 → bit (s.sapDir p false).mask k = true → t.rxAt (sapRef0 .engine p + k) s.mcc =
        (((s.sapDir p false).slot k).sample (s32ToE48 (sapWord (s.sapCfg p false).wordBits (ws.getD k 0))) s.mcc s.tzc s.lramp).2) ∧
      (∀ k m, m < 2 ^ 64 → m ≠ s.mcc ∨ 64 ≤ k ∨ bit (s.sapDir p false).mask k = false →
        t.rxAt (sapRef0 .engine p + k) m = s.rxAt (sapRef0 .engine p + k) m) ∧
      (t.sapDir p false).nextStamp = some (s.mcc + 1) ∧ s.frame t [.audio, .ports] := by
  obtain ⟨e, he, hnext⟩ := State.sapPassFrame_rx (s := s) (p := p) (d := (s.sapDir p false).count) hk hn ws
  refine ⟨_, execSapFrame_good hp hdom ws ph hc hr, ?_⟩
  rw [State.sapTrack_engine hk, State.sapGood_master h0, he]
  refine ⟨fun k hk64 hb => State.rxRow_at _ _ _ s (s.sapDir p false).count hlt hk64 hb,
    fun k m hm h => State.rxRow_other _ _ _ s (s.sapDir p false).count hlt hm h, by rw [State.sapDir_setSap, hnext], ?_⟩
  exact State.frame_trans (State.rxRow_frame _ _ _ _ _) (State.setSap_frame _ _ _ _ (l := [.ports]) (by decide))

/-- A master transmitter's frame: the stages' results in its mask's slots, 0 in the others (R212, R213). -/
theorem sapFrame_sends (hc : (s.sapCfg p true).master = true ∨ s.sapClean (s.sapCfg p true) period bclks = true)
    (hr : (s.sapDir p true).running = true) (hk : (s.sapCfg p true).kind = .engine) (h0 : (s.sapCfg p true).clock = 0) :
    ∃ t, exec (.sapFrame p true ws ph period bclks) s = .next t ∧ (t.sapDir p true).tx.length = (s.sapCfg p true).slots ∧
      (t.sapDir p true).hiz = s.sapHiz p (s.sapCfg p true) (s.sapDir p true).mask ∧
      (∀ k, k < (s.sapCfg p true).slots → (t.sapDir p true).tx[k]? = some (if bit (s.sapDir p true).mask k then
        sapBits (s.sapCfg p true).wordBits (((s.sapDir p true).slot k).sample
          (toS 32 (wrapU 32 (s.portAt (sapRef0 .engine p + k) (s.mcc - 3)))) s.mcc s.tzc s.lramp).2 else 0)) ∧
      (t.sapDir p true).nextStamp = some (s.mcc + 1) ∧ s.frame t [.ports] := by
  obtain ⟨e, he, hnext, hhiz, htx⟩ := State.sapPassFrame_tx (s := s) (p := p) (d := (s.sapDir p true).count) hk s.mcc ws
  refine ⟨_, execSapFrame_good hp hdom ws ph hc hr, ?_⟩
  rw [State.sapTrack_engine hk, State.sapGood_master h0, he, State.sapDir_setSap, htx, PortDir.sent, List.length_map, List.length_range]
  refine ⟨rfl, hhiz, fun k hk64 => ?_, hnext, s.setSap_frame _ _ _ (by decide)⟩
  rw [List.getElem?_map, List.getElem?_range hk64]
  rfl

end

/-! ### What loss and silence can touch (R219, R220) -/

/-- What samples passed on behind a direction can touch: the spring mixer, the decimators and the converters. -/
def passParts : List Part := [.spring, .audio, .conv, .free, .ev, .sessions]

theorem convParts_pass : convParts ⊆ passParts := by decide

section
variable (s : State)

theorem State.setSpringG_frame (g : SpringG) {l : List Part} (h : .spring ∈ l) : s.frame { s with spring := g } l :=
  State.setSpring_frame_mem s (fun _ => g) h

theorem State.springSlip_frame (ref : Nat) : s.frame (s.springSlip ref) passParts := by
  refine State.frame_foldl (fun u c => ?_) _ s
  extract_lets due g s1
  have h1 : u.frame s1 passParts := u.setSpringG_frame _ (by decide)
  exact State.frame_ite (State.frame_next h1 (State.frame_mono (s1.raise_frame _ _ _ _) (by decide))) h1

theorem State.springPush_frame (ref : Nat) (v : Int) : s.frame (s.springPush ref v) passParts := by
  have h1 := fun g => s.setSpringG_frame g (l := passParts) (by decide)
  exact State.frame_ite (State.frame_next (h1 _) (State.springSlip_frame _ _)) (h1 _)

theorem State.decSample_frame (i : Nat) (x : Int) : s.frame (s.decSample i x) passParts :=
  State.frame_next (State.frame_mono (s.updDec_frame_conv i _) convParts_pass) (State.springPush_frame _ _ _)

theorem State.decFrame_frame (p : Nat) (k : SapKind) (slot : Nat) (x : Int) : s.frame (s.decFrame p k slot x) passParts := by
  refine State.frame_foldl (fun u i => ?_) _ s
  cases k with
  | spring8 => exact u.decSample_frame i x
  | spring16 =>
    have h1 := State.frame_mono (u.updDec_frame_conv i (fun q => { q with phase16 := ((u.decCh i).phase16 + 1) % 2 })) convParts_pass
    exact State.frame_ite (State.frame_next (State.frame_next h1 (State.takeFree_frame _ (by decide))) (State.decSample_frame _ _ _)) h1
  | engine => exact u.frame_refl _
  | src => exact u.frame_refl _

theorem State.sapPass_frame (p : Nat) (k : SapKind) (slot : Nat) (y : Int) : s.frame (s.sapPass p k slot y) passParts := by
  cases k with
  | spring8 => exact State.frame_next (s.springPush_frame _ y) (State.decFrame_frame _ p .spring8 slot y)
  | spring16 => exact s.decFrame_frame p .spring16 slot y
  | src => exact State.frame_mono (s.srcIn_frame _ y) convParts_pass
  | engine => exact s.frame_refl _

theorem State.sapFill_frame (p : Nat) (tx : Bool) (gap : Nat) : s.frame (s.sapFill p tx gap) passParts :=
  State.frame_ite (s.frame_refl _) (State.frame_foldl (fun u _ => State.frame_foldl (fun v _ => v.sapPass_frame _ _ _ _) _ u) _ s)

/-- At the engine rate no frame is filled in. -/
theorem State.sapFill_engine {p : Nat} {tx : Bool} (h : (s.sapCfg p tx).kind = .engine) (gap : Nat) : s.sapFill p tx gap = s :=
  if_pos (by simp [h])

variable (p : Nat) (tx : Bool)

/-- A receive direction brought up to date (R220). -/
theorem State.sapIdle_frame (upTo : Nat) : s.frame (s.sapIdle p tx upTo) (.ports :: convParts) := by
  refine State.frame_ite (s.frame_refl _) (State.frame_ite ?_ (State.frame_ite (s.frame_refl _) ?_))
  · exact State.frame_next (State.frame_mono (s.rxGap_frame _ _ upTo) (by decide)) (State.setSap_frame _ _ _ _ (by decide))
  · exact State.frame_next (State.frame_mono (s.idleTo_frame _ _ _) (by decide)) (State.setSap_frame _ _ _ _ (by decide))

theorem State.sapIdle_still (upTo : Nat) : ((s.sapIdle p tx upTo).sapDir p tx).still = (s.sapDir p tx).still := by
  unfold State.sapIdle
  cases tx with
  | true => rfl
  | false =>
    dsimp only
    split_ifs
    · rfl
    · rw [State.sapDir_setSap, State.rxGap_still]
    · rfl
    · rw [State.sapDir_setSap, State.idleTo_still]

variable {s p tx}

/-- At the engine rate only the samples of the missing stamps are written. -/
theorem State.sapIdle_engine_frame (h : (s.sapCfg p tx).kind = .engine) (upTo : Nat) : s.frame (s.sapIdle p tx upTo) [.audio, .ports] := by
  unfold State.sapIdle
  simp only [h, if_true]
  exact State.frame_ite (s.frame_refl _)
    (State.frame_trans (s.rxGap_frame _ _ upTo) (State.setSap_frame _ _ _ _ (l := [.ports]) (by decide)))

end

/-! ### Loss (R219) -/

/-- What a flag can touch before the references of the port are looked at. -/
def lossParts : List Part := .ports :: .legacy :: passParts

section
variable (s : State) (p : Nat) (tx : Bool)

/-- The samples of a direction before its flag, and the direction at the flag. -/
def State.sapHeard : State × PortDir :=
  if tx ∨ (s.sapCfg p tx).kind ≠ .engine then (s, { s.sapDir p tx with idle := s.framesAt (s.sapCfg p tx).rate })
  else s.rxGap (sapRef0 .engine p) (s.sapDir p tx) s.mcc

theorem State.sapHeard_frame : s.frame (s.sapHeard p tx).1 [.audio] := by
  unfold State.sapHeard
  split
  · exact s.frame_refl _
  · exact s.rxGap_frame _ _ _

theorem State.sapHeard_still : (s.sapHeard p tx).2.still = (s.sapDir p tx).still := by
  unfold State.sapHeard
  split
  · rfl
  · exact s.rxGap_still _ _ _

/-- The direction that a flag leaves. -/
def State.sapFlagged : PortDir :=
  if tx then { (s.sapHeard p tx).2.flag tx with hiz := s.sapHiz p (s.sapCfg p tx) (s.sapDir p tx).mask } else (s.sapHeard p tx).2.flag tx

theorem State.sapFlagged_fields : (s.sapFlagged p tx).loss = true ∧ (s.sapFlagged p tx).running = false ∧
    (s.sapFlagged p tx).losses = satInc (s.sapDir p tx).losses 1 := by
  obtain ⟨-, -, hlosses, -⟩ := PortDir.still_fields (s.sapHeard_still p tx)
  rw [← hlosses]
  cases tx
  · exact PortDir.flag_fields (s.sapHeard p false).2 false
  · exact PortDir.flag_fields (s.sapHeard p true).2 true

/-- The flag and its event. -/
def State.sapTellsLoss (cause : Nat) : State :=
  ((s.sapHeard p tx).1.setSap p tx (s.sapFlagged p tx)).raise .sapLoss (s.sapOwner p) (sapObj p tx) cause

theorem State.setLeg_frame (s : State) (f : LegG → LegG) {l : List Part} (h : .legacy ∈ l) : s.frame (s.setLeg f) l :=
  State.frame_mono (a := [.legacy]) (by simp [State.frame_iff, Part.same]) (by simpa using h)

/-- What hangs on a direction that ran when it was flagged: the legacy status, converters, spring outputs and decimators. -/
def State.sapLossPasses (u : State) : State :=
  let v := if s.legSap p && !tx then u.setLeg (fun g => { g with status := setBit g.status (1 + p) true }) else u
  if !(s.sapDir p tx).running then v
  else match (s.sapCfg p tx).kind with
    | .src => v.srcsOfPort (0x0100 + p) (b2n tx) SrcCh.portLost
    | .engine => v
    | k => if tx then v.setSpring (fun g => { g with stopped := g.stopped ++ (maskSlots (s.sapDir p tx).mask 4).map (sapRef0 k p + ·) })
      else v.decLose p

theorem State.sapLose_eq (cause : Nat) : s.sapLose p tx cause = (s.sapLossPasses p tx (s.sapTellsLoss p tx cause)).portRefs := by
  simp only [State.sapLose, State.sapLossPasses, State.sapTellsLoss, State.sapFlagged, State.sapHeard]
  cases (s.sapCfg p tx).kind <;> rfl

theorem State.sapLossPasses_frame (u : State) : u.frame (s.sapLossPasses p tx u) (.legacy :: passParts) := by
  unfold State.sapLossPasses
  extract_lets v
  have hv : u.frame v (.legacy :: passParts) := State.frame_ite (u.setLeg_frame _ (by decide)) (u.frame_refl _)
  have hspring := fun f => State.frame_next hv (v.setSpring_frame_mem f (by decide))
  have hdec := State.frame_next hv (State.frame_mono (v.decLose_frame p) (by decide))
  refine State.frame_ite hv ?_
  cases (s.sapCfg p tx).kind with
  | engine => exact hv
  | src => exact State.frame_next hv (State.frame_mono (v.srcsOfPort_frame _ _ _) (by decide))
  | spring8 => exact State.frame_ite (hspring _) hdec
  | spring16 => exact State.frame_ite (hspring _) hdec

variable {p tx} in
/-- At the engine rate that is the legacy status. -/
theorem State.sapLossPasses_engine_frame (h : (s.sapCfg p tx).kind = .engine) (u : State) : u.frame (s.sapLossPasses p tx u) [.legacy] := by
  unfold State.sapLossPasses
  rw [h]
  have hv := State.frame_ite (p := (s.legSap p && !tx) = true) (u.setLeg_frame (fun g => { g with status := setBit g.status (1 + p) true })
    (l := [.legacy]) (by decide)) (u.frame_refl _)
  exact State.frame_ite hv hv

end

/-- A flag raises its event over the state before it. -/
theorem State.sapTellsLoss_told {s u : State} {l : List Part} (h : s.frame u l)
    (hl : ∀ p ∈ [Part.ev, .sessions, .mcc, .power, .params, .mere, .tarn], p ∉ l) (p : Nat) (tx : Bool) (cause : Nat) :
    s.told (u.sapTellsLoss p tx cause) .sapLoss (s.sapOwner p) (sapObj p tx) cause := by
  have hset : u.frame ((u.sapHeard p tx).1.setSap p tx (u.sapFlagged p tx)) [.audio, .ports] :=
    State.frame_trans (u.sapHeard_frame p tx) (State.setSap_frame _ _ _ _ (l := [.ports]) (by decide))
  rw [State.sapTellsLoss, State.sapOwner_of_frame h (fun q hq => hl q (by revert q; decide))]
  refine State.raise_told_of_frame (State.frame_trans h hset) (fun q hq => ?_) _ _ _ _
  have hq' : q ∉ [Part.audio, .ports] := by revert q; decide
  simp [hl q (by revert q; decide), hq']

theorem State.sapTellsLoss_frame (s : State) (p : Nat) (tx : Bool) (cause : Nat) : s.frame (s.sapTellsLoss p tx cause) lossParts := by
  have hset : s.frame ((s.sapHeard p tx).1.setSap p tx (s.sapFlagged p tx)) lossParts :=
    State.frame_next (State.frame_mono (s.sapHeard_frame p tx) (by decide)) (State.setSap_frame _ _ _ _ (by decide))
  exact State.frame_next hset (State.frame_mono (State.raise_frame _ _ _ _ _) (by decide))

/-- The direction that a flag leaves, whatever the references do. -/
theorem State.sapLose_dir (s : State) (p : Nat) (tx : Bool) (cause : Nat) :
    ((s.sapLose p tx cause).sapDir p tx).loss = true ∧ ((s.sapLose p tx cause).sapDir p tx).running = false ∧
      ((s.sapLose p tx cause).sapDir p tx).losses = satInc (s.sapDir p tx).losses 1 := by
  have hpass := State.sapDir_of_frame (s.sapLossPasses_frame p tx (s.sapTellsLoss p tx cause)) (by decide) p tx
  have hset : (s.sapTellsLoss p tx cause).sapDir p tx = s.sapFlagged p tx :=
    (State.sapDir_of_frame (State.raise_frame _ _ _ _ _) (by decide) p tx).trans (State.sapDir_setSap _ _ _ _)
  obtain ⟨o, ho⟩ := (s.sapLossPasses p tx (s.sapTellsLoss p tx cause)).portRefs_ports.1 (sapKey p tx)
  have hdir : (s.sapLose p tx cause).sapDir p tx = { s.sapFlagged p tx with origin := o } := by
    rw [State.sapLose_eq, State.sapDir, ho, ← State.sapDir, hpass, hset]
  rw [hdir]
  exact s.sapFlagged_fields p tx

/-- What a flag does, from a state in which the missing frames before it have been filled in. -/
theorem State.sapFlag_loses {s u : State} {p : Nat} {tx : Bool} (hu : s.frame u lossParts)
    (hd : (u.sapDir p tx).losses = (s.sapDir p tx).losses) (ho : s.obeys = false)
    (he : (s.sapCfg p tx).kind = .engine → s.frame u [.ports] ∧ (u.sapCfg p tx).kind = .engine) (cause : Nat) :
    ((u.sapFlag p tx cause).sapDir p tx).loss = true ∧ ((u.sapFlag p tx cause).sapDir p tx).running = false ∧
      ((u.sapFlag p tx cause).sapDir p tx).losses = satInc (s.sapDir p tx).losses 1 ∧
      (∀ k ∈ [5, 6, 7], (s.cku.ref k).st ≠ .disabled → (u.sapFlag p tx cause).refAlive k = false →
        ((u.sapFlag p tx cause).cku.ref k).st = .lost) ∧
      ((∀ k ∈ [5, 6, 7], (s.cku.ref k).st = .disabled) →
        ((s.sapCfg p tx).kind = .engine → s.told (u.sapFlag p tx cause) .sapLoss (s.sapOwner p) (sapObj p tx) cause) ∧
        s.frame (u.sapFlag p tx cause) [.audio, .ports, .conv, .spring, .free, .draws, .ev, .sessions, .legacy, .twin]) := by
  have hflag : u.sapFlag p tx cause = (u.sapLose p tx cause).note (.sapLoss p (b2n tx) cause (u.sapDir p tx).frames) :=
    if_neg (by rw [State.obeys_of_frame hu (by decide), ho]; decide)
  have hdir := State.sapDir_of_frame ((u.sapLose p tx cause).note_frame (.sapLoss p (b2n tx) cause (u.sapDir p tx).frames)) (by decide) p tx
  obtain ⟨hloss, hrun, hlosses⟩ := u.sapLose_dir p tx cause
  have htells : s.frame (u.sapTellsLoss p tx cause) lossParts := State.frame_next hu (u.sapTellsLoss_frame p tx cause)
  have hpasses : s.frame (u.sapLossPasses p tx (u.sapTellsLoss p tx cause)) lossParts :=
    State.frame_next htells (State.frame_mono (u.sapLossPasses_frame p tx _) (by decide))
  rw [hflag, hdir, ← hd]
  refine ⟨hloss, hrun, hlosses, ?_⟩
  rw [State.sapLose_eq]
  refine ⟨fun k hk => s.portRefs_note_lost hpasses (by decide) _ hk, fun hdis => ?_⟩
  have hnote := s.portRefs_note_frame hpasses (by decide) (.sapLoss p (b2n tx) cause (u.sapDir p tx).frames) hdis
  refine ⟨fun hk => ?_, State.frame_mono (State.frame_trans hpasses hnote) (by decide)⟩
  obtain ⟨hports, hengine⟩ := he hk
  have hleg := u.sapLossPasses_engine_frame hengine (u.sapTellsLoss p tx cause)
  exact State.told_of_frame (State.told_of_frame (State.sapTellsLoss_told hports (by decide) p tx cause) hleg (by decide) (by decide))
    hnote (by decide) (by decide)

section
variable {s : State} {p : Nat} {tx : Bool} (hp : p < 16) (hr : (s.sapDir p tx).running = true) (hm : (s.sapCfg p tx).master = false)
include hp hr hm

/-- Two frame periods without a clock are a stop, fewer are none (R219). -/
theorem execSapClockStop_running (idle : Nat) : exec (.sapClockStop p tx idle) s =
    .next (if idle * (s.sapCfg p tx).rate < 2 * s.amclk then s else (s.sapFill p tx idle).sapFlag p tx 1) := by
  show execSapClockStop p tx idle s = _
  simp only [execSapClockStop, hr, hm, Nat.not_le.2 hp, Bool.true_or, Bool.not_true, Bool.false_eq_true, or_false, false_or]
  split <;> rfl

end

/-! ### Resume (R221) -/

/-- A direction in service. -/
def PortDir.resumed (d : PortDir) : PortDir :=
  { d with running := true, loss := false, measuring := false, mismatch := false, starting := false, meas := 0, phase := none }

/-- Slots that a pending mask change has muted return muted (R217). -/
def PortDir.muteLeaving (d d0 : PortDir) : PortDir :=
  match d0.wanted.orElse (fun _ => d0.shadow.map (·.1)) with
  | some m => d.mapSlots ((maskSlots d.mask 64).filter (fun k => !bit m k || decide ((d0.slot k).z.tgt = 0))) (fun _ => SlotSt.reset)
  | none => d

theorem PortDir.muteLeaving_still (d d0 : PortDir) : (d.muteLeaving d0).still = d.still := by
  unfold PortDir.muteLeaving
  split <;> rfl

section
variable (s : State) (p : Nat) (tx muted : Bool)

/-- The direction that runs again, its slots muted or returning at zero. -/
def State.sapReturned : PortDir :=
  let d0 := (s.sapIdle p tx s.mcc).sapDir p tx
  let d1 := d0.resumed
  (if muted then d1.each (fun _ => SlotSt.reset) else d1.startSlots (d1.now (s.sapCfg p tx).kind s.mcc) (s.sapStrict p)).muteLeaving d0

theorem State.sapReturned_fields : (s.sapReturned p tx muted).running = true ∧ (s.sapReturned p tx muted).loss = false ∧
    (s.sapReturned p tx muted).mask = (s.sapDir p tx).mask := by
  obtain ⟨-, hmask, -⟩ := PortDir.still_fields (s.sapIdle_still p tx s.mcc)
  have hstill : (s.sapReturned p tx muted).still = ((s.sapIdle p tx s.mcc).sapDir p tx).resumed.still := by
    refine (PortDir.muteLeaving_still _ _).trans ?_
    cases muted <;> rfl
  obtain ⟨-, hm, -, hr, hl, -⟩ := PortDir.still_fields hstill
  exact ⟨hr, hl, hm.trans hmask⟩

/-- What converters and decimators behind the direction do then. -/
def State.sapRunPasses (u : State) : State :=
  match (s.sapCfg p tx).kind with
  | .src => u.srcsOfPort (0x0100 + p) (b2n tx) SrcCh.acquire
  | .engine => u
  | _ => if tx then u else u.decResume p

theorem State.sapRunPasses_frame (u : State) : u.frame (s.sapRunPasses p tx u) convParts := by
  unfold State.sapRunPasses
  cases (s.sapCfg p tx).kind with
  | engine => exact u.frame_refl _
  | src => exact u.srcsOfPort_frame _ _ _
  | spring8 => exact State.frame_ite (u.frame_refl _) (u.decResume_frame p)
  | spring16 => exact State.frame_ite (u.frame_refl _) (u.decResume_frame p)

/-- The direction returned. -/
def State.sapReturns : State := (s.sapIdle p tx s.mcc).setSap p tx (s.sapReturned p tx muted)

theorem State.sapReturns_frame : s.frame (s.sapReturns p tx muted) (.ports :: convParts) :=
  State.frame_next (s.sapIdle_frame p tx s.mcc) (State.setSap_frame _ _ _ _ (by decide))

variable {s p tx}

/-- With no shadow mask a direction that runs tells it, and what hangs on it follows. -/
theorem State.sapRun_eq (h : (s.sapDir p tx).shadow = none) :
    s.sapRun p tx muted = s.sapRunPasses p tx ((s.sapReturns p tx muted).raise .sapResume (s.sapOwner p) (sapObj p tx) 0) := by
  obtain ⟨-, -, -, -, -, hshadow⟩ := PortDir.still_fields (s.sapIdle_still p tx s.mcc)
  rw [h] at hshadow
  have hrun : s.sapRun p tx muted = (match ((s.sapIdle p tx s.mcc).sapDir p tx).shadow with
      | some (m, _) => (s.sapRunPasses p tx ((s.sapReturns p tx muted).raise .sapResume (s.sapOwner p) (sapObj p tx) 0)).sapLayoutAt p tx m
      | none => s.sapRunPasses p tx ((s.sapReturns p tx muted).raise .sapResume (s.sapOwner p) (sapObj p tx) 0)) := rfl
  rw [hrun, hshadow]

theorem State.sapReturns_engine_frame (h : (s.sapCfg p tx).kind = .engine) : s.frame (s.sapReturns p tx muted) [.audio, .ports] :=
  State.frame_next (State.sapIdle_engine_frame h s.mcc) (State.setSap_frame _ _ _ _ (by decide))

/-- What a resume does (R221). -/
theorem State.sapResume_runs (hs : (s.sapDir p tx).shadow = none) (ho : s.obeys = false) :
    ((s.sapResume p tx muted).sapDir p tx).running = true ∧ ((s.sapResume p tx muted).sapDir p tx).loss = false ∧
      ((s.sapResume p tx muted).sapDir p tx).mask = (s.sapDir p tx).mask ∧
      ((s.sapCfg p tx).kind = .engine → s.told (s.sapResume p tx muted) .sapResume (s.sapOwner p) (sapObj p tx) 0) ∧
      s.frame (s.sapResume p tx muted) [.audio, .ports, .conv, .free, .ev, .sessions, .twin] := by
  have hres : s.sapResume p tx muted = (s.sapRun p tx muted).note (.sapResume p (b2n tx) muted (s.sapDir p tx).frames) :=
    if_neg (by rw [ho]; decide)
  rw [hres, State.sapRun_eq muted hs]
  have hnote := State.note_frame (s.sapRunPasses p tx ((s.sapReturns p tx muted).raise .sapResume (s.sapOwner p) (sapObj p tx) 0))
    (.sapResume p (b2n tx) muted (s.sapDir p tx).frames)
  have hpass := s.sapRunPasses_frame p tx ((s.sapReturns p tx muted).raise .sapResume (s.sapOwner p) (sapObj p tx) 0)
  have hraise := (s.sapReturns p tx muted).raise_frame .sapResume (s.sapOwner p) (sapObj p tx) 0
  have hdir := (State.sapDir_of_frame (State.frame_trans hraise (State.frame_trans hpass hnote)) (by decide) p tx).trans
    (State.sapDir_setSap (s.sapIdle p tx s.mcc) p tx (s.sapReturned p tx muted))
  rw [hdir]
  obtain ⟨hr, hl, hm⟩ := s.sapReturned_fields p tx muted
  refine ⟨hr, hl, hm, fun hk => ?_,
    State.frame_mono (State.frame_trans (State.frame_trans (State.frame_trans (s.sapReturns_frame p tx muted) hraise) hpass) hnote) (by decide)⟩
  have hid : ∀ u, s.sapRunPasses p tx u = u := fun u => by rw [State.sapRunPasses, hk]
  rw [hid] at hnote ⊢
  exact State.told_of_frame (State.raise_told_of_frame (State.sapReturns_engine_frame muted hk) (by decide) _ _ _ _) hnote (by decide) (by decide)

end

section
variable {s : State} {p : Nat} {tx : Bool} (hp : p < 16) {period : Nat} (hr : (s.sapDir p tx).running = false)
  (hme : (s.sapDir p tx).measuring = true) (hge : 64 ≤ (s.sapDir p tx).meas) (hm : (s.sapCfg p tx).master = false)
include hp hr hme hge hm

/-- A measurement whose rate fits is a resume. -/
theorem execSapRateMeasured_fits (hrate : rateMatches s.amclk period (s.sapCfg p tx).rate = true) :
    exec (.sapRateMeasured p tx period ((s.sapCfg p tx).slots * (s.sapCfg p tx).slotBits)) s =
      .next (s.sapResume p tx (decide ((s.sapCfg p tx).clock = 3))) := by
  show execSapRateMeasured p tx period _ s = _
  simp [execSapRateMeasured, hr, hme, hm, Nat.not_le.2 hp, Nat.not_lt.2 hge, hrate]

/-- Else the direction says so, once (R221). -/
theorem execSapRateMeasured_misfits (hrate : rateMatches s.amclk period (s.sapCfg p tx).rate = false) (hc : (s.sapCfg p tx).clock ≠ 3)
    (hmis : (s.sapDir p tx).mismatch = false) :
    exec (.sapRateMeasured p tx period ((s.sapCfg p tx).slots * (s.sapCfg p tx).slotBits)) s =
      .next ((s.setSap p tx { s.sapDir p tx with mismatch := true, meas := 0 }).raiseD .sapRate (s.sapOwner p) (sapObj p tx)
        [rateOf s.amclk period]) := by
  show execSapRateMeasured p tx period _ s = _
  simp [execSapRateMeasured, hr, hme, hm, Nat.not_le.2 hp, Nat.not_lt.2 hge, hrate, hc, hmis]

end

/-- A change of a direction that an event with a detail entry tells. -/
theorem State.setSap_toldD (s : State) (p : Nat) (tx : Bool) (d : PortDir) (ev : Ev) (part obj : Nat) (c : List Nat) :
    ((s.setSap p tx d).raiseD ev part obj c).sapDir p tx = d ∧ s.toldD ((s.setSap p tx d).raiseD ev part obj c) ev part obj c ∧
      s.frame ((s.setSap p tx d).raiseD ev part obj c) [.ports, .ev, .sessions] :=
  have hraise := State.raiseD_frame (s.setSap p tx d) ev part obj c
  ⟨(State.sapDir_of_frame hraise (by decide) p tx).trans (State.sapDir_setSap s p tx d), State.raiseD_told s _ ev part obj c rfl rfl rfl rfl,
    State.frame_trans (s.setSap_frame p tx d (l := [.ports]) (by decide)) hraise⟩

/-! ### Masks and stops (R215, R217) -/

/-- What EV_SAP_LAYOUT holds: the direction, its next frame's number and, on the clocks 0 and 1, its stamp (log entries 110, 172). -/
def State.sapLayoutWords (s : State) (p : Nat) (tx : Bool) : List Nat :=
  [p, b2n tx, ((s.sapDir p tx).frames + 1) % 2 ^ 32] ++
    if (s.sapCfg p tx).clock ≤ 1 then two (s.sapStamp (s.sapCfg p tx) (s.sapDir p tx)) else []

/-- A shadow mask that takes effect: the direction with that mask, the reservations that follow it, and the event. -/
theorem State.sapLayoutAt_eq (s : State) (p : Nat) (tx : Bool) (m : Nat) : ∃ d : PortDir, d.mask = m ∧ d.shadow = none ∧
    s.sapLayoutAt p tx m = (s.setSap p tx d).srcRefresh.raiseD .sapLayout (s.sapOwner p) (sapObj p tx) (s.sapLayoutWords p tx) :=
  ⟨_, rfl, rfl, rfl⟩

section
variable {s : State} {p : Nat} {tx : Bool} (hp : p < 16)
include hp

/-- When every leaving slot is silent the shadow mask is written. -/
theorem sapMaskShadowWrite_writes {m : Nat} {d1 : PortDir} (hd : (s.sapIdle p tx s.mcc).sapDir p tx = d1) (hw : d1.wanted = some m)
    (hsil : ∀ k ∈ maskSlots d1.mask 64, bit m k = true ∨ (d1.slot k).silent (d1.now (s.sapCfg p tx).kind s.mcc) = true) :
    ∃ t, exec (.sapMaskShadowWrite p tx) s = .next t ∧ t.sapDir p tx = { d1 with wanted := none, shadow := some (m, 2) } ∧
      (tx = true → d1 = s.sapDir p tx ∧ s.frame t [.ports]) ∧ s.frame t [.audio, .ports, .conv, .free, .ev, .sessions] := by
  have hall : (maskSlots d1.mask 64).all (fun k => bit m k || (d1.slot k).silent (d1.now (s.sapCfg p tx).kind s.mcc)) = true :=
    List.all_eq_true.2 (fun k hk => Bool.or_eq_true_iff.2 (hsil k hk))
  have hset : ∀ l, .ports ∈ l → (s.sapIdle p tx s.mcc).frame ((s.sapIdle p tx s.mcc).setSap p tx
      { d1 with wanted := none, shadow := some (m, 2) }) l := fun l h => State.setSap_frame _ _ _ _ h
  refine ⟨_, ?_, State.sapDir_setSap (s.sapIdle p tx s.mcc) p tx _, ?_,
    State.frame_mono (State.frame_next (s.sapIdle_frame p tx s.mcc) (hset _ (by decide))) (by decide)⟩
  · show execSapMaskShadowWrite p tx s = _
    simp only [execSapMaskShadowWrite, hd, hw, hall, Nat.not_le.2 hp, Bool.not_true, Bool.false_eq_true, or_self, if_false]
  · rintro rfl
    exact ⟨hd.symm, hset _ (by decide)⟩

/-- A stop ends when its frames of zero have passed (R215). -/
theorem sapStopDone_stops {k : Nat} {d1 : PortDir} (hd : (s.sapIdle p tx s.mcc).sapDir p tx = d1) (hs : d1.stopping = some k) (hk : 2 ≤ k)
    (ha : d1.again = false) : ∃ t, exec (.sapStopDone p tx) s = .next t ∧ t.sapDir p tx = d1.off ∧
      s.frame t [.audio, .ports, .conv, .free, .ev, .sessions] := by
  have hset := (s.sapIdle p tx s.mcc).setSap_frame p tx d1.off (l := .ports :: convParts) (by decide)
  have hoff : ((s.sapIdle p tx s.mcc).setSap p tx d1.off).frame ((s.sapIdle p tx s.mcc).sapOff p tx).srcRefresh convParts := by
    rw [State.sapOff, hd]
    exact State.frame_next (State.frame_ite (State.frame_refl _ _) (State.decLose_frame _ _)) (State.srcRefresh_frame _)
  refine ⟨_, ?_, (State.sapDir_of_frame hoff (by decide) p tx).trans (State.sapDir_setSap _ _ _ _),
    State.frame_mono (State.frame_trans (State.frame_next (s.sapIdle_frame p tx s.mcc) hset) hoff) (by decide)⟩
  show execSapStopDone p tx s = _
  simp only [execSapStopDone, hd, hs, ha, Nat.not_le.2 hp, Nat.not_lt.2 hk, false_and, or_self, Bool.false_eq_true, if_false]

/-- The shadow mask takes effect (R217). -/
theorem sapLayout_applies {m k : Nat} (hs : (s.sapDir p tx).shadow = some (m, k)) (hk : k ≤ 1) (hr : (s.sapDir p tx).running = true) :
    ∃ t, exec (.sapLayout p tx) s = .next t ∧ (t.sapDir p tx).mask = m ∧ (t.sapDir p tx).shadow = none ∧
      s.toldD t .sapLayout (s.sapOwner p) (sapObj p tx) (s.sapLayoutWords p tx) ∧
      s.frame t [.ports, .conv, .ev, .sessions] := by
  have hexec : exec (.sapLayout p tx) s = .next (s.sapLayoutAt p tx m) := by
    show execSapLayout p tx s = _
    simp only [execSapLayout, hs, hr, Nat.not_le.2 hp, Nat.not_lt.2 hk, Bool.not_true, Bool.false_eq_true, or_self, if_false]
  obtain ⟨d, hmask, hshadow, hd⟩ := s.sapLayoutAt_eq p tx m
  have href : s.frame (s.setSap p tx d).srcRefresh [.ports, .conv] :=
    State.frame_next (s.setSap_frame p tx d (by decide)) (State.setConv_frame _ _ (by decide))
  have hraise := (s.setSap p tx d).srcRefresh.raiseD_frame .sapLayout (s.sapOwner p) (sapObj p tx) (s.sapLayoutWords p tx)
  have hdir := (State.sapDir_of_frame hraise (by decide) p tx).trans (State.sapDir_setSap s p tx d)
  refine ⟨_, hexec, ?_⟩
  rw [hd, hdir]
  exact ⟨hmask, hshadow, State.raiseD_told s _ _ _ _ _ rfl rfl rfl rfl, State.frame_trans href hraise⟩

end

/-- Settles O43: a frame, a silence, a measurement and each step of a mask change or a stop by the direction it leaves. -/
theorem sapDirectionsRun : Obligations.SapDirectionsRun := by
  unfold Obligations.SapDirectionsRun
  intro s p tx hp hdom d c obj clean
  refine ⟨fun ws ph period bclks => sapFrame_measures hp hdom ws ph, ?_, ?_, fun hr hm ho => ?_,
    fun period hr hme hge hm ho hs => ⟨fun hrate => ?_, fun hrate hc hmis => ?_⟩, ⟨fun m hw => sapMaskShadowWrite_writes hp rfl hw,
      fun k hs hk => sapStopDone_stops hp rfl hs hk⟩, fun m k => sapLayout_applies hp⟩
  · rintro ws ph period bclks n hc rfl hr hk h0 hn rfl hlt - -
    exact sapFrame_receives hp hdom ws ph hc hr hk h0 hn hlt
  · rintro ws ph period bclks hc rfl hr hk h0 -
    exact sapFrame_sends hp hdom ws ph hc hr hk h0
  · intro lost
    have hcount := s.setSap_frame p tx d.count (l := lossParts) (by decide)
    have hfill := fun u gap => State.frame_mono (b := lossParts) (State.sapFill_frame u p tx gap) (by decide)
    refine ⟨fun idle hge => ⟨_, ?_, State.sapFlag_loses (hfill s idle) ?_ ho (fun hk => ?_) 1⟩, fun idle hlt => ?_,
      fun ws ph period bclks hc => ⟨_, execSapFrame_glitch hp hdom ws ph hm hc hr, State.sapFlag_loses
        (State.frame_next hcount (hfill (s.setSap p tx d.count) period)) ?_ ho (fun hk => ?_) 2⟩⟩
    · rw [execSapClockStop_running hp hr hm, if_neg (Nat.not_lt.2 hge)]
    · rw [State.sapDir_of_frame (s.sapFill_frame p tx idle) (by decide)]
    · rw [State.sapFill_engine _ hk]
      exact ⟨s.frame_refl _, hk⟩
    · rw [execSapClockStop_running hp hr hm, if_pos hlt]
    · rw [State.sapDir_of_frame (State.sapFill_frame _ p tx period) (by decide), State.sapDir_setSap]
      rfl
    · have hk' : ((s.setSap p tx d.count).sapCfg p tx).kind = .engine := by rw [State.sapCfg_setSap s p tx (d := d.count) rfl]; exact hk
      rw [State.sapFill_engine _ hk']
      exact ⟨s.setSap_frame _ _ _ (by decide), hk'⟩
  · exact ⟨_, execSapRateMeasured_fits hp hr hme hge hm hrate, State.sapResume_runs _ hs ho⟩
  · exact ⟨_, execSapRateMeasured_misfits hp hr hme hge hm hrate hc hmis, s.setSap_toldD p tx _ .sapRate _ _ _⟩

end Sys2Proof.Machine
end

section
/-! PROOFS. The MADI ports (R224–R229): subframes sent, frames counted and received, loss and lock; O44. -/

namespace Sys2Proof.Machine

open Fmt

/-! ### Subframes (R227) -/

theorem Fmt.bit_eq_testBit (w i : Nat) : bit w i = w.testBit i := by rw [bit, Nat.testBit_eq_decide_div_mod_eq]

/-- Bit 31 turns the parity of a subframe over. -/
theorem madiParity_flip {w : Nat} (h : w < 2 ^ 31) : madiParity (w + 2 ^ 31) = !madiParity w := by
  have low : (List.range 27).filter (fun i => bit (w + 2 ^ 31) (i + 4)) = (List.range 27).filter (fun i => bit w (i + 4)) := by
    refine List.filter_congr (fun i hi => ?_)
    have hi : i + 4 < 31 := by have := List.mem_range.1 hi; omega
    rw [Fmt.bit_eq_testBit, Fmt.bit_eq_testBit, Nat.add_comm w, Nat.testBit_two_pow_add_gt hi]
  have high : bit w 31 = false := by rw [Fmt.bit_eq_testBit, Nat.testBit_lt_two_pow h]
  have high' : bit (w + 2 ^ 31) 31 = true := by
    rw [Fmt.bit_eq_testBit, Nat.add_comm, Nat.testBit_two_pow_add_eq, ← Fmt.bit_eq_testBit, high]
    rfl
  rw [madiParity, madiParity, List.range_succ, List.filter_append, List.filter_append, low]
  simp only [List.filter_cons, List.filter_nil, high, high', List.length_append, Bool.false_eq_true, if_true, if_false, List.length_cons,
    List.length_nil]
  rw [Bool.eq_not, ne_eq, decide_eq_decide]
  omega

/-- A subframe before its parity bit. -/
def madiBits (k : Nat) (on : Bool) (f rate audio : Nat) : Nat :=
  b2n (decide (k = 0)) + 2 * b2n on + 4 * (k % 2) + 8 * b2n (decide (f = 0)) + 16 * (audio % 2 ^ 24) + 2 ^ 30 * b2n (csBit rate f)

section
variable (k : Nat) (on : Bool) (f rate audio : Nat)

theorem madiSub_eq : madiSub k on f rate audio =
    if madiParity (madiBits k on f rate audio) then madiBits k on f rate audio else madiBits k on f rate audio + 2 ^ 31 := rfl

theorem madiBits_lt : madiBits k on f rate audio < 2 ^ 31 := by
  have h (b : Bool) : b2n b ≤ 1 := by cases b <;> decide
  have := h (decide (k = 0))
  have := h on
  have := h (decide (f = 0))
  have := h (csBit rate f)
  simp only [madiBits]
  omega

/-- Every transmitted subframe has even parity. -/
theorem madiSub_parity : madiParity (madiSub k on f rate audio) = true := by
  rw [madiSub_eq]
  split
  · assumption
  · next h => rw [madiParity_flip (madiBits_lt k on f rate audio), Bool.not_eq_true' , ← Bool.not_eq_true]; exact h

/-- The first carries the channel marker, and no other. -/
theorem madiSub_marker : bit (madiSub k on f rate audio) 0 = decide (k = 0) := by
  have hmod : madiSub k on f rate audio % 2 = b2n (decide (k = 0)) % 2 := by
    have hbits : madiBits k on f rate audio % 2 = b2n (decide (k = 0)) % 2 := by simp only [madiBits]; omega
    rw [madiSub_eq]
    split <;> omega
  rw [bit, Nat.pow_zero, Nat.div_one, hmod]
  cases decide (k = 0) <;> rfl

end

/-! ### A direction read back -/

section
variable (s : State) (p : Nat) (tx : Bool)

@[simp] theorem State.madiDir_setMadi (d : PortDir) : (s.setMadi p tx d).madiDir p tx = d := Cells.get_put_same _ _ _ _

variable {s} in
theorem State.madiDir_of_frame {t : State} {l : List Part} (h : s.frame t l) (hl : .ports ∉ l) : t.madiDir p tx = s.madiDir p tx := by
  have hp : t.ports = s.ports := h .ports hl
  rw [State.madiDir, hp, State.madiDir]

/-- A receiver connects directly by the fields that it started with. -/
theorem State.madiDirect_setMadi {d : PortDir} (h : d.fields = (s.madiDir p false).fields) : (s.setMadi p false d).madiDirect p = s.madiDirect p := by
  have hw : ∀ f, (s.setMadi p false d).madiW p false f = s.madiW p false f := fun f => by
    rw [State.madiW, State.madiDir_setMadi, h]
    rfl
  rw [State.madiDirect, hw, hw]
  rfl

/-- A stop that has not been asked for does not end. -/
theorem State.madiStopped_none {s : State} {p : Nat} {tx : Bool} (h : (s.madiDir p tx).stopping = none) : s.madiStopped p tx = s := by
  simp only [State.madiStopped, h]

end

theorem PortDir.stopStep_none {d : PortDir} (h : d.stopping = none) (n : Nat) : d.stopStep n = d := by simp only [PortDir.stopStep, h]

theorem PortDir.stopStep_stopping {d : PortDir} (h : d.stopping = none) (n : Nat) : (d.stopStep n).stopping = none := by
  rw [PortDir.stopStep_none h, h]

/-! ### MADI_FRAME sent (R226–R228) -/

section
variable {s : State} {p : Nat}

/-- The S32 value that a channel is given at the engine rate (R226). -/
def State.madiExit (s : State) (p k : Nat) : Int := toS 32 (wrapU 32 (s.portAt (madiRef0 p + k) (s.mcc - 3)))

/-- A transmitted frame's subframes: frame of the block, frame rate. -/
def madiOn (f rate k : Nat) (y : Int) : Nat := madiSub k true f rate (wrapU 32 y / 256)
def madiOff (f rate k : Nat) : Nat := madiSub k false f rate 0

/-- Even parity in every one, and the marker on the first only, whatever they carry. -/
theorem madiSent_framed (d : PortDir) (n tzc lramp f rate : Nat) (v : Nat → Int) (channels : Nat) (h : 0 < channels) :
    (∀ w ∈ d.sent n tzc lramp (madiOn f rate) (madiOff f rate) v channels, madiParity w = true) ∧
      madiMarks (d.sent n tzc lramp (madiOn f rate) (madiOff f rate) v channels) = true := by
  have hsub : ∀ k, ∃ on audio, (if bit d.mask k then madiOn f rate k ((d.slot k).sample (v k) n tzc lramp).2 else madiOff f rate k) =
      madiSub k on f rate audio := fun k => by
    split
    · exact ⟨true, _, rfl⟩
    · exact ⟨false, _, rfl⟩
  constructor
  · intro w hw
    obtain ⟨k, -, rfl⟩ := List.mem_map.1 hw
    obtain ⟨on, audio, e⟩ := hsub k
    rw [e, madiSub_parity]
  · obtain ⟨c, rfl⟩ : ∃ c, channels = c + 1 := ⟨channels - 1, by omega⟩
    obtain ⟨on, audio, e⟩ := hsub 0
    rw [madiMarks, PortDir.sent, List.range_succ_eq_map, List.map_cons, List.headD_cons, List.tail_cons, e, madiSub_marker, List.map_map,
      List.all_map, Bool.and_eq_true]
    refine ⟨rfl, List.all_eq_true.2 (fun k _ => ?_)⟩
    obtain ⟨on, audio, e⟩ := hsub (k + 1)
    simp only [Function.comp, e, madiSub_marker]
    rfl

theorem madiChans_pos (mode : Nat) : 0 < madiChans mode := by
  unfold madiChans
  split_ifs <;> decide

/-- The fold by which a frame is sent. -/
theorem State.madiTx_eq : s.madiTx p =
    (let d := (s.madiDir p true).count
     let n := d.madiNow (s.madiFast p true) s.mcc
     let f := Cells.get 0 s.ports.block p
     let r := (List.range (madiChans (s.madiW p true 1))).foldl (sendSlot (fun u k => u.madiTxValue p k (s.madiFast p true)) n s.tzc s.lramp
       (madiOn f (s.fs / s.madiDiv p)) (madiOff f (s.fs / s.madiDiv p)) d.mask) (s, d, [])
     let s2 := { r.1 with ports := { r.1.ports with block := Cells.put 0 r.1.ports.block p ((f + 1) % 192) } }
     s2.setMadi p true ({ r.2.1 with tx := r.2.2 }.stopStep n)) := rfl

/-- The frame count of the AES3 block moved on. -/
def State.blockStep (s : State) (p : Nat) : State :=
  { s with ports := { s.ports with block := Cells.put 0 s.ports.block p ((Cells.get 0 s.ports.block p + 1) % 192) } }

/-- A frame sent at the engine rate, with no stop asked for: the block moves on, and the direction has sent its words. -/
theorem State.madiTx_direct (hs : (s.madiDir p true).stopping = none) (h1 : s.madiDiv p = 1) : ∃ (e : PortDir) (n f rate : Nat),
    s.madiTx p = (s.blockStep p).setMadi p true e ∧ e.stopping = none ∧ e.tx =
      (s.madiDir p true).sent n s.tzc s.lramp (madiOn f rate) (madiOff f rate) (s.madiExit p) (madiChans (s.madiW p true 1)) := by
  have hfast : s.madiFast p true = true := decide_eq_true h1
  have hv : ∀ k, s.madiTxValue p k (s.madiFast p true) = (s.madiExit p k, s) := fun k => if_pos hfast
  obtain ⟨e, he, hstill, -⟩ := foldl_sendSlot (value := fun u k => u.madiTxValue p k (s.madiFast p true))
    ((s.madiDir p true).count.madiNow (s.madiFast p true) s.mcc) s.tzc s.lramp (madiOn (Cells.get 0 s.ports.block p) (s.fs / s.madiDiv p))
    (madiOff (Cells.get 0 s.ports.block p) (s.fs / s.madiDiv p)) hv (s.madiDir p true).count (madiChans (s.madiW p true 1))
  have hstop : e.stopping = none := (PortDir.still_stopping hstill).trans hs
  rw [State.madiTx_eq]
  dsimp only
  rw [he, PortDir.stopStep_none (by exact hstop)]
  exact ⟨_, _, _, _, rfl, hstop, rfl⟩

theorem madiFrame_sends (hp : p < 8) (hdom : bit s.power.domains 3 = true) (ws : List Nat) (v period : Nat)
    (ha : (s.madiDir p true).active = true) (hs : (s.madiDir p true).stopping = none) (h1 : s.madiDiv p = 1) :
    ∃ t, exec (.madiFrame p true ws v period) s = .next t ∧ (t.madiDir p true).tx.length = madiChans (s.madiW p true 1) ∧
      (∀ w ∈ (t.madiDir p true).tx, madiParity w = true) ∧ madiMarks (t.madiDir p true).tx = true ∧
      Cells.get 0 t.ports.block p = (Cells.get 0 s.ports.block p + 1) % 192 ∧ s.frame t [.ports] := by
  obtain ⟨e, n, f, rate, he, hstop, htx⟩ := State.madiTx_direct hs h1
  have hexec : exec (.madiFrame p true ws v period) s = .next ((s.blockStep p).setMadi p true e) := by
    show execMadiFrame p true ws v period s = _
    simp only [execMadiFrame, ha, hdom, Nat.not_le.2 hp, Bool.not_true, Bool.false_eq_true, or_self, if_false, if_true, he]
    rw [State.madiStopped_none (by rw [State.madiDir_setMadi, hstop])]
  obtain ⟨hparity, hmarks⟩ := madiSent_framed (s.madiDir p true) n s.tzc s.lramp f rate (s.madiExit p) _ (madiChans_pos (s.madiW p true 1))
  refine ⟨_, hexec, ?_⟩
  rw [State.madiDir_setMadi, htx]
  refine ⟨by rw [PortDir.sent, List.length_map, List.length_range], hparity, hmarks, Cells.get_put_same _ _ _ _, ?_⟩
  exact State.frame_next (s.setPorts_frame _ (by decide)) ((s.blockStep p).setMadi_frame _ _ _ (by decide))

end

/-! ### MADI_FRAME counted and received (R227, R229) -/

section
variable (s : State) (p : Nat)

/-- Counting the channels. -/
theorem State.madiCount_frame (k : Nat) : s.frame (s.madiCount p k) [.ports, .ev, .sessions] := by
  unfold State.madiCount
  extract_lets g s1
  have h1 : s.frame s1 [.ports, .ev, .sessions] := s.setPorts_frame _ (by decide)
  exact State.frame_ite (s.frame_refl _) (State.frame_ite h1 (State.frame_next h1 (State.frame_mono (s1.raise_frame _ _ _ _) (by decide))))

theorem State.madiCount_ports (k : Nat) : Cells.get 0 (s.madiCount p k).ports.chans p = k ∧ (s.madiCount p k).ports.madi = s.ports.madi := by
  unfold State.madiCount
  split
  · next h => exact ⟨h, rfl⟩
  · split
    · exact ⟨Cells.get_put_same _ _ _ _, rfl⟩
    · simp

end

section
variable {s : State} {p : Nat} (hp : p < 8) (hdom : bit s.power.domains 3 = true) (ws : List Nat) {v period : Nat}
include hp hdom

/-- A good frame counts towards the lock. -/
theorem madiFrame_counts (ha : (s.madiDir p false).active = true) (hr : (s.madiDir p false).running = false)
    (hc : s.madiClean p ws v period = true) : ∃ t, exec (.madiFrame p false ws v period) s = .next t ∧
      t.madiDir p false = { (s.madiDir p false).count with meas := (s.madiDir p false).meas + 1, measuring := true } ∧
      Cells.get 0 t.ports.chans p = ws.length ∧ s.frame t [.ports, .ev, .sessions] := by
  have hexec : exec (.madiFrame p false ws v period) s = .next ((s.setMadi p false { (s.madiDir p false).count with
      meas := (s.madiDir p false).meas + 1, measuring := true }).madiCount p ws.length) := by
    show execMadiFrame p false ws v period s = _
    simp only [execMadiFrame, ha, hr, hc, hdom, Nat.not_le.2 hp, Bool.not_true, Bool.false_eq_true, or_self, if_false]
  obtain ⟨hchans, hmadi⟩ := (s.setMadi p false { (s.madiDir p false).count with
    meas := (s.madiDir p false).meas + 1, measuring := true }).madiCount_ports p ws.length
  refine ⟨_, hexec, ?_, hchans, State.frame_next (s.setMadi_frame _ _ _ (by decide)) (State.madiCount_frame _ _ _)⟩
  rw [State.madiDir, hmadi]
  exact State.madiDir_setMadi s p false _

/-- Any other starts the count afresh. -/
theorem madiFrame_recounts (ha : (s.madiDir p false).active = true) (hr : (s.madiDir p false).running = false)
    (hc : s.madiClean p ws v period = false) : ∃ t, exec (.madiFrame p false ws v period) s = .next t ∧
      t.madiDir p false = { (s.madiDir p false).count with meas := 0, measuring := true } ∧ s.frame t [.ports] := by
  refine ⟨_, ?_, State.madiDir_setMadi s p false _, s.setMadi_frame _ _ _ (by decide)⟩
  show execMadiFrame p false ws v period s = _
  simp only [execMadiFrame, ha, hr, hc, hdom, Nat.not_le.2 hp, Bool.not_true, Bool.not_false, Bool.false_eq_true, or_self, if_false, if_true]

/-- On a receiver that runs it is a flag (R229). -/
theorem execMadiFrame_glitch (hr : (s.madiDir p false).running = true) (hc : s.madiClean p ws v period = false) :
    exec (.madiFrame p false ws v period) s =
      .next (((s.setMadi p false (s.madiDir p false).count).madiFill p period).madiFlag p 2) := by
  have ha := PortDir.active_of_running hr
  show execMadiFrame p false ws v period s = _
  simp only [execMadiFrame, ha, hr, hc, hdom, Nat.not_le.2 hp, Bool.not_true, Bool.not_false, Bool.false_eq_true, or_self, if_false, if_true]

end

section
variable {s : State} {p : Nat} {n : Nat} (hdirect : s.madiDirect p = true) (hn : (s.madiDir p false).nextStamp = some n)
  (hs : (s.madiDir p false).stopping = none)
include hdirect hn hs

/-- A good frame of a running receiver, with no stop asked for: what it counts and notes, then the samples of its stamp. -/
theorem State.madiRx_direct (ws : List Nat) :
    ∃ (u : State) (e : PortDir), s.frame u [.ports, .ev, .sessions, .twin] ∧
      s.madiRx p ws = (u.rxRow (madiRef0 p) (s.madiDir p false).count n (madiSlot ws n s.tzc s.lramp s.obeys)).1.setMadi p false e ∧
      e.nextStamp = some (n + 1) ∧ e.stopping = none := by
  have hn' : (s.madiDir p false).count.nextStamp = some n := hn
  simp only [State.madiRx, hdirect, hn', if_true, Option.getD_some]
  refine ⟨_, _, ?_, rfl, ?_, ?_⟩
  · refine State.frame_next (State.frame_next (State.frame_mono (s.madiCount_frame p ws.length) (by decide)) ?_)
      (State.setPorts_frame _ _ (by decide))
    exact State.frame_foldl (fun u k => State.frame_mono (u.note_frame _) (by decide)) _ _
  · exact (PortDir.stopStep_fields _ _).1
  · refine PortDir.stopStep_stopping ?_ n
    exact (PortDir.still_stopping (State.rxRow_still _ _ _ _ (s.madiDir p false).count)).trans hs

/-- The channels of the mask through their stages, into the alignment buffers at the stamp. -/
theorem madiFrame_receives (hp : p < 8) (hdom : bit s.power.domains 3 = true) (ws : List Nat) {v period : Nat}
    (hr : (s.madiDir p false).running = true) (hc : s.madiClean p ws v period = true) (hlt : n < 2 ^ 64) :
    ∃ t, exec (.madiFrame p false ws v period) s = .next t ∧
      (∀ k, k < 64 → bit (s.madiDir p false).mask k = true →
        t.rxAt (madiRef0 p + k) n = (madiSlot ws n s.tzc s.lramp s.obeys k ((s.madiDir p false).slot k)).2) ∧
      (∀ k m, m < 2 ^ 64 → m ≠ n ∨ 64 ≤ k ∨ bit (s.madiDir p false).mask k = false →
        t.rxAt (madiRef0 p + k) m = s.rxAt (madiRef0 p + k) m) ∧
      (t.madiDir p false).nextStamp = some (n + 1) ∧ s.frame t [.audio, .ports, .ev, .sessions, .twin] := by
  obtain ⟨u, e, hu, he, hnext, hstop⟩ := State.madiRx_direct hdirect hn hs ws
  have ha := PortDir.active_of_running hr
  have htrack : s.madiTrack p period = s := if_pos (.inl hdirect)
  have hexec : exec (.madiFrame p false ws v period) s = .next ((u.rxRow (madiRef0 p) (s.madiDir p false).count n
      (madiSlot ws n s.tzc s.lramp s.obeys)).1.setMadi p false e) := by
    show execMadiFrame p false ws v period s = _
    simp only [execMadiFrame, ha, hr, hc, hdom, Nat.not_le.2 hp, Bool.not_true, Bool.false_eq_true, or_self, if_false, if_true, htrack, he]
    rw [State.madiStopped_none (by rw [State.madiDir_setMadi, hstop])]
  have hrx : u.audio = s.audio := hu .audio (by decide)
  refine ⟨_, hexec, fun k hk hb => State.rxRow_at _ _ _ u (s.madiDir p false).count hlt hk hb, fun k m hm h => ?_,
    by rw [State.madiDir_setMadi, hnext], ?_⟩
  · exact (State.rxRow_other _ _ _ u (s.madiDir p false).count hlt hm h).trans (by rw [State.rxAt, hrx, State.rxAt])
  · exact State.frame_next (State.frame_next (State.frame_mono hu (by decide)) (State.frame_mono (State.rxRow_frame _ _ _ _ _) (by decide)))
      (State.setMadi_frame _ _ _ _ (by decide))

end

/-! ### Loss (R220, R229) -/

section
variable (s : State) (p : Nat)

theorem State.madiFill_frame (gap : Nat) : s.frame (s.madiFill p gap) convParts :=
  State.frame_ite (s.frame_refl _) (State.frame_foldl (fun u _ => State.frame_foldl (fun v _ => v.srcIn_frame _ _) _ u) _ s)

/-- The samples of a receiver before its flag, and the receiver at the flag. -/
def State.madiHeard : State × PortDir :=
  if s.madiDirect p then s.rxGap (madiRef0 p) (s.madiDir p false) s.mcc
  else (s, { s.madiDir p false with idle := s.framesAt (s.madiW p false 4) })

theorem State.madiHeard_frame : s.frame (s.madiHeard p).1 [.audio] := by
  unfold State.madiHeard
  split
  · exact s.rxGap_frame _ _ _
  · exact s.frame_refl _

theorem State.madiHeard_still : (s.madiHeard p).2.still = (s.madiDir p false).still := by
  unfold State.madiHeard
  split
  · exact s.rxGap_still _ _ _
  · rfl

/-- The flag. -/
def State.madiFlags : State := (s.madiHeard p).1.setMadi p false ((s.madiHeard p).2.flag false)

theorem State.madiFlags_frame : s.frame (s.madiFlags p) [.audio, .ports] :=
  State.frame_trans (s.madiHeard_frame p) (State.setMadi_frame _ _ _ _ (l := [.ports]) (by decide))

/-- What the converters behind a receiver do then. -/
def State.madiLossPasses (u : State) : State := if s.madiDirect p then u else u.srcsOfPort (0x0300 + p) 0 SrcCh.portLost

theorem State.madiLossPasses_frame (u : State) : u.frame (s.madiLossPasses p u) convParts :=
  State.frame_ite (u.frame_refl _) (u.srcsOfPort_frame _ _ _)

theorem State.madiLose_eq (cause : Nat) : s.madiLose p cause =
    (s.madiLossPasses p ((s.madiFlags p).raise .madiLoss (s.madiOwner p) p cause)).portRefs := rfl

/-- A flag with its event and what hangs on the receiver, before the references. -/
theorem State.madiLossPasses_all_frame (cause : Nat) :
    s.frame (s.madiLossPasses p ((s.madiFlags p).raise .madiLoss (s.madiOwner p) p cause)) (.ports :: convParts) :=
  State.frame_next (State.frame_next (State.frame_mono (s.madiFlags_frame p) (by decide))
    (State.frame_mono (State.raise_frame _ _ _ _ _) (by decide))) (State.frame_mono (s.madiLossPasses_frame p _) (by decide))

/-- The receiver that a flag leaves, whatever the references do. -/
theorem State.madiLose_dir (cause : Nat) : ((s.madiLose p cause).madiDir p false).loss = true ∧
    ((s.madiLose p cause).madiDir p false).running = false ∧
      ((s.madiLose p cause).madiDir p false).losses = satInc (s.madiDir p false).losses 1 := by
  have hraise := (s.madiFlags p).raise_frame .madiLoss (s.madiOwner p) p cause
  have hset := (State.madiDir_of_frame p false (State.frame_trans hraise (s.madiLossPasses_frame p _)) (by decide)).trans
    (State.madiDir_setMadi (s.madiHeard p).1 p false ((s.madiHeard p).2.flag false))
  obtain ⟨o, ho⟩ := (s.madiLossPasses p ((s.madiFlags p).raise .madiLoss (s.madiOwner p) p cause)).portRefs_ports.2 (sapKey p false)
  have hdir : (s.madiLose p cause).madiDir p false = { (s.madiHeard p).2.flag false with origin := o } := by
    rw [State.madiLose_eq, State.madiDir, ho, ← State.madiDir, hset]
  obtain ⟨-, -, hlosses, -⟩ := PortDir.still_fields (s.madiHeard_still p)
  rw [hdir, ← hlosses]
  exact (s.madiHeard p).2.flag_fields false

end

/-- What a flag does, from a state in which the missing frames before it have been filled in. -/
theorem State.madiFlag_loses {s u : State} {p : Nat} (hu : s.frame u (.ports :: convParts))
    (hd : (u.madiDir p false).losses = (s.madiDir p false).losses) (ho : s.obeys = false)
    (he : s.madiDirect p = true → s.frame u [.ports] ∧ u.madiDirect p = true) (cause : Nat) :
    ((u.madiFlag p cause).madiDir p false).loss = true ∧ ((u.madiFlag p cause).madiDir p false).running = false ∧
      ((u.madiFlag p cause).madiDir p false).losses = satInc (s.madiDir p false).losses 1 ∧
      (∀ k ∈ [5, 6, 7], (s.cku.ref k).st ≠ .disabled → (u.madiFlag p cause).refAlive k = false →
        ((u.madiFlag p cause).cku.ref k).st = .lost) ∧
      ((∀ k ∈ [5, 6, 7], (s.cku.ref k).st = .disabled) →
        (s.madiDirect p = true → s.told (u.madiFlag p cause) .madiLoss (s.madiOwner p) p cause) ∧
        s.frame (u.madiFlag p cause) [.audio, .ports, .conv, .free, .draws, .ev, .sessions, .twin]) := by
  have hflag : u.madiFlag p cause = (u.madiLose p cause).note (.madiLoss p cause (u.madiDir p false).frames) :=
    if_neg (by rw [State.obeys_of_frame hu (by decide), ho]; decide)
  have hdir := State.madiDir_of_frame p false ((u.madiLose p cause).note_frame (.madiLoss p cause (u.madiDir p false).frames)) (by decide)
  obtain ⟨hloss, hrun, hlosses⟩ := u.madiLose_dir p cause
  have hpasses := State.frame_next hu (u.madiLossPasses_all_frame p cause)
  rw [hflag, hdir, ← hd]
  refine ⟨hloss, hrun, hlosses, ?_⟩
  rw [State.madiLose_eq]
  refine ⟨fun k hk => s.portRefs_note_lost hpasses (by decide) _ hk, fun hdis => ?_⟩
  have hnote := s.portRefs_note_frame hpasses (by decide) (.madiLoss p cause (u.madiDir p false).frames) hdis
  refine ⟨fun hk => ?_, State.frame_mono (State.frame_trans hpasses hnote) (by decide)⟩
  obtain ⟨hports, hdirect⟩ := he hk
  have hid : ∀ v, u.madiLossPasses p v = v := fun v => if_pos hdirect
  rw [hid] at hnote ⊢
  have howner : u.madiOwner p = s.madiOwner p := State.at_of_frame hports (by decide) _ _ _
  rw [← howner]
  have hflags : s.frame (u.madiFlags p) ([.ports] ++ [.audio, .ports]) := State.frame_trans hports (u.madiFlags_frame p)
  exact State.told_of_frame (State.raise_told_of_frame hflags (by decide) _ _ _ _) hnote (by decide) (by decide)

section
variable {s : State} {p : Nat} (hp : p < 8)
include hp

/-- Two frame periods without a sync symbol are a stop of a receiver that runs (R229). -/
theorem execMadiStop_running {idle : Nat} (hge : 2 * s.amclk ≤ idle * s.madiW p false 4) (hr : (s.madiDir p false).running = true) :
    exec (.madiStop p idle) s = .next ((s.madiFill p idle).madiFlag p 1) := by
  have ha := PortDir.active_of_running hr
  show execMadiStop p idle s = _
  simp only [execMadiStop, ha, hr, Nat.not_le.2 hp, Nat.not_lt.2 hge, Bool.not_true, Bool.false_eq_true, or_self, if_false, if_true]

/-- They start the count of any other afresh. -/
theorem madiStop_recounts {idle : Nat} (hge : 2 * s.amclk ≤ idle * s.madiW p false 4) (ha : (s.madiDir p false).active = true)
    (hr : (s.madiDir p false).running = false) : ∃ t, exec (.madiStop p idle) s = .next t ∧
      t.madiDir p false = { s.madiDir p false with meas := 0 } ∧ s.frame t [.ports] := by
  refine ⟨_, ?_, State.madiDir_setMadi s p false _, s.setMadi_frame _ _ _ (by decide)⟩
  show execMadiStop p idle s = _
  simp only [execMadiStop, ha, hr, Nat.not_le.2 hp, Nat.not_lt.2 hge, Bool.not_true, Bool.false_eq_true, or_self, if_false]

end

/-! ### Lock and resume (R221, R229) -/

section
variable (s : State) (p : Nat) (muted : Bool)

/-- A receiver brought up to date (R220). -/
theorem State.madiIdle_frame (upTo : Nat) : s.frame (s.madiIdle p upTo) (.ports :: convParts) := by
  refine State.frame_ite (s.frame_refl _) (State.frame_ite ?_ (State.frame_ite (s.frame_refl _) ?_))
  · exact State.frame_next (State.frame_mono (s.rxGap_frame _ _ upTo) (by decide)) (State.setMadi_frame _ _ _ _ (by decide))
  · exact State.frame_next (State.frame_mono (s.idleTo_frame _ _ _) (by decide)) (State.setMadi_frame _ _ _ _ (by decide))

/-- The receiver that runs again, its slots muted or returning at zero. -/
def State.madiReturned : PortDir :=
  let d0 := (s.madiIdle p s.mcc).madiDir p false
  let d1 := { d0 with running := true, loss := false, measuring := false, mismatch := false, starting := false, meas := 0 }
  if muted then d1.each (fun _ => SlotSt.reset) else d1.startSlots (d1.madiNow (s.madiDirect p) s.mcc) false

theorem State.madiReturned_fields : (s.madiReturned p muted).running = true ∧ (s.madiReturned p muted).loss = false := by
  cases muted <;> exact ⟨rfl, rfl⟩

/-- The receiver returned. -/
def State.madiReturns : State := (s.madiIdle p s.mcc).setMadi p false (s.madiReturned p muted)

theorem State.madiReturns_frame : s.frame (s.madiReturns p muted) (.ports :: convParts) :=
  State.frame_next (s.madiIdle_frame p s.mcc) (State.setMadi_frame _ _ _ _ (by decide))

/-- What the converters behind it do. -/
def State.madiRunPasses (u : State) : State := if s.madiDirect p then u else u.srcsOfPort (0x0300 + p) 0 SrcCh.acquire

theorem State.madiRunPasses_frame (u : State) : u.frame (s.madiRunPasses p u) convParts :=
  State.frame_ite (u.frame_refl _) (u.srcsOfPort_frame _ _ _)

theorem State.madiRun_eq : s.madiRun p muted =
    s.madiRunPasses p ((s.madiReturns p muted).raise .madiResume (s.madiOwner p) p 0) := rfl

variable {s p}

/-- Where it connects directly only the samples of the missing stamps are written. -/
theorem State.madiReturns_direct_frame (h : s.madiDirect p = true) : s.frame (s.madiReturns p muted) [.audio, .ports] := by
  refine State.frame_next (t := s.madiIdle p s.mcc) ?_ (State.setMadi_frame _ _ _ _ (by decide))
  unfold State.madiIdle
  simp only [h, if_true]
  exact State.frame_ite (s.frame_refl _)
    (State.frame_trans (s.rxGap_frame _ _ s.mcc) (State.setMadi_frame _ _ _ _ (l := [.ports]) (by decide)))

/-- What a resume does (R221). -/
theorem State.madiResume_runs (ho : s.obeys = false) :
    ((s.madiResume p muted).madiDir p false).running = true ∧ ((s.madiResume p muted).madiDir p false).loss = false ∧
      (s.madiDirect p = true → s.told (s.madiResume p muted) .madiResume (s.madiOwner p) p 0) ∧
      s.frame (s.madiResume p muted) [.audio, .ports, .conv, .free, .ev, .sessions, .twin] := by
  have hres : s.madiResume p muted = (s.madiRun p muted).note (.madiResume p muted (s.madiDir p false).frames) := if_neg (by rw [ho]; decide)
  have hraise := (s.madiReturns p muted).raise_frame .madiResume (s.madiOwner p) p 0
  have hpass := s.madiRunPasses_frame p ((s.madiReturns p muted).raise .madiResume (s.madiOwner p) p 0)
  have hnote := State.note_frame (s.madiRunPasses p ((s.madiReturns p muted).raise .madiResume (s.madiOwner p) p 0))
    (.madiResume p muted (s.madiDir p false).frames)
  have hdir := (State.madiDir_of_frame p false (State.frame_trans hraise (State.frame_trans hpass hnote)) (by decide)).trans
    (State.madiDir_setMadi (s.madiIdle p s.mcc) p false (s.madiReturned p muted))
  rw [hres, State.madiRun_eq, hdir]
  obtain ⟨hr, hl⟩ := s.madiReturned_fields p muted
  refine ⟨hr, hl, fun hdirect => ?_,
    State.frame_mono (State.frame_trans (State.frame_trans (State.frame_trans (s.madiReturns_frame p muted) hraise) hpass) hnote) (by decide)⟩
  have hid : ∀ u, s.madiRunPasses p u = u := fun u => if_pos hdirect
  rw [hid] at hnote ⊢
  exact State.told_of_frame (State.raise_told_of_frame (State.madiReturns_direct_frame muted hdirect) (by decide) _ _ _ _) hnote (by decide)
    (by decide)

variable {muted}

/-- 64 good frames whose rate fits lock the receiver. -/
theorem execMadiLock_fits (hp : p < 8) {period : Nat} (ha : (s.madiDir p false).active = true) (hr : (s.madiDir p false).running = false)
    (hge : 64 ≤ (s.madiDir p false).meas) (hrate : rateMatches s.amclk period (s.madiW p false 4) = true) :
    exec (.madiLock p period) s = .next (s.madiResume p (decide (s.madiW p false 2 = 3))) := by
  show execMadiLock p period s = _
  simp only [execMadiLock, ha, hr, Nat.not_le.2 hp, Nat.not_lt.2 hge, hrate, Bool.not_true, Bool.false_eq_true, or_self, if_false, if_true]

end

/-- Settles O44: a frame, a silence and a lock by the direction they leave; the subframes sent by their bits. -/
theorem madiPortsRun : Obligations.MadiPortsRun := by
  unfold Obligations.MadiPortsRun
  intro s p hp hdom d lost
  have hcount := s.setMadi_frame p false d.count (l := .ports :: convParts) (by decide)
  have hfill := fun u gap => State.frame_mono (b := .ports :: convParts) (State.madiFill_frame u p gap) (by decide)
  refine ⟨fun ws v period ha hr => ⟨madiFrame_counts hp hdom ws ha hr, madiFrame_recounts hp hdom ws ha hr⟩,
    fun ws v period hr ho hc => ⟨_, execMadiFrame_glitch hp hdom ws hr hc, State.madiFlag_loses
      (State.frame_next hcount (hfill (s.setMadi p false d.count) period)) ?_ ho (fun hk => ?_) 2⟩,
    fun ws v period n hr hs hc hd hn hlt _ _ => madiFrame_receives hd hn hs hp hdom ws hr hc hlt,
    fun period ha hr hge ho hrate => ⟨_, execMadiLock_fits hp ha hr hge hrate, State.madiResume_runs _ ho⟩,
    fun idle hge => ⟨fun hr ho => ⟨_, execMadiStop_running hp hge hr, State.madiFlag_loses (hfill s idle) ?_ ho (fun hk => ?_) 1⟩,
      fun ha hr => madiStop_recounts hp hge ha hr⟩,
    fun idle hlt => if_pos (.inr (.inl hlt)), fun ws v period ha hs h1 _ => madiFrame_sends hp hdom ws v period ha hs h1⟩
  · rw [State.madiDir_of_frame p false (State.madiFill_frame _ p period) (by decide), State.madiDir_setMadi]
    rfl
  · have hk' : (s.setMadi p false d.count).madiDirect p = true := (State.madiDirect_setMadi s p (d := d.count) rfl).trans hk
    have hid : (s.setMadi p false d.count).madiFill p period = s.setMadi p false d.count := if_pos hk'
    rw [hid]
    exact ⟨s.setMadi_frame _ _ _ (by decide), hk'⟩
  · rw [State.madiDir_of_frame p false (s.madiFill_frame p idle) (by decide)]
  · have hid : s.madiFill p idle = s := if_pos hk
    rw [hid]
    exact ⟨s.frame_refl _, hk⟩

end Sys2Proof.Machine
end

section
/-! PROOFS. The rate converters (R237, R238): what the samples of an unlocked or locked channel leave of it. The decimators (R245): what their
samples, their unmuting and their changes leave of them; O19. -/

namespace Sys2Proof.Machine

open Fmt

/-! ### A rate converter channel while its samples pass -/

/-- One SRC channel. -/
def State.srcCh (s : State) (i : Nat) : SrcCh := Cells.get SrcCh.reset s.conv.src i

theorem State.srcCh_updSrc (s : State) (i j : Nat) (f : SrcCh → SrcCh) :
    (s.updSrc i f).srcCh j = if j = i then f (s.srcCh i) else s.srcCh j := Cells.get_upd _ _ _ _ _

@[simp] theorem State.srcCh_updSrc_same (s : State) (i : Nat) (f : SrcCh → SrcCh) : (s.updSrc i f).srcCh i = f (s.srcCh i) := by
  rw [State.srcCh_updSrc, if_pos rfl]

/-- A channel but for its output stage and how far it has come. -/
def SrcCh.still (x : SrcCh) : SrcCh := { x with slot := SlotSt.reset, next := 0 }

/-- Samples of channel i pass: they change no more than its output stage, the samples delivered and the free values taken. -/
structure State.SrcPasses (i : Nat) (s t : State) : Prop where
  frame : s.frame t [.conv, .audio, .free]
  still : (t.srcCh i).still = (s.srcCh i).still

namespace State.SrcPasses

variable {i : Nat} {s t u : State}

theorem refl (i : Nat) (s : State) : SrcPasses i s s := ⟨s.frame_refl _, rfl⟩

theorem trans (h : SrcPasses i s t) (k : SrcPasses i t u) : SrcPasses i s u := ⟨State.frame_next h.frame k.frame, k.still.trans h.still⟩

/-- A change of what samples change. -/
theorem updSrc (h : SrcPasses i s t) {f : SrcCh → SrcCh} (hf : ∀ x, (f x).still = x.still) : SrcPasses i s (t.updSrc i f) :=
  h.trans ⟨t.setConv_frame _ (by decide), by rw [State.srcCh_updSrc_same, hf]⟩

theorem putRx (h : SrcPasses i s t) (ref n : Nat) (v : Int) : SrcPasses i s (t.putRx ref n v) :=
  h.trans ⟨t.putRx_frame _ _ _ (by decide), rfl⟩

theorem fixed (h : SrcPasses i s t) : (t.srcCh i).fixed = (s.srcCh i).fixed :=
  have hf := congrArg SrcCh.fixed h.still
  hf

theorem unlocks (h : SrcPasses i s t) : (t.srcCh i).unlocks = (s.srcCh i).unlocks :=
  have hu := congrArg SrcCh.unlocks h.still
  hu

end State.SrcPasses

section
variable (s : State) {i : Nat}

theorem State.srcValue_passes (i : Nat) (x : SrcCh) (width : Nat) : State.SrcPasses i s (s.srcValue x width).2 := by
  unfold State.srcValue
  split
  · exact ⟨s.takeFree_frame (by decide), rfl⟩
  · exact .refl i s

/-- Only a fixed ratio locks by a sample (R239). -/
theorem State.srcOut_passes (n width : Nat) (hf : (s.srcCh i).fixed = false) : State.SrcPasses i s (s.srcOut i n width).2 := by
  have hf' : (Cells.get SrcCh.reset s.conv.src i).fixed = false := hf
  simp only [State.srcOut, hf', Bool.false_and, Bool.false_eq_true, if_false]
  exact (s.srcValue_passes i _ width).updSrc (fun _ => rfl)

theorem State.srcAdvance_passes (upTo : Nat) (hf : (s.srcCh i).fixed = false) : State.SrcPasses i s (s.srcAdvance i upTo) := by
  unfold State.srcAdvance
  extract_lets x0
  split
  · exact .refl i s
  · refine List.foldlRecOn (motive := State.SrcPasses i s) _ _ (.refl i s) (fun t ht j _ => ?_)
    exact ((ht.trans (t.srcOut_passes _ 48 (ht.fixed.trans hf))).putRx _ _ _).updSrc (fun _ => rfl)

/-- The slots behind a channel that has locked are those of a port direction or a stream (R221). -/
theorem State.srcSlots_frame (user dir : Nat) : s.frame (s.srcSlots user dir) [.ports, .net] := by
  unfold State.srcSlots
  extract_lets p k
  split
  · exact State.frame_ite (s.setSap_frame _ _ _ (by decide)) (s.frame_refl _)
  · exact State.frame_ite (s.setMadi_frame _ _ _ (by decide)) (s.frame_refl _)
  · exact State.frame_ite (s.setNet_frame _ (by decide)) (s.setNet_frame _ (by decide))
  · exact s.frame_refl _

theorem State.srcCh_of_frame {s t : State} {l : List Part} (h : s.frame t l) (hl : .conv ∉ l) (i : Nat) : t.srcCh i = s.srcCh i := by
  have hc : t.conv = s.conv := h .conv hl
  rw [State.srcCh, hc, State.srcCh]

end

/-! ### Lock and unlock (R237, R238) -/

/-- Channel i brought up to now and locked to a ratio; its output unmutes. -/
def State.srcLocked (s : State) (i ratio : Nat) : State :=
  (s.srcAdvance i s.mcc).updSrc i (fun x => { x with
    locked := true, acq := false, out := false, ratio := ratio, slot := { x.slot.start (s.srcNow x) with held := 0 } })

theorem State.srcLocked_fields (s : State) (i ratio : Nat) : ((s.srcLocked i ratio).srcCh i).locked = true ∧
    ((s.srcLocked i ratio).srcCh i).acq = false ∧ ((s.srcLocked i ratio).srcCh i).ratio = ratio := by
  rw [State.srcLocked, State.srcCh_updSrc_same]
  exact ⟨rfl, rfl, rfl⟩

/-- Channel i brought up to now; it acquires again, and its output fades. -/
def State.srcUnlocked (s : State) (i : Nat) (out : Bool) : State :=
  (s.srcAdvance i s.mcc).updSrc i (fun x => { x with
    locked := false, acq := true, out := out, unlocks := satInc x.unlocks 1, slot := x.slot.fadeOut })

theorem State.srcUnlocked_fields (s : State) (i : Nat) (out : Bool) (hf : (s.srcCh i).fixed = false) :
    ((s.srcUnlocked i out).srcCh i).locked = false ∧ ((s.srcUnlocked i out).srcCh i).acq = true ∧
      ((s.srcUnlocked i out).srcCh i).out = out ∧ ((s.srcUnlocked i out).srcCh i).unlocks = satInc (s.srcCh i).unlocks 1 := by
  rw [State.srcUnlocked, State.srcCh_updSrc_same, ← (s.srcAdvance_passes s.mcc hf).unlocks]
  exact ⟨rfl, rfl, rfl, rfl⟩

section
variable {s : State} {i : Nat} (hu : (s.srcCh i).user ≠ 0) (hf : (s.srcCh i).fixed = false)
include hu hf

theorem srcLock_locks (ratio : Nat) (ha : (s.srcCh i).acq = true) : ∃ t, exec (.srcLock i ratio) s = .next t ∧
    (t.srcCh i).locked = true ∧ (t.srcCh i).acq = false ∧ (t.srcCh i).ratio = ratio ∧ s.told t .srcLock 0 i 0 ∧
    s.frame t [.conv, .audio, .free, .ports, .net, .ev, .sessions] := by
  have hgo : ¬((s.srcCh i).user = 0 ∨ (!(s.srcCh i).acq) = true ∨ (s.srcCh i).fixed = true) := by simp [hu, ha, hf]
  have hexec : exec (.srcLock i ratio) s =
      .next (((s.srcLocked i ratio).srcSlots (s.srcCh i).user (s.srcCh i).dir).raise .srcLock 0 i 0) := if_neg hgo
  have hlock : s.frame (s.srcLocked i ratio) [.conv, .audio, .free] :=
    State.frame_next (s.srcAdvance_passes s.mcc hf).frame (State.setConv_frame _ _ (by decide))
  have hslots := (s.srcLocked i ratio).srcSlots_frame (s.srcCh i).user (s.srcCh i).dir
  have hraise := ((s.srcLocked i ratio).srcSlots (s.srcCh i).user (s.srcCh i).dir).raise_frame .srcLock 0 i 0
  have hall := State.frame_trans hlock hslots
  obtain ⟨hl, hacq, hratio⟩ := s.srcLocked_fields i ratio
  refine ⟨_, hexec, ?_⟩
  rw [State.srcCh_of_frame hraise (by decide), State.srcCh_of_frame hslots (by decide)]
  exact ⟨hl, hacq, hratio, State.raise_told_of_frame hall (by decide) _ _ _ _, State.frame_trans hall hraise⟩

theorem srcUnlock_unlocks (out : Bool) (hl : (s.srcCh i).locked = true) : ∃ t, exec (.srcUnlock i out) s = .next t ∧
    (t.srcCh i).locked = false ∧ (t.srcCh i).acq = true ∧ (t.srcCh i).out = out ∧
    (t.srcCh i).unlocks = satInc (s.srcCh i).unlocks 1 ∧ s.told t .srcUnlock 0 i 0 ∧
    s.frame t [.conv, .audio, .free, .ev, .sessions] := by
  have hgo : ¬((s.srcCh i).user = 0 ∨ (!(s.srcCh i).locked) = true ∨ (s.srcCh i).fixed = true) := by simp [hu, hl, hf]
  have hexec : exec (.srcUnlock i out) s = .next ((s.srcUnlocked i out).raise .srcUnlock 0 i 0) := if_neg hgo
  have hunlock : s.frame (s.srcUnlocked i out) [.conv, .audio, .free] :=
    State.frame_next (s.srcAdvance_passes s.mcc hf).frame (State.setConv_frame _ _ (by decide))
  have hraise := (s.srcUnlocked i out).raise_frame .srcUnlock 0 i 0
  obtain ⟨hlocked, hacq, hout, hcount⟩ := s.srcUnlocked_fields i out hf
  refine ⟨_, hexec, ?_⟩
  rw [State.srcCh_of_frame hraise (by decide)]
  exact ⟨hlocked, hacq, hout, hcount, State.raise_told_of_frame hunlock (by decide) _ _ _ _, State.frame_trans hunlock hraise⟩

end

/-! ### Changes of decimator channels -/

theorem State.decCh_updDec (s : State) (i j : Nat) (f : DecCh → DecCh) :
    (s.updDec i f).decCh j = if j = i then f (s.decCh i) else s.decCh j := Cells.get_upd _ _ _ _ _

@[simp] theorem State.decCh_updDec_same (s : State) (i : Nat) (f : DecCh → DecCh) : (s.updDec i f).decCh i = f (s.decCh i) := by
  rw [State.decCh_updDec, if_pos rfl]

/-- Nothing changes but decimator channels, the samples delivered and the free values taken. -/
structure State.DecOnly (s t : State) : Prop where
  frame : s.frame t [.conv, .audio, .free]
  conv : t.conv = { s.conv with dec := t.conv.dec }

namespace State.DecOnly

variable {s t u : State}

theorem refl (s : State) : s.DecOnly s := ⟨s.frame_refl _, rfl⟩

theorem trans (h : s.DecOnly t) (k : t.DecOnly u) : s.DecOnly u := ⟨State.frame_next h.frame k.frame, by rw [k.conv, h.conv]⟩

theorem updDec (h : s.DecOnly t) (i : Nat) (f : DecCh → DecCh) : s.DecOnly (t.updDec i f) :=
  h.trans ⟨t.setConv_frame _ (by decide), rfl⟩

theorem foldl {α : Type} {f : State → α → State} (hf : ∀ (u : State) a, u.DecOnly (f u a)) (xs : List α) (s : State) : s.DecOnly (xs.foldl f s) :=
  xs.foldlRecOn (motive := fun v => s.DecOnly v) f (.refl s) (fun v hv a _ => hv.trans (hf v a))

/-- What the rate converters and a scheduled DECSYNC come to. -/
theorem fields (h : s.DecOnly t) : t.conv.src = s.conv.src ∧ t.conv.sched = s.conv.sched ∧ t.conv.hold = s.conv.hold ∧
    t.conv.count = s.conv.count := by
  rw [h.conv]
  exact ⟨rfl, rfl, rfl, rfl⟩

end State.DecOnly

/-! ### Decimator channels while their samples pass -/

/-- A channel but for its output stages and how far it has come. -/
def DecCh.still (x : DecCh) : DecCh := { x with out8 := SlotSt.reset, outE := SlotSt.reset, next := 0 }

/-- Such a change leaves every channel but for its output stages and how far it has come. -/
structure State.DecPasses (s t : State) : Prop extends s.DecOnly t where
  still : ∀ j, (t.decCh j).still = (s.decCh j).still

namespace State.DecPasses

variable {s t u : State}

theorem refl (s : State) : s.DecPasses s := ⟨.refl s, fun _ => rfl⟩

theorem trans (h : s.DecPasses t) (k : t.DecPasses u) : s.DecPasses u := ⟨h.toDecOnly.trans k.toDecOnly, fun j => (k.still j).trans (h.still j)⟩

theorem updDec (h : s.DecPasses t) (i : Nat) {f : DecCh → DecCh} (hf : ∀ x, (f x).still = x.still) : s.DecPasses (t.updDec i f) :=
  h.trans ⟨(DecOnly.refl t).updDec i f, fun j => by
    rw [State.decCh_updDec]
    split
    · next e => rw [hf, e]
    · rfl⟩

/-- A sample delivered that is a free value. -/
theorem takes (h : s.DecPasses t) (ref n : Nat) (v : Int) : s.DecPasses (t.takeFree.2.putRx ref n v) :=
  h.trans ⟨⟨State.frame_next (t.takeFree_frame (by decide)) (State.putRx_frame _ _ _ _ (by decide)), rfl⟩, fun _ => rfl⟩

/-- The fields that stay. -/
theorem fields (h : s.DecPasses t) (j : Nat) : (t.decCh j).input = (s.decCh j).input ∧ (t.decCh j).want = (s.decCh j).want ∧
    (t.decCh j).silence = (s.decCh j).silence ∧ (t.decCh j).phase8 = (s.decCh j).phase8 ∧ (t.decCh j).phase16 = (s.decCh j).phase16 :=
  have hi := congrArg DecCh.input (h.still j)
  have hw := congrArg DecCh.want (h.still j)
  have hs := congrArg DecCh.silence (h.still j)
  have h8 := congrArg DecCh.phase8 (h.still j)
  have h16 := congrArg DecCh.phase16 (h.still j)
  ⟨hi, hw, hs, h8, h16⟩

end State.DecPasses

section
variable (s : State) (i : Nat)

theorem State.decAdvance_passes (upTo : Nat) : s.DecPasses (s.decAdvance i upTo) := by
  unfold State.decAdvance
  extract_lets x0
  split
  · exact .refl s
  · exact List.foldlRecOn (motive := s.DecPasses) _ _ (.refl s) (fun t ht j _ => (ht.takes _ _ _).updDec i (fun _ => rfl))

theorem State.decUnmute_passes : s.DecPasses (s.decUnmute i) := by
  unfold State.decUnmute
  extract_lets on8 onE
  split
  · exact .refl s
  · exact (s.decAdvance_passes i s.mcc).updDec i (fun _ => rfl)

/-- A channel brought up to a stamp, then changed. -/
theorem State.decAdvance_updDec_only (upTo : Nat) (f : DecCh → DecCh) : s.DecOnly ((s.decAdvance i upTo).updDec i f) :=
  (s.decAdvance_passes i upTo).toDecOnly.updDec i f

end

/-! ### Input changes (R245) -/

section
variable {s : State} {i : Nat} (hi : i < 64)
include hi

theorem decInputSwitch_switches {w : Nat} (hw : (s.decCh i).want = some w)
    (h8 : ((s.decAdvance i s.mcc).decCh i).out8.silent s.spring.n = true) (hE : ((s.decAdvance i s.mcc).decCh i).outE.silent s.mcc = true) :
    ∃ t, exec (.decInputSwitch i) s = .next t ∧ (t.decCh i).input = w ∧ (t.decCh i).want = none ∧
      (t.decCh i).silence = some (s.spring.n + 64) ∧ s.frame t [.conv, .audio, .free] := by
  have hexec : exec (.decInputSwitch i) s = .next ((s.decAdvance i s.mcc).updDec i (fun x => { x with
      input := w, want := none, silence := some (s.spring.n + 64), y8 := 0, next := s.mcc, out8 := SlotSt.reset, outE := SlotSt.reset })) := by
    show execDecInputSwitch i s = _
    simp only [execDecInputSwitch, hw, h8, hE, Nat.not_le.2 hi, Bool.not_true, Bool.false_eq_true, or_self, if_false]
  refine ⟨_, hexec, ?_⟩
  rw [State.decCh_updDec_same]
  exact ⟨rfl, rfl, rfl, (s.decAdvance_updDec_only i s.mcc _).frame⟩

theorem decSilenceEnd_ends {n : Nat} (hs : (s.decCh i).silence = some n) (hn : n ≤ s.spring.n) : ∃ t, exec (.decSilenceEnd i) s = .next t ∧
    t = (s.updDec i (fun x => { x with silence := none })).decUnmute i ∧ (t.decCh i).silence = none ∧
    (t.decCh i).input = (s.decCh i).input ∧ s.frame t [.conv, .audio, .free] := by
  have hexec : exec (.decSilenceEnd i) s = .next ((s.updDec i (fun x => { x with silence := none })).decUnmute i) := by
    show execDecSilenceEnd i s = _
    simp only [execDecSilenceEnd, hs, Nat.not_le.2 hi, Nat.not_lt.2 hn, or_self, if_false]
  have hpass := (s.updDec i (fun x => { x with silence := none })).decUnmute_passes i
  obtain ⟨hinput, -, hsilence, -⟩ := hpass.fields i
  rw [State.decCh_updDec_same] at hinput hsilence
  exact ⟨_, hexec, rfl, hsilence, hinput, (((State.DecOnly.refl s).updDec i _).trans hpass.toDecOnly).frame⟩

end

/-- Settles O19: each command by the channel it leaves, once the samples before have changed no more than its output stages. -/
theorem convertersLockAndSwitch : Obligations.ConvertersLockAndSwitch := by
  unfold Obligations.ConvertersLockAndSwitch
  exact ⟨fun s i hu hf => ⟨fun ratio => srcLock_locks hu hf ratio, fun out => srcUnlock_unlocks hu hf out⟩,
    fun s i hi => ⟨fun w => decInputSwitch_switches hi, fun n => decSilenceEnd_ends hi⟩⟩

end Sys2Proof.Machine
end

section
/-! PROOFS. DECSYNC (R249–R251): its request, the fade before c, the restart at c, the hold after it and the edges of its pin; O20. -/

namespace Sys2Proof.Machine

open Fmt

/-! ### An occurrence with a detail entry (R330) -/

/-- A change that touches nothing an occurrence reads leaves what it tells. -/
theorem State.raiseD_told_of_frame {s u : State} {l : List Part} (h : s.frame u l) (hl : ∀ p ∈ [Part.ev, .sessions, .mcc, .power], p ∉ l)
    (ev : Ev) (part obj : Nat) (c : List Nat) : s.toldD (u.raiseD ev part obj c) ev part obj c :=
  State.raiseD_told s u ev part obj c (h .ev (hl _ (by decide))) (h .sessions (hl _ (by decide))) (h .mcc (hl _ (by decide)))
    (State.legacy_of_straps (congrArg PowerG.straps (h .power (hl _ (by decide)))))

/-! ### A DECSYNC is scheduled (R250, R251) -/

/-- The converters with a DECSYNC scheduled for c. -/
def ConvG.scheduled (g : ConvG) (c : Nat) (byPin : Bool) : ConvG := { g with sched := some c, byPin := byPin, fading := false }

/-- The first block boundary that leaves room for the fade and the announcement (R250). -/
def State.nextDecsync (s : State) : Nat := cdiv (s.mcc + 32 + 2 * s.B) s.B * s.B

section
variable {s : State}

theorem decsync_schedules {r : Req} {x : Session} (h : s.admits r 0 x) (hask : s.asks r (.decsync r .next) = true)
    (hs : s.conv.sched = none) : ∃ t, exec (.decsync r .next) s = .next t ∧ t.answers r 0x0505 0 0 [.mcc s.nextDecsync] ∧
      t.conv = s.conv.scheduled s.nextDecsync false ∧ s.frame t [.conv, .sessions, .vcp] := by
  refine ⟨((s.admitted r).setConv (·.scheduled s.nextDecsync false)).reply r 0x0505 ⟨Err.ok, 0, [.mcc s.nextDecsync]⟩, ?_, ?_, ?_, ?_⟩
  · refine (State.ifAsked_asked hask).trans (congrArg _ (State.serve_answered h ?_))
    simp only [State.admitted_fields, State.B_admitted, hs, Option.isSome_none, Bool.false_eq_true, if_false]
    rfl
  · exact State.reply_answers_items (by simp [itemsFit, itemsSize, Item.size, replyMax, statusSize])
  · simp
  · exact State.request_frame (by decide) (State.setConv_frame _ _ (by decide)) _

theorem decsyncPinEdge_ignored (hp : s.at 0x25 0 0 = 2) (hs : s.conv.sched.isSome = true) :
    ∃ t, exec .decsyncPinEdge s = .next t ∧ s.told t .decsyncIgnored 0 0 0 ∧ s.frame t [.ev, .sessions] := by
  refine ⟨s.raise .decsyncIgnored 0 0 0, ?_, ⟨rfl, rfl⟩, s.raise_frame _ _ _ _⟩
  exact (if_neg (not_not.2 hp)).trans (if_pos (.inl hs))

theorem decsyncPinEdge_schedules (hp : s.at 0x25 0 0 = 2) (hs : s.conv.sched = none) (hh : s.conv.hold = none) (ho : s.obeys = false) :
    ∃ t, exec .decsyncPinEdge s = .next t ∧ t.conv = s.conv.scheduled (s.mcc + 32) true ∧ s.frame t [.conv, .twin] := by
  have hpin : s.pinSync (s.mcc + 32) = (s.setConv (·.scheduled (s.mcc + 32) true)).note (.decsync (s.mcc + 32)) :=
    if_neg (by rw [ho]; decide)
  have hnote := (s.setConv (·.scheduled (s.mcc + 32) true)).note_frame (.decsync (s.mcc + 32))
  refine ⟨s.pinSync (s.mcc + 32), ?_, ?_, ?_⟩
  · exact (if_neg (not_not.2 hp)).trans (if_neg (by simp [hs, hh]))
  · rw [hpin]
    exact hnote .conv (by decide)
  · rw [hpin]
    exact State.frame_trans (s.setConv_frame _ (l := [.conv]) (by decide)) hnote

end

/-! ### The fade before c (R249) -/

/-- The channels in use fade their engine-rate outputs from c − 32 on; one that is silent then stays so. -/
def State.decFades (s : State) (c : Nat) : State :=
  s.decUsed.foldl (fun s i =>
    (s.decAdvance i (c - 32)).updDec i (fun x => { x with outE := if x.outE.silent (c - 32) then SlotSt.reset else x.outE.fadeOut })) s

theorem State.decFades_only (s : State) (c : Nat) : s.DecOnly (s.decFades c) :=
  State.DecOnly.foldl (fun u i => u.decAdvance_updDec_only i _ _) _ s

theorem decsyncFadeStart_fades {s : State} {c : Nat} (hs : s.conv.sched = some c) (hf : s.conv.fading = false) (hc : c ≤ s.mcc + 32) :
    ∃ t, exec .decsyncFadeStart s = .next t ∧ t.conv.fading = true ∧ t.conv.sched = some c ∧ t.conv.src = s.conv.src ∧
      s.frame t [.conv, .audio, .free] := by
  have honly := s.decFades_only c
  obtain ⟨hsrc, hsched, -, -⟩ := honly.fields
  refine ⟨(s.decFades c).setConv (fun g => { g with fading := true }), ?_, rfl, hsched.trans hs, hsrc,
    State.frame_next honly.frame (State.setConv_frame _ _ (by decide))⟩
  show execDecsyncFadeStart s = _
  simp only [execDecsyncFadeStart, hs, hf, Nat.not_lt.2 hc, Bool.false_eq_true, or_self, if_false]
  rfl

/-! ### The restart at c (R249) -/

/-- A channel that clears its histories and counts from phase 0. -/
def DecCh.restarted (x : DecCh) : DecCh := { x with phase16 := 0, phase8 := 0, y8 := 0, out8 := SlotSt.reset, outE := SlotSt.reset }

/-- The two phase counters of a channel. -/
def DecCh.phases (x : DecCh) : Nat × Nat := (x.phase8, x.phase16)

/-- One channel brought up to c and restarted. -/
def State.decRestart (c : Nat) (s : State) (i : Nat) : State := (s.decAdvance i c).updDec i DecCh.restarted

theorem State.decRestart_phases (c : Nat) (s : State) (i j : Nat) :
    ((s.decRestart c i).decCh j).phases = if j = i then (0, 0) else (s.decCh j).phases := by
  rw [State.decRestart, State.decCh_updDec, apply_ite DecCh.phases]
  obtain ⟨-, -, -, h8, h16⟩ := (s.decAdvance_passes i c).fields j
  rw [show ((s.decAdvance i c).decCh j).phases = (s.decCh j).phases from Prod.ext h8 h16]
  rfl

/-- Each of the channels restarted counts from phase 0, whichever come after it. -/
theorem State.foldl_decRestart_phases (c : Nat) (is : List Nat) (s : State) (j : Nat) :
    ((is.foldl (State.decRestart c) s).decCh j).phases = if j ∈ is then (0, 0) else (s.decCh j).phases := by
  induction is generalizing s with
  | nil => simp
  | cons i is ih =>
    rw [List.foldl_cons, ih, State.decRestart_phases]
    by_cases e : j = i <;> simp [e]

/-- The converters once the hold and the pin pulse of a DECSYNC have started (R249). -/
def ConvG.synced (g : ConvG) (holdEnd pulse : Nat) : ConvG :=
  { g with sched := none, fading := false, byPin := false, hold := some holdEnd, count := (g.count + 1) % 2 ^ 32, pulse := pulse }

/-- Every channel in use restarted, the hold and the pulse started. -/
def State.decSynced (s : State) (c : Nat) : State :=
  (s.decUsed.foldl (State.decRestart c) s).setConv
    (·.synced (s.spring.n + s.at 0x25 0 2) (if s.at 0x25 0 0 = 1 then s.at 0x25 0 1 else 0))

theorem decsyncReset_restarts {s : State} {c : Nat} (hs : s.conv.sched = some c) (hc : c ≤ s.mcc) :
    ∃ t, exec .decsyncReset s = .next t ∧ t.conv.sched = none ∧ (∀ i ∈ s.decUsed, (t.decCh i).phase8 = 0 ∧ (t.decCh i).phase16 = 0) ∧
      t.conv.src = s.conv.src ∧ t.conv.hold = some (s.spring.n + s.at 0x25 0 2) ∧ t.conv.count = (s.conv.count + 1) % 2 ^ 32 ∧
      t.conv.pulse = (if s.at 0x25 0 0 = 1 then s.at 0x25 0 1 else 0) ∧ s.toldD t .decsync 0 0 (two c) ∧
      s.frame t [.conv, .audio, .free, .ev, .sessions] := by
  have hexec : exec .decsyncReset s = .next ((s.decSynced c).raiseD .decsync 0 0 (two c)) := by
    show execDecsyncReset s = _
    simp only [execDecsyncReset, hs, Nat.not_lt.2 hc, if_false]
    rfl
  have honly : s.DecOnly (s.decUsed.foldl (State.decRestart c) s) := State.DecOnly.foldl (fun u i => u.decAdvance_updDec_only i _ _) _ s
  have hsynced : s.frame (s.decSynced c) [.conv, .audio, .free] := State.frame_next honly.frame (State.setConv_frame _ _ (by decide))
  have hraise := (s.decSynced c).raiseD_frame .decsync 0 0 (two c)
  have hconv : ((s.decSynced c).raiseD .decsync 0 0 (two c)).conv = (s.decSynced c).conv := hraise .conv (by decide)
  obtain ⟨hsrc, -, -, hcount⟩ := honly.fields
  have hphases : ∀ i ∈ s.decUsed, ((s.decSynced c).decCh i).phases = (0, 0) := fun i hi =>
    (State.foldl_decRestart_phases c s.decUsed s i).trans (if_pos hi)
  refine ⟨_, hexec, ?_⟩
  simp only [State.decCh, hconv]
  exact ⟨rfl, fun i hi => Prod.mk.inj (hphases i hi), hsrc, rfl, congrArg (fun n => (n + 1) % 2 ^ 32) hcount, rfl,
    State.raiseD_told_of_frame hsynced (by decide) _ _ _ _, State.frame_trans hsynced hraise⟩

/-! ### The end of the hold (R249) -/

theorem decsyncHoldEnd_ends {s : State} {n : Nat} (hh : s.conv.hold = some n) (hn : n ≤ s.spring.n) :
    ∃ t, exec .decsyncHoldEnd s = .next t ∧ t.conv.hold = none ∧ t.conv.sched = s.conv.sched ∧ t.conv.src = s.conv.src ∧
      s.frame t [.conv, .audio, .free] := by
  have hexec : exec .decsyncHoldEnd s = .next ((s.setConv (fun g => { g with hold := none })).decUsed.foldl State.decUnmute
      (s.setConv (fun g => { g with hold := none }))) := by
    show execDecsyncHoldEnd s = _
    simp only [execDecsyncHoldEnd, hh, Nat.not_lt.2 hn, if_false]
  have honly := State.DecOnly.foldl (fun (u : State) i => (u.decUnmute_passes i).toDecOnly)
    (s.setConv (fun g => { g with hold := none })).decUsed (s.setConv (fun g => { g with hold := none }))
  obtain ⟨hsrc, hsched, hhold, -⟩ := honly.fields
  exact ⟨_, hexec, hhold, hsched, hsrc, State.frame_next (s.setConv_frame _ (by decide)) honly.frame⟩

/-- Settles O20: request and pin edge by what they schedule, fade, restart and hold by what they leave of the converters. -/
theorem decsyncRunsItsCourse : Obligations.DecsyncRunsItsCourse := by
  unfold Obligations.DecsyncRunsItsCourse
  intro s
  exact ⟨fun r x => decsync_schedules, fun c => decsyncFadeStart_fades, fun c => decsyncReset_restarts, decsyncPinEdge_ignored,
    decsyncPinEdge_schedules, fun n => decsyncHoldEnd_ends⟩

end Sys2Proof.Machine
end

section
/-! PROOFS. Changes of role (R277, R424, R426, R427, R430): what the clock unit's moves leave of its link to the peer and of the events raised,
and what each step of a change of role touches; O50. -/

namespace Sys2Proof.Machine

open Fmt

/-! ### What the clock unit's moves leave (R285–R299, R430) -/

/-- The CKU's link to its peer stays, and every event that has been raised stays raised. -/
structure State.KeepsLink (s t : State) : Prop where
  follow : t.cku.twinFollow = s.cku.twinFollow
  marks : ∀ e, s.marks e → t.marks e

namespace State.KeepsLink

variable {s t u : State}

theorem refl (s : State) : s.KeepsLink s := ⟨rfl, fun _ => id⟩

theorem trans (h : s.KeepsLink t) (k : t.KeepsLink u) : s.KeepsLink u := ⟨k.follow.trans h.follow, fun e he => k.marks e (h.marks e he)⟩

theorem ite {p : Prop} [Decidable p] (h : s.KeepsLink t) (k : s.KeepsLink u) : s.KeepsLink (if p then t else u) := by
  split
  · exact h
  · exact k

theorem foldl {α : Type} {f : State → α → State} (hf : ∀ (u : State) a, u.KeepsLink (f u a)) (xs : List α) (h : s.KeepsLink t) :
    s.KeepsLink (xs.foldl f t) :=
  xs.foldlRecOn (motive := fun v => s.KeepsLink v) f h (fun v hv a _ => hv.trans (hf v a))

/-- A change of neither the clock unit nor the events. -/
theorem of_frame (h : s.KeepsLink t) {l : List Part} (hf : t.frame u l) (hc : .cku ∉ l) (he : .ev ∉ l) : s.KeepsLink u :=
  h.trans ⟨congrArg CkuG.twinFollow (hf .cku hc), fun _ => State.marks_of_frame hf he⟩

theorem setCku (h : s.KeepsLink t) (f : CkuG → CkuG) (hf : (f t.cku).twinFollow = t.cku.twinFollow) : s.KeepsLink (t.setCku f) :=
  h.trans ⟨hf, fun _ => State.marks_of_frame (t.setCku_frame f (List.mem_singleton.2 rfl)) (by decide)⟩

theorem setNet (h : s.KeepsLink t) (f : NetG → NetG) : s.KeepsLink (t.setNet f) :=
  h.of_frame (t.setNet_frame f (List.mem_singleton.2 rfl)) (by decide) (by decide)

theorem raise (h : s.KeepsLink t) (ev : Ev) (part obj val : Nat) : s.KeepsLink (t.raise ev part obj val) :=
  h.trans ⟨congrArg CkuG.twinFollow (t.raise_frame ev part obj val .cku (by decide)), fun _ he => t.raiseTo_marks _ _ _ _ _ _ none (.inr he)⟩

theorem raiseD (h : s.KeepsLink t) (ev : Ev) (part obj : Nat) (c : List Nat) : s.KeepsLink (t.raiseD ev part obj c) :=
  h.trans ⟨congrArg CkuG.twinFollow (t.raiseD_frame ev part obj c .cku (by decide)), fun _ he => t.raiseTo_marks _ _ _ _ _ _ (some c) (.inr he)⟩

theorem maintEnd (h : s.KeepsLink t) : s.KeepsLink t.maintEnd := by
  unfold State.maintEnd
  split
  · exact h
  · exact (h.trans ⟨rfl, fun _ => id⟩ : s.KeepsLink (t.setFault _)).raise _ _ _ _

theorem calAbort (h : s.KeepsLink t) : s.KeepsLink t.calAbort := by
  unfold State.calAbort
  split
  · exact h
  · have h1 := (h.setCku (fun c => { c with cal := none }) rfl).raise .ckuCal 0 0 2
    exact h1.maintEnd.ite h1

theorem unalign (h : s.KeepsLink t) : s.KeepsLink t.unalign := h.ite ((h.setNet _).raise _ _ _ _)

theorem takeUp (h : s.KeepsLink t) (k : Nat) : s.KeepsLink (t.takeUp k) :=
  ((h.setCku _ rfl).setNet _).ite (h.setCku _ rfl)

theorem sapOrigins (h : s.KeepsLink t) : s.KeepsLink t.sapOrigins := by
  have sap : ∀ (u : State) (i : Nat), u.KeepsLink (u.sapOrigin (i / 2) (decide (i % 2 = 1))) := fun u i => by
    have h1 := fun d => (refl u).of_frame (u.setSap_frame (i / 2) (decide (i % 2 = 1)) d (List.mem_singleton.2 rfl)) (by decide) (by decide)
    exact (((h1 _).raise _ _ _ _).ite (h1 _)).ite (refl u)
  have madi : ∀ (u : State) (p : Nat), u.KeepsLink (u.madiOrigin p) := fun u p =>
    ((refl u).of_frame (u.setMadi_frame p false _ (List.mem_singleton.2 rfl)) (by decide) (by decide)).ite (refl u)
  exact foldl madi _ (foldl sap _ h)

theorem switchTo (h : s.KeepsLink t) (new cause : Nat) : s.KeepsLink (t.switchTo new cause) := by
  unfold State.switchTo
  extract_lets old s1 s2 s3 s4
  have h2 : s.KeepsLink s2 := (h.calAbort.setCku _ rfl).raiseD _ _ _ _
  have h3 : s.KeepsLink s3 := h2.unalign.ite h2
  have h4 : s.KeepsLink s4 := h3.ite (h3.takeUp new)
  exact h.ite h4.sapOrigins

theorem enterHoldover (h : s.KeepsLink t) : s.KeepsLink t.enterHoldover := by
  unfold State.enterHoldover
  extract_lets f s1
  have h1 : s.KeepsLink s1 := (h.setCku _ rfl).raise _ _ _ _
  exact (h.setCku _ rfl).ite (((h1.setCku _ rfl).raise _ _ _ _).ite h1)

theorem disagreements (h : s.KeepsLink t) : s.KeepsLink t.disagreements := by
  unfold State.disagreements
  extract_lets eq pairs
  refine h.ite (foldl (fun u p => ?_) pairs h)
  exact ((refl u).setCku _ rfl).ite ((refl u).ite (((refl u).setCku _ rfl).raise _ _ _ _))

theorem evaluate (h : s.KeepsLink t) : s.KeepsLink t.evaluate := by
  unfold State.evaluate
  extract_lets new s1 s2
  have h1 : s.KeepsLink s1 := h.switchTo _ _
  have h2 : s.KeepsLink s2 := h1.enterHoldover.ite h1
  exact h.ite (h2.disagreements.setCku _ rfl)

theorem loseRef (h : s.KeepsLink t) (k : Nat) : s.KeepsLink (t.loseRef k) := by
  unfold State.loseRef
  split
  · exact h
  · exact h
  · exact (h.setCku _ rfl).raise _ _ _ _

theorem ckuMode (h : s.KeepsLink t) (old new : Nat) : s.KeepsLink (t.ckuMode old new) := by
  unfold State.ckuMode
  extract_lets s1 s2 s3 s4
  have h1 : s.KeepsLink s1 := h.calAbort.setCku _ rfl
  have h2 : s.KeepsLink s2 := h1.raiseD _ _ _ _
  have h3 : s.KeepsLink s3 := h.calAbort.setCku _ rfl
  have h4 : s.KeepsLink s4 := h3.ite (h3.raiseD _ _ _ _)
  exact h.ite ((h2.unalign.ite h2).sapOrigins.ite ((h4.unalign.ite h4).sapOrigins.ite (h.setCku _ rfl)))

end State.KeepsLink

/-- A committed mode of the clock unit touches what a change of its reference touches. -/
theorem State.Retuned.ckuMode {s t : State} (h : s.Retuned t) (old new : Nat) : s.Retuned (t.ckuMode old new) := by
  unfold State.ckuMode
  extract_lets s1 s2 s3 s4
  have h2 : s.Retuned s2 := (h.calAbort.setCku _).raiseD _ _ _ _
  have h3 : s.Retuned s3 := h.calAbort.setCku _
  have h4 : s.Retuned s4 := h3.ite (h3.raiseD _ _ _ _)
  exact h.ite ((h2.unalign.ite h2).sapOrigins.ite ((h4.unalign.ite h4).sapOrigins.ite (h.setCku _)))

/-! ### The CKU follows the peer, or its own references again (R430) -/

section
variable (s : State)

theorem State.follow_retuned : s.Retuned s.follow := by
  unfold State.follow
  extract_lets old s1 s2
  have h1 : s.Retuned s1 := (State.Retuned.refl s).calAbort.setCku _
  have h2 : s.Retuned s2 := h1.ite (h1.raiseD _ _ _ _)
  exact (State.Retuned.refl s).ite (h2.unalign.ite h2).sapOrigins

theorem State.follow_twinFollow : s.follow.cku.twinFollow = true := by
  unfold State.follow
  split
  · assumption
  · extract_lets old s1 s2
    have h2 : s1.KeepsLink s2 := (State.KeepsLink.refl s1).ite ((State.KeepsLink.refl s1).raiseD _ _ _ _)
    exact (h2.unalign.ite h2).sapOrigins.follow

theorem State.unfollow_retuned : s.Retuned s.unfollow := by
  unfold State.unfollow
  extract_lets s1 mode
  have h1 : s.Retuned s1 := (State.Retuned.refl s).setCku _
  exact ((h1.ckuMode _ _).ite (h1.enterHoldover.ite h1.evaluate)).ite (State.Retuned.refl s)

theorem State.unfollow_twinFollow : s.unfollow.cku.twinFollow = false := by
  unfold State.unfollow
  split
  · extract_lets s1 mode
    have h1 := State.KeepsLink.refl s1
    exact ((h1.ckuMode _ _).ite (h1.enterHoldover.ite h1.evaluate)).follow
  · next h => exact Bool.eq_false_iff.2 h

/-- The reference that the roles call for. -/
def State.refFor (new : Role) : State := if new.follows then s.follow else s.unfollow

theorem State.refFor_retuned (new : Role) : s.Retuned (s.refFor new) := s.follow_retuned.ite s.unfollow_retuned

theorem State.refFor_twinFollow (new : Role) : (s.refFor new).cku.twinFollow = new.follows := by
  unfold State.refFor
  split
  · next h => rw [s.follow_twinFollow, h]
  · next h => rw [s.unfollow_twinFollow, Bool.eq_false_iff.2 h]

end

/-! ### The steps of a change of role (R424, R426, R427, R436) -/

/-- What is under way in a role begins anew with it. -/
def TwinG.assume (t : TwinG) (new : Role) (mcc : Nat) : TwinG :=
  { t with
    role := new, hasRole := true, swap := none, swapReq := none, handover := none, acked := mcc, renewed := mcc, resync := 0, nonconv := []
    copied := [], record := none, closing := [], leave := none, reseed := false, lease := decide (new = .active ∨ new = .standby)
    mismRun := 0, mismHist := [] }

section
variable (s : State) (new : Role)

/-- The role taken: the twin state that begins with it, the pins and the legs of the streams. -/
def State.assumed : State := (s.setTwin (·.assume new s.mcc)).drivePins.setLegs

theorem State.setRole_eq (cause : Nat) : s.setRole new cause =
    ((((s.assumed new).refFor new).moveSessions s.twin.role new).swapAnswer s.twin.swapReq { status := Err.state }).raiseD .twinRole 0 new.code
      [s.twin.role.code, new.code, cause] := rfl

theorem State.assumed_frame : s.frame (s.assumed new) [.twin, .net] := by
  simp [State.frame_iff, Part.same, State.assumed, State.drivePins, State.setLegs]

/-- The pins follow the role and the device state. -/
theorem State.assumed_twin : (s.assumed new).twin =
    { s.twin.assume new s.mcc with ownN := !(new.owns && s.live), aliveHeld := !s.live || decide (new = .fenced) } := rfl

theorem State.assumed_legs {c : Nat × TxStream} (h : c ∈ (s.assumed new).net.tx) :
    (c.2.legA, c.2.legB) = twinLegs s.power.straps.twinEn s.power.straps.pairId new := by
  obtain ⟨d, -, rfl⟩ := List.mem_map.1 h
  rfl

/-- The sessions that move do not change the twin state but for the announcements. -/
theorem State.moveSessions_twin (old : Role) : ∃ n, (s.moveSessions old new).twin = { s.twin with arps := n } := by
  rw [State.moveSessions]
  dsimp only
  split
  · exact ⟨_, rfl⟩
  · split <;> exact ⟨_, rfl⟩

theorem State.moveSessions_frame (old : Role) : s.frame (s.moveSessions old new) [.twin, .sessions] := by
  rw [State.moveSessions]
  dsimp only
  split_ifs <;> simp [State.frame_iff, Part.same]

theorem State.swapAnswer_frame (q : Option Req) (a : Ans) : s.frame (s.swapAnswer q a) replyParts := by
  cases q
  · exact s.frame_refl _
  · exact s.reply_frame _ _ _

/-- What comes after the reference leaves the clock unit and the network, and of the twin state all but the announcements. -/
theorem State.setRole_tail (cause : Nat) : ((s.assumed new).refFor new).frame (s.setRole new cause) [.twin, .sessions, .vcp, .ev] ∧
    ∃ n, (s.setRole new cause).twin = { (s.assumed new).twin with arps := n } := by
  rw [State.setRole_eq]
  generalize hu : (s.assumed new).refFor new = u
  have hmove := u.moveSessions_frame new s.twin.role
  have hswap := (u.moveSessions s.twin.role new).swapAnswer_frame s.twin.swapReq { status := Err.state }
  have hraise := State.raiseD_frame ((u.moveSessions s.twin.role new).swapAnswer s.twin.swapReq { status := Err.state }) .twinRole 0 new.code
    [s.twin.role.code, new.code, cause]
  refine ⟨State.frame_mono (State.frame_trans (State.frame_trans hmove hswap) hraise) (by decide), ?_⟩
  obtain ⟨n, hn⟩ := u.moveSessions_twin new s.twin.role
  have htwin : u.twin = (s.assumed new).twin := hu ▸ ((s.assumed new).refFor_retuned new).frame .twin (by decide)
  exact ⟨n, (State.frame_trans hswap hraise .twin (by decide)).trans (by rw [hn, htwin])⟩

end

theorem Role.owns_eq (r : Role) : r.owns = (decide (r = .solo) || decide (r = .active)) := by cases r <;> rfl

theorem Role.follows_eq (r : Role) : r.follows = (decide (r = .standby) || decide (r = .joining)) := by cases r <;> rfl

/-- Settles O50: the role is taken, the clock unit takes the reference of the role, and nothing that follows undoes either. -/
theorem roleChangesTakeEffect : Obligations.RoleChangesTakeEffect := by
  unfold Obligations.RoleChangesTakeEffect
  intro s new cause
  have hassumed := s.assumed_frame new
  have hretuned := (s.assumed new).refFor_retuned new
  obtain ⟨htail, n, htwin⟩ := s.setRole_tail new cause
  obtain ⟨m, hm⟩ := hretuned.net
  have hnet : (s.setRole new cause).net = { (s.assumed new).net with mcc := m } := (htail .net (by decide)).trans hm
  have hcku : (s.setRole new cause).cku = ((s.assumed new).refFor new).cku := htail .cku (by decide)
  dsimp only
  rw [htwin, State.assumed_twin, hnet, hcku, State.refFor_twinFollow, Role.owns_eq, Role.follows_eq]
  refine ⟨rfl, rfl, by simp, rfl, rfl, rfl, rfl, fun c => s.assumed_legs new, ?_, rfl, ?_⟩
  · rw [State.setRole_eq]
    exact State.raiseD_marks _ _ _ _ _
  · exact State.frame_mono (State.frame_trans (State.frame_trans hassumed hretuned.frame) htail) (by decide)

end Sys2Proof.Machine
end

section
/-! PROOFS. The NET ports and the time of day (R253–R264): links, frames received, the order of the queues, the PHC's steps and its servo, a lost
leader, event timers, and what the MCC's status follows. -/

namespace Sys2Proof.Machine

open Fmt

/-! ### A change of the network that an event tells -/

section
variable (s : State) (f : NetG → NetG) (ev : Ev) (part obj : Nat)

theorem State.setNet_raise (val : Nat) : s.told ((s.setNet f).raise ev part obj val) ev part obj val ∧
    s.frame ((s.setNet f).raise ev part obj val) [.net, .ev, .sessions] := by
  have h : s.frame (s.setNet f) [.net] := s.setNet_frame f (List.mem_singleton.2 rfl)
  exact ⟨State.raise_told_of_frame h (by decide) _ _ _ _, State.frame_trans h (State.raise_frame _ _ _ _ _)⟩

theorem State.setNet_raiseD (c : List Nat) : s.toldD ((s.setNet f).raiseD ev part obj c) ev part obj c ∧
    s.frame ((s.setNet f).raiseD ev part obj c) [.net, .ev, .sessions] := by
  have h : s.frame (s.setNet f) [.net] := s.setNet_frame f (List.mem_singleton.2 rfl)
  exact ⟨State.raiseD_told_of_frame h (by decide) _ _ _ _, State.frame_trans h (State.raiseD_frame _ _ _ _ _)⟩

end

/-- What is told after a change elsewhere is told of the state before it. -/
theorem State.told_after {s u t : State} {l : List Part} {ev : Ev} {part obj val : Nat} (h : u.told t ev part obj val) (hf : s.frame u l)
    (hl : ∀ p ∈ [Part.ev, .sessions, .mcc, .power], p ∉ l) : s.told t ev part obj val := by
  obtain ⟨hev, hsess⟩ := State.raise_told_of_frame hf hl ev part obj val
  exact ⟨h.1.trans hev, h.2.trans hsess⟩

/-! ### Links (R255) -/

section
variable {s : State} {n : Nat}

theorem State.linkUp_linkLost (s : State) (n m : Nat) : (s.linkLost n).linkUp m = (decide (m ≠ n) && s.linkUp m) := by
  simp only [State.linkUp, State.linkLost, State.raise_fields, State.setNet_fields]
  by_cases h : m = n <;> simp [List.contains_eq_mem, h]

theorem State.linkUp_linkBack (s : State) (n m : Nat) : (s.linkBack n).linkUp m = (decide (m = n) || s.linkUp m) := by
  simp [State.linkUp, State.linkBack]

theorem netLinkDown_falls (h : s.linkUp n = true) : ∃ t, exec (.netLinkDown n) s = .next t ∧ t.linkUp n = false ∧
    (∀ m, m ≠ n → t.linkUp m = s.linkUp m) ∧ Cells.get [] t.net.queue n = [] ∧ s.told t .netLink 0 n 1 ∧
    s.frame t [.net, .ev, .sessions] := by
  refine ⟨s.linkLost n, if_pos h, ?_, fun m hm => ?_, ?_, s.setNet_raise _ _ _ _ _⟩
  · simp [State.linkUp_linkLost]
  · simp [State.linkUp_linkLost, hm]
  · simp [State.linkLost]

theorem netLinkUp_rises (hn : n < 4) (hnet : s.netOn = true) (hon : s.on 0x30 n 0 = true) (h : s.linkUp n = false) :
    ∃ t, exec (.netLinkUp n) s = .next t ∧ t.linkUp n = true ∧ (∀ m, m ≠ n → t.linkUp m = s.linkUp m) ∧
      Cells.get 0 t.net.linkAt n = s.mcc ∧ s.told t .netLink 0 n 2 ∧ s.frame t [.net, .ev, .sessions] := by
  refine ⟨s.linkBack n, if_pos ⟨hn, hnet, hon, by simp [h]⟩, ?_, fun m hm => ?_, ?_, s.setNet_raise _ _ _ _ _⟩
  · simp [State.linkUp_linkBack]
  · simp [State.linkUp_linkBack, hm]
  · simp [State.linkBack]

end

/-! ### Frames that join the queues (R254, R255) -/

/-- Frames have joined the queues, or what waits for the control cores; nothing else has changed. -/
structure State.Queued (s t : State) : Prop where
  frame : s.frame t [.net]
  net : ∃ q o, t.net = { s.net with queue := q, owed := o }

namespace State.Queued

variable {s t u : State}

theorem refl (s : State) : s.Queued s := ⟨s.frame_refl _, _, _, rfl⟩

theorem ite {p : Prop} [Decidable p] (h : s.Queued t) (k : s.Queued u) : s.Queued (if p then t else u) := by
  split
  · exact h
  · exact k

/-- A change of the queues and of what waits. -/
theorem setNet (s : State) (f : NetG → NetG) (hf : ∃ q o, f s.net = { s.net with queue := q, owed := o }) : s.Queued (s.setNet f) :=
  ⟨s.setNet_frame f (List.mem_singleton.2 rfl), hf⟩

theorem enqueueAt (s : State) (n : Nat) (k : TxKind) (bytes due : Nat) : s.Queued (s.enqueueAt n k bytes due) :=
  (setNet s _ ⟨_, _, rfl⟩).ite (refl s)

theorem firmwareSends (s : State) (n : Nat) (k : TxKind) (bytes : Nat) : s.Queued (s.firmwareSends n k bytes) :=
  (setNet s _ ⟨_, _, rfl⟩).ite (enqueueAt s n k bytes 0)

theorem answerFrame (s : State) (n : Nat) (f : NetFrame) (k : FrameK) : s.Queued (s.answerFrame n f k) := by
  have sends : ∀ (p : Prop) [Decidable p] (a : TxKind) (b : Nat), s.Queued (if p then s.firmwareSends n a b else s) :=
    fun p _ a b => (firmwareSends s n a b).ite (refl s)
  cases k with
  | arp => exact sends _ _ _
  | icmp => exact sends _ _ _
  | igmp => exact sends _ _ _
  | ptpEvent => exact (enqueueAt s n _ _ 0).ite (refl s)
  | ptpGeneral | stream | vcp | other | badFcs => exact refl s

/-- What stays of the network. -/
theorem fields (h : s.Queued t) : t.net.drop = s.net.drop ∧ t.net.crc = s.net.crc ∧ t.net.paid = s.net.paid ∧
    t.net.ptpStamp = s.net.ptpStamp ∧ t.net.link = s.net.link ∧ t.net.tx = s.net.tx := by
  obtain ⟨q, o, hn⟩ := h.net
  rw [hn]
  exact ⟨rfl, rfl, rfl, rfl, rfl, rfl⟩

end State.Queued

section
variable (s : State) (n : Nat) (k : TxKind) (bytes : Nat)

theorem State.queue_enqueueAt (due m : Nat) : Cells.get [] (s.enqueueAt n k bytes due).net.queue m =
    if m = n ∧ s.linkUp n = true then Cells.get [] s.net.queue n ++ [{ kind := k, bytes := bytes, due := due }]
    else Cells.get [] s.net.queue m := by
  unfold State.enqueueAt
  split
  · next h => simp [Cells.get_upd, h]
  · next h => simp [h]

/-- Control cores that run let an answer join at once. -/
theorem State.firmwareSends_runs {s : State} (hs : s.fault.stalled = false) (hh : s.fault.halted = false) :
    s.firmwareSends n k bytes = s.enqueueAt n k bytes 0 := by
  simp [State.firmwareSends, State.enqueue, hs, hh]

end

theorem TxKind.queue_lt (k : TxKind) : k.queue < 4 := by
  cases k <;> simp [TxKind.queue]

/-- R254: what leaves next waits in the queues, may leave now, and no frame that may leave now is of an earlier queue. -/
theorem nextFrame_first {free : Bool} {now : Nat} {l : List TxFrame} {f : TxFrame} (h : nextFrame free now l = some f) :
    f ∈ l ∧ f.due ≤ now ∧ (free = true ∨ f.kind.limited = false) ∧
      ∀ g ∈ l, g.due ≤ now → free = true ∨ g.kind.limited = false → f.kind.queue ≤ g.kind.queue := by
  obtain ⟨before, q, after, hrange, hf, hnone⟩ := List.findSome?_eq_some_iff.1 h
  have hgo := List.find?_some hf
  simp only [Bool.and_eq_true, decide_eq_true_eq, Bool.or_eq_true, Bool.not_eq_true'] at hgo
  obtain ⟨⟨rfl, hdue⟩, hfree⟩ := hgo
  refine ⟨List.mem_of_find?_eq_some hf, hdue, hfree, fun g hg hgdue hgfree => ?_⟩
  have hmem : g.kind.queue ∈ List.range 4 := List.mem_range.2 g.kind.queue_lt
  have hsorted : (before ++ f.kind.queue :: after).Pairwise (· < ·) := hrange ▸ List.pairwise_lt_range
  rw [hrange, List.mem_append, List.mem_cons] at hmem
  obtain ⟨-, hafter, -⟩ := List.pairwise_append.1 hsorted
  rcases hmem with hb | he | ha
  · have := List.find?_eq_none.1 (hnone _ hb) g hg
    simp [hgdue, hgfree] at this
  · exact he.ge
  · exact ((List.pairwise_cons.1 hafter).1 _ ha).le

/-! ### Frames received (R253, R254, R258, R260) -/

/-- The frames that firmware handles. -/
def FrameK.slow (k : FrameK) : Prop := k = .arp ∨ k = .icmp ∨ k = .igmp

/-- A frame discarded is counted, and nothing else changes. -/
def State.Dropped (s t : State) (n : Nat) : Prop :=
  Cells.get 0 t.net.drop n = satInc (Cells.get 0 s.net.drop n) 1 ∧ t.net.queue = s.net.queue ∧ t.net.crc = s.net.crc ∧ s.frame t [.net]

theorem State.dropFrame_dropped (s : State) (n : Nat) : s.Dropped (s.dropFrame n) n :=
  ⟨by simp [State.dropFrame, Cells.get_upd], rfl, rfl, s.setNet_frame _ (by decide)⟩

theorem State.ctlPay_frame (s : State) (n dir bytes : Nat) : s.frame (s.ctlPay n dir bytes) [.net] := s.setNet_frame _ (by decide)

section
variable {s : State} {n : Nat} {f : NetFrame} (v : Nat) (hup : s.linkUp n = true)
include hup

/-- A frame that hardware takes, by its kind. -/
theorem execNetFrameReceive_fast (h : ¬ (s.classify n f).slow) : exec (.netFrameReceive n f v) s = .next (match s.classify n f with
    | .badFcs => s.setNet (fun g => { g with crc := Cells.upd 0 g.crc n (satInc · 1) })
    | .other => s.dropFrame n
    | .ptpEvent => (s.setNet (fun g => { g with ptpStamp := s.rxTimestamp n v })).answerFrame n f .ptpEvent
    | .ptpGeneral => if f.msg % 16 = 0xB ∧ s.net.alt ∧ n = s.at 0x33 0 7 then s.ptpUnlock.setNet (fun g => { g with alt := false, ptpSt := 1 })
      else s
    | _ => s) := by
  show execNetFrameReceive n f v s = _
  simp only [FrameK.slow, not_or] at h
  obtain ⟨harp, hicmp, higmp⟩ := h
  unfold execNetFrameReceive
  cases hk : s.classify n f with
  | arp => exact absurd hk harp
  | icmp => exact absurd hk hicmp
  | igmp => exact absurd hk higmp
  | badFcs | other | ptpEvent | stream | vcp => simp [hup]
  | ptpGeneral => exact (if_neg (by simp [hup])).trans ((if_neg (by simp)).trans (apply_ite Host.Outcome.next _ _ _).symm)

/-- A frame for firmware: discarded beyond the limit, else paid for and answered. -/
theorem execNetFrameReceive_slow (h : (s.classify n f).slow) : exec (.netFrameReceive n f v) s =
    .next (if s.ctlFree n 0 then (s.ctlPay n 0 (f.len + 20)).answerFrame n f (s.classify n f) else s.dropFrame n) := by
  show execNetFrameReceive n f v s = _
  unfold execNetFrameReceive
  rcases h with hk | hk | hk <;> cases s.ctlFree n 0 <;> simp [hk, hup]

theorem netFrameReceive_badFcs (hk : s.classify n f = .badFcs) : ∃ t, exec (.netFrameReceive n f v) s = .next t ∧
    Cells.get 0 t.net.crc n = satInc (Cells.get 0 s.net.crc n) 1 ∧ t.net.drop = s.net.drop ∧ s.frame t [.net] := by
  refine ⟨_, execNetFrameReceive_fast v hup (by simp [hk, FrameK.slow]), ?_⟩
  rw [hk]
  exact ⟨by simp [Cells.get_upd], rfl, s.setNet_frame _ (by decide)⟩

theorem netFrameReceive_other (hk : s.classify n f = .other) : ∃ t, exec (.netFrameReceive n f v) s = .next t ∧ s.Dropped t n := by
  refine ⟨_, execNetFrameReceive_fast v hup (by simp [hk, FrameK.slow]), ?_⟩
  rw [hk]
  exact s.dropFrame_dropped n

theorem netFrameReceive_own (hk : s.classify n f = .stream ∨ s.classify n f = .vcp) : exec (.netFrameReceive n f v) s = .next s := by
  rcases hk with hk | hk <;> rw [execNetFrameReceive_fast v hup (by simp [hk, FrameK.slow]), hk]

theorem netFrameReceive_ptpEvent (hk : s.classify n f = .ptpEvent) : ∃ t, exec (.netFrameReceive n f v) s = .next t ∧
    t.net.ptpStamp = s.rxTimestamp n v ∧ t.net.drop = s.net.drop ∧ s.frame t [.net] := by
  have hq := State.Queued.answerFrame (s.setNet (fun g => { g with ptpStamp := s.rxTimestamp n v })) n f .ptpEvent
  obtain ⟨hdrop, -, -, hstamp, -⟩ := hq.fields
  refine ⟨_, execNetFrameReceive_fast v hup (by simp [hk, FrameK.slow]), ?_⟩
  rw [hk]
  exact ⟨hstamp, hdrop, State.frame_next (s.setNet_frame _ (by decide)) hq.frame⟩

theorem netFrameReceive_announce (hk : s.classify n f = .ptpGeneral) (h : f.msg % 16 = 0xB ∧ s.net.alt = true ∧ n = s.at 0x33 0 7) :
    ∃ t, exec (.netFrameReceive n f v) s = .next t ∧ t.net.alt = false ∧ t.net.ptpSt = 1 := by
  refine ⟨_, execNetFrameReceive_fast v hup (by simp [hk, FrameK.slow]), ?_⟩
  simp only [hk, if_pos h]
  exact ⟨rfl, rfl⟩

theorem netFrameReceive_general (hk : s.classify n f = .ptpGeneral) (h : ¬ (f.msg % 16 = 0xB ∧ s.net.alt = true ∧ n = s.at 0x33 0 7)) :
    exec (.netFrameReceive n f v) s = .next s := by
  rw [execNetFrameReceive_fast v hup (by simp [hk, FrameK.slow])]
  simp only [hk, if_neg h]

theorem netFrameReceive_limited (hk : (s.classify n f).slow) (h : s.ctlFree n 0 = false) :
    ∃ t, exec (.netFrameReceive n f v) s = .next t ∧ s.Dropped t n := by
  refine ⟨_, execNetFrameReceive_slow v hup hk, ?_⟩
  rw [h]
  exact s.dropFrame_dropped n

theorem netFrameReceive_slow (hk : (s.classify n f).slow) (h : s.ctlFree n 0 = true) : ∃ t, exec (.netFrameReceive n f v) s = .next t ∧
    t.net.drop = s.net.drop ∧ Cells.get 0 t.net.paid (2 * n) = max (Cells.get 0 s.net.paid (2 * n)) s.upNs + 160 * (f.len + 20) ∧
    (s.classify n f = .arp → f.dst = s.at 0x30 n 2 → f.msg = 1 → s.fault.stalled = false → s.fault.halted = false →
      Cells.get [] t.net.queue n = Cells.get [] s.net.queue n ++ [{ kind := .arp, bytes := 88 }]) ∧ s.frame t [.net] := by
  have hpay := s.ctlPay_frame n 0 (f.len + 20)
  have hq := State.Queued.answerFrame (s.ctlPay n 0 (f.len + 20)) n f (s.classify n f)
  obtain ⟨hdrop, -, hpaid, -⟩ := hq.fields
  refine ⟨_, execNetFrameReceive_slow v hup hk, ?_⟩
  rw [if_pos h]
  refine ⟨hdrop, ?_, fun harp hdst hmsg hs hh => ?_, State.frame_next hpay hq.frame⟩
  · rw [hpaid]
    simp [State.ctlPay, Cells.get_upd]
  · have hown : (s.ctlPay n 0 (f.len + 20)).ownAddress n f.dst = true := by
      rw [State.ownAddress, State.at_of_frame hpay (by decide), hdst]
      simp
    have hup' : (s.ctlPay n 0 (f.len + 20)).linkUp n = true := hup
    rw [harp]
    simp only [State.answerFrame, hown, hmsg, and_self, if_true]
    rw [State.firmwareSends_runs (s := s.ctlPay n 0 (f.len + 20)) _ _ _ hs hh, State.queue_enqueueAt, if_pos ⟨rfl, hup'⟩]
    rfl

end

/-! ### The PHC steps (R257, R259, R264) -/

/-- Nothing changes but the network, the clock unit and the events, and of the network neither the PHC nor the offset last seen. -/
structure State.TimeKept (s t : State) : Prop where
  frame : s.frame t [.net, .cku, .ev, .sessions]
  phc : t.net.phc = s.net.phc
  offset : t.net.offset = s.net.offset

namespace State.TimeKept

variable {s t u : State}

theorem refl (s : State) : s.TimeKept s := ⟨s.frame_refl _, rfl, rfl⟩

theorem trans (h : s.TimeKept t) (k : t.TimeKept u) : s.TimeKept u :=
  ⟨State.frame_next h.frame k.frame, k.phc.trans h.phc, k.offset.trans h.offset⟩

theorem ite {p : Prop} [Decidable p] (h : s.TimeKept t) (k : s.TimeKept u) : s.TimeKept (if p then t else u) := by
  split
  · exact h
  · exact k

theorem setNet (h : s.TimeKept t) (f : NetG → NetG) (hp : (f t.net).phc = t.net.phc) (ho : (f t.net).offset = t.net.offset) :
    s.TimeKept (t.setNet f) :=
  h.trans ⟨t.setNet_frame f (by decide), hp, ho⟩

theorem setCku (h : s.TimeKept t) (f : CkuG → CkuG) : s.TimeKept (t.setCku f) :=
  h.trans ⟨t.setCku_frame f (by decide), rfl, rfl⟩

theorem raise (h : s.TimeKept t) (ev : Ev) (part obj val : Nat) : s.TimeKept (t.raise ev part obj val) :=
  h.trans ⟨State.frame_mono (t.raise_frame ev part obj val) (by decide), by simp, by simp⟩

theorem unalign (h : s.TimeKept t) : s.TimeKept t.unalign := h.ite ((h.setNet _ rfl rfl).raise _ _ _ _)

end State.TimeKept

section
variable (s : State)

/-- A change of nothing but the network, which keeps the time. -/
theorem State.setNet_kept (f : NetG → NetG) (hp : (f s.net).phc = s.net.phc) (ho : (f s.net).offset = s.net.offset) :
    s.TimeKept (s.setNet f) ∧ s.frame (s.setNet f) [.net] :=
  ⟨(State.TimeKept.refl s).setNet f hp ho, s.setNet_frame f (by decide)⟩

/-- The event timers that are on count from the present PHC time. -/
def State.timersStart (is : List Nat) : State := is.foldl (fun s i => if s.at 0x32 i 0 ≠ 0xFF then s.timerStart i else s) s

theorem State.timersStart_kept (is : List Nat) : s.TimeKept (s.timersStart is) ∧ s.frame (s.timersStart is) [.net] := by
  refine List.foldlRecOn (motive := fun u : State => s.TimeKept u ∧ s.frame u [.net]) is _ ⟨.refl s, s.frame_refl _⟩ ?_
  rintro u ⟨hk, hf⟩ i -
  have hi : u.TimeKept (u.timerStart i) ∧ u.frame (u.timerStart i) [.net] := by
    unfold State.timerStart
    exact u.setNet_kept _ rfl rfl
  split
  · exact ⟨hk.trans hi.1, State.frame_next hf hi.2⟩
  · exact ⟨hk, hf⟩

theorem State.timersStep_eq (before : Nat) : s.timersStep before = (s.timersStart (List.range 8)).setNet (fun g => { g with
    pulse := Cells.mapVal (fun t => if before < t then t - before + s.phcNs else 0) g.pulse }) := rfl

theorem State.timersStep_kept (before : Nat) : s.TimeKept (s.timersStep before) ∧ s.frame (s.timersStep before) [.net] := by
  obtain ⟨hk, hf⟩ := s.timersStart_kept (List.range 8)
  rw [State.timersStep_eq]
  generalize s.timersStart (List.range 8) = u at *
  obtain ⟨hk', hf'⟩ := u.setNet_kept (fun g => { g with
    pulse := Cells.mapVal (fun t => if before < t then t - before + s.phcNs else 0) g.pulse }) rfl rfl
  exact ⟨hk.trans hk', State.frame_next hf hf'⟩

/-- The PHC at the start of a unit of its time. -/
def Phc.at (p : Phc) (t : Nat) : Phc := { p with t := t, rem := 0 }

/-- The network with its PHC there. -/
def NetG.phcAt (g : NetG) (t : Nat) : NetG := { g with phc := g.phc.at t }

/-- The PHC at a time, and the timers that follow it. -/
def State.phcPut (t : Nat) : State := (s.setNet (fun g => { g with phc := { g.phc with t := t, rem := 0 } })).timersStep s.phcNs

theorem State.phcPut_eq (t : Nat) : s.phcPut t = (s.setNet (·.phcAt t)).timersStep s.phcNs := rfl

theorem State.phcPut_phc (t : Nat) : (s.phcPut t).net.phc = s.net.phc.at t ∧
    (s.phcPut t).net.offset = s.net.offset ∧ s.frame (s.phcPut t) [.net] := by
  obtain ⟨hk, hf⟩ := (s.setNet (·.phcAt t)).timersStep_kept s.phcNs
  rw [State.phcPut_eq]
  exact ⟨hk.phc, hk.offset, State.frame_next (s.setNet_frame _ (by decide)) hf⟩

/-- What a step of the PHC is to the clock unit while REF4 is selected (R257, R264). -/
def State.phcFollow : State :=
  if s.cku.sel = 4 then
    let s2 := s.setNet (fun g => { g with edgeErr := s.edgeNs })
    if s2.net.mcc = 2 ∧ s2.net.edgeErr.natAbs ≤ 50 ∧ s2.delta = 0 then s2
    else
      let s3 := if s2.net.mcc = 2 then s2.unalign else s2
      (s3.setCku (fun c => { c with slewing := true, slewMod := s3.slewUnit })).setNet (fun g => { g with mcc := 1 })
  else s

theorem State.phcStep_eq (t : Nat) : s.phcStep t = (s.phcPut t).phcFollow := rfl

/-- It keeps the time that the step has set. -/
theorem State.phcFollow_kept : s.TimeKept s.phcFollow := by
  unfold State.phcFollow
  extract_lets s2 s3
  have h2 : s.TimeKept s2 := (State.TimeKept.refl s).setNet _ rfl rfl
  have h3 : s.TimeKept s3 := h2.unalign.ite h2
  exact (h2.ite ((h3.setCku _).setNet _ rfl rfl)).ite (.refl s)

theorem State.phcFollow_other {s : State} (h : s.cku.sel ≠ 4) : s.phcFollow = s := if_neg h

/-- While REF4 is not selected a step touches the network only. -/
theorem State.phcStep_frame_other {t : Nat} (h : s.cku.sel ≠ 4) : s.frame (s.phcStep t) [.net] := by
  obtain ⟨-, -, hf⟩ := s.phcPut_phc t
  have hcku : (s.phcPut t).cku = s.cku := hf .cku (by decide)
  rwa [State.phcStep_eq, State.phcFollow_other (by rwa [hcku])]

theorem State.phcStep_phc (t : Nat) : (s.phcStep t).net.phc = s.net.phc.at t ∧
    (s.phcStep t).net.offset = s.net.offset ∧ s.frame (s.phcStep t) [.net, .cku, .ev, .sessions] := by
  obtain ⟨hp, ho, hf⟩ := s.phcPut_phc t
  have hk := (s.phcPut t).phcFollow_kept
  rw [State.phcStep_eq]
  exact ⟨hk.phc.trans hp, hk.offset.trans ho, State.frame_next (State.frame_mono hf (by decide)) hk.frame⟩

end

/-! ### An offset from the leader (R256) -/

/-- The lock counts after an offset. -/
def NetG.counted (g : NetG) (off lockNs : Nat) : NetG :=
  { g with phc := { g.phc with
      within := if off ≤ lockNs then g.phc.within + 1 else 0, beyond := if 10 * lockNs < off then g.phc.beyond + 1 else 0 } }

/-- A PHC that has locked. -/
def NetG.locked (g : NetG) : NetG := { g with ptpSt := 3, phc := { g.phc with beyond := 0 } }

/-- An unlocked clock counts an offset and locks on the 16th in a row within the limit. -/
def State.countOffset (s : State) (off lockNs : Nat) : State :=
  let s1 := s.setNet (·.counted off lockNs)
  if 16 ≤ s1.net.phc.within then (s1.setNet NetG.locked).raise .ptpLock 0 0 0 else s1

theorem State.countOffset_frame (s : State) (off lockNs : Nat) : s.frame (s.countOffset off lockNs) [.net, .ev, .sessions] :=
  State.frame_ite (State.frame_next (s.setNet_frame _ (by decide)) (State.setNet_raise _ _ _ _ _ _).2) (s.setNet_frame _ (by decide))

/-- The PHC's time stays, and so does the offset last seen. -/
theorem State.countOffset_net (s : State) (off lockNs : Nat) : (s.countOffset off lockNs).net.offset = s.net.offset ∧
    (s.countOffset off lockNs).net.phc.t = s.net.phc.t ∧ (s.countOffset off lockNs).net.phc.rem = s.net.phc.rem ∧
    (s.countOffset off lockNs).net.phc.adj = s.net.phc.adj := by
  unfold State.countOffset
  extract_lets s1
  split
  · simp only [State.raise_fields]
    exact ⟨rfl, rfl, rfl, rfl⟩
  · exact ⟨rfl, rfl, rfl, rfl⟩

theorem State.countOffset_locks {s : State} {off lockNs : Nat} (hin : off ≤ lockNs) (h : 15 ≤ s.net.phc.within) :
    (s.countOffset off lockNs).net.ptpSt = 3 ∧ s.told (s.countOffset off lockNs) .ptpLock 0 0 0 := by
  have hgo : 16 ≤ (s.setNet (·.counted off lockNs)).net.phc.within := by
    simp only [State.setNet_fields, NetG.counted, if_pos hin]
    omega
  rw [State.countOffset, if_pos hgo]
  exact ⟨by simp [NetG.locked], State.raise_told_of_frame (State.frame_next (s.setNet_frame (l := [.net]) _ (by decide))
    (State.setNet_frame _ _ (by decide))) (by decide) _ _ _ _⟩

/-- What the servo does with an offset within its reach: an adjustment word within its range, which the spec leaves free. -/
def State.servo (s : State) : State :=
  s.draw.2.setNet (fun g => { g with phc := { g.phc with adj := clampI (-adjMax) adjMax (Config.freeInt s.draw.1) } })

theorem State.servo_frame (s : State) : s.frame s.servo [.net, .draws] := by
  simp [State.frame_iff, Part.same, State.servo, State.draw]

theorem clampI_natAbs_le (x : Int) : (clampI (-adjMax) adjMax x).natAbs ≤ 8589935 := by
  simp only [clampI, adjMax]
  split_ifs <;> omega

section
variable {s : State} {off : Int} {l : Nat} (hnet : s.netOn = true) (hon : s.on 0x33 0 0 = true) (hrole : s.at 0x33 0 3 ≠ 1)
  (hst : s.net.ptpSt = 1 ∨ s.net.ptpSt = 2)

/-- An unlocked clock that has taken an offset. -/
def NetG.offsetTaken (g : NetG) (off : Int) (l : Nat) : NetG := { g with offset := off, leader := l % 2 ^ 64, ptpSt := 2 }

include hnet hon hrole hst

theorem execPtpOffsetMeasurement_unlocked : exec (.ptpOffsetMeasurement off l) s =
    .next (State.countOffset (if 100000 < off.natAbs then
        (s.setNet (·.offsetTaken off l)).phcStep ((s.net.phc.t : Int) - off * 2 ^ 32).toNat
      else (s.setNet (·.offsetTaken off l)).servo) off.natAbs (s.at 0x33 0 0x0A)) := by
  have hne : s.net.ptpSt ≠ 3 := by omega
  have hgo : s.net.ptpSt = 1 ∨ s.net.ptpSt = 2 ∨ s.net.ptpSt = 3 := by omega
  show execPtpOffsetMeasurement off l s = _
  have hcond : s.netOn = true ∧ s.on 0x33 0 0 = true ∧ (s.net.ptpSt = 1 ∨ s.net.ptpSt = 2 ∨ s.net.ptpSt = 3) ∧ s.at 0x33 0 3 ≠ 1 :=
    ⟨hnet, hon, hgo, hrole⟩
  rw [execPtpOffsetMeasurement, if_pos hcond]
  simp only [hne, decide_false, Bool.not_false, true_and, Bool.false_eq_true, false_and, if_false, State.countOffset, decide_eq_true_eq,
    apply_ite Host.Outcome.next]
  rfl

/-- A large offset steps the PHC by it. -/
theorem ptpOffsetMeasurement_steps (h : 100000 < off.natAbs) : ∃ t, exec (.ptpOffsetMeasurement off l) s = .next t ∧ t.net.offset = off ∧
    t.net.phc.t = ((s.net.phc.t : Int) - off * 2 ^ 32).toNat ∧ t.net.phc.rem = 0 ∧ s.frame t [.net, .cku, .ev, .sessions] := by
  refine ⟨_, execPtpOffsetMeasurement_unlocked hnet hon hrole hst, ?_⟩
  rw [if_pos h]
  obtain ⟨hp, ho, hf⟩ := (s.setNet (·.offsetTaken off l)).phcStep_phc ((s.net.phc.t : Int) - off * 2 ^ 32).toNat
  generalize (s.setNet (·.offsetTaken off l)).phcStep ((s.net.phc.t : Int) - off * 2 ^ 32).toNat = u at *
  obtain ⟨hoff, ht, hrem, -⟩ := u.countOffset_net off.natAbs (s.at 0x33 0 0x0A)
  rw [hoff, ht, hrem, ho, hp]
  exact ⟨rfl, rfl, rfl, State.frame_next (State.frame_next (s.setNet_frame _ (by decide)) hf)
    (State.frame_mono (u.countOffset_frame _ _) (by decide))⟩

/-- The 16th offset in a row within the limit locks the PHC, which keeps its time. -/
theorem ptpOffsetMeasurement_locks (h : off.natAbs ≤ 100000) (hin : off.natAbs ≤ s.at 0x33 0 0x0A) (hrow : 15 ≤ s.net.phc.within) :
    ∃ t, exec (.ptpOffsetMeasurement off l) s = .next t ∧ t.net.ptpSt = 3 ∧ t.net.phc.t = s.net.phc.t ∧
      t.net.phc.adj.natAbs ≤ 8589935 ∧ s.told t .ptpLock 0 0 0 ∧ s.frame t [.net, .ev, .sessions, .draws] := by
  refine ⟨_, execPtpOffsetMeasurement_unlocked hnet hon hrole hst, ?_⟩
  rw [if_neg (by omega)]
  have hu : s.frame (s.setNet (·.offsetTaken off l)).servo [.net, .draws] :=
    State.frame_next (s.setNet_frame _ (by decide)) (State.servo_frame _)
  have hadj : (s.setNet (·.offsetTaken off l)).servo.net.phc.adj.natAbs ≤ 8589935 := clampI_natAbs_le _
  have hwithin : (s.setNet (·.offsetTaken off l)).servo.net.phc.within = s.net.phc.within := rfl
  have htime : (s.setNet (·.offsetTaken off l)).servo.net.phc.t = s.net.phc.t := rfl
  generalize (s.setNet (·.offsetTaken off l)).servo = u at *
  obtain ⟨-, ht, -, ha⟩ := u.countOffset_net off.natAbs (s.at 0x33 0 0x0A)
  obtain ⟨hlock, htold⟩ := State.countOffset_locks hin (hwithin.symm ▸ hrow)
  rw [ht, ha]
  exact ⟨hlock, htime, hadj, State.told_after htold hu (by decide), State.frame_mono (State.frame_trans hu (u.countOffset_frame _ _)) (by decide)⟩

end

/-! ### The leader lost (R256, R260, R262) -/

section
variable {s : State}

/-- What PTP has counted towards lock and loss is gone. -/
def NetG.unlocked (g : NetG) : NetG :=
  { g with ptpSt := if g.ptpSt = 3 then 2 else g.ptpSt, phc := { g.phc with within := 0, beyond := 0 } }

theorem State.ptpUnlock_idle (h : s.net.ptpSt ≠ 3) : s.ptpUnlock = s.setNet NetG.unlocked :=
  if_neg (by simpa using h)

theorem State.ptpUnlock_locked (h : s.net.ptpSt = 3) :
    s.ptpUnlock = (((s.setNet NetG.unlocked).raise .ptpUnlock 0 0 0).loseRef 4).evaluate :=
  if_pos (by simpa using h)

/-- Of the network it changes no more than that and mcc.status. -/
theorem State.ptpUnlock_net (s : State) : ∃ m, s.ptpUnlock.net = { s.net.unlocked with mcc := m } := by
  by_cases h : s.net.ptpSt = 3
  · rw [State.ptpUnlock_locked h]
    obtain ⟨m, hm⟩ := ((State.Retuned.refl ((s.setNet NetG.unlocked).raise .ptpUnlock 0 0 0)).loseRef 4).evaluate.net
    have hr : ((s.setNet NetG.unlocked).raise .ptpUnlock 0 0 0).net = s.net.unlocked := State.raise_frame _ _ _ _ _ .net (by decide)
    exact ⟨m, hm.trans (by rw [hr])⟩
  · exact ⟨s.net.mcc, by rw [State.ptpUnlock_idle h]; rfl⟩

variable (hnet : s.netOn = true) (hon : s.on 0x33 0 0 = true)
include hnet hon

/-- PTP goes on at its alternate port, as leader, or listens afresh. -/
theorem execAnnounceTimeout_eq (hst : s.net.ptpSt = 1 ∨ s.net.ptpSt = 2 ∨ s.net.ptpSt = 3) : ∃ st, st ≠ 3 ∧
    exec .announceTimeout s = .next (s.ptpUnlock.setNet (fun g => { g with
      alt := s.net.alt || decide (s.at 0x33 0 8 ≠ 0xFF), ptpSt := st })) := by
  obtain ⟨m, hm⟩ := s.ptpUnlock_net
  have halt : s.ptpUnlock.net.alt = s.net.alt := by rw [hm]; rfl
  show ∃ st, st ≠ 3 ∧ execAnnounceTimeout s = _
  rw [execAnnounceTimeout, if_pos ⟨hnet, hon, hst⟩]
  by_cases hport : s.at 0x33 0 8 = 0xFF ∨ s.net.alt = true
  · have hstay : (s.net.alt || decide (s.at 0x33 0 8 ≠ 0xFF)) = s.ptpUnlock.net.alt := by
      rcases hport with h | h <;> simp [h, halt]
    rw [hstay, if_neg (by simpa [or_iff_not_imp_left] using hport)]
    by_cases hrole : s.at 0x33 0 3 = 0
    · exact ⟨1, by decide, if_neg (by simpa using hrole)⟩
    · exact ⟨4, by decide, if_pos hrole⟩
  · obtain ⟨hne, hoff⟩ := not_or.1 hport
    exact ⟨1, by decide, by simp [hne, hoff]⟩

theorem announceTimeout_moves (hst : s.net.ptpSt = 1 ∨ s.net.ptpSt = 2) : ∃ t, exec .announceTimeout s = .next t ∧
    t.net.alt = (s.net.alt || decide (s.at 0x33 0 8 ≠ 0xFF)) ∧ t.net.phc.within = 0 ∧ s.frame t [.net] := by
  obtain ⟨st, -, hexec⟩ := execAnnounceTimeout_eq hnet hon (by omega)
  refine ⟨_, hexec, ?_⟩
  rw [State.ptpUnlock_idle (by omega)]
  exact ⟨rfl, rfl, State.frame_next (s.setNet_frame _ (by decide)) (State.setNet_frame _ _ (by decide))⟩

theorem announceTimeout_unlocks (hst : s.net.ptpSt = 3) : ∃ t, exec .announceTimeout s = .next t ∧ t.net.ptpSt ≠ 3 ∧
    t.marks .ptpUnlock ∧ t.net.phc.t = s.net.phc.t := by
  obtain ⟨st, hne, hexec⟩ := execAnnounceTimeout_eq hnet hon (by omega)
  obtain ⟨m, hm⟩ := s.ptpUnlock_net
  have hmarks : s.ptpUnlock.marks .ptpUnlock := by
    rw [State.ptpUnlock_locked hst]
    exact ((State.KeepsLink.refl _).loseRef 4).evaluate.marks _ (State.raise_marks _ _ _ _ _)
  exact ⟨_, hexec, hne, State.marks_of_frame (State.setNet_frame (l := [.net]) _ _ (by decide)) (by decide) hmarks, by simp [hm, NetG.unlocked]⟩

end

/-! ### Event timers and capture units (R259) -/

section
variable {s : State} {i : Nat}

theorem phcTimerPulse_pulses (hi : i < 8) (hnet : s.netOn = true) (hon : s.at 0x32 i 0 ≠ 0xFF)
    (hdue : s.at 0x32 i 1 * 1000000000 + s.at 0x32 i 2 + Cells.get 0 s.net.timers i * s.at 0x32 i 3 ≤ s.phcNs) :
    ∃ t, exec (.phcTimerPulse i) s = .next t ∧ Cells.get 0 t.net.timers i = Cells.get 0 s.net.timers i + 1 ∧
      Cells.get 0 t.net.pulse i =
        s.at 0x32 i 1 * 1000000000 + s.at 0x32 i 2 + Cells.get 0 s.net.timers i * s.at 0x32 i 3 + s.at 0x32 i 4 ∧
      s.told t .phcTimer 0 i 0 ∧ s.frame t [.net, .ev, .sessions] := by
  refine ⟨_, if_pos ⟨hi, hnet, hon, hdue⟩, ?_, ?_, s.setNet_raise _ _ _ _ _⟩
  · simp [Cells.get_upd]
  · simp

theorem phcCapture_captures {up : Bool} (h8 : 8 ≤ i) (h16 : i < 16) (hnet : s.netOn = true) (hon : s.at 0x32 i 0 ≠ 0xFF)
    (hedge : s.at 0x32 i 5 = 2 ∨ s.at 0x32 i 5 = (if up then 0 else 1)) :
    ∃ t, exec (.phcCapture i up) s = .next t ∧ Cells.get 0 t.net.capture i = s.phcNs ∧
      s.toldD t .phcCapture 0 i (two (s.phcNs / 1000000000) ++ [s.phcNs % 1000000000, s.net.phc.t % 2 ^ 32]) ∧
      s.frame t [.net, .ev, .sessions] := by
  have hgo : s.at 0x32 i 5 = 2 ∨ (s.at 0x32 i 5 = 0 ∧ up = true) ∨ (s.at 0x32 i 5 = 1 ∧ up = false) := by
    cases up <;> simpa using hedge
  refine ⟨_, if_pos ⟨h8, h16, hnet, hon, hgo⟩, by simp, s.setNet_raiseD _ _ _ _ _⟩

end

/-! ### Requests for the time of day and for a renumbering (R261, R263) -/

/-- A chip that serves audio commands is neither standby, joining nor fenced (R434). -/
theorem State.role_of_audioServed {s : State} (ha : s.audioServed = true) :
    ¬ (s.twin.role = .standby ∨ s.twin.role = .joining ∨ s.twin.role = .fenced) := by
  simp only [State.audioServed, Bool.or_eq_true, decide_eq_true_eq] at ha
  rcases ha with h | h <;> simp [h]

section
variable {s : State} {r : Req} {q : Session} (hq : s.admits r 0 q)
include hq

theorem phcSet_refused {sec ns : Nat} (hnet : s.netOn = false) : s.refuses (.phcSet r sec ns) r 0x0501 Err.state := by
  have hoff : bit s.power.domains 1 = false := hnet
  refine fun _ => ⟨_, rfl, State.serve_refused hq (if_pos ?_)⟩
  simp [hoff]

variable (ha : s.audioServed = true)
include ha

/-- PHC_SET where it is served: the PHC steps. -/
theorem execPhcSet_steps {sec ns : Nat} (hsec : sec < 2 ^ 48) (hns : ns < 1000000000) (hnet : s.netOn = true) :
    exec (.phcSet r sec ns) s = .next (((s.admitted r).phcStep ((sec * 1000000000 + ns) * 2 ^ 32)).reply r 0x0501 (Ans.mk Err.ok 0 [])) := by
  have hrole := State.role_of_audioServed ha
  have hon : bit s.power.domains 1 = true := hnet
  refine congrArg Host.Outcome.next (State.serve_answered hq ((if_neg ?_).trans (if_neg (by omega))))
  simpa [hon] using hrole

theorem phcSet_sets {sec ns : Nat} (hsec : sec < 2 ^ 48) (hns : ns < 1000000000) (hnet : s.netOn = true) :
    ∃ t, exec (.phcSet r sec ns) s = .next t ∧ t.answers r 0x0501 0 0 [] ∧ t.net.phc.t = (sec * 1000000000 + ns) * 2 ^ 32 ∧
      t.net.phc.rem = 0 ∧ (s.cku.sel ≠ 4 → s.frame t [.net, .sessions, .vcp]) ∧ s.frame t [.net, .cku, .ev, .sessions, .vcp] := by
  refine ⟨_, execPhcSet_steps hq ha hsec hns hnet, State.reply_answers_nil _ _, ?_⟩
  obtain ⟨hp, -, hf⟩ := (s.admitted r).phcStep_phc ((sec * 1000000000 + ns) * 2 ^ 32)
  have hother : s.cku.sel ≠ 4 → _ := (s.admitted r).phcStep_frame_other (t := (sec * 1000000000 + ns) * 2 ^ 32)
  generalize (s.admitted r).phcStep ((sec * 1000000000 + ns) * 2 ^ 32) = u at *
  have hphc : (u.reply r 0x0501 (Ans.mk Err.ok 0 [])).net.phc = (s.admitted r).net.phc.at ((sec * 1000000000 + ns) * 2 ^ 32) :=
    (congrArg NetG.phc (State.reply_frame u _ _ _ .net (by decide))).trans hp
  exact ⟨congrArg Phc.t hphc, congrArg Phc.rem hphc, fun h => State.request_frame (by decide) (State.frame_mono (hother h) (by decide)) _,
    State.request_frame (by decide) (State.frame_mono hf (by decide)) _⟩

theorem mccAlign_asks (hsets : ∀ x ∈ s.scene.sets, x.st ≠ .scheduled) (hcues : ∀ c ∈ s.scene.cues, c.2.st ≠ .armed) :
    ∃ t, exec (.mccAlign r) s = .next t ∧ t.answers r 0x0502 0 0 [] ∧ t.net.align = true ∧ t.net.mcc = 1 ∧ t.cku.slewMod = s.B ∧
      s.frame t [.net, .cku, .sessions, .vcp] := by
  have hrole := State.role_of_audioServed ha
  have hnone : ¬ ((s.admitted r).scene.sets.any (fun x => x.st = .scheduled) = true ∨
      (s.admitted r).scene.cues.any (fun c => c.2.st = .armed) = true) := by
    simpa using ⟨hsets, fun n c => hcues (n, c)⟩
  refine ⟨(s.admitted r).askAlign.reply r 0x0502 (Ans.mk Err.ok 0 []), ?_, State.reply_answers_nil _ _, ?_⟩
  · refine congrArg Host.Outcome.next (State.serve_answered hq ((if_neg ?_).trans (if_neg hnone)))
    simpa using hrole
  · have hasked : (s.admitted r).frame (s.admitted r).askAlign [.net, .cku, .sessions, .vcp] :=
      State.frame_next (State.setNet_frame _ _ (by decide)) (State.setCku_frame _ _ (by decide))
    refine ⟨?_, ?_, ?_, State.request_frame (by decide) hasked _⟩ <;> simp [State.askAlign]

end

/-! ### The MCC's status (R264) -/

section
variable {s : State} {e : Int}

theorem mccUnaligned_leaves (hm : s.net.mcc = 2) (h : s.cku.sel ≠ 4 ∨ 50 < e.natAbs) : ∃ t, exec (.mccUnaligned e) s = .next t ∧
    t.net.mcc = 0 ∧ t.net.edgeErr = e ∧ s.told t .mccUnaligned 0 0 0 ∧ s.frame t [.net, .ev, .sessions] := by
  have hu : (s.setNet (fun n => { n with edgeErr := e })).unalign =
      (s.setNet (fun n => { n with edgeErr := e, mcc := 0 })).raise .mccUnaligned 0 0 0 := if_neg (by simp [hm])
  refine ⟨_, (if_pos ⟨hm, h⟩).trans (congrArg Host.Outcome.next hu), by simp, by simp, s.setNet_raise _ _ _ _ _⟩

theorem mccRealigned_aligns (hm : s.net.mcc = 0) (hsel : s.cku.sel = 4) (he : e.natAbs ≤ 50) (hd : s.delta = 0) :
    ∃ t, exec (.mccRealigned e) s = .next t ∧ t.net.mcc = 2 ∧ s.toldD t .mccAligned 0 0 [0, 0] ∧ s.frame t [.net, .ev, .sessions] :=
  ⟨_, if_pos ⟨hm, hsel, he, hd⟩, by simp, s.setNet_raiseD _ _ _ _ _⟩

end

end Sys2Proof.Machine
end

section
/-! PROOFS. The renumbering of the MCC (R263): what it shifts, that no pending commit comes too soon, and that the MCC then has its media count;
O46. -/

namespace Sys2Proof.Machine

open Fmt

/-! ### What the renumbering touches -/

/-- The parts that take their stamps shifted by Δ. -/
def shiftedParts : List Part :=
  [.mcc, .audio, .mere, .spring, .tarn, .ports, .conv, .net, .cku, .sessions, .vcp, .ev, .scene, .fault, .twin, .legacy]

/-- What is committed is read from the words and the straps. -/
theorem State.cap_of_frame {s t : State} {l : List Part} (h : s.frame t l) (hl : ∀ p ∈ [Part.params, .power], p ∉ l) : t.cap = s.cap := by
  have hpar : t.params = s.params := h .params (hl _ (by decide))
  have hpow : t.power = s.power := h .power (hl _ (by decide))
  simp only [State.cap, State.fam, State.prof, State.shape, State.word, hpar, hpow]

theorem State.B_of_frame {s t : State} {l : List Part} (h : s.frame t l) (hl : ∀ p ∈ [Part.params, .power], p ∉ l) : t.B = s.B :=
  congrArg Cap.B (State.cap_of_frame h hl)

theorem State.B_pos (s : State) : 0 < s.B := by
  unfold State.B Cap.B blockB
  split_ifs <;> decide

section
variable (s : State) (d : Int)

theorem State.shiftAll_frame : s.frame (s.shiftAll d) shiftedParts := by
  simp [State.frame_iff, Part.same, shiftedParts, State.shiftAll, SceG.shift]

theorem State.shiftCues_frame : s.frame (s.shiftCues d) [.scene] := State.setScene_frame rfl

/-- A scheduled set whose commit takes the sample c; where that is too soon, the first start of a block late enough, which is told. -/
def State.shiftSet (tick : Nat) (u : State) (x : StageSet) : State :=
  match x.st, x.commit with
  | .scheduled, some c =>
    if sh d c < tick + 2 * u.B then
      (u.updSet x.id (fun y => { y with commit := some (cdiv (tick + 2 * u.B) u.B * u.B) })).raiseD .commitScheduled 0 x.id
        (x.id :: two (cdiv (tick + 2 * u.B) u.B * u.B))
    else u.updSet x.id (fun y => { y with commit := some (sh d c) })
  | _, _ => u

theorem State.shiftSets_eq (tick : Nat) : s.shiftSets d tick = s.scene.sets.foldl (State.shiftSet d tick) s := rfl

end

theorem le_cdiv_mul {a b : Nat} (hb : 0 < b) : a ≤ cdiv a b * b := by
  have h := Nat.div_add_mod (a + b - 1) b
  have hlt := Nat.mod_lt (a + b - 1) hb
  rw [cdiv, Nat.mul_comm]
  omega

/-! ### Pending commits (R263) -/

/-- A pending commit that is not sample b or later belongs to a set of `todo` that is still to be moved. -/
def StageSet.Late (b : Nat) (todo : List StageSet) (y : StageSet) : Prop :=
  y.st = .scheduled → ∀ c, y.commit = some c → b ≤ c ∨ ∃ x ∈ todo, x.id = y.id ∧ x.st = .scheduled ∧ x.commit ≠ none

section
variable {d : Int} {tick : Nat} (u : State)

theorem State.shiftSet_frame (x : StageSet) : u.frame (u.shiftSet d tick x) [.scene, .ev, .sessions] := by
  unfold State.shiftSet
  split
  · exact State.frame_ite (State.frame_next (State.frame_mono (u.updSet_frame _ _) (by decide)) (State.frame_mono (State.raiseD_frame _ _ _ _ _)
      (by decide))) (State.frame_mono (u.updSet_frame _ _) (by decide))
  · exact u.frame_refl _

/-- A set that is due takes a commit that is late enough. -/
theorem State.shiftSet_due {x : StageSet} (hst : x.st = .scheduled) (hc : x.commit ≠ none) : ∃ c, tick + 2 * u.B ≤ c ∧
    (u.shiftSet d tick x).scene.sets = u.scene.sets.map (fun y => if y.id = x.id then { y with commit := some c } else y) := by
  obtain ⟨c, hc⟩ := Option.ne_none_iff_exists'.1 hc
  simp only [State.shiftSet, hst, hc]
  split
  · exact ⟨_, le_cdiv_mul u.B_pos, by simp [State.updSet]⟩
  · exact ⟨sh d c, by omega, by simp [State.updSet]⟩

/-- Any other is left alone. -/
theorem State.shiftSet_other {x : StageSet} (h : ¬ (x.st = .scheduled ∧ x.commit ≠ none)) : u.shiftSet d tick x = u := by
  unfold State.shiftSet
  split
  · next hst hc => exact absurd ⟨hst, by simp [hc]⟩ h
  · rfl

/-- One set moved is one set less to be moved. -/
theorem State.shiftSet_late {x : StageSet} {l : List StageSet} (h : ∀ y ∈ u.scene.sets, y.Late (tick + 2 * u.B) (x :: l)) :
    ∀ y ∈ (u.shiftSet d tick x).scene.sets, y.Late (tick + 2 * u.B) l := by
  by_cases hx : x.st = .scheduled ∧ x.commit ≠ none
  · obtain ⟨c, hlate, hsets⟩ := u.shiftSet_due (d := d) (tick := tick) hx.1 hx.2
    rw [hsets]
    simp only [List.mem_map, forall_exists_index, and_imp]
    rintro - y hy rfl
    split
    · rintro - c' hc
      cases hc
      exact .inl hlate
    · next hid =>
      intro hst c' hc
      refine (h y hy hst c' hc).imp_right ?_
      rintro ⟨z, hz, hzid, hzdue⟩
      rcases List.mem_cons.1 hz with rfl | hz
      · exact absurd hzid.symm hid
      · exact ⟨z, hz, hzid, hzdue⟩
  · rw [u.shiftSet_other hx]
    intro y hy hst c hc
    refine (h y hy hst c hc).imp_right ?_
    rintro ⟨z, hz, hzid, hzdue⟩
    rcases List.mem_cons.1 hz with rfl | hz
    · exact absurd hzdue hx
    · exact ⟨z, hz, hzid, hzdue⟩

theorem State.foldl_shiftSet_late {b : Nat} (l : List StageSet) (hb : tick + 2 * u.B = b) (h : ∀ y ∈ u.scene.sets, y.Late b l) :
    ∀ y ∈ (l.foldl (State.shiftSet d tick) u).scene.sets, y.Late b [] := by
  induction l generalizing u with
  | nil => exact h
  | cons x l ih =>
    subst hb
    refine ih _ ?_ (u.shiftSet_late h)
    rw [State.B_of_frame (u.shiftSet_frame x) (by decide)]

theorem State.shiftSets_frame : u.frame (u.shiftSets d tick) [.scene, .ev, .sessions] :=
  State.frame_foldl (fun v x => v.shiftSet_frame x) u.scene.sets u

/-- After all of them no pending commit comes too soon. -/
theorem State.shiftSets_late {y : StageSet} (hy : y ∈ (u.shiftSets d tick).scene.sets) (hst : y.st = .scheduled) {c : Nat}
    (hc : y.commit = some c) : tick + 2 * u.B ≤ c := by
  have hself : ∀ y ∈ u.scene.sets, y.Late (tick + 2 * u.B) u.scene.sets := fun y hy hst c hc => .inr ⟨y, hy, rfl, hst, by simp [hc]⟩
  rcases u.foldl_shiftSet_late u.scene.sets rfl hself y hy hst c hc with h | ⟨x, hx, -⟩
  · exact h
  · cases hx

end

/-! ### The media count (R263) -/

/-- Where the slew of amclk has ended at a multiple of the block, the PHC stands at an instant of M. -/
theorem State.nearCount_of_slewLeft {s : State} (h : s.slewLeft s.B = 0) : s.nearCount = s.mediaCount := by
  have hB := s.B_pos
  have hS : 0 < phcSecond := by decide
  simp only [State.slewLeft] at h
  simp only [State.nearCount, State.mediaCount]
  generalize phcSecond = S at *
  generalize s.phcScaled = p at *
  generalize s.B = B at *
  have hu : (0 : Int) < (B * S : Nat) := by exact_mod_cast Nat.mul_pos hB hS
  have hlt := Int.emod_lt_of_pos ((p : Int) - (s.mcc * S : Nat)) hu
  have hmod : ((p : Int) - (s.mcc * S : Nat)) % (B * S : Nat) = 0 := by
    split at h <;> omega
  have hdvd : (S : Int) ∣ (p : Int) - (s.mcc * S : Nat) := (Int.natCast_dvd_natCast.2 ⟨B, by ring⟩).trans (Int.dvd_of_emod_eq_zero hmod)
  have hp : S ∣ p := by
    have := (Int.dvd_iff_dvd_of_dvd_sub hdvd).2 (Int.natCast_dvd_natCast.2 ⟨s.mcc, by ring⟩)
    exact_mod_cast this
  obtain ⟨k, rfl⟩ := hp
  rw [Nat.mul_div_cancel_left k hS, show 2 * (S * k) + S = S + 2 * S * k by ring, Nat.add_mul_div_left _ _ (by omega),
    Nat.div_eq_of_lt (by omega), Nat.zero_add]

/-! ### The renumbering -/

/-- The state renumbered, but for its event. -/
def State.renumbered (s : State) : State :=
  ((((s.shiftAll s.delta).shiftSets s.delta (s.shiftAll s.delta).mcc).shiftCues s.delta).setNet (fun g => { g with
    mcc := 2, align := false, delta := s.delta })).setCku (fun c => { c with slewing := false, slewMod := 1 })

section
variable (s : State)

theorem State.renumbered_frame : s.frame s.renumbered shiftedParts := by
  have hsets := ((s.shiftAll s.delta).shiftSets_frame (d := s.delta) (tick := (s.shiftAll s.delta).mcc))
  have hcues := ((s.shiftAll s.delta).shiftSets s.delta (s.shiftAll s.delta).mcc).shiftCues_frame s.delta
  refine State.frame_next (State.frame_next (State.frame_next (State.frame_next (s.shiftAll_frame s.delta) (State.frame_mono hsets (by decide)))
    (State.frame_mono hcues (by decide))) (State.setNet_frame _ _ (by decide))) (State.setCku_frame _ _ (by decide))

theorem State.renumbered_mcc : s.renumbered.mcc = (s.shiftAll s.delta).mcc := by
  have hsets : ((s.shiftAll s.delta).shiftSets s.delta (s.shiftAll s.delta).mcc).mcc = _ := (s.shiftAll s.delta).shiftSets_frame .mcc (by decide)
  exact hsets

theorem State.renumbered_sets :
    s.renumbered.scene.sets = ((s.shiftAll s.delta).shiftSets s.delta (s.shiftAll s.delta).mcc).scene.sets := rfl

theorem State.renumbered_net : s.renumbered.net.mcc = 2 ∧ s.renumbered.net.align = false ∧ s.renumbered.net.delta = s.delta := ⟨rfl, rfl, rfl⟩

/-- Δ added to the MCC gives the nearest media count. -/
theorem State.shiftAll_mcc : (s.shiftAll s.delta).mcc = s.nearCount := by
  show ((s.mcc : Int) + s.delta).toNat = s.nearCount
  rw [State.delta]
  omega

end

theorem mccRenumber_renumbers {s : State} (hunit : s.slewUnit ≠ 1) (hsel : s.cku.sel = 4) (hlock : s.cku.st = .locked)
    (htick : s.mcc % s.B = 2) (hleft : s.slewLeft s.B = 0) (hpos : 0 ≤ (s.mcc : Int) + s.delta) :
    ∃ t, exec .mccRenumber s = .next t ∧ t.mcc = s.mediaCount ∧ t.net.mcc = 2 ∧ t.net.align = false ∧ t.net.delta = s.delta ∧
      t.marks .mccAligned ∧ (∀ x ∈ t.scene.sets, x.st = .scheduled → ∀ c, x.commit = some c → t.mcc + 2 * s.B ≤ c) ∧
      s.frame t shiftedParts := by
  have hexec : exec .mccRenumber s = .next (s.renumbered.raiseD .mccAligned 0 0 [(wrapU 64 s.delta) / 2 ^ 32, (wrapU 64 s.delta) % 2 ^ 32]) :=
    if_pos ⟨hunit, hsel, hlock, htick, hleft, hpos⟩
  refine ⟨_, hexec, ?_⟩
  simp only [State.raiseD_fields, State.renumbered_mcc, State.renumbered_sets, State.shiftAll_mcc, State.nearCount_of_slewLeft hleft, true_and]
  obtain ⟨hm, ha, hd⟩ := s.renumbered_net
  refine ⟨hm, ha, hd, State.raiseD_marks _ _ _ _ _, fun x hx hst c hc => ?_,
    State.frame_next s.renumbered_frame (State.frame_mono (State.raiseD_frame _ _ _ _ _) (by decide))⟩
  have h := State.shiftSets_late _ hx hst hc
  rwa [State.B_of_frame (s.shiftAll_frame s.delta) (by decide)] at h

/-- Settles O46: each command of the ports and the clock by what it leaves of the network, and the renumbering by what it shifts. -/
theorem linksAndTimeOfDay : Obligations.LinksAndTimeOfDay := by
  unfold Obligations.LinksAndTimeOfDay
  intro s r q
  refine ⟨fun n => netLinkDown_falls, fun n => netLinkUp_rises, fun n f v hup => ?_, fun free now l f => nextFrame_first,
    fun off l hnet hon hrole hst => ⟨ptpOffsetMeasurement_steps hnet hon hrole hst, ptpOffsetMeasurement_locks hnet hon hrole hst⟩,
    announceTimeout_moves, announceTimeout_unlocks, fun i => phcTimerPulse_pulses,
    fun i up h8 h16 hnet hon hedge _ => phcCapture_captures h8 h16 hnet hon hedge,
    fun sec ns hq ha hsec hns => ⟨phcSet_sets hq ha hsec hns, phcSet_refused hq⟩, mccAlign_asks, mccRenumber_renumbers,
    fun e => mccUnaligned_leaves, fun e => mccRealigned_aligns⟩
  intro k slow drops
  refine ⟨netFrameReceive_badFcs v hup, fun hk => ?_, netFrameReceive_own v hup, netFrameReceive_ptpEvent v hup,
    fun hk => ⟨netFrameReceive_announce v hup hk, netFrameReceive_general v hup hk⟩, fun hk hlim => ?_, netFrameReceive_slow v hup⟩
  · obtain ⟨t, hexec, hdrop, hqueue, hcrc, hframe⟩ := netFrameReceive_other v hup hk
    exact ⟨t, hexec, ⟨hdrop, hqueue⟩, hcrc, hframe⟩
  · obtain ⟨t, hexec, hdrop, hqueue, -, hframe⟩ := netFrameReceive_limited v hup hk hlim
    exact ⟨t, hexec, ⟨hdrop, hqueue⟩, hframe⟩

end Sys2Proof.Machine
end

section
/-! PROOFS. Receive streams (R267–R271): the first copy of a packet, by when it comes, what it writes into the alignment buffers, a leg whose copy
does not come, and a stream released. -/

namespace Sys2Proof.Machine

open Fmt

/-! ### One receive stream read back -/

theorem State.rxStream_updRx (s : State) (i j : Nat) (f : RxStream → RxStream) :
    (s.updRx i f).rxStream j = if j = i then f (s.rxStream i) else s.rxStream j := Cells.get_upd _ _ _ _ _

@[simp] theorem State.rxStream_updRx_same (s : State) (i : Nat) (f : RxStream → RxStream) : (s.updRx i f).rxStream i = f (s.rxStream i) := by
  rw [State.rxStream_updRx, if_pos rfl]

theorem State.updRx_frame (s : State) (i : Nat) (f : RxStream → RxStream) {l : List Part} (h : .net ∈ l) : s.frame (s.updRx i f) l :=
  s.setNet_frame _ h

/-- A change elsewhere leaves every receive stream. -/
theorem State.rxStream_of_frame {s t : State} {l : List Part} (h : s.frame t l) (hl : .net ∉ l) (i : Nat) : t.rxStream i = s.rxStream i := by
  have hn : t.net = s.net := h .net hl
  rw [State.rxStream, hn, State.rxStream]

/-- An occurrence leaves every receive stream. -/
@[simp] theorem State.rxStream_raise (s : State) (ev : Ev) (part obj val i : Nat) : (s.raise ev part obj val).rxStream i = s.rxStream i :=
  State.rxStream_of_frame (s.raise_frame _ _ _ _) (by decide) i

section
variable {s t : State} {l : List Part} (h : s.frame t l)
include h

theorem State.streamP_of_frame (hl : ∀ p ∈ [Part.params, .power, .mere, .tarn], p ∉ l) (cls i : Nat) : t.streamP cls i = s.streamP cls i := by
  rw [State.streamP, State.at_of_frame h hl, State.at_of_frame h hl, State.streamP]

theorem State.path_of_frame (hl : ∀ p ∈ [Part.params, .power], p ∉ l) (rate : Nat) : t.path rate = s.path rate := by
  rw [State.path, State.cap_of_frame h hl, State.path]

end

/-! ### The samples of a packet (R267) -/

/-- One sample of each channel of a stream, at a stamp. -/
def State.putRow (s : State) (i n : Nat) (v : Nat → Int) (chans : Nat) : State :=
  (List.range chans).foldl (fun s ch => s.putRx (streamRef i ch) n (v ch)) s

/-- Rows one stamp after the other. -/
def State.putRows (s : State) (i x : Nat) (v : Nat → Nat → Int) (chans rows : Nat) : State :=
  (List.range rows).foldl (fun s j => s.putRow i (x + j) (v j) chans) s

section
variable (s : State) (i : Nat)

theorem State.putRow_succ (n : Nat) (v : Nat → Int) (c : Nat) :
    s.putRow i n v (c + 1) = (s.putRow i n v c).putRx (streamRef i c) n (v c) := by
  simp [State.putRow, List.range_succ]

theorem State.putRows_succ (x : Nat) (v : Nat → Nat → Int) (chans r : Nat) :
    s.putRows i x v chans (r + 1) = (s.putRows i x v chans r).putRow i (x + r) (v r) chans := by
  simp [State.putRows, List.range_succ]

/-- Each channel of the row has its sample. -/
theorem State.rxAt_putRow {n chans ch : Nat} (v : Nat → Int) (hn : n < 2 ^ 64) (hch : ch < chans) :
    (s.putRow i n v chans).rxAt (streamRef i ch) n = v ch := by
  induction chans with
  | zero => omega
  | succ c ih =>
    rw [State.putRow_succ, State.rxAt_putRx]
    by_cases he : ch = c
    · rw [he, if_pos rfl]
    · have hkey : smpKey (streamRef i ch) n ≠ smpKey (streamRef i c) n := fun h => by
        obtain ⟨hr, -⟩ := (smpKey_inj hn hn).1 h
        simp only [streamRef] at hr
        omega
      rw [if_neg hkey, ih (by omega)]

/-- Samples at other stamps stay. -/
theorem State.rxAt_putRow_other {n m : Nat} (v : Nat → Int) (chans ref : Nat) (hn : n < 2 ^ 64) (hm : m < 2 ^ 64) (h : m ≠ n) :
    (s.putRow i n v chans).rxAt ref m = s.rxAt ref m := by
  induction chans with
  | zero => rfl
  | succ c ih => rw [State.putRow_succ, State.rxAt_putRx, if_neg (fun e => h ((smpKey_inj hm hn).1 e).2), ih]

/-- Each row stands at its stamp. -/
theorem State.rxAt_putRows {x chans rows j ch : Nat} (v : Nat → Nat → Int) (hx : x + rows ≤ 2 ^ 64) (hj : j < rows) (hch : ch < chans) :
    (s.putRows i x v chans rows).rxAt (streamRef i ch) (x + j) = v j ch := by
  induction rows with
  | zero => omega
  | succ r ih =>
    rw [State.putRows_succ]
    by_cases he : j = r
    · rw [he]
      exact State.rxAt_putRow _ i _ (by omega) hch
    · rw [State.rxAt_putRow_other _ i _ _ _ (by omega) (by omega) (by omega)]
      exact ih (by omega) (by omega)

theorem State.writePacket_direct {s : State} (h : s.path (s.at 0x35 i 2) = .direct) (x : Nat) (data : List Nat) :
    s.writePacket i x data = s.putRows i x (payloadSample data (s.at 0x35 i 1 + 2) (s.at 0x35 i 3)) (s.at 0x35 i 3) (s.streamP 0x35 i) := by
  simp only [State.writePacket, h]
  rfl

/-- A sample taken by a converter changes its channel. -/
theorem State.srcFeed_frame_conv (user : Nat) (v : Int) : s.frame (s.srcFeed user v) [.conv] := by
  unfold State.srcFeed
  split
  · exact s.frame_refl _
  · exact s.setConv_frame _ (by decide)

theorem State.writePacket_frame (x : Nat) (data : List Nat) : s.frame (s.writePacket i x data) [.audio, .conv] := by
  have into : ∀ (f : State → Nat → Nat → State), (∀ (u : State) j ch, u.frame (f u j ch) [.audio, .conv]) → ∀ rows chans : Nat,
      s.frame ((List.range rows).foldl (fun s j => (List.range chans).foldl (fun s ch => f s j ch) s) s) [.audio, .conv] :=
    fun f hf rows chans => State.frame_foldl (fun u j => State.frame_foldl (fun w ch => hf w j ch) _ u) _ s
  unfold State.writePacket
  split
  · exact into _ (fun u _ _ => u.putRx_frame _ _ _ (by decide)) _ _
  · exact into _ (fun u _ _ => State.frame_mono (u.srcFeed_frame_conv _ _) (by decide)) _ _
  · exact into _ (fun u _ _ => u.putRx_frame _ _ _ (by decide)) _ _

/-- A measured ratio changes the converters only (R237). -/
theorem State.netTrack_frame (dir rate chans : Nat) (mark : Option (Nat × Nat)) : s.frame (s.netTrack i dir rate chans mark) [.conv] := by
  have track : ∀ (u : State) (user d ratio : Nat), u.frame (u.srcTrack user d ratio) [.conv] := fun u user d ratio => by
    unfold State.srcTrack
    split
    · exact u.frame_refl _
    · exact State.frame_ite (u.frame_refl _) (u.setConv_frame _ (by decide))
  unfold State.netTrack
  split
  · exact s.frame_refl _
  · exact State.frame_ite (s.frame_refl _) (State.frame_foldl (fun u ch => track u _ _ _) _ s)

/-! ### A packet in time (R267–R271) -/

/-- A leg that comes back leaves the packets of the stream. -/
theorem State.legBack_frame (leg : Nat) : s.frame (s.legBack i leg) [.net, .ev, .sessions] := by
  unfold State.legBack
  extract_lets x s1 s2
  have h1 : s.frame s1 [.net, .ev, .sessions] := s.updRx_frame i _ (by decide)
  have h2 : s.frame s2 [.net, .ev, .sessions] := s.updRx_frame i _ (by decide)
  exact State.frame_ite (State.frame_ite (State.frame_next h1 (State.frame_mono (State.raise_frame _ _ _ _ _) (by decide))) h1)
    (State.frame_ite (State.frame_next h2 (State.frame_mono (State.raise_frame _ _ _ _ _) (by decide))) h2)

theorem State.legBack_got (leg : Nat) : ((s.legBack i leg).rxStream i).got = (s.rxStream i).got := by
  unfold State.legBack
  dsimp only
  split_ifs <;> simp

/-- A stream that resumes keeps its packets. -/
theorem State.rxResume_keeps (stamp : Nat) : ((s.rxResume i stamp).rxStream i).got = (s.rxStream i).got ∧
    ((s.rxResume i stamp).rxStream i).good = (s.rxStream i).good ∧ s.frame (s.rxResume i stamp) [.net, .conv, .ev, .sessions] := by
  unfold State.rxResume
  extract_lets x chans slots
  split
  · have hnet := s.updRx_frame i (fun x => { x with loss := false, resuming := true, missing := 0, slots := slots })
      (l := [.net, .conv, .ev, .sessions]) (by decide)
    have hconv : ∀ u : State, u.frame (u.srcsOfStream i 0 SrcCh.acquire) [.conv] := fun u => u.setConv_frame _ (by decide)
    rw [State.rxStream_raise, State.rxStream_of_frame (hconv _) (by decide), State.rxStream_updRx_same]
    exact ⟨rfl, rfl, State.frame_next (State.frame_next hnet (State.frame_mono (hconv _) (by decide)))
      (State.frame_mono (State.raise_frame _ _ _ _ _) (by decide))⟩
  · exact ⟨rfl, rfl, s.frame_refl _⟩

end

/-- A packet taken heads the packets of its stream, whose run is counted anew. -/
def RxStream.takes (r : RxStream) (x P : Nat) (m : Nat × Nat) : RxStream :=
  { r with got := (x :: r.got).take 4096, good := runAt ((x :: r.got).take 4096) P x, mark := some m }

section
variable (s : State) (i x es : Nat) (data : List Nat)

/-- A packet written, the ratio of its converters measured. -/
def State.packetWritten : State := (s.writePacket i x data).netTrack i 0 (s.at 0x35 i 2) (s.at 0x35 i 3) (s.rxStream i).mark

theorem State.takePacket_eq : s.takePacket i x es data =
    ((s.packetWritten i x data).updRx i (·.takes x (s.streamP 0x35 i) (s.mcc, s.net.phc.t))).rxResume i es := rfl

theorem State.packetWritten_frame : s.frame (s.packetWritten i x data) [.audio, .conv] ∧
    (s.packetWritten i x data).audio = (s.writePacket i x data).audio := by
  have htrack := (s.writePacket i x data).netTrack_frame i 0 (s.at 0x35 i 2) (s.at 0x35 i 3) (s.rxStream i).mark
  exact ⟨State.frame_next (s.writePacket_frame i x data) (State.frame_mono htrack (by decide)), htrack .audio (by decide)⟩

/-- What taking a packet leaves: its stream has it, and its samples are all that the buffers take. -/
theorem State.takePacket_takes :
    ((s.takePacket i x es data).rxStream i).got = (x :: (s.rxStream i).got).take 4096 ∧
    ((s.takePacket i x es data).rxStream i).good = runAt ((x :: (s.rxStream i).got).take 4096) (s.streamP 0x35 i) x ∧
    (s.takePacket i x es data).audio = (s.writePacket i x data).audio ∧
    s.frame (s.takePacket i x es data) [.audio, .net, .conv, .ev, .sessions] := by
  obtain ⟨hwrite, haudio⟩ := s.packetWritten_frame i x data
  have hstream := State.rxStream_of_frame hwrite (by decide) i
  rw [State.takePacket_eq]
  generalize s.packetWritten i x data = u at *
  have htake := u.updRx_frame i (·.takes x (s.streamP 0x35 i) (s.mcc, s.net.phc.t)) (l := [.net]) (by decide)
  obtain ⟨hgot, hgood, hresume⟩ := (u.updRx i (·.takes x (s.streamP 0x35 i) (s.mcc, s.net.phc.t))).rxResume_keeps i es
  rw [hgot, hgood, State.rxStream_updRx_same, hstream, hresume .audio (by decide)]
  exact ⟨rfl, rfl, haudio, State.frame_next (State.frame_mono (State.frame_trans hwrite htake) (by decide))
    (State.frame_mono hresume (by decide))⟩

end

/-! ### The first copy of a packet (R267, R268) -/

section
variable {s : State} {i leg n k ns : Nat} {data : List Nat}

/-- Whether a packet misses the tick that takes its first sample, or the lead time before it. -/
def State.tooLate (s : State) (i k ns : Nat) : Prop :=
  let tick := tickOf s.B (s.engineStamp (s.at 0x35 i 2) k)
  tick ≤ s.mcc ∨ (tick - s.mcc) * 1000000000 < (s.leadNs + ns) * s.fs

/-- Whether it is further ahead than its buffer reaches. -/
def State.tooEarly (s : State) (i k : Nat) : Prop :=
  s.streamNow (s.at 0x35 i 2) + s.linkOffset i + s.streamP 0x35 i + 2 * s.B < k

/-- A copy that comes now. -/
def State.copyNow (s : State) (leg n ns : Nat) (data : List Nat) : Copy :=
  { seq := n, leg := leg, mcc := s.mcc, ns := ns, data := data, both := false }

/-- Whether a copy that came before is still compared with its other one. -/
def State.keepsCopy (s : State) (i ns : Nat) (c : Copy) : Bool := decide (s.since c ns ≤ (s.at 0x35 i 7 * 1000 + 100000000 : Nat))

/-- The stream with the copy noted, and its leg back. -/
def State.copyNoted (s : State) (i leg n ns : Nat) (data : List Nat) : State :=
  (s.updRx i (fun r => { r with copies := s.copyNow leg n ns data :: r.copies.filter (s.keepsCopy i ns) })).legBack i leg

theorem State.copyNoted_frame : s.frame (s.copyNoted i leg n ns data) [.net, .ev, .sessions] :=
  State.frame_next (s.updRx_frame i _ (by decide)) (State.legBack_frame _ i leg)

theorem State.copyNoted_got : ((s.copyNoted i leg n ns data).rxStream i).got = (s.rxStream i).got := by
  rw [State.copyNoted, State.legBack_got, State.rxStream_updRx_same]

theorem State.firstCopy_late (h : s.tooLate i k ns) :
    s.firstCopy i leg n k ns data = s.updRx i (fun r => { r with late := satInc r.late 1 }) := if_pos h

theorem State.firstCopy_early (h : ¬ s.tooLate i k ns) (he : s.tooEarly i k) :
    s.firstCopy i leg n k ns data = s.updRx i (fun r => { r with early := satInc r.early 1 }) := (if_neg h).trans (if_pos he)

/-- In time, on a chip that takes its own decisions. -/
theorem State.firstCopy_inTime (h : ¬ s.tooLate i k ns) (he : ¬ s.tooEarly i k) (ho : s.obeys = false) :
    s.firstCopy i leg n k ns data = ((s.copyNoted i leg n ns data).takePacket i k (s.engineStamp (s.at 0x35 i 2) k) data).note
      (.packet i leg n (k % 2 ^ 32) data) :=
  have hobeys : (s.copyNoted i leg n ns data).obeys = false := (State.obeys_of_frame State.copyNoted_frame (by decide)).trans ho
  (if_neg h).trans ((if_neg he).trans (if_neg (show ¬ (s.copyNoted i leg n ns data).obeys = true by simp [hobeys])))

end

section
variable {s : State} {i leg n ts ns : Nat} {data : List Nat} (hi : i < 256) (hleg : leg < 2) (hrun : (s.rxStream i).running = true)
  (hup : s.linkUp (s.legPort 0x35 i leg) = true)
  (hlen : data.length = s.at 0x35 i 3 * s.streamP 0x35 i * (s.at 0x35 i 1 + 2)) (hnew : ∀ c ∈ (s.rxStream i).copies, c.seq ≠ n)

/-- The stream count of the first sample of a packet: its timestamp, lifted, and the link offset (R267). -/
def State.packetCount (s : State) (i ts : Nat) : Nat := lift32 (s.streamNow (s.at 0x35 i 2)) ts + s.linkOffset i

include hi hleg hrun hup hlen hnew

theorem execStreamPacketReceive_first :
    exec (.streamPacketReceive i leg n ts ns data) s = .next (s.firstCopy i leg n (s.packetCount i ts) ns data) := by
  have hnone : (s.rxStream i).copies.find? (fun c => c.seq = n) = none := List.find?_eq_none.2 (fun c hc => by simpa using hnew c hc)
  refine (if_pos ⟨hi, hleg, hrun, hup, hlen⟩).trans ?_
  simp only [hnone]
  rfl

theorem streamPacketReceive_late (h : s.tooLate i (s.packetCount i ts) ns) : ∃ t, exec (.streamPacketReceive i leg n ts ns data) s = .next t ∧
    t.rxStream i = { s.rxStream i with late := satInc (s.rxStream i).late 1 } ∧ s.frame t [.net] := by
  refine ⟨_, execStreamPacketReceive_first hi hleg hrun hup hlen hnew, ?_⟩
  rw [State.firstCopy_late h]
  exact ⟨State.rxStream_updRx_same _ _ _, s.updRx_frame _ _ (by decide)⟩

theorem streamPacketReceive_early (h : ¬ s.tooLate i (s.packetCount i ts) ns) (he : s.tooEarly i (s.packetCount i ts)) :
    ∃ t, exec (.streamPacketReceive i leg n ts ns data) s = .next t ∧
      t.rxStream i = { s.rxStream i with early := satInc (s.rxStream i).early 1 } ∧ s.frame t [.net] := by
  refine ⟨_, execStreamPacketReceive_first hi hleg hrun hup hlen hnew, ?_⟩
  rw [State.firstCopy_early h he]
  exact ⟨State.rxStream_updRx_same _ _ _, s.updRx_frame _ _ (by decide)⟩

/-- A packet in time heads its stream's packets, and on a direct path its samples stand from its stamp on. -/
theorem streamPacketReceive_enters {k : Nat} (hk : s.packetCount i ts = k) (h : ¬ s.tooLate i k ns) (he : ¬ s.tooEarly i k)
    (ho : s.obeys = false) (hend : k + s.streamP 0x35 i ≤ 2 ^ 64) :
    ∃ t, exec (.streamPacketReceive i leg n ts ns data) s = .next t ∧
      (t.rxStream i).got = (k :: (s.rxStream i).got).take 4096 ∧
      (t.rxStream i).good = runAt ((k :: (s.rxStream i).got).take 4096) (s.streamP 0x35 i) k ∧
      (s.path (s.at 0x35 i 2) = .direct → ∀ j ch, j < s.streamP 0x35 i → ch < s.at 0x35 i 3 →
        t.rxAt (streamRef i ch) (k + j) = payloadSample data (s.at 0x35 i 1 + 2) (s.at 0x35 i 3) j ch) ∧
      s.frame t [.audio, .net, .conv, .ev, .sessions, .twin] := by
  refine ⟨_, execStreamPacketReceive_first hi hleg hrun hup hlen hnew, ?_⟩
  rw [hk, State.firstCopy_inTime h he ho]
  have hnoted : s.frame (s.copyNoted i leg n ns data) _ := State.copyNoted_frame
  have hold : ((s.copyNoted i leg n ns data).rxStream i).got = (s.rxStream i).got := State.copyNoted_got
  generalize s.copyNoted i leg n ns data = u at *
  obtain ⟨hgot, hgood, haudio, htake⟩ := u.takePacket_takes i k (s.engineStamp (s.at 0x35 i 2) k) data
  have hP : u.streamP 0x35 i = s.streamP 0x35 i := State.streamP_of_frame hnoted (by decide) _ _
  have hat : ∀ f, u.at 0x35 i f = s.at 0x35 i f := State.at_of_frame hnoted (by decide) 0x35 i
  generalize u.takePacket i k (s.engineStamp (s.at 0x35 i 2) k) data = v at *
  have hnote := v.note_frame (.packet i leg n (k % 2 ^ 32) data)
  have haudio' : (v.note (.packet i leg n (k % 2 ^ 32) data)).audio = v.audio := hnote .audio (by decide)
  rw [State.rxStream_of_frame hnote (by decide), hgot, hgood, hold, hP]
  refine ⟨rfl, rfl, fun hd j ch hj hch => ?_, State.frame_mono (State.frame_trans (State.frame_trans hnoted htake) hnote) (by decide)⟩
  have hpath : u.path (u.at 0x35 i 2) = .direct := by rw [State.path_of_frame hnoted (by decide), hat, hd]
  rw [State.rxAt, haudio', haudio, State.writePacket_direct i hpath, hat, hat, hP]
  exact State.rxAt_putRows u i _ hend hj hch

end

/-! ### A leg whose copy does not come (R271) -/

section
variable {s : State} {i n : Nat} {c : Copy}

/-- A miss of leg A. -/
def RxStream.missA (x : RxStream) : RxStream :=
  { x with aMiss := satInc x.aMiss 1, runA := x.runA + 1, legA := x.legA && decide (x.runA + 1 < 16) }

/-- The copies of a packet settled: the other one is not waited for. -/
def RxStream.settles (x : RxStream) (n : Nat) : RxStream :=
  { x with copies := x.copies.map (fun k => if k.seq = n then { k with both := true } else k) }

theorem streamLegMiss_counts (hc : (s.rxStream i).copies.find? (fun c => c.seq = n && !c.both && c.leg != 0) = some c)
    (hrun : (s.rxStream i).running = true) (hport : s.legPort 0x35 i 0 ≠ 0xFF) (hend : (s.at 0x35 i 7 * 1000 : Nat) ≤ s.since c 0) :
    ∃ t, exec (.streamLegMiss i 0 n) s = .next t ∧ (t.rxStream i).aMiss = satInc (s.rxStream i).aMiss 1 ∧
      (t.rxStream i).legA = ((s.rxStream i).legA && decide ((s.rxStream i).runA + 1 < 16)) ∧
      ((s.rxStream i).legA = true ∧ 16 ≤ (s.rxStream i).runA + 1 → s.told t .streamLeg 0 i 1) ∧ s.frame t [.net, .ev, .sessions] := by
  have hexec : exec (.streamLegMiss i 0 n) s = .next
      (if (s.rxStream i).legA ∧ 16 ≤ (s.rxStream i).runA + 1 then ((s.updRx i (·.settles n)).updRx i RxStream.missA).raise .streamLeg 0 i 1
        else (s.updRx i (·.settles n)).updRx i RxStream.missA) := by
    show execStreamLegMiss i 0 n s = _
    simp only [execStreamLegMiss, hc, hrun, hport, Int.not_lt.2 hend]
    rfl
  have hmiss : s.frame ((s.updRx i (·.settles n)).updRx i RxStream.missA) [.net] :=
    State.frame_next (s.updRx_frame i _ (by decide)) (State.updRx_frame _ i _ (by decide))
  have hstream : ((s.updRx i (·.settles n)).updRx i RxStream.missA).rxStream i = ((s.rxStream i).settles n).missA := by
    rw [State.rxStream_updRx_same, State.rxStream_updRx_same]
  generalize (s.updRx i (·.settles n)).updRx i RxStream.missA = u at *
  refine ⟨_, hexec, ?_⟩
  split
  · rw [State.rxStream_raise, hstream]
    exact ⟨rfl, rfl, fun _ => State.raise_told_of_frame hmiss (by decide) _ _ _ _, State.frame_trans hmiss (State.raise_frame _ _ _ _ _)⟩
  · next hno =>
    rw [hstream]
    exact ⟨rfl, rfl, fun h => absurd h hno, State.frame_mono hmiss (by decide)⟩

end

/-! ### The converters of a stream freed (R235, R270) -/

/-- A stream's channels have no use any more. -/
theorem State.srcDrop_free (s : State) (i dir : Nat) :
    ∀ c ∈ (s.srcDrop i dir).conv.src, ¬ (c.2.user / 256 = 0x040000 + i ∧ c.2.dir = dir) := by
  simp only [State.srcDrop, State.srcsOfStream, State.setConv_fields, List.mem_map, forall_exists_index, and_imp]
  rintro - c - rfl
  split
  · rintro ⟨h, -⟩
    simp only [SrcCh.reset] at h
    omega
  · assumption

theorem State.srcDrop_frame (s : State) (i dir : Nat) {l : List Part} (h : .conv ∈ l) : s.frame (s.srcDrop i dir) l := s.setConv_frame _ h

/-- A receive stream released: its counts stay. -/
def RxStream.released (x : RxStream) : RxStream :=
  { RxStream.reset with lost := x.lost, late := x.late, early := x.early, diff := x.diff, aMiss := x.aMiss, bMiss := x.bMiss }

theorem streamRxRelease_frees {s : State} {i : Nat} (hstop : (s.rxStream i).stopping = true)
    (hsilent : (s.rxStream i).slots.all (fun c => c.2.silent s.mcc) = true) : ∃ t, exec (.streamRxRelease i) s = .next t ∧
    (t.rxStream i).running = false ∧ (t.rxStream i).stopping = false ∧ (t.rxStream i).lost = (s.rxStream i).lost ∧
    (∀ c ∈ t.conv.src, ¬ (c.2.user / 256 = 0x040000 + i ∧ c.2.dir = 0)) ∧ s.frame t [.net, .conv] := by
  have hexec : exec (.streamRxRelease i) s = .next ((s.updRx i RxStream.released).srcDrop i 0) := if_pos ⟨hstop, hsilent⟩
  have hdrop := (s.updRx i RxStream.released).srcDrop_frame i 0 (l := [.conv]) (by decide)
  refine ⟨_, hexec, ?_⟩
  rw [State.rxStream_of_frame hdrop (by decide), State.rxStream_updRx_same]
  exact ⟨rfl, rfl, rfl, State.srcDrop_free _ i 0, State.frame_next (s.updRx_frame i _ (by decide)) (State.frame_mono hdrop (by decide))⟩

end Sys2Proof.Machine
end

section
/-! PROOFS. Transmit streams (R272–R274, R277): what making a packet touches, its legs, the queues it joins, and a stream stopped; O47. -/

namespace Sys2Proof.Machine

open Fmt

/-! ### One transmit stream read back -/

theorem State.txStream_updTx (s : State) (i j : Nat) (f : TxStream → TxStream) :
    (s.updTx i f).txStream j = if j = i then f (s.txStream i) else s.txStream j := Cells.get_upd _ _ _ _ _

@[simp] theorem State.txStream_updTx_same (s : State) (i : Nat) (f : TxStream → TxStream) : (s.updTx i f).txStream i = f (s.txStream i) := by
  rw [State.txStream_updTx, if_pos rfl]

theorem State.updTx_frame (s : State) (i : Nat) (f : TxStream → TxStream) {l : List Part} (h : .net ∈ l) : s.frame (s.updTx i f) l :=
  s.setNet_frame _ h

/-- Transmit streams are read from their table. -/
theorem State.txStream_congr {s t : State} (h : t.net.tx = s.net.tx) (i : Nat) : t.txStream i = s.txStream i := by
  rw [State.txStream, h, State.txStream]

/-! ### What making a packet touches (R272, R276) -/

/-- What making a packet touches. -/
def packetParts : List Part := [.net, .conv, .free, .ev, .sessions]

/-- Samples of stream i pass: they leave the links, and of stream i all but the stages of its channels. -/
structure State.TxPasses (i : Nat) (s t : State) : Prop where
  frame : s.frame t packetParts
  link : t.net.link = s.net.link
  stream : ∃ c, t.txStream i = { s.txStream i with slots := c }

namespace State.TxPasses

variable {i : Nat} {s t u : State}

theorem refl (i : Nat) (s : State) : TxPasses i s s := ⟨s.frame_refl _, rfl, _, rfl⟩

theorem trans (h : TxPasses i s t) (k : TxPasses i t u) : TxPasses i s u := by
  obtain ⟨hf, hn, c, hc⟩ := h
  obtain ⟨kf, kn, d, kd⟩ := k
  exact ⟨State.frame_next hf kf, kn.trans hn, d, by rw [kd, hc]⟩

/-- A change of anything but the network. -/
theorem of_frame (h : TxPasses i s t) {l : List Part} (hf : t.frame u l) (hl : .net ∉ l) (hp : l ⊆ packetParts) : TxPasses i s u := by
  have hn : u.net = t.net := hf .net hl
  exact h.trans ⟨State.frame_mono hf hp, congrArg NetG.link hn, _, State.txStream_congr (congrArg NetG.tx hn) i⟩

/-- A stage of one of its channels. -/
theorem putSlot (h : TxPasses i s t) (f : TxStream → Cells SlotSt) : TxPasses i s (t.updTx i (fun x => { x with slots := f x })) :=
  h.trans ⟨t.updTx_frame i _ (by decide), rfl, _, State.txStream_updTx_same _ _ _⟩

end State.TxPasses

section
variable (s : State) (i : Nat)

theorem State.streamOut_passes (ref dir n width : Nat) : State.TxPasses i s (s.streamOut ref dir n width).2 := by
  unfold State.streamOut
  split
  · next k _ _ =>
    have hvalue : ∀ (u : State) (x : SrcCh), u.frame (u.srcValue x width).2 [.conv, .free, .ev, .sessions] := fun u x => by
      unfold State.srcValue
      split
      · exact u.takeFree_frame (by decide)
      · exact u.frame_refl _
    refine (State.TxPasses.refl i s).of_frame (l := [.conv, .free, .ev, .sessions]) ?_ (by decide) (by decide)
    unfold State.srcOut
    extract_lets x0 s0
    have h0 : s.frame s0 [.conv, .free, .ev, .sessions] := State.frame_ite
      (State.frame_next (s.setConv_frame _ (by decide)) (State.frame_mono (State.raise_frame _ _ _ _ _) (by decide))) (s.frame_refl _)
    exact State.frame_next (State.frame_next h0 (hvalue s0 _)) (State.setConv_frame _ _ (by decide))
  · exact .refl i s

theorem State.txSample_passes (ch n bytes : Nat) (direct : Bool) : State.TxPasses i s (s.txSample i ch n bytes direct).1 := by
  unfold State.txSample
  cases direct
  · exact (s.streamOut_passes i _ 1 n 32).putSlot _
  · exact (State.TxPasses.refl i s).putSlot _

/-- One sample of a payload. -/
def State.txStep (i c bytes : Nat) (direct : Bool) (j : Nat) (a : State × List Nat) (ch : Nat) : State × List Nat :=
  ((a.1.txSample i ch (c + j) bytes direct).1, a.2 ++ toBE bytes (a.1.txSample i ch (c + j) bytes direct).2)

theorem State.txStep_passes (i c bytes : Nat) (direct : Bool) (j : Nat) (a : State × List Nat) (ch : Nat) :
    State.TxPasses i a.1 (State.txStep i c bytes direct j a ch).1 := a.1.txSample_passes i ch (c + j) bytes direct

theorem State.txPayload_eq (c : Nat) : s.txPayload i c = (List.range (s.streamP 0x36 i)).foldl (fun a j => (List.range (s.at 0x36 i 3)).foldl
    (State.txStep i c (s.at 0x36 i 1 + 2) (decide (s.path (s.at 0x36 i 2) = .direct)) j) a) (s, []) := rfl

theorem State.txPayload_passes (c : Nat) : State.TxPasses i s (s.txPayload i c).1 := by
  rw [State.txPayload_eq]
  refine List.foldlRecOn (motive := fun b : State × List Nat => State.TxPasses i s b.1) _ _ (.refl i s) (fun a ha j _ => ?_)
  exact List.foldlRecOn (motive := fun b : State × List Nat => State.TxPasses i s b.1) _ _ ha
    (fun b hb ch _ => hb.trans (State.txStep_passes i c _ _ j b ch))

/-- A fold whose every step adds n to a measure. -/
theorem foldl_adds {α β : Type} (g : β → Nat) {f : β → α → β} {n : Nat} (h : ∀ b a, g (f b a) = g b + n) (l : List α) (b : β) :
    g (l.foldl f b) = g b + l.length * n := by
  induction l generalizing b with
  | nil => simp
  | cons a l ih => rw [List.foldl_cons, ih, h, List.length_cons, Nat.succ_mul]; omega

theorem State.txPayload_length (c : Nat) : (s.txPayload i c).2.length = s.streamP 0x36 i * s.at 0x36 i 3 * (s.at 0x36 i 1 + 2) := by
  have hrow : ∀ (a : State × List Nat) (j : Nat), ((List.range (s.at 0x36 i 3)).foldl
      (State.txStep i c (s.at 0x36 i 1 + 2) (decide (s.path (s.at 0x36 i 2) = .direct)) j) a).2.length =
        a.2.length + s.at 0x36 i 3 * (s.at 0x36 i 1 + 2) := fun a j => by
    rw [foldl_adds (fun b : State × List Nat => b.2.length) (n := s.at 0x36 i 1 + 2)
      (fun b ch => by simp [State.txStep, Fmt.length_toBE]), List.length_range]
  rw [State.txPayload_eq, foldl_adds (fun b : State × List Nat => b.2.length) hrow, List.length_range, Nat.mul_assoc]
  simp

/-! ### A packet sent (R272, R273, R277, R443) -/

/-- R443: packets that a handover holds back. -/
def State.packetHeld : Bool :=
  match s.twin.handover with
  | some h => decide (h ≤ s.engineStamp (s.at 0x36 i 2) ((s.txStream i).next + s.streamP 0x36 i - 1))
  | none => false

/-- R255, R277: whether the next packet leaves on a leg that the role sends. -/
def State.sendsLeg (k : Nat) (on : Bool) : Bool :=
  on && !s.packetHeld i && s.linkUp (s.legPort 0x36 i k) &&
    decide (Cells.get 0 s.net.linkAt (s.legPort 0x36 i k) ≤ s.engineStamp (s.at 0x36 i 2) (s.txStream i).next)

/-- The next packet of a stream. -/
def State.nextPacket : Rtp :=
  { ts := (s.txStream i).next % 2 ^ 32, seq := (s.txStream i).next / s.streamP 0x36 i % 65536, pt := s.at 0x36 i 5, ssrc := s.at 0x36 i 6
    data := (s.txPayload i (s.txStream i).next).2
    legA := s.sendsLeg i 0 ((s.txStream i).legsAt (s.txStream i).next).1, legB := s.sendsLeg i 1 ((s.txStream i).legsAt (s.txStream i).next).2 }

/-- A stream that has sent a packet of P samples. -/
def TxStream.sent (x : TxStream) (P : Nat) (q : Rtp) (m : Nat × Nat) : TxStream := { x with next := x.next + P, last := some q, mark := some m }

/-- The packet made. -/
def State.packetMade : State :=
  ((s.txPayload i (s.txStream i).next).1.netTrack i 1 (s.at 0x36 i 2) (s.at 0x36 i 3) (s.txStream i).mark).updTx i
    (·.sent (s.streamP 0x36 i) (s.nextPacket i) (s.mcc, s.net.phc.t))

/-- The frame of the packet on a leg. -/
def State.packetFrame (k : Nat) : TxFrame :=
  { kind := .audio i (s.nextPacket i).seq, bytes := (s.nextPacket i).data.length + 82, due := s.emitAt i k (s.txStream i).next }

/-- It joins the queue of the leg's port, where it leaves on the leg. -/
def State.putLeg (k : Nat) (on : Bool) (t : State) : State :=
  if on then t.enqueueAt (s.legPort 0x36 i k) (s.packetFrame i k).kind (s.packetFrame i k).bytes (s.packetFrame i k).due else t

/-- The packet sent. -/
def State.packetSent : State := s.putLeg i 1 (s.nextPacket i).legB (s.putLeg i 0 (s.nextPacket i).legA (s.packetMade i))

theorem State.packetMade_made : s.frame (s.packetMade i) packetParts ∧ (s.packetMade i).net.link = s.net.link ∧
    ((s.packetMade i).txStream i).last = some (s.nextPacket i) ∧
    ((s.packetMade i).txStream i).next = (s.txStream i).next + s.streamP 0x36 i := by
  have htrack := (s.txPayload i (s.txStream i).next).1.netTrack_frame i 1 (s.at 0x36 i 2) (s.at 0x36 i 3) (s.txStream i).mark
  obtain ⟨hf, hlink, c, hc⟩ := (s.txPayload_passes i (s.txStream i).next).of_frame htrack (by decide) (by decide)
  unfold State.packetMade
  generalize (s.txPayload i (s.txStream i).next).1.netTrack i 1 (s.at 0x36 i 2) (s.at 0x36 i 3) (s.txStream i).mark = u at *
  rw [State.txStream_updTx_same, hc]
  exact ⟨State.frame_next hf (u.updTx_frame i _ (by decide)), hlink, rfl, rfl⟩

theorem State.putLeg_queued (k : Nat) (on : Bool) (t : State) : t.Queued (s.putLeg i k on t) :=
  (State.Queued.enqueueAt t _ _ _ _).ite (.refl t)

/-- What waits in a queue waits on. -/
theorem State.putLeg_keeps {k m : Nat} {on : Bool} {t : State} {f : TxFrame} (h : f ∈ Cells.get [] t.net.queue m) :
    f ∈ Cells.get [] (s.putLeg i k on t).net.queue m := by
  unfold State.putLeg
  split
  · rw [State.queue_enqueueAt]
    split
    · next hm => exact List.mem_append_left _ (hm.1 ▸ h)
    · exact h
  · exact h

/-- The packet waits where its leg's link is up. -/
theorem State.putLeg_joins {k : Nat} {t : State} (hup : t.linkUp (s.legPort 0x36 i k) = true) :
    s.packetFrame i k ∈ Cells.get [] (s.putLeg i k true t).net.queue (s.legPort 0x36 i k) := by
  rw [State.putLeg, if_pos rfl, State.queue_enqueueAt, if_pos ⟨rfl, hup⟩]
  exact List.mem_append_right _ (List.mem_singleton.2 rfl)

variable {s i}

/-- A leg that the packet leaves on has its link up. -/
theorem State.linkUp_of_sendsLeg {k : Nat} {on : Bool} (h : s.sendsLeg i k on = true) : s.linkUp (s.legPort 0x36 i k) = true := by
  simp only [State.sendsLeg, Bool.and_eq_true] at h
  obtain ⟨⟨-, hup⟩, -⟩ := h
  exact hup

/-- Without a handover the role and the link decide. -/
theorem State.sendsLeg_free (h : s.twin.handover = none) (k : Nat) (on : Bool) : s.sendsLeg i k on =
    (on && s.linkUp (s.legPort 0x36 i k) &&
      decide (Cells.get 0 s.net.linkAt (s.legPort 0x36 i k) ≤ s.engineStamp (s.at 0x36 i 2) (s.txStream i).next)) := by
  simp [State.sendsLeg, State.packetHeld, h]

end

section
variable {s : State} {i : Nat} (hi : i < 256) (hrun : (s.txStream i).running = true) (hP : 0 < s.streamP 0x36 i)
  (hdue : (s.txStream i).next + s.streamP 0x36 i + 1 ≤ s.streamNow (s.at 0x36 i 2))
include hi hrun hP hdue

theorem execStreamPacketTransmit_due : exec (.streamPacketTransmit i) s = .next (s.packetSent i) := if_pos ⟨hi, hrun, hP, hdue⟩

/-- A due packet is sent: the stream goes on to the next, and the packet waits in the queues of the legs that it leaves on. -/
theorem streamPacketTransmit_sends : ∃ (t : State) (q : Rtp), exec (.streamPacketTransmit i) s = .next t ∧ (t.txStream i).last = some q ∧
    (t.txStream i).next = (s.txStream i).next + s.streamP 0x36 i ∧ q.ts = (s.txStream i).next % 2 ^ 32 ∧
    q.seq = (s.txStream i).next / s.streamP 0x36 i % 65536 ∧ q.pt = s.at 0x36 i 5 ∧ q.ssrc = s.at 0x36 i 6 ∧
    q.data.length = s.streamP 0x36 i * s.at 0x36 i 3 * (s.at 0x36 i 1 + 2) ∧
    (s.twin.handover = none → ∀ k, k < 2 → let n := s.legPort 0x36 i k
      (if k = 0 then q.legA else q.legB) =
        ((if k = 0 then ((s.txStream i).legsAt (s.txStream i).next).1 else ((s.txStream i).legsAt (s.txStream i).next).2) && s.linkUp n &&
          decide (Cells.get 0 s.net.linkAt n ≤ s.engineStamp (s.at 0x36 i 2) (s.txStream i).next))) ∧
    (∀ k, k < 2 → (if k = 0 then q.legA else q.legB) = true →
      { kind := .audio i q.seq, bytes := q.data.length + 82, due := s.emitAt i k (s.txStream i).next } ∈
        Cells.get [] t.net.queue (s.legPort 0x36 i k)) ∧
    s.frame t [.net, .conv, .free, .ev, .sessions] := by
  obtain ⟨hmade, hlink, hlast, hnext⟩ := s.packetMade_made i
  have hA := s.putLeg_queued i 0 (s.nextPacket i).legA (s.packetMade i)
  have hB := s.putLeg_queued i 1 (s.nextPacket i).legB (s.putLeg i 0 (s.nextPacket i).legA (s.packetMade i))
  obtain ⟨-, -, -, -, hlinkA, htxA⟩ := hA.fields
  obtain ⟨-, -, -, -, -, htxB⟩ := hB.fields
  have hstream : (s.packetSent i).txStream i = (s.packetMade i).txStream i := State.txStream_congr (htxB.trans htxA) i
  refine ⟨_, s.nextPacket i, execStreamPacketTransmit_due hi hrun hP hdue, by rw [hstream, hlast], by rw [hstream, hnext], rfl, rfl, rfl, rfl,
    s.txPayload_length i _, fun hfree k hk => ?_, fun k hk hleg => ?_, ?_⟩
  · obtain rfl | rfl : k = 0 ∨ k = 1 := by omega
    · exact State.sendsLeg_free hfree 0 _
    · exact State.sendsLeg_free hfree 1 _
  · obtain rfl | rfl : k = 0 ∨ k = 1 := by omega
    · have hon : (s.nextPacket i).legA = true := hleg
      have hup : (s.packetMade i).linkUp (s.legPort 0x36 i 0) = true := by
        rw [State.linkUp, hlink]
        exact State.linkUp_of_sendsLeg hon
      refine s.putLeg_keeps i ?_
      rw [hon]
      exact s.putLeg_joins i hup
    · have hon : (s.nextPacket i).legB = true := hleg
      have hup : (s.putLeg i 0 (s.nextPacket i).legA (s.packetMade i)).linkUp (s.legPort 0x36 i 1) = true := by
        rw [State.linkUp, hlinkA, hlink]
        exact State.linkUp_of_sendsLeg hon
      rw [State.packetSent, hon]
      exact s.putLeg_joins i hup
  · exact State.frame_next hmade (State.frame_mono (State.frame_next hA.frame hB.frame) (by decide))

end

/-! ### A stream stopped (R273, R274) -/

/-- An entry of a table whose entries change in place: as its change leaves it, or one that is not listed. -/
theorem Cells.get_mapKeys {α : Type} (d : α) (f : Nat → α → α) (l : Cells α) (k : Nat) :
    Cells.get d (l.map (fun c => (c.1, f c.1 c.2))) k = f k (Cells.get d l k) ∨
      (Cells.get d (l.map (fun c => (c.1, f c.1 c.2))) k = d ∧ Cells.get d l k = d) := by
  induction l with
  | nil => exact .inr ⟨rfl, rfl⟩
  | cons c l ih =>
    obtain ⟨a, v⟩ := c
    simp only [List.map_cons, Cells.get]
    by_cases h : a = k
    · simp [h]
    · simpa [h] using ih

/-- New offsets leave everything else of a stream. -/
theorem State.restagger_txStream (s : State) (i : Nat) :
    ∃ a b, s.restagger.txStream i = { s.txStream i with stagger := a, staggerB := b } := by
  rcases Cells.get_mapKeys TxStream.reset (fun k x => { x with
    stagger := s.staggerOn k (if s.legPort 0x36 k 0 = 0xFF then 1 else 0), staggerB := s.staggerOn k 1 }) s.net.tx i with h | ⟨h, hs⟩
  · exact ⟨_, _, h⟩
  · refine ⟨TxStream.reset.stagger, TxStream.reset.staggerB, ?_⟩
    have hold : s.txStream i = TxStream.reset := hs
    rw [hold]
    exact h

/-- A transmit stream stopped: its last packet can still be read. -/
def TxStream.stopped (x : TxStream) : TxStream := { TxStream.reset with last := x.last }

theorem streamTxStopDone_stops {s : State} {i : Nat} (hstop : (s.txStream i).stopping = true)
    (hsilent : (s.txStream i).slots.all (fun c => c.2.silent (s.txStream i).next) = true) : ∃ t, exec (.streamTxStopDone i) s = .next t ∧
    (t.txStream i).running = false ∧ (t.txStream i).stopping = false ∧ (t.txStream i).last = (s.txStream i).last ∧
    (∀ c ∈ t.conv.src, ¬ (c.2.user / 256 = 0x040000 + i ∧ c.2.dir = 1)) ∧ s.frame t [.net, .conv] := by
  have hexec : exec (.streamTxStopDone i) s =
      .next ((s.updTx i TxStream.stopped).srcDrop i 1).restagger := if_pos ⟨hstop, hsilent⟩
  have hreset := s.updTx_frame i TxStream.stopped (l := [.net, .conv]) (by decide)
  have hdrop := (s.updTx i TxStream.stopped).srcDrop_frame i 1 (l := [.conv]) (by decide)
  have hfree := (s.updTx i TxStream.stopped).srcDrop_free i 1
  have hstream : ((s.updTx i TxStream.stopped).srcDrop i 1).txStream i =
      (s.txStream i).stopped := State.txStream_updTx_same s i _
  refine ⟨_, hexec, ?_⟩
  generalize (s.updTx i TxStream.stopped).srcDrop i 1 = u at *
  obtain ⟨a, b, hu⟩ := u.restagger_txStream i
  rw [hu, hstream]
  exact ⟨rfl, rfl, rfl, hfree, State.frame_next (State.frame_next hreset (State.frame_mono hdrop (by decide))) (u.setNet_frame _ (by decide))⟩

/-- Settles O47: a packet received by when it comes, a packet sent by its legs, and the ends of a leg, of a receive and of a transmit stream. -/
theorem streamsCarryPackets : Obligations.StreamsCarryPackets := by
  unfold Obligations.StreamsCarryPackets
  intro s i hi x y P chans bytes
  refine ⟨fun leg n ts ns data hleg hrun hup hlen hnew => ?_, fun n c => streamLegMiss_counts, streamPacketTransmit_sends hi,
    fun hstop hsilent _ => streamTxStopDone_stops hstop hsilent, fun hstop hsilent _ => streamRxRelease_frees hstop hsilent⟩
  intro now k tick late
  exact ⟨streamPacketReceive_late hi hleg hrun hup hlen hnew, streamPacketReceive_early hi hleg hrun hup hlen hnew,
    fun hlate hearly ho hend _ => streamPacketReceive_enters hi hleg hrun hup hlen hnew rfl hlate (Nat.not_lt.2 hearly) ho hend⟩

end Sys2Proof.Machine
end

section
/-! PROOFS. The clock unit (R279–R301): its references as their evaluation leaves them, the selection, the loop's own events, the slew of REF4,
steering and calibration, and the clock outputs; O48. -/

namespace Sys2Proof.Machine

open Fmt

/-! ### What watching and measuring the references touches (R279–R284) -/

/-- The references change and the events tell it: of the clock unit everything else stays. -/
structure State.RefsOnly (s t : State) : Prop where
  frame : s.frame t [.cku, .ev, .sessions]
  cku : ∃ r, t.cku = { s.cku with refs := r }

namespace State.RefsOnly

variable {s t u : State}

theorem refl (s : State) : s.RefsOnly s := ⟨s.frame_refl _, _, rfl⟩

theorem trans (h : s.RefsOnly t) (k : t.RefsOnly u) : s.RefsOnly u := by
  obtain ⟨hf, r, hr⟩ := h
  obtain ⟨kf, q, hq⟩ := k
  exact ⟨State.frame_next hf kf, q, by rw [hq, hr]⟩

theorem ite {p : Prop} [Decidable p] (h : s.RefsOnly t) (k : s.RefsOnly u) : s.RefsOnly (if p then t else u) := by
  split
  · exact h
  · exact k

theorem foldl {α : Type} {f : State → α → State} (hf : ∀ (u : State) a, u.RefsOnly (f u a)) (xs : List α) (h : s.RefsOnly t) :
    s.RefsOnly (xs.foldl f t) :=
  xs.foldlRecOn (motive := fun v => s.RefsOnly v) f h (fun v hv a _ => hv.trans (hf v a))

theorem updRef (h : s.RefsOnly t) (k : Nat) (f : RefSlot → RefSlot) : s.RefsOnly (t.updRef k f) :=
  h.trans ⟨t.setCku_frame _ (by decide), _, rfl⟩

theorem raise (h : s.RefsOnly t) (ev : Ev) (part obj val : Nat) : s.RefsOnly (t.raise ev part obj val) :=
  h.trans ⟨State.frame_mono (t.raise_frame ev part obj val) (by decide), _, t.raise_frame ev part obj val .cku (by decide)⟩

theorem loseRef (h : s.RefsOnly t) (k : Nat) : s.RefsOnly (t.loseRef k) := by
  unfold State.loseRef
  split
  · exact h
  · exact h
  · exact (h.updRef k _).raise _ _ _ _

theorem enableRefs (h : s.RefsOnly t) : s.RefsOnly t.enableRefs := by
  unfold State.enableRefs
  refine foldl (fun u k => ?_) _ h
  dsimp only
  split
  · exact ((refl u).updRef k _).ite (refl u)
  · exact (refl u).ite ((refl u).updRef k _)

theorem stepRef (h : s.RefsOnly t) (k : Nat) (off : Int) : s.RefsOnly (t.stepRef k off) := by
  unfold State.stepRef
  extract_lets within acc rej r
  split
  · exact h
  · exact h.updRef k _
  · exact (((h.updRef k _).raise _ _ _ _).ite (h.updRef k _)).ite (h.updRef k _)
  · exact h.ite (((h.updRef k _).raise _ _ _ _).ite ((h.updRef k _).raise _ _ _ _))
  · exact ((h.updRef k _).raise _ _ _ _).ite (h.ite ((h.updRef k _).raise _ _ _ _))
  · exact (h.updRef k _).ite h

theorem driftWarn (h : s.RefsOnly t) (k : Nat) (drift : Int) : s.RefsOnly (t.driftWarn k drift) := by
  unfold State.driftWarn
  extract_lets far r s1 q
  have h1 : s.RefsOnly s1 := h.updRef k _
  exact (h1.ite (h1.raise _ _ _ _)).ite (h.updRef k _)

theorem measureRef (h : s.RefsOnly t) (m : Nat × Int × Int) : s.RefsOnly (t.measureRef m) := by
  unfold State.measureRef
  extract_lets k off hist s1
  exact h.ite (((h.updRef k _).stepRef k off).driftWarn k _)

/-- Which mode the clock unit is in, and whether it follows a peer, stay. -/
theorem mode (h : s.RefsOnly t) : t.at 0x41 0 0 = s.at 0x41 0 0 ∧ t.cku.twinFollow = s.cku.twinFollow := by
  obtain ⟨hf, r, hr⟩ := h
  exact ⟨State.at_of_frame hf (by decide) _ _ _, by rw [hr]⟩

end State.RefsOnly

/-! ### The selection of an evaluation (R285) -/

section
variable (s : State)

theorem State.unalign_cku : s.unalign.cku = s.cku := by
  unfold State.unalign
  split
  · rfl
  · simp

/-- Learning of the selection touches the ports and the events. -/
theorem State.sapOrigins_frame : s.frame s.sapOrigins [.ports, .ev, .sessions] := by
  have sap : ∀ (u : State) (i : Nat), u.frame (u.sapOrigin (i / 2) (decide (i % 2 = 1))) [.ports, .ev, .sessions] := fun u i => by
    have hset := fun d => u.setSap_frame (l := [.ports, .ev, .sessions]) (i / 2) (decide (i % 2 = 1)) d (by decide)
    have hraise : ∀ (v : State) (ev : Ev) (part obj val : Nat), v.frame (v.raise ev part obj val) [.ports, .ev, .sessions] :=
      fun v ev part obj val => State.frame_mono (v.raise_frame ev part obj val) (by decide)
    exact State.frame_ite (State.frame_ite (State.frame_next (hset _) (hraise _ _ _ _ _)) (hset _)) (u.frame_refl _)
  have madi : ∀ (u : State) (p : Nat), u.frame (u.madiOrigin p) [.ports, .ev, .sessions] := fun u p =>
    State.frame_ite (u.setMadi_frame p false _ (by decide)) (u.frame_refl _)
  exact State.frame_next (State.frame_foldl sap _ s) (State.frame_foldl madi _ _)

theorem State.takeUp_sel (k : Nat) : (s.takeUp k).cku.sel = s.cku.sel := by
  unfold State.takeUp
  extract_lets s1
  split <;> rfl

theorem State.enterHoldover_sel : s.enterHoldover.cku.sel = s.cku.sel := by
  unfold State.enterHoldover
  extract_lets f s1
  have h1 : s1.cku.sel = s.cku.sel := by simp [s1, CkuG.letGo]
  split_ifs
  · rfl
  · simpa using h1
  · exact h1

theorem State.disagreements_sel : s.disagreements.cku.sel = s.cku.sel := by
  unfold State.disagreements
  extract_lets eq pairs
  split
  · rfl
  · refine List.foldlRecOn (motive := fun u : State => u.cku.sel = s.cku.sel) pairs _ rfl (fun u hu p _ => ?_)
    split_ifs
    · exact hu
    · exact hu
    · simpa using hu

theorem State.switchTo_sel (new cause : Nat) : (s.switchTo new cause).cku.sel = new := by
  unfold State.switchTo
  extract_lets old s1 s2 s3 s4
  split
  · next h => exact h.symm
  · have h2 : s2.cku.sel = new := by simp [s2, s1]
    have h3 : s3.cku.sel = new := by
      simp only [s3]
      split
      · rw [State.unalign_cku, h2]
      · exact h2
    have h4 : s4.cku.sel = new := by
      simp only [s4]
      split
      · exact h3
      · rw [State.takeUp_sel, h3]
    have hcku : s4.sapOrigins.cku = s4.cku := s4.sapOrigins_frame .cku (by decide)
    rw [hcku, h4]

/-- R285: what an evaluation in mode 0 selects. -/
theorem State.evaluate_sel (hmode : s.at 0x41 0 0 = 0) (hown : s.cku.twinFollow = false) : s.evaluate.cku.sel = s.select := by
  unfold State.evaluate
  extract_lets new s1 s2
  rw [if_neg (by simp [hmode, hown])]
  have h1 : s1.cku.sel = new := s.switchTo_sel new s.switchCause
  have h2 : s2.cku.sel = new := by
    simp only [s2]
    split
    · rw [State.enterHoldover_sel, h1]
    · exact h1
  exact s2.disagreements_sel.trans h2

/-- In every other mode it changes nothing. -/
theorem State.evaluate_other (hmode : s.at 0x41 0 0 ≠ 0) : s.evaluate = s := if_pos (.inl hmode)

/-- The references are what they were. -/
theorem State.evaluate_refs : s.evaluate.cku.refs = s.cku.refs := (State.KeepsPorts.refl s).evaluate.refs

theorem State.evaluate_ref (k : Nat) : s.evaluate.cku.ref k = s.cku.ref k := by rw [CkuG.ref, State.evaluate_refs, ← CkuG.ref]

end

/-! ### A change of the clock unit that an event tells -/

theorem State.setCku_raise (s : State) (f : CkuG → CkuG) (ev : Ev) (part obj val : Nat) :
    ((s.setCku f).raise ev part obj val).cku = f s.cku ∧ s.told ((s.setCku f).raise ev part obj val) ev part obj val ∧
      s.frame ((s.setCku f).raise ev part obj val) [.cku, .ev, .sessions] := by
  have h : s.frame (s.setCku f) [.cku] := s.setCku_frame f (List.mem_singleton.2 rfl)
  exact ⟨by simp, State.raise_told_of_frame h (by decide) _ _ _ _, State.frame_trans h (State.raise_frame _ _ _ _ _)⟩

/-! ### A reference lost, and the evaluation of every 100 ms (R281–R285) -/

/-- A slot after its loss. -/
def RefSlot.toLost (x : RefSlot) : RefSlot := { x with st := .lost, losses := satInc x.losses 1, timer := 0, hist := [] }

section
variable {s : State} {k : Nat}

theorem State.loseRef_live (hd : (s.cku.ref k).st ≠ .disabled) (hl : (s.cku.ref k).st ≠ .lost) :
    s.loseRef k = (s.updRef k RefSlot.toLost).raise .refLost 0 k 0 := by
  unfold State.loseRef
  split
  · next h => exact absurd h hd
  · next h => exact absurd h hl
  · rfl

theorem refLost_loses (hk : k < 8) (hd : (s.cku.ref k).st ≠ .disabled) (hl : (s.cku.ref k).st ≠ .lost) (hon : s.dev ≠ .off) :
    ∃ t, exec (.refLost k) s = .next t ∧ (t.cku.ref k).st = .lost ∧ (t.cku.ref k).losses = satInc (s.cku.ref k).losses 1 ∧
      (s.at 0x41 0 0 ≠ 0 → s.told t .refLost 0 k 0 ∧ s.frame t [.cku, .ev, .sessions]) ∧
      (s.at 0x41 0 0 = 0 → s.cku.twinFollow = false → t.cku.sel = (s.loseRef k).select ∧ (s.loseRef k).isCand k = false) := by
  have hexec : exec (.refLost k) s = .next (s.loseRef k).evaluate := if_neg (by simp [hk, hd, hl, hon, State.ckuOn])
  have hlose := s.loseRef_live hd hl
  have href : (s.loseRef k).cku.ref k = (s.cku.ref k).toLost := by
    have hcku : (s.loseRef k).cku = (s.updRef k RefSlot.toLost).cku := by
      rw [hlose]
      exact State.raise_frame _ _ _ _ _ .cku (by decide)
    rw [hcku, State.updRef_ref, if_pos rfl]
  obtain ⟨hmode, hfollow⟩ := ((State.RefsOnly.refl s).loseRef k).mode
  refine ⟨_, hexec, by rw [State.evaluate_ref, href]; rfl, by rw [State.evaluate_ref, href]; rfl, fun hother => ?_, fun h0 hown => ?_⟩
  · rw [State.evaluate_other _ (by rwa [hmode]), hlose]
    exact (s.setCku_raise _ _ _ _ _).2
  · exact ⟨State.evaluate_sel _ (by rwa [hmode]) (by rwa [hfollow]), by rw [State.isCand, href]; rfl⟩

end

/-- The references as an evaluation finds them, which has seen the edges of some (R279, R281–R284). -/
def State.measured (s : State) (m : List (Nat × Int × Int)) : State :=
  m.foldl (fun s m => s.measureRef m) (((List.range 8).filter (fun k => !s.refAlive k)).foldl (fun s k => s.loseRef k) s.enableRefs)

theorem State.measured_refsOnly (s : State) (m : List (Nat × Int × Int)) : s.RefsOnly (s.measured m) :=
  .foldl (fun u q => (State.RefsOnly.refl u).measureRef q) _
    (.foldl (fun u k => (State.RefsOnly.refl u).loseRef k) _ (State.RefsOnly.refl s).enableRefs)

theorem refEvaluation_selects {s : State} (m : List (Nat × Int × Int)) (hon : s.dev ≠ .off) :
    ∃ t, exec (.refEvaluation m) s = .next t ∧ t.cku.refs = (s.measured m).cku.refs ∧
      (s.at 0x41 0 0 = 0 → s.cku.twinFollow = false → t.cku.sel = (s.measured m).select) ∧ (s.at 0x41 0 0 ≠ 0 → t = s.measured m) := by
  have hexec : exec (.refEvaluation m) s = .next (s.measured m).evaluate := if_neg (by simp [hon, State.ckuOn])
  obtain ⟨hmode, hfollow⟩ := (s.measured_refsOnly m).mode
  exact ⟨_, hexec, State.evaluate_refs _, fun h0 hown => State.evaluate_sel _ (by rwa [hmode]) (by rwa [hfollow]),
    fun hother => State.evaluate_other _ (by rwa [hmode])⟩

/-! ### The loop's own events (R290–R293) -/

section
variable {s : State}

theorem ckuLock_locks (hst : s.cku.st = .acquiring) (hsel : s.cku.sel ≠ 0xFF ∨ s.cku.twinFollow = true) (hin : s.fs ≤ s.cku.inN) :
    ∃ t, exec .ckuLock s = .next t ∧ t.cku = { s.cku with st := .locked, everLock := true, bwN := 0 } ∧ s.told t .ckuLock 0 0 0 ∧
      s.frame t [.cku, .ev, .sessions] :=
  ⟨_, if_pos ⟨hst, hsel, hin⟩, s.setCku_raise _ _ _ _ _⟩

theorem ckuLock_early (hin : s.cku.inN < s.fs) : exec .ckuLock s = .next s :=
  if_neg (fun ⟨_, _, h⟩ => Nat.not_le.2 hin h)

theorem ckuBwStep_narrows (hst : s.cku.st = .locked) (hbw : s.at 0x40 s.cku.sel 9 < s.cku.bw)
    (hn : 10000 * s.fs ≤ s.cku.bwN * 10 ^ s.cku.bw) :
    ∃ t, exec .ckuBwStep s = .next t ∧ t.cku = { s.cku with bw := s.cku.bw - 1, bwN := 0 } ∧ s.frame t [.cku] :=
  ⟨_, if_pos ⟨hst, hbw, hn⟩, rfl, s.setCku_frame _ (by decide)⟩

theorem ckuUnlock_unlocks (hst : s.cku.st = .locked) (hout : s.fs ≤ 10 * s.cku.outN) :
    ∃ t, exec .ckuUnlock s = .next t ∧ t.cku.st = .acquiring ∧ t.cku.sel = s.cku.sel ∧
      (s.cku.twinFollow = false → t.cku.bw = s.acquireBw s.cku.sel) ∧ t.cku.cal = s.cku.cal ∧ s.told t .ckuUnlock 0 0 0 ∧
      s.frame t [.cku, .ev, .sessions] := by
  refine ⟨_, if_pos ⟨hst, hout⟩, ?_⟩
  obtain ⟨hcku, htold, hframe⟩ := s.setCku_raise (fun c => { c with
    st := .acquiring, inN := 0, bwN := 0, bw := if c.twinFollow then c.bw else s.acquireBw c.sel }) .ckuUnlock 0 0 0
  rw [hcku]
  exact ⟨rfl, rfl, fun hown => if_neg (by simp [hown]), rfl, htold, hframe⟩

theorem ckuGlide_glides (hst : s.cku.st = .holdover) (hrem : s.cku.holdRem = 0) (hn : 0 < s.cku.holdN) :
    ∃ t, exec .ckuGlide s = .next t ∧ t.cku = { s.cku with st := .glide, target := some (s.sat 0x41 0 5, 100000) } ∧
      s.told t .ckuGlide 0 0 0 ∧ s.frame t [.cku, .ev, .sessions] :=
  ⟨_, if_pos ⟨hst, hrem, hn⟩, s.setCku_raise _ _ _ _ _⟩

theorem ckuFreerun_arrives (hst : s.cku.st = .glide) (htarget : s.cku.target = none) :
    ∃ t, exec .ckuFreerun s = .next t ∧ t.cku = { s.cku with st := .freeRun } ∧ s.told t .ckuFreerun 0 0 0 ∧
      s.frame t [.cku, .ev, .sessions] :=
  ⟨_, if_pos ⟨hst, htarget⟩, s.setCku_raise _ _ _ _ _⟩

end

/-! ### The slew of REF4 (R263, R264, R289) -/

section
variable {s : State} {e : Int} (hsel : s.cku.sel = 4) (hmcc : s.net.mcc = 1) (hsmall : e.natAbs ≤ 50) (hedge : e = s.edgeNs)
include hsel hmcc hsmall hedge

/-- A slew that a renumbering waits for goes on. -/
theorem ref4SlewDone_waits (hunit : s.slewUnit ≠ 1) (hdelta : s.delta ≠ 0) :
    ∃ t, exec (.ref4SlewDone e) s = .next t ∧ t.net = { s.net with edgeErr := e } ∧ s.frame t [.net] := by
  refine ⟨s.setNet (fun n => { n with edgeErr := e }), ?_, rfl, s.setNet_frame _ (by decide)⟩
  show execRef4SlewDone e s = _
  rw [execRef4SlewDone, if_pos ⟨hsel, hmcc, hsmall, hedge⟩, if_pos ⟨hunit, hdelta⟩]

/-- Any other ends with the MCC aligned where Δ is 0, and unaligned where it is not. -/
theorem ref4SlewDone_ends (hend : s.slewUnit = 1 ∨ s.delta = 0) : ∃ t, exec (.ref4SlewDone e) s = .next t ∧
    t.net = { s.net with edgeErr := e, mcc := if s.delta = 0 then 2 else 0 } ∧
    (s.delta = 0 → s.toldD t .mccAligned 0 0 [0, 0]) ∧ s.frame t [.net, .ev, .sessions] := by
  have hexec : exec (.ref4SlewDone e) s = .next (if s.delta = 0
      then (s.setNet (fun n => { n with mcc := 2, edgeErr := e })).raiseD .mccAligned 0 0 (two 0)
      else s.setNet (fun n => { n with mcc := 0, edgeErr := e })) := by
    show execRef4SlewDone e s = _
    rw [execRef4SlewDone, if_pos ⟨hsel, hmcc, hsmall, hedge⟩, if_neg (fun h => hend.elim h.1 h.2), apply_ite Host.Outcome.next]
  refine ⟨_, hexec, ?_⟩
  by_cases hdelta : s.delta = 0
  · simp only [if_pos hdelta]
    obtain ⟨htold, hframe⟩ := s.setNet_raiseD (fun n => { n with mcc := 2, edgeErr := e }) .mccAligned 0 0 (two 0)
    exact ⟨by simp, fun _ => htold, hframe⟩
  · simp only [if_neg hdelta]
    exact ⟨rfl, fun h => absurd h hdelta, s.setNet_frame _ (by decide)⟩

end

/-! ### Steering and calibration (R296, R298) -/

section
variable {s : State} {r : Req} {q : Session} (hq : s.admits r 0 q)
include hq

theorem ckuSteer_steers {f : Int} (ha : s.audioServed = true) (hmode : s.at 0x41 0 0 = 1) (hf : f.natAbs ≤ 500000000) :
    ∃ t, exec (.ckuSteer r f) s = .next t ∧ t.answers r 0x0503 0 0 [] ∧
      t.cku = { s.cku with target := some (f, s.at 0x41 0 6 * 1000) } ∧ s.frame t [.cku, .sessions, .vcp] := by
  have hat : ∀ n, (s.admitted r).at 0x41 0 n = s.at 0x41 0 n := fun n => State.at_of_frame (s.admitted_frame r) (by decide) _ _ _
  refine ⟨((s.admitted r).setCku (fun c => { c with target := some (f, s.at 0x41 0 6 * 1000) })).reply r 0x0503 ⟨Err.ok, 0, []⟩,
    congrArg _ (State.serve_answered hq ?_), State.reply_answers_nil _ _, by simp,
    State.request_frame (by decide) (State.setCku_frame _ _ (by decide)) _⟩
  have hserves : ¬ ((s.admitted r).at 0x41 0 0 ≠ 1 ∨ (s.admitted r).twin.role = .standby ∨ (s.admitted r).twin.role = .joining ∨
      (s.admitted r).twin.role = .fenced) := by
    have htwin : (s.admitted r).twin = s.twin := s.admitted_frame r .twin (by decide)
    rw [hat, htwin]
    exact not_or.2 ⟨not_not.2 hmode, State.role_of_audioServed ha⟩
  rw [if_neg hserves, if_neg (Nat.not_lt.2 hf), hat]
  rfl

/-- The activity of a calibration. -/
def Maint.calibration (sid : Nat) : Maint := { code := 7, target := 0, sid := sid }

/-- A calibration that takes the free token. -/
def State.calibrating (s : State) (sid : Nat) : State := (s.maintStart (.calibration sid)).setCku (fun c => { c with cal := some c.sel })

theorem execCkuCalibrate_free (hst : s.cku.st = .locked) (href : (s.cku.ref s.cku.sel).st = .qualified) (hh : s.fault.holder = none)
    (hqueue : s.fault.queue = []) :
    exec (.ckuCalibrate r) s = .next (((s.admitted r).calibrating r.sid).reply r 0x0504 ⟨Err.ok, 0, []⟩) := by
  have hcku : (s.admitted r).cku = s.cku := s.admitted_frame r .cku (by decide)
  have hask : (s.admitted r).maintAsk { code := 7, target := 0, sid := q.sid } false =
      ((s.admitted r).maintStart (.calibration r.sid), Err.ok) := by
    rw [State.maintAsk_free (by simpa using hh) (by simpa using hqueue), State.admits_sid hq]
    rfl
  have hon : ((s.admitted r).maintStart (.calibration r.sid)).maintOn 7 = true := by
    rw [State.maintOn, ((s.admitted r).maintStart_starts _).1]
    rfl
  refine congrArg _ (State.serve_answered hq ?_)
  simp only [Session.accept_fields, hcku, hst, href, hask, hon, ne_eq, not_true, or_self, if_false, if_true]
  rfl

theorem ckuCalibrate_begins (hst : s.cku.st = .locked) (href : (s.cku.ref s.cku.sel).st = .qualified) (hh : s.fault.holder = none)
    (hqueue : s.fault.queue = []) : ∃ t, exec (.ckuCalibrate r) s = .next t ∧ t.answers r 0x0504 0 0 [] ∧
      t.cku = { s.cku with cal := some s.cku.sel } ∧ t.fault.holder = some { code := 7, target := 0, sid := r.sid } ∧
      t.ev = ((s.admitted r).raise .maintStart 0 7 0).ev ∧ s.frame t [.cku, .fault, .ev, .sessions, .vcp] := by
  obtain ⟨hholder, hev, hframe⟩ := (s.admitted r).maintStart_starts (.calibration r.sid)
  have hcku : ((s.admitted r).maintStart (.calibration r.sid)).cku = s.cku :=
    (hframe .cku (by decide)).trans (s.admitted_frame r .cku (by decide))
  have htoken : ((s.admitted r).maintStart (.calibration r.sid)).frame ((s.admitted r).calibrating r.sid) [.cku] :=
    State.setCku_frame _ _ (by decide)
  have hreply := ((s.admitted r).calibrating r.sid).reply_frame r 0x0504 ⟨Err.ok, 0, []⟩
  have hlast := State.frame_trans htoken hreply
  refine ⟨_, execCkuCalibrate_free hq hst href hh hqueue, State.reply_answers_nil _ _, (hreply .cku (by decide)).trans ?_,
    (congrArg FaultG.holder (hlast .fault (by decide))).trans hholder, (hlast .ev (by decide)).trans hev,
    State.request_frame (by decide) (State.frame_mono (State.frame_trans hframe htoken) (by decide)) _⟩
  rw [← hcku]
  rfl

end

/-- The token is free after its holder's end. -/
theorem State.maintEnd_frees (s : State) : s.maintEnd.fault.holder = none ∧ s.frame s.maintEnd [.fault, .ev, .sessions] := by
  unfold State.maintEnd
  split
  · next h => exact ⟨h, s.frame_refl _⟩
  · have hset : s.frame (s.setFault (fun f => { f with holder := none })) [.fault] := by simp [State.frame_iff, Part.same]
    exact ⟨by simp, State.frame_trans hset (State.raise_frame _ _ _ _ _)⟩

/-- A calibrated local oscillator: its value in MSTORE and in the clock unit, with EV_CKU_CAL. -/
def State.calibrated (s : State) (v : Int) : State :=
  (({ s with scene := { s.scene with mstore := s.scene.mstore.writeAll loCalAddr (toBE 4 (wrapU 32 v)) } } : State).setCku
    (fun c => c.calibrate v)).raiseD .ckuCal 0 0 [one s.cku.loCal, one v, 1]

theorem State.calibrated_frame (s : State) (v : Int) : s.frame (s.calibrated v) [.mstore, .cku, .ev, .sessions] := by
  have hset : s.frame (({ s with scene := { s.scene with mstore := s.scene.mstore.writeAll loCalAddr (toBE 4 (wrapU 32 v)) } } : State).setCku
      (fun c => c.calibrate v)) [.mstore, .cku] := by
    simp [State.frame_iff, Part.same]
  exact State.frame_trans hset (State.raiseD_frame _ _ _ _ _)

theorem ckuCalDone_keeps {s : State} {k : Nat} (v : Int) (hcal : s.cku.cal = some k) :
    ∃ t, exec (.ckuCalDone (some v)) s = .next t ∧ t.cku = s.cku.calibrate v ∧ t.cku.loCal = v ∧ t.cku.cal = none ∧
      t.cku.freq = recal s.cku.loCal v s.cku.freq ∧
      t.scene.mstore = s.scene.mstore.writeAll loCalAddr (toBE 4 (wrapU 32 v)) ∧ (s.maintOn 7 = true → t.fault.holder = none) ∧
      s.frame t [.cku, .mstore, .fault, .ev, .sessions] := by
  have hexec : exec (.ckuCalDone (some v)) s =
      .next (if (s.calibrated v).maintOn 7 then (s.calibrated v).maintEnd else s.calibrated v) := by
    show execCkuCalDone (some v) s = _
    simp only [execCkuCalDone, hcal]
    rfl
  have hset := s.calibrated_frame v
  have hcku : (s.calibrated v).cku = s.cku.calibrate v := by simp [State.calibrated]
  have hmstore : (s.calibrated v).scene.mstore = s.scene.mstore.writeAll loCalAddr (toBE 4 (wrapU 32 v)) := by simp [State.calibrated]
  have hon : (s.calibrated v).maintOn 7 = s.maintOn 7 := by
    have hfault : (s.calibrated v).fault = s.fault := hset .fault (by decide)
    rw [State.maintOn, hfault, State.maintOn]
  obtain ⟨hfree, hend⟩ := (s.calibrated v).maintEnd_frees
  refine ⟨_, hexec, ?_⟩
  have htail : (s.calibrated v).frame (if (s.calibrated v).maintOn 7 then (s.calibrated v).maintEnd else s.calibrated v)
      [.fault, .ev, .sessions] := State.frame_ite hend (State.frame_refl _ _)
  have hcku' := (htail .cku (by decide)).trans hcku
  rw [hcku']
  refine ⟨rfl, rfl, rfl, rfl, (htail .mstore (by decide)).trans hmstore, fun h => ?_, State.frame_mono (State.frame_trans hset htail) (by decide)⟩
  rw [if_pos (hon.trans h)]
  exact hfree

/-! ### Clock outputs (R300, R301) -/

section
variable (s : State) (k : Nat)

/-- The delay of an output that takes its committed frequency: one that was off takes its committed delay with it. -/
def State.freqDelay : Nat := if (s.cku.out k).freq = 0 then s.at 0x42 k 1 else (s.cku.out k).delay

/-- The first half cycle of the present sample or after it on which old and new frequency both rise. -/
def State.freqEdge : Nat :=
  clkRise (max (s.clkPeriod k (s.cku.out k).freq) (s.clkPeriod k (s.at 0x42 k 0))) (s.freqDelay k) (s.mcc * s.halves)

/-- The output with its committed frequency. -/
def State.freqTaken : ClkOut :=
  { freq := s.at 0x42 k 0, delay := s.freqDelay k, oldFreq := (s.cku.out k).freq, oldDelay := (s.cku.out k).delay, since := s.freqEdge k }

theorem execClkoutFreqChange_eq : exec (.clkoutFreqChange k) s =
    if k < 5 ∧ (s.dev = .quiet ∨ s.dev = .run ∨ s.dev = .standby) ∧ s.at 0x42 k 0 ≠ (s.cku.out k).freq ∧
      s.freqEdge k < (s.mcc + 1) * s.halves then .next (s.setOut k (s.freqTaken k)) else .next s := rfl

theorem State.out_setOut (o : ClkOut) : (s.setOut k o).cku.out k = o := Cells.get_put_same _ _ _ _

/-- Before the edge of its change an output has its old frequency. -/
theorem State.clkLevel_setOut {o : ClkOut} {h : Nat} (hh : h < o.since) :
    (s.setOut k o).clkLevel k h = clkHigh (s.clkPeriod k o.oldFreq) o.oldDelay h := by
  rw [State.clkLevel, State.out_setOut]
  exact if_pos hh

end

section
variable {s : State} {k : Nat}

theorem clkoutFreqChange_takes (hk : k < 5) (hdev : s.dev = .quiet ∨ s.dev = .run ∨ s.dev = .standby)
    (hnew : s.at 0x42 k 0 ≠ (s.cku.out k).freq) (hedge : s.freqEdge k < (s.mcc + 1) * s.halves) :
    ∃ t, exec (.clkoutFreqChange k) s = .next t ∧ (t.cku.out k).freq = s.at 0x42 k 0 ∧ (t.cku.out k).since = s.freqEdge k ∧
      (∀ h, h < s.freqEdge k → t.clkLevel k h = clkHigh (s.clkPeriod k (s.cku.out k).freq) (s.cku.out k).delay h) ∧ s.frame t [.cku] := by
  refine ⟨s.setOut k (s.freqTaken k), ?_, ?_, ?_, fun h hh => s.clkLevel_setOut k hh, s.setCku_frame _ (by decide)⟩
  · rw [execClkoutFreqChange_eq, if_pos ⟨hk, hdev, hnew, hedge⟩]
  · rw [State.out_setOut, State.freqTaken]
  · rw [State.out_setOut, State.freqTaken]

theorem clkoutFreqChange_stays (h : s.at 0x42 k 0 = (s.cku.out k).freq ∨ (s.mcc + 1) * s.halves ≤ s.freqEdge k) :
    exec (.clkoutFreqChange k) s = .next s := by
  rw [execClkoutFreqChange_eq, if_neg]
  rintro ⟨-, -, hnew, hedge⟩
  exact h.elim hnew (Nat.not_le.2 hedge)

end

/-- Settles O48: each event of the references and the loop by the clock unit it leaves, steering and calibration by what their requests and
the measurement's end leave, and an output by the edge that its change waits for. -/
theorem clockUnitFollowsItsReferences : Obligations.ClockUnitFollowsItsReferences := by
  unfold Obligations.ClockUnitFollowsItsReferences
  intro s r q
  exact ⟨fun k => refLost_loses, fun m => refEvaluation_selects m, ckuLock_locks, ckuLock_early, ckuBwStep_narrows, ckuUnlock_unlocks,
    ckuGlide_glides, ckuFreerun_arrives,
    fun e hsel hmcc hsmall hedge => ⟨ref4SlewDone_ends hsel hmcc hsmall hedge, ref4SlewDone_waits hsel hmcc hsmall hedge⟩,
    fun f hq => ckuSteer_steers hq, fun hq => ckuCalibrate_begins hq, fun k v => ckuCalDone_keeps v,
    fun k hk hdev _ => ⟨clkoutFreqChange_takes hk hdev, clkoutFreqChange_stays⟩⟩

end Sys2Proof.Machine
end

section
/-! PROOFS. A step on a queue of commands, and an occurrence on its way to the sessions (R328–R334): what it leaves of EV_STAT, and the record
that enters a queue with room; O55, O58. -/

namespace Sys2Proof.Machine

open Fmt

/-- Settles O55: by the equation of `step`. -/
theorem stepRunsTheFrontCommand : Obligations.StepRunsTheFrontCommand := by
  unfold Obligations.StepRunsTheFrontCommand
  intro s c rest h
  rw [step, h]

/-! ### The sessions after an occurrence (R331, R332) -/

/-- One session after an occurrence. -/
def Session.offered (x : Session) (id part mcc arg : Nat) : Session :=
  if bit x.evMask id && x.receives part then x.enqueue id part false mcc arg else x

theorem State.raise_sessions (s : State) (ev : Ev) (part obj val : Nat) : (s.raise ev part obj val).vcp.sessions =
    s.vcp.sessions.map (fun x => x.offered ev.id part s.mcc (val % 65536 * 65536 + obj % 65536)) := by
  rw [State.raise, State.raiseTo]
  extract_lets
  split <;> rfl

theorem Session.offered_refused {x : Session} {id part : Nat} (h : bit x.evMask id = false ∨ x.receives part = false) (mcc arg : Nat) :
    x.offered id part mcc arg = x := by
  have hno : (bit x.evMask id && x.receives part) = false := Bool.and_eq_false_iff.2 h
  rw [Session.offered, hno]
  rfl

/-- R332: with room and no undelivered record of its kind and object the occurrence is a record of its own. -/
theorem Session.enqueue_room {x : Session} {id arg : Nat} (hfull : x.full = false) (hroom : x.queue.length < 1023)
    (hnew : ∀ k ∈ x.queue, k.delivered = false → k.id = id → k.arg % 65536 ≠ arg % 65536) (part : Nat) (detail : Bool) (mcc : Nat) :
    x.enqueue id part detail mcc arg =
      { x with queue := x.queue ++ [x.newRec id 1 part detail mcc arg], nextEv := x.nextEv + 1 } := by
  have hnone : ¬ x.queue.any (fun q => !q.delivered && decide (q.id = id) && decide (q.arg % 65536 = arg % 65536)) = true := by
    simpa [and_assoc] using hnew
  rw [Session.enqueue, if_neg hnone, if_neg (by simp [hfull]), if_pos hroom]

/-! ### EV_STAT after an occurrence (R334) -/

section
variable (s : State) (ev : Ev) (part obj val : Nat)

/-- The bits of EV_STAT that an occurrence may set: its event's, and that of the queue overflow. -/
theorem State.raise_stat_bit (j : Nat) (hj : j ≠ ev.id) (hq : j ≠ Ev.queueOverflow.id) :
    bit (s.raise ev part obj val).ev.stat j = bit s.ev.stat j := by
  rcases s.raiseTo_stat (fun _ => true) ev part obj val none with h | h <;>
    simp [State.raise, h, bit_setBit_true, Ne.symm hj, Ne.symm hq]

theorem State.raise_stat_keeps (j : Nat) (hj : bit s.ev.stat j = true) : bit (s.raise ev part obj val).ev.stat j = true := by
  rcases s.raiseTo_stat (fun _ => true) ev part obj val none with h | h <;> simp [State.raise, h, bit_setBit_true, hj]

end

/-- Settles O58: EV_STAT by its bits, each session by its own entry after the occurrence, the rest by the frame. -/
theorem occurrencesReachTheSessions : Obligations.OccurrencesReachTheSessions := by
  unfold Obligations.OccurrencesReachTheSessions
  intro s ev part obj val
  refine ⟨s.raise_marks ev part obj val, s.raise_stat_keeps ev part obj val, s.raise_stat_bit ev part obj val, ?_, ?_,
    s.raise_frame ev part obj val⟩
  · rw [State.raise_sessions, List.length_map]
  · intro i x y hx hy
    obtain rfl : x.offered ev.id part s.mcc (val % 65536 * 65536 + obj % 65536) = y := by
      simpa [State.raise_sessions, hx] using hy
    refine ⟨fun h => Session.offered_refused h _ _, fun hmask hpart hfull hroom hnew => ?_⟩
    refine ⟨x.newRec ev.id 1 part false s.mcc (val % 65536 * 65536 + obj % 65536), ?_, rfl, rfl, rfl, rfl, rfl⟩
    rw [Session.offered, hmask, hpart, Bool.and_true, if_pos rfl]
    rw [Session.enqueue_room hfull hroom (by simpa using hnew)]

end Sys2Proof.Machine
end

section
/-! PROOFS. Frames of changes of one more group, and what an occurrence after changes elsewhere tells and touches. -/

namespace Sys2Proof.Machine

/-! ### Changes of one group, within any parts that name it -/

section
variable {l : List Part} (s : State)

theorem State.setFault_frame (f : FaultG → FaultG) (h : .fault ∈ l) : s.frame (s.setFault f) l :=
  State.frame_mono (a := [.fault]) (by simp [State.frame_iff, Part.same]) (by simpa using h)

theorem State.setTwin_frame (f : TwinG → TwinG) (h : .twin ∈ l) : s.frame (s.setTwin f) l :=
  State.frame_mono (a := [.twin]) (by simp [State.frame_iff, Part.same]) (by simpa using h)

theorem State.setAudio_frame (f : AudioG → AudioG) (h : .audio ∈ l) : s.frame (s.setAudio f) l :=
  State.frame_mono (a := [.audio]) (by simp [State.frame_iff, Part.same]) (by simpa using h)

theorem State.setPower_frame (f : PowerG → PowerG) (h : .power ∈ l) : s.frame (s.setPower f) l :=
  State.frame_mono (a := [.power]) (by simp [State.frame_iff, Part.same]) (by simpa using h)

theorem State.setSec_frame (f : SecG → SecG) (h : .sec ∈ l) : s.frame (s.setSec f) l :=
  State.frame_mono (a := [.sec]) (by simp [State.frame_iff, Part.same]) (by simpa using h)

theorem State.setEv_frame (f : EvG → EvG) (h : .ev ∈ l) : s.frame (s.setEv f) l :=
  State.frame_mono (a := [.ev]) (by simp [State.frame_iff, Part.same]) (by simpa using h)

theorem State.updSlot_frame (n : Nat) (f : SlotRt → SlotRt) (h : .tarn ∈ l) : s.frame (s.updSlot n f) l := s.setTarn_frame _ h

end

/-! ### An occurrence after changes elsewhere -/

section
variable {s u : State} {l : List Part} (h : s.frame u l) (hl : ∀ p ∈ [Part.ev, .sessions, .mcc, .power], p ∉ l) (ev : Ev) (part obj : Nat)
include h hl

theorem State.raise_after (val : Nat) : s.told (u.raise ev part obj val) ev part obj val ∧
    s.frame (u.raise ev part obj val) (l ++ [.ev, .sessions]) :=
  ⟨State.raise_told_of_frame h hl ev part obj val, State.frame_trans h (u.raise_frame ev part obj val)⟩

theorem State.raiseD_after (c : List Nat) : s.toldD (u.raiseD ev part obj c) ev part obj c ∧
    s.frame (u.raiseD ev part obj c) (l ++ [.ev, .sessions]) :=
  ⟨State.raiseD_told_of_frame h hl ev part obj c, State.frame_trans h (u.raiseD_frame ev part obj c)⟩

end

end Sys2Proof.Machine
end

section
/-! PROOFS. Detections on the Tarn engines (R192, R399, R405, R406): what a detection, the running task that leaves its engine and a failed
task touch; O12. -/

namespace Sys2Proof.Machine

open Fmt

/-! ### What settling a detection is made of -/

section
variable (s : State) (e : Nat)

/-- The running task leaves its engine: that engine only. -/
theorem State.dropTask_setEng (again : Bool) : ∃ x, s.dropTask e again = s.setEng e x := by
  unfold State.dropTask
  dsimp only
  split <;> exact ⟨_, rfl⟩

theorem State.dropTask_frame (again : Bool) : s.frame (s.dropTask e again) [.tarn] := by
  obtain ⟨x, hx⟩ := s.dropTask_setEng e again
  exact hx ▸ s.setEng_frame e x

/-- R405: a recompute of an engine in the present block is counted. -/
def State.recomputing : State :=
  s.setFault (fun f => { f with recomputed := Cells.put 0 f.recomputed e (s.blockNo + 1), recomputes := satInc f.recomputes 1 })

theorem State.recomputing_frame : s.frame (s.recomputing e) [.fault] := s.setFault_frame _ (by decide)

theorem State.settle_engine (fits : Bool) (h : Cells.get 0 s.fault.recomputed e ≠ s.blockNo + 1) :
    s.settle e false fits = ((s.recomputing e).dropTask e true).raise .tarnRecompute 0 e 1 := by
  simp [State.settle, h, State.recomputing]

theorem State.settle_spare (fits : Bool) (h : Cells.get 0 s.fault.recomputed e = s.blockNo + 1) (hswap : s.swapping = none)
    (hfree : s.spareFree e = true) : s.settle e false fits =
      (((s.recomputing e).setFault (fun f => { f with spareBlock := some (s.blockNo, e) })).dropTask e true).raise .tarnRecompute 0 e 2 := by
  have hpre : (s.recomputing e).preempt = s.recomputing e := by
    have hs : (s.recomputing e).swapping = none := hswap
    rw [State.preempt, hs]
  have hfr : (s.recomputing e).spareFree e = true := hfree
  unfold State.settle
  extract_lets used s1 s2
  have h2 : s2 = s.recomputing e := hpre
  have hused : used = true := decide_eq_true h
  rw [if_neg (by simp [hused]), h2, if_pos hfr]

/-- A recompute told after changes of the fault counters and the engines. -/
theorem State.recompute_told {s u : State} {e : Nat} (hu : s.frame u [.fault]) (k : Nat) :
    let t := (u.dropTask e true).raise .tarnRecompute 0 e k
    t.fault = u.fault ∧ s.told t .tarnRecompute 0 e k ∧ s.frame t [.fault, .tarn, .ev, .sessions] := by
  have h := State.frame_trans hu (u.dropTask_frame e true)
  refine ⟨?_, State.raise_after h (by decide) _ _ _ _⟩
  rw [(State.raise_frame _ _ _ _ _ : State.frame _ _ _) .fault (by decide)]
  exact u.dropTask_frame e true .fault (by decide)

end

/-! ### TARN_DETECTION -/

section
variable {s : State} {e cause addr : Nat} {fits : Bool} (he : e < 17) (hon : s.tarnOn = true) (hc : cause < 5)
  (hst : (s.eng e).st = .active ∨ (s.eng e).st = .legacy)
include he hon hc hst

/-- A detection between tasks is settled. -/
theorem execTarnDetection_idle (hcur : (s.eng e).cur = none) :
    exec (.tarnDetection e cause addr false fits) s = .next ((s.detected e).settle e false fits) := by
  show execTarnDetection e cause addr false fits s = _
  have hno : ¬ (17 ≤ e ∨ (!s.tarnOn) = true ∨ 5 ≤ cause ∨ ¬ ((s.eng e).st = .active ∨ (s.eng e).st = .legacy)) := by
    simp [he, hon, hc, hst]
  simp only [execTarnDetection, if_neg hno, hcur]
  rfl

/-- An illegal instruction met again at the same address fails the task (R192). -/
theorem execTarnDetection_illegalAgain {k : Task} (hcur : (s.eng e).cur = some k) (hcause : cause = 4)
    (hslot : (s.slotRt k.inst).cause = some (4, addr)) : exec (.tarnDetection e cause addr false fits) s =
      .next (((s.detected e).dropTask e false).failInstance e k.inst addr 2 (4, addr)) := by
  show execTarnDetection e cause addr false fits s = _
  have hno : ¬ (17 ≤ e ∨ (!s.tarnOn) = true ∨ 5 ≤ cause ∨ ¬ ((s.eng e).st = .active ∨ (s.eng e).st = .legacy)) := by
    simp [he, hon, hc, hst]
  have hs : ((s.detected e).slotRt k.inst).cause = some (4, addr) := hslot
  subst hcause
  simp only [execTarnDetection, if_neg hno, hcur]
  rw [if_pos (by decide), if_pos (.inl hs)]
  rfl

end

/-- R193: a task marked as failed, and counted. -/
def State.instanceFailed (s : State) (n : Nat) (cause : Nat × Nat) : State :=
  (s.updSlot n (fun r => { r with failed := true, cause := some cause })).setFault (fun f => { f with failedTasks := f.failedTasks + 1 })

theorem State.failInstance_eq (s : State) (e n addr code : Nat) (cause : Nat × Nat) : s.failInstance e n addr code cause =
    (s.instanceFailed n cause).raiseD .tarnTaskFailed (s.slotOwner n) e [e, n, (s.slotMod n).1, addr, code] := rfl

theorem State.instanceFailed_frame (s : State) (n : Nat) (cause : Nat × Nat) : s.frame (s.instanceFailed n cause) [.tarn, .fault] :=
  State.frame_next (s.updSlot_frame n _ (by decide)) (State.setFault_frame _ _ (by decide))

theorem State.instanceFailed_slot (s : State) (n : Nat) (cause : Nat × Nat) : ((s.instanceFailed n cause).slotRt n).failed = true := by
  simp [State.instanceFailed, State.slotRt, State.updSlot, Cells.get_upd]

/-- A task that fails is told with its slot's owner and module. -/
theorem State.failInstance_told {s u : State} {l : List Part} (h : s.frame u l)
    (hl : ∀ p ∈ [Part.ev, .sessions, .mcc, .power], p ∉ l) (e n addr code : Nat) (cause : Nat × Nat)
    (howner : u.slotOwner n = s.slotOwner n) (hmod : u.slotMod n = s.slotMod n) :
    let t := u.failInstance e n addr code cause
    t.fault.failedTasks = u.fault.failedTasks + 1 ∧ (t.slotRt n).failed = true ∧
      s.toldD t .tarnTaskFailed (s.slotOwner n) e [e, n, (s.slotMod n).1, addr, code] ∧
      s.frame t (l ++ [.tarn, .fault] ++ [.ev, .sessions]) := by
  intro t
  have ht : t = _ := u.failInstance_eq e n addr code cause
  rw [howner, hmod] at ht
  have hl' : ∀ p ∈ [Part.ev, .sessions, .mcc, .power], p ∉ l ++ [.tarn, .fault] := by simpa using hl
  have hslot := u.instanceFailed_slot n cause
  rw [ht]
  exact ⟨by simp only [State.raiseD_fields]; rfl, by simpa [State.slotRt] using hslot,
    State.raiseD_after (State.frame_trans h (u.instanceFailed_frame n cause)) hl' _ _ _ _⟩

/-- Settles O12: each detection by the settlement it leads to, told over the changes before it. -/
theorem tarnDetectionsAreSettled : Obligations.TarnDetectionsAreSettled := by
  unfold Obligations.TarnDetectionsAreSettled
  intro s e cause addr fits he hon hc hst
  have hd : s.frame (s.detected e) [.fault] := s.setFault_frame _ (by decide)
  refine ⟨fun hcur hnew => ?_, fun hcur hagain hswap hfree => ?_, fun k hcur hcause hslot => ?_⟩
  · have hu := State.frame_next hd (State.recomputing_frame (s.detected e) e)
    obtain ⟨hf, htold, hframe⟩ := State.recompute_told (e := e) hu 1
    refine ⟨_, execTarnDetection_idle he hon hc hst hcur, ?_⟩
    rw [State.settle_engine _ _ _ (by exact hnew)]
    refine ⟨by rw [hf]; rfl, by rw [State.detections, hf]; rfl, htold, hframe⟩
  · have hu : s.frame (((s.detected e).recomputing e).setFault (fun f => { f with spareBlock := some ((s.detected e).blockNo, e) })) [.fault] :=
      State.frame_next (State.frame_next hd (State.setFault_frame _ _ (by decide))) (State.setFault_frame _ _ (by decide))
    obtain ⟨hf, htold, hframe⟩ := State.recompute_told (e := e) hu 2
    refine ⟨_, execTarnDetection_idle he hon hc hst hcur, ?_⟩
    rw [State.settle_spare _ _ _ (by exact hagain) (by exact hswap) (by exact hfree)]
    exact ⟨by rw [hf]; rfl, by rw [hf]; rfl, htold, hframe⟩
  · have hu := State.frame_trans hd ((s.detected e).dropTask_frame e false)
    have hparts : ((s.detected e).dropTask e false).slotOwner k.inst = s.slotOwner k.inst ∧
        ((s.detected e).dropTask e false).slotMod k.inst = s.slotMod k.inst := by
      obtain ⟨y, hy⟩ := (s.detected e).dropTask_setEng e false
      exact hy ▸ ⟨rfl, rfl⟩
    obtain ⟨howner, hmod⟩ := hparts
    obtain ⟨hcount, hfailed, htold, hframe⟩ := State.failInstance_told hu (by decide) e k.inst addr 2 (4, addr) howner hmod
    refine ⟨_, execTarnDetection_illegalAgain he hon hc hst hcur hcause hslot, ?_, hfailed, htold, State.frame_mono hframe (by decide)⟩
    rw [hcount, (State.dropTask_frame _ _ _ : State.frame _ _ _) .fault (by decide)]
    rfl

end Sys2Proof.Machine
end

section
/-! PROOFS. Engines that retire, the spare's self-test, scrub passes and poisoned reads (R402, R407–R410, R443); O13. -/

namespace Sys2Proof.Machine

open Fmt

/-! ### Tasks that move to the spare (R407) -/

section
variable (s : State) {e p : Nat}

/-- No engine swap holds the token, so a fault that needs the spare pre-empts none. -/
theorem State.preempt_none {s : State} (h : s.swapping = none) : s.preempt = s := by
  rw [State.preempt, h]

theorem State.moveTasks_frame (e p : Nat) : s.frame (s.moveTasks e p) [.tarn, .fault] :=
  State.frame_next (State.frame_next (State.frame_mono (s.setEng_frame p _) (by decide)) (State.frame_mono (State.setEng_frame _ e _) (by decide)))
    (State.setFault_frame _ _ (by decide))

/-- The engine that hands its tasks over is retired. -/
theorem State.moveTasks_from (he : e < 17) : (s.moveTasks e p).eng e = { Engine.reset with st := .retired } := by
  show (State.setEng _ e _).eng e = _
  rw [State.eng_setEng _ e e _ he, if_pos rfl]

/-- The engine that takes them has the other's service state and memories. -/
theorem State.moveTasks_to (hp : p < 17) (he : e < 17) (hpe : p ≠ e) : let y := (s.moveTasks e p).eng p
    y.st = (s.eng e).st ∧ y.pMem = (s.eng e).pMem ∧ y.xMem = (s.eng e).xMem ∧ y.yMem = (s.eng e).yMem := by
  intro y
  have hy : y = (State.setEng (s.setEng p _) e _).eng p := rfl
  rw [hy, State.eng_setEng _ e p _ he, if_neg hpe, State.eng_setEng _ p p _ hp, if_pos rfl]
  exact ⟨rfl, rfl, rfl, rfl⟩

theorem State.moveTasks_retired (e p : Nat) : (s.moveTasks e p).fault.retired = s.fault.retired := rfl

end

/-! ### A spare that fails its self-test (R409) -/

/-- A spare that is retired and counted. -/
def State.spareRetired (s : State) (p : Nat) : State :=
  (s.setEng p { Engine.reset with st := .retired }).setFault (fun f => { f with retired := f.retired + 1 })

theorem State.spareRetired_frame (s : State) (p : Nat) : s.frame (s.spareRetired p) [.fault, .tarn] :=
  State.frame_next (State.frame_mono (s.setEng_frame p _) (by decide)) (State.setFault_frame _ _ (by decide))

theorem State.spareRetired_eng (s : State) {p : Nat} (hp : p < 17) : ((s.spareRetired p).eng p).st = .retired := by
  show ((s.setEng p _).eng p).st = _
  rw [State.eng_setEng s p p _ hp, if_pos rfl]

/-- An occurrence leaves the engines. -/
theorem State.eng_raise (s : State) (ev : Ev) (part obj val j : Nat) : (s.raise ev part obj val).eng j = s.eng j := by
  simp [State.eng]

/-! ### TARN_RETIRE, SPARE_SELF_TEST_PASS, TARN_SCRUB_PASS -/

section
variable {s : State} {e p : Nat} (hon : s.tarnOn = true)
include hon

/-- An engine at the threshold with no task left in the block hands over (R407). -/
theorem execTarnRetire_due (he : e < 17) (hst : (s.eng e).st = .active) (hq : (s.eng e).queue = []) (hcur : (s.eng e).cur = none)
    (hdue : Machine.reached s.blockNo (s.detections e) = true) (hswap : s.swapping = none) (hp : s.spare? = some p) :
    exec (.tarnRetire e) s =
      .next (((s.moveTasks e p).raise .tarnRetired 0 e 1).setFault (fun f => { f with retired := f.retired + 1 })) := by
  show execTarnRetire e s = _
  have hno : decide (s.swapping = some e) = false := by simp [hswap]
  have hgo : ¬ (17 ≤ e ∨ (!s.tarnOn) = true ∨ ¬ ((s.eng e).st = .active ∨ (s.eng e).st = .legacy) ∨ (s.eng e).queue ≠ [] ∨ (s.eng e).cur ≠ none ∨
      (!(Machine.reached s.blockNo (s.detections e) || decide (s.swapping = some e))) = true) := by
    simp [he, hon, hst, hq, hcur, hdue]
  unfold execTarnRetire
  dsimp only
  rw [if_neg hgo, hno, if_neg (by decide), State.preempt_none hswap, hp]
  simp only [hdue, if_true, Bool.false_eq_true, if_false]

theorem tarnRetire_retires (he : e < 17) (hlt : p < 17) (hpe : p ≠ e) (hst : (s.eng e).st = .active) (hq : (s.eng e).queue = [])
    (hcur : (s.eng e).cur = none) (hdue : Machine.reached s.blockNo (s.detections e) = true) (hswap : s.swapping = none)
    (hp : s.spare? = some p) :
    ∃ t, exec (.tarnRetire e) s = .next t ∧ (t.eng e).st = .retired ∧ (t.eng p).st = .active ∧ (t.eng p).pMem = (s.eng e).pMem ∧
      (t.eng p).xMem = (s.eng e).xMem ∧ (t.eng p).yMem = (s.eng e).yMem ∧ t.fault.retired = s.fault.retired + 1 ∧
      s.told t .tarnRetired 0 e 1 ∧ s.frame t [.fault, .tarn, .ev, .sessions] := by
  obtain ⟨htold, hframe⟩ := State.raise_after (s.moveTasks_frame e p) (by decide) .tarnRetired 0 e 1
  have heng : ∀ j, (((s.moveTasks e p).raise .tarnRetired 0 e 1).setFault (fun f => { f with retired := f.retired + 1 })).eng j =
      (s.moveTasks e p).eng j := fun j => by simp [State.eng]
  obtain ⟨hact, hpm, hxm, hym⟩ := s.moveTasks_to hlt he hpe
  refine ⟨_, execTarnRetire_due hon he hst hq hcur hdue hswap hp, ?_⟩
  rw [heng, heng, s.moveTasks_from he]
  exact ⟨rfl, hact.trans hst, hpm, hxm, hym, by simp [State.moveTasks_retired], htold,
    State.frame_next (State.frame_mono hframe (by decide)) (State.setFault_frame _ _ (by decide))⟩

/-- R409: the spare's self-test ends, with nothing throttled and the token free. -/
theorem execSpareSelfTestPass_spare (hp : s.spare? = some p) (hpct : s.fault.tarn.pct = 100) (hh : s.fault.holder = none) (ok : Bool) :
    exec (.spareSelfTestPass ok) s = .next (if ok then s.setFault (fun f => { f with spareTests := f.spareTests + 1 })
      else (s.spareRetired p).raise .tarnRetired 0 p 2) := by
  show execSpareSelfTestPass ok s = _
  have hgo : ¬ ((!s.tarnOn) = true ∨ s.fault.tarn.pct < 100 ∨ s.fault.holder.isSome = true) := by simp [hon, hpct, hh]
  rw [execSpareSelfTestPass, hp]
  dsimp only
  rw [if_neg hgo]
  cases ok <;> rfl

theorem spareSelfTestPass_fails (hlt : p < 17) (hp : s.spare? = some p) (hpct : s.fault.tarn.pct = 100) (hh : s.fault.holder = none) :
    ∃ t, exec (.spareSelfTestPass false) s = .next t ∧ (t.eng p).st = .retired ∧ t.fault.retired = s.fault.retired + 1 ∧
      s.told t .tarnRetired 0 p 2 ∧ s.frame t [.fault, .tarn, .ev, .sessions] := by
  refine ⟨(s.spareRetired p).raise .tarnRetired 0 p 2, execSpareSelfTestPass_spare hon hp hpct hh false, ?_, ?_,
    State.raise_after (s.spareRetired_frame p) (by decide) _ _ _ _⟩
  · rw [State.eng_raise, s.spareRetired_eng hlt]
  · simp only [State.raise_fields]
    rfl

theorem execTarnScrubPass_counts (hpct : s.fault.tarn.pct = 100) :
    exec .tarnScrubPass s = .next (s.setFault (fun f => { f with scrubs := f.scrubs + 1 })) := by
  show execTarnScrubPass s = _
  rw [execTarnScrubPass, if_neg (by simp [hon, hpct])]

end

/-! ### POISONED_BLOCK_READ (R410, R443) -/

/-- R443: with no standby the device goes on, marked faulted. -/
theorem State.setAudio_outside {s : State} (h : s.twin.role = .solo) (f : AudioG → AudioG) :
    (s.setAudio f).outside = { s with audio := f s.audio, twin := { s.twin with faulted := true } } := by
  have hrole : (s.setAudio f).twin.role = .solo := h
  rw [State.outside, hrole]
  rfl

/-- Settles O13: each event by the state it leads to; a poisoned read by the buffer it names. -/
theorem enginesRetireAndPoisonReadsAsZero : Obligations.EnginesRetireAndPoisonReadsAsZero := by
  unfold Obligations.EnginesRetireAndPoisonReadsAsZero
  refine ⟨fun s hon => ⟨fun e p he hlt hpe => tarnRetire_retires hon he hlt hpe, fun p hp hpct hh => ⟨?_, fun hlt => ?_⟩, fun hpct => ?_⟩,
    fun s key i hrole => ?_⟩
  · exact ⟨_, execSpareSelfTestPass_spare hon hp hpct hh true, rfl, s.setFault_frame _ (by decide)⟩
  · exact spareSelfTestPass_fails hon hlt hp hpct hh
  · exact ⟨_, execTarnScrubPass_counts hon hpct, rfl, s.setFault_frame _ (by decide)⟩
  · have read : ∀ f : AudioG → AudioG, (s.setAudio f).outside = _ := State.setAudio_outside hrole
    exact ⟨⟨_, rfl, read _⟩, ⟨_, rfl, read _⟩, ⟨_, rfl, read _⟩, ⟨_, rfl, read _⟩, ⟨_, rfl, read _⟩⟩

end Sys2Proof.Machine
end

section
/-! PROOFS. The control cores: rollbacks, checkpoints, restarts and their end (R412, R413); O14. -/

namespace Sys2Proof.Machine

open Fmt

/-! ### Nothing waits for the control cores (R255, R320) -/

theorem NetG.owed_nil {g : NetG} (h : g.owed = []) : { g with owed := [] } = g := by
  cases g
  cases h
  rfl

theorem VcpG.held_nil {g : VcpG} (h : g.held = []) : { g with held := [] } = g := by
  cases g
  cases h
  rfl

/-- Where nothing was held, owed or waiting, the end of a stall lets nothing go. -/
theorem State.release_nothing {s : State} (hh : s.vcp.held = []) (ho : s.net.owed = []) (hw : ∀ c, (s.channel c).wait = none) :
    s.release = s := by
  have hpay : s.payOwed = s := by
    rw [State.payOwed, ho, List.foldl_nil, State.setNet, NetG.owed_nil ho]
  have hhold : s.setVcp (fun v => { v with held := [] }) = s := by rw [State.setVcp, VcpG.held_nil hh]
  rw [State.release, hpay, hh, hhold, List.foldl_nil]
  exact (List.range 8).foldlRecOn (motive := fun t => t = s) _ rfl (fun t ht c _ => by rw [ht, hw c])

/-! ### Restarts (R413) -/

/-- R413: the counters of a restart: the times of the last 60 s, whether it stalls the cores or halts them. -/
def State.restarted (s : State) (halt : Bool) : State :=
  s.setFault (fun f => { f with
    restarts := f.restarts + 1, restartAt := (s.mcc :: s.fault.restartAt).filter (s.within 60), stalled := !halt, halted := halt
    interval := false, rollTimes := [] })

theorem State.restarted_frame (s : State) (halt : Bool) : s.frame (s.restarted halt) [.fault] := s.setFault_frame _ (by decide)

/-- The restarts of the last 60 s, with the present one. -/
theorem State.recentRestarts_length {s : State} (hfs : 0 < s.fs) : ((s.mcc :: s.fault.restartAt).filter (s.within 60)).length =
    (s.fault.restartAt.filter (s.within 60)).length + 1 := by
  have hnow : s.within 60 s.mcc = true := by
    simp only [State.within, decide_eq_true_eq]
    omega
  rw [List.filter_cons_of_pos hnow, List.length_cons]

theorem State.restart_stalls {s : State} (hfs : 0 < s.fs) (h : (s.fault.restartAt.filter (s.within 60)).length < 2) (cause : Nat) :
    s.restart cause = (s.restarted false).raise .ccRestart 0 0 cause := by
  have hno : decide (3 ≤ ((s.mcc :: s.fault.restartAt).filter (s.within 60)).length) = false := by
    rw [State.recentRestarts_length hfs, decide_eq_false_iff_not]
    omega
  rw [State.restart]
  simp only [hno]
  rfl

theorem State.restart_halts {s : State} (hfs : 0 < s.fs) (h : 2 ≤ (s.fault.restartAt.filter (s.within 60)).length) (cause : Nat) :
    s.restart cause = ((s.restarted true).raise .ccRestart 0 0 5).outside := by
  have hyes : decide (3 ≤ ((s.mcc :: s.fault.restartAt).filter (s.within 60)).length) = true := by
    rw [State.recentRestarts_length hfs, decide_eq_true_iff]
    omega
  rw [State.restart]
  simp only [hyes]
  rfl

/-- A restart told: the fault counters, and the event. -/
theorem State.restarted_told (s : State) (halt : Bool) (k : Nat) : let t := (s.restarted halt).raise .ccRestart 0 0 k
    t.fault = (s.restarted halt).fault ∧ s.told t .ccRestart 0 0 k ∧ s.frame t [.fault, .ev, .sessions] :=
  ⟨by simp only [State.raise_fields], State.raise_after (s.restarted_frame halt) (by decide) _ _ _ _⟩

/-- R443: outside the boundary a chip with no standby goes on, marked faulted. -/
theorem State.outside_solo {s : State} (h : s.twin.role = .solo) : s.outside = s.setTwin (fun t => { t with faulted := true }) := by
  rw [State.outside, h]

/-! ### The commands -/

section
variable {s : State} (hr : s.coresRun = true)
include hr

theorem execCcRollback_first (hi : s.fault.interval = false) (a : Nat) : exec (.ccRollback a) s =
    .next ((s.setFault (fun f => { f with
      rollbacks := f.rollbacks + 1, interval := true, rollTimes := (s.mcc :: f.rollTimes).filter (s.within 1) })).raiseD .ccRollback 0 0
        [a % 2 ^ 32]) := by
  show execCcRollback a s = _
  rw [execCcRollback, if_neg (by simp [hr, hi])]

theorem ccRollback_counts (hi : s.fault.interval = false) (a : Nat) : ∃ t, exec (.ccRollback a) s = .next t ∧
    t.fault.rollbacks = s.fault.rollbacks + 1 ∧ t.fault.interval = true ∧ s.toldD t .ccRollback 0 0 [a % 2 ^ 32] ∧
    s.frame t [.fault, .ev, .sessions] :=
  ⟨_, execCcRollback_first hr hi a, by simp, by simp, State.raiseD_after (s.setFault_frame (l := [.fault]) _ (by decide)) (by decide) _ _ _ _⟩

theorem execCcCheckpoint_running : exec .ccCheckpoint s =
    .next (s.setFault (fun f => { f with checkpoint := f.checkpoint + 1, interval := false })) := by
  show execCcCheckpoint s = _
  rw [execCcCheckpoint, if_pos hr]

theorem execCcWatchdogExpiry_running : exec .ccWatchdogExpiry s = .next (s.restart 3) := by
  show execCcWatchdogExpiry s = _
  rw [execCcWatchdogExpiry, if_pos hr]

/-- R413: a second mismatch in the rolled-back interval. -/
theorem execCcRestart_again (hi : s.fault.interval = true) : exec (.ccRestart 1) s = .next (s.restart 1) := by
  show execCcRestart 1 s = _
  rw [execCcRestart, if_pos ⟨hr, .inl ⟨rfl, hi⟩⟩]

end

/-- R413: the third restart within 60 s halts the cores. -/
theorem State.restart_third {s : State} (hfs : 0 < s.fs) (h : 2 ≤ (s.fault.restartAt.filter (s.within 60)).length) (hrole : s.twin.role = .solo)
    (cause : Nat) : (s.restart cause).fault.halted = true ∧ (s.restart cause).fault.stalled = false ∧
      (s.restart cause).twin.faulted = true ∧ s.told (s.restart cause) .ccRestart 0 0 5 ∧
      s.frame (s.restart cause) [.fault, .ev, .sessions, .twin] := by
  obtain ⟨hf, htold, hframe⟩ := s.restarted_told true 5
  have hsolo : ((s.restarted true).raise .ccRestart 0 0 5).twin.role = .solo := by
    simp only [State.raise_fields]
    exact hrole
  rw [State.restart_halts hfs h, State.outside_solo hsolo]
  exact ⟨by simp [State.restarted], by simp [State.restarted], rfl, htold,
    State.frame_trans hframe (State.setTwin_frame (l := [.twin]) _ _ (by decide))⟩

/-- The restart is done, and no firmware slot switch is under way. -/
theorem execCcRestartDone_serves {s : State} (hs : s.fault.stalled = true) (hp : s.fw.pending = none) :
    exec .ccRestartDone s = .next (s.setFault (fun f => { f with stalled := false })).release := by
  show execCcRestartDone s = _
  rw [execCcRestartDone, if_neg (by simp [hs]), hp]

/-- Settles O14: rollback and checkpoint by their counters, a restart by how many came in the last 60 s, its end by what waited. -/
theorem controlCoresRollBackAndRestart : Obligations.ControlCoresRollBackAndRestart := by
  unfold Obligations.ControlCoresRollBackAndRestart
  intro s
  refine ⟨fun hr hi a => ccRollback_counts hr hi a, fun hr => ?_, fun hr h hfs => ⟨?_, fun hi => ?_⟩, fun hr h hfs hrole => ?_, fun hs hp => ?_⟩
  · exact ⟨_, execCcCheckpoint_running hr, rfl, rfl, s.setFault_frame _ (by decide)⟩
  · obtain ⟨hf, htold, hframe⟩ := s.restarted_told false 3
    refine ⟨_, execCcWatchdogExpiry_running hr, ?_⟩
    rw [State.restart_stalls hfs h]
    exact ⟨by rw [hf]; rfl, by rw [hf]; rfl, htold, hframe⟩
  · obtain ⟨hf, htold, hframe⟩ := s.restarted_told false 1
    refine ⟨_, execCcRestart_again hr hi, ?_⟩
    rw [State.restart_stalls hfs h]
    exact ⟨by rw [hf]; rfl, by rw [hf]; rfl, by rw [hf]; rfl, htold, hframe⟩
  · exact ⟨_, execCcWatchdogExpiry_running hr, State.restart_third hfs h hrole 3⟩
  · refine ⟨_, execCcRestartDone_serves hs hp, rfl, fun hh ho hw => ?_⟩
    rw [State.release_nothing (s := s.setFault (fun f => { f with stalled := false })) hh ho hw]
    exact ⟨rfl, s.setFault_frame _ (by decide)⟩

end Sys2Proof.Machine
end

section
/-! PROOFS. Crossings (R392–R396): a port queue that empties, a crossing changed, fenced, flushed and resumed; O16. -/

namespace Sys2Proof.Cells

/-- A read of a store: an entry that it lists, or what an unlisted address reads as. -/
theorem get_mem_or {α : Type} (d : α) (l : Cells α) (k : Nat) : (k, get d l k) ∈ l ∨ get d l k = d := by
  induction l with
  | nil => exact .inr rfl
  | cons c l ih =>
    obtain ⟨a, v⟩ := c
    rw [get]
    split
    · next h => exact .inl (by simp [h])
    · exact ih.imp_left (List.mem_cons_of_mem _)

end Sys2Proof.Cells

namespace Sys2Proof.Machine

open Fmt

/-! ### A master port's queues empty (R376, R393) -/

section
variable (s : State) {m : Nat}

theorem State.setFab_frame (f : FabG → FabG) {l : List Part} (h : .fab ∈ l) (hmem : ((f s.fab).pool, (f s.fab).staging, (f s.fab).dram) =
    (s.fab.pool, s.fab.staging, s.fab.dram)) : s.frame (s.setFab f) l := by
  simp only [Prod.mk.injEq] at hmem
  obtain ⟨hp, hs, hd⟩ := hmem
  exact State.frame_mono (a := [.fab]) (by simp [State.frame_iff, Part.same, hp, hs, hd]) (by simpa using h)

theorem State.flushPort_frame (m : Nat) : s.frame (s.flushPort m) [.fab] := s.setFab_frame _ (by decide) rfl

/-- No transaction of the master waits at any target. -/
theorem State.flushPort_waiting (k : Nat) : ∀ u ∈ Cells.get [] (s.flushPort m).fab.waiting k, u.master ≠ m := by
  rcases Cells.get_mem_or [] (s.flushPort m).fab.waiting k with h | h
  · simp only [State.flushPort, State.setFab_fields, List.mem_filter, List.mem_map, Prod.mk.injEq] at h
    obtain ⟨⟨c, -, -, hc⟩, -⟩ := h
    intro u hu
    simp only [State.flushPort, State.setFab_fields] at hu
    rw [← hc] at hu
    simpa using (List.mem_filter.1 hu).2
  · rw [h]
    simp

/-- None of its writers waits for room. -/
theorem State.flushPort_held {q : Nat} (hq : q % 32 = m) : Cells.get [] (s.flushPort m).fab.held q = [] := by
  rcases Cells.get_mem_or [] (s.flushPort m).fab.held q with h | h
  · exact absurd hq (by simpa using (List.mem_filter.1 h).2)
  · exact h

end

theorem crossingPort_lt {x m : Nat} (h : crossingPort x = some m) : m < 32 := by
  unfold crossingPort at h
  split at h <;> simp at h <;> omega

/-! ### One crossing changed -/

/-- The crossings after one was changed, the fabric's other parts changed besides. -/
theorem FabG.crossing_upd {g h : FabG} {x : Nat} {f : Crossing → Crossing} (hg : h.crossings = Cells.upd Crossing.reset g.crossings x f) :
    h.crossing x = f (g.crossing x) ∧ ∀ y, y ≠ x → h.crossing y = g.crossing y := by
  simp only [FabG.crossing, hg, Cells.get_upd, if_true, true_and]
  intro y hy
  rw [if_neg hy]

section
variable (s : State) (x : Nat)

theorem State.flushCrossing_frame : s.frame (s.flushCrossing x) [.fab] := by
  unfold State.flushCrossing
  split
  · exact s.flushPort_frame _
  · exact s.frame_refl _

theorem State.flushCrossing_fab : (s.flushCrossing x).fab.crossings = s.fab.crossings ∧
    (s.flushCrossing x).fab.cdcTimeout = s.fab.cdcTimeout ∧ (s.flushCrossing x).fab.xrst = s.fab.xrst := by
  unfold State.flushCrossing
  split <;> exact ⟨rfl, rfl, rfl⟩

theorem State.flushCrossing_port {m : Nat} (h : crossingPort x = some m) : s.flushCrossing x = s.flushPort m := by
  rw [State.flushCrossing, h]

/-- R393: a crossing that is fenced until `g` has been reset, its queue empty. -/
def State.fenced (g : ResetName) : State := (s.flushCrossing x).setFab (fun f => { f with
  cdcTimeout := satInc f.cdcTimeout 1
  crossings := Cells.upd Crossing.reset f.crossings x (fun c => { c with fence := some g, pending := 0 }) })

/-- R396: a crossing flushed, which takes the incoming count as its baseline. -/
def State.rebased : State := (s.flushCrossing x).setFab (fun f => { f with
  crossings := Cells.upd Crossing.reset f.crossings x (fun c => { c with pending := 0, published := 0, reflected := 0, last := 0 }) })

/-- R393: a crossing that resumes. -/
def State.unfenced : State := s.setFab (fun f => { f with
  crossings := Cells.upd Crossing.reset f.crossings x (fun c => { c with fence := none }) })

theorem State.fenced_frame (g : ResetName) : s.frame (s.fenced x g) [.fab] :=
  State.frame_next (s.flushCrossing_frame x) (State.setFab_frame _ _ (by decide) rfl)

theorem State.rebased_frame : s.frame (s.rebased x) [.fab] :=
  State.frame_next (s.flushCrossing_frame x) (State.setFab_frame _ _ (by decide) rfl)

theorem State.unfenced_frame : s.frame (s.unfenced x) [.fab] := s.setFab_frame _ (by decide) rfl

/-- EV_XRST after changes of the fabric (R393, R396). -/
theorem State.xrst_after {u : State} (hu : s.frame u [.fab]) : s.told (u.xrst x) .xrst 0 x 0 ∧ s.frame (u.xrst x) [.fab, .ev, .sessions] :=
  State.raise_after (State.frame_next hu (u.setFab_frame _ (by decide) rfl)) (by decide) _ _ _ _

theorem State.xrst_fab : (s.xrst x).fab = { s.fab with xrst := satInc s.fab.xrst 1 } := by simp [State.xrst]

end

/-! ### The commands -/

section
variable {s : State} {x : Nat} (hx : x < 65536)
include hx

/-- CROSSING_CLOCK_STOPPED with the firmware not running: the crossing is fenced, and waits for its group's reset. -/
theorem execCrossingClockStopped_waits {g : ResetName} (hf : (s.fab.crossing x).fence = none) (hs : s.serves = false) :
    exec (.crossingClockStopped x g) s = .next ((s.fenced x g).raise .cdcTimeout 0 x 0) := by
  have hno : ((s.fenced x g).raise .cdcTimeout 0 x 0).serves = false := by
    have hdev : (s.fenced x g).dev = s.dev := s.fenced_frame x g .dev (by decide)
    have hfault : (s.fenced x g).fault = s.fault := s.fenced_frame x g .fault (by decide)
    simpa [State.serves, hdev, hfault] using hs
  show execCrossingClockStopped x g s = _
  rw [execCrossingClockStopped, if_neg (by simp [hf, hx])]
  cases g with
  | part => rfl
  | tarn | mere | net | twin | lone => exact congrArg Host.Outcome.next (if_neg (by simp only [State.fenced] at hno; simp [hno]))

theorem crossingClockStopped_fences (g : ResetName) (hf : (s.fab.crossing x).fence = none) (hs : s.serves = false) :
    ∃ t, exec (.crossingClockStopped x g) s = .next t ∧ (t.fab.crossing x).fence = some g ∧ (t.fab.crossing x).pending = 0 ∧
      (∀ m, crossingPort x = some m → Cells.get [] t.fab.held m = [] ∧ ∀ k, ∀ u ∈ Cells.get [] t.fab.waiting k, u.master ≠ m) ∧
      (∀ y, y ≠ x → t.fab.crossing y = s.fab.crossing y) ∧ t.fab.cdcTimeout = satInc s.fab.cdcTimeout 1 ∧
      s.told t .cdcTimeout 0 x 0 ∧ s.frame t [.fab, .ev, .sessions] := by
  obtain ⟨hcross, htime, -⟩ := s.flushCrossing_fab x
  have hupd : (s.fenced x g).fab.crossings = Cells.upd Crossing.reset s.fab.crossings x (fun c => { c with fence := some g, pending := 0 }) := by
    rw [← hcross]
    rfl
  obtain ⟨hsame, hother⟩ := FabG.crossing_upd hupd
  refine ⟨_, execCrossingClockStopped_waits hx hf hs, ?_⟩
  simp only [State.raise_fields]
  refine ⟨by rw [hsame], by rw [hsame], fun m hm => ?_, hother, ?_, State.raise_after (s.fenced_frame x g) (by decide) _ _ _ _⟩
  · simp only [State.fenced, State.setFab_fields, s.flushCrossing_port x hm]
    exact ⟨s.flushPort_held (Nat.mod_eq_of_lt (crossingPort_lt hm)), s.flushPort_waiting⟩
  · simp only [State.fenced, State.setFab_fields, htime]

theorem execCrossingResetIndication_rebases : exec (.crossingResetIndication x) s = .next ((s.rebased x).xrst x) := by
  show execCrossingResetIndication x s = _
  rw [execCrossingResetIndication, if_neg (Nat.not_le.2 hx)]
  rfl

theorem crossingResetIndication_rebases : ∃ t, exec (.crossingResetIndication x) s = .next t ∧ (t.fab.crossing x).pending = 0 ∧
    (t.fab.crossing x).published = 0 ∧ (t.fab.crossing x).last = 0 ∧ (∀ y, y ≠ x → t.fab.crossing y = s.fab.crossing y) ∧
    t.fab.xrst = satInc s.fab.xrst 1 ∧ s.told t .xrst 0 x 0 ∧ s.frame t [.fab, .ev, .sessions] := by
  obtain ⟨hcross, -, hcount⟩ := s.flushCrossing_fab x
  have hupd : ((s.rebased x).xrst x).fab.crossings =
      Cells.upd Crossing.reset s.fab.crossings x (fun c => { c with pending := 0, published := 0, reflected := 0, last := 0 }) := by
    rw [State.xrst_fab, ← hcross]
    rfl
  obtain ⟨hsame, hother⟩ := FabG.crossing_upd hupd
  refine ⟨_, execCrossingResetIndication_rebases hx, by rw [hsame], by rw [hsame], by rw [hsame], hother, ?_,
    s.xrst_after x (s.rebased_frame x)⟩
  rw [State.xrst_fab]
  exact congrArg (satInc · 1) hcount

end

/-- R393–R395: a lone domain's reset resumes the one crossing fenced on it. -/
theorem resetGroupRequest_resumes {s : State} {x n : Nat}
    (h : s.fab.crossings.filter (fun c => c.2.fence = some (.lone n)) = [(x, s.fab.crossing x)]) :
    ∃ t, exec (.resetGroupRequest (.lone n)) s = .next t ∧ (t.fab.crossing x).fence = none ∧ s.told t .xrst 0 x 0 ∧
      s.frame t [.fab, .ev, .sessions] := by
  have hexec : exec (.resetGroupRequest (.lone n)) s = .next ((s.unfenced x).xrst x) := by
    show Host.Outcome.next (s.resetGroup (.lone n)) = _
    rw [State.resetGroup]
    simp only [h, List.foldl_cons, List.foldl_nil]
    rfl
  have hupd : ((s.unfenced x).xrst x).fab.crossings = Cells.upd Crossing.reset s.fab.crossings x (fun c => { c with fence := none }) := by
    rw [State.xrst_fab]
    rfl
  refine ⟨_, hexec, by rw [(FabG.crossing_upd hupd).1], s.xrst_after x (s.unfenced_frame x)⟩

/-- Settles O16: each event of a crossing by the crossing and the port queue that it leaves. -/
theorem crossingsAreFencedAndResume : Obligations.CrossingsAreFencedAndResume := by
  unfold Obligations.CrossingsAreFencedAndResume
  exact fun s x hx => ⟨fun g hf hs _ => crossingClockStopped_fences hx g hf hs, fun _ => crossingResetIndication_rebases hx,
    fun n _ h => resetGroupRequest_resumes h⟩

end Sys2Proof.Machine
end

section
/-! PROOFS. The fader law of the legacy partition (R462): the bitwise search finds the last number that passes its test, the test is a comparison of
160th powers, and no code falls on a rounding tie; O54. -/

namespace Sys2Proof.Machine

open Fmt

/-! ### The bitwise search -/

/-- What the search finds passes, and the next number does not. -/
theorem searchBits_last {p : Nat → Bool} (k acc : Nat) (h : p acc = true) (hno : p (acc + 2 ^ k) = false) :
    p (searchBits p k acc) = true ∧ p (searchBits p k acc + 1) = false := by
  induction k generalizing acc with
  | zero => exact ⟨h, hno⟩
  | succ k ih =>
    rw [searchBits]
    split
    · next hp => exact ih _ hp (by rwa [add_assoc, ← two_mul, ← pow_succ'])
    · next hp => exact ih _ h (by simpa using hp)

/-! ### The gain that a code stands for -/

/-- The gain of a code before it is rounded, in units of 2^-20. -/
noncomputable def legGain (n : Nat) : ℝ := 2 ^ 20 * (10 : ℝ) ^ (((n : ℝ) - 895) / 160)

/-- The power of 2 in the 160th power of twice the unit 2^20. -/
def legBits : Nat := 21 * 160

/-- The 160th power of an odd number is odd. -/
theorem odd_pow_ne_two_pow_mul (k m : ℤ) {e : Nat} (he : e ≠ 0) : (2 * k - 1) ^ 160 ≠ 2 ^ e * m := by
  intro h
  have heven : Even ((2 * k - 1) ^ 160) := h ▸ (even_two.pow_of_ne_zero he).mul_right m
  exact absurd heven (Int.not_even_iff_odd.2 (Odd.pow ⟨k - 1, by ring⟩))

/-- No multiple of 10 is a power of 2. -/
theorem mul_ten_pow_ne_two_pow (a : ℤ) {d e : Nat} (hd : d ≠ 0) : a * 10 ^ d ≠ 2 ^ e := by
  intro h
  have h5 : (5 : ℤ) ∣ 2 ^ e := h ▸ ((by norm_num : (5 : ℤ) ∣ 10).trans (dvd_pow_self _ hd)).mul_left a
  exact absurd ((by norm_num : Prime (5 : ℤ)).dvd_of_dvd_pow h5) (by norm_num)

section
variable (n : Nat)

theorem legGain_pos : 0 < legGain n := by unfold legGain; positivity

/-- The 160th power of twice the gain: a power of 10 to an integer exponent. -/
theorem legGain_pow : (2 * legGain n) ^ 160 = 2 ^ legBits * (10 : ℝ) ^ ((n : ℤ) - 895) := by
  have hroot : ((10 : ℝ) ^ (((n : ℝ) - 895) / 160)) ^ 160 = (10 : ℝ) ^ ((n : ℤ) - 895) := by
    rw [← Real.rpow_natCast, ← Real.rpow_mul (by norm_num), ← Real.rpow_intCast]
    congr 1
    push_cast
    ring
  rw [legGain, ← mul_assoc, ← pow_succ', mul_pow, hroot, ← pow_mul, legBits]

/-- From code 895 up the power of 10 stands on the right. -/
theorem legGain_pow_up (h : 895 ≤ n) : (2 * legGain n) ^ 160 = 2 ^ legBits * 10 ^ (n - 895) := by
  rw [legGain_pow, ← zpow_natCast (10 : ℝ) (n - 895), Nat.cast_sub h]
  rfl

/-- Below code 895 it stands on the left. -/
theorem legGain_pow_down (h : n < 895) : (2 * legGain n) ^ 160 * 10 ^ (895 - n) = 2 ^ legBits := by
  rw [legGain_pow, mul_assoc, ← zpow_natCast (10 : ℝ) (895 - n), ← zpow_add₀ (by norm_num), Nat.cast_sub h.le]
  simp

/-- R462: the level of a code in dB. -/
theorem legGain_level : 20 * Real.logb 10 (legGain n / 2 ^ 20) = ((n : ℝ) - 895) / 8 := by
  rw [legGain, mul_div_cancel_left₀ _ (by positivity), Real.logb_rpow (by norm_num) (by norm_num)]
  ring

/-- Every code's gain lies below 2^23. -/
theorem legGain_lt (h : n ≤ 1023) : legGain n + 1 / 2 < 2 ^ 23 := by
  have hexp : ((n : ℝ) - 895) / 160 ≤ 4 / 5 := by
    have : (n : ℝ) ≤ 1023 := by exact_mod_cast h
    linarith
  have hseven : (10 : ℝ) ^ (4 / 5 : ℝ) ≤ 7 := by
    rw [← Real.rpow_le_rpow_iff (by positivity) (by norm_num) (by norm_num : (0 : ℝ) < 5), ← Real.rpow_mul (by norm_num)]
    norm_num
  have hle : (10 : ℝ) ^ (((n : ℝ) - 895) / 160) ≤ 7 := (Real.rpow_le_rpow_of_exponent_le (by norm_num) hexp).trans hseven
  rw [legGain]
  linarith

/-! ### The test of the search -/

/-- The test of R462's search, as `legLaw` writes it. -/
def legTest (n v : Nat) : Bool :=
  if 895 ≤ n then decide ((2 * v - 1) ^ 160 ≤ 2 ^ legBits * 10 ^ (n - 895))
  else decide ((2 * v - 1) ^ 160 * 10 ^ (895 - n) ≤ 2 ^ legBits)

theorem legLaw_eq (h : 1 ≤ n) : legLaw n = (searchBits (legTest n) 23 0 : Nat) := by
  unfold legLaw legTest legBits
  rw [if_neg (by omega)]

/-- The test compares with the gain to be rounded. -/
theorem legTest_iff (v : Nat) : legTest n v = true ↔ (v : ℝ) ≤ legGain n + 1 / 2 := by
  have hpos := legGain_pos n
  have hpow : legTest n v = true ↔ ((2 * v - 1 : Nat) : ℝ) ^ 160 ≤ (2 * legGain n) ^ 160 := by
    unfold legTest
    split
    · next h =>
      rw [decide_eq_true_iff, legGain_pow_up n h]
      exact_mod_cast Iff.rfl
    · next h =>
      rw [decide_eq_true_iff, ← mul_le_mul_iff_of_pos_right (by positivity : (0 : ℝ) < 10 ^ (895 - n)), legGain_pow_down n (by omega)]
      exact_mod_cast Iff.rfl
  rw [hpow, pow_le_pow_iff_left₀ (by positivity) (by positivity) (by norm_num)]
  cases v with
  | zero => simpa using by constructor <;> intro <;> linarith
  | succ v =>
    rw [show 2 * (v + 1) - 1 = 2 * v + 1 by omega]
    push_cast
    constructor <;> intro <;> linarith

/-- R462: the law is the gain plus a half, rounded down. -/
theorem legLaw_floor (h1 : 1 ≤ n) (h : n ≤ 1023) : legLaw n = ⌊legGain n + 1 / 2⌋ := by
  have hpos := legGain_pos n
  obtain ⟨hlow, hhigh⟩ := searchBits_last 23 0 ((legTest_iff n 0).2 (by push_cast; linarith))
    (by rw [Bool.eq_false_iff, Ne, legTest_iff]; push_cast; linarith [legGain_lt n h])
  rw [legLaw_eq n h1, eq_comm, Int.floor_eq_iff]
  rw [legTest_iff] at hlow
  rw [Bool.eq_false_iff, Ne, legTest_iff, not_le] at hhigh
  push_cast at hlow hhigh ⊢
  exact ⟨hlow, hhigh⟩

/-- No code falls on a tie: twice its gain would be odd. -/
theorem legGain_no_tie (k : ℤ) : legGain n + 1 / 2 ≠ k := by
  intro h
  have hodd : 2 * legGain n = ((2 * k - 1 : ℤ) : ℝ) := by push_cast; linarith
  by_cases hn : 895 ≤ n
  · have hp := legGain_pow_up n hn
    rw [hodd] at hp
    have hz : (2 * k - 1) ^ 160 = 2 ^ legBits * 10 ^ (n - 895) := by exact_mod_cast hp
    exact odd_pow_ne_two_pow_mul k _ (by decide) hz
  · have hp := legGain_pow_down n (by omega)
    rw [hodd] at hp
    have hz : (2 * k - 1) ^ 160 * 10 ^ (895 - n) = 2 ^ legBits := by exact_mod_cast hp
    exact mul_ten_pow_ne_two_pow _ (by omega) hz

end

/-- Settles O54: rounding by what the search finds, the level by the logarithm, the values of two codes by the search itself. -/
theorem legacyFaderLaw : Obligations.LegacyFaderLaw := by
  unfold Obligations.LegacyFaderLaw
  exact ⟨rfl, fun n h1 h => ⟨legLaw_floor n h1 h, legGain_level n, legGain_no_tie n⟩, by decide +kernel, by decide +kernel, by norm_num,
    by norm_num, by norm_num⟩

end Sys2Proof.Machine
end

section
/-! PROOFS. The boot loader on a flash slot (R342–R344, R348): a header accepted or refused, DRAM training; O2. -/

namespace Sys2Proof.Machine

open Fmt

/-- While a command of the loader is awaited at stage 0x02 nothing follows by itself. -/
theorem State.bootReady_reads {s : State} (h2 : s.boot.stage = 0x02) : s.bootReady = s := State.bootReady_waits (by simp [h2])

/-! ### What becomes of a slot -/

section
variable {s : State} {b : Bool} {h : Option (List Nat)}

theorem State.slotHeader_accepted (he : s.headerError h = 0) :
    s.slotHeader b h = s.setBoot (fun g => { g with stage := 0x03, header := h.map imageOf, feed := .slot b, slotUsed := b }) := by
  simp only [State.slotHeader, he, ne_eq, not_true_eq_false, if_false]

theorem State.slotHeader_refused (he : s.headerError h ≠ 0) : s.slotHeader b h = s.slotFails b (s.headerError h) := if_pos he

/-- R343: the first slot that fails hands over to the other. -/
theorem State.slotFails_first (hf : s.boot.fallback = false) (e : Nat) : s.slotFails b e = s.setBoot (fun g => { g with
    stage := 0x02, error := e, fallback := true, failed := e, feed := .slot (!b), slotUsed := !b, header := none }) := by
  rw [State.slotFails, hf]
  rfl

/-- R344: when both have failed an image over PCIe is waited for. -/
theorem State.slotFails_both (hf : s.boot.fallback = true) (e : Nat) : s.slotFails b e = s.waitImage e := if_pos hf

/-- R343: a slot written outside the model reads as the command says. -/
theorem State.slotRead_unknown (hk : (s.fw.slot (b2n b)).known = false) : s.slotRead b h = h := by simp [State.slotRead, hk]

end

/-! ### The commands -/

section
variable {s : State} (hd : s.dev = .boot) (h2 : s.boot.stage = 0x02) (hx : s.power.straps.reserved = false)
include hd h2 hx

/-- IMAGE_HEADER_READ of the slot that has been chosen. -/
theorem execImageHeaderRead_chosen {b : Bool} (hfeed : s.boot.feed = .slot b) (hc : s.boot.chosen = true) (h : Option (List Nat)) :
    exec (.imageHeaderRead h) s = .next (s.slotHeader b (s.slotRead b h)) := by
  show execImageHeaderRead h s = _
  rw [execImageHeaderRead, State.bootReady_reads h2]
  simp only [hd, h2, hx, ne_eq, not_true_eq_false, Bool.false_eq_true, or_self, if_false, hfeed, hc, if_true]

theorem execDramTrainingDone_first (hn : s.boot.dram = none) (ok : Bool) : exec (.dramTrainingDone ok) s =
    .next ((s.setBoot (fun b => { b with
      dram := some ok, error := if ok then b.error else 0x0A, stage := if b.stage = 0x03 then 0x04 else b.stage })).setPower
        (fun p => { p with domains := setBit p.domains 0 ok })) := by
  show execDramTrainingDone ok s = _
  rw [execDramTrainingDone, State.bootReady_reads h2]
  simp only [hd, hx, hn, Option.isSome_none, ne_eq, not_true_eq_false, Bool.false_eq_true, or_self, if_false]

end

/-- Settles O2: each header by what becomes of its slot. -/
theorem bootLoaderReadsHeaders : Obligations.BootLoaderReadsHeaders := by
  unfold Obligations.BootLoaderReadsHeaders
  intro s h b hd h2 hx hfeed hc
  have hexec := execImageHeaderRead_chosen hd h2 hx hfeed hc h
  refine ⟨fun he => ?_, fun he hf => ?_, fun he hf => ?_, State.slotRead_unknown, fun hn ok => ?_⟩
  · rw [State.slotHeader_accepted he] at hexec
    exact ⟨_, hexec, rfl, rfl, rfl, s.setBoot_frame _ (by decide)⟩
  · rw [State.slotHeader_refused he, State.slotFails_first hf] at hexec
    exact ⟨_, hexec, rfl, rfl, rfl, rfl, s.setBoot_frame _ (by decide)⟩
  · rw [State.slotHeader_refused he, State.slotFails_both hf] at hexec
    exact ⟨_, hexec, rfl, rfl, rfl, s.setBoot_frame _ (by decide)⟩
  · refine ⟨_, execDramTrainingDone_first hd h2 hx hn ok, rfl, rfl, fun hok => ?_,
      State.frame_next (s.setBoot_frame _ (by decide)) (State.setPower_frame _ _ (by decide))⟩
    subst hok
    rfl

end Sys2Proof.Machine
end

section
/-! PROOFS. Images accepted or refused (R342–R346, R348): from a flash slot, over PCIe, from the twin; O3. -/

namespace Sys2Proof.Machine
open Fmt

/-! ### xin stays as the clock unit moves (R285–R299), and no session appears -/

/-- xin stays, and without a session there is none after. -/
structure State.Steady (s t : State) : Prop where
  xin : t.cku.xin = s.cku.xin
  silent : s.vcp.sessions = [] → t.vcp.sessions = []

theorem State.raiseTo_silent (s : State) (only : Session → Bool) (ev : Ev) (part obj val : Nat) (c : Option (List Nat))
    (h : s.vcp.sessions = []) : (s.raiseTo only ev part obj val c).vcp.sessions = [] := by
  have hafter : ∀ id d m a, Machine.offer only id part d m a s.vcp.sessions = [] := fun id d m a => by rw [h]; rfl
  unfold State.raiseTo
  extract_lets
  split <;> exact hafter _ _ _ _

namespace State.Steady

variable {s t u : State}

theorem refl (s : State) : s.Steady s := ⟨rfl, id⟩

theorem trans (h : s.Steady t) (k : t.Steady u) : s.Steady u := ⟨k.xin.trans h.xin, k.silent ∘ h.silent⟩

theorem ite {p : Prop} [Decidable p] (h : s.Steady t) (k : s.Steady u) : s.Steady (if p then t else u) := by
  split
  · exact h
  · exact k

theorem foldl {α : Type} {f : State → α → State} (hf : ∀ (u : State) a, u.Steady (f u a)) (xs : List α) (h : s.Steady t) :
    s.Steady (xs.foldl f t) :=
  xs.foldlRecOn (motive := fun v => s.Steady v) f h (fun v hv a _ => hv.trans (hf v a))

/-- A change of neither the clock unit nor the sessions. -/
theorem of_frame (h : s.Steady t) {l : List Part} (hf : t.frame u l) (hc : .cku ∉ l) (hs : .sessions ∉ l) : s.Steady u :=
  h.trans ⟨congrArg CkuG.xin (hf .cku hc), (hf .sessions hs).trans⟩

theorem setCku (h : s.Steady t) (f : CkuG → CkuG) (hf : (f t.cku).xin = t.cku.xin) : s.Steady (t.setCku f) := h.trans ⟨hf, id⟩

theorem setNet (h : s.Steady t) (f : NetG → NetG) : s.Steady (t.setNet f) := h.trans ⟨rfl, id⟩

theorem raise (h : s.Steady t) (ev : Ev) (part obj val : Nat) : s.Steady (t.raise ev part obj val) :=
  h.trans ⟨congrArg CkuG.xin (t.raise_frame ev part obj val .cku (by decide)), t.raiseTo_silent _ _ _ _ _ _⟩

theorem raiseD (h : s.Steady t) (ev : Ev) (part obj : Nat) (c : List Nat) : s.Steady (t.raiseD ev part obj c) :=
  h.trans ⟨congrArg CkuG.xin (t.raiseD_frame ev part obj c .cku (by decide)), t.raiseTo_silent _ _ _ _ _ _⟩

theorem maintEnd (h : s.Steady t) : s.Steady t.maintEnd := by
  unfold State.maintEnd
  split
  · exact h
  · exact (h.trans ⟨rfl, id⟩ : s.Steady (t.setFault _)).raise _ _ _ _

theorem calAbort (h : s.Steady t) : s.Steady t.calAbort := by
  unfold State.calAbort
  split
  · exact h
  · have h1 := (h.setCku (fun c => { c with cal := none }) rfl).raise .ckuCal 0 0 2
    exact h1.maintEnd.ite h1

theorem unalign (h : s.Steady t) : s.Steady t.unalign := h.ite ((h.setNet _).raise _ _ _ _)

theorem takeUp (h : s.Steady t) (k : Nat) : s.Steady (t.takeUp k) := ((h.setCku _ rfl).setNet _).ite (h.setCku _ rfl)

theorem sapOrigins (h : s.Steady t) : s.Steady t.sapOrigins := by
  have sap : ∀ (u : State) (i : Nat), u.Steady (u.sapOrigin (i / 2) (decide (i % 2 = 1))) := fun u i => by
    have h1 := fun d => (refl u).of_frame (u.setSap_frame (i / 2) (decide (i % 2 = 1)) d (List.mem_singleton.2 rfl)) (by decide) (by decide)
    exact (((h1 _).raise _ _ _ _).ite (h1 _)).ite (refl u)
  have madi : ∀ (u : State) (p : Nat), u.Steady (u.madiOrigin p) := fun u p =>
    ((refl u).of_frame (u.setMadi_frame p false _ (List.mem_singleton.2 rfl)) (by decide) (by decide)).ite (refl u)
  exact foldl madi _ (foldl sap _ h)

theorem switchTo (h : s.Steady t) (new cause : Nat) : s.Steady (t.switchTo new cause) := by
  unfold State.switchTo
  extract_lets old s1 s2 s3 s4
  have h2 : s.Steady s2 := (h.calAbort.setCku _ rfl).raiseD _ _ _ _
  have h3 : s.Steady s3 := h2.unalign.ite h2
  exact h.ite (State.Steady.sapOrigins (h3.ite (h3.takeUp new)))

theorem enterHoldover (h : s.Steady t) : s.Steady t.enterHoldover := by
  unfold State.enterHoldover
  extract_lets f s1
  have h1 : s.Steady s1 := (h.setCku _ rfl).raise _ _ _ _
  exact (h.setCku _ rfl).ite (((h1.setCku _ rfl).raise _ _ _ _).ite h1)

theorem disagreements (h : s.Steady t) : s.Steady t.disagreements :=
  h.ite (foldl (fun u _ => ((refl u).setCku _ rfl).ite ((refl u).ite (((refl u).setCku _ rfl).raise _ _ _ _))) _ h)

theorem evaluate (h : s.Steady t) : s.Steady t.evaluate := by
  have h1 : s.Steady (t.switchTo t.select t.switchCause) := h.switchTo _ _
  exact h.ite ((h1.enterHoldover.ite h1).disagreements.setCku _ rfl)

theorem loseRef (h : s.Steady t) (k : Nat) : s.Steady (t.loseRef k) := by
  unfold State.loseRef
  split
  · exact h
  · exact h
  · exact (h.setCku _ rfl).raise _ _ _ _

theorem ckuMode (h : s.Steady t) (old new : Nat) : s.Steady (t.ckuMode old new) := by
  unfold State.ckuMode
  extract_lets s1 s2 s3 s4
  have h2 : s.Steady s2 := (h.calAbort.setCku _ rfl).raiseD _ _ _ _
  have h3 : s.Steady s3 := h.calAbort.setCku _ rfl
  have h4 : s.Steady s4 := h3.ite (h3.raiseD _ _ _ _)
  exact h.ite ((h2.unalign.ite h2).sapOrigins.ite ((h4.unalign.ite h4).sapOrigins.ite (h.setCku _ rfl)))

theorem ckuTrim (h : s.Steady t) : s.Steady t.ckuTrim := by
  unfold State.ckuTrim
  split
  · exact h.setCku _ rfl
  · exact h.setCku _ rfl
  · exact h

theorem refreshRef (h : s.Steady t) (old : State) (k : Nat) : s.Steady (t.refreshRef old k) := h.ite (h.setCku _ rfl)

end State.Steady

section
variable (s : State)

/-! ### What the set-up of the clocks leaves (R303, R347) -/

/-- What orders 6 and 7 may touch beside the boot group: not the device's state, the MCC, the secure block, the firmware or the power. -/
def clockSetup : List Part := [.params, .cku, .net, .fault, .ports, .ev, .sessions]

theorem State.evaluate_frame : s.frame s.evaluate clockSetup :=
  State.frame_mono (State.Retuned.refl s).evaluate.frame (by decide)

theorem State.ckuMode_frame (old new : Nat) : s.frame (s.ckuMode old new) clockSetup :=
  State.frame_mono ((State.Retuned.refl s).ckuMode old new).frame (by decide)

theorem State.ckuTrim_frame : s.frame s.ckuTrim clockSetup := by
  unfold State.ckuTrim
  split
  · exact s.setCku_frame _ (by decide)
  · exact s.setCku_frame _ (by decide)
  · exact s.frame_refl _

theorem State.refreshRef_frame (old : State) (k : Nat) : s.frame (s.refreshRef old k) clockSetup :=
  State.frame_ite (s.frame_refl _) (s.setCku_frame _ (by decide))

theorem State.putEntries_params (es : List Entry) : s.frame (s.putEntries es) [.params] :=
  State.frame_foldl (fun u e => u.setVal_frame _ _ (by decide)) es s

/-- The clock set-up: the parameters, the clock unit and what follows its selection; xin stays. -/
theorem State.applyClocks_after (sec : List Nat) : s.frame (s.applyClocks sec) clockSetup ∧ s.Steady (s.applyClocks sec) := by
  unfold State.applyClocks
  extract_lets bare s1 s2 s3 s4
  have h0 : s.frame bare [.params] := by simp [bare, State.frame_iff, Part.same]
  have h1 : s.frame s1 [.params] := State.frame_next h0 (bare.putEntries_params _)
  have h2 : s1.frame s2 clockSetup := State.frame_foldl (fun u k => u.refreshRef_frame s k) _ s1
  have h3 : s2.frame s3 clockSetup := State.frame_ite s2.evaluate_frame (s2.frame_refl _)
  have h4 : s.frame s4 clockSetup := State.frame_next (State.frame_next (State.frame_next (State.frame_mono h1 (by decide)) h2) h3)
    (s3.ckuMode_frame _ _)
  have k2 : s.Steady s2 := .foldl (fun u k => (State.Steady.refl u).refreshRef s k) _ ((State.Steady.refl s).of_frame h1 (by decide) (by decide))
  have k4 : s.Steady s4 := (k2.evaluate.ite k2).ckuMode _ _
  exact ⟨State.frame_ite h4 (State.frame_next h4 s4.ckuTrim_frame), k4.ite k4.ckuTrim⟩

theorem State.seedDither_frame (seed : Nat) : s.frame (s.seedDither seed) [.audio] :=
  State.frame_foldl (fun u _ => u.setAudio_frame _ (by decide)) _ s

/-- The seed comes from a free value and goes into the generators (R69). -/
theorem State.drawSeed_frame : s.frame s.drawSeed [.free, .twin, .audio, .spring] := by
  unfold State.drawSeed
  have h1 := s.takeFree_frame (l := [.free, .twin, .audio, .spring]) (by decide)
  have h2 := State.frame_next h1 (State.setTwin_frame s.takeFree.2 (fun t => { t with seed := Config.freeBits 32 s.takeFree.1 % 2 ^ 32 }) (by decide))
  exact State.frame_next (State.frame_next h2 (State.frame_mono (State.seedDither_frame _ _) (by decide)))
    (State.setSpring_frame_mem _ _ (by decide))

theorem State.returnErase_frame : s.frame s.returnErase [.mstore] := State.frame_ite (s.setStore_frame _) (s.frame_refl _)

/-- Order 6: beside what `imageApplied` names, the set-up of the clocks, the seeds and the scene area change (R347, R348, R356). -/
theorem State.applyImage_applied (i : Image) (secs : List (List Nat)) (slot : Option Nat) :
    s.imageApplied (s.applyImage i secs slot) i slot := by
  unfold State.applyImage
  extract_lets sec s1 fw s2 s3
  obtain ⟨hclocks, hsteady⟩ := s3.applyClocks_after (sec 4)
  have htail := State.frame_trans (s3.applyClocks (sec 4)).drawSeed_frame (State.returnErase_frame _)
  have hf := State.frame_trans hclocks htail
  obtain ⟨hversion, hinUse, -⟩ := hf .fw (by decide)
  have hboot := hf .boot (by decide)
  refine ⟨hf .dev (by decide), hf .mcc (by decide), hf .sec (by decide), congrArg BootG.stage hboot, congrArg BootG.image hboot,
    congrArg BootG.header hboot, congrArg BootG.waitPcie hboot, hversion, hinUse, congrArg PowerG.domains (hf .power (by decide)), ?_⟩
  exact (congrArg CkuG.xin (htail .cku (by decide))).trans hsteady.xin

theorem State.updChannel_frame (c : Nat) (f : Channel → Channel) : s.frame (s.updChannel c f) [.vcp] := by
  simp [State.frame_iff, Part.same, State.updChannel]

theorem State.channel_updChannel (c : Nat) (f : Channel → Channel) : (s.updChannel c f).channel c = f (s.channel c) := by
  simp [State.channel, State.updChannel, Cells.get_upd]

end

/-! ### The commands (R342–R346) -/

/-- The state in which a part of an image over PCIe is judged. -/
def State.pcieFed (s : State) : State :=
  (s.updChannel 0 (fun c => { c with overrun := false })).setBoot (fun b => { b with feed := .pcie })

theorem State.pcieFed_frame (s : State) : s.frame s.pcieFed [.boot, .vcp] :=
  State.frame_next (State.frame_mono (s.updChannel_frame 0 _) (by decide)) (State.setBoot_frame _ _ (by decide))

theorem State.pcieFails_after (s : State) (e : Nat) : (s.pcieFails e).boot.fed = [] ∧ (s.pcieFails e).boot.error = e ∧
    (s.pcieFails e).boot.waitPcie = true ∧ (s.pcieFails e).boot.stage = 0x0F ∧ ((s.pcieFails e).channel 0).overrun = true ∧
    s.frame (s.pcieFails e) [.boot, .vcp] :=
  ⟨rfl, rfl, rfl, rfl, congrArg Channel.overrun (s.channel_updChannel 0 _),
    State.frame_next (State.frame_mono (s.updChannel_frame 0 _) (by decide)) (State.setBoot_frame _ _ (by decide))⟩

theorem State.fedImage_accepted {s : State} {bytes : List Nat} (he : s.imageError bytes = 0) :
    s.imageApplied (s.fedImage bytes) (imageOf bytes) none := by
  rw [State.fedImage, if_neg (not_not.2 he)]
  exact s.applyImage_applied _ _ _

section
variable {s : State} (hd : s.dev = .boot)
include hd

theorem execImageSectionsRead_judged {b : Bool} {i : Image} (hfeed : s.boot.feed = .slot b) (hh : s.boot.header = some i)
    (secs : List (List Nat)) : exec (.imageSectionsRead secs) s = .next (if s.sectionsError i (s.slotSections b i secs) ≠ 0 then
      s.slotFails b (s.sectionsError i (s.slotSections b i secs)) else s.applyImage i (s.slotSections b i secs) (some (b2n b))) := by
  show execImageSectionsRead secs s = _
  rw [execImageSectionsRead, hd, hfeed, hh]

theorem execPcieImageChunk_part (hw : s.boot.waitPcie = true) (hst : s.boot.stage = 0x0F) {bytes : List Nat} (hb : bytes ≠ []) :
    exec (.pcieImageChunk bytes) s = .next (if s.arrivalError (s.boot.fed ++ bytes.take 98304) ≠ 0 then
      s.pcieFed.pcieFails (s.arrivalError (s.boot.fed ++ bytes.take 98304))
      else s.pcieFed.setBoot (fun b => { b with fed := s.boot.fed ++ bytes.take 98304 })) := by
  have hready : s.bootReady = s := State.bootReady_waits (by simp [hst])
  show execPcieImageChunk bytes s = _
  rw [execPcieImageChunk, hready]
  simp only [hd, hw, ne_eq, not_true_eq_false, Bool.not_true, Bool.false_eq_true, or_self, if_false, List.isEmpty_iff, hb, State.pcieFed]

theorem execPcieImageChunk_end (hw : s.boot.waitPcie = true) (hst : s.boot.stage = 0x0F) : exec (.pcieImageChunk []) s =
    .next (if s.imageError s.boot.fed ≠ 0 then s.pcieFed.pcieFails (s.imageError s.boot.fed) else s.pcieFed.fedImage s.boot.fed) := by
  have hready : s.bootReady = s := State.bootReady_waits (by simp [hst])
  show execPcieImageChunk [] s = _
  rw [execPcieImageChunk, hready]
  simp only [hd, hw, ne_eq, not_true_eq_false, Bool.not_true, Bool.false_eq_true, or_self, if_false, List.isEmpty_nil, if_true,
    State.pcieFed]

theorem execTwinImageReceived_awaited (hst : s.boot.stage = 0x10) (bytes : Option (List Nat)) : exec (.twinImageReceived bytes) s =
    .next (match bytes with
      | none => s.waitImage 0x01
      | some b => s.fedImage b) := by
  have hready : s.bootReady = s := State.bootReady_waits (by simp [hst])
  show execTwinImageReceived bytes s = _
  cases bytes <;> simp only [execTwinImageReceived, hready, hd, hst, ne_eq, not_true_eq_false, or_self, if_false]

end

/-- Settles O3: each way an image comes, by whether its conditions hold. -/
theorem imagesAreAcceptedOrRefused : Obligations.ImagesAreAcceptedOrRefused := by
  unfold Obligations.ImagesAreAcceptedOrRefused
  intro s hd
  refine ⟨fun b i secs hfeed hh => ⟨fun he => ?_, fun he => ?_⟩, fun hw hst bytes hb => ⟨fun he => ?_, fun he => ?_⟩,
    fun hw hst => ⟨fun he => ?_, fun he => ?_⟩, fun hst => ⟨?_, fun bytes he => ?_, fun bytes he => ?_⟩⟩
  · exact ⟨_, (execImageSectionsRead_judged hd hfeed hh secs).trans (congrArg _ (if_neg (not_not.2 he))), rfl, s.applyImage_applied _ _ _⟩
  · have hexec := (execImageSectionsRead_judged hd hfeed hh secs).trans (congrArg _ (if_pos he))
    cases hf : s.boot.fallback with
    | false =>
      rw [State.slotFails_first hf] at hexec
      exact ⟨_, hexec, rfl, rfl, rfl, fun _ => ⟨rfl, rfl⟩, nofun, s.setBoot_frame _ (by decide)⟩
    | true =>
      rw [State.slotFails_both hf] at hexec
      exact ⟨_, hexec, rfl, rfl, rfl, nofun, fun _ => rfl, s.setBoot_frame _ (by decide)⟩
  · exact ⟨_, (execPcieImageChunk_part hd hw hst hb).trans (congrArg _ (if_neg (not_not.2 he))), rfl, rfl,
      congrArg Channel.overrun (s.channel_updChannel 0 _), State.frame_next s.pcieFed_frame (State.setBoot_frame _ _ (by decide))⟩
  · obtain ⟨hfed, herr, hwait, hstage, hover, hframe⟩ := s.pcieFed.pcieFails_after (s.arrivalError (s.boot.fed ++ bytes.take 98304))
    exact ⟨_, (execPcieImageChunk_part hd hw hst hb).trans (congrArg _ (if_pos he)), hfed, herr, hwait, hstage, hover,
      State.frame_next s.pcieFed_frame hframe⟩
  · exact ⟨_, (execPcieImageChunk_end hd hw hst).trans (congrArg _ (if_neg (not_not.2 he))),
      State.fedImage_accepted (s := s.pcieFed) he⟩
  · obtain ⟨hfed, herr, hwait, hstage, hover, hframe⟩ := s.pcieFed.pcieFails_after (s.imageError s.boot.fed)
    exact ⟨_, (execPcieImageChunk_end hd hw hst).trans (congrArg _ (if_pos he)), hfed, herr, hwait, hstage, hover,
      State.frame_next s.pcieFed_frame hframe⟩
  · exact ⟨_, execTwinImageReceived_awaited hd hst none, rfl, rfl, rfl, s.setBoot_frame _ (by decide)⟩
  · exact ⟨_, execTwinImageReceived_awaited hd hst (some bytes), State.fedImage_accepted he⟩
  · exact ⟨_, (execTwinImageReceived_awaited hd hst (some bytes)).trans (congrArg _ (if_pos he)), rfl, rfl, rfl,
      s.setBoot_frame _ (by decide)⟩

end Sys2Proof.Machine
end

section
/-! PROOFS. Order 7 follows by itself, and the start scene's set is opened, checked and scheduled (R348, R350); O4. -/

namespace Sys2Proof.Machine

open Fmt

/-! ### Order 7 follows by itself (R348) -/

/-- Past order 7 a command is awaited. -/
theorem State.bootReady_orderPorts (s : State) : s.orderPorts.bootReady = s.orderPorts :=
  State.bootReady_waits (by simp [State.orderPorts_stage])

section
variable {s : State} (hd : s.dev = .boot)
include hd

theorem State.bootReady_library (h5 : s.boot.stage = 0x05) : s.bootReady = s.orderLibrary := by
  simp [State.bootReady, hd, h5]

theorem State.bootReady_ports (h6 : s.boot.stage = 0x06) : s.bootReady = s.orderPorts := by
  simp [State.bootReady, hd, h6]

/-- From stage 0x05 on, both parts of order 7 come before a command. -/
theorem State.bootReady_twice (h5 : s.boot.stage = 0x05) : s.bootReady.bootReady = s.orderLibrary.orderPorts := by
  have hd' : s.orderLibrary.dev = .boot := (s.orderLibrary_frame .dev (by decide)).trans hd
  rw [State.bootReady_library hd h5, State.bootReady_ports hd' s.orderLibrary_stage]

end

/-- START_SCENE_COMMIT sees the state after the orders that follow by themselves. -/
theorem execStartSceneCommit_congr {s u : State} (h : s.bootReady.bootReady = u.bootReady.bootReady) :
    exec .startSceneCommit s = exec .startSceneCommit u := by
  show execStartSceneCommit s = execStartSceneCommit u
  rw [execStartSceneCommit, h]
  rfl

/-! ### The start scene's set (R350) -/

section
variable (s : State)

/-- The start scene's set as it is opened, with the records of its section. -/
def State.startFresh : StageSet :=
  { StageSet.fresh (s.openSet 0 Attrs.dflt).2 0 Attrs.dflt with added := s.startAdds ((s.boot.section 0x07).getD []) }

/-- The state with that set OPEN. -/
def State.startOpened : State :=
  ((s.openSet 0 Attrs.dflt).1.updSet s.startFresh.id (fun x => { x with added := s.startFresh.added })).setBoot
    (fun b => { b with stage := 0x08, startSet := some s.startFresh.id })

/-- What its check finds. -/
def State.startFindings : List Finding := s.startOpened.check s.startFresh none

/-- A set after its check without a session. -/
def StageSet.startJudged (f : List Finding) (x : StageSet) : StageSet :=
  { x with findings := f, moved := none, st := if f.isEmpty then .checked else .open }

theorem StageSet.startJudged_id (f : List Finding) (x : StageSet) : (x.startJudged f).id = x.id := rfl

/-- What a judged set is, also as the plane's holder. -/
theorem StageSet.startJudged_fields (f : List Finding) (x y : StageSet)
    (hy : y = x.startJudged f ∨ y = { x.startJudged f with planeIn := true, waiting := false }) : y.id = x.id ∧ y.sid = x.sid ∧
    y.added = x.added ∧ y.findings = f ∧ y.commit = x.commit ∧ y.st = if f.isEmpty then .checked else .open := by
  rcases hy with rfl | rfl <;> exact ⟨rfl, rfl, rfl, rfl, rfl, rfl⟩

/-- The state after the check, which EV_CHECK_DONE tells. -/
def State.startJudged : State :=
  (s.startOpened.updSet s.startFresh.id (StageSet.startJudged s.startFindings)).raise .checkDone 0 s.startFresh.id
    ((s.startFindings.head?.map (·.err)).getD 0)

/-- The plane is the set's where it has node entries. -/
def State.startPlaced : State :=
  if s.startFresh.added.any Added.hasNodes then s.startJudged.givePlane s.startFresh.id else s.startJudged

theorem State.startOpened_set : s.startOpened.stageSet? s.startFresh.id = some s.startFresh := by
  have hopen := s.stageSet?_openSet 0 Attrs.dflt
  refine (State.stageSet?_updSet _ _ _ (fun x => { x with added := s.startFresh.added }) (fun _ => id)).trans ?_
  rw [if_pos rfl]
  exact congrArg (Option.map _) hopen

theorem State.startOpened_frame : s.frame s.startOpened [.boot, .scene] :=
  State.frame_next (State.frame_mono (State.frame_trans (s.openSet_frame 0 Attrs.dflt) (State.updSet_frame _ _ _)) (by decide))
    (State.setBoot_frame _ _ (by decide))

theorem State.startJudged_told : s.told s.startJudged .checkDone 0 s.startFresh.id ((s.startFindings.head?.map (·.err)).getD 0) ∧
    s.frame s.startJudged [.boot, .scene, .ev, .sessions] :=
  State.raise_after (State.frame_next s.startOpened_frame (State.frame_mono (State.updSet_frame _ _ _) (by decide))) (by decide) _ _ _ _

theorem State.startJudged_set : s.startJudged.stageSet? s.startFresh.id = some (s.startFresh.startJudged s.startFindings) := by
  refine (State.stageSet?_congr (congrArg SceG.sets (State.scene_of_frame (State.raise_frame _ _ _ _ _) (by decide) (by decide))) _).trans ?_
  rw [State.stageSet?_updSet _ _ _ (StageSet.startJudged s.startFindings)
    (fun x hx => (x.startJudged_id _).trans hx), if_pos rfl, State.startOpened_set, Option.map_some]

/-- The start scene's set once it is judged; the plane may be its. -/
theorem State.startPlaced_set : ∃ x, s.startPlaced.stageSet? s.startFresh.id = some x ∧
    (x = s.startFresh.startJudged s.startFindings ∨
      x = { s.startFresh.startJudged s.startFindings with planeIn := true, waiting := false }) := by
  unfold State.startPlaced
  split
  · refine ⟨_, (State.stageSet?_givePlane _ _ _).trans ?_, .inr rfl⟩
    rw [if_pos rfl, s.startJudged_set, Option.map_some]
  · exact ⟨_, s.startJudged_set, .inl rfl⟩

theorem State.startPlaced_frame : s.startJudged.frame s.startPlaced [.scene, .mere] :=
  State.frame_ite (State.givePlane_frame _ _) (State.frame_refl _ _)

theorem State.startPlaced_told : s.told s.startPlaced .checkDone 0 s.startFresh.id ((s.startFindings.head?.map (·.err)).getD 0) ∧
    s.frame s.startPlaced [.boot, .scene, .sessions, .ev, .mere] := by
  obtain ⟨⟨hev, hsess⟩, hframe⟩ := s.startJudged_told
  have hplace := s.startPlaced_frame
  exact ⟨⟨(hplace .ev (by decide)).trans hev, (hplace .sessions (by decide)).trans hsess⟩,
    State.frame_next (State.frame_mono hframe (by decide)) (State.frame_mono hplace (by decide))⟩

theorem State.startPlaced_boot : s.startPlaced.boot = s.startOpened.boot := by
  have hset : s.startOpened.frame (s.startOpened.updSet s.startFresh.id (StageSet.startJudged s.startFindings)) [.scene] :=
    State.updSet_frame _ _ _
  exact (s.startPlaced_frame .boot (by decide)).trans ((State.raise_frame _ _ _ _ _ .boot (by decide)).trans (hset .boot (by decide)))

/-- START_SCENE_COMMIT at stage 0x07: with findings the set stays OPEN, else it is SCHEDULED. -/
theorem execStartSceneCommit_judges (hd : s.dev = .boot) (h7 : s.boot.stage = 0x07) (hram : s.boot.dram.isSome = true) :
    exec .startSceneCommit s = .next (if s.startFindings = [] then
      s.startPlaced.schedule s.startFresh.id (cdiv (s.mcc + 2 * s.B) s.B * s.B)
      else s.startPlaced.setBoot (fun b => { b with error := 0x0B })) := by
  have hready : s.bootReady = s := State.bootReady_waits (by simp [h7])
  have hset := s.startOpened_set
  show execStartSceneCommit s = _
  rw [execStartSceneCommit, hready, hready, if_neg (by simp [hd, h7, Option.isSome_iff_ne_none.1 hram])]
  split
  next s1 id hopen =>
  obtain rfl : (s.openSet 0 Attrs.dflt).1 = s1 := congrArg Prod.fst hopen
  obtain rfl : (s.openSet 0 Attrs.dflt).2 = id := congrArg Prod.snd hopen
  extract_lets adds s2
  split
  · next h => exact absurd (hset.symm.trans h) nofun
  · next x h =>
    obtain rfl : s.startFresh = x := Option.some.inj (hset.symm.trans h)
    extract_lets f s3 s4
    have hfound : f = s.startFindings := rfl
    have hplaced : s4 = s.startPlaced := rfl
    have hc : commitAt s.mcc s.B .next = .inl (cdiv (s.mcc + 2 * s.B) s.B * s.B) := rfl
    rw [hfound, hplaced, hc]
    cases s.startFindings <;> rfl

end

/-- Settles O4: the set judged, then scheduled or left OPEN. -/
theorem startSceneIsCheckedAndScheduled : Obligations.StartSceneIsCheckedAndScheduled := by
  unfold Obligations.StartSceneIsCheckedAndScheduled
  refine ⟨fun s hd => ⟨fun h5 => ?_, fun h6 => ?_⟩, fun s hd h7 hram => ?_⟩
  · have hd' : s.bootReady.dev = .boot := by
      rw [State.bootReady_library hd h5]
      exact (s.orderLibrary_frame .dev (by decide)).trans hd
    have h6 : s.bootReady.boot.stage = 0x06 := by rw [State.bootReady_library hd h5, State.orderLibrary_stage]
    refine ⟨h6, execStartSceneCommit_congr ?_⟩
    rw [State.bootReady_ports hd' h6, State.bootReady_orderPorts]
  · have h7 : s.bootReady = s.orderPorts := State.bootReady_ports hd h6
    exact ⟨by rw [h7, State.orderPorts_stage], execStartSceneCommit_congr (by rw [h7, State.bootReady_orderPorts, State.bootReady_orderPorts])⟩
  · obtain ⟨x, hx, hkind⟩ := s.startPlaced_set
    obtain ⟨hid, hsid, hadded, hfound, hcommit, hst⟩ := StageSet.startJudged_fields _ _ x hkind
    obtain ⟨htold, hframe⟩ := s.startPlaced_told
    rw [← hfound] at htold
    have hexec := execStartSceneCommit_judges s hd h7 hram
    have hboot := s.startPlaced_boot
    by_cases hf : s.startFindings = []
    · rw [if_pos hf] at hexec
      have hsched := s.startPlaced.schedule_frame s.startFresh.id (cdiv (s.mcc + 2 * s.B) s.B * s.B)
      have hb := (hsched .boot (by decide)).trans hboot
      have hx' : (s.startPlaced.schedule s.startFresh.id (cdiv (s.mcc + 2 * s.B) s.B * s.B)).stageSet? s.startFresh.id =
        some (x.scheduledAt (cdiv (s.mcc + 2 * s.B) s.B * s.B) s.startPlaced.scene.orders) := by
        have h := (State.schedule_set (c := cdiv (s.mcc + 2 * s.B) s.B * s.B) ((congrArg _ hid).trans hx) rfl).1
        rw [hid] at h
        exact h
      exact ⟨_, _, hexec, congrArg BootG.stage hb, congrArg BootG.startSet hb, hx', hsid, hadded,
        ⟨(hsched .ev (by decide)).trans htold.1, (hsched .sessions (by decide)).trans htold.2⟩, fun _ => ⟨rfl, rfl, (congrArg BootG.error hb).trans rfl⟩,
        fun h => absurd (hfound.trans hf) h, State.frame_next hframe (State.frame_mono hsched (by decide))⟩
    · rw [if_neg hf] at hexec
      exact ⟨_, x, hexec, congrArg BootG.stage hboot, congrArg BootG.startSet hboot, hx, hsid, hadded, htold,
        fun h => absurd (hfound.symm.trans h) hf, fun _ => ⟨hst.trans (if_neg (by simp [hf])), hcommit, rfl⟩,
        State.frame_next hframe (State.setBoot_frame _ _ (by decide))⟩

end Sys2Proof.Machine
end

section
/-! PROOFS. What going on leaves: the control cores hear messages and what they held (R305, R310, R313, R320) and touch the control plane only;
no event that has been raised is taken back. -/

namespace Sys2Proof.Machine

open Fmt

/-! ### Going on: within some parts, and no event taken back -/

/-- From s to t only parts of the list change, and every event that has been raised stays raised. -/
structure State.Onward (l : List Part) (s t : State) : Prop where
  frame : s.frame t l
  marks : ∀ e, s.marks e → t.marks e

namespace State.Onward

variable {l : List Part} {s t u : State}

theorem refl (s : State) : State.Onward l s s := ⟨s.frame_refl l, fun _ => id⟩

theorem trans (h : State.Onward l s t) (k : State.Onward l t u) : State.Onward l s u :=
  ⟨State.frame_next h.frame k.frame, fun e he => k.marks e (h.marks e he)⟩

theorem mono {l' : List Part} (h : State.Onward l s t) (hl : ∀ p ∈ l, p ∈ l') : State.Onward l' s t := ⟨State.frame_mono h.frame hl, h.marks⟩

/-- A change of other parts than the events. -/
theorem of_frame (h : s.frame t l) (he : .ev ∉ l) : State.Onward l s t := ⟨h, fun _ => State.marks_of_frame h he⟩

theorem next (h : State.Onward l s t) {l' : List Part} (hf : t.frame u l') (he : .ev ∉ l') (hl : ∀ p ∈ l', p ∈ l) : State.Onward l s u :=
  h.trans ((of_frame hf he).mono hl)

theorem ite {p : Prop} [Decidable p] (h : State.Onward l s t) (k : State.Onward l s u) : State.Onward l s (if p then t else u) := by
  split
  · exact h
  · exact k

theorem foldl {α : Type} {f : State → α → State} (hf : ∀ (u : State) a, State.Onward l u (f u a)) (xs : List α) (h : State.Onward l s t) :
    State.Onward l s (xs.foldl f t) :=
  xs.foldlRecOn (motive := fun v => State.Onward l s v) f h (fun v hv a _ => hv.trans (hf v a))

theorem raise (h : State.Onward l s t) (hl : ∀ p ∈ [Part.ev, .sessions], p ∈ l) (ev : Ev) (part obj val : Nat) :
    State.Onward l s (t.raise ev part obj val) :=
  h.trans ⟨State.frame_mono (t.raise_frame ev part obj val) hl, fun _ he => t.raiseTo_marks _ _ _ _ _ _ none (.inr he)⟩

theorem raiseD (h : State.Onward l s t) (hl : ∀ p ∈ [Part.ev, .sessions], p ∈ l) (ev : Ev) (part obj : Nat) (c : List Nat) :
    State.Onward l s (t.raiseD ev part obj c) :=
  h.trans ⟨State.frame_mono (t.raiseD_frame ev part obj c) hl, fun _ he => t.raiseTo_marks _ _ _ _ _ _ (some c) (.inr he)⟩

end State.Onward

/-! ### What the control cores touch as they hear a message (R304, R305, R310, R313) -/

/-- The parts that a message as it arrives may touch. -/
def hearing : List Part := [.net, .sessions, .vcp, .ev]

section
variable (s : State)

theorem State.setVcp_frame (f : VcpG → VcpG) (h : (f s.vcp).mbx = s.vcp.mbx) : s.frame (s.setVcp f) [.sessions, .vcp] := by
  simp [State.frame_iff, Part.same, State.setVcp, h]

theorem State.freeChannel_frame (o : Origin) : s.frame (s.freeChannel o) [.vcp] := by
  cases o with
  | mbx c => exact s.updChannel_frame c _
  | udp a p => exact s.frame_refl _

theorem State.send_frame (x : Session) (rep : Reply) : s.frame (s.send x rep) replyParts := by
  simp [State.frame_iff, Part.same, replyParts]

theorem State.forget_frame (r : Req) : s.frame (s.forget r) [.vcp] := by simp [State.frame_iff, Part.same, State.forget]

theorem State.sendTo_frame (o : Origin) (k : Keys) (rep : Machine.Reply) : s.frame (s.sendTo o k rep) [.vcp] := by
  simp [State.frame_iff, Part.same]

/-- Serving with an action that changes nothing touches what a reply touches, whatever comes of the request. -/
theorem State.serve_frame (r : Req) (cmd : Nat) (need : RoleReq) {act : Session → State → State × Option Ans}
    (hact : ∀ x u, (act x u).1 = u) : s.frame (s.serve r cmd need act) replyParts := by
  have hunbox : s.frame (s.unbox r) replyParts := by simp [State.frame_iff, Part.same, replyParts]
  have hreply : ∀ {u : State} (a : Ans), s.frame u replyParts → s.frame (u.reply r cmd a) replyParts :=
    fun a h => State.frame_next h (State.reply_frame _ _ _ _)
  unfold State.serve
  split
  · exact s.frame_refl _
  · extract_lets u u1
    split
    · exact hreply _ hunbox
    · next x _ =>
      refine State.frame_ite (hreply _ hunbox) ?_
      split
      · refine State.frame_ite hunbox (State.frame_next hunbox ?_)
        exact State.frame_next (State.frame_mono (u.forget_frame r) (by decide)) (State.frame_mono (State.freeChannel_frame _ _) (by decide))
      · exact State.frame_next hunbox (u.send_frame _ _)
      · have h1 : s.frame u1 replyParts := State.frame_next hunbox (State.frame_mono (State.updSession_frame _ _ _) (by decide))
        refine State.frame_ite (hreply _ h1) (State.frame_ite (hreply _ h1) ?_)
        have h2 := hact (x.accept r.seq) u1
        split
        · next u2 a e => rw [show u2 = u1 from (congrArg Prod.fst e).symm.trans h2]; exact hreply a h1
        · next u2 e => rw [show u2 = u1 from (congrArg Prod.fst e).symm.trans h2]; exact h1

theorem State.setVcp_onward (f : VcpG → VcpG) (h : (f s.vcp).mbx = s.vcp.mbx) : State.Onward hearing s (s.setVcp f) :=
  (State.Onward.of_frame (s.setVcp_frame f h) (by decide)).mono (by decide)

theorem State.authFails_onward (o : Origin) : State.Onward hearing s (s.authFails o) := by
  unfold State.authFails
  extract_lets u src fails full
  have h1 : State.Onward hearing s u := (State.Onward.of_frame (s.freeChannel_frame o) (by decide)).mono (by decide)
  have h2 := h1.trans (u.setVcp_onward (fun v => { v with
    authFail := satInc v.authFail 1
    fails := if full then fails.filter (fun q => decide (q.1 ≠ src)) else fails
    blocked := if full then src :: v.blocked else v.blocked }) rfl)
  cases o with
  | udp a p => exact h2.raiseD (by decide) _ _ _ _
  | mbx c => exact h2.raise (by decide) _ _ _ _

theorem State.openFail_onward (o : Origin) (key : List Nat) (seq e : Nat) : State.Onward hearing s (s.openFail o key seq e) :=
  (State.Onward.of_frame (s.sendTo_frame _ _ _) (by decide)).mono (by decide)

theorem State.deliver_onward (o : Origin) (h : Header) (err : Nat) (body : List Nat) : State.Onward hearing s (s.deliver o h err body) := by
  unfold State.deliver
  extract_lets u r bad
  have h1 : State.Onward hearing s u := (State.Onward.of_frame (s.updSession_frame _ _) (by decide)).mono (by decide)
  exact (h1.next (u.serve_frame _ _ _ (fun _ _ => rfl)) (by decide) (by decide)).ite (h1.trans (u.setVcp_onward _ rfl))

theorem State.fragment_onward (o : Origin) (h : Header) (err : Nat) (body : List Nat) : State.Onward hearing s (s.fragment o h err body) := by
  unfold State.fragment
  extract_lets mine old p0 p rest
  refine (State.Onward.refl s).ite ?_
  split
  · next b _ => exact (s.setVcp_onward (fun v => { v with partials := rest }) rfl).trans (State.deliver_onward _ _ _ _ _)
  · exact s.setVcp_onward _ rfl

theorem State.arriveOpen_onward (o : Origin) (h : Header) (b : List Nat) : State.Onward hearing s (s.arriveOpen o h b) := by
  unfold State.arriveOpen
  extract_lets body id
  split
  · exact s.authFails_onward o
  · exact (s.authFails_onward o).ite ((s.openFail_onward _ _ _ _).ite ((s.openFail_onward _ _ _ _).ite (s.setVcp_onward _ rfl)))

theorem State.arriveIn_onward (o : Origin) (h : Header) (b : List Nat) : State.Onward hearing s (s.arriveIn o h b) := by
  unfold State.arriveIn
  split
  · exact s.authFails_onward o
  · split
    · exact s.authFails_onward o
    · extract_lets err
      cases o with
      | mbx c => exact s.deliver_onward _ _ _ _
      | udp a p => exact (s.deliver_onward _ _ _ _).ite ((s.fragment_onward _ _ _ _).ite (s.deliver_onward _ _ _ _))

theorem State.hear_onward (o : Origin) (b : List Nat) : State.Onward hearing s (s.hear o b) := by
  have hfree : State.Onward hearing s (s.freeChannel o) := (State.Onward.of_frame (s.freeChannel_frame o) (by decide)).mono (by decide)
  unfold State.hear
  refine hfree.ite ?_
  split
  · exact hfree
  · exact (s.arriveOpen_onward _ _ _).ite (s.arriveIn_onward _ _ _)

theorem State.payOwed_frame : s.frame s.payOwed [.net] :=
  State.frame_next (s.setNet_frame _ (by decide)) (State.frame_foldl (fun u q => u.enqueue_frame _ _ _ (by decide)) _ _)

/-- What was held is processed (R320). -/
theorem State.release_onward : State.Onward hearing s s.release := by
  unfold State.release
  extract_lets s0 s1
  have h0 : State.Onward hearing s s0 := (State.Onward.of_frame s.payOwed_frame (by decide)).mono (by decide)
  have h1 : State.Onward hearing s s1 := .foldl (fun u q => u.hear_onward _ _) _ (h0.trans (s0.setVcp_onward _ rfl))
  refine .foldl (fun u c => ?_) _ h1
  split
  · exact ((State.Onward.of_frame (u.updChannel_frame c _) (by decide)).mono (by decide)).trans (State.hear_onward _ _ _)
  · exact .refl u

end

end Sys2Proof.Machine
end

section
/-! PROOFS. QUIET, RUN, the first role of a twin and STANDBY (R303, R337, R351–R355, R428); O5. -/

namespace Sys2Proof.Machine

open Fmt

/-! ### Cue lists armed (R131, R354) -/

theorem State.armList_frame (s : State) (sid l : Nat) : s.frame (s.armList sid l).1 [.scene, .mere] := by
  cases h : s.armAll sid l [] (s.timedCues (s.cueList l)) with
  | none =>
    rw [State.armList_armed h]
    exact State.frame_next (State.frame_mono (s.retimed_frame _ _ _) (by decide)) (State.loadCue_frame _)
  | some a =>
    rw [State.armList, h]
    exact s.frame_refl _

theorem State.armImageCues_frame (s : State) : s.frame s.armImageCues [.scene, .mere] := by
  unfold State.armImageCues
  extract_lets sec words
  refine State.frame_foldl (fun u q => ?_) _ s
  split
  · exact u.frame_refl _
  · exact State.frame_next (State.frame_mono (u.setCues_frame _ _) (by decide)) (State.armList_frame _ _ _)

/-! ### QUIET and RUN -/

section
variable (s : State)

/-- The parts that change beside the device's state and the boot stage as RUN is entered. -/
def runParts : List Part := [.audio, .spring, .legacy, .ev, .sessions, .scene, .mere]

/-- RUN as it is entered, before the outputs unmute. -/
def State.runStage : State := { s with dev := .run }.setBoot (fun b => { b with stage := 0x0A })

/-- R353, R354: what entering RUN leaves beside the device's state and the boot stage; EV_DEVICE_STATE tells it. -/
theorem State.runNow_onward : State.Onward runParts s.runStage s.runNow ∧ s.runNow.marks .deviceState := by
  have h1 : State.Onward runParts s.runStage s.runStage.unmuteAll :=
    (State.Onward.of_frame s.runStage.unmuteAll_frame (by decide)).mono (by decide)
  have h2 := h1.raise (by decide) .deviceState 0 0 4
  have harm := State.armImageCues_frame (s.runStage.unmuteAll.raise .deviceState 0 0 4)
  exact ⟨h2.next harm (by decide) (by decide), State.marks_of_frame harm (by decide) (State.raise_marks _ _ _ _ _)⟩

theorem State.runNow_marks (e : Ev) (h : s.marks e) : s.runNow.marks e := s.runNow_onward.1.marks e h

theorem State.runNow_enters : s.runNow.dev = .run ∧ s.runNow.boot.stage = 0x0A ∧ s.runNow.mcc = s.mcc ∧ s.runNow.twin = s.twin := by
  have hf := s.runNow_onward.1.frame
  exact ⟨hf .dev (by decide), congrArg BootG.stage (hf .boot (by decide)), hf .mcc (by decide), hf .twin (by decide)⟩

/-- QUIET as it is entered, before its events and the first role. -/
def State.quietStage : State := { s with dev := .quiet }.setBoot (fun b => { b with stage := 0x09 })

/-- QUIET announced, and the slot that was booted. -/
def State.quietTold : State :=
  match s.boot.feed with
  | .slot b => (s.quietStage.raise .deviceState 0 0 3).raiseD .bootSlot 0 (b2n b) [b2n b, b2n s.boot.fallback, s.boot.failed]
  | _ => s.quietStage.raise .deviceState 0 0 3

theorem State.quietTold_onward : State.Onward [.ev, .sessions] s.quietStage s.quietTold ∧ s.quietTold.marks .deviceState ∧
    ∀ b, s.boot.feed = .slot b → s.quietTold.marks .bootSlot := by
  have h1 := (State.Onward.refl s.quietStage).raise (l := [.ev, .sessions]) (by decide) .deviceState 0 0 3
  have hmark : (s.quietStage.raise .deviceState 0 0 3).marks .deviceState := State.raise_marks _ _ _ _ _
  unfold State.quietTold
  split
  · next b hb =>
    have h2 := (State.Onward.refl (s.quietStage.raise .deviceState 0 0 3)).raiseD (l := [.ev, .sessions]) (by decide) .bootSlot 0 (b2n b)
      [b2n b, b2n s.boot.fallback, s.boot.failed]
    exact ⟨h1.trans h2, h2.marks _ hmark, fun _ _ => State.raiseD_marks _ _ _ _ _⟩
  · next hno => exact ⟨h1, hmark, fun b hb => absurd hb (hno b)⟩

theorem State.quietNow_eq : s.quietNow = s.quietTold.drivePins.firstRole.release := by
  unfold State.quietNow State.quietTold
  rfl

/-- A chip without a twin is SOLO from QUIET on (R428). -/
theorem State.firstRole_alone {s : State} (hlive : s.live = true) (hrole : s.twin.hasRole = false) (hen : s.power.straps.twinEn = false) :
    s.firstRole = (s.setTwin (fun t => { t with role := .solo, hasRole := true })).drivePins := by
  rw [State.firstRole, if_neg (by simp [hlive, hrole]), if_pos (by simp [hen])]

/-- QUIET of a chip without a twin. -/
theorem State.quietNow_alone (hrole : s.twin.hasRole = false) (hen : s.power.straps.twinEn = false) :
    s.quietNow.dev = .quiet ∧ s.quietNow.boot.stage = 0x09 ∧ s.quietNow.twin.role = .solo ∧ s.quietNow.twin.hasRole = true ∧
      s.quietNow.mcc = s.mcc ∧ s.quietNow.marks .deviceState ∧ ∀ b, s.boot.feed = .slot b → s.quietNow.marks .bootSlot := by
  obtain ⟨⟨hf, -⟩, hdev, hslot⟩ := s.quietTold_onward
  have hd : s.quietTold.dev = .quiet := hf .dev (by decide)
  have hrole' : s.quietTold.twin.hasRole = false := (congrArg TwinG.hasRole (hf .twin (by decide))).trans hrole
  have hen' : s.quietTold.power.straps.twinEn = false := (congrArg (·.straps.twinEn) (hf .power (by decide))).trans hen
  have hfirst := State.firstRole_alone (s := s.quietTold.drivePins) (by simp [State.live, State.drivePins, hd]) hrole' hen'
  have heq := s.quietNow_eq.trans (congrArg State.release hfirst)
  generalize hu : ((s.quietTold.drivePins).setTwin (fun t => { t with role := .solo, hasRole := true })).drivePins = u at heq
  have htwin : s.quietTold.frame u [.twin] := by
    rw [← hu]
    exact State.frame_next (State.frame_next (State.setTwin_frame _ _ (by decide)) (State.setTwin_frame _ _ (by decide)))
      (State.setTwin_frame _ _ (by decide))
  obtain ⟨hr, hmarks⟩ := u.release_onward
  have keep : ∀ e, s.quietTold.marks e → s.quietNow.marks e := fun e he => by
    rw [heq]
    exact hmarks e (State.marks_of_frame htwin (by decide) he)
  have hq : s.quietStage.frame s.quietNow [.ev, .sessions, .twin, .net, .vcp] := by
    rw [heq]
    exact State.frame_next (State.frame_mono (State.frame_trans hf htwin) (by decide)) (State.frame_mono hr (by decide))
  have hsolo : s.quietNow.twin = u.twin := by rw [heq]; exact hr .twin (by decide)
  refine ⟨hq .dev (by decide), congrArg BootG.stage (hq .boot (by decide)), ?_, ?_, hq .mcc (by decide), keep _ hdev,
    fun b hb => keep _ (hslot b hb)⟩
  · rw [hsolo, ← hu]; rfl
  · rw [hsolo, ← hu]; rfl

end

/-- ENTER_QUIET, with the start scene done. -/
theorem execEnterQuiet_done {s : State} (hd : s.dev = .boot) (h8 : s.boot.stage = 0x08) (hp : s.startPending = false) :
    exec .enterQuiet s = .next (if s.runsAtOnce ∧ !s.power.stbyLow then s.quietNow.runNow else s.quietNow) :=
  if_neg (by simp [hd, h8, hp])

/-! ### STANDBY (R355) -/

theorem Zc.commit_tgt (z : Zc) (n : Nat) (t : Int) : (z.commit n t).tgt = t := by
  unfold Zc.commit
  extract_lets w
  split
  · next h => exact h.symm
  · split
    · extract_lets g
      split <;> rfl
    · split <;> rfl

section
variable (s : State)

theorem State.updOut_frame (n : Nat) (f : OutRt → OutRt) : s.frame (s.updOut n f) [.audio] := s.setAudio_frame _ (by decide)

theorem State.outRt_of_audio {s t : State} (h : t.audio = s.audio) (n : Nat) : t.outRt n = s.outRt n := by rw [State.outRt, h, State.outRt]

theorem State.outRt_updOut (n j : Nat) (f : OutRt → OutRt) :
    (s.updOut n f).outRt j = if j = n then f (s.outRt n) else s.outRt j := Cells.get_upd _ _ _ _ _

theorem State.updOuts_frame (f : OutRt → OutRt) : s.frame (s.updOuts f) [.audio] :=
  State.frame_foldl (fun u n => u.updOut_frame n f) _ s

theorem State.outRt_foldl_updOut (f : OutRt → OutRt) (N j : Nat) :
    ((List.range N).foldl (fun u n => u.updOut n f) s).outRt j = if j < N then f (s.outRt j) else s.outRt j := by
  induction N with
  | zero => rfl
  | succ N ih =>
    rw [List.range_succ, List.foldl_append, List.foldl_cons, List.foldl_nil, State.outRt_updOut]
    by_cases hj : j = N
    · subst hj
      rw [if_pos rfl, ih, if_neg (Nat.lt_irrefl j), if_pos (Nat.lt_succ_self j)]
    · rw [if_neg hj, ih]
      exact if_congr (by omega) rfl rfl

/-- A change of every output entry changes each. -/
theorem State.outRt_updOuts (f : OutRt → OutRt) {n : Nat} (hn : n < outEntries) : (s.updOuts f).outRt n = f (s.outRt n) :=
  by rw [State.updOuts, State.outRt_foldl_updOut, if_pos hn]

theorem State.fadeAll_frame : s.frame s.fadeAll [.audio, .spring, .legacy] := by
  unfold State.fadeAll
  extract_lets s1 s2
  have h1 : s.frame s1 [.audio] := s.updOuts_frame _
  exact State.frame_next (State.frame_next (State.frame_mono h1 (by decide)) (s1.setSpring_frame_mem _ (by decide)))
    (s2.setLeg_frame _ (by decide))

theorem State.fadeAll_audio : s.fadeAll.audio = (s.updOuts (fun o => { o with mute := o.mute.commit s.exitStamp 0 })).audio := by
  simp only [State.fadeAll, State.setLeg_fields, State.setSpring_fields]

theorem State.fadeAll_mutes {n : Nat} (hn : n < outEntries) : (s.fadeAll.outRt n).mute.tgt = 0 := by
  rw [State.outRt_of_audio s.fadeAll_audio, State.outRt_updOuts _ _ hn]
  exact Zc.commit_tgt _ _ _

/-- The device in STANDBY, before REF4 is lost with PD_NET and the twin's pins follow. -/
def State.standbyNow : State :=
  { s.resetAll true with
    dev := .standby, params := s.params, cku := s.cku
    power := { s.power with domains := 0, holdMcc := false }
    boot := s.boot, fw := { (s.resetAll true).fw with version := s.fw.version }
    sec := s.sec
    twin := { s.twin with lease := false, swap := none, swapReq := none, handover := none }
    vcp := VcpG.reset, ev := s.ev }

theorem execEnterStandby_silent {bound : Bool} (hl : s.live = true) (hlow : s.power.stbyLow = true) (hb : (bound || s.allSilent) = true) :
    exec (.enterStandby bound) s = .next s.standbyNow.netDown.drivePins :=
  if_neg (by simp [hl, hlow, hb])

end

section
variable {s : State} (hoff : bit s.power.domains 1 = false)
include hoff

/-- Without PD_NET a REF4 that is out of use stays so (R20). -/
theorem State.netDown_idle (h : (s.cku.ref 4).st = .disabled ∨ (s.cku.ref 4).st = .lost) : s.netDown = s := by
  unfold State.netDown
  rcases h with h | h <;> rw [hoff, h]

/-- Without PD_NET a REF4 in use is lost (R20). -/
theorem State.netDown_lost (h : (s.cku.ref 4).st ≠ .disabled) : (s.netDown.cku.ref 4).st = .lost := by
  by_cases hl : (s.cku.ref 4).st = .lost
  · rw [State.netDown_idle hoff (.inr hl), hl]
  · have hloses : s.netDown = (s.loseRef 4).evaluate := by
      unfold State.netDown
      rw [hoff]
      split <;> simp_all
    rw [hloses, State.evaluate_ref, State.loseRef_ref, if_pos ⟨rfl, h⟩]

end

/-- The control plane's group is the sessions, the window memory and the rest of it. -/
theorem State.vcp_of_frame {s t : State} {l : List Part} (h : s.frame t l) (hv : .vcp ∉ l) (hm : .mailbox ∉ l)
    (hs : t.vcp.sessions = s.vcp.sessions) : t.vcp = s.vcp := by
  have hrest : { t.vcp with sessions := [], mbx := [] } = { s.vcp with sessions := [], mbx := [] } := h .vcp hv
  have hmbx : t.vcp.mbx = s.vcp.mbx := h .mailbox hm
  calc t.vcp = { { t.vcp with sessions := [], mbx := [] } with sessions := t.vcp.sessions, mbx := t.vcp.mbx } := rfl
    _ = s.vcp := by rw [hrest, hs, hmbx]

theorem State.Steady.netDown {s t : State} (h : s.Steady t) : s.Steady t.netDown := by
  unfold State.netDown
  split
  · exact h
  · exact h
  · exact h
  · exact (h.loseRef 4).evaluate

/-- Settles O5: each way into QUIET, RUN and STANDBY. -/
theorem quietRunAndStandby : Obligations.QuietRunAndStandby := by
  unfold Obligations.QuietRunAndStandby
  refine ⟨fun s => ⟨fun hd h8 hp hen hrole => ?_, fun hd hlow hmay => ?_, fun hd hlow hto => ?_, fun hrole hl hen hpeer => ?_⟩,
    fun s => ⟨fun hl hlow => ?_, fun hl hlow bound hb => ?_, fun hd hfol x => ?_, fun hd x => ?_⟩⟩
  · obtain ⟨hdev, hstage, hsolo, hhas, hmcc, hmark, hslot⟩ := s.quietNow_alone hrole hen
    have hexec := execEnterQuiet_done hd h8 hp
    by_cases hrun : s.runsAtOnce ∧ s.power.stbyLow = false
    · obtain ⟨rdev, rstage, rmcc, rtwin⟩ := s.quietNow.runNow_enters
      rw [if_pos (by simpa using hrun)] at hexec
      refine ⟨_, hexec, rdev.trans (if_pos hrun).symm, rstage.trans (if_pos hrun).symm, ?_, ?_, rmcc.trans hmcc,
        State.runNow_marks _ _ hmark, fun b hb => State.runNow_marks _ _ (hslot b hb)⟩
      · rw [rtwin, hsolo]
      · rw [rtwin, hhas]
    · rw [if_neg (by simpa using hrun)] at hexec
      exact ⟨_, hexec, hdev.trans (if_neg hrun).symm, hstage.trans (if_neg hrun).symm, hsolo, hhas, hmcc, hmark, hslot⟩
  · obtain ⟨rdev, rstage, rmcc, -⟩ := s.runNow_enters
    exact ⟨_, congrArg Host.Outcome.next (if_pos ⟨hd, by simp [hlow], hmay⟩), rfl, rdev, rstage, rmcc, s.runNow_onward.2⟩
  · obtain ⟨rdev, rstage, rmcc, -⟩ := s.runNow_enters
    exact ⟨_, congrArg Host.Outcome.next (if_pos ⟨hd, by simp [hlow], hto⟩), rfl, rdev, rstage, rmcc, s.runNow_onward.2⟩
  · intro role
    obtain ⟨h1, h2, -, -, -, -, -, -, hmark, -⟩ := roleChangesTakeEffect s role 0x000A
    exact ⟨_, if_neg (by simp [hrole, hl, hen, hpeer]), rfl, h1, h2, hmark⟩
  · have hexec : exec .stbyNLowHeld s = .next (s.setPower (fun p => { p with stbyLow := true })).fadeAll := by
      have hoff : s.dev ≠ .off := fun h => by simp [State.live, h] at hl
      exact (if_neg hoff).trans (congrArg _ (if_pos (by simp [hl, hlow])))
    have hfade := (s.setPower (fun p => { p with stbyLow := true })).fadeAll_frame
    exact ⟨_, hexec, rfl, congrArg PowerG.stbyLow (hfade .power (by decide)),
      State.frame_next (State.setPower_frame _ _ (by decide)) (State.frame_mono hfade (by decide)), fun n hn => State.fadeAll_mutes _ hn⟩
  · have hoff : bit s.standbyNow.power.domains 1 = false := by simp [State.standbyNow, bit]
    have hf : s.standbyNow.frame s.standbyNow.netDown.drivePins [.cku, .net, .fault, .ports, .ev, .sessions, .twin] :=
      State.frame_next (State.frame_mono (State.Retuned.refl s.standbyNow).netDown.frame (by decide)) (State.setTwin_frame _ _ (by decide))
    have hsilent : s.standbyNow.netDown.vcp.sessions = [] := (State.Steady.refl s.standbyNow).netDown.silent rfl
    refine ⟨_, execEnterStandby_silent s hl hlow hb, hf .dev (by decide), hf .mcc (by decide), congrArg PowerG.domains (hf .power (by decide)),
      congrArg PowerG.holdMcc (hf .power (by decide)), fun h => ?_, fun h => ?_, hf .params (by decide), hf .sec (by decide),
      hf .mstore (by decide), ?_, State.vcp_of_frame hf (by decide) (by decide) hsilent⟩
    · have hidle : s.standbyNow.netDown.cku = s.standbyNow.cku := by rw [State.netDown_idle hoff h]
      exact hidle
    · exact State.netDown_lost hoff h
    · exact congrArg SceG.sets (State.scene_of_frame hf (by decide) (by decide))
  · have hexec : exec (.stbyNHighWake x) s = .next ({ s.resetAll true with
        power := { (s.resetAll true).power with stbyLow := false, straps := x } } : State).startBoot := by
      have hself : s.unfollow = s := if_neg (by simp [hfol])
      show execStbyNHighWake x s = _
      rw [execStbyNHighWake, hd, hself]
    exact ⟨_, hexec, rfl, rfl, rfl, rfl, rfl, rfl, s.resetAll_atReset true⟩
  · have hexec : exec (.stbyNHighWake x) s = .next (s.setPower (fun p => { p with stbyLow := false })) := by
      show execStbyNHighWake x s = _
      rw [execStbyNHighWake, hd]
    exact ⟨_, hexec, rfl, State.setPower_frame _ _ (by decide)⟩

end Sys2Proof.Machine
end

section
/-! PROOFS. Life cycle, tamper and provisioning (R356–R363); O35. -/

namespace Sys2Proof.Machine

open Fmt

/-! ### The life cycle (R356) -/

section
variable {s : State} {r : Req} {x : Session}

/-- What a transition leaves: the state and the wipe in the secure block, EV_LIFECYCLE. -/
theorem State.lifeTo_after (u : State) (l : Life) (f : SecG → SecG) : (u.lifeTo l f).sec = { f u.sec with life := l, wiping := true } ∧
    u.told (u.lifeTo l f) .lifecycle 0 0 l.code ∧ u.frame (u.lifeTo l f) [.sec, .ev, .sessions] := by
  have hset : u.frame (u.setSec (fun g => { f g with life := l, wiping := true })) [.sec] := u.setSec_frame _ (by decide)
  obtain ⟨htold, hframe⟩ := State.raise_after hset (by decide) .lifecycle 0 0 l.code
  exact ⟨State.raise_frame _ _ _ _ _ .sec (by decide), htold, hframe⟩

/-- A LIFECYCLE_SET that the state of the part grants. -/
theorem lifecycleSet_moves {target : Nat} {blob : List Nat} {l : Life} {f : SecG → SecG}
    (hexec : exec (.lifecycleSet r target blob) s = .next (((s.admitted r).lifeTo l f).reply r 0x0702 ⟨0, 0, []⟩)) :
    ∃ t, exec (.lifecycleSet r target blob) s = .next t ∧ t.answers r 0x0702 0 0 [] ∧
      t.sec = { f s.sec with life := l, wiping := true } ∧ t.ev = ((s.admitted r).raise .lifecycle 0 0 l.code).ev ∧
      s.frame t [.sec, .ev, .sessions, .vcp] := by
  obtain ⟨hsec, ⟨hev, -⟩, hframe⟩ := (s.admitted r).lifeTo_after l f
  have hreply := State.reply_frame ((s.admitted r).lifeTo l f) r 0x0702 ⟨0, 0, []⟩
  refine ⟨_, hexec, State.reply_answers_nil _ _, (hreply .sec (by decide)).trans (hsec.trans ?_), (hreply .ev (by decide)).trans hev,
    State.request_frame (by decide) (State.frame_mono hframe (by decide)) _⟩
  rw [(s.admitted_fields r).2.2.2.2.2.1]

theorem execLifecycleSet_blank (ha : s.admits r 0 x) (hb : s.sec.life = .blank) {key : List Nat} (hk : key.length = 64) :
    exec (.lifecycleSet r 1 key) s = .next (((s.admitted r).lifeTo .provisioned (fun g =>
      { g with rootKey := key, rootHash := Crypto.sha256 key })).reply r 0x0702 ⟨0, 0, []⟩) := by
  have hb' : (s.admitted r).sec.life = .blank := hb
  refine congrArg _ (State.serve_answered ha ?_)
  simp only [hb', hk, ne_eq, not_true_eq_false, if_false]
  rfl

theorem execLifecycleSet_provisioned (ha : s.admits r 0 x) (hp : s.sec.life = .provisioned) (b : List Nat) :
    exec (.lifecycleSet r 2 b) s = .next (((s.admitted r).lifeTo .deployed id).reply r 0x0702 ⟨0, 0, []⟩) := by
  have hp' : (s.admitted r).sec.life = .provisioned := hp
  refine congrArg _ (State.serve_answered ha ?_)
  simp only [hp']
  rfl

/-! ### Provisioning (R357, R363) -/

/-- What a blob brings is told in an answer without items, and only the secure block and the events change. -/
theorem State.provision_answers (u : State) (b : List Nat) : ∃ (v : State) (e : Nat), u.provision b = (v, some ⟨e, 0, []⟩) ∧
    u.frame v [.sec, .ev, .sessions] := by
  unfold State.provision
  extract_lets n ct base ctr
  split
  · exact ⟨u, _, rfl, u.frame_refl _⟩
  · split
    · exact ⟨u, _, rfl, u.frame_refl _⟩
    · split
      · exact ⟨u, _, rfl, u.frame_refl _⟩
      · have hset := fun f => u.setSec_frame f (l := [.sec]) (by decide)
        exact ⟨_, _, rfl, (State.raise_after (hset _) (by decide) _ _ _ _).2⟩

/-- A blob refused before it is decrypted, or what it brings. -/
def State.provisioned (u : State) (e : Nat) (b : List Nat) : State × Option Ans := if e ≠ 0 then (u, Ans.fail e) else u.provision b

theorem State.provisioned_answers (u : State) (e : Nat) (b : List Nat) : ∃ (v : State) (e' : Nat), u.provisioned e b = (v, some ⟨e', 0, []⟩) ∧
    u.frame v [.sec, .ev, .sessions] := by
  unfold State.provisioned
  split
  · exact ⟨u, e, rfl, u.frame_refl _⟩
  · exact u.provision_answers b

end

/-- Settles O35. -/
theorem lifeCycleTamperAndProvisioning : Obligations.LifeCycleTamperAndProvisioning := by
  unfold Obligations.LifeCycleTamperAndProvisioning
  intro s r x
  refine ⟨fun key ha hb hk => ?_, fun b ha hp => ?_, fun k hon hk => ?_, fun hw => ?_, fun k => ?_, fun i hi hd hrun => ?_, fun b ha hrole => ?_⟩
  · obtain ⟨t, hexec, hans, hsec, hev, hframe⟩ := lifecycleSet_moves (execLifecycleSet_blank ha hb hk)
    exact ⟨t, hexec, hans, by rw [hsec], by rw [hsec], by rw [hsec], hev, hframe⟩
  · exact lifecycleSet_moves (execLifecycleSet_provisioned ha hp b)
  · have hset : s.frame (s.setSec (fun g => { g with tripped := k :: g.tripped, wiping := true })) [.sec] := s.setSec_frame _ (by decide)
    obtain ⟨htold, hframe⟩ := State.raise_after hset (by decide) .tamper 0 k 0
    exact ⟨_, if_pos ⟨hon, by rw [hk]; rfl⟩, State.raise_frame _ _ _ _ _ .sec (by decide), htold, hframe⟩
  · have hset : s.frame (s.setSec (fun g => { g.cleared with wiping := false, wiped := true })) [.sec] := s.setSec_frame _ (by decide)
    obtain ⟨htold, hframe⟩ := State.raise_after hset (by decide) .sbWiped 0 0 0
    have hsec := State.raise_frame (s.setSec (fun g => { g.cleared with wiping := false, wiped := true })) .sbWiped 0 0 0 .sec (by decide)
    exact ⟨_, if_pos hw, congrArg SecG.creds hsec, congrArg SecG.modKeys hsec, congrArg SecG.bankCtr hsec, congrArg SecG.wiping hsec,
      congrArg SecG.wiped hsec, (congrArg SecG.rootHash hsec).trans rfl, htold, hframe⟩
  · exact ⟨_, rfl, rfl, s.setSec_frame _ (by decide)⟩
  · have hexec : exec .secVersionFloorRaise s = .next (s.setSec (fun g => { g with floor := max g.floor i.secVersion })) := by
      show execSecVersionFloorRaise s = _
      rw [execSecVersionFloorRaise, hi]
      exact congrArg _ (if_pos ⟨hd, hrun⟩)
    exact ⟨_, hexec, rfl, s.setSec_frame _ (by decide)⟩
  · obtain ⟨u, e, hprov, hframe⟩ := (s.admitted r).provisioned_answers (s.provError b) b
    have hexec : exec (.credProvision r b) s = .next (u.reply r 0x0701 ⟨e, 0, []⟩) := by
      refine congrArg _ (State.serve_answered ha ?_)
      have hmay : ¬ ((x.accept r.seq).role ≠ 0 ∧ !(x.accept r.seq).recovery) := by
        rcases hrole with h | h <;> simp [Session.accept, h]
      exact (if_neg hmay).trans hprov
    exact ⟨_, u, ⟨e, 0, []⟩, hexec, hprov.symm, State.reply_answers_nil _ _, State.reply_frame _ _ _ _ .sec (by decide),
      State.request_frame (by decide) (State.frame_mono hframe (by decide)) _⟩

end Sys2Proof.Machine
end

section
/-! PROOFS. Mailbox registers, event status, latched words and SPI frames (R310, R311, R334, R335); O36. -/

namespace Sys2Proof.Machine.Fmt

/-- A bit read after one was cleared. -/
theorem bit_setBit_false (w i j : Nat) : bit (setBit w i false) j = (bit w j && !decide (i = j)) := by
  by_cases h : bit w i = true
  · have hw : w / 2 ^ i % 2 = 1 := by simpa [bit] using h
    have hle : 2 ^ i ≤ w := by
      by_contra hlt
      rw [Nat.div_eq_of_lt (by omega)] at hw
      omega
    have hoff : bit (w - 2 ^ i) i = false := by
      have hd : (w - 2 ^ i) / 2 ^ i = w / 2 ^ i - 1 := by simpa using Nat.sub_mul_div w (2 ^ i) 1
      simp only [bit, hd, decide_eq_false_iff_not]
      omega
    have hclear : setBit w i false = w - 2 ^ i := by rw [setBit, if_neg (by simp [h]), if_neg Bool.false_ne_true]
    have hback : setBit (w - 2 ^ i) i true = w := by rw [setBit, if_neg (by simp [hoff]), if_pos rfl, Nat.sub_add_cancel hle]
    have hbits := bit_setBit_true (w - 2 ^ i) i j
    rw [hback] at hbits
    rw [hclear, hbits]
    by_cases e : i = j
    · subst e; simp [hoff]
    · simp [e]
  · have hb : bit w i = false := by simpa using h
    rw [setBit, if_pos hb]
    by_cases e : i = j
    · subst e; simp [hb]
    · simp [e]

/-- Bits of a mask cleared at the places that a one-to-one map gives them. -/
theorem bit_clearMask (w mask : Nat) (at_ : Nat → Nat) (n j : Nat) :
    bit ((List.range n).foldl (fun a i => if bit mask i then setBit a (at_ i) false else a) w) j =
      (bit w j && !(List.range n).any (fun i => bit mask i && decide (at_ i = j))) := by
  induction n with
  | zero => simp
  | succ n ih =>
    rw [List.range_succ, List.foldl_append, List.foldl_cons, List.foldl_nil, List.any_append]
    by_cases hm : bit mask n = true
    · rw [if_pos hm, bit_setBit_false, ih]
      simp [hm, Bool.and_assoc]
    · rw [if_neg hm, ih]
      simp [hm]

end Sys2Proof.Machine.Fmt

namespace Sys2Proof.Machine

open Fmt

/-! ### EV_STAT cleared by ones (R334) -/

/-- The bits of a word of EV_STAT that are written 1 clear. -/
theorem bit_clearOnes (stat k m j : Nat) : bit (clearOnes stat k m) j = (bit stat j && !(decide (j / 32 = k) && bit m (j % 32))) := by
  rw [clearOnes, bit_clearMask]
  congr 2
  rw [Bool.eq_iff_iff]
  simp only [List.any_eq_true, List.mem_range, Bool.and_eq_true, decide_eq_true_eq]
  constructor
  · rintro ⟨i, hi, hb, rfl⟩
    exact ⟨by omega, by rwa [show (32 * k + i) % 32 = i by omega]⟩
  · rintro ⟨rfl, hb⟩
    exact ⟨j % 32, by omega, hb, by omega⟩

/-! ### A session's queue (R332, R333) -/

theorem Session.refill_sid (x : Session) (mcc : Nat) : (x.refill mcc).sid = x.sid := by
  unfold Session.refill
  extract_lets y
  have hy : y.sid = x.sid := by
    simp only [y]
    split <;> rfl
  split <;> exact hy

/-- With nothing lost a queue only loses its records. -/
theorem Session.leave_kept {x : Session} (h : x.lost = 0) (l : List Nat) (mcc : Nat) :
    (x.leave l mcc).queue = x.queue.filter (fun q => !l.contains q.seq) ∧ (x.leave l mcc).nextEv = x.nextEv := by
  unfold Session.leave Session.refill
  extract_lets y
  have hy : y.lost = 0 ∧ y.queue = x.queue.filter (fun q => !l.contains q.seq) ∧ y.nextEv = x.nextEv := by
    simp only [y]
    split <;> exact ⟨h, rfl, rfl⟩
  obtain ⟨hlost, hqueue, hnext⟩ := hy
  rw [if_neg (by simp [hlost])]
  exact ⟨hqueue, hnext⟩

/-- A session whose event ring has been read k records further. -/
def Session.passed (x : Session) (k mcc : Nat) : Session := { x.leave (x.ring.take k) mcc with ring := x.ring.drop k }

theorem Session.passed_sid (x : Session) (k mcc : Nat) : (x.passed k mcc).sid = x.sid := Session.refill_sid _ _

section
variable (s : State)

theorem State.updQueue_frame (sid : Nat) (f : Session → Session) : s.frame (s.updQueue sid f) [.sessions, .ev] := by
  unfold State.updQueue
  extract_lets u
  have hu : s.frame u [.sessions, .ev] := State.frame_mono (s.updSession_frame _ _) (by decide)
  exact State.frame_ite (State.frame_next hu (u.setEv_frame _ (by decide))) hu

/-- A queue that takes no overflow record changes its session alone. -/
theorem State.updQueue_quiet {s : State} {sid : Nat} {x : Session} {f : Session → Session} (hx : s.session? sid = some x)
    (hf : (f x).nextEv = x.nextEv) : s.updQueue sid f = s.updSession sid f := by
  rw [State.updQueue, hx]
  simp [hf]

/-- A channel is read from the rest of the control plane's group. -/
theorem State.channel_of_frame {s t : State} {l : List Part} (h : s.frame t l) (hv : .vcp ∉ l) (c : Nat) : t.channel c = s.channel c := by
  have hrest : { t.vcp with sessions := [], mbx := [] } = { s.vcp with sessions := [], mbx := [] } := h .vcp hv
  have hchannels := congrArg VcpG.channels hrest
  exact congrArg (fun l => Cells.get Channel.reset l c) hchannels

/-- A message of the mailbox's event ring read up to an index (R333). -/
theorem State.mbxEvr_after (c v : Nat) : ((s.mbxEvr c v).channel c).evr = v % 2048 ∧ s.frame (s.mbxEvr c v) [.vcp, .sessions, .ev] := by
  unfold State.mbxEvr
  extract_lets k s1
  have h1 : s.frame s1 [.vcp] := s.updChannel_frame c _
  have hevr : (s1.channel c).evr = v % 2048 := congrArg Channel.evr (s.channel_updChannel c _)
  split
  · next x hx =>
    have hq := s1.updQueue_frame x.sid (fun y => { y.leave (y.ring.take k) s.mcc with ring := y.ring.drop k })
    exact ⟨(congrArg Channel.evr (State.channel_of_frame hq (by decide) c)).trans hevr,
      State.frame_next (State.frame_mono h1 (by decide)) (State.frame_mono hq (by decide))⟩
  · exact ⟨hevr, State.frame_mono h1 (by decide)⟩

end

/-- The records that the index passes leave the queue of the channel's session. -/
theorem State.mbxEvr_leaves {s : State} {c v : Nat} {x : Session} (hc : s.sessionOn c = some x) (hx : s.session? x.sid = some x)
    (hl : x.lost = 0) : ∃ y, (s.mbxEvr c v).session? x.sid = some y ∧
      y.queue = x.queue.filter (fun q => !(x.ring.take ((v % 2048 + 2048 - (s.channel c).evr) % 2048)).contains q.seq) ∧
      y.ring = x.ring.drop ((v % 2048 + 2048 - (s.channel c).evr) % 2048) ∧ s.frame (s.mbxEvr c v) [.vcp, .sessions] := by
  unfold State.mbxEvr
  extract_lets k s1
  have h1 : s.frame s1 [.vcp] := s.updChannel_frame c _
  have hc1 : s1.sessionOn c = some x := hc
  have hx1 : s1.session? x.sid = some x := hx
  obtain ⟨hqueue, hnext⟩ := Session.leave_kept hl (x.ring.take k) s.mcc
  simp only [hc1]
  rw [State.updQueue_quiet hx1 hnext]
  refine ⟨x.passed k s.mcc, (State.session?_updSession s1 x.sid x.sid (fun y => y.passed k s.mcc) (fun y => y.passed_sid k s.mcc)).trans ?_, hqueue, rfl,
    State.frame_next (State.frame_mono h1 (by decide)) (State.frame_mono (s1.updSession_frame _ _) (by decide))⟩
  rw [if_pos rfl, hx1]
  rfl

/-! ### Replies in the mailbox (R310) -/

section
variable {s : State} {c : Nat} {b : List Nat}

/-- A reply written into its channel's window. -/
def State.mbxReplied (s : State) (c : Nat) (b : List Nat) : State :=
  (s.updChannel c (fun x => { x with busy := false, ready := true, rlen := b.length, reply := none })).setVcp
    (fun v => { v with mbx := v.mbx.writeAll (mbxBase c + 0x8000) b })

theorem execMbxReply_waiting (hb : (s.channel c).busy = true) (hr : (s.channel c).reply = some b) :
    exec (.mbxReply c) s = .next ((s.mbxReplied c b).raise .mbxReply 0 c 0) := by
  show execMbxReply c s = _
  rw [execMbxReply, hb, hr]
  rfl

theorem State.mbxReplied_frame : s.frame (s.mbxReplied c b) [.vcp, .mailbox] := by
  simp [State.frame_iff, Part.same, State.mbxReplied, State.setVcp]

theorem State.channel_mbxReplied : (s.mbxReplied c b).channel c =
    { s.channel c with busy := false, ready := true, rlen := b.length, reply := none } :=
  s.channel_updChannel c (fun x => { x with busy := false, ready := true, rlen := b.length, reply := none })

end

theorem Memory.readAll_writeAll (m : Memory) (a : Nat) (l : List Nat) : (m.writeAll a l).readAll a l.length = l.map (· % 256) := by
  refine List.ext_getElem (by simp [Memory.readAll]) (fun i h1 h2 => ?_)
  simp only [Memory.readAll, List.getElem_map, List.getElem_range]
  exact Memory.read_writeAll_same _ _ _ _ (by simpa using h2)

/-! ### Registers (R335) -/

theorem State.newEv_frame (s : State) (g : EvG) : s.frame { s with ev := g } [.ev] := by simp [State.frame_iff, Part.same]

/-! ### SPI frames (R311) -/

/-- One byte of a mailbox frame. -/
def State.spiByte (s : State) (a v : Nat) : State := if a / 0x20000 = 7 then s.setVcp (fun g => { g with mbx := g.mbx.write a v }) else s

/-- A mailbox frame as its bytes come from an offset on. -/
def State.spiStore (s : State) (addr : Nat) (q : List (Nat × Nat)) : State :=
  q.foldl (fun s q => s.spiByte ((addr + q.2) % 2 ^ 20) q.1) s

theorem execSpiMailboxWrite_in {s : State} {a : Nat} (hs : s.spiOn = true) (ha : a < 2 ^ 20) (bytes : List Nat) :
    exec (.spiMailboxWrite a bytes) s = .next (s.spiStore a bytes.zipIdx) := by
  show execSpiMailboxWrite a bytes s = _
  rw [execSpiMailboxWrite, hs, spiAddrOk, decide_eq_true ha]
  rfl

/-- Within channel 7's window a frame stores its bytes. -/
theorem State.spiStore_window (bytes : List Nat) : ∀ (s : State) (a i : Nat), 7 * 0x20000 ≤ a + i → a + i + bytes.length ≤ 0x100000 →
    s.spiStore a (bytes.zipIdx i) = s.setVcp (fun g => { g with mbx := g.mbx.writeAll (a + i) bytes }) := by
  induction bytes with
  | nil => exact fun s a i _ _ => rfl
  | cons b bs ih =>
    intro s a i hlo hhi
    rw [List.length_cons] at hhi
    have hin : (a + i) % 2 ^ 20 = a + i := Nat.mod_eq_of_lt (by omega)
    have hbyte : s.spiByte ((a + i) % 2 ^ 20) b = s.setVcp (fun g => { g with mbx := g.mbx.write (a + i) b }) := by
      rw [hin]
      exact if_pos (by omega)
    rw [List.zipIdx_cons]
    show (s.spiByte ((a + i) % 2 ^ 20) b).spiStore a (bs.zipIdx (i + 1)) = _
    rw [hbyte, ih _ a (i + 1) (by omega) (by omega)]
    rfl

/-- Below it a frame stores nothing. -/
theorem State.spiStore_below (bytes : List Nat) : ∀ (s : State) (a i : Nat), a + i + bytes.length ≤ 7 * 0x20000 →
    s.spiStore a (bytes.zipIdx i) = s := by
  induction bytes with
  | nil => exact fun s a i _ => rfl
  | cons b bs ih =>
    intro s a i hhi
    rw [List.length_cons] at hhi
    have hin : (a + i) % 2 ^ 20 = a + i := Nat.mod_eq_of_lt (by omega)
    have hbyte : s.spiByte ((a + i) % 2 ^ 20) b = s := by
      rw [hin]
      exact if_neg (by omega)
    rw [List.zipIdx_cons]
    show (s.spiByte ((a + i) % 2 ^ 20) b).spiStore a (bs.zipIdx (i + 1)) = _
    rw [hbyte, ih _ a (i + 1) (by omega)]

theorem execSpiMailboxRead_in {s : State} {a n : Nat} (hs : s.spiOn = true) (hn : 0 < n) (ha : a + n ≤ 2 ^ 20) :
    exec (.spiMailboxRead a n) s = .next (s.setLeg (fun g => { g with miso := s.vcp.mbx.readAll a n })) := by
  have hbytes : (List.range n).map (fun i => s.vcp.mbx.read ((a + i) % 2 ^ 20)) = s.vcp.mbx.readAll a n :=
    List.map_congr_left fun i hi => by rw [Nat.mod_eq_of_lt (by have := List.mem_range.1 hi; omega)]
  show execSpiMailboxRead a n s = _
  rw [execSpiMailboxRead, hs, spiAddrOk, decide_eq_true (by omega : a < 2 ^ 20), hbytes]
  rfl

/-- A frame at an address outside BAR2 is ignored until the frame ends. -/
theorem execSpiMailbox_refused {s : State} {a : Nat} (hs : s.spiOn = true) (ha : 2 ^ 20 ≤ a) :
    (∀ n, exec (.spiMailboxRead a n) s = .next (s.spiIgnore n)) ∧
      ∀ bytes : List Nat, exec (.spiMailboxWrite a bytes) s = .next (s.spiIgnore bytes.length) := by
  have hbad : spiAddrOk a = false := decide_eq_false (by omega)
  refine ⟨fun n => ?_, fun bytes => ?_⟩
  · show execSpiMailboxRead a n s = _
    rw [execSpiMailboxRead, hs, hbad]
    rfl
  · show execSpiMailboxWrite a bytes s = _
    rw [execSpiMailboxWrite, hs, hbad]
    rfl

/-- Settles O36: each register and each frame by what its command does to the state. -/
theorem mailboxRegistersAndSpiFrames : Obligations.MailboxRegistersAndSpiFrames := by
  unfold Obligations.MailboxRegistersAndSpiFrames
  refine ⟨fun s hon => ⟨fun c n hc hw => ⟨fun hb => ?_, fun hb hs => ?_⟩, fun c b hb hr _ _ => ?_, fun c v hc _ => ?_, fun k m hk => ?_,
    ?_, ?_, fun v => ?_, fun v => ?_⟩,
    fun s hon => ⟨fun v => ?_, ?_, fun a bytes hlo ha hhi _ => ?_, fun a bytes hhi => ?_, fun a n hhi hn => ?_, fun a n bytes ha => ⟨?_, ?_⟩,
      fun c bytes hc => ?_⟩⟩
  · have hexec : exec (.mbxReqWrite c n) s = .next (s.updChannel c (fun x => { x with overrun := true })) := by
      refine congrArg Host.Outcome.next ((if_pos ⟨hon, hc⟩).trans ?_)
      rw [State.mbxReq, if_neg (by simp [hw]), if_pos hb]
    exact ⟨_, hexec, s.channel_updChannel c _, s.updChannel_frame c _⟩
  · have hexec : exec (.mbxReqWrite c n) s = .next ((s.updChannel c (fun x => { x with busy := true, ready := false, overrun := false })).updChannel c
        (fun x => { x with wait := some (n % 2 ^ 17) })) := by
      refine congrArg Host.Outcome.next ((if_pos ⟨hon, hc⟩).trans ?_)
      rw [State.mbxReq, if_neg (by simp [hw]), if_neg (by simp [hb]), if_neg (by simp [hs])]
    refine ⟨_, hexec, ?_, State.frame_next (s.updChannel_frame c _) (State.updChannel_frame _ c _)⟩
    rw [State.channel_updChannel, State.channel_updChannel]
  · have hexec := execMbxReply_waiting hb hr
    obtain ⟨htold, hframe⟩ := State.raise_after (State.mbxReplied_frame (s := s) (c := c) (b := b)) (by decide) .mbxReply 0 c 0
    have hraise := (s.mbxReplied c b).raise_frame .mbxReply 0 c 0
    have hmbx : ((s.mbxReplied c b).raise .mbxReply 0 c 0).vcp.mbx = s.vcp.mbx.writeAll (mbxBase c + 0x8000) b := hraise .mailbox (by decide)
    refine ⟨_, hexec, (State.channel_of_frame hraise (by decide) c).trans State.channel_mbxReplied, ?_, fun a ha => ?_, htold, hframe⟩
    · rw [hmbx, Memory.readAll_writeAll]
    · rw [hmbx, Memory.read_writeAll_other _ _ _ _ ha]
  · obtain ⟨hevr, hframe⟩ := s.mbxEvr_after c v
    exact ⟨_, congrArg Host.Outcome.next (if_pos ⟨hon, hc⟩), hevr, fun x hcx hx hl => State.mbxEvr_leaves hcx hx hl, hframe⟩
  · exact ⟨s.evClear k m, congrArg Host.Outcome.next (if_pos ⟨hon, hk⟩), fun j => bit_clearOnes _ _ _ _, rfl, s.setEv_frame _ (by decide)⟩
  · exact ⟨_, congrArg Host.Outcome.next (if_pos hon), rfl, s.newEv_frame _⟩
  · exact ⟨_, congrArg Host.Outcome.next (if_pos hon), rfl, s.newEv_frame _⟩
  · exact ⟨_, congrArg Host.Outcome.next (if_pos hon), rfl, s.newEv_frame _⟩
  · exact ⟨s.setEv (fun e => { e with msiEn := bit v 0 }), congrArg Host.Outcome.next (if_pos hon), rfl, rfl, s.setEv_frame _ (by decide)⟩
  · exact ⟨_, congrArg Host.Outcome.next (if_pos hon), rfl, s.newEv_frame _⟩
  · exact ⟨s.setLeg (fun g => { g with miso := [devId, s.devState] }), congrArg Host.Outcome.next (if_pos hon), rfl,
      s.setLeg_frame _ (by decide)⟩
  · have hexec := execSpiMailboxWrite_in hon (by omega : a < 2 ^ 20) bytes
    rw [State.spiStore_window bytes s a 0 hlo hhi] at hexec
    exact ⟨_, hexec, Memory.readAll_writeAll _ _ _, fun k hk => Memory.read_writeAll_other _ _ _ _ hk, by
      simp [State.frame_iff, Part.same, State.setVcp]⟩
  · have hexec := execSpiMailboxWrite_in hon (by omega : a < 2 ^ 20) bytes
    rw [State.spiStore_below bytes s a 0 hhi] at hexec
    exact ⟨_, hexec, rfl, s.frame_refl _⟩
  · exact ⟨_, execSpiMailboxRead_in hon hn hhi, rfl, s.setLeg_frame _ (by decide)⟩
  · exact ⟨_, (execSpiMailbox_refused hon ha).1 n, rfl, s.setLeg_frame _ (by decide)⟩
  · exact ⟨_, (execSpiMailbox_refused hon ha).2 bytes, rfl, s.setLeg_frame _ (by decide)⟩
  · have hexec : s.spiBytes (c :: bytes) = .next (s.spiIgnore (bytes.length + 1)) := by
      rw [State.spiBytes, List.headD_cons, hc]
      exact congrArg Host.Outcome.next (if_pos hon)
    exact ⟨_, hexec, rfl, s.setLeg_frame _ (by decide)⟩

end Sys2Proof.Machine
end

section
/-! PROOFS. A request admitted, refused or answered again (R304, R305, R307, R309, R314, R319, R321); O30. -/

namespace Sys2Proof.Machine

open Fmt

/-! ### A body in runs (R305) -/

/-- Bytes cut into chunks: they make the bytes up again, none is too long, and they are as few as they can be. -/
theorem Crypto.chunks_cut {n : Nat} (hn : 0 < n) : ∀ (k : Nat) (l : List Nat), l.length ≤ k →
    (Crypto.chunks n k l).flatten = l ∧ (∀ p ∈ Crypto.chunks n k l, p.length ≤ n) ∧ (Crypto.chunks n k l).length = cdiv l.length n := by
  intro k
  induction k with
  | zero =>
    intro l hl
    obtain rfl : l = [] := List.length_eq_zero_iff.1 (by omega)
    exact ⟨rfl, nofun, (Nat.div_eq_of_lt (by simp; omega)).symm⟩
  | succ k ih =>
    intro l hl
    rw [Crypto.chunks]
    split
    · next he =>
      obtain rfl := List.isEmpty_iff.1 he
      exact ⟨rfl, nofun, (Nat.div_eq_of_lt (by simp; omega)).symm⟩
    · next he =>
      have hpos : 0 < l.length := List.length_pos_iff.2 (by simpa using he)
      obtain ⟨hflat, hshort, hlen⟩ := ih (l.drop n) (by rw [List.length_drop]; omega)
      refine ⟨?_, ?_, ?_⟩
      · rw [List.flatten_cons, hflat, List.take_append_drop]
      · rintro p hp
        rcases List.mem_cons.1 hp with rfl | hp
        · rw [List.length_take]; omega
        · exact hshort p hp
      · rw [List.length_cons, hlen, List.length_drop, cdiv, cdiv]
        rcases Nat.lt_or_ge n l.length with h | h
        · rw [show l.length + n - 1 = (l.length - n + n - 1) + n by omega, Nat.add_div_right _ hn]
        · rw [Nat.sub_eq_zero_of_le h, Nat.div_eq_of_lt (by omega : 0 + n - 1 < n)]
          rw [show l.length + n - 1 = (l.length - 1) + n by omega, Nat.add_div_right _ hn, Nat.div_eq_of_lt (by omega)]

theorem bodyRuns_cut (b : List Nat) : (bodyRuns b).flatten = b ∧ (∀ p ∈ bodyRuns b, p.length ≤ 1440) ∧
    (bodyRuns b).length = max 1 (cdiv b.length 1440) := by
  rw [bodyRuns]
  split
  · next he =>
    obtain rfl := List.isEmpty_iff.1 he
    exact ⟨rfl, by simp, rfl⟩
  · next he =>
    have hpos : 0 < b.length := List.length_pos_iff.2 (by simpa using he)
    obtain ⟨hflat, hshort, hlen⟩ := Crypto.chunks_cut (n := 1440) (by omega) b.length b (le_refl _)
    refine ⟨hflat, hshort, ?_⟩
    rw [hlen, cdiv]
    omega

/-! ### A reply over UDP (R309) -/

theorem State.reply_out {s : State} {r : Req} {x : Session} {a p : Nat} (hx : s.session? r.sid = some x) (ho : s.sourceOf r x = .udp a p)
    (cmd : Nat) (ans : Ans) : (s.reply r cmd ans).vcp.out = s.vcp.out ++
      ((Reply.mk r.sid r.seq cmd ans.fits.status ans.fits.detail ans.fits.items).datagrams x.keys).map (Datagram.mk a p) := by
  unfold State.reply
  extract_lets a' rep s1
  have h1 : s1.session? r.sid = some { x with replies := (rep :: x.replies).take 16, progress := x.progress.filter (· ≠ r.seq) } := by
    simp only [s1]
    rw [State.session?_updSession _ _ _ _ (by exact fun _ => rfl), if_pos rfl, hx]
    rfl
  have ho1 : s1.sourceOf { sid := rep.sid, seq := rep.seq }
      { x with replies := (rep :: x.replies).take 16, progress := x.progress.filter (· ≠ r.seq) } = .udp a p := ho
  rw [h1]
  simp only [State.send, ho1]
  rfl

theorem State.send_last (s : State) (x : Session) (rep : Machine.Reply) : (s.send x rep).vcp.last = some rep := by
  simp only [State.send, State.sendTo]
  split <;> simp

/-! ### The cases of serving (R314, R319, R321) -/

section
variable {s : State} {r : Req} {cmd need : Nat} {act : Session → State → State × Option Ans} {x : Session}

/-- A failure told in a reply. -/
theorem State.replyFail_after {u : State} (h : s.frame u replyParts) (e : Nat) :
    (u.reply r cmd { status := e }).answers r cmd e 0 [] ∧ s.frame (u.reply r cmd { status := e }) replyParts :=
  ⟨State.reply_answers_nil e 0, State.frame_next h (State.reply_frame _ _ _ _)⟩

theorem State.unbox_frame (s : State) (r : Req) : s.frame (s.unbox r) replyParts := by simp [State.frame_iff, Part.same, replyParts]

section
variable (hs : s.serves = true)
include hs

theorem State.serve_waits (ht : s.turn r = false) : s.serve r cmd need act = s := by
  rw [State.serve, hs, ht]
  rfl

variable (ht : s.turn r = true)
include ht

theorem State.serve_closed (hx : s.session? r.sid = none) : s.serve r cmd need act = (s.unbox r).reply r cmd { status := Err.session } := by
  have hx' : (s.unbox r).session? r.sid = none := hx
  simp only [State.serve, hs, ht, hx', Bool.not_true, Bool.or_self, Bool.false_eq_true, if_false]

variable (hx : s.session? r.sid = some x) (h0 : 0 < r.seq) (hmax : r.seq ≤ 0xFFFFFFFF)
include hx h0 hmax

theorem State.serve_replays {rep : Machine.Reply} (hc : x.seqCase r.seq = .replay rep) :
    s.serve r cmd need act = (s.unbox r).send x rep := by
  have hx' : (s.unbox r).session? r.sid = some x := hx
  have hseq : ¬ (0xFFFFFFFF < r.seq ∨ r.seq = 0) := by omega
  simp only [State.serve, hs, ht, hx', Bool.not_true, Bool.or_self, Bool.false_eq_true, if_false, hseq, hc]

variable (hc : x.seqCase r.seq = .fresh)
include hc

theorem State.serve_busy (hb : 16 ≤ x.progress.length) : s.serve r cmd need act = (s.admitted r).reply r cmd { status := Err.busy } := by
  have hx' : (s.unbox r).session? r.sid = some x := hx
  have hseq : ¬ (0xFFFFFFFF < r.seq ∨ r.seq = 0) := by omega
  simp only [State.serve, hs, ht, hx', Bool.not_true, Bool.or_self, Bool.false_eq_true, if_false, hseq, hc, hb, if_true]
  rfl

theorem State.serve_owner (hb : x.progress.length < 16) (hn : need < x.role) :
    s.serve r cmd need act = (s.admitted r).reply r cmd { status := Err.owner } := by
  have hx' : (s.unbox r).session? r.sid = some x := hx
  have hseq : ¬ (0xFFFFFFFF < r.seq ∨ r.seq = 0) := by omega
  simp only [State.serve, hs, ht, hx', Bool.not_true, Bool.or_self, Bool.false_eq_true, if_false, hseq, hc, Nat.not_le.2 hb, hn, if_true]
  rfl

end

end

/-- Settles O30: the runs of a body, the way of a reply, then serving by the cases of the request. -/
theorem requestsAreAdmittedOrRefused : Obligations.RequestsAreAdmittedOrRefused := by
  unfold Obligations.RequestsAreAdmittedOrRefused
  refine ⟨bodyRuns_cut, fun s r cmd a p ans x hx ho => State.reply_out hx ho cmd ans, fun s r cmd need act hs =>
    ⟨State.serve_waits hs, fun ht => ⟨fun hx => ?_, fun x hx h0 hmax hc => ⟨fun hb => ?_, fun hb hn => ?_, fun hb hn => ?_⟩,
      fun x rep hx h0 hmax hc => ?_⟩⟩⟩
  · exact ⟨_, State.serve_closed hs ht hx, State.replyFail_after (s.unbox_frame r) _⟩
  · exact ⟨_, State.serve_busy hs ht hx h0 hmax hc hb, State.replyFail_after (s.admitted_frame r) _⟩
  · exact ⟨_, State.serve_owner hs ht hx h0 hmax hc hb hn, State.replyFail_after (s.admitted_frame r) _⟩
  · exact State.serve_admits ⟨hs, ht, hx, ⟨h0, hmax⟩, hc, hb, hn⟩ cmd act
  · rw [State.serve_replays hs ht hx h0 hmax hc]
    exact ⟨State.send_last _ _ _, by simp⟩

end Sys2Proof.Machine
end

section
/-! PROOFS. Partitions claimed and released, event queues read, acknowledged and delivered (R306, R317, R331–R333); O32. -/

namespace Sys2Proof.Machine

open Fmt

/-! ### Partitions (R317) -/

section
variable (s : State)

theorem State.setOwner_frame (p sid : Nat) : s.frame (s.setOwner p sid) [.sessions, .vcp] := s.setVcp_frame _ rfl

theorem State.owner_setOwner (p q sid : Nat) : (s.setOwner p sid).owner q = if q = p then sid else s.owner q := Cells.get_put _ _ _ _ _

/-- Partitions given to an owner one after the other are its, and no other changes. -/
theorem State.owner_foldl_setOwner (sid : Nat) (ps : List Nat) (s : State) (q : Nat) :
    (ps.foldl (fun s p => s.setOwner p sid) s).owner q = if q ∈ ps then sid else s.owner q := by
  induction ps generalizing s with
  | nil => rfl
  | cons p ps ih =>
    rw [List.foldl_cons, ih, State.owner_setOwner]
    by_cases hq : q = p
    · simp [hq]
    · simp [hq]

/-- Claiming partitions that are unowned or the session's own gives them to it. -/
theorem State.claim_foldl (sid : Nat) (ps : List Nat) (s : State) (h : ∀ p ∈ ps, s.owner p = 0 ∨ s.owner p = sid) :
    ps.foldl (fun s p => s.claimOne sid p) s = ps.foldl (fun s p => s.setOwner p sid) s := by
  induction ps generalizing s with
  | nil => rfl
  | cons p ps ih =>
    have hone : s.claimOne sid p = s.setOwner p sid := if_pos (h p (by simp))
    rw [List.foldl_cons, List.foldl_cons, hone]
    refine ih _ (fun q hq => ?_)
    rw [State.owner_setOwner]
    split
    · exact .inr rfl
    · exact h q (List.mem_cons_of_mem _ hq)

theorem State.foldl_setOwner_frame (sid : Nat) (ps : List Nat) : s.frame (ps.foldl (fun s p => s.setOwner p sid) s) replyParts :=
  State.frame_foldl (fun u p => u.setOwner_frame p sid) ps s

end

section
variable {s : State} {r : Req} {x : Session} {mask : Nat}

/-- A partition command that gives the mask's partitions to an owner. -/
theorem partitions_given {c : Instr} {cmd sid : Nat} (hexec : exec c s = .next
    (((maskParts mask).foldl (fun s p => s.setOwner p sid) (s.admitted r)).reply r cmd ⟨0, 0, []⟩)) :
    ∃ t, exec c s = .next t ∧ t.answers r cmd 0 0 [] ∧ (∀ p ∈ maskParts mask, t.owner p = sid) ∧
      (∀ p, p ∉ maskParts mask → t.owner p = s.owner p) ∧ s.frame t replyParts := by
  have howner : ∀ p, ((((maskParts mask).foldl (fun s p => s.setOwner p sid) (s.admitted r)).reply r cmd ⟨0, 0, []⟩)).owner p =
      if p ∈ maskParts mask then sid else s.owner p := fun p => by
    rw [State.owner, (State.reply_vcp _ r cmd _).2.1]
    exact State.owner_foldl_setOwner sid _ (s.admitted r) p
  refine ⟨_, hexec, State.reply_answers_nil _ _, fun p hp => by rw [howner, if_pos hp], fun p hp => by rw [howner, if_neg hp],
    State.request_frame (by decide) (State.foldl_setOwner_frame _ _ _) _⟩

theorem execPartitionClaim_granted (h : s.admits r 1 x) (ha : s.audioServed = true) (hask : s.asks r (.partitionClaim r mask false) = true)
    (hok : (s.admitted r).claimError x mask false = 0) (hfree : ∀ p ∈ maskParts mask, s.owner p = 0 ∨ s.owner p = r.sid) :
    exec (.partitionClaim r mask false) s = .next (((maskParts mask).foldl (fun s p => s.setOwner p r.sid) (s.admitted r)).reply r 0x0005
      ⟨0, 0, []⟩) := by
  have hfree' : ∀ p ∈ maskParts mask, (s.admitted r).owner p = 0 ∨ (s.admitted r).owner p = r.sid := hfree
  have hsid : x.sid = r.sid := State.admits_sid h
  have hok' : (s.admitted r).claimError (x.accept r.seq) mask false = 0 := hok
  show execPartitionClaim r mask false s = _
  rw [execPartitionClaim, State.ifAsked_asked hask]
  refine congrArg _ ((State.serveAudio_served ha h).trans (State.serve_answered h ?_))
  simp only [hok', ne_eq, not_true_eq_false, if_false, Session.accept_fields, hsid, State.claim_foldl r.sid _ _ hfree']
  rfl

theorem execPartitionRelease_granted (h : s.admits r 1 x) (ha : s.audioServed = true) (hask : s.asks r (.partitionRelease r mask) = true)
    (h0 : bit mask 0 = false) (hown : ∀ p ∈ maskParts mask, s.owner p = r.sid) :
    exec (.partitionRelease r mask) s = .next (((maskParts mask).foldl (fun s p => s.setOwner p 0) (s.admitted r)).reply r 0x0006
      ⟨0, 0, []⟩) := by
  have hsid : x.sid = r.sid := State.admits_sid h
  have hno : ¬ (bit mask 0 = true ∨ (maskParts mask).any (fun p => decide ((s.admitted r).owner p ≠ (x.accept r.seq).sid)) = true) := by
    have hown' : ∀ p ∈ maskParts mask, (s.admitted r).owner p = r.sid := hown
    simpa [h0, Session.accept_fields, hsid] using hown'
  show execPartitionRelease r mask s = _
  rw [execPartitionRelease, State.ifAsked_asked hask]
  exact congrArg _ ((State.serveAudio_served ha h).trans (State.serve_answered h (if_neg hno)))

end

/-! ### Queues (R332) -/

section
variable {x : Session} {mcc : Nat}

/-- With nothing lost a queue takes no overflow record. -/
theorem Session.refill_kept (h : x.lost = 0) (mcc : Nat) : ∃ b, x.refill mcc = { x with full := b } := by
  unfold Session.refill
  extract_lets y
  have hy : ∃ b, y = { x with full := b } := by
    simp only [y]
    split
    · exact ⟨x.full, rfl⟩
    · exact ⟨false, rfl⟩
  obtain ⟨b, hb⟩ := hy
  rw [hb, if_neg (by simp [h])]
  exact ⟨b, rfl⟩

/-- What is lost goes into an overflow record where the queue has room. -/
theorem Session.refill_lost (h : x.lost ≠ 0) (hroom : x.queue.length < 1024) (mcc : Nat) : ∃ b, x.refill mcc = { x with
    queue := x.queue ++ [x.newRec Ev.queueOverflow.id (min 255 x.lost) 0 false mcc (min 0xFFFFFFFF x.lost)]
    nextEv := x.nextEv + 1, full := b, lost := 0 } := by
  unfold Session.refill
  extract_lets y
  have hy : ∃ b, y = { x with full := b } := by
    simp only [y]
    split
    · exact ⟨x.full, rfl⟩
    · exact ⟨false, rfl⟩
  obtain ⟨b, hb⟩ := hy
  rw [hb, if_pos ⟨h, hroom⟩]
  exact ⟨_, rfl⟩

theorem Session.deliver_kept (h : x.lost = 0) (seqs : List Nat) (push : Bool) (mcc : Nat) : (x.deliver seqs push mcc).nextEv = x.nextEv := by
  unfold Session.deliver
  extract_lets mark
  obtain ⟨b, hb⟩ := Session.refill_kept (x := { x with queue := x.queue.map mark }) h mcc
  rw [hb]

/-- Records that leave a queue that has lost some make room for the overflow record. -/
theorem Session.leave_lost (h : x.lost ≠ 0) {l : List Nat} (hroom : (x.queue.filter (fun q => !l.contains q.seq)).length < 1024) (mcc : Nat) :
    (x.leave l mcc).queue = x.queue.filter (fun q => !l.contains q.seq) ++
      [x.newRec Ev.queueOverflow.id (min 255 x.lost) 0 false mcc (min 0xFFFFFFFF x.lost)] ∧
    (x.leave l mcc).lost = 0 ∧ (x.leave l mcc).nextEv = x.nextEv + 1 := by
  obtain ⟨b, hb⟩ := Session.refill_lost (x := { x with queue := x.queue.filter (fun q => !l.contains q.seq) }) h hroom mcc
  rw [Session.leave, hb]
  exact ⟨rfl, rfl, rfl⟩

/-- The records up to a number are those that leave. -/
theorem filter_upTo (l : List QRec) (n : Nat) :
    l.filter (fun q => !((l.filter (fun q => decide (q.seq ≤ n))).map (fun q => q.seq)).contains q.seq) = l.filter (fun q => decide (n < q.seq)) := by
  refine List.filter_congr (fun q hq => ?_)
  rw [Bool.eq_iff_iff]
  simp only [Bool.not_eq_true', List.contains_eq_mem, decide_eq_false_iff_not, decide_eq_true_eq, List.mem_map, List.mem_filter]
  constructor
  · intro h
    by_contra hle
    exact h ⟨q, ⟨hq, by omega⟩, rfl⟩
  · rintro h ⟨p, ⟨-, hp⟩, hps⟩
    omega

end

/-! ### Events read and acknowledged (R333) -/

section
variable {s : State} {r : Req} {x : Session} {need : Nat}

/-- A session that has a request taken. -/
def State.taken (s : State) (r : Req) (x : Session) : Session := { x.accept r.seq with heard := s.mcc }

/-- A session changed by its request, after the reply. -/
theorem State.session?_replied {u : State} {f : Session → Session} (h : s.admits r need x) (hf : ∀ y, (f y).sid = y.sid)
    (hu : u.session? r.sid = ((s.admitted r).updSession r.sid f).session? r.sid) (cmd : Nat) (a : Ans) :
    ∃ l p, (u.reply r cmd a).session? r.sid = some { f (s.taken r x) with replies := l, progress := p } := by
  have hx : u.session? r.sid = some (f (s.taken r x)) := by
    rw [hu, State.session?_updSession _ _ _ _ hf, if_pos rfl, State.session?_admitted h]
    rfl
  obtain ⟨l, hl⟩ := State.session?_reply hx cmd a
  exact ⟨l, _, hl⟩

theorem State.session?_updQueue (s : State) (sid : Nat) (f : Session → Session) (j : Nat) :
    (s.updQueue sid f).session? j = (s.updSession sid f).session? j := by
  unfold State.updQueue
  extract_lets u
  split <;> rfl

/-- A fresh overflow record is an occurrence of EV_QUEUE_OVERFLOW (R334). -/
theorem State.updQueue_marks {s : State} {sid : Nat} {x : Session} {f : Session → Session} (hx : s.session? sid = some x)
    (hf : (f x).nextEv ≠ x.nextEv) : (s.updQueue sid f).marks .queueOverflow := by
  unfold State.updQueue
  extract_lets u
  rw [hx, if_pos (by simpa using hf)]
  have hset : bit (setBit u.ev.stat Ev.queueOverflow.id true) Ev.queueOverflow.id = true := by simp [bit_setBit_true]
  exact hset

/-- The numbers of the records up to one. -/
def Session.upTo (x : Session) (n : Nat) : List Nat := (x.queue.filter (fun q => decide (q.seq ≤ n))).map (fun q => q.seq)

theorem execEventAck_admitted (h : s.admits r 3 x) (n : Nat) : exec (.eventAck r n) s =
    .next (((s.admitted r).updQueue r.sid (fun y => y.leave (x.upTo n) s.mcc)).reply r 0x0402 ⟨0, 0, []⟩) := by
  have hsid : x.sid = r.sid := State.admits_sid h
  refine congrArg _ (State.serve_answered h ?_)
  simp only [Session.accept_fields, hsid]
  rfl

theorem execEventRead_admitted (h : s.admits r 3 x) (start : Nat) : exec (.eventRead r start) s =
    .next (((s.admitted r).updQueue r.sid (fun y => y.deliver ((x.queue.filter (fun q => decide (start ≤ q.seq))).map (·.seq)) false s.mcc)).reply
      r 0x0401 ⟨0, 0, [.words ((x.queue.filter (fun q => decide (start ≤ q.seq))).flatMap QRec.words)]⟩) := by
  have hsid : x.sid = r.sid := State.admits_sid h
  refine congrArg _ (State.serve_answered h ?_)
  simp only [Session.accept_fields, hsid]
  rfl

theorem execEventMask_admitted (h : s.admits r 3 x) (mask : Nat) {k : Nat} (h1 : 1 ≤ k) (h2 : k ≤ 1000) : exec (.eventMask r mask k) s =
    .next (((s.admitted r).updSession r.sid (fun y => { y with evMask := mask % 2 ^ 256, interval := k, since := s.mcc, ends := 0 })).reply
      r 0x0403 ⟨0, 0, []⟩) := by
  have hsid : x.sid = r.sid := State.admits_sid h
  have hk : ¬ (k = 0 ∨ 1000 < k) := by omega
  refine congrArg _ (State.serve_answered h ?_)
  simp only [Session.accept_fields, hsid, hk, if_false]
  rfl

/-- A queue change without an overflow record touches the session table. -/
theorem State.updQueue_quiet_frame (h : s.admits r need x) {f : Session → Session} (hf : (f (s.taken r x)).nextEv = x.nextEv) :
    (s.admitted r).frame ((s.admitted r).updQueue r.sid f) replyParts := by
  rw [State.updQueue_quiet (State.session?_admitted h) hf]
  exact State.frame_mono (State.updSession_frame _ _ _) (by decide)

end

/-! ### The end of a delivery interval (R333) -/

section
variable {s : State} {x : Session} {sid : Nat}

theorem execDeliveryIntervalEnd_early (hx : s.session? sid = some x) (hd : s.intervalDue x = false) :
    exec (.deliveryIntervalEnd sid) s = .next s := by
  show execDeliveryIntervalEnd sid s = _
  rw [execDeliveryIntervalEnd, hx]
  simp [hd]

/-- The next interval counts. -/
def State.intervalCounted (s : State) (sid : Nat) : State := s.updSession sid (fun y => { y with ends := y.ends + 1 })

theorem execDeliveryIntervalEnd_due (hl : s.live = true) (hx : s.session? sid = some x) (hd : s.intervalDue x = true) :
    exec (.deliveryIntervalEnd sid) s = .next (match x.origin with
      | .udp _ _ => (s.intervalCounted sid).pushEvents x
      | .mbx c => if c < 7 then (s.intervalCounted sid).ringEvents x c else s.intervalCounted sid) := by
  show execDeliveryIntervalEnd sid s = _
  rw [execDeliveryIntervalEnd, hx]
  simp only [hl, hd, Bool.not_true, Bool.or_self, Bool.false_eq_true, if_false]
  cases x.origin <;> rfl

theorem State.session?_intervalCounted (hx : s.session? sid = some x) :
    (s.intervalCounted sid).session? sid = some { x with ends := x.ends + 1 } := by
  rw [State.intervalCounted, State.session?_updSession _ _ _ _ (by exact fun _ => rfl), if_pos rfl, hx]
  rfl

theorem State.pushEvents_pushes (s : State) (hl : x.queue.filter s.pushDue ≠ []) : (s.pushEvents x).vcp.pushes =
    [{ sid := x.sid, seq := x.pushSeq + 1, cmd := 0x0405, items := [.words ((x.queue.filter s.pushDue).flatMap QRec.words)] }] := by
  unfold State.pushEvents
  extract_lets l s1
  rw [if_neg (fun he => hl (List.isEmpty_iff.1 he))]
  exact State.sendPushes_pushes _ _

/-- A push touches the session's entry and the reply machinery. -/
theorem State.pushEvents_frame {y : Session} (hy : s.session? x.sid = some y) (hlost : y.lost = 0) : s.frame (s.pushEvents x) replyParts := by
  unfold State.pushEvents
  extract_lets l s1
  have hquiet : s1 = _ := State.updQueue_quiet hy (Session.deliver_kept hlost _ _ _)
  have h1 : s.frame s1 replyParts := by
    rw [hquiet]
    exact State.frame_mono (State.updSession_frame _ _ _) (by decide)
  exact State.frame_ite (s.frame_refl _) (State.frame_next h1 (State.frame_mono (State.sendPushes_frame _ _) (by decide)))

/-- A record in the event ring takes 16 bytes. -/
theorem QRec.words_bytes (q : QRec) : (q.words.flatMap (toBE 4)).length = 16 := by simp [QRec.words, toBE]

/-- Records written into an event ring leave the bytes outside it. -/
theorem ring_outside (b w : Nat) (l : List (QRec × Nat)) (m : Memory) {a : Nat} (ha : a < b + 0x18000 ∨ b + 0x20000 ≤ a) :
    (l.foldl (fun (m : Memory) (q : QRec × Nat) => m.writeAll (b + 0x18000 + (w + q.2) % 2048 * 16) (q.1.words.flatMap (toBE 4))) m).read a =
      m.read a := by
  refine l.foldlRecOn (motive := fun (t : Memory) => t.read a = m.read a) _ rfl (fun t ht q _ => ?_)
  rw [Memory.read_writeAll_other _ _ _ _ ?_, ht]
  have hslot : (w + q.2) % 2048 < 2048 := Nat.mod_lt _ (by omega)
  rw [QRec.words_bytes]
  omega

/-- The records that an interval's end writes into a session's ring. -/
def Session.ringDue (x : Session) : List QRec := (x.queue.filter (fun q => !q.delivered)).take (2047 - x.ring.length)

theorem State.ringEvents_after (s : State) {y : Session} (c : Nat) (hy : s.session? x.sid = some y) (hlost : y.lost = 0) :
    ((s.ringEvents x c).channel c).evw = ((s.channel c).evw + x.ringDue.length) % 2048 ∧
    (∀ a, a < mbxBase c + 0x18000 ∨ mbxBase c + 0x20000 ≤ a → (s.ringEvents x c).vcp.mbx.read a = s.vcp.mbx.read a) ∧
    s.frame (s.ringEvents x c) [.sessions, .vcp, .mailbox] := by
  unfold State.ringEvents
  extract_lets l w m s1
  have h1 : s.frame s1 [.vcp, .mailbox] := by simp [s1, State.frame_iff, Part.same, State.setVcp, State.updChannel]
  have hevw : (s1.channel c).evw = (w + l.length) % 2048 := congrArg Channel.evw (State.channel_updChannel _ c _)
  rw [State.updQueue_quiet (s := s1) hy (Session.deliver_kept hlost _ _ _)]
  have hq := s1.updSession_frame x.sid (fun y => { Session.deliver y (l.map (·.seq)) false s.mcc with ring := x.ring ++ l.map (·.seq) })
  refine ⟨(congrArg Channel.evw (State.channel_of_frame hq (by decide) c)).trans hevw, fun a ha => ?_,
    State.frame_next (State.frame_mono h1 (by decide)) (State.frame_mono hq (by decide))⟩
  exact ring_outside _ _ _ _ ha

end

/-- Settles O32: the partition commands, the event commands, then the three ends of a delivery interval. -/
theorem partitionsAndEventQueues : Obligations.PartitionsAndEventQueues := by
  unfold Obligations.PartitionsAndEventQueues
  intro s r x
  refine ⟨fun mask h ha hask hok _ hfree => partitions_given (execPartitionClaim_granted h ha hask hok hfree),
    fun mask h ha hask h0 hown _ => partitions_given (execPartitionRelease_granted h ha hask h0 hown),
    fun mask k h h1 h2 => ?_, fun start h hlost hask hfit => ?_, fun upTo h => ⟨fun hlost => ?_, fun hlost hroom => ?_⟩,
    fun hx hd => execDeliveryIntervalEnd_early hx hd, fun a p hl hx ho hd hlost hne => ?_, fun c hl hx ho hc hd hlost => ?_⟩
  · obtain ⟨l, p, hy⟩ := State.session?_replied h (f := fun y => { y with evMask := mask % 2 ^ 256, interval := k, since := s.mcc, ends := 0 })
      (fun _ => rfl) rfl 0x0403 ⟨0, 0, []⟩
    exact ⟨_, _, execEventMask_admitted h mask h1 h2, State.reply_answers_nil _ _, hy, rfl, rfl, rfl, rfl, rfl,
      State.request_frame (by decide) (State.frame_mono (State.updSession_frame _ _ _) (by decide)) _⟩
  · exact ⟨_, execEventRead_admitted h start, State.reply_answers_items hfit,
      State.request_frame (by decide) (State.updQueue_quiet_frame h (Session.deliver_kept (x := s.taken r x) hlost _ _ _)) _⟩
  · obtain ⟨hqueue, hnext⟩ := Session.leave_kept (x := s.taken r x) hlost (x.upTo upTo) s.mcc
    obtain ⟨l, p, hy⟩ := State.session?_replied h (f := fun y => y.leave (x.upTo upTo) s.mcc) (fun _ => Session.refill_sid _ _)
      (State.session?_updQueue _ _ _ _) 0x0402 ⟨0, 0, []⟩
    exact ⟨_, _, execEventAck_admitted h upTo, State.reply_answers_nil _ _, hy, hqueue.trans (filter_upTo _ _),
      State.request_frame (by decide) (State.updQueue_quiet_frame h hnext) _⟩
  · have hfilter : (s.taken r x).queue.filter (fun q => !(x.upTo upTo).contains q.seq) = x.queue.filter (fun q => decide (upTo < q.seq)) :=
      filter_upTo _ _
    obtain ⟨hqueue, hzero, hnext⟩ := Session.leave_lost (x := s.taken r x) hlost (l := x.upTo upTo) (by rw [hfilter]; exact hroom) s.mcc
    obtain ⟨l, p, hy⟩ := State.session?_replied h (f := fun y => y.leave (x.upTo upTo) s.mcc) (fun _ => Session.refill_sid _ _)
      (State.session?_updQueue _ _ _ _) 0x0402 ⟨0, 0, []⟩
    refine ⟨_, _, execEventAck_admitted h upTo, State.reply_answers_nil _ _, hy, hqueue.trans (by rw [hfilter]; rfl), hzero, ?_,
      State.request_frame (by decide) (State.frame_mono (State.updQueue_frame _ _ _) (by decide)) _⟩
    exact State.marks_of_frame (State.reply_frame _ _ _ _) (by decide)
      (State.updQueue_marks (State.session?_admitted h) (fun e => absurd (hnext.symm.trans e) (by simp [State.taken, Session.accept])))
  · have hsid : x.sid = r.sid := State.session?_sid hx
    have hy := (congrArg (s.intervalCounted r.sid).session? hsid).trans (State.session?_intervalCounted hx)
    have hexec := execDeliveryIntervalEnd_due hl hx hd
    rw [ho] at hexec
    refine ⟨_, hexec, (State.pushEvents_pushes (s.intervalCounted r.sid) hne).trans (by rw [hsid]; rfl), ?_⟩
    exact State.frame_next (State.frame_mono (s.updSession_frame _ _) (by decide)) (State.pushEvents_frame hy hlost)
  · have hsid : x.sid = r.sid := State.session?_sid hx
    have hy := (congrArg (s.intervalCounted r.sid).session? hsid).trans (State.session?_intervalCounted hx)
    have hexec := execDeliveryIntervalEnd_due hl hx hd
    rw [ho] at hexec
    obtain ⟨hevw, hmbx, hframe⟩ := (s.intervalCounted r.sid).ringEvents_after c hy hlost
    exact ⟨_, hexec.trans (congrArg _ (if_pos hc)), hevw, hmbx,
      State.frame_next (State.frame_mono (s.updSession_frame _ _) (by decide)) hframe⟩

end Sys2Proof.Machine
end

section
/-! PROOFS. Heartbeats, the lease, handover and swap of a twin pair (R424, R427, R439–R445); O51. -/

namespace Sys2Proof.Machine

open Fmt

/-! ### The twin state after a change of role (R424, R427) -/

/-- The latest reply is of the rest of the control plane's group. -/
theorem State.last_of_frame {s t : State} {l : List Part} (h : s.frame t l) (hv : .vcp ∉ l) : t.vcp.last = s.vcp.last := by
  have hrest : { t.vcp with sessions := [], mbx := [] } = { s.vcp with sessions := [], mbx := [] } := h .vcp hv
  have hlast := congrArg VcpG.last hrest
  exact hlast

section
variable (s : State) (new : Role) (cause : Nat)

/-- What a role begins anew, the pins, and maybe an announcement more. -/
theorem State.setRole_twin : ∃ n, (s.setRole new cause).twin = { s.twin.assume new s.mcc with
    ownN := !(new.owns && s.live), aliveHeld := !s.live || decide (new = .fenced), arps := n } := by
  obtain ⟨-, n, hn⟩ := s.setRole_tail new cause
  exact ⟨n, hn.trans (by rw [State.assumed_twin])⟩

theorem State.setRole_role : (s.setRole new cause).twin.role = new := (roleChangesTakeEffect s new cause).1

/-- With no swap asked for no reply leaves. -/
theorem State.setRole_last (h : s.twin.swapReq = none) : (s.setRole new cause).vcp.last = s.vcp.last := by
  rw [State.setRole_eq, h]
  have hraise := State.raiseD_frame (((s.assumed new).refFor new).moveSessions s.twin.role new) .twinRole 0 new.code
    [s.twin.role.code, new.code, cause]
  have hmove := ((s.assumed new).refFor new).moveSessions_frame new s.twin.role
  have hf := State.frame_trans (State.frame_trans (s.assumed_frame new) ((s.assumed new).refFor_retuned new).frame) (State.frame_trans hmove hraise)
  exact State.last_of_frame hf (by decide)

end

/-! ### Heartbeats (R428, R439) -/

section
variable (s : State)

theorem State.pathSet_frame (k : Nat) (up : Bool) : s.frame (s.pathSet k up) [.twin, .ev, .sessions] := by
  have hset : s.frame (s.setTwin (fun t => { t with paths := setBit t.paths k up })) [.twin] := s.setTwin_frame _ (by decide)
  exact State.frame_ite (s.frame_refl _) (State.raise_after hset (by decide) .twinHb 0 k (b2n up)).2

/-- A path that changes is told. -/
theorem State.pathSet_told {s : State} {k : Nat} {up : Bool} (h : bit s.twin.paths k ≠ up) : s.told (s.pathSet k up) .twinHb 0 k (b2n up) := by
  have hset : s.frame (s.setTwin (fun t => { t with paths := setBit t.paths k up })) [.twin] := s.setTwin_frame _ (by decide)
  rw [State.pathSet, if_neg h]
  exact (State.raise_after hset (by decide) .twinHb 0 k (b2n up)).1

/-- Of the twin state a path changes the paths alone. -/
theorem State.pathSet_twin (k : Nat) (up : Bool) : (s.pathSet k up).twin =
    { s.twin with paths := if bit s.twin.paths k = up then s.twin.paths else setBit s.twin.paths k up } := by
  rw [State.pathSet]
  split
  · rfl
  · simp

/-- A path is as it was set. -/
theorem State.pathSet_bit (k : Nat) (up : Bool) (j : Nat) :
    bit (s.pathSet k up).twin.paths j = if j = k then up else bit s.twin.paths j := by
  rw [State.pathSet_twin]
  by_cases hk : bit s.twin.paths k = up
  · simp only [if_pos hk]
    split <;> simp_all
  · rw [if_neg hk]
    have hsymm : (decide (k = j)) = decide (j = k) := decide_eq_decide.2 eq_comm
    by_cases hj : j = k
    · cases up <;> simp [bit_setBit_true, bit_setBit_false, hj]
    · cases up <;> simp [bit_setBit_true, bit_setBit_false, hsymm, hj]

/-- What a heartbeat shows of the peer. -/
def State.peerSeen (hb : Heartbeat) : State :=
  s.setTwin (fun t => { t with
    peer := some hb, peerAlive := !hb.boot && decide (hb.role ≠ 4), peerOwn := !hb.boot && !hb.run && decide (hb.role ≤ 1)
    image := t.image && hb.boot })

/-- The same, with the path that the heartbeat came by. -/
def State.hbTaken (twl : Bool) (hb : Heartbeat) : State := (s.pathSet (if twl then 0 else 1) true).peerSeen hb

theorem State.hbTaken_frame (twl : Bool) (hb : Heartbeat) : s.frame (s.hbTaken twl hb) [.twin, .ev, .sessions] :=
  State.frame_next (s.pathSet_frame _ _) (State.setTwin_frame _ _ (by decide))

/-- Of the twin state a heartbeat changes the peer, the paths and the image's mark. -/
theorem State.hbTaken_twin (twl : Bool) (hb : Heartbeat) : ∃ p a o i, (s.hbTaken twl hb).twin =
    { s.twin with paths := p, peer := some hb, peerAlive := a, peerOwn := o, image := i } := by
  rw [State.hbTaken]
  exact ⟨_, _, _, _, congrArg (fun t : TwinG => { t with
    peer := some hb, peerAlive := !hb.boot && decide (hb.role ≠ 4), peerOwn := !hb.boot && !hb.run && decide (hb.role ≤ 1)
    image := t.image && hb.boot }) (s.pathSet_twin _ _)⟩

variable {s}

/-- A heartbeat in RUN, to a chip with a role. -/
theorem execTwinHeartbeat_run {twl : Bool} {hb : Heartbeat} (hup : s.twinUp = true) (hrole : s.twin.hasRole = true) (hrun : s.dev = .run) :
    exec (.twinHeartbeat twl hb) s = .next (if twl then (((s.hbTaken twl hb).peerLeft hb).autoRejoin hb).compare hb
      else ((s.hbTaken twl hb).peerLeft hb).autoRejoin hb) := by
  have hready : s.bootReady = s := State.bootReady_waits (by simp [hrun])
  have hfirst : (s.hbTaken twl hb).firstRole = s.hbTaken twl hb := by
    obtain ⟨p, a, o, i, ht⟩ := s.hbTaken_twin twl hb
    exact if_pos (.inl (by rw [ht]; exact hrole))
  show execTwinHeartbeat twl hb s = _
  rw [execTwinHeartbeat, hready]
  simp only [hup, hrun, Bool.not_true, Bool.false_eq_true, if_false, reduceCtorEq, false_and]
  show Host.Outcome.next (if twl then ((((s.hbTaken twl hb).firstRole).peerLeft hb).autoRejoin hb).compare hb
    else (((s.hbTaken twl hb).firstRole).peerLeft hb).autoRejoin hb) = _
  rw [hfirst]

/-- A chip that is not SOLO asks for no token as a peer joins (R446). -/
theorem State.autoRejoin_other (h : s.twin.role ≠ .solo) (hb : Heartbeat) : s.autoRejoin hb = s := if_neg (fun k => h k.1)

theorem State.maintAsk_frame (s : State) (m : Maint) (noWait : Bool) : s.frame (s.maintAsk m noWait).1 [.fault, .ev, .sessions] := by
  have hset := fun f => s.setFault_frame f (l := [.fault]) (by decide)
  unfold State.maintAsk
  split_ifs
  · exact (State.raise_after (hset _) (by decide) _ _ _ _).2
  · exact s.frame_refl _
  · exact s.frame_refl _
  · exact State.frame_mono (hset _) (by decide)

/-- The token for a resynchronisation begins it. -/
theorem State.maintBegin_rejoins (h : s.maintOn 6 = true) : s.maintBegin = s.setTwin (fun t => { t with resync := 1 }) := by
  obtain ⟨m, hm, hc⟩ := (Option.any_eq_true _ _).1 h
  have hcode : m.code = 6 := by simpa using hc
  simp only [State.maintBegin, hm, hcode]

/-- Asking for the token as a peer joins leaves the role. -/
theorem State.autoRejoin_role (hb : Heartbeat) : (s.autoRejoin hb).twin.role = s.twin.role := by
  unfold State.autoRejoin
  split
  · extract_lets s1
    have h1 : s1.twin = s.twin := State.maintAsk_frame s { code := 6, target := 0, sid := 0 } false .twin (by decide)
    split
    · next h6 => rw [State.maintBegin_rejoins h6, ← h1]; rfl
    · rw [h1]
  · rfl

/-! ### What the peer and the lease do to an ACTIVE and a standby -/

/-- A heartbeat from a peer in step: peer and path, and nothing else. -/
theorem State.heartbeat_steady {hb : Heartbeat} (hup : s.twinUp = true) (hrole : s.twin.hasRole = true) (hact : s.twin.role = .active)
    (hrun : s.dev = .run) (hle : hb.role ≤ 2) : exec (.twinHeartbeat false hb) s = .next (s.hbTaken false hb) := by
  obtain ⟨p, a, o, i, ht⟩ := s.hbTaken_twin false hb
  have hact' : (s.hbTaken false hb).twin.role = .active := by rw [ht]; exact hact
  have hleft : (s.hbTaken false hb).peerLeft hb = s.hbTaken false hb := if_neg (fun h => by omega)
  rw [execTwinHeartbeat_run hup hrole hrun, if_neg (by decide), hleft, State.autoRejoin_other (by rw [hact']; decide)]

/-- A heartbeat from a peer that has withdrawn or is fenced makes an ACTIVE SOLO. -/
theorem State.heartbeat_withdrawn {hb : Heartbeat} (hup : s.twinUp = true) (hrole : s.twin.hasRole = true) (hact : s.twin.role = .active)
    (hrun : s.dev = .run) (hpeer : hb.role = 3 ∨ hb.role = 4) (hboot : hb.boot = false) (hprun : hb.run = false)
    (hstep : s.twin.instepAt ≤ hb.mcc) : ∃ t, exec (.twinHeartbeat false hb) s = .next t ∧ t.twin.role = .solo := by
  obtain ⟨p, a, o, i, ht⟩ := s.hbTaken_twin false hb
  have hleft : (s.hbTaken false hb).peerLeft hb = (s.hbTaken false hb).setRole .solo 0x000B :=
    if_pos (by rw [ht]; simp [hact, hpeer, hboot, hprun, hstep])
  refine ⟨_, (execTwinHeartbeat_run hup hrole hrun).trans (congrArg Host.Outcome.next (if_neg (by decide))), ?_⟩
  rw [State.autoRejoin_role, hleft, State.setRole_role]

/-- The ACTIVE sends the renewal word of its own sample. -/
theorem execLeaseRenewal_active {n : Nat} (hup : s.twinUp = true) (hact : s.twin.role = .active) (hn : n = s.mcc) :
    exec (.leaseRenewal n) s = .next (s.setTwin (fun t => { t with word := some n })) := by
  show execLeaseRenewal n s = _
  simp only [execLeaseRenewal, hup, hact, if_pos hn, Bool.not_true, Bool.false_eq_true, if_false]

/-- A standby takes the renewal word and answers it. -/
theorem execLeaseRenewal_standby (n : Nat) (hup : s.twinUp = true) (hst : s.twin.role = .standby) :
    exec (.leaseRenewal n) s = .next (s.setTwin (fun t => { t with renewed := max t.renewed n, word := some n })) := by
  show execLeaseRenewal n s = _
  simp only [execLeaseRenewal, hup, hst, Bool.not_true, Bool.false_eq_true, if_false]

/-- At the announced sample an exchange of roles is answered with it, and the ACTIVE takes STANDBY. -/
theorem State.swap_exchanges {r : Req} {h : Nat} (hswap : s.twin.swap = some h) (hm : h ≤ s.mcc) (hact : s.twin.role = .active)
    (hreq : s.twin.swapReq = some r) : ∃ t, exec .twinSwapAtH s = .next t ∧ t.twin.role = .standby ∧ t.answers r 0x0607 0 0 [.mcc h] := by
  refine ⟨((s.reply r 0x0607 ⟨Err.ok, 0, [.mcc h]⟩).setTwin (fun t => { t with swapReq := none, swap := none })).setRole .standby 0x0004,
    ?_, State.setRole_role _ _ _, ?_⟩
  · show execTwinSwapAtH s = _
    simp only [execTwinSwapAtH, hswap, hact, hreq, State.swapAnswer, if_neg (Nat.not_lt.2 hm)]
  · exact (State.setRole_last _ _ _ rfl).trans (State.reply_answers_items (by simp [itemsFit, itemsSize, Item.size]; decide))

/-- A TWIN_SWAP that is granted waits for its sample, unanswered. -/
theorem execTwinSwap_granted {r : Req} {q : Session} {w : When} {h : Nat} (hadm : s.admits r 0 q) (hact : s.twin.role = .active)
    (hpeer : s.twin.peerRole = 2) (hhand : s.twin.handover = none) (hswap : s.twin.swap = none) (hat : swapAt s.mcc s.B w = some h) :
    exec (.twinSwap r w) s = .next ((s.admitted r).setTwin (fun t => { t with swap := some h, swapReq := some r })) := by
  have hat' : swapAt (s.admitted r).mcc (s.admitted r).B w = some h := hat
  show execTwinSwap r w s = _
  rw [execTwinSwap, State.serve_admits hadm]
  simp [hact, hpeer, hhand, hswap, hat]

/-- A fault outside the boundary, with no swap to abandon, starts a handover a block away, where none is announced. -/
theorem State.outside_hands (hact : s.twin.role = .active) (hswap : s.twin.swap = none) (hreq : s.twin.swapReq = none) :
    s.outside.twin = { s.twin with
      faulted := true, handover := if s.twin.handover.isSome then s.twin.handover else some (s.mcc + s.B) } ∧
    s.frame s.outside [.twin] := by
  have hout : s.outside = (s.setTwin (fun t => { t with faulted := true })).setTwin (fun t => { t with
      handover := if t.handover.isSome then t.handover else some (s.mcc + s.B), swap := none, swapReq := none }) := by
    simp only [State.outside, hact, hreq, State.swapAnswer]
  rw [hout]
  exact ⟨by simp [State.setTwin, hswap, hreq], State.frame_next (State.setTwin_frame _ _ (by decide)) (State.setTwin_frame _ _ (by decide))⟩

end

/-- Settles O51: a heartbeat is stored by `hbTaken` alone, the withdrawn peer, the silent one and the lease change the role by `setRole`, and a
swap's reply stands after the change of role since no swap is asked for any more. -/
theorem leaseAndRolesFollowThePeer : Obligations.LeaseAndRolesFollowThePeer := by
  unfold Obligations.LeaseAndRolesFollowThePeer
  intro s r q
  refine ⟨fun hb hup hrole hact hrun => ⟨fun hle => ?_, State.heartbeat_withdrawn hup hrole hact hrun⟩,
    fun hrole hbit => ?_, fun hrole => ?_, fun hen hrole => ?_, ?_, fun n hup hact hn => ?_, fun n hup hrole => ?_, fun n hup hact hn => ?_,
    fun hact => ⟨fun hold => ?_, fun hnew => ?_⟩, fun hst => ⟨fun hold => ?_, fun hnew => ?_⟩, fun h k hact hk hm => ?_,
    fun h hst hm => ?_, fun w h hadm hact hpeer hhand hswap hw => ?_, fun h hswap hm hact hreq => State.swap_exchanges hswap hm hact hreq,
    fun hact hswap hreq => ?_, fun hst => ?_⟩
  · obtain ⟨p, a, o, i, ht⟩ := s.hbTaken_twin false hb
    refine ⟨_, State.heartbeat_steady hup hrole hact hrun hle, rfl, by rw [ht]; exact hact, (s.pathSet_bit 1 true 1).trans (if_pos rfl), ?_,
      s.hbTaken_frame _ _⟩
    intro hbit
    exact State.told_of_frame (State.pathSet_told (k := 1) (up := true) (by simp [hbit])) (State.setTwin_frame _ _ (List.mem_singleton.2 rfl))
      (by decide) (by decide)
  · refine ⟨s.pathSet 0 false, congrArg Host.Outcome.next (if_neg (fun h => hrole (by simpa using h))), fun k => ?_,
      State.pathSet_told (by simp [hbit]), s.pathSet_frame _ _⟩
    rw [State.pathSet_bit]
    by_cases hk : k = 0 <;> simp [hk]
  · refine ⟨(s.pathSet 0 false).setTwin (fun t => { t with leave := some 0x0008 }), congrArg Host.Outcome.next (if_pos (by simp [hrole])), rfl,
      ?_, State.frame_next (s.pathSet_frame _ _) (State.setTwin_frame _ _ (by decide))⟩
    exact (congrArg TwinG.role (s.pathSet_twin 0 false)).trans hrole
  · refine ⟨(s.setTwin (fun t => { t with peerAlive := false, peerOwn := false })).setRole .solo 2, ?_, rfl, State.setRole_role _ _ _, ?_⟩
    · show execPeerAliveStopped s = _
      obtain h | h | h := hrole
      all_goals simp only [execPeerAliveStopped, hen, h, Bool.not_true, Bool.false_eq_true, if_false]
    · obtain ⟨n, hn⟩ := (s.setTwin (fun t => { t with peerAlive := false, peerOwn := false })).setRole_twin .solo 2
      rw [hn]
      rfl
  · refine ⟨_, rfl, rfl, rfl, fun hen hrole => ?_⟩
    by_cases hf : s.twin.role = .fenced
    · simp [State.setTwin, hf]
    · simp [State.setTwin, hen, hrole, hf, State.setRole_role]
  · exact ⟨_, execLeaseRenewal_active hup hact hn, rfl, s.setTwin_frame _ (by decide)⟩
  · exact ⟨_, execLeaseRenewal_standby n hup hrole, rfl, s.setTwin_frame _ (by decide)⟩
  · exact ⟨_, if_pos ⟨hup, hact, hn⟩, rfl, s.setTwin_frame _ (by decide)⟩
  · exact ⟨_, if_pos ⟨hact, hold⟩, rfl, State.setRole_role _ _ _, (roleChangesTakeEffect s .fenced 1).2.2.1⟩
  · exact if_neg (fun h => by omega)
  · refine ⟨_, if_pos ⟨hst, hold⟩, rfl, State.setRole_role _ _ _, ?_⟩
    simpa using (roleChangesTakeEffect s .solo 1).2.2.1
  · exact if_neg (fun h => by omega)
  · refine ⟨s.setRole .fenced 0x0003, ?_, rfl, State.setRole_role _ _ _, (roleChangesTakeEffect s .fenced 3).2.2.2.2.2.1⟩
    show execTwinHandover h s = _
    simp only [execTwinHandover, hact, hk, if_pos hm]
  · refine ⟨s.setRole .solo 0x0003, ?_, rfl, State.setRole_role _ _ _⟩
    show execTwinHandover h s = _
    simp only [execTwinHandover, hst, if_pos hm]
  · have hat : swapAt s.mcc s.B w = some h := by
      obtain ⟨rfl, rfl⟩ | ⟨rfl, hmod, hle⟩ := hw
      · rfl
      · exact if_pos ⟨hmod, hle⟩
    refine ⟨_, execTwinSwap_granted hadm hact hpeer hhand hswap hat, ?_, ?_,
      State.frame_next (State.frame_mono (s.admitted_frame r) (by decide)) (State.setTwin_frame _ _ (by decide))⟩
    · simp [State.setTwin]
    · simp [State.setTwin]
  · obtain ⟨ht, hf⟩ := State.outside_hands hact hswap hreq
    exact ⟨_, rfl, ht, hf⟩
  · refine ⟨(s.setTwin (fun t => { t with faulted := true })).setRole .fenced 0x000C, ?_, rfl, State.setRole_role _ _ _, ?_⟩
    · show Host.Outcome.next s.outside = _
      simp only [State.outside, hst]
    · obtain ⟨n, hn⟩ := (s.setTwin (fun t => { t with faulted := true })).setRole_twin .fenced 0x000C
      rw [hn]
      rfl

end Sys2Proof.Machine
end

section
/-! PROOFS. Records, digests and a rejoining chip of a twin pair (R429–R438, R446–R448); O52. -/

namespace Sys2Proof.Machine

open Fmt

/-! ### Digests that differ (R438) -/

section
variable {s : State}

/-- An occurrence told after changes that are of neither the events nor the sessions. -/
theorem State.toldD_after {u t : State} {l : List Part} {ev : Ev} {part obj : Nat} {c : List Nat} (h : u.toldD t ev part obj c)
    (hf : s.frame u l) (hl : ∀ p ∈ [Part.ev, .sessions, .mcc, .power], p ∉ l) : s.toldD t ev part obj c := by
  obtain ⟨hev, hsess⟩ := State.raiseD_told_of_frame hf hl ev part obj c
  exact ⟨h.1.trans hev, h.2.trans hsess⟩

/-- A path that is as reported stays, and nothing is told. -/
theorem State.pathSet_same {k : Nat} {up : Bool} (h : bit s.twin.paths k = up) : s.pathSet k up = s := if_pos h

/-- A block whose digests differ, as every chip in step notes it. -/
def State.diffTold (s : State) (d : Nat) : State :=
  (s.setTwin (fun t => { t with mismatch := satInc t.mismatch 1 })).raiseD .twinDigest 0 0 [d]

theorem State.diffTold_told (d : Nat) : s.toldD (s.diffTold d) .twinDigest 0 0 [d] ∧ s.frame (s.diffTold d) [.twin, .ev, .sessions] := by
  have hset : s.frame (s.setTwin (fun t => { t with mismatch := satInc t.mismatch 1 })) [.twin] := s.setTwin_frame _ (by decide)
  exact State.raiseD_after hset (by decide) .twinDigest 0 0 [d]

theorem State.diffTold_twin (d : Nat) : (s.diffTold d).twin = { s.twin with mismatch := satInc s.twin.mismatch 1 } := by
  simp [State.diffTold]

/-- The run and the blocks that a standby keeps, with one more block that differs. -/
def State.differed (s : State) (blk : Nat) : State :=
  s.setTwin (fun t => { t with
    mismRun := s.twin.mismRun + 1, mismHist := (blk :: s.twin.mismHist).filter (fun b => decide (blk < b + 1024)) })

/-- A standby withdraws from the fourth differing block in a row, or the sixteenth of 1024. -/
theorem State.standbyDiff_differs {blk d : Nat} (hst : s.twin.role = .standby) (hd : d ≠ 0) : s.standbyDiff blk d =
    if 4 ≤ s.twin.mismRun + 1 ∨ 16 ≤ ((blk :: s.twin.mismHist).filter (fun b => decide (blk < b + 1024))).length then
      (s.differed blk).withdraw 0x0005 else s.differed blk := by
  simp only [State.standbyDiff, if_pos hst, if_neg hd]
  rfl

/-- A standby that withdraws is JOINING, and what its digests count stays. -/
theorem State.withdraw_twin (hst : s.twin.role = .standby) (cause : Nat) : (s.withdraw cause).twin.role = .joining ∧
    (s.withdraw cause).twin.mismatch = s.twin.mismatch ∧ (s.withdraw cause).twin.edge = s.twin.edge := by
  obtain ⟨n, hn⟩ := (s.setTwin (fun t => { t with progress := 0 })).setRole_twin .joining cause
  rw [State.withdraw, if_pos hst, hn]
  exact ⟨rfl, rfl, rfl⟩

/-- Whatever a standby does of a block that differs, it has counted it. -/
theorem State.standbyDiff_mismatch {blk d : Nat} (hst : s.twin.role = .standby) (hd : d ≠ 0) :
    (s.standbyDiff blk d).twin.mismatch = s.twin.mismatch := by
  rw [State.standbyDiff_differs hst hd]
  split
  · exact (State.withdraw_twin (s := s.differed blk) hst 0x0005).2.1
  · rfl

/-- A block that differs begins the convergence run anew, and changes nothing else. -/
theorem State.joinDiff_differs {d : Nat} (hd : d ≠ 0) : ∃ p, s.joinDiff d = s.setTwin (fun t => { t with progress := p }) := by
  unfold State.joinDiff
  split
  · exact ⟨0, by simp [State.setTwin]⟩
  · exact ⟨s.twin.progress, rfl⟩

/-- The digests of a block, compared by a standby and found to differ. -/
theorem State.compare_differs {hb : Heartbeat} (hst : s.twin.role = .standby) (hdig : hb.digests ≠ [])
    (hown : Cells.get [] s.twin.own (hb.mcc / s.B - 1) ≠ [])
    (hd : digestDiff (Cells.get [] s.twin.own (hb.mcc / s.B - 1)) hb.digests ≠ 0) : s.compare hb =
      ((s.diffTold (digestDiff (Cells.get [] s.twin.own (hb.mcc / s.B - 1)) hb.digests)).standbyDiff (hb.mcc / s.B - 1)
        (digestDiff (Cells.get [] s.twin.own (hb.mcc / s.B - 1)) hb.digests)).joinDiff
        (digestDiff (Cells.get [] s.twin.own (hb.mcc / s.B - 1)) hb.digests) := by
  simp only [State.compare]
  rw [if_neg (by simp [hdig, hown, hst]), if_neg hd]
  rfl

/-- A heartbeat by a path that is up is the peer's alone. -/
theorem State.hbTaken_again (hb : Heartbeat) (h : bit s.twin.paths 0 = true) : s.hbTaken true hb = s.peerSeen hb :=
  congrArg (·.peerSeen hb) (State.pathSet_same (k := 0) h)

/-- A standby takes nothing from a heartbeat by TWL but the peer and the digests. -/
theorem execTwinHeartbeat_standby {hb : Heartbeat} (hup : s.twinUp = true) (hrole : s.twin.hasRole = true) (hrun : s.dev = .run)
    (hst : s.twin.role = .standby) : exec (.twinHeartbeat true hb) s = .next ((s.hbTaken true hb).compare hb) := by
  obtain ⟨p, a, o, i, ht⟩ := s.hbTaken_twin true hb
  have hst' : (s.hbTaken true hb).twin.role = .standby := by rw [ht]; exact hst
  have hleft : (s.hbTaken true hb).peerLeft hb = s.hbTaken true hb := if_neg (by simp [hst'])
  rw [execTwinHeartbeat_run hup hrole hrun, if_pos rfl, hleft, State.autoRejoin_other (by simp [hst'])]

/-- A standby whose digests of a block differ from the peer's counts it, and withdraws where its run is long enough. -/
theorem State.compare_counts {hb : Heartbeat} {blk d : Nat} (hst : s.twin.role = .standby) (hdig : hb.digests ≠ [])
    (hblk : blk = hb.mcc / s.B - 1) (hown : Cells.get [] s.twin.own blk ≠ []) (hdiff : d = digestDiff (Cells.get [] s.twin.own blk) hb.digests)
    (hd : d ≠ 0) : (s.compare hb).twin.mismatch = satInc s.twin.mismatch 1 ∧
      (s.twin.mismRun < 3 → ((blk :: s.twin.mismHist).filter (fun b => decide (blk < b + 1024))).length < 16 →
        (s.compare hb).twin.role = .standby ∧ (s.compare hb).twin.mismRun = s.twin.mismRun + 1 ∧
        s.toldD (s.compare hb) .twinDigest 0 0 [d] ∧ s.frame (s.compare hb) [.twin, .ev, .sessions]) ∧
      (3 ≤ s.twin.mismRun → (s.compare hb).twin.role = .joining) := by
  subst hblk hdiff
  rw [State.compare_differs hst hdig hown hd]
  generalize digestDiff (Cells.get [] s.twin.own (hb.mcc / s.B - 1)) hb.digests = d at hd
  have htwin := s.diffTold_twin d
  obtain ⟨htold, hf⟩ := s.diffTold_told d
  have hst' : (s.diffTold d).twin.role = .standby := by rw [htwin]; exact hst
  obtain ⟨p, hp⟩ := State.joinDiff_differs (s := (s.diffTold d).standbyDiff (hb.mcc / s.B - 1) d) hd
  rw [hp]
  refine ⟨(State.standbyDiff_mismatch hst' hd).trans (by rw [htwin]), fun hrun hhist => ?_, fun hrun => ?_⟩
  · have hshort : (s.diffTold d).standbyDiff (hb.mcc / s.B - 1) d = (s.diffTold d).differed (hb.mcc / s.B - 1) := by
      rw [State.standbyDiff_differs hst' hd, htwin]
      exact if_neg (by simp only; omega)
    rw [hshort]
    exact ⟨hst', congrArg (·.mismRun + 1) htwin, htold, State.frame_next (State.frame_next hf (State.setTwin_frame _ _ (by decide)))
      (State.setTwin_frame _ _ (by decide))⟩
  · have hlong : (s.diffTold d).standbyDiff (hb.mcc / s.B - 1) d = ((s.diffTold d).differed (hb.mcc / s.B - 1)).withdraw 0x0005 := by
      rw [State.standbyDiff_differs hst' hd, htwin]
      exact if_pos (by simp only; omega)
    rw [hlong]
    exact (State.withdraw_twin (s := (s.diffTold d).differed (hb.mcc / s.B - 1)) hst' 0x0005).1

/-! ### The steps of a resynchronisation (R435, R446–R448) -/

/-- The joining chip's count is the SOLO chip's, and the convergence window begins. -/
theorem State.takeMcc_mcc (peer : Nat) : (s.takeMcc peer).mcc = peer := by
  show ((s.mcc : Int) + ((peer : Int) - (s.mcc : Int))).toNat = peer
  omega

/-- A resynchronisation that holds no token drops what it has, and frees none. -/
theorem State.dropResync_free (h : s.maintOn 6 = false) :
    s.dropResync = s.setTwin (fun t => { t with resync := 0, nonconv := [], copied := [], progress := 0 }) :=
  if_neg (fun k => absurd (h.symm.trans k) (by decide))

/-- A change of a session's end is taken by a standby at its sample, and waits until then. -/
theorem execTwinForward_sessionEnd {m id : Nat} (hup : s.twinUp = true) (hst : s.twin.role = .standby) :
    exec (.twinForward m (.sessionEnd id)) s = .next (if m ≤ s.mcc then s.takeFwd (.sessionEnd id)
      else s.setTwin (fun t => { t with forward := t.forward ++ [(m, .sessionEnd id)] })) := by
  show execTwinForward m (.sessionEnd id) s = _
  simp only [execTwinForward, State.copyStart]
  exact if_neg (by simp [hup, hst, Role.follows])

/-- A record that brings nothing stands until its tick. -/
theorem execInputRecord_empty {tick : Nat} (hup : s.twinUp = true) (hst : s.twin.role = .standby) (hmod : tick % s.B = 2)
    (hlt : s.mcc < tick) (hle : tick ≤ s.mcc + s.B) :
    exec (.inputRecord tick []) s = .next (s.setTwin (fun t => { t with record := some { tick := tick, items := [] } })) := by
  have hpaired : s.paired = true := by
    obtain ⟨hen, -⟩ := Bool.and_eq_true_iff.1 hup
    simp [State.paired, hen, hst]
  show execInputRecord tick [] s = _
  simp only [execInputRecord, List.filter_nil, ite_self, List.foldl_nil]
  exact if_neg (by simp only [hup, hpaired, hmod]; simp; omega)

/-- The record that an ACTIVE closes brings all that it has decided. -/
theorem execInputRecordClose_active (hup : s.twinUp = true) (hact : s.twin.role = .active) (hmod : s.mcc % s.B = 1) :
    exec .inputRecordClose s = .next ((s.micAdvance (s.mcc - 1)).setTwin (fun t => { t with
      sent := some { tick := s.mcc + 1, items := t.closing ++ (s.micAdvance (s.mcc - 1)).closeItems (s.mcc + 1) }, closing := [] })) := by
  have hpaired : s.paired = true := by
    obtain ⟨hen, -⟩ := Bool.and_eq_true_iff.1 hup
    simp [State.paired, hen, hact]
  exact if_neg (by simp [hup, hpaired, hmod, hact, Role.owns])

/-- The copy done, the joining chip waits for its count. -/
theorem execResyncStepDone_copied (peer seed : Nat) (hrole : s.twin.role = .solo ∨ s.twin.role = .joining) (hre : s.twin.resync = 1) :
    exec (.resyncStepDone peer seed) s = .next (s.setTwin (fun t => { t with resync := 2 })) := by
  show execResyncStepDone peer seed s = _
  simp only [execResyncStepDone]
  rw [if_neg (by obtain h | h := hrole <;> simp [h]), if_pos hre]

/-- The SOLO chip begins the window at a frame tick, with its own seed. -/
theorem execResyncStepDone_solo (peer seed : Nat) (hsolo : s.twin.role = .solo) (hre : s.twin.resync = 2) (hmod : s.mcc % s.B = 2) :
    exec (.resyncStepDone peer seed) s = .next (s.windowStart s.twin.seed) := by
  show execResyncStepDone peer seed s = _
  simp only [execResyncStepDone]
  rw [if_neg (by simp [hsolo]), if_neg (by omega), if_pos ⟨hre, hmod⟩, if_pos (by simp [hsolo])]

/-- The joining chip takes the SOLO chip's count and seed there. -/
theorem execResyncStepDone_joining {peer : Nat} (seed : Nat) (hjoin : s.twin.role = .joining) (hre : s.twin.resync = 2)
    (hmod : s.mcc % s.B = 2) (hpeer : peer % s.B = 2) :
    exec (.resyncStepDone peer seed) s = .next ((s.takeMcc peer).windowStart seed) := by
  show execResyncStepDone peer seed s = _
  simp only [execResyncStepDone]
  rw [if_neg (by simp [hjoin]), if_neg (by omega), if_pos ⟨hre, hmod⟩, if_neg (by simp [hjoin]), if_pos hpeer]

/-- The window over, the instances that do not converge are to be copied. -/
theorem execResyncStepDone_window (peer seed : Nat) (hrole : s.twin.role = .solo ∨ s.twin.role = .joining) (hre : s.twin.resync = 4)
    (hwin : s.twin.joinAt + s.twin.window ≤ s.mcc) : exec (.resyncStepDone peer seed) s =
      .next (s.setTwin (fun t => { t with nonconv := s.nonconvSlots, resync := if s.nonconvSlots.isEmpty then 6 else 5 })) := by
  show execResyncStepDone peer seed s = _
  simp only [execResyncStepDone]
  rw [if_neg (by obtain h | h := hrole <;> simp [h]), if_neg (by omega), if_neg (by omega), if_pos ⟨hre, hwin⟩]

end

/-- Settles O52: a differing block is counted by `diffTold`, and its run judged by `standbyDiff_differs`; every step of a resynchronisation is
one case of `execResyncStepDone`, and each touches the twin state alone. -/
theorem recordsAndRejoining : Obligations.RecordsAndRejoining := by
  unfold Obligations.RecordsAndRejoining
  intro s
  refine ⟨fun hup hpeer himg hsent => ?_, fun off hrole hoff => ?_, fun off hst hoff => ?_, fun tick hup hst hmod hlt hle => ?_,
    fun hst hmod hrec => ?_, fun hb hup hrole hrun hst hbit hdig => ?_, fun hup hact hmod => ?_, fun m id hup hst hm => ?_,
    fun m id hup hst hm => ?_, fun peer seed hrole => ⟨fun hre => ?_, fun hre hsolo hmod => ?_, fun hre hjoin hmod hpeer => ?_,
      fun hre hwin => ?_⟩, fun n rest x y hre hnon => ?_, fun hre hlim hmaint => ?_⟩
  · exact ⟨_, if_pos ⟨hup, hpeer, himg, by simp [hsent]⟩, rfl, s.setTwin_frame _ (by decide)⟩
  · have hfollows : s.twin.role.follows = true := by obtain h | h := hrole <;> simp [h, Role.follows]
    refine ⟨s.setTwin (fun t => { t with edge := off }), ?_, rfl, s.setTwin_frame _ (by decide)⟩
    exact (if_neg (by simp [hfollows])).trans (congrArg Host.Outcome.next (if_neg (by omega)))
  · refine ⟨(s.setTwin (fun t => { t with edge := off })).withdraw 0x0007, ?_, ?_⟩
    · exact (if_neg (by simp [hst, Role.follows])).trans (congrArg Host.Outcome.next (if_pos hoff))
    · obtain ⟨hjoin, -, hedge⟩ := State.withdraw_twin (s := s.setTwin (fun t => { t with edge := off })) hst 0x0007
      exact ⟨hedge, hjoin⟩
  · exact ⟨_, execInputRecord_empty hup hst hmod hlt hle, rfl, s.setTwin_frame _ (by decide)⟩
  · have hnone : s.twin.record.any (fun r => decide (r.tick = s.mcc + 1)) = false := by
      cases hr : s.twin.record with
      | none => rfl
      | some x => simpa using hrec x hr
    exact ⟨_, if_pos ⟨hst, hmod, by simp [hnone]⟩, rfl, s.setTwin_frame _ (by decide)⟩
  · intro blk own d hown hd
    have hrun' := execTwinHeartbeat_standby (hb := hb) hup hrole hrun hst
    rw [State.hbTaken_again hb hbit] at hrun'
    have hseen : s.frame (s.peerSeen hb) [.twin] := s.setTwin_frame _ (by decide)
    obtain ⟨hcount, hshort, hlong⟩ := State.compare_counts (s := s.peerSeen hb) (blk := blk) (d := d) hst hdig rfl hown rfl hd
    refine ⟨_, hrun', hcount, fun hrun hhist => ?_, hlong⟩
    obtain ⟨hrole, hmism, htold, hf⟩ := hshort hrun hhist
    exact ⟨hrole, hmism, State.toldD_after htold hseen (by decide), State.frame_mono (State.frame_trans hseen hf) (by decide)⟩
  · have hmic := s.micAdvance_frame (s.mcc - 1)
    have hclosing : (s.micAdvance (s.mcc - 1)).twin = s.twin := hmic .twin (by decide)
    refine ⟨_, _, execInputRecordClose_active hup hact hmod, rfl, rfl, fun i hi => ?_, rfl,
      State.frame_next (State.frame_mono hmic (by decide)) (State.setTwin_frame _ _ (by decide))⟩
    rw [hclosing]
    exact List.mem_append_left _ hi
  · exact ⟨_, (execTwinForward_sessionEnd hup hst).trans (congrArg Host.Outcome.next (if_neg (by omega))), rfl, s.setTwin_frame _ (by decide)⟩
  · exact ⟨s.takeFwd (.sessionEnd id), (execTwinForward_sessionEnd hup hst).trans (congrArg Host.Outcome.next (if_pos hm)), rfl,
      s.setTwin_frame _ (by decide)⟩
  · exact ⟨_, execResyncStepDone_copied peer seed hrole hre, rfl, s.setTwin_frame _ (by decide)⟩
  · exact ⟨_, execResyncStepDone_solo peer seed hsolo hre hmod, rfl, rfl, rfl, rfl, s.setTwin_frame _ (by decide)⟩
  · exact ⟨_, execResyncStepDone_joining seed hjoin hre hmod hpeer, State.takeMcc_mcc peer, rfl, rfl, rfl⟩
  · refine ⟨_, execResyncStepDone_window peer seed hrole hre hwin, rfl, ?_, s.setTwin_frame _ (by decide)⟩
    exact if_congr List.isEmpty_iff rfl rfl
  · refine ⟨_, if_pos ⟨hre, by rw [hnon]; rfl⟩, ?_, ?_, rfl, s.setTwin_frame _ (by decide)⟩
    · exact congrArg List.tail hnon
    · exact (congrArg (fun l : List Nat => if l.tail.isEmpty then 6 else 5) hnon).trans (if_congr List.isEmpty_iff rfl rfl)
  · have hset : s.frame (s.setTwin (fun t => { t with resync := 0, nonconv := [], copied := [], progress := 0 })) [.twin] :=
      s.setTwin_frame _ (by decide)
    obtain ⟨htold, hf⟩ := State.raise_after hset (by decide) .twinInstep 0 0 2
    exact ⟨_, (if_pos ⟨hre, hlim⟩).trans (by rw [State.dropResync_free hmaint]), by simp, by simp, htold, hf⟩

end Sys2Proof.Machine
end

section
/-! PROOFS. The legacy registers, legacy sets, LOAD and SOFT_RESET (R455–R466); O53. -/

namespace Sys2Proof.Machine

open Fmt

/-! ### Registers read (R459, R460) -/

/-- A register of a register file reads as what was written last. -/
theorem legGet_legPut (m : Mem) (a b v : Nat) : legGet (legPut m a v) b = if b = a then v else legGet m b := by
  rw [legGet, legPut, Cells.get_put]
  split
  · next h => rw [h, Nat.xor_assoc, Nat.xor_self, Nat.xor_zero]
  · rfl

/-- A parameter register is in the register map. -/
theorem legUnmapped_param {a : Nat} (h : legParamMask a ≠ 0) : legUnmapped a = false := by
  refine decide_eq_false (fun hn => h ?_)
  rw [legParamMask, hn]

/-- A word written to a parameter register is a parameter write. -/
theorem State.legWrite_param (s : State) {a : Nat} (h : legParamMask a ≠ 0) (w : Nat) : s.legWrite a w = s.legParam a w := by
  rw [State.legWrite, legUnmapped_param h, if_neg Bool.false_ne_true]
  rw [legParamMask] at h
  split <;> simp_all

section
variable (s : State)

theorem State.legRead_param {a : Nat} (hm : legParamMask a ≠ 0) : s.legRead a = if s.legExists a = true then
    (if s.legacy.shadowEn = true then (Cells.get none s.legacy.shadow a).getD (legGet s.legacy.live a) else legGet s.legacy.live a) else 0 := by
  by_cases he : s.legExists a = true <;> by_cases hs : s.legacy.shadowEn = true <;> simp [State.legRead, State.legLive, he, hs, hm]

variable {s}

/-- Which registers exist depends on the profile. -/
theorem State.legExists_of_frame {t : State} {l : List Part} (h : s.frame t l) (hp : .params ∉ l) (a : Nat) : t.legExists a = s.legExists a := by
  have hdouble : t.legDouble = s.legDouble := by
    have hparams : t.params = s.params := h .params hp
    have hprof : t.prof = s.prof := by rw [State.prof, State.word, hparams, State.prof, State.word]
    rw [State.legDouble, hprof, State.legDouble]
  have hslots : t.legSlots = s.legSlots := by rw [State.legSlots, hdouble, State.legSlots]
  have hchans : t.legChans = s.legChans := by rw [State.legChans, hdouble, State.legChans]
  have hbusses : t.legBusses = s.legBusses := by rw [State.legBusses, hdouble, State.legBusses]
  rw [State.legExists, hslots, hchans, hbusses, State.legExists]

/-- Frames of the legacy protocol are taken in the same modes and device states. -/
theorem State.legOn_of_frame {t : State} {l : List Part} (h : s.frame t l) (hdev : .dev ∉ l) (hpow : .power ∉ l) : t.legOn = s.legOn := by
  have h1 : t.dev = s.dev := h .dev hdev
  have h2 : t.power = s.power := h .power hpow
  rw [State.legOn, State.legOn, State.live, State.live, h1, State.legacy_of_straps (s := s) (t := t) (congrArg PowerG.straps h2)]

/-! ### What the actions of the protocol touch -/

theorem State.legAccept_frame (x : LegSet) : s.frame (s.legAccept x) [.legacy, .scene] :=
  State.frame_trans (s.setLeg_frame (fun g => { g with sets := g.sets ++ [{ x with order := s.scene.orders }] }) (l := [.legacy]) (by decide))
    (State.setScene_frame rfl)

/-- Of the legacy group an accepted set changes the sets alone. -/
theorem State.legAccept_legacy (x : LegSet) :
    (s.legAccept x).legacy = { s.legacy with sets := s.legacy.sets ++ [{ x with order := s.scene.orders }] } := rfl

theorem State.legError_frame (k : Nat) : s.frame (s.legError k) [.legacy, .ev, .sessions] := by
  have hleg := fun (u : State) f => u.setLeg_frame f (l := [.legacy]) (by decide)
  unfold State.legError
  split
  · exact s.frame_refl _
  · extract_lets s1
    split
    · exact State.frame_mono (hleg s _) (by decide)
    · exact (State.raise_after (State.frame_next (hleg s _) (hleg s1 _)) (by decide) _ _ _ _).2

/-- Errors count, and the first of a second is told. -/
theorem State.legError_counts {k : Nat} (hk : k ≠ 0) : (s.legError k).legacy.errors = satInc s.legacy.errors k ∧
    (s.legacy.errSec = none → s.told (s.legError k) .legacySpi 15 0 0) := by
  have hleg := fun (u : State) f => u.setLeg_frame f (l := [.legacy]) (by decide)
  rw [State.legError, if_neg hk]
  dsimp only
  split
  · next h => exact ⟨rfl, fun hn => by simp [hn] at h⟩
  · exact ⟨by simp, fun _ => (State.raise_after (State.frame_next (hleg s _) (hleg _ _)) (by decide) _ _ _ _).1⟩

theorem State.legLoad_frame : s.frame s.legLoad [.legacy] := State.frame_ite (s.frame_refl _) (s.setLeg_frame _ (by decide))

theorem State.legSoft_frame : s.frame s.legSoft [.legacy, .scene] :=
  State.frame_next (s.setLeg_frame _ (by decide)) (State.legAccept_frame _)

theorem State.legRateWrite_frame (k : Nat) : s.frame (s.legRateWrite k) [.legacy, .scene] :=
  State.frame_ite (s.legAccept_frame _) (s.frame_refl _)

theorem State.legParam_frame (a w : Nat) : s.frame (s.legParam a w) [.legacy, .scene] := by
  have hleg := fun (u : State) f => u.setLeg_frame f (l := [.legacy, .scene]) (by decide)
  unfold State.legParam
  extract_lets m v
  split_ifs
  · exact s.frame_refl _
  · exact hleg s _
  · exact State.frame_next (hleg s _) (hleg _ _)
  · exact State.frame_next (hleg s _) (State.legAccept_frame _)

theorem State.legWrite_frame (a w : Nat) : s.frame (s.legWrite a w) [.legacy, .scene, .ev, .sessions] := by
  have hleg := fun (u : State) f => u.setLeg_frame f (l := [.legacy, .scene, .ev, .sessions]) (by decide)
  unfold State.legWrite
  split
  · exact State.frame_mono (s.legError_frame 1) (by decide)
  · split
    · exact State.frame_mono (s.legRateWrite_frame _) (by decide)
    · exact State.frame_ite (State.frame_next (hleg s _) (State.frame_mono (State.legLoad_frame) (by decide))) (hleg s _)
    · exact State.frame_ite (State.frame_mono s.legSoft_frame (by decide)) (s.frame_refl _)
    · exact hleg s _
    · exact hleg s _
    · exact State.frame_mono (s.legParam_frame _ _) (by decide)

theorem State.legBurst_frame (a : Nat) (ws : List Nat) : s.frame (s.legBurst a ws) [.legacy, .scene, .ev, .sessions] :=
  State.frame_foldl (fun u (q : Nat × Nat) => u.legWrite_frame ((a + q.2) % 65536) (q.1 % 2 ^ 24)) ws.zipIdx s

/-! ### A parameter write (R464) -/

/-- With SHADOW_EN at 1 the shadow takes the word. -/
theorem State.legParam_shadow {a w : Nat} (hm : legParamMask a ≠ 0) (he : s.legExists a = true) (hs : s.legacy.shadowEn = true) :
    s.legParam a w = s.setLeg (fun g => { g with shadow := Cells.put none g.shadow a (some (Nat.land w (legParamMask a))) }) := by
  simp only [State.legParam]
  rw [if_neg (by simp [hm, he]), if_pos hs]

/-- With SHADOW_EN at 0 the live register takes it, and a set of this sample. -/
theorem State.legParam_live {a w : Nat} (hm : legParamMask a ≠ 0) (he : s.legExists a = true) (hs : s.legacy.shadowEn = false) :
    ∃ l, (s.legParam a w).legacy = { s.legacy with live := legPut s.legacy.live a (Nat.land w (legParamMask a)), sets := l } ∧
      ∃ x ∈ l, x.v = s.mcc ∧ (a, Nat.land w (legParamMask a)) ∈ x.writes := by
  simp only [State.legParam]
  rw [if_neg (by simp [hm, he]), if_neg (by simp [hs])]
  split
  · next hany =>
    obtain ⟨x, hx, hplain⟩ := List.any_eq_true.1 hany
    obtain ⟨hv, hplain⟩ : x.v = s.mcc ∧ x.plain = true := by simpa using hplain
    refine ⟨_, rfl, _, List.mem_map_of_mem hx, ?_⟩
    simp [hv, hplain]
  · exact ⟨_, rfl, _, List.mem_append_right _ (List.mem_singleton.2 rfl), rfl, List.mem_singleton.2 rfl⟩

/-- A register written reads as the bits that it has, and no other register changes. -/
theorem State.legParam_read {a w : Nat} (hm : legParamMask a ≠ 0) (he : s.legExists a = true) {b : Nat} (hb : legParamMask b ≠ 0) :
    (s.legParam a w).legRead b = if b = a then Nat.land w (legParamMask a) else s.legRead b := by
  rw [State.legRead_param _ hb, State.legRead_param _ hb, State.legExists_of_frame (s.legParam_frame a w) (by decide)]
  cases hs : s.legacy.shadowEn with
  | true =>
    rw [State.legParam_shadow hm he hs]
    by_cases hba : b = a
    · subst hba
      simp [State.setLeg, hs, he]
    · simp [State.setLeg, hs, hba, Cells.get_put]
  | false =>
    obtain ⟨l, hl, -⟩ := State.legParam_live (w := w) hm he hs
    rw [hl]
    by_cases hba : b = a
    · subst hba
      simp [hs, he, legGet_legPut]
    · simp [hs, hba, legGet_legPut]

/-! ### LOAD and SOFT_RESET (R465, R466) -/

/-- Registers whose contents are dropped read their reset values. -/
theorem legGet_filter {m : Mem} {p : Nat × Nat → Bool} {a : Nat} (h : ∀ v, p (a, v) = false) : legGet (m.filter p) a = legResetVal a := by
  have hget : Cells.get 0 (m.filter p) a = 0 := by
    induction m with
    | nil => rfl
    | cons c m ih =>
      rw [List.filter_cons]
      split
      · next hc =>
        have hne : c.1 ≠ a := fun e => by subst e; simp [h c.2] at hc
        simp [Cells.get, hne, ih]
      · exact ih
  rw [legGet, hget, Nat.zero_xor]

/-- The shadows of a LOAD latch as one set. -/
theorem execLoadLatch_latches {v : Nat} (hp : s.legacy.pending = some v) (hl : s.legacy.latched = false) (hm : v + 8 ≤ s.mcc) :
    exec .loadLatch s = .next ((s.setLeg (fun g => { g with
        live := (s.legacy.shadow.map (fun q => (q.1, q.2.getD 0))).foldl (fun m q => legPut m q.1 q.2) g.live, shadow := [], latched := true })).legAccept
      { legSet v with writes := s.legacy.shadow.map (fun q => (q.1, q.2.getD 0)), load := true }) := by
  show execLoadLatch s = _
  simp only [execLoadLatch, hp]
  exact if_neg (by simp [hl]; omega)

/-- A word of a burst, and the words behind it. -/
theorem State.legBurst_cons (a w : Nat) (ws : List Nat) : s.legBurst a (w :: ws) = (s.legBurst a [w]).legBurst (a + 1) ws := by
  simp only [State.legBurst, List.zipIdx_cons', List.zipIdx_nil, List.map_nil, List.foldl_cons, List.foldl_nil, List.foldl_map, Prod.map, id]
  simp only [Nat.add_assoc, Nat.add_comm 1]

end

/-- Settles O53: a parameter register reads as written by `legParam_read`, whichever of shadow and live register took the word; every frame of
the protocol is a sequence of `legWrite`s, each of which leaves the protocol spoken. -/
theorem legacyRegistersAndSets : Obligations.LegacyRegistersAndSets := by
  unfold Obligations.LegacyRegistersAndSets
  intro s hon
  have hburst : ∀ a ws cut, exec (.legacyBurstWrite a ws cut) s = .next ((s.legBurst a ws).legError (b2n cut)) :=
    fun a ws cut => congrArg Host.Outcome.next (if_pos hon)
  have hwrite : ∀ a w, exec (.legacyWrite a w) s = .next (s.legBurst a [w]) := fun a w => congrArg Host.Outcome.next (if_pos hon)
  refine ⟨fun a w ha hw hm he hwf => ?_, fun a w ha hun => ?_, fun a w ws => ?_, ?_, fun a ha hun => ?_, fun a n => ?_, ?_,
    fun v hp hl hm => ?_, ?_, fun k hmode hk => ?_, fun m => ?_⟩
  · have hone : s.legBurst a [w] = s.legParam a w := by
      rw [← s.legWrite_param hm]
      show s.legWrite ((a + 0) % 65536) (w % 2 ^ 24) = _
      rw [Nat.add_zero, Nat.mod_eq_of_lt ha, Nat.mod_eq_of_lt hw]
    refine ⟨s.legParam a w, by rw [hwrite, hone], ?_, (State.legParam_read hm he hm).trans (if_pos rfl),
      fun b hb hmb => (State.legParam_read hm he hmb).trans (if_neg hb), fun hs => ?_, fun hs => ?_⟩
    · refine (congrArg Host.Outcome.next (if_pos hon)).trans ?_
      rw [Nat.mod_eq_of_lt ha, Nat.mod_eq_of_lt hw]
    · rw [State.legParam_shadow hm he hs]
      exact ⟨rfl, rfl, s.setLeg_frame _ (by decide)⟩
    · obtain ⟨l, hl, hx⟩ := State.legParam_live (w := w) hm he hs
      rw [hl]
      exact ⟨hx, s.legParam_frame a w⟩
  · have herr : s.legBurst a [w] = s.legError 1 := by
      show s.legWrite ((a + 0) % 65536) (w % 2 ^ 24) = _
      rw [Nat.add_zero, Nat.mod_eq_of_lt ha]
      exact if_pos hun
    obtain ⟨hcount, htold⟩ := State.legError_counts (s := s) (k := 1) (by decide)
    exact ⟨_, by rw [hwrite, herr], hcount, htold, s.legError_frame 1⟩
  · have hon' : (s.legBurst a [w]).legOn = true := (State.legOn_of_frame (s.legBurst_frame a [w]) (by decide) (by decide)).trans hon
    refine ⟨_, _, hwrite a w, congrArg Host.Outcome.next (if_pos hon'), ?_⟩
    rw [hburst, State.legBurst_cons]
  · exact ⟨_, hburst 0 [] true, (State.legError_counts (by decide)).1, s.legError_frame 1⟩
  · have hone : s.legBurstRead a 1 = s.setLeg (fun g => { g with miso := [s.legRead a] }) := by
      simp [State.legBurstRead, State.legError, List.range_succ, Nat.mod_eq_of_lt ha, hun]
    exact ⟨_, congrArg Host.Outcome.next ((if_pos hon).trans hone), rfl, s.setLeg_frame _ (by decide)⟩
  · refine ⟨_, congrArg Host.Outcome.next (if_pos hon), by simp [State.legBurstRead], fun i hi => by simp [State.legBurstRead, hi],
      State.frame_next (s.legError_frame _) (State.setLeg_frame _ _ (by decide))⟩
  · refine ⟨s.legLoad, congrArg Host.Outcome.next (if_pos hon), fun hp => ?_, fun hp => ?_, s.legLoad_frame⟩
    · rw [State.legLoad, if_neg (by simp [hp])]
      rfl
    · exact if_pos (by simpa [Option.isSome_iff_ne_none] using hp)
  · exact ⟨_, execLoadLatch_latches hp hl hm, rfl, rfl, hp, ⟨_, List.mem_append_right _ (List.mem_singleton.2 rfl), rfl, rfl, rfl, rfl⟩,
      State.frame_next (s.setLeg_frame _ (by decide)) (State.legAccept_frame _)⟩
  · refine ⟨s.legSoft, congrArg Host.Outcome.next (if_pos hon), rfl, rfl, fun a ha hm he => ?_,
      ⟨_, List.mem_append_right _ (List.mem_singleton.2 rfl), rfl, rfl⟩, s.legSoft_frame⟩
    rw [State.legRead_param _ hm, State.legExists_of_frame s.legSoft_frame (by decide), if_pos he]
    exact legGet_filter (fun v => by simp [ha, hm])
  · have hset : s.legRateWrite k = s.legAccept { legSet s.mcc with rate := some (k % 2) } := if_pos ⟨hmode, hk⟩
    refine ⟨s.legRateWrite k, congrArg Host.Outcome.next (if_pos hon), ?_, ?_, s.legRateWrite_frame k⟩
    · rw [hset, State.legRate, State.legAccept_legacy]
      simp
    · rw [hset]
      exact ⟨_, List.mem_append_right _ (List.mem_singleton.2 rfl), rfl, rfl⟩
  · refine ⟨s.legClear m, congrArg Host.Outcome.next (if_pos hon), fun i => ?_, s.setLeg_frame _ (by decide)⟩
    refine (bit_clearMask s.legacy.status m id 7 i).trans ?_
    have hany : (List.range 7).any (fun j => bit m j && decide (id j = i)) = (decide (i < 7) && bit m i) := by
      rw [Bool.eq_iff_iff]
      simp only [id, List.any_eq_true, List.mem_range, Bool.and_eq_true, decide_eq_true_eq]
      exact ⟨fun ⟨j, hj, hb, he⟩ => he ▸ ⟨hj, hb⟩, fun ⟨hi, hb⟩ => ⟨i, hi, hb, rfl⟩⟩
    rw [hany]

end Sys2Proof.Machine
end

section
/-! PROOFS. Bursts in a memory, passes of the scrubbers, event counts at a crossing (R375–R377, R382–R390). -/

namespace Sys2Proof.Machine

open Fmt

/-! ### Bursts in a memory (R375, R377) -/

section
variable (m : Memory) (a : Nat)

/-- The enabled ones of a run of bytes are written, and no other byte. -/
theorem read_writeBytes (w en n b : Nat) :
    ((List.range n).foldl (fun m i => if bit en i then m.write (a + i) (w / 256 ^ i % 256) else m) m).read b =
      if a ≤ b ∧ b < a + n ∧ bit en (b - a) = true then w / 256 ^ (b - a) % 256 else m.read b := by
  induction n with
  | zero => rw [if_neg (by omega)]; rfl
  | succ n ih =>
    rw [List.range_succ, List.foldl_append, List.foldl_cons, List.foldl_nil]
    by_cases hb : b = a + n
    · subst hb
      rw [Nat.add_sub_cancel_left]
      by_cases hen : bit en n = true
      · rw [if_pos hen, Memory.read_write_same, if_pos ⟨by omega, by omega, hen⟩, Nat.mod_mod]
      · rw [if_neg hen, ih, if_neg (by omega), if_neg (fun h => hen h.2.2)]
    · have hrest : (a ≤ b ∧ b < a + (n + 1) ∧ bit en (b - a) = true) ↔ (a ≤ b ∧ b < a + n ∧ bit en (b - a) = true) := by
        constructor <;> exact fun ⟨h1, h2, h3⟩ => ⟨h1, by omega, h3⟩
      rw [if_congr hrest rfl rfl, ← ih]
      split
      · exact Memory.read_write_other _ _ _ _ hb
      · rfl

theorem read_writeBeat (w en b : Nat) : (writeBeat m a w en).read b =
    if a ≤ b ∧ b < a + 32 ∧ bit en (b - a) = true then w / 256 ^ (b - a) % 256 else m.read b := read_writeBytes m a w en 32 b

/-- A burst reaches only the lines of its beats. -/
theorem read_writeBurst_other (ws ens : List Nat) {b : Nat} (h : b < a ∨ a + 32 * ws.length ≤ b) : (writeBurst m a ws ens).read b = m.read b := by
  induction ws generalizing m a ens with
  | nil => rfl
  | cons w ws ih =>
    rw [List.length_cons] at h
    rw [writeBurst, ih _ _ _ (by omega), read_writeBeat, if_neg (by omega)]

/-- A burst stores the enabled bytes of each of its beats in the beat's line. -/
theorem read_writeBurst (ws ens : List Nat) {j i : Nat} (hj : j < ws.length) (hi : i < 32) : (writeBurst m a ws ens).read (a + 32 * j + i) =
    if bit (ens.getD j 0) i = true then ws.getD j 0 / 256 ^ i % 256 else m.read (a + 32 * j + i) := by
  induction ws generalizing m a ens j with
  | nil => exact absurd hj (Nat.not_lt_zero j)
  | cons w ws ih =>
    rw [writeBurst]
    cases j with
    | zero =>
      rw [read_writeBurst_other _ _ _ _ (by omega), read_writeBeat]
      cases ens <;> simp [hi]
    | succ j =>
      have hat : a + 32 * (j + 1) + i = a + 32 + 32 * j + i := by omega
      have hbeat : (writeBeat m a w (ens.headD 0)).read (a + 32 + 32 * j + i) = m.read (a + 32 + 32 * j + i) :=
        (read_writeBeat m a w _ _).trans (if_neg (by omega))
      rw [hat, ih _ _ _ (Nat.lt_of_succ_lt_succ hj), hbeat]
      cases ens <;> simp

/-- The bytes of a word put together from bytes. -/
theorem ofLE_byte (l : List Nat) (hl : ∀ v ∈ l, v < 256) (i : Nat) : ofLE l / 256 ^ i % 256 = l.getD i 0 := by
  induction l generalizing i with
  | nil => simp [ofLE]
  | cons v l ih =>
    obtain ⟨hv, hl⟩ := List.forall_mem_cons.1 hl
    cases i with
    | zero => simp [ofLE]; omega
    | succ i =>
      have hdiv : (v % 256 + 256 * ofLE l) / 256 = ofLE l := by omega
      rw [ofLE, Nat.pow_succ', ← Nat.div_div_eq_div_mul, hdiv, ih hl]
      rfl

/-- The beats of a read burst hold the bytes of their lines. -/
theorem readBurst_byte {n j i : Nat} (hj : j < n) (hi : i < 32) : (readBurst m a n).getD j 0 / 256 ^ i % 256 = m.read (a + 32 * j + i) := by
  have hbeat : (readBurst m a n).getD j 0 = ofLE (m.readAll (a + 32 * j) 32) := by simp [readBurst, hj]
  have hlt : ∀ v ∈ m.readAll (a + 32 * j) 32, v < 256 := by
    intro v hv
    obtain ⟨k, -, rfl⟩ := List.mem_map.1 hv
    exact BitVec.isLt _
  rw [hbeat, ofLE_byte _ hlt]
  simp [Memory.readAll, hi]

theorem length_readBurst (n : Nat) : (readBurst m a n).length = n := by simp [readBurst]

/-- The lines behind the first, written again with what they held before a burst, hold it again. -/
theorem read_restoreBurst (m' : Memory) {n b : Nat} (hb : a + 32 ≤ b) (hout : ∀ c, a + 32 * n ≤ c → m'.read c = m.read c) :
    (writeBurst m' (a + 32) ((readBurst m a n).drop 1) (List.replicate (n - 1) (2 ^ 32 - 1))).read b = m.read b := by
  have hlen : ((readBurst m a n).drop 1).length = n - 1 := by rw [List.length_drop, length_readBurst]
  by_cases hin : b < a + 32 * n
  · have hbits : ∀ i < 32, bit (2 ^ 32 - 1) i = true := by decide
    obtain ⟨j, i, hi, hj, rfl⟩ : ∃ j i, i < 32 ∧ j < n - 1 ∧ b = a + 32 + 32 * j + i :=
      ⟨(b - a - 32) / 32, (b - a - 32) % 32, by omega, by omega, by omega⟩
    have henable : (List.replicate (n - 1) (2 ^ 32 - 1)).getD j 0 = 2 ^ 32 - 1 := by
      rw [List.getD_eq_getElem?_getD, List.getElem?_replicate, if_pos hj, Option.getD_some]
    have hbeat : ((readBurst m a n).drop 1).getD j 0 = (readBurst m a n).getD (1 + j) 0 := by
      rw [List.getD_eq_getElem?_getD, List.getElem?_drop, List.getD_eq_getElem?_getD]
    rw [read_writeBurst _ _ _ _ (by omega) hi, henable, if_pos (hbits i hi), hbeat, readBurst_byte m a (by omega) hi]
    exact congrArg m.read (by omega)
  · rw [read_writeBurst_other _ _ _ _ (by omega)]
    exact hout b (by omega)

end

/-! ### What transfers and findings leave as it was (R377–R386) -/

/-- What neither a transfer nor a finding changes: the queues, the latest grants, and the passes that the scrubbers count. -/
def FabG.standing (g : FabG) : Cells (List Txn) × Mem × Nat × Nat × Nat := (g.waiting, g.last, g.scrubs, g.patrols, g.mramPasses)

/-- A change of the parts named that leaves the standing part of the fabric. -/
structure State.Transfers (l : List Part) (s t : State) : Prop where
  frame : s.frame t l
  standing : t.fab.standing = s.fab.standing

namespace State.Transfers

variable {l : List Part} {s t u : State}

theorem refl (l : List Part) (s : State) : State.Transfers l s s := ⟨s.frame_refl _, rfl⟩

theorem trans (h : State.Transfers l s t) (h' : State.Transfers l t u) : State.Transfers l s u :=
  ⟨State.frame_next h.frame h'.frame, h'.standing.trans h.standing⟩

theorem mono {k : List Part} (h : State.Transfers k s t) (hk : k ⊆ l) : State.Transfers l s t := ⟨State.frame_mono h.frame hk, h.standing⟩

theorem ite {p : Prop} [Decidable p] (ht : State.Transfers l s t) (hu : State.Transfers l s u) : State.Transfers l s (if p then t else u) :=
  iteInduction (fun _ => ht) (fun _ => hu)

/-- A change of other groups. -/
theorem of_frame (h : s.frame t l) (hl : .fab ∉ l) : State.Transfers l s t := by
  have hrest : { t.fab with pool := [], staging := [], dram := [] } = { s.fab with pool := [], staging := [], dram := [] } := h .fab hl
  have hstanding := congrArg FabG.standing hrest
  exact ⟨h, hstanding⟩

/-- A change of the fabric's counters, answers and parity. -/
theorem setFab (f : FabG → FabG) (h : .fab ∈ l) (hmem : ((f s.fab).pool, (f s.fab).staging, (f s.fab).dram) =
    (s.fab.pool, s.fab.staging, s.fab.dram)) (hs : (f s.fab).standing = s.fab.standing) : State.Transfers l s (s.setFab f) :=
  ⟨s.setFab_frame f h hmem, hs⟩

theorem foldl {α : Type} {f : State → α → State} (h : ∀ u x, State.Transfers l u (f u x)) (xs : List α) (s : State) :
    State.Transfers l s (xs.foldl f s) :=
  xs.foldlRecOn (motive := fun u => State.Transfers l s u) f (refl l s) (fun u hu x _ => hu.trans (h u x))

/-- The same for a state carried along with something else. -/
theorem foldl_fst {α β : Type} {f : State × β → α → State × β} (h : ∀ a x, State.Transfers l a.1 (f a x).1) (xs : List α) (a : State × β) :
    State.Transfers l a.1 (xs.foldl f a).1 :=
  xs.foldlRecOn (motive := fun b => State.Transfers l a.1 b.1) f (refl l a.1) (fun b hb x _ => hb.trans (h b x))

end State.Transfers

/-! ### What scrubbers count and tell (R377–R386) -/

/-- What a finding in a memory touches. -/
def findingParts : List Part := [.fab, .ev, .sessions, .fault]

section
variable (s : State)

/-- A failing pool line is counted. -/
theorem State.poolParity_fab (bank cause : Nat) : (s.poolParity bank cause).fab = { s.fab with poolParity := satInc s.fab.poolParity 1 } := by
  simp only [State.poolParity]
  split <;> simp

theorem State.poolParity_transfers (bank cause : Nat) : State.Transfers findingParts s (s.poolParity bank cause) := by
  refine ⟨?_, by rw [s.poolParity_fab]; rfl⟩
  have hset : s.frame (s.setFab (fun g => { g with poolParity := satInc g.poolParity 1 })) [.fab] := s.setFab_frame _ (by decide) rfl
  have hf := State.frame_mono (b := findingParts) (State.raise_after hset (by decide) .poolParity 0 bank cause).2 (by decide)
  exact State.frame_ite hf (State.frame_next hf (State.setFault_frame _ _ (by decide)))

/-- The event of a failing pool line gives its bank and cause. -/
theorem State.poolParity_told (bank cause : Nat) : s.told (s.poolParity bank cause) .poolParity 0 bank cause := by
  have hset : s.frame (s.setFab (fun g => { g with poolParity := satInc g.poolParity 1 })) [.fab] := s.setFab_frame _ (by decide) rfl
  have htold := (State.raise_after hset (by decide) .poolParity 0 bank cause).1
  simp only [State.poolParity]
  split
  · exact htold
  · exact State.told_of_frame htold (State.setFault_frame _ _ (List.mem_singleton.2 rfl)) (by decide) (by decide)

/-- A line corrected from its partner is no uncorrected fault. -/
theorem State.poolParity_corrected (bank : Nat) : (s.poolParity bank 1).fault = s.fault := by simp [State.poolParity]

theorem State.poolParity_uncorrected {cause : Nat} (h : cause ≠ 1) (bank : Nat) : (s.poolParity bank cause).fault.uncorrected = true := by
  simp [State.poolParity, h]

theorem State.dramFixed_transfers : State.Transfers findingParts s s.dramFixed := by
  have hset : s.frame (s.setFab (fun g => { g with dramCorr := satInc g.dramCorr 1 })) [.fab] := s.setFab_frame _ (by decide) rfl
  exact ⟨State.frame_mono (State.raise_after hset (by decide) _ _ _ _).2 (by decide), by simp [State.dramFixed, FabG.standing]⟩

/-- Words that cannot be corrected are counted and told, and FAULT_SUM shows them. -/
theorem State.dramBad_told (n : Nat) : s.told (s.dramBad n) .dramUncorrected 0 0 0 ∧
    (s.dramBad n).fab.dramUncorr = satInc s.fab.dramUncorr n ∧ (s.dramBad n).fault.uncorrected = true := by
  have hset : s.frame (s.setFab (fun g => { g with dramUncorr := satInc g.dramUncorr n })) [.fab] := s.setFab_frame _ (by decide) rfl
  have htold := (State.raise_after hset (by decide) .dramUncorrected 0 0 0).1
  exact ⟨State.told_of_frame htold (State.setFault_frame _ _ (List.mem_singleton.2 rfl)) (by decide) (by decide), by simp [State.dramBad], rfl⟩

theorem State.dramBad_transfers (n : Nat) : State.Transfers findingParts s (s.dramBad n) := by
  have hset : s.frame (s.setFab (fun g => { g with dramUncorr := satInc g.dramUncorr n })) [.fab] := s.setFab_frame _ (by decide) rfl
  exact ⟨State.frame_mono (State.frame_trans (State.raise_after hset (by decide) .dramUncorrected 0 0 0).2
    (State.setFault_frame _ _ (List.mem_singleton.2 rfl))) (by decide), by simp [State.dramBad, FabG.standing]⟩

/-- What a scrubber or patrol finds is counted and told; its passes are not counted there. -/
theorem State.found_transfers (f : MemFault) : State.Transfers findingParts s (s.found f) := by
  cases f with
  | poolMirrored bank => exact s.poolParity_transfers bank 1
  | poolBoth bank => exact s.poolParity_transfers bank 2
  | poolPlain bank => exact s.poolParity_transfers bank 3
  | dramCorrected n => exact s.dramFixed_transfers
  | dramDouble n => exact s.dramBad_transfers 1
  | dramRetry n => exact .setFab (fun g => { g with dramRetry := satInc g.dramRetry (min 3 n) }) (by decide) rfl rfl

theorem State.goodLine_transfers (line : Nat) : State.Transfers [.fab] s (s.goodLine line) :=
  .setFab (fun g => { g with flips := Cells.put 0 g.flips line 0 }) (by decide) rfl rfl

theorem State.failLine_transfers (line : Nat) : State.Transfers [.fab] s (s.failLine line) :=
  .setFab (fun g => { g with flips := if Cells.get 0 g.flips line = 0 then Cells.put 0 g.flips line 1 else g.flips }) (by decide) rfl rfl

/-- A line read and judged. -/
theorem State.readLine_transfers (mir : Bool) (line : Nat) : State.Transfers findingParts s (s.readLine mir line).1 := by
  unfold State.readLine
  split_ifs
  · exact .refl _ s
  · exact s.poolParity_transfers (lineBank line) 3
  · exact ((s.goodLine_transfers line).mono (by decide)).trans ((s.goodLine line).poolParity_transfers (lineBank line) 1)
  · exact s.poolParity_transfers (lineBank line) 2

/-- One corrected MSTORE word. -/
theorem State.mramFixed_told : s.told s.mramFixed .mstoreCorrected 0 0 0 ∧ s.mramFixed.fab.mstoreCorr = satInc s.fab.mstoreCorr 1 ∧
    State.Transfers [.fab, .ev, .sessions] s s.mramFixed := by
  have hset : s.frame (s.setFab (fun g => { g with mstoreCorr := satInc g.mstoreCorr 1 })) [.fab] := s.setFab_frame _ (by decide) rfl
  obtain ⟨htold, hf⟩ := State.raise_after hset (by decide) .mstoreCorrected 0 0 0
  exact ⟨htold, by simp [State.mramFixed], hf, by simp [State.mramFixed, FabG.standing]⟩

end

/-! ### Passes (R377, R384, R386) -/

section
variable {s : State}

/-- A pass of the pool scrubber is counted after what it finds. -/
theorem execPoolScrubPass_powered (found : List MemFault) (hd : bit s.power.domains 11 = true) : ∃ u : State,
    State.Transfers findingParts s u ∧ (s.fab.flips = [] → u = (found.filter (·.ofPool)).foldl State.found s) ∧
      exec (.poolScrubPass found) s = .next (u.setFab (fun g => { g with scrubs := g.scrubs + 1 })) := by
  refine ⟨_, ?_, fun hflips => ?_, if_neg (by simp [hd])⟩
  · exact (State.Transfers.foldl (fun u c => u.readLine_transfers _ _) _ _).trans (State.Transfers.foldl (fun u f => u.found_transfers f) _ _)
  · rw [hflips, List.foldl_nil]

/-- A pass of the DRAM patrol is counted after what it finds. -/
theorem execDramPatrolPass_powered (found : List MemFault) (hd : bit s.power.domains 0 = true) : exec (.dramPatrolPass found) s =
    .next (((found.filter (fun f => !f.ofPool)).foldl State.found s).setFab (fun g => { g with patrols := g.patrols + 1 })) :=
  if_neg (by simp [hd])

/-! ### Events at a crossing (R389, R390) -/

/-- One cycle publishes one of the events that wait, or none. -/
theorem Crossing.cycle_publishes (c : Crossing) (n : Nat) (reflect take : Bool) : ∃ pub : Bool, (pub = true → c.pending + n ≠ 0) ∧
    (c.cycle n reflect take).pending = min 255 (if pub then c.pending + n - 1 else c.pending + n) ∧
    (c.cycle n reflect take).published = if pub then (c.published + 1) % 256 else c.published := by
  refine ⟨decide (c.pending + n ≠ 0) && decide ((c.published + 256 - (if reflect then c.last else c.reflected)) % 256 < 64), fun h => ?_, ?_⟩
  · simp only [Bool.and_eq_true, decide_eq_true_eq] at h
    exact h.1
  · cases reflect <;> cases take <;> exact ⟨rfl, rfl⟩

/-- At most one event is published, and none is lost while no more than 255 wait. -/
theorem Crossing.cycle_conserves (c : Crossing) (n : Nat) (reflect take : Bool) (h : c.pending + n ≤ 255) :
    (c.cycle n reflect take).pending + (if (c.cycle n reflect take).published = c.published then 0 else 1) = c.pending + n := by
  have hmod : (c.published + 1) % 256 ≠ c.published := by omega
  obtain ⟨pub, hpub, hpending, hpublished⟩ := c.cycle_publishes n reflect take
  rw [hpending, hpublished]
  cases pub with
  | true =>
    have hsome := hpub rfl
    simp only [if_true, if_neg hmod]
    omega
  | false =>
    simp only [Bool.false_eq_true, if_false, if_true]
    omega

/-- The destination takes the count as it is published. -/
theorem Crossing.cycle_taken (c : Crossing) (n : Nat) (reflect : Bool) : (c.cycle n reflect true).last = (c.cycle n reflect true).published := by
  simp [Crossing.cycle]

end

end Sys2Proof.Machine
end

section
/-! PROOFS. The fabric's grants (R369–R384): what arrives, which transaction goes first, what its transfer does; O49. -/

namespace Sys2Proof.Machine

open Fmt

/-! ### Which transaction goes first (R371) -/

/-- Whether x goes first of some transactions: the highest effective QoS, of equals the earliest arrival. -/
def Txn.first (cycle : Nat) (x : Txn) (q : List Txn) : Prop :=
  x ∈ q ∧ ∀ y ∈ q, y.effective cycle ≤ x.effective cycle ∧ (y.effective cycle = x.effective cycle → x.arrived ≤ y.arrived)

theorem Txn.before_iff {cycle : Nat} {t u : Txn} : t.before cycle u = true ↔ u.effective cycle < t.effective cycle ∨
    u.effective cycle = t.effective cycle ∧ (t.arrived < u.arrived ∨ t.arrived = u.arrived ∧ t.master ≤ u.master) := by
  simp only [Txn.before]
  split_ifs <;> simp only [decide_eq_true_eq] <;> omega

/-- The transaction that is picked goes first. -/
theorem pick_first {cycle : Nat} {q : List Txn} (hq : q ≠ []) : ∃ x, pick cycle q = some x ∧ x.first cycle q := by
  induction q with
  | nil => exact absurd rfl hq
  | cons t l ih =>
    cases l with
    | nil => exact ⟨t, rfl, by simp, by simp⟩
    | cons v l =>
      obtain ⟨u, hu, hmem, hbest⟩ := ih (List.cons_ne_nil v l)
      by_cases hb : t.before cycle u = true
      · refine ⟨t, by rw [pick, hu]; exact if_pos hb, List.mem_cons_self, fun y hy => ?_⟩
        have hle := Txn.before_iff.1 hb
        obtain rfl | hy := List.mem_cons.1 hy
        · exact ⟨le_rfl, fun _ => le_rfl⟩
        · obtain ⟨h1, h2⟩ := hbest y hy
          exact ⟨by omega, fun h => by have := h2 (by omega); omega⟩
      · refine ⟨u, by rw [pick, hu]; exact if_neg hb, List.mem_cons_of_mem _ hmem, fun y hy => ?_⟩
        have hle := mt Txn.before_iff.2 hb
        obtain rfl | hy := List.mem_cons.1 hy
        · exact ⟨by omega, fun h => by omega⟩
        · exact hbest y hy

/-! ### Arrivals (R368, R391) -/

section
variable (s : State)

/-- Waiting for a burst of another master counts, and nothing else changes. -/
theorem State.waited_counts (target : Nat) (l : List Txn) : ∃ c, s.waited target l = s.setFab (fun g => { g with conflict := c }) := by
  have hrefl : ∃ c, s = s.setFab (fun g => { g with conflict := c }) := ⟨_, rfl⟩
  unfold State.waited
  split
  · exact hrefl
  · split
    · exact hrefl
    · refine List.foldlRecOn (motive := fun u => ∃ c, u = s.setFab (fun g => { g with conflict := c })) l _ hrefl (fun u hu x _ => ?_)
      obtain ⟨c, rfl⟩ := hu
      split
      · exact ⟨c, rfl⟩
      · exact ⟨_, rfl⟩

theorem State.conflicts_counts (target holder beats : Nat) (l : List Txn) :
    ∃ c, s.conflicts target holder beats l = s.setFab (fun g => { g with conflict := c }) := by
  have hrefl : ∃ c, s = s.setFab (fun g => { g with conflict := c }) := ⟨_, rfl⟩
  unfold State.conflicts
  split
  · exact hrefl
  · refine List.foldlRecOn (motive := fun u => ∃ c, u = s.setFab (fun g => { g with conflict := c })) l _ hrefl (fun u hu x _ => ?_)
    obtain ⟨c, rfl⟩ := hu
    split
    · exact ⟨c, rfl⟩
    · exact ⟨_, rfl⟩

/-- The state in which a target grants: the arrivals queued, and the cycle named. -/
def State.atGrant (target cycle : Nat) (l : List Txn) : State :=
  ((s.waited target l).arrive l).setFab (fun g => { g with now := max g.now cycle })

variable {s}

theorem State.atGrant_none (target cycle : Nat) : s.atGrant target cycle [] = s.setFab (fun g => { g with now := max g.now cycle }) := by
  have hwaited : s.waited target [] = s := by
    unfold State.waited
    split
    · rfl
    · exact ite_self _
  rw [State.atGrant, hwaited]
  rfl

/-- One transaction that its queue takes waits for its target. -/
theorem State.atGrant_joins {target cycle : Nat} {x : Txn} (hres : Cells.get 0 s.fab.resets x.master ≤ x.arrived)
    (hheld : Cells.get [] s.fab.held x.queue = []) (hroom : s.fab.room x = true) : ∃ c, s.atGrant target cycle [x] = s.setFab (fun g => { g with
      conflict := c, waiting := Cells.upd [] g.waiting (s.decodeTxn x) (· ++ [x]), now := max g.now cycle }) := by
  obtain ⟨c, hc⟩ := s.waited_counts target [x]
  have hjoin : (s.setFab (fun g => { g with conflict := c })).arrive [x] = (s.setFab (fun g => { g with conflict := c })).join x := by
    rw [State.arrive, List.filter_cons_of_pos (by simpa using hres)]
    exact if_pos (by rw [Bool.and_eq_true]; exact ⟨by simp [hheld], hroom⟩)
  exact ⟨c, by rw [State.atGrant, hc, hjoin]; rfl⟩

/-- One that finds no room waits with its writer. -/
theorem State.atGrant_holds {target cycle : Nat} {x : Txn} (hres : Cells.get 0 s.fab.resets x.master ≤ x.arrived)
    (hroom : s.fab.room x = false) : ∃ c, s.atGrant target cycle [x] = s.setFab (fun g => { g with
      conflict := c, held := Cells.upd [] g.held x.queue (· ++ [x]), now := max g.now cycle }) := by
  obtain ⟨c, hc⟩ := s.waited_counts target [x]
  have hhold : (s.setFab (fun g => { g with conflict := c })).arrive [x] =
      (s.setFab (fun g => { g with conflict := c })).setFab (fun g => { g with held := Cells.upd [] g.held x.queue (· ++ [x]) }) := by
    rw [State.arrive, List.filter_cons_of_pos (by simpa using hres)]
    exact if_neg (fun h => absurd ((Bool.and_eq_true_iff.1 h).2.symm.trans hroom) (by decide))
  exact ⟨c, by rw [State.atGrant, hc, hhold]; rfl⟩

/-! ### Grants (R371–R373) -/

/-- A target that a burst holds, or that may take none of those that wait, grants none. -/
theorem execFabricGrant_idle {target cycle : Nat} {l : List Txn} (hpow : bit s.power.domains 11 = true)
    (hnone : (s.atGrant target cycle l).fab.busy target cycle = true ∨
      (Cells.get [] (s.atGrant target cycle l).fab.waiting target).filter (fun t => decide (t.arrived ≤ cycle) &&
        (((s.atGrant target cycle l).fab.lock target).isNone || decide (t.master = 18))) = []) :
    exec (.fabricGrant target cycle l) s = .next (s.atGrant target cycle l) := by
  have hpick : (if (s.atGrant target cycle l).fab.busy target cycle then none else
      pick cycle ((Cells.get [] (s.atGrant target cycle l).fab.waiting target).filter (fun t => decide (t.arrived ≤ cycle) &&
        (((s.atGrant target cycle l).fab.lock target).isNone || decide (t.master = 18))))) = none := by
    obtain h | h := hnone
    · exact if_pos h
    · rw [h, pick]
      exact ite_self _
  show execFabricGrant target cycle l s = _
  rw [execFabricGrant, if_neg (by simp [hpow])]
  dsimp only
  rw [← State.atGrant, hpick]

/-- A granted transaction has left its target's queue. -/
def State.yields (s : State) (target : Nat) (x : Txn) : State :=
  s.setFab (fun g => { g with
    waiting := Cells.put [] g.waiting target (dropTxn x (Cells.get [] g.waiting target)), last := Cells.put 0 g.last target (x.master + 1) })

/-- A target with no lock and no burst grants the one that goes first, which leaves its queue. -/
theorem execFabricGrant_grants {target cycle : Nat} {l : List Txn} {x : Txn} (hpow : bit s.power.domains 11 = true)
    (hlock : (s.atGrant target cycle l).fab.lock target = none) (hfree : (s.atGrant target cycle l).fab.busy target cycle = false)
    (harr : ∀ y ∈ Cells.get [] (s.atGrant target cycle l).fab.waiting target, y.arrived ≤ cycle)
    (hpick : pick cycle (Cells.get [] (s.atGrant target cycle l).fab.waiting target) = some x)
    (hheld : Cells.get [] (s.atGrant target cycle l).fab.held x.queue = []) :
    ∃ c, exec (.fabricGrant target cycle l) s =
      .next ((((s.atGrant target cycle l).yields target x).setFab (fun g => { g with conflict := c })).perform target cycle x) := by
  have hready : (Cells.get [] (s.atGrant target cycle l).fab.waiting target).filter (fun t => decide (t.arrived ≤ cycle) &&
        (((s.atGrant target cycle l).fab.lock target).isNone || decide (t.master = 18))) =
      Cells.get [] (s.atGrant target cycle l).fab.waiting target := by
    rw [List.filter_eq_self]
    exact fun y hy => by simp [hlock, harr y hy]
  show ∃ c, execFabricGrant target cycle l s = _
  rw [execFabricGrant, if_neg (by simp [hpow])]
  dsimp only
  rw [← State.atGrant, hready, hfree, if_neg Bool.false_ne_true, hpick, hlock]
  obtain ⟨c, hc⟩ := ((s.atGrant target cycle l).yields target x).conflicts_counts target x.master x.packed.beats.length
    (dropTxn x (Cells.get [] (s.atGrant target cycle l).fab.waiting target))
  have hrefill : ((s.atGrant target cycle l).yields target x).refill cycle
      (Cells.get [] ((s.atGrant target cycle l).yields target x).fab.held x.queue) = (s.atGrant target cycle l).yields target x := by
    show State.refill _ cycle (Cells.get [] (s.atGrant target cycle l).fab.held x.queue) = _
    rw [hheld]
    rfl
  refine ⟨c, ?_⟩
  rw [← hc]
  exact (if_neg Bool.false_ne_true).trans (congrArg (fun u : State => Host.Outcome.next ((u.conflicts target x.master x.packed.beats.length
    (dropTxn x (Cells.get [] (s.atGrant target cycle l).fab.waiting target))).perform target cycle x)) hrefill)

/-! ### What a transfer leaves (R374–R384) -/

/-- What a transfer may touch at any target. -/
def transferParts : List Part := [.fab, .memories, .mailbox, .ev, .sessions, .fault, .net, .vcp, .draws]

variable (s)

theorem State.answer_transfers (t : Txn) (err poisoned : Bool) (data : List Nat) : State.Transfers transferParts s (s.answer t err poisoned data) :=
  .setFab (fun g => { g with resp := some { master := t.master, err := err, poisoned := poisoned, data := t.native data } }) (by decide) rfl rfl

/-- A memory written. -/
theorem State.setMemAt_transfers (target : Nat) (m : Memory) : State.Transfers transferParts s (s.setMemAt target m) := by
  have hmailbox : s.frame ({ s with vcp := { s.vcp with mbx := m } }) [.mailbox] := by simp [State.frame_iff, Part.same]
  have hmem : ∀ f : FabG → FabG, (∀ g, ∃ p q r, f g = { g with pool := p, staging := q, dram := r }) →
      State.Transfers transferParts s (s.setFab f) := by
    intro f hf
    obtain ⟨p, q, r, h⟩ := hf s.fab
    have hstanding := congrArg FabG.standing h
    exact ⟨State.frame_mono (a := [.fab, .memories]) (by simp [State.frame_iff, Part.same, h]) (by decide), hstanding⟩
  unfold State.setMemAt
  split_ifs
  · exact (State.Transfers.of_frame hmailbox (by decide)).mono (by decide)
  · exact hmem _ (fun g => ⟨_, g.staging, g.dram, rfl⟩)
  · exact hmem _ (fun g => ⟨g.pool, _, g.dram, rfl⟩)
  · exact hmem _ (fun g => ⟨g.pool, g.staging, _, rfl⟩)
  · exact .refl _ s

theorem State.mbxReq_frame (c len : Nat) : s.frame (s.mbxReq c len) [.net, .sessions, .vcp, .ev] := by
  have hch := fun (u : State) f => State.frame_mono (b := [.net, .sessions, .vcp, .ev]) (u.updChannel_frame c f) (by decide)
  unfold State.mbxReq
  extract_lets ch s1
  split_ifs
  · exact s.frame_refl _
  · exact hch s _
  · exact State.frame_next (hch s _) (State.hear_onward _ _ _).frame
  · exact State.frame_next (hch s _) (hch _ _)

theorem State.regWrite_frame (spi : Bool) (off v : Nat) : s.frame (s.regWrite spi off v) [.net, .sessions, .vcp, .ev] := by
  have hev := fun f => s.setEv_frame f (l := [.net, .sessions, .vcp, .ev]) (by decide)
  unfold State.regWrite
  split
  · exact State.frame_mono (s.newEv_frame _) (by decide)
  · exact hev _
  · split_ifs
    · exact hev _
    · exact hev _
    · unfold State.mbxWrite
      split
      · exact s.mbxReq_frame _ _
      · exact State.frame_mono (s.mbxEvr_after _ _).2 (by decide)
      · exact s.frame_refl _
    · exact s.frame_refl _

theorem State.regRead_frame (spi : Bool) (off : Nat) : s.frame (s.regRead spi off).2 [.net, .sessions, .vcp, .ev] := by
  have hev := fun g => State.frame_mono (b := [.net, .sessions, .vcp, .ev]) (s.newEv_frame g) (by decide)
  simp only [State.regRead]
  split
  · exact hev _
  · exact hev _
  · exact s.frame_refl _

/-- An access behind a bridge is one to a register, or to what the model draws at random. -/
theorem State.access_transfers (spi write : Bool) (q : Nat × Nat × Nat) : State.Transfers transferParts s (s.access spi write q).1 := by
  have hreg : ∀ t, s.frame t [.net, .sessions, .vcp, .ev] → State.Transfers transferParts s t :=
    fun t h => (State.Transfers.of_frame h (by decide)).mono (by decide)
  have hdraw : s.frame s.draw.2 [.draws] := by simp [State.frame_iff, Part.same, State.draw]
  unfold State.access
  extract_lets off
  clear_value off
  split_ifs
  · exact .refl _ s
  · exact hreg _ (s.regWrite_frame spi off q.2.1)
  · exact .refl _ s
  · exact hreg _ (s.regRead_frame spi off)
  · exact .refl _ s
  · exact (State.Transfers.of_frame hdraw (by decide)).mono (by decide)

theorem State.poolTransfer_transfers (bank : Nat) (t : Txn) : State.Transfers transferParts s (s.poolTransfer bank t) := by
  have hgood := fun (u : State) l => (u.goodLine_transfers l).mono (l := transferParts) (by decide)
  have hfail := fun (u : State) l => (u.failLine_transfers l).mono (l := transferParts) (by decide)
  unfold State.poolTransfer
  extract_lets n lines fail both r
  split
  · exact .refl _ s
  · next base mem _ =>
    split
    · split
      · exact s.answer_transfers t false false []
      · extract_lets s1 s2
        have h1 : State.Transfers transferParts s s1 := s.setMemAt_transfers _ _
        have h2 : State.Transfers transferParts s1 s2 := by
          refine .foldl (fun u l => ?_) _ _
          refine State.Transfers.ite ?_ (hgood u l)
          cases partnerLine l with
          | none => exact hgood u l
          | some p => exact (hgood u l).trans (hgood _ p)
        exact (h1.trans h2).trans (s2.answer_transfers t false false [])
    · have hboth : State.Transfers transferParts s (both (fail s)) := by
        have h1 : State.Transfers transferParts s (fail s) := .ite (.refl _ s) (hfail s _)
        refine h1.trans (.ite (.refl _ _) ?_)
        cases partnerLine (t.line / 32) with
        | none => exact .refl _ _
        | some p => exact hfail _ p
      have hr : State.Transfers transferParts (both (fail s)) r.1 := by
        refine .foldl_fst (fun a l => ?_) lines (both (fail s), false)
        exact (a.1.readLine_transfers (mirrored bank t.issued) l).mono (by decide)
      exact (hboth.trans hr).trans (State.answer_transfers _ _ _ _ _)

theorem State.dramTransfer_transfers (t : Txn) : State.Transfers transferParts s (s.dramTransfer t) := by
  unfold State.dramTransfer
  extract_lets a retries s0 s1 d
  have h0 : State.Transfers transferParts s s0 := .setFab (fun g => { g with dramRetry := satInc g.dramRetry retries }) (by decide) rfl rfl
  have h1 : State.Transfers transferParts s s1 := h0.trans (.ite ((State.dramBad_transfers _ _).mono (by decide)) (.refl _ _))
  refine h1.trans ?_
  split_ifs
  · exact (State.setMemAt_transfers s1 35 (writeBurst s1.fab.dram a t.packed.beats t.packed.enables)).trans (State.answer_transfers _ _ _ _ _)
  · exact (s1.dramFixed_transfers.mono (by decide)).trans (State.answer_transfers _ _ _ _ _)
  · exact ((s1.dramBad_transfers 1).mono (by decide)).trans (State.answer_transfers _ _ _ _ _)
  · exact s1.answer_transfers _ _ _ _

theorem State.decodeErr_transfers (t : Txn) : State.Transfers transferParts s (s.decodeErr t) := by
  unfold State.decodeErr
  extract_lets s1
  have h1 : State.Transfers transferParts s s1 := .setFab _ (by decide) rfl rfl
  have h2 := State.Transfers.of_frame (s1.raiseD_frame .decodeError 0 t.master [t.master, t.addr]) (by decide)
  exact (h1.trans (h2.mono (by decide))).trans (State.answer_transfers _ _ _ _ _)

theorem State.bridgeTransfer_transfers (t : Txn) : State.Transfers transferParts s (s.bridgeTransfer t) := by
  unfold State.bridgeTransfer
  extract_lets spi r
  have hr : State.Transfers transferParts s r.1 := by
    refine .foldl_fst (fun a q => ?_) t.accesses (s, [])
    exact a.1.access_transfers spi t.write q
  exact hr.trans (State.answer_transfers _ _ _ _ _)

/-- No transfer changes the queues, the latest grants or a count of passes. -/
theorem State.transfer_transfers (target : Nat) (t : Txn) : State.Transfers transferParts s (s.transfer target t) := by
  unfold State.transfer
  split_ifs
  · exact s.poolTransfer_transfers target t
  · exact (State.setMemAt_transfers s 32 (writeBurst s.fab.staging (t.line - 0x10000000) t.packed.beats t.packed.enables)).trans
      (State.answer_transfers _ _ _ _ _)
  · exact s.answer_transfers _ _ _ _
  · exact s.dramTransfer_transfers t
  · exact s.decodeErr_transfers t
  · exact s.bridgeTransfer_transfers t

/-- The locks after a transaction. -/
theorem FabG.lockAfter_locks (g : FabG) (target cycle : Nat) (t : Txn) : ∃ l, g.lockAfter target cycle t = { g with locks := l } := by
  unfold FabG.lockAfter
  split_ifs
  all_goals exact ⟨_, rfl⟩

theorem State.perform_standing (target cycle : Nat) (t : Txn) : (s.perform target cycle t).fab.standing = s.fab.standing := by
  obtain ⟨l, hl⟩ := (s.transfer target t).fab.lockAfter_locks target cycle t
  refine Eq.trans ?_ (s.transfer_transfers target t).standing
  simp only [State.perform, State.setFab_fields, hl]
  rfl

variable {s}

/-! ### One transaction, granted as it arrives -/

/-- The state in which a single arrival is performed. -/
def State.granted (s : State) (cycle : Nat) (w : Cells (List Txn)) (last conflict : Mem) : State :=
  s.setFab (fun g => { g with waiting := w, last := last, conflict := conflict, now := max g.now cycle })

theorem State.granted_frame (cycle : Nat) (w : Cells (List Txn)) (last conflict : Mem) : s.frame (s.granted cycle w last conflict) [.fab] :=
  s.setFab_frame _ (by decide) rfl

/-- A transaction that meets an idle target is performed at once. -/
theorem execFabricGrant_one {target cycle : Nat} {x : Txn} (hpow : bit s.power.domains 11 = true) (hlock : s.fab.lock target = none)
    (hfree : s.fab.busy target cycle = false) (hres : Cells.get 0 s.fab.resets x.master ≤ x.arrived)
    (hempty : Cells.get [] s.fab.waiting target = []) (hdec : s.decodeTxn x = target) (harr : x.arrived ≤ cycle)
    (hheld : Cells.get [] s.fab.held x.queue = []) (hroom : s.fab.room x = true) :
    ∃ w last c, exec (.fabricGrant target cycle [x]) s = .next ((s.granted cycle w last c).perform target cycle x) := by
  obtain ⟨c, hc⟩ := State.atGrant_joins (target := target) (cycle := cycle) hres hheld hroom
  have hq : Cells.get [] (s.atGrant target cycle [x]).fab.waiting target = [x] := by
    rw [hc]
    simp [State.setFab, hdec, Cells.get_upd, hempty]
  obtain ⟨d, hd⟩ := execFabricGrant_grants (s := s) (target := target) (cycle := cycle) (l := [x]) (x := x) hpow (by rw [hc]; exact hlock)
    (by rw [hc]; exact hfree) (by rw [hq]; simpa using harr) (by rw [hq]; rfl) (by rw [hc]; exact hheld)
  rw [hc] at hd
  exact ⟨_, _, _, hd⟩

/-! ### Where a pool access goes (R369, R372) -/

/-- A transaction that goes to one of the general pool banks. -/
theorem State.decodeTxn_pool {target : Nat} {x : Txn} (hdec : s.decodeTxn x = target) (ht : target < 28) :
    x.burstOk = true ∧ x.addr / 0x80000 = target ∧ poolReach x.master target = true := by
  have hdefault : tDefault = 36 := rfl
  unfold State.decodeTxn at hdec
  dsimp only at hdec
  split_ifs at hdec with hburst haddr hreach
  case pos => omega
  case pos => exact ⟨by simpa using hburst, hdec, by rwa [hdec] at hreach⟩
  all_goals omega

/-- The port of such a master is 256 bits wide. -/
theorem State.decodeTxn_wide {target : Nat} {x : Txn} (hdec : s.decodeTxn x = target) (ht : target < 28) : portWidth x.master = 32 := by
  obtain ⟨-, -, hreach⟩ := State.decodeTxn_pool hdec ht
  refine if_neg (fun h22 => ?_)
  rw [h22, show poolReach 22 target = (decide (target = 28) || decide (target = 29)) from rfl] at hreach
  simp at hreach
  omega

/-- A burst's beats are lines of its bank. -/
theorem State.decodeTxn_bank {target : Nat} {x : Txn} (hdec : s.decodeTxn x = target) (ht : target < 28) :
    lineBank (x.line / 32) = target ∧ 0 < x.packed.beats.length := by
  obtain ⟨hburst, haddr, -⟩ := State.decodeTxn_pool hdec ht
  constructor
  · rw [lineBank, Txn.line]
    omega
  · simp only [Txn.burstOk, Bool.and_eq_true, decide_eq_true_eq] at hburst
    omega

/-- The memory of the general banks. -/
theorem State.memAt_pool {target : Nat} (ht : target < 28) : s.memAt target = some (0, s.fab.pool) := by
  rw [State.memAt, if_neg (by omega), if_pos (by omega)]

theorem State.setMemAt_pool {target : Nat} (ht : target < 28) (m : Memory) : s.setMemAt target m = s.setFab (fun g => { g with pool := m }) := by
  rw [State.setMemAt, if_neg (by omega), if_pos (by omega)]

theorem Txn.native_wide {x : Txn} (h : portWidth x.master = 32) (data : List Nat) : x.native data = data := if_pos h

/-! ### A pool write (R375, R377) -/

/-- Lines made good change the parity bits alone. -/
theorem State.goodLines_flips (mir : Bool) (lines : List Nat) : ∃ f, lines.foldl (fun (s : State) l =>
    if mir = true then (partnerLine l).elim (s.goodLine l) (s.goodLine l).goodLine else s.goodLine l) s =
      s.setFab (fun g => { g with flips := f }) := by
  refine List.foldlRecOn (motive := fun u => ∃ f, u = s.setFab (fun g => { g with flips := f })) lines _ ⟨s.fab.flips, rfl⟩ (fun u hu l _ => ?_)
  obtain ⟨f, rfl⟩ := hu
  cases mir with
  | true =>
    cases partnerLine l with
    | none => exact ⟨_, rfl⟩
    | some p => exact ⟨_, rfl⟩
  | false => exact ⟨_, rfl⟩

/-- A write stores the enabled bytes of its burst, and its answer has no data. -/
theorem State.poolTransfer_write {target : Nat} {x : Txn} (ht : target < 28) (hw : x.write = true) (hwide : portWidth x.master = 32) :
    ∃ f, s.poolTransfer target x = s.setFab (fun g => { g with
      pool := writeBurst g.pool x.line x.packed.beats x.packed.enables, flips := f
      resp := some { master := x.master, err := false, poisoned := false, data := [] } }) := by
  have hown : x.otherWindow = false := by
    have h22 : x.master ≠ 22 := fun h => by rw [h] at hwide; exact absurd hwide (by decide)
    simp [Txn.otherWindow, h22]
  obtain ⟨f, hf⟩ := State.goodLines_flips (s := s.setFab (fun g => { g with pool := writeBurst g.pool x.line x.packed.beats x.packed.enables }))
    (mirrored target x.issued) ((List.range x.packed.beats.length).map (fun i => x.line / 32 + i))
  refine ⟨f, ?_⟩
  rw [State.poolTransfer, State.memAt_pool ht]
  dsimp only
  rw [if_pos hw, hown, if_neg Bool.false_ne_true, State.setMemAt_pool ht]
  refine (congrArg (fun u : State => u.answer x false false []) hf).trans ?_
  simp only [State.answer, Txn.native_wide hwide]
  rfl

/-- The burst of a write holds its bank until its last beat, with its lines as they were. -/
theorem State.perform_write {target cycle : Nat} {x : Txn} (ht : target < 28) (hw : x.write = true) (hwide : portWidth x.master = 32) :
    ∃ f l, s.perform target cycle x = s.setFab (fun g => { g with
      pool := writeBurst g.pool x.line x.packed.beats x.packed.enables, flips := f
      resp := some { master := x.master, err := false, poisoned := false, data := [] }, locks := l
      bursts := Cells.put none g.bursts target
        (some { txn := x, start := cycle, old := readBurst s.fab.pool x.line x.packed.beats.length }) }) := by
  obtain ⟨f, hf⟩ := State.poolTransfer_write (s := s) ht hw hwide
  have htransfer : s.transfer target x = s.poolTransfer target x := if_pos (by omega)
  obtain ⟨l, hl⟩ := (s.transfer target x).fab.lockAfter_locks target cycle x
  refine ⟨f, l, ?_⟩
  rw [htransfer, hf] at hl
  simp only [State.perform, htransfer, hf, State.memAt_pool ht, if_pos hw]
  simp only [State.setFab_fields] at hl
  simp only [State.setFab, hl]
  rfl

/-- A burst cut after its first beat: the lines of the others are written as they were. -/
theorem State.cutBurst_pool {target : Nat} {b : Burst} (ht : target < 28) (hw : b.txn.write = true) (hnow : s.fab.now = b.start)
    (hbeats : 0 < b.txn.packed.beats.length) (hold : b.old.length = b.txn.packed.beats.length) :
    (s.cutBurst target b).fab.pool = writeBurst s.fab.pool (b.txn.line + 32) (b.old.drop 1)
      (List.replicate (b.txn.packed.beats.length - 1) (2 ^ 32 - 1)) := by
  have hk : min b.txn.packed.beats.length (s.fab.now + 1 - b.start) = 1 := by omega
  simp only [State.cutBurst, hk, State.memAt_pool ht, State.setMemAt_pool ht, if_pos hw]
  split
  · next h => rw [List.drop_eq_nil_of_le (by omega)]; rfl
  · simp

/-- A reset of the master of the one burst in progress. -/
theorem State.drain_pool {target : Nat} {b : Burst} (ht : target < 28) (hb : s.fab.bursts = [(target, some b)]) (hw : b.txn.write = true)
    (hnow : s.fab.now = b.start) (hbeats : 0 < b.txn.packed.beats.length) (hold : b.old.length = b.txn.packed.beats.length) :
    (s.drain b.txn.master).fab.pool = writeBurst s.fab.pool (b.txn.line + 32) (b.old.drop 1)
      (List.replicate (b.txn.packed.beats.length - 1) (2 ^ 32 - 1)) := by
  simp only [State.drain, hb]
  simp only [List.filter_cons, Option.any_some, decide_true, if_true, List.filter_nil, List.foldl_cons, List.foldl_nil]
  exact State.cutBurst_pool ht hw hnow hbeats hold

/-- What a performed write leaves: the enabled bytes of its beats, and no other byte. -/
theorem State.perform_stores {target cycle : Nat} {x : Txn} (ht : target < 28) (hw : x.write = true) (hwide : portWidth x.master = 32) :
    (∀ j i, j < x.packed.beats.length → i < 32 → (s.perform target cycle x).fab.pool.read (x.line + 32 * j + i) =
      if bit (x.packed.enables.getD j 0) i then x.packed.beats.getD j 0 / 256 ^ i % 256 else s.fab.pool.read (x.line + 32 * j + i)) ∧
    (∀ a, a < x.line ∨ x.line + 32 * x.packed.beats.length ≤ a → (s.perform target cycle x).fab.pool.read a = s.fab.pool.read a) := by
  obtain ⟨f, l, hp⟩ := State.perform_write (s := s) (cycle := cycle) ht hw hwide
  rw [hp]
  exact ⟨fun j i hj hi => read_writeBurst _ _ _ _ hj hi, fun a ha => read_writeBurst_other _ _ _ _ ha⟩

/-- A reset of its master in the cycle of its first beat leaves the lines of the other beats as they were. -/
theorem State.perform_drained {target cycle : Nat} {x : Txn} (ht : target < 28) (hw : x.write = true) (hwide : portWidth x.master = 32)
    (hbeats : 0 < x.packed.beats.length) (hnow : s.fab.now = cycle) (hnone : s.fab.bursts = []) :
    (∀ a, a < x.line + 32 → ((s.perform target cycle x).drain x.master).fab.pool.read a = (s.perform target cycle x).fab.pool.read a) ∧
    (∀ a, x.line + 32 ≤ a → ((s.perform target cycle x).drain x.master).fab.pool.read a = s.fab.pool.read a) := by
  have hout := (State.perform_stores (s := s) (cycle := cycle) ht hw hwide).2
  obtain ⟨f, l, hp⟩ := State.perform_write (s := s) (cycle := cycle) ht hw hwide
  have hpool := State.drain_pool (s := s.perform target cycle x)
    (b := { txn := x, start := cycle, old := readBurst s.fab.pool x.line x.packed.beats.length }) ht (by rw [hp]; simp [hnone]; rfl) hw
    (by rw [hp]; exact hnow) hbeats (length_readBurst _ _ _)
  refine ⟨fun a ha => ?_, fun a ha => ?_⟩
  · rw [hpool]
    exact read_writeBurst_other _ _ _ _ (.inl ha)
  · rw [hpool]
    exact read_restoreBurst _ _ _ ha (fun c hc => hout c (.inr hc))

/-! ### A pool read (R377–R380) -/

theorem State.lineGood_iff (line : Nat) : s.lineGood line = true ↔ Cells.get 0 s.fab.flips line = 0 := by
  rw [State.lineGood, decide_eq_true_iff, State.heldParity]
  exact ⟨fun h => by simpa using congrArg (lineParity (s.lineData line) ^^^ ·) h, fun h => by rw [h, Nat.xor_zero]⟩

/-- The lines of a burst, read one after the other. -/
def State.readLines (s : State) (mir : Bool) (lines : List Nat) (poisoned : Bool) : State × Bool :=
  lines.foldl (fun (a : State × Bool) l => let q := a.1.readLine mir l; (q.1, a.2 || q.2)) (s, poisoned)

theorem State.readLines_good (mir poisoned : Bool) {lines : List Nat} (h : ∀ l ∈ lines, s.lineGood l = true) :
    s.readLines mir lines poisoned = (s, poisoned) := by
  induction lines with
  | nil => rfl
  | cons l lines ih =>
    obtain ⟨hl, hrest⟩ := List.forall_mem_cons.1 h
    have hone : s.readLine mir l = (s, false) := if_pos hl
    refine Eq.trans ?_ (ih hrest)
    rw [State.readLines, List.foldl_cons, hone]
    dsimp only
    rw [Bool.or_false]
    rfl

/-- The pool lines of a burst. -/
def Txn.lines (x : Txn) : List Nat := (List.range x.packed.beats.length).map (fun i => x.line / 32 + i)

/-- A read answers the bytes of its lines, and tells those that fail. -/
theorem State.poolTransfer_read {target : Nat} {x : Txn} (ht : target < 28) (hw : x.write = false) (hpar : x.parity < 2) :
    s.poolTransfer target x =
      (((if x.parity = 0 then s else s.failLine (x.line / 32)).readLines (mirrored target x.issued) x.lines false).1).answer x false
        (((if x.parity = 0 then s else s.failLine (x.line / 32)).readLines (mirrored target x.issued) x.lines false).2)
        (readBurst s.fab.pool x.line x.packed.beats.length) := by
  rw [State.poolTransfer, State.memAt_pool ht]
  dsimp only
  rw [if_neg (by simp [hw]), if_pos hpar]
  rfl

/-- The partner of a mirrored line is another line. -/
theorem partnerLine_mirrored {target qos line : Nat} (ht : target < 28) (hmir : mirrored target qos = true) (hbank : lineBank line = target) :
    ∃ p, partnerLine line = some p ∧ p ≠ line := by
  rw [lineBank] at hbank
  have hbanks : target < 12 ∨ 20 ≤ target := by
    simp only [mirrored, Bool.or_eq_true, Bool.and_eq_true, decide_eq_true_eq] at hmir
    omega
  rw [partnerLine, lineBank, hbank]
  obtain h | h := hbanks
  · exact ⟨(target + 6) % 12 * 16384 + line % 16384, by rw [partnerBank, if_pos h]; rfl, by omega⟩
  · exact ⟨(20 + (target - 16) % 8) * 16384 + line % 16384, by rw [partnerBank, if_neg (by omega), if_pos ⟨h, by omega⟩]; rfl, by omega⟩

/-- What the first line's failing parity leaves, where no other line fails. -/
def State.lineJudged (s : State) (mir : Bool) (target line : Nat) : State :=
  if mir then ((s.failLine line).goodLine line).poolParity target 1 else (s.failLine line).poolParity target 3

theorem State.lineJudged_mirrored (target line : Nat) :
    s.lineJudged true target line = ((s.failLine line).goodLine line).poolParity target 1 := if_pos rfl

theorem State.lineJudged_plain (target line : Nat) : s.lineJudged false target line = (s.failLine line).poolParity target 3 :=
  if_neg Bool.false_ne_true

/-- A line that fails with a good partner is corrected; one that has none is poisoned. -/
theorem State.readLine_failed {target qos line : Nat} (hflips : s.fab.flips = []) (ht : target < 28) (hbank : lineBank line = target) :
    (s.failLine line).readLine (mirrored target qos) line = (s.lineJudged (mirrored target qos) target line, !mirrored target qos) := by
  have hget : ∀ l, Cells.get 0 (s.failLine line).fab.flips l = if l = line then 1 else 0 := by
    intro l
    simp [State.failLine, State.setFab, hflips, Cells.get_put, Cells.get]
  have hbad : (s.failLine line).lineGood line ≠ true := by
    rw [Ne, State.lineGood_iff, hget, if_pos rfl]
    decide
  rw [State.readLine, if_neg hbad, hbank, State.lineJudged]
  cases hmir : mirrored target qos with
  | false => simp only [Bool.not_false, if_true, Bool.false_eq_true, if_false]
  | true =>
    obtain ⟨p, hp, hne⟩ := partnerLine_mirrored ht hmir hbank
    have hgood : (s.failLine line).lineGood p = true := by rw [State.lineGood_iff, hget, if_neg hne]
    simp only [hp, Option.any_some, hgood, Bool.not_true, if_true, Bool.false_eq_true, if_false]

/-- After it the other lines are good. -/
theorem State.lineJudged_flips {target line : Nat} (hflips : s.fab.flips = []) (mir : Bool) :
    (s.lineJudged mir target line).fab.flips = if mir then [] else [(line, 1)] := by
  cases mir <;> simp [State.lineJudged, State.poolParity_fab, State.failLine, State.goodLine, hflips, Cells.put, Cells.ins, Cells.del]

/-- The first line of a burst, and the others. -/
theorem Txn.lines_cons {x : Txn} (h : 0 < x.packed.beats.length) : ∃ rest, x.lines = x.line / 32 :: rest ∧ ∀ l ∈ rest, l ≠ x.line / 32 := by
  obtain ⟨n, hn⟩ := Nat.exists_eq_add_of_lt h
  rw [Nat.zero_add] at hn
  refine ⟨((List.range n).map Nat.succ).map (fun i => x.line / 32 + i), by rw [Txn.lines, hn, List.range_succ_eq_map]; rfl, fun l hl => ?_⟩
  simp only [List.mem_map, List.mem_range] at hl
  obtain ⟨i, ⟨k, -, rfl⟩, rfl⟩ := hl
  omega

/-- Of a burst whose first line alone fails that line is judged, and the others are good. -/
theorem State.readLines_failed {target : Nat} {x : Txn} (hflips : s.fab.flips = []) (ht : target < 28) (hbank : lineBank (x.line / 32) = target)
    (hbeats : 0 < x.packed.beats.length) : (s.failLine (x.line / 32)).readLines (mirrored target x.issued) x.lines false =
      (s.lineJudged (mirrored target x.issued) target (x.line / 32), !mirrored target x.issued) := by
  obtain ⟨rest, hlines, hrest⟩ := Txn.lines_cons hbeats
  have hgood : ∀ l ∈ rest, (s.lineJudged (mirrored target x.issued) target (x.line / 32)).lineGood l = true := by
    intro l hl
    rw [State.lineGood_iff, State.lineJudged_flips hflips]
    split
    · rfl
    · simp [Cells.get, (hrest l hl).symm]
  refine Eq.trans ?_ (State.readLines_good (mirrored target x.issued) (!mirrored target x.issued) hgood)
  rw [State.readLines, hlines, List.foldl_cons, State.readLine_failed hflips ht hbank]
  dsimp only
  rw [Bool.false_or]
  rfl

/-- After its transfer a transaction leaves the locks and its burst. -/
theorem State.perform_eq (target cycle : Nat) (x : Txn) :
    ∃ l b, s.perform target cycle x = (s.transfer target x).setFab (fun g => { g with locks := l, bursts := b }) := by
  obtain ⟨l, hl⟩ := (s.transfer target x).fab.lockAfter_locks target cycle x
  exact ⟨l, _, by simp only [State.perform, State.setFab, hl]; rfl⟩

/-- A read of good lines. -/
theorem State.perform_reads {target cycle : Nat} {x : Txn} (ht : target < 28) (hw : x.write = false) (hflips : s.fab.flips = [])
    (hpar : x.parity = 0) : ∃ l b, s.perform target cycle x = s.setFab (fun g => { g with
      resp := some { master := x.master, err := false, poisoned := false, data := x.native (readBurst s.fab.pool x.line x.packed.beats.length) }
      locks := l, bursts := b }) := by
  obtain ⟨l, b, h⟩ := s.perform_eq target cycle x
  have hgood : ∀ k ∈ x.lines, s.lineGood k = true := fun k _ => by rw [State.lineGood_iff, hflips]; rfl
  have htransfer : s.transfer target x = s.poolTransfer target x := if_pos (by omega)
  refine ⟨l, b, ?_⟩
  rw [h, htransfer, State.poolTransfer_read ht hw (by omega), if_pos hpar, State.readLines_good _ _ hgood]
  rfl

/-- A read whose first line fails its parity. -/
theorem State.perform_judges {target cycle : Nat} {x : Txn} (ht : target < 28) (hw : x.write = false) (hflips : s.fab.flips = [])
    (hpar : x.parity = 1) (hdec : s.decodeTxn x = target) : ∃ l b, s.perform target cycle x =
      (s.lineJudged (mirrored target x.issued) target (x.line / 32)).setFab (fun g => { g with
        resp := some { master := x.master, err := false, poisoned := !mirrored target x.issued
                       data := x.native (readBurst s.fab.pool x.line x.packed.beats.length) }
        locks := l, bursts := b }) := by
  obtain ⟨hbank, hbeats⟩ := State.decodeTxn_bank hdec ht
  obtain ⟨l, b, h⟩ := s.perform_eq target cycle x
  have htransfer : s.transfer target x = s.poolTransfer target x := if_pos (by omega)
  refine ⟨l, b, ?_⟩
  rw [h, htransfer, State.poolTransfer_read ht hw (by omega), if_neg (by omega), State.readLines_failed hflips ht hbank hbeats]
  rfl

/-- The line judged is counted and told; where no partner has it, it stays bad, and FAULT_SUM shows it. -/
theorem State.lineJudged_told (mir : Bool) (target line : Nat) : s.told (s.lineJudged mir target line) .poolParity 0 target (if mir then 1 else 3) ∧
    (s.lineJudged mir target line).fab.poolParity = satInc s.fab.poolParity 1 ∧
    (mir = false → (s.lineJudged mir target line).fault.uncorrected = true) := by
  have hfail : s.frame (s.failLine line) [.fab] := (s.failLine_transfers line).frame
  have hgood : s.frame ((s.failLine line).goodLine line) [.fab] := State.frame_next hfail (State.goodLine_transfers _ _).frame
  cases mir with
  | true =>
    rw [State.lineJudged_mirrored, State.poolParity_fab]
    exact ⟨State.told_after (State.poolParity_told _ target 1) hgood (by decide), rfl, fun h => absurd h (by decide)⟩
  | false =>
    rw [State.lineJudged_plain, State.poolParity_fab]
    exact ⟨State.told_after (State.poolParity_told _ target 3) hfail (by decide), rfl, fun _ => State.poolParity_uncorrected _ (by decide) target⟩

/-! ### A decode error (R374) -/

/-- The default target answers with an error and tells who asked for what. -/
theorem State.perform_decodeErr (cycle : Nat) (x : Txn) : s.toldD (s.perform 36 cycle x) .decodeError 0 x.master [x.master, x.addr] ∧
    s.frame (s.perform 36 cycle x) [.fab, .ev, .sessions] ∧
    ∃ a, (s.perform 36 cycle x).fab.resp = some a ∧ a.master = x.master ∧ a.err = true := by
  obtain ⟨l, b, h⟩ := s.perform_eq 36 cycle x
  have htransfer : s.transfer 36 x = s.decodeErr x := rfl
  have hset : s.frame (s.setFab (fun g => { g with decode := Cells.upd 0 g.decode x.master (satInc · 1) })) [.fab] := s.setFab_frame _ (by decide) rfl
  obtain ⟨htold, hf⟩ := State.raiseD_after hset (by decide) .decodeError 0 x.master [x.master, x.addr]
  rw [h, htransfer]
  exact ⟨htold, State.frame_next (State.frame_next hf (State.setFab_frame _ _ (by decide) rfl)) (State.setFab_frame _ _ (by decide) rfl),
    _, rfl, rfl, rfl⟩

/-! ### A master's reset (R376) -/

/-- A burst that is cut changes memories and the answer alone. -/
theorem State.cutBurst_kept (target : Nat) (b : Burst) : ∃ p q r a, (s.cutBurst target b).fab =
    { s.fab with pool := p, staging := q, dram := r, resp := a } := by
  simp only [State.cutBurst]
  split_ifs
  · exact ⟨_, _, _, _, rfl⟩
  · split
    · simp only [State.setMemAt]
      split_ifs <;> exact ⟨_, _, _, _, rfl⟩
    · exact ⟨_, _, _, _, rfl⟩
  · exact ⟨_, _, _, _, rfl⟩

/-- The fabric of a master reset, but for memories and the answer. -/
theorem State.drain_fab (m : Nat) : ∃ p q r a, (s.drain m).fab = { (s.flushPort m).fab with
    locks := if m = 18 then [] else s.fab.locks
    resets := Cells.put 0 s.fab.resets m (((s.fab.bursts.filter (fun c => c.2.any (fun b => decide (b.txn.master = m)))).filterMap (·.2)).foldl
      (fun n b => max n b.done) 0)
    pool := p, staging := q, dram := r, resp := a } := by
  unfold State.drain
  extract_lets own s1
  refine List.foldlRecOn (motive := fun u : State => ∃ p q r a, u.fab = { s1.fab with pool := p, staging := q, dram := r, resp := a }) own _
    ⟨_, _, _, _, rfl⟩ (fun u hu c _ => ?_)
  obtain ⟨p, q, r, a, hu⟩ := hu
  split
  · obtain ⟨p', q', r', a', h⟩ := u.cutBurst_kept c.1 _
    exact ⟨p', q', r', a', h.trans (by rw [hu])⟩
  · exact ⟨p, q, r, a, hu⟩

end

/-- The reset of a master lasts until the last of its bursts has ended. -/
theorem done_le_foldl {b : Burst} (l : List Burst) (h : b ∈ l) (n : Nat) : b.done ≤ l.foldl (fun n b => max n b.done) n := by
  have hmono : ∀ (l : List Burst) n, n ≤ l.foldl (fun n b => max n b.done) n := by
    intro l
    induction l with
    | nil => exact fun n => le_rfl
    | cons c l ih => exact fun n => (le_max_left n c.done).trans (ih _)
  induction l generalizing n with
  | nil => exact absurd h List.not_mem_nil
  | cons c l ih =>
    obtain rfl | h := List.mem_cons.1 h
    · exact (le_max_right n b.done).trans (hmono l _)
    · exact ih h _

/-- With no burst in progress the reset of a master touches no memory. -/
theorem State.drain_idle {s : State} {m : Nat} (h : s.fab.bursts = []) : s.frame (s.drain m) [.fab] := by
  unfold State.drain
  rw [h]
  exact State.frame_next (s.flushPort_frame m) (State.setFab_frame _ _ (by decide) rfl)

section
variable {s : State}

/-- A master's reset withdraws what it has waiting, ends its locks, and lasts as long as its bursts. -/
theorem State.drain_withdraws (m : Nat) : (∀ k, ∀ x ∈ Cells.get [] (s.drain m).fab.waiting k, x.master ≠ m) ∧
    (∀ q, q % 32 = m → Cells.get [] (s.drain m).fab.held q = []) ∧ (∀ target, m = 18 → (s.drain m).fab.lock target = none) ∧
    (∀ c ∈ s.fab.bursts, ∀ b, c.2 = some b → b.txn.master = m → b.done ≤ Cells.get 0 (s.drain m).fab.resets m) := by
  obtain ⟨p, q, r, a, hfab⟩ := s.drain_fab m
  rw [hfab]
  refine ⟨s.flushPort_waiting, fun k hk => s.flushPort_held hk, fun target hm => ?_, fun b hb x hx hmaster => ?_⟩
  · rw [if_pos hm]
    rfl
  · refine le_of_le_of_eq ?_ (Cells.get_put_same _ _ _ _).symm
    refine done_le_foldl _ (List.mem_filterMap.2 ⟨b, List.mem_filter.2 ⟨hb, ?_⟩, hx⟩) 0
    simp [hx, hmaster]

/-- The grant of those that wait goes to the first of them, which leaves its queue. -/
theorem execFabricGrant_first {target cycle : Nat} {q : List Txn} (hpow : bit s.power.domains 11 = true) (hlock : s.fab.lock target = none)
    (hfree : s.fab.busy target cycle = false) (hq : Cells.get [] s.fab.waiting target = q) (hsome : q ≠ []) (harr : ∀ x ∈ q, x.arrived ≤ cycle)
    (hheld : ∀ x ∈ q, Cells.get [] s.fab.held x.queue = []) : ∃ (t : State) (x : Txn), exec (.fabricGrant target cycle []) s = .next t ∧
      x.first cycle q ∧ Cells.get 0 t.fab.last target = x.master + 1 ∧ Cells.get [] t.fab.waiting target = dropTxn x q := by
  obtain ⟨x, hpick, hfirst⟩ := pick_first (cycle := cycle) hsome
  have hat := s.atGrant_none target cycle
  obtain ⟨c, hexec⟩ := execFabricGrant_grants (s := s) (target := target) (cycle := cycle) (l := []) (x := x) hpow (by rw [hat]; exact hlock)
    (by rw [hat]; exact hfree) (by rw [hat]; exact hq ▸ harr) (by rw [hat]; exact hq ▸ hpick) (by rw [hat]; exact hheld x hfirst.1)
  have hstanding := State.perform_standing (((s.atGrant target cycle []).yields target x).setFab (fun g => { g with conflict := c })) target cycle x
  refine ⟨_, x, hexec, hfirst, ?_, ?_⟩
  · refine (congrArg (fun p => Cells.get 0 p.2.1 target) hstanding).trans ?_
    exact Cells.get_put_same 0 _ target (x.master + 1)
  · refine (congrArg (fun p => Cells.get [] p.1 target) hstanding).trans ?_
    refine (Cells.get_put_same _ _ _ _).trans ?_
    rw [hat]
    exact congrArg (dropTxn x) hq

/-- A burst, or a lock of another master, keeps those that wait waiting. -/
theorem execFabricGrant_kept {target cycle : Nat} (hpow : bit s.power.domains 11 = true) (hidle : s.fab.busy target cycle = true ∨
    (s.fab.lock target ≠ none ∧ ∀ x ∈ Cells.get [] s.fab.waiting target, x.master ≠ 18)) :
    exec (.fabricGrant target cycle []) s = .next (s.setFab (fun g => { g with now := max g.now cycle })) := by
  have hat := s.atGrant_none target cycle
  rw [← hat]
  refine execFabricGrant_idle hpow ?_
  rw [hat]
  obtain hbusy | ⟨hlock, hother⟩ := hidle
  · exact .inl hbusy
  · refine .inr (List.filter_eq_nil_iff.2 (fun y hy => ?_))
    have hl : (s.fab.lock target).isNone = false := by simpa [Option.isNone_eq_false_iff, Option.isSome_iff_ne_none] using hlock
    show ¬ (decide (y.arrived ≤ cycle) && ((s.fab.lock target).isNone || decide (y.master = 18))) = true
    simp [hl, hother y hy]

/-- A read of a line that fails is counted, told and answered; a line that no partner has stays bad. -/
theorem State.perform_failing {target cycle : Nat} {x : Txn} (ht : target < 28) (hw : x.write = false) (hflips : s.fab.flips = [])
    (hpar : x.parity = 1) (hdec : s.decodeTxn x = target) : ∃ t, s.perform target cycle x = t ∧
      t.fab.poolParity = satInc s.fab.poolParity 1 ∧ t.fab.resp = some { master := x.master, err := false, poisoned := !mirrored target x.issued
                                                                         data := x.native (readBurst s.fab.pool x.line x.packed.beats.length) } ∧
      s.told t .poolParity 0 target (if mirrored target x.issued then 1 else 3) ∧ (mirrored target x.issued = true → t.fab.flips = []) ∧
      (mirrored target x.issued = false → t.lineGood (x.line / 32) = false ∧ t.fault.uncorrected = true) := by
  obtain ⟨l, b, hp⟩ := State.perform_judges (s := s) (cycle := cycle) ht hw hflips hpar hdec
  obtain ⟨htold, hcount, hbad⟩ := s.lineJudged_told (mirrored target x.issued) target (x.line / 32)
  have hlines := State.lineJudged_flips (s := s) (target := target) (line := x.line / 32) hflips (mirrored target x.issued)
  refine ⟨_, hp, hcount, rfl, ?_, fun hm => hlines.trans (if_pos hm), fun hm => ⟨?_, hbad hm⟩⟩
  · exact State.told_of_frame htold (State.setFab_frame _ _ (List.mem_singleton.2 rfl) rfl) (by decide) (by decide)
  · rw [← Bool.not_eq_true, State.lineGood_iff]
    show Cells.get 0 (State.lineJudged _ _ _ _).fab.flips _ ≠ 0
    rw [hlines, if_neg (by simp [hm])]
    simp [Cells.get]

end

/-- Settles O49: a grant performs the arrival on the state that `execFabricGrant_one` gives; what its transfer does is said by
`perform_stores`, `perform_reads`, `perform_judges` and `perform_decodeErr`, and no transfer changes the queues (`perform_standing`). -/
theorem fabricAndMemoriesServe : Obligations.FabricAndMemoriesServe := by
  unfold Obligations.FabricAndMemoriesServe
  refine ⟨fun s target cycle => ⟨fun x hpow hlock hfree hres hempty hdec harr hwf hheld hroom => ?_, fun q hpow hlock hfree hq hsome harr hheld hwf => ?_,
    fun hpow hidle => ?_, fun x hpow hres hempty hroom => ?_, fun hwf => ?_, fun m => ?_⟩, fun s => ⟨fun found hpow => ?_, fun found hpow => ?_,
    fun a ha => ?_, fun found => ?_, fun x n reflect take hx hfence hwf => ?_⟩⟩
  · obtain ⟨w, last, c, hexec⟩ := execFabricGrant_one hpow hlock hfree hres hempty hdec harr hheld hroom
    have hgranted := s.granted_frame cycle w last c
    intro y n
    refine ⟨fun ht hw hpool => ?_, fun ht hw hflips => ⟨fun hpar => ?_, fun hpar => ?_⟩, fun ht => ?_⟩
    · have hwide := State.decodeTxn_wide hdec ht
      have hbeats := (State.decodeTxn_bank hdec ht).2
      obtain ⟨hstore, hother⟩ := State.perform_stores (s := s.granted cycle w last c) (cycle := cycle) ht hw hwide
      obtain ⟨f, l, hp⟩ := State.perform_write (s := s.granted cycle w last c) (cycle := cycle) ht hw hwide
      refine ⟨_, hexec, by rw [hp]; rfl, hstore, hother, by rw [hp]; rfl, by rw [hp]; rfl, ?_, fun hnow hnone => ?_⟩
      · refine State.frame_next (State.frame_mono hgranted (by decide)) ?_
        rw [hp]
        simp [State.frame_iff, Part.same]
      · obtain ⟨hlow, hhigh⟩ := State.perform_drained (s := s.granted cycle w last c) (cycle := cycle) ht hw hwide hbeats
          (Nat.max_eq_right hnow) hnone
        exact ⟨_, rfl, hlow, hhigh⟩
    · obtain ⟨l, b, hp⟩ := State.perform_reads (s := s.granted cycle w last c) (cycle := cycle) ht hw hflips hpar
      rw [hp] at hexec
      exact ⟨_, hexec, rfl, State.frame_next hgranted (State.setFab_frame _ _ (by decide) rfl)⟩
    · intro mir
      obtain ⟨t, hp, hcount, hresp, htold, hmir, hplain⟩ :=
        State.perform_failing (s := s.granted cycle w last c) (cycle := cycle) ht hw hflips hpar hdec
      rw [hp] at hexec
      exact ⟨t, hexec, hcount, hresp, State.told_after htold hgranted (by decide), hmir, hplain⟩
    · subst ht
      obtain ⟨htold, hf, a, ha, hmaster, herr⟩ := (s.granted cycle w last c).perform_decodeErr cycle x
      exact ⟨_, a, hexec, ha, hmaster, herr, State.toldD_after htold hgranted (by decide), State.frame_mono (State.frame_trans hgranted hf) (by decide)⟩
  · obtain ⟨t, x, hexec, ⟨hmem, hbest⟩, hlast, hrest⟩ := execFabricGrant_first hpow hlock hfree hq hsome harr hheld
    exact ⟨t, x, hexec, hmem, hbest, hlast, hrest⟩
  · exact ⟨_, execFabricGrant_kept hpow hidle, rfl, s.setFab_frame _ (by decide) rfl⟩
  · obtain ⟨c, hc⟩ := State.atGrant_holds (target := target) (cycle := cycle) hres hroom
    refine ⟨_, execFabricGrant_idle hpow (.inr ?_), ?_⟩
    · rw [hc]
      show (Cells.get [] s.fab.waiting target).filter _ = []
      rw [hempty, List.filter_nil]
    · rw [hc]
      exact ⟨rfl, (Cells.get_upd [] s.fab.held x.queue x.queue (· ++ [x])).trans (if_pos rfl), rfl, s.setFab_frame _ (by decide) rfl⟩
  · exact ⟨_, rfl, (Cells.get_upd _ _ _ _ _).trans (if_pos rfl), s.setFab_frame _ (by decide) rfl⟩
  · obtain ⟨hwaiting, hheld, hlock, hresets⟩ := s.drain_withdraws m
    exact ⟨s.drain m, rfl, hwaiting, hheld, hlock target, hresets, s.drain_frame m, fun hnone => State.drain_idle hnone⟩
  · obtain ⟨u, hu, hfound, hexec⟩ := execPoolScrubPass_powered found hpow
    have hcount : u.fab.scrubs = s.fab.scrubs := congrArg (fun p => p.2.2.1) hu.standing
    refine ⟨_, hexec, congrArg (· + 1) hcount, fun b hb hflips => ?_,
      State.frame_mono (State.frame_next hu.frame (State.setFab_frame _ _ (by decide) rfl)) (by decide)⟩
    have hone : u = s.poolParity b 1 := by
      rw [hfound hflips, hb]
      rfl
    subst hone
    exact ⟨congrArg FabG.poolParity (s.poolParity_fab b 1), State.told_of_frame (s.poolParity_told b 1)
      (State.setFab_frame _ _ (List.mem_singleton.2 rfl) rfl) (by decide) (by decide), s.poolParity_corrected b⟩
  · have hall := State.Transfers.foldl (fun u f => u.found_transfers f) (found.filter (fun f => !f.ofPool)) s
    have hcount : ((found.filter (fun f => !f.ofPool)).foldl State.found s).fab.patrols = s.fab.patrols :=
      congrArg (fun p => p.2.2.2.1) hall.standing
    refine ⟨_, execDramPatrolPass_powered found hpow, congrArg (· + 1) hcount, fun b hb => ?_,
      State.frame_mono (State.frame_next hall.frame (State.setFab_frame _ _ (by decide) rfl)) (by decide)⟩
    subst hb
    obtain ⟨htold, hbad, huncorr⟩ := s.dramBad_told 1
    exact ⟨hbad, huncorr, State.told_of_frame htold (State.setFab_frame _ _ (List.mem_singleton.2 rfl) rfl) (by decide) (by decide)⟩
  · obtain ⟨htold, hcount, hf⟩ := s.mramFixed_told
    exact ⟨_, if_pos ha, hcount, htold, hf.frame⟩
  · have hall := State.Transfers.foldl (fun (u : State) (_ : Nat) => u.mramFixed_told.2.2) (found.filter (fun a => decide (a < 0x2000000))) s
    refine ⟨_, rfl, congrArg (fun p => p.2.2.2.2 + 1) hall.standing, fun hnone => by rw [hnone]; rfl,
      State.frame_next hall.frame (State.setFab_frame _ _ (by decide) rfl)⟩
  · intro c
    have hget : ∀ y, Cells.get Crossing.reset (Cells.upd Crossing.reset s.fab.crossings x (·.cycle n reflect take)) y =
        if y = x then c.cycle n reflect take else s.fab.crossing y := fun y => Cells.get_upd _ _ _ _ _
    have hself := (hget x).trans (if_pos rfl)
    refine ⟨_, if_pos ⟨hx, hfence⟩, hself, fun hwait => ?_, fun htake => ?_, fun y hy => (hget y).trans (if_neg hy), s.setFab_frame _ (by decide) rfl⟩
    · exact (congrArg (fun d : Crossing => d.pending + if d.published = c.published then 0 else 1) hself).trans (c.cycle_conserves n reflect take hwait)
    · subst htake
      exact (congrArg Crossing.last hself).trans ((c.cycle_taken n reflect).trans (congrArg Crossing.published hself).symm)

end Sys2Proof.Machine
end
